-- ==== Sys2Proof/Word.lean ====
section
/-! DEFINITION. The word types of the KT8 model and nothing else (R3, R5, R47, R227). -/

namespace Sys2Proof

/-- One byte of a memory, a flash page or a frame. -/
abbrev Byte := BitVec 8

/-- A 128-bit instruction word (R47). -/
abbrev IWord := BitVec 128

/-- A 64-bit management register value (R5). -/
abbrev Reg := BitVec 64

/-- Core index C0 to C7 (R19). -/
abbrev CoreId := Fin 8

/-- Bullock index UD0, UD1 (R12). -/
abbrev UdId := Fin 2

/-- Stack index S0 to S7 (R12). -/
abbrev StackId := Fin 8

/-- Compute die index CD0 to CD3 (R12). -/
abbrev DieId := Fin 4

/-- Fabric lane number k = 8 x trunk + lane, 0 to 63 (R316). -/
abbrev LaneId := Fin 64

/-- Ethernet port E0, E1 (R13). -/
abbrev PortId := Fin 2

/-- Device ID of a module in the fabric (R49). -/
abbrev DevId := BitVec 14

end Sys2Proof
end

