-- ==== Sys2Proof/Events.lean ====
section
/-! DEFINITION. Types that both the commands and the state name: the units of a core, and a clock master of IEEE 1588. -/

namespace Sys2Proof.Machine

/-- The engine units of a core that own an issue queue (R19), and the core-cache controller (R62). -/
inductive EngUnit where
  | ox | vec | row | att | gath | m0 | m1 | m2 | m3 | msg | cache
  deriving DecidableEq, Repr

/-- What an Ethernet frame carries above its MAC header (R343, R344); `extra`: options, a fragment or an extension header. -/
inductive EthNet where
  | arp
  | ip4 (dst : BitVec 32) (extra : Bool)
  | ip6 (dst : BitVec 128) (extra : Bool)
  | other (ethertype : BitVec 16)
  deriving DecidableEq, Repr

/-- An Ethernet frame as far as the checks of R344 read it, with the FEC codewords corrected and uncorrectable in it. -/
structure EthFrame where
  mac       : BitVec 48
  /-- length, FCS included (R343) -/
  bytes     : Nat
  vlans     : List (BitVec 12)
  net       : EthNet
  udp       : Option (BitVec 16)
  badFcs    : Bool
  fecCorr   : Nat
  fecUncorr : Nat
  deriving DecidableEq, Repr

/-- A grandmaster as its Announce describes it, in the order the best master clock algorithm compares (R359). -/
structure PtpMaster where
  prio1    : Nat
  class_   : Nat
  accuracy : Nat
  variance : Nat
  prio2    : Nat
  identity : Nat
  steps    : Nat
  /-- port identity of the sender -/
  sender   : Nat
  /-- logarithm of the interval between its Announces, signed -/
  logInt   : BitVec 8
  deriving DecidableEq, Repr

/-- What the inlet sensor (R377), the plant inputs (R376) and the carrier's pins read at one sample of 1 ms; temperature in °C. -/
structure PlantSample where
  inlet   : BitVec 8
  /-- the inlet sensor works -/
  inletOk : Bool
  /-- pulses per second of each input -/
  pulseHz : Vector (BitVec 16) 4
  /-- pulses that the filters of RESET_N, PWR_EN, THROTTLE_N and COOL_OK removed since the last sample (R441) -/
  glitches : Nat
  /-- levels of PPS_IN and UART_RX (R446) -/
  ppsIn   : Bool
  uartRx  : Bool
  deriving DecidableEq, Repr

/-- A Block Read of the SMBus target: the address called, and whether the reader clocks a packet error code (R443). -/
structure SmbRead where
  addr : BitVec 7
  pec  : Bool
  deriving DecidableEq, Repr

/-- What the sensors of R374 and the plant inputs read at one sample of 1 ms; temperatures in °C. -/
structure HeatSample extends PlantSample where
  /-- compute dies, 16 sensors each, die by die -/
  compute : Vector (BitVec 8) 64
  /-- update and optical dies, 4 sensors each, die by die -/
  others  : Vector (BitVec 8) 16
  /-- optical engines of the eight trunks and the two Ethernet ports -/
  optical : Vector (BitVec 8) 10
  deriving DecidableEq, Repr

/-- An input below 54 V for 20 µs (R364): its voltage, and whether it is back within the hold-up time. -/
structure InputDip where
  mv   : BitVec 16
  back : Bool
  deriving DecidableEq, Repr

end Sys2Proof.Machine
end

