-- ==== Sys2Proof/JobImage.lean ====
section
/-! DEFINITION. The decoded job image that a JOB_LOAD names (R28, R29, R51, R225, R229, R230, R331, R352, R449). The
manual gives its contents and no byte layout, so the command carries the decoded fields beside the bytes in memory. -/

namespace Sys2Proof.Machine

/-- What the image records of one core (R28, R51). -/
structure JobCore where
  bcast      : Bool
  groupSize  : BitVec 2
  bellwether : BitVec 3
  entry      : BitVec 17
  /-- the image uses the core -/
  used       : Bool
  /-- instruction words: word address, word; a word not listed is zero -/
  words      : List (BitVec 17 × BitVec 128)
  deriving DecidableEq, Repr

/-- An HBM region of the partition: base in GiB, size in GiB minus 1, flags, as HBM.PREG holds them (R230). -/
structure JobRegion where
  base    : BitVec 10
  size    : BitVec 10
  scratch : Bool
  nopf    : Bool
  deriving DecidableEq, Repr

/-- Ring of one Bullock for the partition (R204, R225). -/
structure JobRing where
  ud   : Fin 2
  base : BitVec 42
  log2 : BitVec 4
  deriving DecidableEq, Repr

/-- Slot tables of the image (R331). -/
structure JobSlots where
  frameM1   : BitVec 13
  lateSlots : BitVec 13
  /-- entries that are not zero: 8,192 x trunk + slot, 16 bytes -/
  entries   : List (Nat × BitVec 128)
  deriving DecidableEq, Repr

structure JobImage where
  /-- cores of the partition, first to last -/
  cores    : List JobCore
  regions  : List JobRegion
  devMap   : BitVec 12288
  /-- interleave mode needed for a group of regions it uses: group, mode (R229) -/
  ilv      : List (Fin 16 × BitVec 2)
  slots    : Option JobSlots
  rings    : List JobRing
  /-- SHARE_P0 and SHARE_P1 per Bullock (R202) -/
  shares   : List (Fin 2 × BitVec 5 × BitVec 5)
  /-- interface level it needs (R397) -/
  iflevel  : BitVec 16
  /-- silicon steppings it runs on, one bit each (R350) -/
  steppings : BitVec 16
  deriving DecidableEq, Repr

end Sys2Proof.Machine
end

