-- ==== Sys2Proof/Packet.lean ====
section
/-! DEFINITION. The fabric packet as plain data (R300): four header words and the payload bytes. -/

namespace Sys2Proof.Machine

/-- A packet of the Kwesum Light Fabric: its header words 0 to 3 and LEN x 64 bytes of payload (R300). -/
structure Packet where
  w0 : BitVec 64
  w1 : BitVec 64
  w2 : BitVec 64
  w3 : BitVec 64
  payload : List Byte
  deriving DecidableEq, Repr

end Sys2Proof.Machine
end

