-- ==== Sys2Proof/Syntax.lean ====
section
/-! DEFINITION. The commands of the block: one constructor per row of spec/opcode_table.json, in the table's order, with the
operands the row's rule gives it. A core's instruction carries the core that fetches it and its 128-bit word (R47). -/

namespace Sys2Proof

open Sys2Proof.Machine

/-- A command or event of the module. -/
inductive Instr where
  /-- NOP (R60): SEQ no-operation instruction; signals at issue if SIGCC names a counter. -/
  | nop (c : CoreId) (w : IWord)
  /-- END (R63): Stops fetching; ACTIVE falls once every earlier operation has completed. -/
  | endProgram (c : CoreId) (w : IWord)
  /-- BR (R61): Conditional branch on a general register, a flag or a counter, resolved by the Bellwether in
  broadcast mode. -/
  | br (c : CoreId) (w : IWord)
  /-- LOOP (R61): Decrements a general register and branches while the result is not zero. -/
  | loop (c : CoreId) (w : IWord)
  /-- CALL (R61): Pushes the return address and branches; inconsistent on call-stack overflow. -/
  | call (c : CoreId) (w : IWord)
  /-- RET (R61): Pops the return address; inconsistent on an empty stack. -/
  | ret (c : CoreId) (w : IWord)
  /-- WAITCC (R56): Stalls the sequencer until a counter reaches its target or the timeout expires, then sets
  F_ERR and F_TMO. -/
  | waitcc (c : CoreId) (w : IWord)
  /-- WAITQ (R72): Stalls until the head message of a queue is complete or the timeout expires. -/
  | waitq (c : CoreId) (w : IWord)
  /-- DRAIN (R63): Stalls until every engine named in the mask has an empty queue and nothing in flight. -/
  | drain (c : CoreId) (w : IWord)
  /-- CCSET (R61): Writes a counter value and clears its ERR bit. -/
  | ccset (c : CoreId) (w : IWord)
  /-- CCADD (R61): Adds an amount to a counter modulo 2^31, leaving ERR unchanged. -/
  | ccadd (c : CoreId) (w : IWord)
  /-- CCREAD (R61): Copies a counter's 32 bits into a general register. -/
  | ccread (c : CoreId) (w : IWord)
  /-- SETAR (R60): Sets an address register, with per-core substitution of its value. -/
  | setar (c : CoreId) (w : IWord)
  /-- SETAS (R60): Sets a signed per-core stride register. -/
  | setas (c : CoreId) (w : IWord)
  /-- ADDAR (R61): Adds an immediate or general register to the local part of an address register, modulo 2^42.
  -/
  | addar (c : CoreId) (w : IWord)
  /-- SETGR (R60): Sets a general register to an immediate, plus rank under substitution. -/
  | setgr (c : CoreId) (w : IWord)
  /-- ADDGR (R61): Writes GRa plus an immediate into GRd. -/
  | addgr (c : CoreId) (w : IWord)
  /-- SLD (R62): Scalar load through the core cache, or from the home with FRESH, stalling until the value is in
  the register. -/
  | sld (c : CoreId) (w : IWord)
  /-- SST (R62): Scalar store through the write-back core cache, also to memory with THRU. -/
  | sst (c : CoreId) (w : IWord)
  /-- ATOM (R280): Atomic fetch-add, compare-swap, max or min performed at the home, returning the old value. -/
  | atom (c : CoreId) (w : IWord)
  /-- CFLUSH (R62): Writes back dirty core-cache lines of an HBM range. -/
  | cflush (c : CoreId) (w : IWord)
  /-- CINV (R62): Discards core-cache lines of an HBM range without writeback. -/
  | cinv (c : CoreId) (w : IWord)
  /-- CFLINV (R62): Writes back and then invalidates core-cache lines of an HBM range. -/
  | cflinv (c : CoreId) (w : IWord)
  /-- LAUNCH_AT (R64): Issues the following engine instruction to be held until fabric time reaches the launch
  time. -/
  | launchAt (c : CoreId) (w : IWord)
  /-- KCGSET (R198): Sets the KCG seed and stream used by later stochastic and random instructions. -/
  | kcgset (c : CoreId) (w : IWord)
  /-- REGION_BEGIN (R66): Opens a timing region and records fabric time. -/
  | regionBegin (c : CoreId) (w : IWord)
  /-- REGION_END (R429): Closes the innermost region and updates its count, time and slip. -/
  | regionEnd (c : CoreId) (w : IWord)
  /-- ILLEGAL_INSTRUCTION (R74): A word that is illegal at decode is skipped, counted, recorded and signalled
  through a null entry. -/
  | illegalInstruction (c : CoreId) (w : IWord)
  /-- FETCH_BEYOND_END (R74): Fetch past word 131,071 fails under cause 0x08 and the core ends or stops. -/
  | fetchBeyondEnd (c : CoreId)
  /-- NULL_ENTRY_SIGNAL (R76): A null entry at the head of its engine queue signals once every earlier operation
  of that engine has signalled. -/
  | nullEntrySignal (c : CoreId) (u : EngUnit)
  /-- BROADCAST_DELIVERY (R25): A decoded instruction arrives over the ring into a member's broadcast buffer. -/
  | broadcastDelivery (c : CoreId)
  /-- RING_CREDIT_RETURN (R25): A credit for a freed buffer place reaches the Bellwether, which may then send.
  -/
  | ringCreditReturn (c : CoreId)
  /-- LDW (R85): Loads a weight tile and its scales into a plane. -/
  | ldw (c : CoreId) (w : IWord)
  /-- MM (R87): Streams input rows through a loaded plane in one direction and writes output rows. -/
  | mm (c : CoreId) (w : IWord)
  /-- DUAL (R93): Interleaves a forward and a backward stream through one plane. -/
  | dual (c : CoreId) (w : IWord)
  /-- WGRAD (R98): Computes a weight gradient through the transposing stream loader, honouring the frozen mask.
  -/
  | wgrad (c : CoreId) (w : IWord)
  /-- LDW_START (R86): The load unit starts an LDW once free and earlier streams on the plane have entered their
  last row. -/
  | ldwStart (c : CoreId)
  /-- STREAM_START (R86): The stream unit starts an MM or DUAL once free and the plane is not LOADING. -/
  | streamStart (c : CoreId)
  /-- WGRAD_START (R86): WGRAD starts once every earlier OX instruction has completed and holds both units. -/
  | wgradStart (c : CoreId)
  /-- VEC_ADD (R139): Elementwise A + B, correctly rounded. -/
  | vecAdd (c : CoreId) (w : IWord)
  /-- VEC_SUB (R139): Elementwise A − B, correctly rounded. -/
  | vecSub (c : CoreId) (w : IWord)
  /-- VEC_MUL (R139): Elementwise A × B, correctly rounded. -/
  | vecMul (c : CoreId) (w : IWord)
  /-- VEC_FMA (R139): Elementwise A × B + D with one rounding. -/
  | vecFma (c : CoreId) (w : IWord)
  /-- VEC_DIV (R139): Elementwise A / B, correctly rounded. -/
  | vecDiv (c : CoreId) (w : IWord)
  /-- VEC_MAX (R139): Elementwise larger of A and B. -/
  | vecMax (c : CoreId) (w : IWord)
  /-- VEC_MIN (R139): Elementwise smaller of A and B. -/
  | vecMin (c : CoreId) (w : IWord)
  /-- VEC_ABS (R139): Elementwise absolute value. -/
  | vecAbs (c : CoreId) (w : IWord)
  /-- VEC_NEG (R139): Elementwise negation. -/
  | vecNeg (c : CoreId) (w : IWord)
  /-- VEC_COPY (R139): Elementwise copy. -/
  | vecCopy (c : CoreId) (w : IWord)
  /-- VEC_SQRT (R139): Elementwise square root. -/
  | vecSqrt (c : CoreId) (w : IWord)
  /-- VEC_RSQRT (R139): Elementwise reciprocal square root per the reference vectors. -/
  | vecRsqrt (c : CoreId) (w : IWord)
  /-- VEC_ADDS (R139): Adds a scalar to every element. -/
  | vecAdds (c : CoreId) (w : IWord)
  /-- VEC_MULS (R139): Multiplies every element by a scalar. -/
  | vecMuls (c : CoreId) (w : IWord)
  /-- VEC_MAXS (R139): Elementwise max with a scalar. -/
  | vecMaxs (c : CoreId) (w : IWord)
  /-- VEC_MINS (R139): Elementwise min with a scalar. -/
  | vecMins (c : CoreId) (w : IWord)
  /-- VEC_FMAS (R139): Elementwise A × s + D with one rounding. -/
  | vecFmas (c : CoreId) (w : IWord)
  /-- VEC_EXP (R139): Elementwise exponential per the reference vectors. -/
  | vecExp (c : CoreId) (w : IWord)
  /-- VEC_LOG (R139): Elementwise natural logarithm per the reference vectors. -/
  | vecLog (c : CoreId) (w : IWord)
  /-- VEC_SIGMOID (R139): Elementwise sigmoid per the reference vectors. -/
  | vecSigmoid (c : CoreId) (w : IWord)
  /-- VEC_TANH (R139): Elementwise tanh per the reference vectors. -/
  | vecTanh (c : CoreId) (w : IWord)
  /-- VEC_SILU (R139): Elementwise SiLU per the reference vectors. -/
  | vecSilu (c : CoreId) (w : IWord)
  /-- VEC_DSILU (R139): Elementwise derivative of SiLU. -/
  | vecDsilu (c : CoreId) (w : IWord)
  /-- VEC_GELU (R139): Elementwise tanh-form GELU. -/
  | vecGelu (c : CoreId) (w : IWord)
  /-- VEC_DGELU (R139): Elementwise derivative of GELU. -/
  | vecDgelu (c : CoreId) (w : IWord)
  /-- VEC_SUM (R141): Sums A in the fixed lane order into one FP32 element. -/
  | vecSum (c : CoreId) (w : IWord)
  /-- VEC_SUMSQ (R141): Sums the squares of A in the fixed lane order. -/
  | vecSumsq (c : CoreId) (w : IWord)
  /-- VEC_RMAX (R139): Writes the largest element of A as FP32. -/
  | vecRmax (c : CoreId) (w : IWord)
  /-- VEC_AMAX (R139): Writes the largest magnitude of A as FP32. -/
  | vecAmax (c : CoreId) (w : IWord)
  /-- VEC_RAND (R142): Writes uniform KCG values in [0, 1) indexed by output address. -/
  | vecRand (c : CoreId) (w : IWord)
  /-- CRED (R144): Combines received chunk slots in chunk-index order into a result. -/
  | cred (c : CoreId) (w : IWord)
  /-- CONV (R143): Converts one row between formats with round-to-nearest-even, writing scales. -/
  | conv (c : CoreId) (w : IWord)
  /-- CONV_SR (R143): Converts one row between formats with stochastic rounding. -/
  | convSr (c : CoreId) (w : IWord)
  /-- VEC_OP_START (R145): The vector engine starts the next queued instruction when the previous occupancy
  ends. -/
  | vecOpStart (c : CoreId)
  /-- ROW_FWD (R150): Normalisation or softmax forward, recording statistics or folding segments. -/
  | rowFwd (c : CoreId) (w : IWord)
  /-- ROW_BWD (R156): Normalisation or softmax backward using a statistics entry, freeing it unless KEEP. -/
  | rowBwd (c : CoreId) (w : IWord)
  /-- STAT_FREE (R157): Frees a statistics entry, or all entries of a layer with KIND 15. -/
  | statFree (c : CoreId) (w : IWord)
  /-- ROW_OP_START (R152): A row operation starts after the previous one on the core has signalled. -/
  | rowOpStart (c : CoreId)
  /-- ATT_FWD (R172): Fused attention forward over the processed spans with online softmax. -/
  | attFwd (c : CoreId) (w : IWord)
  /-- ATT_BWD (R177): Attention backward, producing dq and adding into dK and dV. -/
  | attBwd (c : CoreId) (w : IWord)
  /-- APPEND (R168): Writes new K and V positions into a slot's page sets and advances LEN. -/
  | append (c : CoreId) (w : IWord)
  /-- BUCKET (R182): Sorts sequence lengths into buckets and writes results, summary and order. -/
  | bucket (c : CoreId) (w : IWord)
  /-- SLOT_SET (R165): Checks a slot descriptor and writes the slot's state. -/
  | slotSet (c : CoreId) (w : IWord)
  /-- SLOT_CLR (R165): Makes a sequence slot invalid. -/
  | slotClr (c : CoreId) (w : IWord)
  /-- ATT_OP_START (R167): The ATT engine starts its next instruction under the queue-order rules. -/
  | attOpStart (c : CoreId)
  /-- GATHER (R245): Copies indexed table rows into a destination through the gather threads. -/
  | gather (c : CoreId) (w : IWord)
  /-- WALK (R246): Translates token positions through a page table into row addresses. -/
  | walk (c : CoreId) (w : IWord)
  /-- COPY1 (R232): Copies a contiguous range within this module. -/
  | copy1 (c : CoreId) (w : IWord)
  /-- COPYD (R71): Descriptor-driven copy, local, best-effort, scheduled or from an ingest buffer. -/
  | copyd (c : CoreId) (w : IWord)
  /-- MULE_COPY_START (R232): A Mule engine takes the next copy once the previous has issued its last write or
  packet. -/
  | muleCopyStart (c : CoreId) (m : Fin 4)
  /-- SEND (R37): Sends a message to a destination queue in TRY or WAIT form. -/
  | send (c : CoreId) (w : IWord)
  /-- SEND_WAIT_LIMIT (R37): A WAIT-form message held for 1 ms is sent as TRY would. -/
  | sendWaitLimit (c : CoreId)
  /-- RECV (R40): Takes the head message of a queue into core SRAM and frees its entries. -/
  | recv (c : CoreId) (w : IWord)
  /-- MSG_FLUSH (R41): Requests a flush of a queue at the next message boundary. -/
  | msgFlush (c : CoreId) (w : IWord)
  /-- MARK (R42): Saves the read position of a KT4-mode queue. -/
  | mark (c : CoreId) (w : IWord)
  /-- REWIND (R42): Returns the read position of a KT4-mode queue to the mark. -/
  | rewind (c : CoreId) (w : IWord)
  /-- RELEASE (R42): Frees every entry before the read position of a KT4-mode queue. -/
  | release (c : CoreId) (w : IWord)
  /-- LOCAL_MESSAGE_ARRIVAL (R34): A message from a local core or a Bullock reaches a queue and is accepted or
  ignored. -/
  | localMessageArrival (c : CoreId) (q : Fin 16) (n : Nat)
  /-- STATUS_TIMEOUT (R39): No status within 1 ms of a send; the counter is signalled with ERR. -/
  | statusTimeout (c : CoreId) (id : Nat)
  /-- LAUNCH_TIME_REACHED (R64): A held operation starts when fabric time reaches its launch time. -/
  | launchTimeReached (c : CoreId) (u : EngUnit)
  /-- OPERATION_COMPLETE (R54): An engine operation's writes become visible; it signals and releases its
  scoreboard entries. -/
  | operationComplete (c : CoreId) (u : EngUnit) (i : Nat)
  /-- WAIT_TIMEOUT (R56): A WAITCC or WAITQ timeout expires; F_TMO set and WAIT_TIMEOUT counted. -/
  | waitTimeout (c : CoreId)
  /-- CORE_MODE_WRITE (R30): Write to CORE.MODE, ignored with WRITE_REJ while ACTIVE. -/
  | coreModeWrite (c : CoreId) (v : Reg)
  /-- MSGQ_FLUSH_WRITE (R41): Write of 1 to CORE.MSGQ_CTRL.FLUSH requests a flush. -/
  | msgqFlushWrite (c : CoreId) (q : Fin 16)
  /-- MSGQ_KT4_WRITE (R43): Write changing KT4 mode, effective only on an empty unlocked queue, else sets
  OVERRUN. -/
  | msgqKt4Write (c : CoreId) (q : Fin 16) (kt4 : Bool)
  /-- QLM_CTRL_WRITE (R135): Write to UDn.QLM_CTRL, ignored with BAD_WRITE for STEPS 0 or THRESH above 10,000.
  -/
  | qlmCtrlWrite (u : UdId) (v : Reg)
  /-- ARB_WRITE (R202): Write of Bullock arbitration shares, ignored above 16. -/
  | arbWrite (u : UdId) (v : Reg)
  /-- HC_CTRL_WRITE (R240): Write to HBM.HC_CTRL; clearing a die's EN writes back and frees its frames. -/
  | hcCtrlWrite (v : Reg)
  /-- ECC_CTRL_WRITE (R267): Write to HBM.ECC_CTRL, ignored for RET_THRESH 0. -/
  | eccCtrlWrite (v : Reg)
  /-- SCRUB_CTRL_WRITE (R267): Write to HBM.SCRUB_CTRL, ignored for a period outside 1 to 168 h. -/
  | scrubCtrlWrite (v : Reg)
  /-- PC_VIEW_WRITE (R267): Retires a pin or returns it to service on the selected pseudo-channel. -/
  | pcViewWrite (v : Reg)
  /-- FMAP_WRITE (R306): Software enters or removes a fault-map link at an index. -/
  | fmapWrite (i : Fin 64) (v : Reg)
  /-- RETRAIN (R294): Write of 1 to FAB.LANE_CTRL.RETRAIN retrains the lane. -/
  | retrain (k : LaneId) (v : Reg)
  /-- INJ_CTRL_WRITE (R315): Write to FAB.INJ_CTRL; setting EN writes injection records and sets INJ_USED. -/
  | injCtrlWrite (v : Reg)
  /-- INJ_SEED_WRITE (R315): Write of the injection seed, refused without PERMIT. -/
  | injSeedWrite (v : Reg)
  /-- LANE_INJ_WRITE (R315): Write of a lane's injection rates, refused without PERMIT, recorded when a rate
  changes. -/
  | laneInjWrite (k : LaneId) (v : Reg)
  /-- SLOT_ENTRY_WRITE (R341): Write of a slot-table entry half, refused with BAD_WRITE while EN is 1. -/
  | slotEntryWrite (hi : Bool) (v : Reg)
  /-- CAP_WRITE (R370): Write of the software power cap, ignored outside 600 W to the ceiling. -/
  | capWrite (v : Reg)
  /-- BOOT_CTRL_WRITE (R400): Write of preferred firmware slots, updating the flash boot record. -/
  | bootCtrlWrite (v : Reg)
  /-- FL_READ_PAGE (R399): Flash command 1 reads a page into the buffer. -/
  | flReadPage
  /-- FL_PROGRAM_PAGE (R399): Flash command 2 programs the buffer into a page, refusing protected targets. -/
  | flProgramPage
  /-- FL_ERASE_SECTOR (R399): Flash command 3 erases a 64 KiB sector, refusing protected targets. -/
  | flEraseSector
  /-- FLASH_COMMAND_DONE (R399): A running flash command completes; BUSY clears and DONE is set. -/
  | flashCommandDone (failed : Bool)
  /-- COMMIT_ST (R407): Raises the steward rollback floor to the running image's SVN. -/
  | commitSt
  /-- COMMIT_BU (R407): Raises the Bullock rollback floor to the running image's SVN. -/
  | commitBu
  /-- REVOKE (R407): Revokes a firmware key in fuses unless a running image needs it. -/
  | revoke (j : Fin 4)
  /-- FUSE_OPERATION_DONE (R407): A fuse operation completes and writes a Goose record. -/
  | fuseOperationDone
  /-- CTRL_FREEZE (R425): Write of FREEZE to GOOSE.CTRL freezes the ring or restarts the timeout. -/
  | ctrlFreeze (maxS : BitVec 8)
  /-- CTRL_THAW (R425): Write of THAW to GOOSE.CTRL ends the freeze and writes the queue. -/
  | ctrlThaw (maxS : BitVec 8)
  /-- REGISTER_WRITE (R7): Write to any other register field under its access code. -/
  | registerWrite (a : BitVec 32) (v : Reg)
  /-- DOORBELL_WRITE (R204): A write reaching a ring's doorbell granule makes the Bullock read and accept or
  reject TAIL. -/
  | doorbellWrite (u : UdId) (p : Fin 8) (tail : BitVec 64)
  /-- UPDATE (R207): Bullock runs an update program over one share of a layer's tensors. -/
  | update (u : UdId)
  /-- ROOT (R219): Bullock computes inverse roots of statistics matrices by Newton iteration. -/
  | root (u : UdId)
  /-- BULLOCK_RETIRE (R205): A command's writes become visible, HEAD is written and the counter signalled. -/
  | bullockRetire (u : UdId)
  /-- HBM_REQUEST (R234): An access reaches a stack controller, served from the heat cache or stack, counted and
  hinted. -/
  | hbmRequest (a : BitVec 40) (wr : Option (List Byte)) (hint : Fin 4) (pins : List (Fin 36))
  /-- FILL_COMPLETE (R237): A promoted frame finishes reading its page and becomes VALID. -/
  | fillComplete (d : DieId) (frame : Fin 1024)
  /-- EPOCH_BOUNDARY (R236): Counts halve and unreset frames age at each heat-cache epoch. -/
  | epochBoundary
  /-- SCRUB_READ (R262): The patrol scrub reads and corrects the next line of a stack. -/
  | scrubRead (st : StackId) (pins : List (Fin 36))
  /-- HBM_TEMP_SAMPLE (R266): A stack temperature is read, doubling or restoring refresh and asserting throttle
  or trip. -/
  | hbmTempSample (st : StackId) (t : BitVec 8)
  /-- LSU_FAULT (R289): A light-source unit faults or is removed; its two trunks go OFF. -/
  | lsuFault (u : Fin 4) (removed : Bool)
  /-- LSU_READY (R289): A light-source unit becomes ready and its trunks start bring-up. -/
  | lsuReady (u : Fin 4)
  /-- LANE_BRING_UP (R295): A lane trains, locks, exchanges hellos and comes UP. -/
  | laneBringUp (k : LaneId) (mask : BitVec 8)
  /-- BRING_UP_TIMEOUT (R295): A bring-up step is not reached in time and the lane goes FAILED. -/
  | bringUpTimeout (k : LaneId)
  /-- LANE_RETRY_TIMER (R294): 10 ms after FAILED the lane attempts bring-up again. -/
  | laneRetryTimer (k : LaneId)
  /-- LANE_FRAME_RECEIVED (R292): A lane frame arrives, delivering data, credits, acknowledgements, NAK and
  WAKE. Its wavelength frames (R290, R291), in ascending λ: the lowest wavelength in use, the next three, which carry the rest
  of the lane control word, and the others. `alone`: it came on the lowest one alone, as a lane in LISTEN sends it. -/
  | laneFrameReceived (k : LaneId) (seq : BitVec 16) (alone : Bool) (first : BitVec 2048) (next : Vector (BitVec 2048) 3)
      (others : List (BitVec 2048))
  /-- LOSS_OF_SIGNAL (R294): A wavelength loses signal and the lane retrains or narrows. -/
  | lossOfSignal (k : LaneId) (w : Fin 8)
  /-- LANE_WIDTH_LOSS (R294): Fewer than 4 wavelengths valid for 1 µs sends the lane to retrain. -/
  | laneWidthLoss (k : LaneId)
  /-- LISTEN_ENTRY (R296): After 10 ms idle without jobs, a lane enters LISTEN. -/
  | listenEntry (k : LaneId)
  /-- LISTEN_WAKE (R296): A queued packet, WAKE or job load returns a LISTEN lane to UP. -/
  | listenWake (k : LaneId)
  /-- HELLO_RECEIVED (R297): A hello is checked, deriving coordinates or sending the lane MISWIRED. -/
  | helloReceived (k : LaneId) (payload : List Byte)
  /-- HELLO_TIMER (R298): Periodic hello sent while deriving coordinates or restricted. -/
  | helloTimer
  /-- PACKET_HOP (R302): A packet arrives at a hop: checked, forwarded, expired, discarded or answered UNREACH.
  -/
  | packetHop (k : LaneId) (p : Packet)
  /-- ABORT_BLOCK_RECEIVED (R293): An ABORT block ends a partial packet, which is discarded and passed on. -/
  | abortBlockReceived (k : LaneId) (block : Vector Byte 32)
  /-- WRITE_PACKET_RECEIVED (R309): A WRITE at its destination is applied and acknowledged with a status. -/
  | writePacketReceived (k : LaneId) (p : Packet)
  /-- READ_PACKET_RECEIVED (R311): A READ is answered with READ_RESP data or REJ_ADDR. -/
  | readPacketReceived (k : LaneId) (p : Packet)
  /-- READ_RESP_RECEIVED (R311): Read data is written at the requester's return address. -/
  | readRespReceived (k : LaneId) (p : Packet)
  /-- SIGNAL_PACKET_RECEIVED (R310): A remote signal is applied once to a counter or discarded for a foreign
  tag. -/
  | signalPacketReceived (k : LaneId) (p : Packet)
  /-- MSG_PACKET_RECEIVED (R310): A remote message is checked for duplicates and offered to its queue, then
  acknowledged. -/
  | msgPacketReceived (k : LaneId) (p : Packet)
  /-- ACK_RECEIVED (R309): An ACK completes, rejects or resends a request and updates the credit mirror. -/
  | ackReceived (k : LaneId) (p : Packet)
  /-- CREDIT_PACKET_RECEIVED (R38): A CREDIT packet updates the MSG engine's credit mirror. -/
  | creditPacketReceived (k : LaneId) (p : Packet)
  /-- NOTICE_RECEIVED (R306): A fault-map notice adds or removes a link. -/
  | noticeReceived (k : LaneId) (p : Packet)
  /-- REQUEST_TIMEOUT (R308): An unanswered request is resent after 100 µs, or fails finally. -/
  | requestTimeout (xid : BitVec 32)
  /-- DUP_ENTRY_EXPIRY (R310): A duplicate-table entry expires 200 µs after use. -/
  | dupEntryExpiry (dev : DevId) (xid : BitVec 32)
  /-- REORDER_HOLD_EXPIRY (R314): A packet held for reorder injection is sent after 1 µs without a follower. -/
  | reorderHoldExpiry (k : LaneId)
  /-- TIME_PACKET_TIMER (R325): Every 125 µs a TIME packet is sent on every UP lane. -/
  | timePacketTimer
  /-- TIME_PACKET_RECEIVED (R326): A TIME packet yields a link measurement and runs the follower servo. -/
  | timePacketReceived (k : LaneId) (payload : List Byte)
  /-- UPSTREAM_STALE (R326): No fresh measurement for 1 ms clears LOCKED and enters holdover. -/
  | upstreamStale
  /-- HOLDOVER_ALIGN_EXPIRY (R328): A follower 1 ms in holdover loses ALIGNED. -/
  | holdoverAlignExpiry
  /-- PPS_EDGE (R322): An accepted PPS edge slews, steps or defers a step of fabric time. -/
  | ppsEdge (capt : BitVec 64)
  /-- PPS_MISSING (R323): 1.1 s without an accepted edge enters holdover. -/
  | ppsMissing
  /-- SCHEDULED_PACKET_SEND (R334): A scheduled packet leaves in its tag's run, or falls back. -/
  | scheduledPacketSend (xid : BitVec 32)
  /-- ETH_FRAME_DISCARD (R344): A frame for no served address, port or format is discarded and counted. -/
  | ethFrameDiscard (p : PortId) (f : Machine.EthFrame)
  /-- ARP_REQUEST (R344): The steward answers ARP for the port's address. -/
  | arpRequest (p : PortId) (mac : BitVec 48) (ip target : BitVec 32)
  /-- NEIGHBOUR_SOLICITATION (R344): The steward answers IPv6 neighbour solicitation. -/
  | neighbourSolicitation (p : PortId) (mac : BitVec 48) (ip target : BitVec 128)
  /-- ICMP_ECHO (R344): The steward answers ICMP and ICMPv6 echo. -/
  | icmpEcho (p : PortId) (v6 : Bool) (mac : BitVec 48) (ip target : BitVec 128) (body : List Byte)
  /-- SESSION (R348): GMCP SESSION returns the session, LAST_SEQ and interface level. -/
  | session (port : Fin 3) (m : List Byte) (held : Bool)
  /-- REG_READ (R351): GMCP register read of COUNT registers with status bytes. -/
  | regRead (port : Fin 3) (m : List Byte) (held : Bool)
  /-- REG_WRITE (R351): Authenticated GMCP register write of COUNT registers. -/
  | regWrite (port : Fin 3) (m : List Byte) (held : Bool)
  /-- JOB_LOAD (R352): Checks and places a job image into a partition, making it LOADED. -/
  | jobLoad (port : Fin 3) (m : List Byte) (held : Bool) (img : Option JobImage)
  /-- JOB_START (R352): Checks START_FT and CORE.MODE, sets the frame epoch and plant, and arms the start. -/
  | jobStart (port : Fin 3) (m : List Byte) (held : Bool)
  /-- JOB_START_TIME (R352): At START_FT every core of the partition issues its first instruction. -/
  | jobStartTime (p : Fin 8)
  /-- ABORT (R355): Stops every partition in the mask ahead of queued commands. -/
  | abort (port : Fin 3) (m : List Byte) (held : Bool)
  /-- JOB_UNLOAD (R352): Returns a partition to EMPTY and releases its resources. -/
  | jobUnload (port : Fin 3) (m : List Byte) (held : Bool)
  /-- JOB_STATUS (R349): Returns each partition's state and job tag. -/
  | jobStatus (port : Fin 3) (m : List Byte) (held : Bool)
  /-- QP_OPEN (R357): Opens a RoCEv2 queue pair for a partition. -/
  | qpOpen (port : Fin 3) (m : List Byte) (held : Bool)
  /-- QP_CLOSE (R349): Closes a queue pair. -/
  | qpClose (port : Fin 3) (m : List Byte) (held : Bool)
  /-- RDMA_REG (R357): Registers a memory window or ingest buffer and returns its R_KEY. -/
  | rdmaReg (port : Fin 3) (m : List Byte) (held : Bool)
  /-- RDMA_DEREG (R349): Removes a registered window. -/
  | rdmaDereg (port : Fin 3) (m : List Byte) (held : Bool)
  /-- TELEMETRY_RECORD (R354): TELEMETRY KIND 0 returns the 64 B module record. -/
  | telemetryRecord (port : Fin 3) (m : List Byte) (held : Bool)
  /-- TELEMETRY_NUMERIC (R354): TELEMETRY KIND 1 returns a partition's summed numerical counts. -/
  | telemetryNumeric (port : Fin 3) (m : List Byte) (held : Bool)
  /-- GOOSE_STATUS (R427): GMCP GOOSE action 0 returns the recorder status. -/
  | gooseStatus (port : Fin 3) (m : List Byte) (held : Bool)
  /-- GOOSE_READ (R427): GMCP GOOSE action 1 sets the cursor and returns the window. -/
  | gooseRead (port : Fin 3) (m : List Byte) (held : Bool)
  /-- GOOSE_FREEZE (R425): GMCP GOOSE action 2 freezes the recorder. -/
  | gooseFreeze (port : Fin 3) (m : List Byte) (held : Bool)
  /-- GOOSE_THAW (R425): GMCP GOOSE action 3 ends a freeze. -/
  | gooseThaw (port : Fin 3) (m : List Byte) (held : Bool)
  /-- ATTEST (R412): Builds and signs an attestation report, placing the signature in SYS.ATT_SIG. -/
  | attest (port : Fin 3) (m : List Byte) (held : Bool)
  /-- RESET_WARM (R393): GMCP RESET KIND 0: replies, then performs a warm reset. -/
  | resetWarm (port : Fin 3) (m : List Byte) (held : Bool)
  /-- RESET_COLD (R391): GMCP RESET KIND 1: replies, then performs a cold reset. -/
  | resetCold (port : Fin 3) (m : List Byte) (held : Bool)
  /-- UNKNOWN_OP (R349): A GMCP request with an unassigned OP is answered UNKNOWN_OP. -/
  | unknownOp (port : Fin 3) (m : List Byte) (op : Byte)
  /-- ROCE_SEND (R358): A RoCEv2 SEND fills the next free slot of an ingest buffer or gets RNR NAK. -/
  | roceSend (port : PortId) (qpn psn : BitVec 24) (ce first last : Bool) (data : List Byte)
  /-- ROCE_RDMA_WRITE (R357): An RDMA WRITE within its window is written to HBM and acknowledged. -/
  | roceRdmaWrite (port : PortId) (qpn psn : BitVec 24) (ce first last : Bool) (k : BitVec 32) (a : BitVec 64) (n : BitVec 32) (data : List Byte)
  /-- ROCE_RDMA_READ (R357): An RDMA READ request is answered with response data or NAK. -/
  | roceRdmaRead (port : PortId) (qpn psn : BitVec 24) (ce : Bool) (k : BitVec 32) (a : BitVec 64) (n : BitVec 32) (mtu : Fin 3)
  /-- ROCE_INVALID_REQUEST (R356): An unsupported transport or opcode gets NAK Invalid Request and errors the
  QP. -/
  | roceInvalidRequest (port : PortId) (qpn psn : BitVec 24) (ce : Bool)
  /-- ROCE_CNP_RECEIVED (R356): A CNP halves the QP's READ response rate. -/
  | roceCnpReceived (qpn : BitVec 24)
  /-- CNP_RATE_RECOVERY (R356): Every 55 µs a throttled QP's rate recovers by 5 %. -/
  | cnpRateRecovery (qpn : BitVec 24)
  /-- ACK_COALESCE_TIMER (R356): A coalesced ACK is sent after 4 µs. -/
  | ackCoalesceTimer (qpn : BitVec 24)
  /-- PTP_ANNOUNCE (R359): An Announce feeds best-master selection. -/
  | ptpAnnounce (domain : BitVec 7) (m : PtpMaster)
  /-- PTP_SYNC (R359): A Sync message is timestamped against FT. -/
  | ptpSync (domain : BitVec 7) (sender : BitVec 80) (seq : BitVec 16) (rx : BitVec 64) (origin : Option (BitVec 80)) (corr : BitVec 64)
  /-- PTP_FOLLOW_UP (R359): A Follow_Up supplies the master's precise send time. -/
  | ptpFollowUp (domain : BitVec 7) (sender : BitVec 80) (seq : BitVec 16) (origin : BitVec 80) (corr : BitVec 64)
  /-- PTP_DELAY_RESP (R359): A Delay_Resp completes an offset measurement feeding TOD_OFFSET. -/
  | ptpDelayResp (domain : BitVec 7) (sender : BitVec 80) (seq : BitVec 16) (rx : BitVec 80) (corr : BitVec 64) (logInt : BitVec 8)
  /-- DELAY_REQ_TIMER (R359): A Delay_Req is sent at the announced interval, at least once per second. -/
  | delayReqTimer
  /-- INPUT_LOW (R363): Input below 57 V for 1 ms writes a Goose record. -/
  | inputLow (mv : BitVec 16)
  /-- BROWN_OUT (R364): Input below 54 V for 20 µs stops fast clocks and leads to a cold reset. -/
  | brownOut (dip : Machine.InputDip)
  /-- OVER_VOLTAGE (R363): Input above 72 V for 10 µs opens the input switch. -/
  | overVoltage
  /-- POWER_ESTIMATE_TICK (R371): Every 10 µs the estimate is formed and the cap controller chooses an index. -/
  | powerEstimateTick (raw : BitVec 16) (sample : Option (BitVec 16 × BitVec 16))
  /-- CALIBRATION_WINDOW (R367): Every 100 ms gain and offset are refitted and trust is judged. -/
  | calibrationWindow
  /-- MEASUREMENT_FAIL (R369): No valid sample for 1 ms marks the measurement failed. -/
  | measurementFail
  /-- VOLTAGE_STEP (R366): A 25 mV voltage step of an operating-point change completes. -/
  | voltageStep
  /-- FAST_CURRENT_LIMIT (R372): The fast comparator trips the emergency divider and index 8. -/
  | fastCurrentLimit
  /-- OVERCURRENT_TRIP (R379): The overcurrent comparator stops every fast clock and the steward requests a cold
  reset. -/
  | overcurrentTrip
  /-- TEMPERATURE_SAMPLE (R375): Every 1 ms sensors are read and the thermal model sets plant commands and
  allowances. -/
  | temperatureSample (compute : Vector (BitVec 8) 64) (dies : Vector (BitVec 8) 16) (optical : Vector (BitVec 8) 10)
      (plant : Machine.PlantSample)
  /-- ALLOWANCE_STEP (R373): A temperature reason lowers or raises its allowed index by one at its interval. -/
  | allowanceStep (r : Fin 8)
  /-- THERMAL_TRIP (R379): A sensor at its trip level stops every fast clock. -/
  | thermalTrip (cls : Fin 4) (ix t : BitVec 8)
  /-- THERMAL_TRIP_CLEAR (R383): All sensors 20 °C below trip lead to a warm reset. -/
  | thermalTripClear
  /-- TACH_FAULT (R376): A tach or flow input below minimum for 2 s raises a plant fault. -/
  | tachFault (k : Fin 4) (hz : BitVec 16)
  /-- COOL_OK_DEASSERT (R376): COOL_OK low raises a plant fault. -/
  | coolOkDeassert
  /-- PLANT_FAULT_CLEAR (R376): 10 s after its last condition the plant fault clears. -/
  | plantFaultClear
  /-- THROTTLE_N_ASSERT (R378): THROTTLE_N falling moves the clock to index 8 in hardware. -/
  | throttleNAssert
  /-- THROTTLE_N_RELEASE (R378): THROTTLE_N rising starts the 1 ms release hold. -/
  | throttleNRelease (secs : BitVec 32)
  /-- THROTTLE_N_HOUR (R378): Each full hour asserted writes a Goose record. -/
  | throttleNHour
  /-- RELEASE_HOLD_END (R378): 1 ms after release the external reason clears. -/
  | releaseHoldEnd
  /-- IDLE_CLOCK_STOP (R380): After 10 µs idle a core stops its engine clocks. -/
  | idleClockStop (c : CoreId)
  /-- LAUNCH_WAKE (R380): 3 µs before a held launch the stopped clocks restart. -/
  | launchWake (c : CoreId)
  /-- POWER_ON (R391): The island powers up and the cold start sequence runs. -/
  | powerOn (pwrEn : Bool)
  /-- PWR_EN_RISE (R383): PWR_EN rising closes the input switch as a power-on. -/
  | pwrEnRise (early : Bool)
  /-- PWR_EN_FALL (R383): PWR_EN low opens the switch and drops the rails. -/
  | pwrEnFall
  /-- RESET_PIN (R383): RESET_N asserted holds the module in reset and leads to a cold reset at release. -/
  | resetPin
  /-- WATCHDOG (R383): An unserviced steward watchdog causes a warm reset. -/
  | watchdog
  /-- FIRMWARE_REQUEST (R383): The steward requests a reset of a named kind. -/
  | firmwareRequest (cold : Bool)
  /-- BULLOCK_FAULT (R383): A Bullock fatal error or 100 ms watchdog causes a warm reset. -/
  | bullockFault
  /-- RNG_HEALTH_FAIL (R411): The entropy source fails health tests; RNG_FAIL set. -/
  | rngHealthFail
  /-- RNG_RESEED_TIMER (R411): Each second after a failure the DRBG attempts a reseed. -/
  | rngReseedTimer
  /-- DEBUG_UNLOCK (R415): A valid signed response marks the next cold reset as unlocked. -/
  | debugUnlock (answer : Option (List Byte))
  /-- GOOSE_RECORD_WRITE (R420): The next queued record is written, read back and retried on failure. -/
  | gooseRecordWrite (fails : Fin 16)
  /-- REPEAT_UPDATE (R423): Each ms coalesced occurrences update word 7 of their record. -/
  | repeatUpdate
  /-- FREEZE_TIMEOUT (R425): A freeze ends after FREEZE_MAX_S seconds and a record is queued. -/
  | freezeTimeout
  /-- HOURS_TIMER (R422): Every 36 s with PWR_GOOD the operating-hours count advances. -/
  | hoursTimer
  /-- SLOT_ID_CHANGE (R442): A SLOT_ID change held 1 ms sets SLOT_CHANGED and writes a record. -/
  | slotIdChange (new : BitVec 6)
  /-- UART_FRAME_RECEIVED (R444): A framed GMCP message on UART_RX is checked and queued as authenticated. -/
  | uartFrameReceived (bs : List Byte) (bad : Bool) (img : Option JobImage) (held : Bool)
  /-- UART_BYTE_TIMEOUT (R444): More than 10 ms between bytes discards the frame. -/
  | uartByteTimeout
  /-- SMBUS_STATUS (R443): SMBus Block Read 0x00 returns the status copy. -/
  | smbusStatus (rd : Machine.SmbRead)
  /-- SMBUS_SERIAL (R443): SMBus Block Read 0x01 returns the serial number. -/
  | smbusSerial (rd : Machine.SmbRead)
  /-- SMBUS_OTHER_COMMAND (R443): Any other SMBus command code is NACKed. -/
  | smbusOtherCommand (addr : BitVec 7) (code : Byte)
  /-- SMBUS_TIMEOUT (R441): A line held low 25 ms resets the SMBus interface. -/
  | smbusTimeout
  /-- SMBUS_REFRESH (R443): Every 100 ms the SMBus data copy is refreshed. -/
  | smbusRefresh
  /-- RESET_N_RELEASE (R383): RESET_N rises after being held asserted and the module starts its cold start at
  the release. -/
  | resetNRelease
  /-- PWR_EN_HOLD_END (R441): 100 ms after a PWR_EN fall, a held rise closes the input switch and counts as
  power-on. -/
  | pwrEnHoldEnd
  /-- COOL_OK_ASSERT (R441): COOL_OK returns high past its 10 ms filter and starts the 10 s countdown to
  clearing the plant fault. -/
  | coolOkAssert
  /-- PFC_FRAME_RECEIVED (R343): An IEEE 802.1Qbb priority flow control frame arrives and pauses or resumes the
  port's transmission on the configured priority. -/
  | pfcFrameReceived (p : PortId) (prio : BitVec 3) (pause : Bool)
  /-- ETH_LINK_LOSS (R361): An Ethernet port loses its PHY lanes or FEC lock and LINK_UP falls. -/
  | ethLinkLoss (p : PortId)
  /-- ETH_LINK_UP (R360): Link training of an Ethernet port completes and LINK_UP rises. -/
  | ethLinkUp (p : PortId)
  deriving DecidableEq, Repr

end Sys2Proof
end

