-- ==== Sys2Proof/Config.lean ====
section
/-! DEFINITION. What the specification leaves open: values it states no result for, and functions whose bits it puts
into texts outside it (the reference vectors, the entropy source). Every one is a constant without a body,
so no proof can know it. -/

namespace Sys2Proof.Config

/-- Steps of the engines whose result bits R125, R139, R147, R151 and R172 put into the Numerics Reference Vector Set. -/
inductive RefFn where
  | exp | log | sigmoid | tanh | silu | dsilu | gelu | dgelu | rsqrt
  | rowRho | rowNormY | rowLog | rowFold | rowSoftmaxY | rowDx
  | attScale | attExp | attDs | attDelta | attLog
  deriving DecidableEq, Repr

/-- Result bits of a reference-vector function on FP32 operands (FP32 bits in, FP32 bits out). -/
opaque refF32 : RefFn → List (BitVec 32) → BitVec 32

/-- Whether a reference-vector function saturates its FP32 intermediate on these operands (R124, R125). -/
opaque refSat : RefFn → List (BitVec 32) → Bool

/-- FP32 value of the quotient 0 / 0, of which R139 states no result. -/
opaque divZeroZero : BitVec 32 → BitVec 32 → BitVec 32

/-- A u32 of an uncorrectable granule, as BUCKET takes it: by its address (R182, R260). -/
opaque unreadWord : Nat → BitVec 32

/-- Whether the line decoder miscorrects its n-th line with three or more symbols in error (R257). -/
opaque miscorrects : Nat → Bool

/-- The data a miscorrected line returns (R257). -/
opaque miscorrectedLine : Nat → BitVec 512

/-- The two pins whose symbols the decoder changes in the n-th miscorrected line; one of them with a pin retired (R257,
R258). -/
opaque miscorrectedPins : Nat → Fin 36 × Fin 36

/-- Bytes that a reader reads ahead beyond the last byte of an operand [lo, hi) of 64 KiB or more; at most 16 KiB are
(R250). -/
opaque readPast : Nat → Nat → Nat

/-- PC, ENGINE and OPCODE that the record of a fetch beyond the last word carries: there is no word (R75, cause 0x08). -/
opaque beyondEnd : BitVec 64 → BitVec 29

/-- What an empty stage of a message queue shows in the mailbox view: core, queue, stage, fabric time (R227). -/
opaque emptyStage : Nat → Nat → Nat → BitVec 64 → BitVec 512

/-- cos of the schedule engine on binary64 bits: the function of the reference vectors (R216). -/
opaque cos64 : BitVec 64 → BitVec 64

/-- STAT_DECAY of a command without a schedule record, for which R215 and R218 state no value. -/
opaque noScheduleDecay : BitVec 32

/-- SIGNAL of a ring entry whose granule read as uncorrectable (R205, R221 cause 0x09), by the n-th such read. -/
opaque badSignal : Nat → BitVec 32

/-- Rate in ppb of one pulse interval, from the captured length in ns and the rate word in force (R322, R324). -/
opaque pulseRate : BitVec 64 → BitVec 32 → BitVec 32

/-- Frequency term in ppb that a pulse source has learned from its last pulse intervals, newest first (R322). -/
opaque pulseTerm : List (BitVec 32) → BitVec 32

/-- SHA-256 of the boot ROM (R408), 32 bytes little-endian. -/
opaque romHash : BitVec 256

/-- Silicon stepping in the die fuses (R397). -/
opaque stepping : BitVec 4

/-- Firmware public keys K0 to K3 and the debug public key of the boot ROM (R405, R415). -/
opaque romKey : Nat → BitVec 256
opaque debugKey : BitVec 256

/-- Device secret that this module filled its fuses with at manufacture (R409). -/
opaque deviceSecret : BitVec 256

/-- Whether a steward image of this digest reaches READY (R395). -/
opaque imageRuns : List (BitVec 8) → Bool

/-- RST.BOOT_TIME.READY_MS of a start: cold or warm, resets since power-on. -/
opaque readyMs : Bool → BitVec 32 → BitVec 32

/-- The n-th input that the entropy source gives to the DRBG, with what goes in beside it at a first seed; whether the n-th
attempt at a reseed after a health failure finds the source sound (R411). -/
opaque entropy : Nat → BitVec 440
opaque entropySound : Nat → Bool

/-- Attempts at the record of a SEQ that do not read back, when no command says so (R420). -/
opaque failedWrites : BitVec 32 → Fin 16

/-- Byte at a flash address after a program or an erase of it that the flash reported as failed (R401). -/
opaque flashFailed : Nat → BitVec 8

/-- Input power in W that a load of the given power at one operating point would draw at another (R365, R371). -/
opaque powerScaled : Nat → Nat → Nat → Nat

/-- Whether the firmware rounds a temperature difference up to thousandths of a °C, by the exact difference in 2^-64 of them
(R375). -/
opaque roundsUp : Int → Bool

/-- Resistance from base to coolant or air, in thousandths of a °C per W, with the used outputs at these duties, not all
full: the thermal hardware, the duties (R375). -/
opaque baseResistance : Nat → List Nat → Nat

/-- Base temperature from which the thermal model starts: junction and inlet in °C (R375). -/
opaque baseAtStart : Nat → Nat → Int

/-- Command to which the n-th lowering of the plant aims (R375). -/
opaque plantLowered : Nat → BitVec 8

/-- Input voltage in mV that the record of a stop after an over-voltage shows, by event (R364, R428). -/
opaque stopMv : Nat → BitVec 16

/-- Register value of an exact quotient: the rounding of GAIN and OFFSET (R367, R381). -/
opaque roundReg : Int → Int → Int

/-- Fit of gain (in 2^-14) and offset (in W) to a window whose estimates are all equal, for which least squares has no
single answer (R367). -/
opaque fitFlat : List Nat → List Nat → Int × Int

/-- Sensor class in a thermal-trip record (R428): 0 compute-die junction, 1 update- or optical-die junction, 2 HBM stack, 3
optical engine. -/
opaque sensorClass : Fin 4 → BitVec 8

/-- Slot that the record of a start without a usable steward image names (R391, R428). -/
opaque noSlot : BitVec 8

/-- Whether a granule of a Bullock command stopped by the n-th abort or reset was written: abort number, line (R190). -/
opaque granuleDone : Nat → Nat → Bool

/-- Byte at an address of the destination of an operation stopped by the n-th abort or reset (R104). -/
opaque haltedByte : Nat → Nat → BitVec 8

/-- How many of its spans the FWD or BWD under way has streamed, and how many threads of a GATHER or WALK run and are
parked: core, fabric time (R183, R252). -/
opaque spansPast : Nat → BitVec 64 → Nat
opaque threadsRunning : Nat → BitVec 64 → Fin 33
opaque threadsParked : Nat → BitVec 64 → Fin 33

/-- The two bits of a wavelength frame that a link corruption flips, the second counted on from the first: frame number,
wavelength of those in use (R314). -/
opaque flippedBits : BitVec 16 → Nat → Fin 2048 × Fin 2047

/-- Whether a write of MSGQ_CTRL with FLUSH and a new KT4 flushes before it judges the change: core, queue, fabric time. -/
opaque flushFirst : Nat → Nat → BitVec 64 → Bool

end Sys2Proof.Config
end

