-- ==== Sys2Proof/Machine/Bits.lean ====
section
/-! DEFINITION. Bit fields, little-endian byte lists and saturating counters shared by every block (R3, R7, R8). -/

namespace Sys2Proof.Machine

/-- Field [lo + len - 1 : lo] of a word. -/
abbrev fld {n : Nat} (w : BitVec n) (lo len : Nat) : BitVec len := w.extractLsb' lo len

/-- Field [lo + len - 1 : lo] as a number. -/
def fldN {n : Nat} (w : BitVec n) (lo len : Nat) : Nat := (w.extractLsb' lo len).toNat

/-- Bit i of a word. -/
def bitB {n : Nat} (w : BitVec n) (i : Nat) : Bool := w.getLsbD i

/-- A field written into a word. -/
def setFld {n : Nat} (w : BitVec n) (lo len : Nat) (v : Nat) : BitVec n :=
  let mask : BitVec n := BitVec.ofNat n ((2 ^ len - 1) * 2 ^ lo)
  (w &&& ~~~mask) ||| BitVec.ofNat n ((v % 2 ^ len) * 2 ^ lo)

def b2n (b : Bool) : Nat := if b then 1 else 0

/-- A register value from its fields, each given as value and lowest bit; bits not listed read as zero (R8). -/
def pack (fs : List (Nat × Nat)) : BitVec 64 :=
  BitVec.ofNat 64 (fs.foldl (fun a f => a + f.1 * 2 ^ f.2) 0)

/-- A counter that saturates at its width. -/
def satAdd {w : Nat} (x : BitVec w) (n : Nat) : BitVec w :=
  if x.toNat + n < 2 ^ w then x + BitVec.ofNat w n else BitVec.allOnes w

def satInc {w : Nat} (x : BitVec w) : BitVec w := satAdd x 1

/-- A signed quantity saturated into w bits. -/
def satInt (w : Nat) (i : Int) : BitVec w :=
  if i ≥ (2 ^ (w - 1) : Int) then BitVec.ofNat w (2 ^ (w - 1) - 1)
  else if i < -(2 ^ (w - 1) : Int) then BitVec.ofNat w (2 ^ (w - 1))
  else BitVec.ofInt w i

/-- A number as its n little-endian bytes (R3). -/
def leBytes : (n : Nat) → Nat → List Byte
  | 0, _ => []
  | n + 1, x => BitVec.ofNat 8 x :: leBytes n (x / 256)

/-- The number that little-endian bytes spell (R3). -/
def leNat : List Byte → Nat
  | [] => 0
  | b :: bs => b.toNat + 256 * leNat bs

/-- A number as its n big-endian bytes (network order of R3). -/
def beBytes (n x : Nat) : List Byte := (leBytes n x).reverse

def beNat (bs : List Byte) : Nat := leNat bs.reverse

/-- Bytes off to off + n - 1 of a byte list; a missing byte is zero. -/
def slice (bs : List Byte) (off n : Nat) : List Byte :=
  ((bs.drop off).take n) ++ List.replicate (n - (bs.length - off)) 0

/-- Little-endian field of a descriptor, header or record. -/
def leAt (bs : List Byte) (off n : Nat) : Nat := leNat (slice bs off n)

def allZero (bs : List Byte) : Bool := bs.all (· == 0)

/-- ceil(a / b). -/
def ceilDiv (a b : Nat) : Nat := (a + b - 1) / b

/-- a rounded up to a multiple of b. -/
def roundUp (a b : Nat) : Nat := ceilDiv a b * b

/-- a rounded down to a multiple of b. -/
def roundDown (a b : Nat) : Nat := a / b * b

/-- Ranges [a, a + n) and [b, b + m) share a byte. -/
def overlaps (a n b m : Nat) : Bool := decide (0 < n ∧ 0 < m ∧ a < b + m ∧ b < a + n)

/-- The value of a sparse table at a key, with the value an unlisted key has. -/
def tabGet {α : Type} (t : List (Nat × α)) (k : Nat) (dflt : α) : α :=
  match t with
  | [] => dflt
  | (k', v) :: r => if k' = k then v else tabGet r k dflt

/-- A sparse table in rising key order with one key written. -/
def tabSet {α : Type} (t : List (Nat × α)) (k : Nat) (v : α) : List (Nat × α) :=
  match t with
  | [] => [(k, v)]
  | (k', v') :: r =>
    if k < k' then (k, v) :: (k', v') :: r
    else if k = k' then (k, v) :: r
    else (k', v') :: tabSet r k v

/-- A sparse table without a key. -/
def tabErase {α : Type} (t : List (Nat × α)) (k : Nat) : List (Nat × α) :=
  t.filter (fun e => e.1 != k)

/-- First `some` of a function over a list. -/
def firstSome {α β : Type} (f : α → Option β) : List α → Option β
  | [] => none
  | a :: r => match f a with
    | some b => some b
    | none => firstSome f r

/-- The list with its element at place i replaced by f of it. -/
def modAt {α : Type} (l : List α) (i : Nat) (f : α → α) : List α := l.modify i f

/-- The list without its element at place i. -/
def removeAt {α : Type} (l : List α) (i : Nat) : List α := l.eraseIdx i

/-- A vector with entry i replaced by f of it; out of range changes nothing. -/
def vmod {α : Type} {n : Nat} (v : Vector α n) (i : Nat) (f : α → α) : Vector α n :=
  if h : i < n then v.set i (f v[i]) else v

end Sys2Proof.Machine
end

