-- ==== Sys2Proof/Machine/Codes.lean ====
section
/-! DEFINITION. Check codes and hashes the specification names: CRC-16 (R300), CRC-32 of IEEE 802.3, SHA-256 and
HMAC-SHA-256 (R347, R405). -/

namespace Sys2Proof.Machine

/-- One bit of CRC-16, polynomial 0x1021, most significant bit first. -/
def crc16Bit (c : BitVec 16) (b : Bool) : BitVec 16 :=
  if c.getLsbD 15 != b then (c <<< 1) ^^^ 0x1021#16 else c <<< 1

def crc16Byte (c : BitVec 16) (b : Byte) : BitVec 16 :=
  (List.range 8).foldl (fun c i => crc16Bit c (b.getLsbD (7 - i))) c

/-- CRC-16 of R300: initial 0xFFFF, no reflection, no final XOR. -/
def crc16 (bs : List Byte) : BitVec 16 := bs.foldl crc16Byte 0xFFFF#16

def crc32Bit (c : BitVec 32) (b : Bool) : BitVec 32 :=
  if c.getLsbD 0 != b then (c >>> 1) ^^^ 0xEDB88320#32 else c >>> 1

def crc32Byte (c : BitVec 32) (b : Byte) : BitVec 32 :=
  (List.range 8).foldl (fun c i => crc32Bit c (b.getLsbD i)) c

/-- CRC-32 of IEEE 802.3: polynomial 0x04C1_1DB7 reflected, initial and final XOR all ones. -/
def crc32 (bs : List Byte) : BitVec 32 := (bs.foldl crc32Byte 0xFFFFFFFF#32) ^^^ 0xFFFFFFFF#32

/-! ## SHA-256 (the hash R347, R405 and chapter 18 name), over 256-bit and 512-bit words -/

/-- The largest r below 2^36 whose n-th power does not exceed x. -/
def rootFloor (n x : Nat) : Nat :=
  (List.range 36).foldl (fun r i => let t := r + 2 ^ (35 - i); if t ^ n ≤ x then t else r) 0

/-- The primes up to 311: sixty-four of them, the first eight up to 19. -/
def hashPrimes : List Nat :=
  (List.range 312).filter (fun p => decide (2 ≤ p) && (List.range 18).all (fun d => d < 2 || p == d || p % d != 0))

/-- The first 32 bits of the fraction of the n-th root of p. -/
def rootFraction (n p : Nat) : BitVec 32 := BitVec.ofNat 32 (rootFloor n (p * 2 ^ (32 * n)))

/-- Round constants: from the cube roots of the first sixty-four primes. -/
def roundConstants : List (BitVec 32) := hashPrimes.map (rootFraction 3)

/-- Word i of a packed word, word 0 being the most significant. -/
def packedWord {n : Nat} (v : BitVec n) (i : Nat) : BitVec 32 := fld v (n - 32 * (i + 1)) 32

/-- The initial hash value: from the square roots of the first eight primes, the first prime's word on top. -/
def hashStart : BitVec 256 :=
  (hashPrimes.take 8).foldl (fun v p => (v <<< 32) ||| (rootFraction 2 p).setWidth 256) 0

/-- XOR of three rotations. -/
def spin (x : BitVec 32) (i j k : Nat) : BitVec 32 := x.rotateRight i ^^^ x.rotateRight j ^^^ x.rotateRight k

/-- XOR of two rotations and a shift. -/
def spinShift (x : BitVec 32) (i j k : Nat) : BitVec 32 := x.rotateRight i ^^^ x.rotateRight j ^^^ (x >>> k)

/-- One round: the working value is eight words in 256 bits, the schedule the next sixteen words in 512 bits. The round
takes the schedule's top word, shifts the word sixteen places on in behind, and moves the working value down by a word. -/
def hashRound (x : BitVec 256 × BitVec 512) (k : BitVec 32) : BitVec 256 × BitVec 512 :=
  let v := x.1
  let top := packedWord v 0
  let mid := packedWord v 4
  let choose := packedWord v 6 ^^^ (mid &&& (packedWord v 5 ^^^ packedWord v 6))
  let most := (top &&& packedWord v 1) ||| (packedWord v 2 &&& (top ||| packedWord v 1))
  let grow := packedWord v 7 + spin mid 6 11 25 + choose + k + packedWord x.2 0
  let next := packedWord x.2 0 + spinShift (packedWord x.2 1) 7 18 3 + packedWord x.2 9 + spinShift (packedWord x.2 14) 17 19 10
  ((grow + spin top 2 13 22 + most) ++ fld v 160 96 ++ (packedWord v 3 + grow) ++ fld v 32 96, fld x.2 0 480 ++ next)

/-- A 512-bit block taken into the hash value: sixty-four rounds, then the words of the two values added. -/
def hashBlock (v : BitVec 256) (block : BitVec 512) : BitVec 256 :=
  let r := (roundConstants.foldl hashRound (v, block)).1
  (List.range 8).foldl (fun a i => (a <<< 32) ||| (packedWord v i + packedWord r i).setWidth 256) 0

/-- The message's blocks taken in one after another. -/
def hashBlocks : Nat → BitVec 256 → List Byte → BitVec 256
  | 0, v, _ => v
  | n + 1, v, bs => hashBlocks n (hashBlock v (BitVec.ofNat 512 (beNat (bs.take 64)))) (bs.drop 64)

/-- SHA-256 digest, 32 bytes: the message, a one bit, zeros, and its length in bits make whole blocks. -/
def sha256 (bs : List Byte) : List Byte :=
  let blocks := (bs.length + 72) / 64
  let tail := 0x80#8 :: List.replicate (64 * blocks - bs.length - 9) 0 ++ beBytes 8 (8 * bs.length)
  beBytes 32 (hashBlocks blocks hashStart (bs ++ tail)).toNat

/-- HMAC-SHA-256 (RFC 2104) with a key of at most 64 bytes. -/
def hmac256 (key msg : List Byte) : List Byte :=
  let k := slice key 0 64
  sha256 (k.map (· ^^^ 0x5C#8) ++ sha256 (k.map (· ^^^ 0x36#8) ++ msg))

end Sys2Proof.Machine
end

