-- ==== Sys2Proof/Machine/Mem.lean ====
section
/-! DEFINITION. Sparse byte memory in one canonical form: addresses strictly rising, no byte equal to what an
unlisted address reads as. The default byte is 0 for HBM, core SRAM and statistics data (assumption 3) and 0xFF for
the flash and other non-volatile stores that are erased to ones. -/

namespace Sys2Proof.Machine

/-- Listed bytes of a memory: (address, byte). -/
abbrev Mem := List (Nat × BitVec 8)

/-- One byte; an unlisted address reads as `d`. -/
def Mem.read (m : Mem) (d : Byte) (a : Nat) : Byte :=
  match m with
  | [] => d
  | (a', b) :: r => if a' = a then b else Mem.read r d a

/-- One byte written, canonical form kept. -/
def Mem.write (m : Mem) (d : Byte) (a : Nat) (b : Byte) : Mem :=
  match m with
  | [] => if b = d then [] else [(a, b)]
  | (a', b') :: r =>
    if a < a' then (if b = d then (a', b') :: r else (a, b) :: (a', b') :: r)
    else if a = a' then (if b = d then r else (a, b) :: r)
    else (a', b') :: Mem.write r d a b

/-- The canonical form: addresses strictly rising, and no entry equal to the default byte. -/
def Mem.wfFrom (m : Mem) (d : Byte) (k : Nat) : Bool :=
  match m with
  | [] => true
  | (a, b) :: r => decide (k ≤ a) && (b != d) && Mem.wfFrom r d (a + 1)

/-- The canonical form of a memory. -/
def Mem.wf (m : Mem) (d : Byte) : Bool := Mem.wfFrom m d 0

/-- n bytes from a upward. -/
def Mem.readN (m : Mem) (d : Byte) (a : Nat) : Nat → List Byte
  | 0 => []
  | n + 1 => Mem.read m d a :: Mem.readN m d (a + 1) n

/-- Bytes written from a upward. -/
def Mem.writeN (m : Mem) (d : Byte) (a : Nat) : List Byte → Mem
  | [] => m
  | b :: bs => Mem.writeN (Mem.write m d a b) d (a + 1) bs

/-- Little-endian number of n bytes. -/
def Mem.readLE (m : Mem) (d : Byte) (a n : Nat) : Nat := leNat (Mem.readN m d a n)

/-- Every listed byte in [lo, hi) dropped to the default. -/
def Mem.clearRange (m : Mem) (lo hi : Nat) : Mem := m.filter (fun e => decide (e.1 < lo ∨ hi ≤ e.1))

end Sys2Proof.Machine
end

