-- ==== Sys2Proof/Machine/StateMem.lean ====
section
/-! DEFINITION. State of the memories: HBM and core SRAM contents, heat caches, stack controllers (chapters 10 and 11),
and the Goose recorder (chapter 19). Every structure carries its reset value as field defaults. -/

namespace Sys2Proof.Machine

/-! ## Heat cache (R234 to R240) -/

/-- State of a frame that is not FREE (R236). -/
inductive FrameState where
  | filling | valid
  deriving DecidableEq, Repr

/-- A heat-cache frame holding a heat page of the die (R236). -/
structure Frame where
  /-- heat page: stack parity x 2^21 + (stack offset >> 16) -/
  page    : Nat
  state   : FrameState
  keep    : Bool
  age     : BitVec 4
  /-- a request reset the age in this epoch -/
  touched : Bool
  valid   : BitVec 1024
  dirty   : BitVec 1024
  /-- while FILLING: the line the fill reads next (R237) -/
  fillAt  : Nat := 0
  /-- lines that LAST invalidated, invalid until the frame is refilled (R238) -/
  gone    : BitVec 1024 := 0
  /-- lines that hold a poison pattern (R232, R261) -/
  poison  : BitVec 1024 := 0
  deriving DecidableEq, Repr

/-- A way of the counter table (R235); key = 8 x set + way. -/
structure CountWay where
  page  : Nat
  count : BitVec 12
  deriving DecidableEq, Repr

structure HcDie where
  /-- frames that are not FREE, by frame number -/
  frames     : List (Nat × Frame) := []
  /-- frames lent to a Bullock, from 1,023 downward (R239) -/
  borrowed   : Nat := 0
  counts     : List (Nat × CountWay) := []
  /-- what the stack holds for lines dirty in a frame, or miscorrected under a clean one: local line number, 64 bytes -/
  stackOld   : List (Nat × BitVec 512) := []
  discards   : BitVec 32 := 0
  promotions : BitVec 24 := 0
  evictions  : BitVec 24 := 0
  declined   : BitVec 16 := 0
  deriving DecidableEq, Repr

/-- HBM.HC_CTRL, HBM.ILV_MODE and the epoch number (R251). -/
structure HcCtrl where
  en       : BitVec 4 := 0xF
  thresh   : BitVec 12 := 2048
  epoch    : BitVec 16 := 100
  keepDiv  : BitVec 4 := 4
  badWrite : Bool := false
  ilvMode  : BitVec 32 := 0
  epochNo  : Nat := 0
  deriving DecidableEq, Repr

/-- HBM.PREG of one partition region (R251). -/
structure PRegion where
  base    : BitVec 10 := 0
  size    : BitVec 10 := 0
  valid   : Bool := false
  scratch : Bool := false
  nopf    : Bool := false
  deriving DecidableEq, Repr

/-! ## Stack controllers (R254 to R267) -/

/-- Retirement state of one pseudo-channel (R258, HBM.PC_VIEW). -/
structure PcState where
  ret0    : BitVec 6 := 63
  ret1    : BitVec 6 := 63
  /-- candidate pins with their correction counts, at most four -/
  cands   : List (Nat × BitVec 16) := []
  /-- a refusal was recorded in this scrub pass -/
  refused : Bool := false
  deriving DecidableEq, Repr

/-- A request waiting at a pseudo-channel: a line, and for a write whether it is the write-back of a corrected line
(R259, R263). -/
structure PcReq where
  line : Nat
  back : Bool := false
  deriving DecidableEq, Repr

/-- Requests that a pseudo-channel's controller holds, oldest first, its direction, and the open row of each bank (R263). -/
structure PcQueue where
  reads   : List PcReq := []
  writes  : List PcReq := []
  writing : Bool := false
  /-- writes served since the controller turned to writes -/
  served  : Nat := 0
  /-- bank, open row -/
  rows    : List (Nat × Nat) := []
  deriving DecidableEq, Repr

structure StackRegs where
  ce         : BitVec 24 := 0
  ue         : BitVec 16 := 0
  retRefused : Bool := false
  poisonWr   : BitVec 16 := 0
  scrubLine  : BitVec 31 := 0
  passes     : BitVec 16 := 0
  tempC      : BitVec 8 := 0
  hot        : Bool := false
  hotTime    : BitVec 32 := 0
  /-- pseudo-channels whose state differs from reset -/
  pcs        : List (Nat × PcState) := []
  deriving DecidableEq, Repr

structure HbmRegs where
  retThresh  : BitVec 16 := 64
  retEn      : Bool := true
  demandWb   : Bool := true
  eccBad     : Bool := false
  scrubEn    : Bool := true
  periodH    : BitVec 8 := 24
  scrubBad   : Bool := false
  stackRegs  : Vector StackRegs 8 := Vector.replicate 8 {}
  ueAddr     : BitVec 40 := 0
  ueStack    : BitVec 3 := 0
  uePc       : BitVec 5 := 0
  ueScrub    : Bool := false
  ueValid    : Bool := false
  ueOverwritten : Bool := false
  ueFt       : BitVec 64 := 0
  pcSelStack : BitVec 3 := 0
  pcSelPc    : BitVec 5 := 0
  deriving DecidableEq, Repr

/-- What a stack controller last returned to a requester: line address, data, poison mark (R260).
A model field that shows the answer of an HBM_REQUEST. -/
structure HbmResp where
  addr     : Nat
  data     : BitVec 512
  poisoned : Bool
  /-- the symbols of the line's codeword by pin (R256); none for a poisoned line -/
  code     : List Nat := []
  deriving DecidableEq, Repr

/-- The memories of the module. `mem` holds the home value of every byte of HBM, core SRAM and statistics data. -/
structure MemSys where
  mem    : Mem := []
  /-- local line numbers of HBM lines whose stored codeword is uncorrectable -/
  ue     : List Nat := []
  /-- lines stored with correctable errors: local line number, pins whose symbols are wrong (R259) -/
  soft   : List (Nat × List Nat) := []
  /-- queues of the pseudo-channels, at 32 x stack + pseudo-channel (R263) -/
  queues : List (Nat × PcQueue) := []
  hc     : Vector HcDie 4 := Vector.replicate 4 {}
  hcCtrl : HcCtrl := {}
  /-- region i of partition p at index 16 p + i -/
  preg   : Vector PRegion 128 := Vector.replicate 128 {}
  hbm    : HbmRegs := {}
  /-- heat pages of enabled Bullock rings, never promoted (R239): die, page -/
  pinned : List (Nat × Nat) := []
  resp   : Option HbmResp := none
  /-- the model's own counter of free values drawn by the line decoder (R257) -/
  freeNo : Nat := 0
  deriving DecidableEq, Repr

/-! ## Goose (R418 to R432) -/

/-- A Goose record (R419). MARK and CRC follow from the other fields; a record that did not read back is not kept. -/
structure GRecord where
  seq    : BitVec 32 := 0
  ft     : BitVec 64
  hours  : BitVec 32
  pcycle : BitVec 32
  source : BitVec 8
  lateWrite : Bool := false
  aligned : Bool
  code   : BitVec 16
  jobTag : BitVec 16
  part   : BitVec 8
  detail : BitVec 192
  repeats : BitVec 32 := 0
  lastMs : BitVec 32 := 0
  deriving DecidableEq, Repr

structure Goose where
  frozen     : Bool := false
  /-- FT of the last FREEZE (R425) -/
  freezeFt   : BitVec 64 := 0
  /-- FT of the FREEZE that began the freeze -/
  frozenSince : BitVec 64 := 0
  nvmFail    : Bool := false
  freezeMaxS : BitVec 8 := 10
  nextSeq    : BitVec 32 := 0
  /-- the ring has filled once (R421) -/
  filled     : Bool := false
  cursor     : BitVec 32 := 0
  hours      : BitVec 32 := 0
  pcycle     : BitVec 32 := 0
  /-- valid records by slot -/
  ring       : List (Nat × GRecord) := []
  /-- records waiting to be written, oldest first -/
  queue      : List GRecord := []
  /-- word-7 values held in the island for written records: SEQ, REPEAT, LAST_MS (R423) -/
  held       : List (BitVec 32 × BitVec 32 × BitVec 32) := []
  lost       : BitVec 32 := 0
  lostFirst  : BitVec 64 := 0
  lostLast   : BitVec 64 := 0
  deriving DecidableEq, Repr

end Sys2Proof.Machine
end

