-- ==== Sys2Proof/Machine/GooseOps.lean ====
section
/-! DEFINITION. The Goose recorder: arrival of an event, coalescing, writing, freezing and reading (R418 to R427). -/

namespace Sys2Proof.Machine

/-- An event as its source presents it (R428). -/
structure GEvent where
  source : Nat
  code   : Nat
  /-- job of the partition concerned, 0 for none -/
  jobTag : BitVec 16 := 0
  /-- first core of the partition concerned, 0xFF for none -/
  part   : BitVec 8 := 0xFF
  /-- DETAIL fields in order: value, bytes -/
  detail : List (Nat × Nat) := []
  deriving DecidableEq, Repr

/-- DETAIL packed little-endian in the order given (R428). -/
def packDetail (fs : List (Nat × Nat)) : BitVec 192 :=
  BitVec.ofNat 192 (leNat (fs.flatMap (fun f => leBytes f.2 f.1)))

/-- The last record written under SEQ n when its slot still holds it (R426). -/
def Goose.bySeq (g : Goose) (n : BitVec 32) : Option GRecord :=
  match g.ring.find? (fun e => e.1 == n.toNat % 65536) with
  | some (_, r) => if r.seq = n then some r else none
  | none => none

def GRecord.sameEvent (r : GRecord) (e : GEvent) : Bool :=
  r.source.toNat == e.source && r.code.toNat == e.code && r.jobTag == e.jobTag && r.part == e.part
    && r.detail == packDetail e.detail

/-- REPEAT and LAST_MS of a written record as the island holds them (R423). -/
def Goose.word7 (g : Goose) (r : GRecord) : BitVec 32 × BitVec 32 :=
  match g.held.find? (fun h => h.1 == r.seq) with
  | some h => h.2
  | none => (r.repeats, r.lastMs)

/-- Milliseconds from a record's FT to now. -/
def msSince (now ft : BitVec 64) : Nat := (now - ft).toNat / 1000000

/-- Place of the newest of the last `k` queued records that equals the event, counted from the newest. -/
def findQueued (q : List GRecord) (e : GEvent) : Option Nat :=
  (q.reverse.take 16).findIdx? (fun r => r.sameEvent e)

/-- Records of the ring written after r. -/
def Goose.newer (g : Goose) (r : GRecord) : Nat :=
  (g.ring.filter (fun x => decide ((g.nextSeq - x.2.seq).toNat < (g.nextSeq - r.seq).toNat))).length

/-- The newest written record that equals the event and lies among the 16 newest of queue and ring; a slot whose write
failed holds no record. -/
def findWritten (g : Goose) (e : GEvent) : Option GRecord :=
  let near := (g.ring.map (·.2)).filter (fun r => r.sameEvent e && decide (g.newer r + g.queue.length < 16))
  near.find? (fun r => near.all (fun x => decide (g.newer r ≤ g.newer x)))

/-- A new record for an event: queued, or counted lost when the queue is full (R424). LATE_WRITE is set when it is
held in the queue behind another record or by a freeze (R419). -/
def Goose.newRecord (g : Goose) (now : BitVec 64) (aligned : Bool) (e : GEvent) : Goose :=
  if g.queue.length < 256 then
    { g with queue := g.queue ++ [{
        ft := now, hours := g.hours, pcycle := g.pcycle, source := BitVec.ofNat 8 e.source,
        lateWrite := g.frozen || !g.queue.isEmpty, aligned := aligned, code := BitVec.ofNat 16 e.code,
        jobTag := e.jobTag, part := e.part, detail := packDetail e.detail }] }
  else
    { g with lost := satInc g.lost, lostFirst := if g.lost = 0 then now else g.lostFirst, lostLast := now }

/-- An event arrives: coalesced under R423, else a new record. -/
def Goose.log (g : Goose) (now : BitVec 64) (aligned : Bool) (e : GEvent) : Goose :=
  match findQueued g.queue e with
  | some i =>
    let place := g.queue.length - 1 - i
    match g.queue[place]? with
    | some r =>
      if r.repeats ≠ BitVec.allOnes 32 ∧ msSince now r.ft < 2 ^ 32 then
        let r' : GRecord := { r with repeats := r.repeats + 1, lastMs := BitVec.ofNat 32 (msSince now r.ft) }
        { g with queue := g.queue.set place r' }
      else g.newRecord now aligned e
    | none => g.newRecord now aligned e
  | none =>
    match findWritten g e with
    | some r =>
      let w := g.word7 r
      if w.1 ≠ BitVec.allOnes 32 ∧ msSince now r.ft < 2 ^ 32 then
        { g with held := (r.seq, w.1 + 1, BitVec.ofNat 32 (msSince now r.ft)) ::
            g.held.filter (fun h => h.1 != r.seq) }
      else g.newRecord now aligned e
    | none => g.newRecord now aligned e

/-- Word 7 of every record with held occurrences is written (R423); nothing while frozen (R425). -/
def Goose.writeHeld (g : Goose) : Goose :=
  if g.frozen then g
  else
    let put (e : Nat × GRecord) : Nat × GRecord :=
      match g.held.find? (fun h => h.1 == e.2.seq) with
      | some h => (e.1, { e.2 with repeats := h.2.1, lastMs := h.2.2 })
      | none => e
    { g with ring := g.ring.map put, held := [] }

/-- The next SEQ is consumed; the ring counts as filled once 65,536 records have been written (R421). -/
def Goose.advance (g : Goose) : Goose :=
  { g with nextSeq := g.nextSeq + 1, filled := g.filled || g.nextSeq == 65535 }

/-- A slot whose record did not read back stays invalid (R420). -/
def Goose.failOnce (g : Goose) : Goose :=
  { g with nvmFail := true, ring := tabErase g.ring (g.nextSeq.toNat % 65536) }.advance

def Goose.failTimes : Nat → Goose → Goose
  | 0, g => g
  | n + 1, g => failTimes n g.failOnce

/-- The summary record of lost events once the queue has room (R424). -/
def Goose.summary (g : Goose) (now : BitVec 64) (aligned : Bool) : Goose :=
  if g.lost ≠ 0 ∧ g.queue.length < 256 then
    let e : GEvent :=
      { source := 0x00, code := 0x01, detail := [(g.lost.toNat, 4), (g.lostFirst.toNat, 8), (g.lostLast.toNat, 8)] }
    { g.newRecord now aligned e with lost := 0, lostFirst := 0, lostLast := 0 }
  else g

/-- The oldest queued record is written after `fails` attempts that did not read back (R420). -/
def Goose.writeNext (g : Goose) (now : BitVec 64) (aligned : Bool) (fails : Nat) : Goose :=
  if g.frozen then g
  else match g.queue with
    | [] => g
    | r :: rest =>
      let g := Goose.failTimes fails g
      let g := { g with queue := rest,
                        ring := tabSet g.ring (g.nextSeq.toNat % 65536) { r with seq := g.nextSeq } }
      g.advance.summary now aligned

/-- Every queued record written in arrival order; how often a write fails first is a free value. -/
def Goose.writeAllN : Nat → Goose → BitVec 64 → Bool → Goose
  | 0, g, _, _ => g
  | n + 1, g, now, al => writeAllN n (g.writeNext now al (Config.failedWrites g.nextSeq).val) now al

def Goose.writeAll (g : Goose) (now : BitVec 64) (aligned : Bool) : Goose :=
  Goose.writeAllN (g.queue.length + 1) g now aligned

/-- FREEZE: the ring holds still from here; while frozen it restarts the timeout (R425). -/
def Goose.freeze (g : Goose) (now : BitVec 64) : Goose :=
  if g.frozen then { g with freezeFt := now }
  else
    let g := g.writeHeld
    { g with frozen := true, freezeFt := now, frozenSince := now, queue := g.queue.map (fun r => { r with lateWrite := true }) }

/-- THAW: the queue is written in arrival order with LATE_WRITE set (R425). -/
def Goose.thaw (g : Goose) (now : BitVec 64) (aligned : Bool) : Goose :=
  if g.frozen then ({ g with frozen := false }).writeAll now aligned else g

/-- Seconds frozen when the timeout ends a freeze: up to the last FREEZE, and FREEZE_MAX_S after it. -/
def Goose.secondsFrozen (g : Goose) : Nat := (g.freezeFt - g.frozenSince).toNat / 1000000000 + g.freezeMaxS.toNat

/-- End of a freeze by its timeout: a record of the seconds frozen follows the queue (R425). -/
def Goose.freezeTimeout (g : Goose) (now : BitVec 64) (aligned : Bool) : Goose :=
  if g.frozen then
    ((g.log now aligned { source := 0x00, code := 0x02, detail := [(g.secondsFrozen, 4)] }).thaw now aligned)
  else g

/-- What a reset of either kind, and a brown-out, does to the recorder: held words and the queue are written, a freeze ends
(R423 to R425). -/
def Goose.onReset (g : Goose) (now : BitVec 64) (aligned : Bool) : Goose :=
  ({ g with frozen := false }).writeHeld.writeAll now aligned

def Goose.oldestSeq (g : Goose) : BitVec 32 := if g.filled then g.nextSeq - 65536 else 0

/-- Bytes 0x08 to 0x37 of a record. -/
def GRecord.body (r : GRecord) : List Byte :=
  leBytes 8 r.ft.toNat ++ leBytes 4 r.hours.toNat ++ leBytes 4 r.pcycle.toNat ++ [r.source]
    ++ [BitVec.ofNat 8 (b2n r.lateWrite + 2 * b2n r.aligned)] ++ leBytes 2 r.code.toNat ++ leBytes 2 r.jobTag.toNat
    ++ [r.part, 0] ++ leBytes 24 r.detail.toNat

/-- The 64 bytes of a record (R419). -/
def GRecord.bytes (r : GRecord) : List Byte :=
  leBytes 2 0x474F ++ leBytes 2 (crc16 r.body).toNat ++ leBytes 4 r.seq.toNat ++ r.body
    ++ leBytes 4 r.repeats.toNat ++ leBytes 4 r.lastMs.toNat

/-- Record i of the window: the record of SEQ CURSOR + i, or 64 zero bytes (R426). -/
def Goose.windowRecord (g : Goose) (i : Nat) : List Byte :=
  match g.bySeq (g.cursor + BitVec.ofNat 32 i) with
  | some r => r.bytes
  | none => List.replicate 64 0

def Goose.window (g : Goose) : List Byte := (List.range 64).flatMap g.windowRecord

/-- The status of R427, 32 bytes. -/
def Goose.status (g : Goose) (now : BitVec 64) : List Byte :=
  leBytes 4 g.nextSeq.toNat ++ leBytes 4 g.oldestSeq.toNat ++ leBytes 4 g.hours.toNat ++ leBytes 4 g.pcycle.toNat
    ++ leBytes 2 g.queue.length ++ leBytes 2 (b2n g.frozen + 2 * b2n g.nvmFail) ++ leBytes 4 g.lost.toNat
    ++ leBytes 8 now.toNat

end Sys2Proof.Machine
end

