-- ==== Sys2Proof/Machine/LineCode.lean ====
section
/-! DEFINITION. Where a stack offset lies in its stack (R255), and the line code: a systematic Reed-Solomon code over
GF(2^16) of 36 symbols, one symbol for each pin (R256). -/

namespace Sys2Proof.Machine

/-! ## Pseudo-channel, bank, row and column (R255) -/

/-- Place of a byte within its stack. -/
structure HbmCell where
  pc   : Nat
  bank : Nat
  row  : Nat
  col  : Nat
  /-- byte within the 256 B unit -/
  byte : Nat
  deriving DecidableEq, Repr

/-- Pseudo-channel of a stack offset. -/
def pcOf (off : Nat) : Nat :=
  let u := off / 256
  u % 16 + ((u / 16 + u / 512) % 2) * 16

/-- Bank and row of a stack offset. -/
def bankRowOf (off : Nat) : Nat × Nat :=
  let v := off / 256 / 32
  ((v / 4 % 64) ^^^ (v / 256 % 64), v / 256)

def cellOf (off : Nat) : HbmCell :=
  { pc := pcOf off, bank := (bankRowOf off).1, row := (bankRowOf off).2, col := off / 8192 % 4, byte := off % 256 }

def HbmCell.bankGroup (c : HbmCell) : Nat := c.bank / 4
/-- Line within the 256 B unit. -/
def HbmCell.line (c : HbmCell) : Nat := c.byte / 64

/-! ## GF(2^16), field polynomial x^16 + x^12 + x^3 + x + 1 -/

/-- Product with α. -/
def gfTwice (a : Nat) : Nat := if a < 0x8000 then 2 * a else (2 * a) ^^^ 0x1100B

/-- Sum of the α-multiples of `a` that the low n bits of b select. -/
def gfMulBits : Nat → Nat → Nat → Nat
  | 0, _, _ => 0
  | n + 1, a, b => (if b % 2 = 1 then a else 0) ^^^ gfMulBits n (gfTwice a) (b / 2)

def gfMul (a b : Nat) : Nat := gfMulBits 16 a b

def alphaPow : Nat → Nat
  | 0 => 1
  | n + 1 => gfTwice (alphaPow n)

/-- A polynomial by its coefficients, constant term first, times (x - r). -/
def polyTimesRoot (p : List Nat) (r : Nat) : List Nat :=
  List.zipWith (· ^^^ ·) (0 :: p) (p.map (gfMul r) ++ [0])

/-- The generator (x - 1)(x - α)(x - α^2)(x - α^3), constant term first. -/
def lineGenerator : List Nat := (List.range 4).foldl (fun p i => polyTimesRoot p (alphaPow i)) [1]

/-! ## Codewords -/

/-- Data symbol j of a line: the little-endian 16-bit word at bytes 2j and 2j + 1. Pin j carries it, beat k its bit k. -/
def lineSymbol (line : BitVec 512) (j : Nat) : Nat := line.toNat / 2 ^ (16 * j) % 2 ^ 16

/-- One step of the division by the generator: a remainder of four coefficients, constant term first, takes the next
lower data symbol. -/
def codeStep (r : List Nat) (d : Nat) : List Nat :=
  let f := d ^^^ r.getD 3 0
  List.zipWith (· ^^^ ·) (0 :: r.take 3) ((lineGenerator.take 4).map (gfMul f))

/-- The four check symbols: the remainder of the data polynomial, whose symbol j is the coefficient of x^(4 + j). -/
def checkSymbols (line : BitVec 512) : List Nat :=
  (((List.range 32).map (lineSymbol line)).reverse).foldl codeStep [0, 0, 0, 0]

/-- The symbols that pins 0 to 35 carry. -/
def codeword (line : BitVec 512) : List Nat := (List.range 32).map (lineSymbol line) ++ checkSymbols line

/-- What the 36 pins carry in beat k of 16. -/
def codeBeat (cw : List Nat) (k : Nat) : List Bool := cw.map (fun x => x.testBit k)

/-- Value at x of the polynomial of a codeword: check symbol 32 + i has x^i, data symbol j has x^(4 + j). -/
def codeAt (cw : List Nat) (x : Nat) : Nat :=
  ((cw.drop 32 ++ cw.take 32).reverse).foldl (fun a c => gfMul a x ^^^ c) 0

/-- Syndromes of a codeword as read; all 0 when no symbol is in error. -/
def syndromes (cw : List Nat) : List Nat := (List.range 4).map (fun i => codeAt cw (alphaPow i))

end Sys2Proof.Machine
end

