-- ==== Sys2Proof/Machine/HomeMem.lean ====
section
/-! DEFINITION. The homes of HBM and core SRAM bytes: address map, heat cache, stack controller and line code
(R227 to R240, R254 to R262). Operations act on `MemSys`; events for the Goose are returned beside it. -/

namespace Sys2Proof.Machine

/-! ## Address map -/

/-- HBM, 1 TiB at 0 (R227). -/
def hbmEnd : Nat := 2 ^ 40

def isHbm (a : Nat) : Bool := decide (a < hbmEnd)

/-- SRAM window base of core n. -/
def sramBase (c : Nat) : Nat := 0x010000000000 + c * 0x10000000

/-- Populated bytes of a core's SRAM, 96 MiB. -/
def sramSize : Nat := 0x6000000

/-- Control window base of core n. -/
def ctlBase (c : Nat) : Nat := 0x020000000000 + c * 0x1000000

/-- [a, a + n) lies in the populated SRAM of core c. -/
def inSram (c a n : Nat) : Bool := decide (sramBase c ≤ a ∧ a + n ≤ sramBase c + sramSize)

/-- [a, a + n) lies in HBM. -/
def inHbm (a n : Nat) : Bool := decide (a + n ≤ hbmEnd)

/-- The core whose populated SRAM holds byte a. -/
def sramOwner (a : Nat) : Option Nat := (List.range 8).find? (fun c => inSram c a 1)

/-- Stack and stack offset of an HBM address under the interleave modes (R229). -/
def stackOf (ilv : BitVec 32) (a : Nat) : Nat × Nat :=
  let grp := a / 2 ^ 36
  let o := a % 2 ^ 36
  let low := a % 4096
  let top := grp * 0x200000000
  match fldN ilv (2 * grp) 2 with
  | 0 => let g := o / 4096; (g % 8, top + g / 8 * 4096 + low)
  | 1 => let h := o / 2 ^ 35; let g := o % 2 ^ 35 / 4096; (4 * h + g % 4, top + g / 4 * 4096 + low)
  | _ => let q := o / 2 ^ 34; let g := o % 2 ^ 34 / 4096; (2 * q + g % 2, top + g / 2 * 4096 + low)

/-- HBM address of a stack offset: the inverse of `stackOf` (R229). -/
def addrOfStack (ilv : BitVec 32) (st off : Nat) : Nat :=
  let grp := off / 0x200000000
  let r := off % 0x200000000
  let gr := r / 4096
  let low := r % 4096
  match fldN ilv (2 * grp) 2 with
  | 0 => grp * 2 ^ 36 + (gr * 8 + st) * 4096 + low
  | 1 => grp * 2 ^ 36 + st / 4 * 2 ^ 35 + (gr * 4 + st % 4) * 4096 + low
  | _ => grp * 2 ^ 36 + st / 2 * 2 ^ 34 + (gr * 2 + st % 2) * 4096 + low

/-- Where a line lives: stack, offset, die, heat page, line within the page. -/
structure LineLoc where
  stack : Nat
  off   : Nat
  die   : Nat
  page  : Nat
  ix    : Nat
  deriving DecidableEq, Repr

def MemSys.loc (ms : MemSys) (a : Nat) : LineLoc :=
  let (st, off) := stackOf ms.hcCtrl.ilvMode a
  ⟨st, off, st / 2, st % 2 * 2 ^ 21 + off / 65536, off / 64 % 1024⟩

/-! ## Contents -/

def MemSys.byte (ms : MemSys) (a : Nat) : Byte := ms.mem.read 0 a
def MemSys.bytes (ms : MemSys) (a n : Nat) : List Byte := ms.mem.readN 0 a n
def MemSys.le (ms : MemSys) (a n : Nat) : Nat := ms.mem.readLE 0 a n
def MemSys.put (ms : MemSys) (a : Nat) (bs : List Byte) : MemSys := { ms with mem := ms.mem.writeN 0 a bs }

/-- The 64 bytes of a line. -/
def MemSys.line (ms : MemSys) (ln : Nat) : BitVec 512 := BitVec.ofNat 512 (ms.le (64 * ln) 64)

def MemSys.modDie (ms : MemSys) (d : Nat) (f : HcDie → HcDie) : MemSys := { ms with hc := vmod ms.hc d f }

def MemSys.modStack (ms : MemSys) (st : Nat) (f : StackRegs → StackRegs) : MemSys :=
  { ms with hbm := { ms.hbm with stackRegs := vmod ms.hbm.stackRegs st f } }

/-- A frame holding a heat page of a die. -/
def HcDie.find (d : HcDie) (page : Nat) : Option (Nat × Frame) := d.frames.find? (fun e => e.2.page == page)

/-- The frame that holds a line as valid, when its heat cache serves it. -/
def MemSys.residentFrame (ms : MemSys) (l : LineLoc) : Option (Nat × Frame) :=
  match (ms.hc.getD l.die {}).find l.page with
  | some (i, f) => if f.valid.getLsbD l.ix then some (i, f) else none
  | none => none

/-! ## Line code (R257) -/

def MemSys.pcState (ms : MemSys) (st pc : Nat) : PcState :=
  tabGet (ms.hbm.stackRegs.getD st {}).pcs pc {}

def MemSys.setPc (ms : MemSys) (st pc : Nat) (p : PcState) : MemSys :=
  ms.modStack st (fun r => { r with pcs := tabSet r.pcs pc p })

def PcState.retiredPins (p : PcState) : List Nat :=
  (if p.ret0 = 63 then [] else [p.ret0.toNat]) ++ (if p.ret1 = 63 then [] else [p.ret1.toNat])

/-- Outcome of decoding a line (R257). -/
inductive Decode257 where
  | clean | corrected (pins : List Nat) | uncorrectable
  deriving DecidableEq, Repr

/-- Decoding by the number of retired pins and the further symbols in error. -/
def decodeLine (retired errs : List Nat) : Decode257 :=
  let further := (errs.filter (fun p => !retired.contains p)).eraseDups
  if further.isEmpty then .clean
  else if further.length ≤ (if retired.isEmpty then 2 else 1) then .corrected further
  else .uncorrectable

/-- Pins whose symbols a line is stored with in error (R259). -/
def MemSys.softOf (ms : MemSys) (ln : Nat) : List Nat := tabGet ms.soft ln []

/-- A line stored with symbols in error that its pseudo-channel cannot correct now (R257). -/
def MemSys.softBad (ms : MemSys) (ln : Nat) : Bool :=
  ms.soft.any (fun e => e.1 == ln &&
    (let l := ms.loc (64 * ln)
     decodeLine (ms.pcState l.stack (pcOf l.off)).retiredPins e.2 == .uncorrectable))

/-- A frame serves the line, and holds a poison pattern for it (R232, R261). -/
def MemSys.framePoison (ms : MemSys) (ln : Nat) : Bool :=
  let l := ms.loc (64 * ln)
  match ms.residentFrame l with
  | some (_, f) => f.poison.getLsbD l.ix
  | none => false

/-- The home reports a line uncorrectable: what the frame that serves it holds is poisoned, or, where none does, the
stored codeword is uncorrectable (R260). -/
def MemSys.badLine (ms : MemSys) (ln : Nat) : Bool :=
  isHbm (64 * ln) &&
    (if (ms.residentFrame (ms.loc (64 * ln))).isSome then ms.framePoison ln else ms.ue.contains ln || ms.softBad ln)

/-- Lines touched by [a, a + n). -/
def linesOf (a n : Nat) : List Nat := if n = 0 then [] else (List.range ((a + n - 1) / 64 - a / 64 + 1)).map (· + a / 64)

/-- Some granule of [a, a + n) reads uncorrectable. -/
def MemSys.badRange (ms : MemSys) (a n : Nat) : Bool := (linesOf a n).any ms.badLine

/-! ## Partition regions (R230) -/

def PRegion.holds (r : PRegion) (a n : Nat) : Bool :=
  r.valid && decide (r.base.toNat * 2 ^ 30 ≤ a ∧ a + n ≤ (r.base.toNat + r.size.toNat + 1) * 2 ^ 30)

def MemSys.regionsOf (ms : MemSys) (p : Nat) : List PRegion :=
  (List.range 16).map (fun i => ms.preg.getD (16 * p + i) {})

/-- Every byte of [a, a + n) lies in a region of partition p; regions may join at GiB boundaries. -/
def MemSys.inRegions (ms : MemSys) (p a n : Nat) : Bool :=
  decide (0 < n) && (List.range ((a + n - 1) / 2 ^ 30 - a / 2 ^ 30 + 1)).all (fun i =>
    (ms.regionsOf p).any (fun r => r.holds ((a / 2 ^ 30 + i) * 2 ^ 30) 1))

/-- Address a lies in a SCRATCH region of any partition. -/
def MemSys.inScratch (ms : MemSys) (a : Nat) : Bool := ms.preg.toList.any (fun r => r.scratch && r.holds a 1)

def MemSys.inNopf (ms : MemSys) (p a : Nat) : Bool := (ms.regionsOf p).any (fun r => r.nopf && r.holds a 1)

/-! ## The controllers' queues (R263) -/

/-- A line whose stored codeword carries no symbol in error. -/
def MemSys.cleaned (ms : MemSys) (ln : Nat) : MemSys :=
  { ms with ue := ms.ue.filter (· != ln), soft := ms.soft.filter (fun e => e.1 != ln) }

/-- The request served next in a direction: the oldest open-row hit, else the oldest. -/
def PcQueue.choose (q : PcQueue) (bankRow : Nat → Nat × Nat) (rs : List PcReq) : Option PcReq :=
  match rs.find? (fun r => let b := bankRow r.line; tabGet (q.rows.map (fun e => (e.1, some e.2))) b.1 none == some b.2) with
  | some r => some r
  | none => rs.head?

/-- A chosen request leaves its queue, with its row left open. -/
def PcQueue.took (q : PcQueue) (bankRow : Nat → Nat × Nat) (r : PcReq) : PcQueue :=
  let b := bankRow r.line
  { q with rows := tabSet q.rows b.1 b.2 }

/-- One request served: reads first; the controller turns to writes at 32 of them or with no read waiting, serves up to
32, or fewer where none is left, and turns back. -/
def PcQueue.serve (q : PcQueue) (bankRow : Nat → Nat × Nat) : PcQueue × Option PcReq :=
  let read (q : PcQueue) : PcQueue × Option PcReq :=
    match q.choose bankRow q.reads with
    | some r => ({ (q.took bankRow r) with reads := q.reads.erase r, writing := false, served := 0 }, some r)
    | none => ({ q with writing := false, served := 0 }, none)
  let write (q : PcQueue) (n : Nat) : PcQueue × Option PcReq :=
    match q.choose bankRow q.writes with
    | some r =>
      let ws := q.writes.erase r
      ({ (q.took bankRow r) with writes := ws, writing := !ws.isEmpty, served := if ws.isEmpty then 0 else n }, some r)
    | none => read q
  if q.writing then
    if q.served < 32 then write q (q.served + 1) else if q.reads.isEmpty then write q 1 else read q
  else if q.reads.isEmpty ∨ 32 ≤ q.writes.length then write q 1
  else read q

/-- Key of the pseudo-channel of a line. -/
def MemSys.pcKey (ms : MemSys) (ln : Nat) : Nat := let l := ms.loc (64 * ln); 32 * l.stack + pcOf l.off

def MemSys.bankRow (ms : MemSys) (ln : Nat) : Nat × Nat := bankRowOf (ms.loc (64 * ln)).off

/-- A pseudo-channel serves one request. What a read returns and what a write leaves were settled when the controller
accepted it (R234); a write-back leaves its line without symbols in error (DESIGN CHOICE, log 109). -/
def MemSys.servePc (ms : MemSys) (key : Nat) : MemSys :=
  let r := (tabGet ms.queues key {}).serve ms.bankRow
  let ms := { ms with queues := tabSet ms.queues key r.1 }
  match r.2 with
  | some q => if q.back then ms.cleaned q.line else ms
  | none => ms

/-- A request for a line reaches its stack's controller, which holds at most 64 for a pseudo-channel. -/
def MemSys.arrive (ms : MemSys) (ln : Nat) (write back : Bool) : MemSys :=
  let key := ms.pcKey ln
  let q := tabGet ms.queues key {}
  let ms := if 64 ≤ q.reads.length + q.writes.length then ms.servePc key else ms
  let q := tabGet ms.queues key {}
  let r : PcReq := ⟨ln, back⟩
  let q := if write then { q with writes := q.writes ++ [r] } else { q with reads := q.reads ++ [r] }
  { ms with queues := tabSet ms.queues key q }

/-- Every pseudo-channel with requests waiting serves one. -/
def MemSys.serveAll (ms : MemSys) : MemSys :=
  (ms.queues.filter (fun e => !(e.2.reads.isEmpty && e.2.writes.isEmpty))).foldl (fun m e => m.servePc e.1) ms

/-- A write of a line is accepted: a write-back of it that waits is dropped (R259). -/
def MemSys.dropBack (ms : MemSys) (ln : Nat) : MemSys :=
  { ms with
    queues := if ms.soft.any (fun e => e.1 == ln) then
        ms.queues.map (fun e => (e.1, { e.2 with writes := e.2.writes.filter (fun r => !(r.back && r.line == ln)) }))
      else ms.queues }

/-- A line stored with fresh check symbols: it is correctable, and no write-back of it waits (R259). -/
def MemSys.fresh (ms : MemSys) (ln : Nat) : MemSys := (ms.dropBack ln).cleaned ln

/-! ## Heat cache (R234 to R240) -/

/-- The stack stores a line under the check symbols of a poison pattern (R261). -/
def MemSys.poisoned (ms : MemSys) (ln : Nat) : MemSys := let m := ms.fresh ln; { m with ue := ln :: m.ue }

/-- A dirty line of a frame is written back: the stack then holds what the frame held, under good check symbols or as
poisoned. -/
def MemSys.lineBack (ms : MemSys) (ln : Nat) (poison : Bool) : MemSys :=
  (if poison then ms.poisoned ln else ms.fresh ln).arrive ln true false

/-- The line is dirty in the frame that holds it. -/
def MemSys.frameDirty (ms : MemSys) (ln : Nat) : Bool :=
  let l := ms.loc (64 * ln)
  match ms.residentFrame l with
  | some (_, f) => f.dirty.getLsbD l.ix
  | none => false

/-- A line leaves its frame: dirty, it is written back; under a clean one the stack's own word shows, which differs where
a scrub read was miscorrected (R257). -/
def MemSys.unframe (ms : MemSys) (e : Nat × BitVec 512) : MemSys :=
  if ms.frameDirty e.1 then ms.lineBack e.1 (ms.framePoison e.1) else ms.put (64 * e.1) (leBytes 64 e.2.toNat)

/-- The lines of a page leave their frame. -/
def MemSys.dropOld (ms : MemSys) (die page : Nat) : MemSys :=
  let back := (ms.hc.getD die {}).stackOld.filter (fun e => (ms.loc (64 * e.1)).page == page)
  (back.foldl MemSys.unframe ms).modDie die (fun d =>
    { d with stackOld := d.stackOld.filter (fun e => (ms.loc (64 * e.1)).page != page) })

/-- Frame i of a die is written back and freed. -/
def MemSys.evict (ms : MemSys) (die i : Nat) : MemSys :=
  match tabGet ((ms.hc.getD die {}).frames.map (fun e => (e.1, some e.2))) i none with
  | some f =>
    (ms.dropOld die f.page).modDie die (fun d =>
      { d with frames := tabErase d.frames i, evictions := satInc d.evictions })
  | none => ms

def HcDie.fills (d : HcDie) : Nat := (d.frames.filter (fun e => e.2.state == .filling)).length

def HcDie.freeFrame (d : HcDie) : Option Nat :=
  (List.range (1024 - d.borrowed)).find? (fun i => !(d.frames.any (fun e => e.1 == i)))

/-- VALID frame of highest age, lowest number first (R236). -/
def HcDie.victim (d : HcDie) : Option (Nat × Frame) :=
  d.frames.foldl (fun best e =>
    if e.2.state == .valid && decide (e.1 < 1024 - d.borrowed) then
      match best with
      | none => some e
      | some b => if b.2.age.toNat < e.2.age.toNat then some e else some b
    else best) none

def HcDie.setCount (d : HcDie) (page : Nat) (n : Nat) : HcDie :=
  { d with counts := d.counts.map (fun e => if e.2.page == page then (e.1, { e.2 with count := BitVec.ofNat 12 n }) else e) }

/-- Promotion of a page whose count reached the threshold (R236, R239). -/
def MemSys.promote (ms : MemSys) (die page : Nat) : MemSys :=
  let d := ms.hc.getD die {}
  let decline := ms.modDie die (fun d =>
    { d.setCount page (ms.hcCtrl.thresh.toNat / 2) with declined := satInc d.declined })
  let newFrame : Frame :=
    { page := page, state := .filling, keep := false, age := 0, touched := true, valid := 0, dirty := 0 }
  if ms.pinned.contains (die, page) then ms
  else if d.fills ≥ 8 then decline
  else match d.freeFrame with
    | some i => ms.modDie die (fun d => { d with frames := tabSet d.frames i newFrame, promotions := satInc d.promotions })
    | none => match d.victim with
      | some (i, f) =>
        if f.age = 0 then decline
        else (ms.evict die i).modDie die (fun d =>
          { d with frames := tabSet d.frames i newFrame, promotions := satInc d.promotions })
      | none => decline

/-- Way of a set with the lowest count, lowest way first. -/
def HcDie.lowWay (d : HcDie) (set : Nat) : Nat :=
  (List.range 8).foldl (fun best w =>
    if (tabGet d.counts (8 * set + w) ⟨0, 0⟩).count.toNat < (tabGet d.counts (8 * set + best) ⟨0, 0⟩).count.toNat
    then w else best) 0

/-- A request of weight w to a page that is not resident is counted (R235). -/
def MemSys.countPage (ms : MemSys) (die page w : Nat) : MemSys :=
  if w = 0 ∨ ms.hcCtrl.en.getLsbD die = false then ms
  else
    let d := ms.hc.getD die {}
    let set := page % 2048
    let way := match (List.range 8).find? (fun w => (d.counts.any (fun e => e.1 == 8 * set + w && e.2.page == page))) with
      | some w => w
      | none => d.lowWay set
    let old := tabGet d.counts (8 * set + way) ⟨0, 0⟩
    let c := min ((if old.page = page then old.count.toNat else 0) + w) 4095
    let ms := ms.modDie die (fun d => { d with counts := tabSet d.counts (8 * set + way) ⟨page, BitVec.ofNat 12 c⟩ })
    if c ≥ ms.hcCtrl.thresh.toNat then ms.promote die page else ms

/-- A frame changed; a VALID frame without valid lines is FREE (R238). -/
def MemSys.putFrame (ms : MemSys) (die i : Nat) (f : Frame) : MemSys :=
  ms.modDie die (fun d =>
    { d with frames := if f.state = .valid ∧ f.valid = 0 then tabErase d.frames i else tabSet d.frames i f })

/-- Age and KEEP of a frame under a hint: 0 none, 1 STREAM, 2 KEEP, 3 LAST (R236, R238). -/
def Frame.use (f : Frame) (hint : Nat) : Frame :=
  match hint with
  | 0 => { f with age := 0, touched := true }
  | 2 => { f with age := 0, touched := true, keep := true }
  | _ => f

def hintWeight (hint : Nat) : Nat :=
  match hint with
  | 0 => 1
  | 2 => 16
  | _ => 0

def clrBit {n : Nat} (x : BitVec n) (i : Nat) : BitVec n := x &&& ~~~(BitVec.twoPow n i)
def setBit {n : Nat} (x : BitVec n) (i : Nat) : BitVec n := x ||| BitVec.twoPow n i

/-- A line leaves its frame under LAST (R238). -/
def Frame.lose (f : Frame) (ix : Nat) : Frame :=
  { f with valid := clrBit f.valid ix, dirty := clrBit f.dirty ix, gone := setBit f.gone ix, poison := clrBit f.poison ix }

/-- Heat-cache bookkeeping of a read of an HBM line (R235 to R238). -/
def MemSys.touchRead (ms : MemSys) (ln hint : Nat) : MemSys :=
  let l := ms.loc (64 * ln)
  match (ms.hc.getD l.die {}).find l.page with
  | none => ms.countPage l.die l.page (hintWeight hint)
  | some (i, f) =>
    if hint = 3 then
      if f.valid.getLsbD l.ix then
        let dirty := f.dirty.getLsbD l.ix
        let ms' :=
          if dirty && !ms.inScratch (64 * ln) then ms.lineBack ln (f.poison.getLsbD l.ix)
          else match (ms.hc.getD l.die {}).stackOld.find? (fun e => e.1 == ln) with
            | some (_, old) =>
              let m := ms.put (64 * ln) (leBytes 64 old.toNat)
              if dirty then m.modDie l.die (fun d => { d with discards := satInc d.discards }) else m
            | none => ms
        (ms'.modDie l.die (fun d => { d with stackOld := d.stackOld.filter (fun e => e.1 != ln) })).putFrame l.die i (f.lose l.ix)
      else ms
    else ms.putFrame l.die i (f.use hint)

/-- Bytes within one line written at its home. `none`: the merge read was uncorrectable, the poison pattern is
stored and the write is not applied (R261). -/
def MemSys.writeLine (ms : MemSys) (a : Nat) (bs : List Byte) (hint : Nat) : MemSys × Bool :=
  if isHbm a then
    let ln := a / 64
    let l := ms.loc a
    let whole := decide (bs.length = 64)
    let d := ms.hc.getD l.die {}
    let apply (m : MemSys) : MemSys := m.put a bs
    let refuse (m : MemSys) : MemSys × Bool := (m.modStack l.stack (fun r => { r with poisonWr := satInc r.poisonWr }), true)
    let toStack (m : MemSys) : MemSys × Bool :=
      let m := m.arrive ln true false
      if whole then ((apply m).fresh ln, false)
      else if m.ue.contains ln || m.softBad ln then refuse (m.poisoned ln)
      else ((apply m).fresh ln, false)
    match d.find l.page with
    | none => let r := toStack ms; (r.1.countPage l.die l.page (hintWeight hint), r.2)
    | some (i, f) =>
      let live := f.valid.getLsbD l.ix
      let poison := f.poison.getLsbD l.ix && !whole
      if hint = 3 then
        if live then
          -- applied to the stack, the resident copy is invalidated (R238); other bytes keep their home value
          let m := ms.modDie l.die (fun d => { d with stackOld := d.stackOld.filter (fun e => e.1 != ln) })
          let m := (m.putFrame l.die i (f.lose l.ix)).arrive ln true false
          if poison then refuse (m.poisoned ln) else ((apply m).fresh ln, false)
        else toStack ms
      else if live ∧ poison then refuse ms
      else if live ∨ (f.state = .filling ∧ whole) then
        let m := ms.dropBack ln
        let m := if f.dirty.getLsbD l.ix || d.stackOld.any (fun e => e.1 == ln) then m
          else m.modDie l.die (fun d => { d with stackOld := tabSet d.stackOld ln (ms.line ln) })
        let f := { f.use hint with valid := setBit f.valid l.ix, dirty := setBit f.dirty l.ix,
                                   poison := clrBit f.poison l.ix }
        (apply (m.putFrame l.die i f), false)
      else
        let r := toStack (ms.putFrame l.die i (f.use hint))
        r
  else (ms.put a bs, false)

/-- A run of bytes cut at line boundaries: address, bytes. -/
def cutLines {α : Type} : Nat → Nat → List α → List (Nat × List α)
  | 0, _, _ => []
  | n + 1, a, bs =>
    match bs with
    | [] => []
    | _ => let k := 64 - a % 64; (a, bs.take k) :: cutLines n (a + k) (bs.drop k)

/-- What the bytes of a granule become, where a write gives them: the bytes of one more write laid over. -/
def layOver {α : Type} (old : List (Option α)) (i : Nat) (bs : List α) : List (Option α) :=
  old.take i ++ bs.map some ++ old.drop (i + bs.length)

/-- Maximal runs of given bytes, from address a on. -/
def givenRuns {α : Type} (a : Nat) : List (Option α) → List (Nat × List α)
  | [] => []
  | none :: r => givenRuns (a + 1) r
  | some b :: r =>
    match givenRuns (a + 1) r with
    | (x, bs) :: t => if x = a + 1 then (a, b :: bs) :: t else (a, [b]) :: (x, bs) :: t
    | [] => [(a, [b])]

/-- The writes of one operation gathered by granule: line, and what they give of its bytes. Of two writes of a byte the
later counts. -/
def granules {α : Type} (ws : List (Nat × List α)) : List (Nat × List (Option α)) :=
  (ws.flatMap (fun w => cutLines (w.2.length + 1) w.1 w.2)).foldl (fun t c =>
    tabSet t (c.1 / 64) (layOver (tabGet t (c.1 / 64) (List.replicate 64 none)) (c.1 % 64) c.2)) []

/-- The writes of one operation, so that a granule it fills is written once (R271). -/
def granuleRuns (ws : List (Nat × List Byte)) : List (Nat × List Byte) :=
  (granules ws).flatMap (fun e => givenRuns (64 * e.1) e.2)

/-- Bytes written at their homes, granule by granule in ascending address (R271), with the lines whose merge read was
uncorrectable. -/
def MemSys.writeBytesL (ms : MemSys) (a : Nat) (bs : List Byte) (hint : Nat) : MemSys × List Nat :=
  (cutLines (bs.length + 1) a bs).foldl (fun acc c =>
    let r := acc.1.writeLine c.1 c.2 hint
    (r.1, if r.2 then acc.2 ++ [c.1 / 64] else acc.2)) (ms, [])

/-- A granule is stored as poisoned: in HBM the poison pattern, written as any whole line under its hint, into a frame
or to the stack; in core SRAM 64 zero bytes (R232, R238). -/
def MemSys.poisonLine (ms : MemSys) (a hint : Nat) : MemSys :=
  let ln := a / 64
  let ms := (ms.writeLine (64 * ln) (List.replicate 64 0) hint).1
  let l := ms.loc (64 * ln)
  if isHbm a then
    match ms.residentFrame l with
    | some (i, f) => ms.putFrame l.die i { f with poison := setBit f.poison l.ix }
    | none => ms.poisoned ln
  else ms

/-- Recorded state of a new uncorrectable read (R260) and its Goose event. -/
def MemSys.noteUe (ms : MemSys) (ft : BitVec 64) (a : Nat) (scrub : Bool) : MemSys × GEvent :=
  let l := ms.loc a
  let ms := ms.modStack l.stack (fun r => { r with ue := satInc r.ue })
  let h := ms.hbm
  let h := { h with
    ueAddr := BitVec.ofNat 40 (roundDown a 64), ueStack := BitVec.ofNat 3 l.stack, uePc := BitVec.ofNat 5 (pcOf l.off),
    ueScrub := scrub, ueOverwritten := h.ueValid || h.ueOverwritten, ueValid := true, ueFt := ft }
  ({ ms with hbm := h },
   { source := 0x06, code := 0x03, detail := [(roundDown a 64, 8), (l.stack, 1), (pcOf l.off, 1), (b2n scrub, 1)] })

/-! ## Corrections and retirement (R257 to R260) -/

/-- One more correction counted for a pin; a new pin takes the place of the lowest count (R258). -/
def PcState.countPin (p : PcState) (pin : Nat) : PcState :=
  match p.cands.find? (fun c => c.1 == pin) with
  | some _ => { p with cands := p.cands.map (fun c => if c.1 == pin then (pin, satInc c.2) else c) }
  | none =>
    if p.cands.length < 4 then { p with cands := p.cands ++ [(pin, 1)] }
    else
      let low := p.cands.foldl (fun (b : Nat × BitVec 16) c => if c.2.toNat < b.2.toNat then c else b) (p.cands.headD (pin, 0))
      { p with cands := p.cands.filter (fun c => c.1 != low.1) ++ [(pin, 1)] }

/-- A corrected pin: counted, and retired when its count reaches the threshold (R258). -/
def MemSys.correctPin (ms : MemSys) (st pc pin : Nat) : MemSys × List GEvent :=
  let p := (ms.pcState st pc).countPin pin
  let n := (p.cands.find? (fun c => c.1 == pin)).map (fun c => c.2.toNat)
  let reached := ms.hbm.retEn && decide (n.getD 0 ≥ ms.hbm.retThresh.toNat)
  if reached then
    if p.ret0 = 63 ∨ p.ret1 = 63 then
      let cands := p.cands.filter (fun c => c.1 != pin)
      let p := if p.ret0 = 63 then { p with ret0 := BitVec.ofNat 6 pin, cands := cands }
               else { p with ret1 := BitVec.ofNat 6 pin, cands := cands }
      (ms.setPc st pc p, [{ source := 0x06, code := 0x01, detail := [(st, 1), (pc, 1), (pin, 1)] }])
    else
      let ms := ms.modStack st (fun r => { r with retRefused := true })
      (ms.setPc st pc { p with refused := true },
       if p.refused then [] else [{ source := 0x06, code := 0x02, detail := [(st, 1), (pc, 1), (pin, 1)] }])
  else (ms.setPc st pc p, [])

/-- Pins retired on a stack, 0 to 64 (ECC_STAT.RETIRED). -/
def StackRegs.retiredCount (r : StackRegs) : Nat := (r.pcs.map (fun e => e.2.retiredPins.length)).foldl (· + ·) 0

/-- A line corrected on pins that are not retired: counted, and each pin's count raised (R258). -/
def MemSys.corrected (ms : MemSys) (st pc : Nat) (pins : List Nat) : MemSys × List GEvent :=
  let m := ms.modStack st (fun r => { r with ce := satInc r.ce })
  pins.foldl (fun acc p => let q := acc.1.correctPin st pc p; (q.1, acc.2 ++ q.2)) (m, [])

/-- Pins whose symbols a line is stored with in error. -/
def MemSys.setSoft (ms : MemSys) (ln : Nat) (pins : List Nat) : MemSys :=
  { ms with soft := if pins.isEmpty then ms.soft.filter (fun e => e.1 != ln) else tabSet ms.soft ln pins }

/-- What the stack stores for a line: a line dirty in a frame has its older content there. -/
def MemSys.stackLine (ms : MemSys) (ln : Nat) : BitVec 512 :=
  match (ms.hc.getD (ms.loc (64 * ln)).die {}).stackOld.find? (fun e => e.1 == ln) with
  | some (_, old) => old
  | none => ms.line ln

/-- The word that the stack stores for a line; where a frame holds the line, only the frame's content is read. -/
def MemSys.setStackLine (ms : MemSys) (ln : Nat) (x : BitVec 512) : MemSys :=
  let l := ms.loc (64 * ln)
  if (ms.residentFrame l).isSome then ms.modDie l.die (fun d => { d with stackOld := tabSet d.stackOld ln x })
  else ms.put (64 * ln) (leBytes 64 x.toNat)

/-- A codeword corrected on pins: counted, with a write-back queued where one is due and none waits (R258, R259). -/
def MemSys.correctLine (ms : MemSys) (ln : Nat) (pins : List Nat) (wb : Bool) : MemSys × List GEvent :=
  let l := ms.loc (64 * ln)
  let r := ms.corrected l.stack (pcOf l.off) pins
  let pending := (tabGet r.1.queues (r.1.pcKey ln) {}).writes.contains ⟨ln, true⟩
  (if wb && !pins.isEmpty && !pending then r.1.arrive ln true true else r.1, r.2)

/-- A line is read from its stack, with symbols in error on the pins `hits` besides those it is stored with: data, poison
mark, and what it leaves (R257 to R260). A line whose stored codeword is uncorrectable reads uncorrectable whatever the
pins. A corrected line stays stored as it was until its write-back is served, which an uncorrectable read of the line
does not drop (R259). A miscorrected word lies within the decoder's reach of another codeword: it is that codeword with
the symbols the decoder changed in error, and so it is kept, for every later reader (log 148). -/
def MemSys.stackRead (ms : MemSys) (ft : BitVec 64) (a : Nat) (hits : List Nat) (scrub : Bool) :
    MemSys × BitVec 512 × Bool × List GEvent :=
  let ln := a / 64
  let l := ms.loc a
  let pc := pcOf l.off
  let ms := if scrub then ms else ms.arrive ln false false
  let errs := (hits ++ ms.softOf ln).eraseDups
  let retired := (ms.pcState l.stack pc).retiredPins
  let data := ms.stackLine ln
  let wb := scrub || ms.hbm.demandWb
  let bad (m : MemSys) : MemSys × BitVec 512 × Bool × List GEvent :=
    let m := if m.ue.contains ln then m else { m with ue := ln :: m.ue }
    let r := m.noteUe ft a scrub
    (r.1, data, true, [r.2])
  if ms.ue.contains ln then bad ms
  else match decodeLine retired errs with
    | .clean => (ms.setSoft ln errs, data, false, [])
    | .corrected pins =>
      let r := (ms.setSoft ln errs).correctLine ln pins wb
      (r.1, data, false, r.2)
    | .uncorrectable =>
      let far := !hits.isEmpty && decide ((errs.filter (fun p => !retired.contains p)).length ≥ 3)
      let m := { ms with freeNo := ms.freeNo + 1 }
      if far && Config.miscorrects ms.freeNo then
        let wrong := Config.miscorrectedLine ms.freeNo
        let two := Config.miscorrectedPins ms.freeNo
        let pins := ((if retired.isEmpty then [two.1.val, two.2.val] else [two.1.val]).eraseDups).filter
          (fun p => !retired.contains p)
        let r := ((m.setSoft ln pins).setStackLine ln wrong).correctLine ln pins wb
        (r.1, wrong, false, r.2)
      else bad m

/-! ## Writes and reads with what they record -/

/-- Uncorrectable merge reads of refused writes are recorded as reads (R260, R261). -/
def MemSys.noteMerges (ms : MemSys) (ft : BitVec 64) (lines : List Nat) : MemSys × List GEvent :=
  lines.foldl (fun acc ln => let r := acc.1.noteUe ft (64 * ln) false; (r.1, acc.2 ++ [r.2])) (ms, [])

/-- A write of any length: the memory after it, whether some merge was refused, and the events. A merge reads its line
first, which corrects a line stored with symbols in error (R259, R261). -/
def MemSys.storeBytes (ms : MemSys) (ft : BitVec 64) (a : Nat) (bs : List Byte) (hint : Nat) :
    MemSys × Bool × List GEvent :=
  let merges := ((cutLines (bs.length + 1) a bs).filter (fun c => c.2.length != 64 && isHbm c.1
    && !(ms.softOf (c.1 / 64)).isEmpty && !ms.softBad (c.1 / 64) && (ms.residentFrame (ms.loc c.1)).isNone)).map (·.1)
  let p := merges.foldl (fun acc x => let q := MemSys.stackRead acc.1 ft x [] false; (q.1, acc.2 ++ q.2.2.2)) (ms, [])
  let r := p.1.writeBytesL a bs hint
  let n := r.1.noteMerges ft r.2
  (n.1, !r.2.isEmpty, p.2 ++ n.2)

/-- Reads of lines at their home: bookkeeping of each, uncorrectable ones recorded (R235, R260). -/
def MemSys.touchReads (ms : MemSys) (ft : BitVec 64) (lines : List Nat) (hint : Nat) : MemSys × List GEvent :=
  lines.foldl (fun acc ln =>
    if isHbm (64 * ln) then
      if (acc.1.residentFrame (acc.1.loc (64 * ln))).isSome then
        let r := if acc.1.framePoison ln then acc.1.noteMerges ft [ln] else (acc.1, [])
        (r.1.touchRead ln hint, acc.2 ++ r.2)
      else
        let r := acc.1.stackRead ft (64 * ln) [] false
        (r.1.touchRead ln hint, acc.2 ++ r.2.2.2)
    else acc) (ms, [])


end Sys2Proof.Machine
end

