-- ==== Sys2Proof/Machine/Numeric.lean ====
section
/-! DEFINITION. Number formats, rounding, aligned integer accumulation, K-block chain and the KCG
(R107 to R125, R196 to R198). All arithmetic is exact on integers and is rounded where a rule says so. -/

namespace Sys2Proof.Machine

/-- Element formats of R107, and IEEE binary64 for the schedule engine of R215. -/
inductive Elem where
  | bf16 | fp16 | fp32 | e4m3 | e5m2 | e3m2 | e2m3 | e2m1 | f64
  deriving DecidableEq, Repr

/-- Exponent bits. -/
def Elem.eb : Elem → Nat
  | .bf16 => 8 | .fp16 => 5 | .fp32 => 8 | .e4m3 => 4 | .e5m2 => 5 | .e3m2 => 3 | .e2m3 => 2 | .e2m1 => 2 | .f64 => 11

/-- Fraction bits. -/
def Elem.fb : Elem → Nat
  | .bf16 => 7 | .fp16 => 10 | .fp32 => 23 | .e4m3 => 3 | .e5m2 => 2 | .e3m2 => 2 | .e2m3 => 3 | .e2m1 => 1 | .f64 => 52

def Elem.bias : Elem → Int
  | .bf16 => 127 | .fp16 => 15 | .fp32 => 127 | .e4m3 => 7 | .e5m2 => 15 | .e3m2 => 3 | .e2m3 => 1 | .e2m1 => 1 | .f64 => 1023

/-- Width in bits of a stored element. -/
def Elem.bits (f : Elem) : Nat := 1 + f.eb + f.fb

/-- The format has infinities (IEEE formats and E5M2). -/
def Elem.hasInf : Elem → Bool
  | .bf16 | .fp16 | .fp32 | .e5m2 | .f64 => true
  | _ => false

/-- Magnitude pattern of the largest finite value (R107). -/
def Elem.maxFinite : Elem → Nat
  | .e4m3 => 0x7E
  | f => if f.hasInf then (2 ^ f.eb - 1) * 2 ^ f.fb - 1 else 2 ^ (f.eb + f.fb) - 1

/-- Canonical NaN (R107). The MX element formats have none. -/
def Elem.canonNaN : Elem → Nat
  | .bf16 => 0x7FC0 | .fp16 => 0x7E00 | .fp32 => 0x7FC00000 | .e4m3 => 0x7F | .e5m2 => 0x7E
  | .f64 => 0x7FF8000000000000
  | _ => 0

/-- Smallest normal exponent. -/
def Elem.emin (f : Elem) : Int := 1 - f.bias

/-- Element format of a format code of R50; codes 12 to 15 have none. -/
def elemOf (code : BitVec 4) : Option Elem :=
  match code.toNat with
  | 0 => some .bf16 | 1 => some .fp16 | 2 => some .fp32
  | 3 | 5 | 7 => some .e4m3 | 4 | 6 | 8 => some .e5m2
  | 9 => some .e3m2 | 10 => some .e2m3 | 11 => some .e2m1
  | _ => none

/-- Width in bits of an element of a format code, 0 for a code that is not assigned. -/
def codeBits (code : BitVec 4) : Nat := ((elemOf code).map Elem.bits).getD 0

/-- Block length along a row of a block-scaled code, 0 for the others (R111). -/
def blockLen (code : BitVec 4) : Nat :=
  if code = 5 ∨ code = 6 then 128 else if 7 ≤ code.toNat ∧ code.toNat ≤ 11 then 32 else 0

/-- Codes with one FP32 tensor scale in a header (R110). -/
def perTensor (code : BitVec 4) : Bool := decide (code = 3 ∨ code = 4)

/-- Codes with E8M0 block scales. -/
def isMx (code : BitVec 4) : Bool := decide (7 ≤ code.toNat ∧ code.toNat ≤ 11)

/-! ## Exact values -/

/-- An exact value: a NaN, or (−1)^neg × m / d × 2^e with d > 0. A zero keeps its sign. -/
inductive FVal where
  | nan
  | num (neg : Bool) (m d : Nat) (e : Int)
  deriving DecidableEq, Repr

def FVal.zero : FVal := .num false 0 1 0
def FVal.one : FVal := .num false 1 1 0

def FVal.isZero : FVal → Bool
  | .num _ m _ _ => m == 0
  | .nan => false

def FVal.isNaN : FVal → Bool
  | .nan => true
  | _ => false

def FVal.neg? : FVal → Bool
  | .num n _ _ _ => n
  | .nan => false

def FVal.negate : FVal → FVal
  | .num n m d e => .num (!n) m d e
  | .nan => .nan

def FVal.abs : FVal → FVal
  | .num _ m d e => .num false m d e
  | .nan => .nan

def FVal.ofInt (i : Int) : FVal := .num (decide (i < 0)) i.natAbs 1 0

def FVal.mul : FVal → FVal → FVal
  | .num n m d e, .num n' m' d' e' => .num (n != n') (m * m') (d * d') (e + e')
  | _, _ => .nan

/-- Exact quotient; a quotient by zero is left to the caller. -/
def FVal.div : FVal → FVal → FVal
  | .num n m d e, .num n' m' d' e' => if m' = 0 then .nan else .num (n != n') (m * d') (d * m') (e - e')
  | _, _ => .nan

/-- Signed numerators of two values over a common denominator and exponent. -/
def FVal.align (n : Bool) (m d : Nat) (e : Int) (n' : Bool) (m' d' : Nat) (e' : Int) : Int × Int × Nat × Int :=
  let lo := min e e'
  let a := m * d' * 2 ^ (e - lo).toNat
  let b := m' * d * 2 ^ (e' - lo).toNat
  (if n then -(a : Int) else a, if n' then -(b : Int) else b, d * d', lo)

/-- Exact sum; zeros combine by the IEEE 754 sign rules under round-to-nearest-even (R119). -/
def FVal.add : FVal → FVal → FVal
  | .num n m d e, .num n' m' d' e' =>
    let (a, b, dd, lo) := FVal.align n m d e n' m' d' e'
    let t := a + b
    if t = 0 then .num (n && n') 0 1 0 else .num (decide (t < 0)) t.natAbs dd lo
  | _, _ => .nan

def FVal.sub (a b : FVal) : FVal := a.add b.negate

/-- a < b on numbers, signs of zeros ignored; false with a NaN. -/
def FVal.lt : FVal → FVal → Bool
  | .num n m d e, .num n' m' d' e' =>
    let (a, b, _, _) := FVal.align n m d e n' m' d' e'
    decide (a < b)
  | _, _ => false

/-- Larger value; max(−0, +0) = +0 (R139). -/
def FVal.max : FVal → FVal → FVal
  | .nan, _ => .nan
  | _, .nan => .nan
  | a, b => if a.lt b then b else if b.lt a then a else if a.neg? then b else a

/-- Smaller value; min(−0, +0) = −0 (R139). -/
def FVal.min : FVal → FVal → FVal
  | .nan, _ => .nan
  | _, .nan => .nan
  | a, b => if a.lt b then a else if b.lt a then b else if a.neg? then a else b

/-- floor(log2(m / d)) for m, d > 0. -/
def log2Ratio (m d : Nat) : Int :=
  let l : Int := (m.log2 : Int) - d.log2
  if l ≥ 0 then (if m ≥ d * 2 ^ l.toNat then l else l - 1)
  else (if m * 2 ^ (-l).toNat ≥ d then l else l - 1)

/-- floor(log2 |v|) of a nonzero value. -/
def FVal.log2 : FVal → Int
  | .num _ m d e => log2Ratio m d + e
  | .nan => 0

/-- floor of the integer square root, by bits from `k` down. -/
def isqrtGo (x : Nat) : Nat → Nat → Nat
  | 0, r => r
  | k + 1, r => let t := r + 2 ^ k; if t * t ≤ x then isqrtGo x k t else isqrtGo x k r

def isqrt (x : Nat) : Nat := isqrtGo x (x.log2 / 2 + 1) 0

/-- Square root with 128 fraction bits and a sticky bit below them, so that one rounding of it is the correct
rounding of the exact root (R125). -/
def FVal.sqrt : FVal → FVal
  | .nan => .nan
  | .num n m d e =>
    if m = 0 then .num n 0 1 0
    else if n then .nan
    else
      let e' := if e % 2 = 0 then e else e - 1
      let m' := if e % 2 = 0 then m else 2 * m
      -- root of m' / d at 2^-256 resolution, doubled for the sticky bit
      let x := m' * 2 ^ 512 / d
      let r := isqrt x
      let exact := r * r = x ∧ x * d = m' * 2 ^ 512
      .num false (if exact then 2 * r else 2 * r + 1) 1 (e' / 2 - 257)

/-! ## Reading elements (R107 to R109) -/

/-- What reading an element raised. -/
inductive ReadFlag where
  | none | nan | inf
  deriving DecidableEq, Repr

/-- Value of an element pattern; an infinity is read as the largest finite value of its sign (R109). -/
def decodeElem (f : Elem) (x : Nat) : FVal × ReadFlag :=
  let mag := x % 2 ^ (f.eb + f.fb)
  let neg := decide (x / 2 ^ (f.eb + f.fb) % 2 = 1)
  let val (g : Nat) : FVal :=
    let ex := g / 2 ^ f.fb
    let fr := g % 2 ^ f.fb
    if ex = 0 then .num neg fr 1 (f.emin - f.fb)
    else .num neg (2 ^ f.fb + fr) 1 ((ex : Int) - f.bias - f.fb)
  if f.hasInf then
    if mag = (2 ^ f.eb - 1) * 2 ^ f.fb then (val f.maxFinite, .inf)
    else if mag > (2 ^ f.eb - 1) * 2 ^ f.fb then (.nan, .nan)
    else (val mag, .none)
  else if f = .e4m3 ∧ mag = 0x7F then (.nan, .nan)
  else (val mag, .none)

/-- Value of an FP32 scale; an infinite or NaN scale makes its elements NaN (R109). -/
def decodeScale32 (x : BitVec 32) : FVal × ReadFlag :=
  match decodeElem .fp32 x.toNat with
  | (_, .inf) => (.nan, .inf)
  | r => r

/-- Exponent of an E8M0 scale; 0xFF is a NaN (R107). -/
def decodeE8M0 (x : Byte) : Option Int := if x = 0xFF then none else some ((x.toNat : Int) - 127)

def f32val (x : BitVec 32) : FVal := (decodeElem .fp32 x.toNat).1

/-! ## Rounding (R120 to R123) -/

/-- A rounded result with the events of R124 that writing it raises. -/
structure Rounded where
  bits : Nat
  ovf  : Bool
  unf  : Bool
  nan  : Bool
  deriving DecidableEq, Repr

/-- How a magnitude is brought to the destination's spacing. -/
inductive RMode where
  | rne
  /-- stochastic: w random bits r -/
  | sr (w r : Nat)
  | trunc
  deriving DecidableEq, Repr

/-- One rounding of an exact value into a format, saturated under R122. -/
def roundTo (f : Elem) (mode : RMode) : FVal → Rounded
  | .nan => ⟨f.canonNaN, false, false, true⟩
  | .num neg m d e =>
    let sgn := if neg then 2 ^ (f.eb + f.fb) else 0
    if m = 0 then ⟨sgn, false, false, false⟩
    else
      let ex := max (log2Ratio m d + e) f.emin
      let u := ex - f.fb
      let num := m * 2 ^ (e - u).toNat
      let den := d * 2 ^ (u - e).toNat
      let q := num / den
      let r := num % den
      let q' := match mode with
        | .rne => if 2 * r > den ∨ (2 * r = den ∧ q % 2 = 1) then q + 1 else q
        | .sr w rnd => if r * 2 ^ w / den + rnd ≥ 2 ^ w then q + 1 else q
        | .trunc => q
      let pat := (ex - f.emin).toNat * 2 ^ f.fb + q'
      if pat > f.maxFinite then ⟨sgn + f.maxFinite, true, false, false⟩
      else ⟨sgn + pat, false, decide (pat < 2 ^ f.fb), false⟩

/-- Rounded FP32 value and whether it saturated. -/
def rne32 (v : FVal) : BitVec 32 × Bool :=
  let r := roundTo .fp32 .rne v
  (BitVec.ofNat 32 r.bits, r.ovf)

/-- One IEEE binary32 addition, nearest even, saturated (R118). -/
def add32 (a b : BitVec 32) : BitVec 32 × Bool := rne32 ((f32val a).add (f32val b))

/-- An FP32 value of a computation, and whether a step that led to it saturated (R122, R124). -/
abbrev Sat32 := BitVec 32 × Bool

/-- An exact result rounded to FP32 after steps of which `before` says that one saturated. -/
def roundS (v : FVal) (before : Bool) : Sat32 := let r := rne32 v; (r.1, before || r.2)

def mulS (a b : Sat32) : Sat32 := roundS ((f32val a.1).mul (f32val b.1)) (a.2 || b.2)
def subS (a b : Sat32) : Sat32 := roundS ((f32val a.1).sub (f32val b.1)) (a.2 || b.2)
def addS (a b : Sat32) : Sat32 := roundS ((f32val a.1).add (f32val b.1)) (a.2 || b.2)

/-- Quotient by a count of elements. -/
def divNS (a : Sat32) (n : Nat) : Sat32 := roundS ((f32val a.1).div (.ofInt n)) a.2

/-- A value without its saturation flag. -/
def plainS (x : BitVec 32) : Sat32 := (x, false)

/-! ## KCG (R196) -/

def rotl32 (x : BitVec 32) (n : Nat) : BitVec 32 := x.rotateLeft n

def kcgRound (k0 k1 : BitVec 32) (i : Nat) : BitVec 32 × BitVec 32 × BitVec 32 × BitVec 32 →
    BitVec 32 × BitVec 32 × BitVec 32 × BitVec 32
  | (a, b, c, d) =>
    let a := a + b
    let d := rotl32 (d ^^^ a) 16
    let c := c + d
    let b := rotl32 (b ^^^ c) 12
    let a := a + b
    let d := rotl32 (d ^^^ a) 8
    let c := c + d
    let b := rotl32 (b ^^^ c) 7
    (a ^^^ k1, b + k0 + BitVec.ofNat 32 i, c, d)

/-- KCG(seed, stream, index) of R196. -/
def kcg (seed : BitVec 64) (stream : BitVec 24) (index : BitVec 40) : BitVec 32 :=
  let k0 := fld seed 0 32
  let k1 := fld seed 32 32
  let a : BitVec 32 := fld index 0 32
  let b : BitVec 32 := BitVec.ofNat 32 (fldN index 32 8 + stream.toNat * 256)
  let c := k0 ^^^ 0x4b777355#32
  let d := k1 ^^^ 0x9e3779b9#32
  let r := (List.range 8).foldl (fun st i => kcgRound k0 k1 i st) (a, b, c, d)
  r.1 ^^^ r.2.2.1

/-- The draw of the element whose first bit lies in the byte at local address a: index bits [40:1] (R89). -/
def kcgAt (seed : BitVec 64) (stream : BitVec 24) (a : Nat) : BitVec 32 :=
  kcg seed stream (BitVec.ofNat 40 (a / 2))

/-- Random bits of the element of a format whose first bit has absolute bit address `ba` (R121). -/
def srMode (seed : BitVec 64) (stream : BitVec 24) (f : Elem) (ba : Nat) : RMode :=
  let draw := kcgAt seed stream (ba / 8)
  if f.bits ≥ 16 then .sr 32 draw.toNat
  else .sr 8 (fldN draw (8 * (ba % 16 / 4)) 8)

/-! ## Numerical events (R124) -/

/-- Events one instruction raised, per R124; `ovf` lists the format codes saturated into. -/
structure NumEv where
  nanIn  : Nat := 0
  nanOut : Nat := 0
  infIn  : Nat := 0
  unf    : Nat := 0
  ovf    : List Nat := []
  deriving DecidableEq, Repr

def NumEv.join (a b : NumEv) : NumEv :=
  ⟨a.nanIn + b.nanIn, a.nanOut + b.nanOut, a.infIn + b.infIn, a.unf + b.unf, a.ovf ++ b.ovf⟩

def NumEv.ofRead : ReadFlag → NumEv
  | .none => {}
  | .nan => { nanIn := 1 }
  | .inf => { infIn := 1 }

/-- Events of FP32 values that are no output elements: each that saturated counts once (R122, R124). -/
def NumEv.ofSats (fs : List Bool) : NumEv := { ovf := (fs.filter id).map (fun _ => 2) }

/-- Events of writing one element rounded into format code `code`; `mid32` says that an FP32 step before it
saturated, which counts once under FP32 (R124). -/
def NumEv.ofWrite (code : Nat) (r : Rounded) (mid32 : Bool) : NumEv :=
  { nanOut := b2n r.nan, unf := b2n r.unf,
    ovf := (if r.ovf then [code] else []) ++ (if mid32 && !(r.ovf && code == 2) then [2] else []) }

/-! ## Aligned integer accumulation (R114 to R119) -/

/-- A product of two elements: a NaN, or sign, significand and exponent. -/
abbrev Prod := Option (Bool × Nat × Int)

/-- Exact product of two element values. -/
def prodOf (a b : FVal) : Prod :=
  match a, b with
  | .num n m d e, .num n' m' d' e' => if d = 1 ∧ d' = 1 then some (n != n', m * m', e + e') else none
  | _, _ => none

/-- Sum of one group: the signed integer over the 64-position window and its lowest exponent (R115). -/
def groupSum (ps : List (Bool × Nat × Int)) : Int × Int :=
  let nz := ps.filter (fun p => p.2.1 != 0)
  match nz with
  | [] => (0, 0)
  | p :: _ =>
    let lg (p : Bool × Nat × Int) : Int := (p.2.1.log2 : Int) + p.2.2
    let emax := nz.foldl (fun a p => max a (lg p)) (lg p)
    let lsb := emax - 63
    let term (p : Bool × Nat × Int) : Int :=
      let sh := p.2.2 - lsb
      let m : Nat := if sh ≥ 0 then p.2.1 * 2 ^ sh.toNat else p.2.1 / 2 ^ (-sh).toNat
      if p.1 then -(m : Int) else m
    (nz.foldl (fun a p => a + term p) 0, lsb)

/-- The value of a K-block (R115): products of half 0 and half 1, E8M0 exponents of the halves, the FP32 scale
product. The flag says that the rounding to FP32 saturated. Under a scale product of zero the value is +0 (DESIGN CHOICE,
log 138). -/
def kBlock (h0 h1 : List Prod) (e0 e1 : Option Int) (st : FVal) : BitVec 32 × Bool :=
  let nanC : BitVec 32 := BitVec.ofNat 32 Elem.fp32.canonNaN
  match e0, e1, st with
  | some x0, some x1, .num sn sm sd se =>
    if (h0 ++ h1).any Option.isNone then (nanC, false)
    else
      let g0 := h0.filterMap id
      let g1 := h1.filterMap id
      let exact : FVal :=
        if x0 = x1 then
          let (a, l) := groupSum (g0 ++ g1)
          .num (decide (a < 0)) a.natAbs 1 (l + x0)
        else
          let (a, l) := groupSum g0
          let (b, l') := groupSum g1
          FVal.add (.num (decide (a < 0)) a.natAbs 1 (l + x0)) (.num (decide (b < 0)) b.natAbs 1 (l' + x1))
      if exact.isZero ∨ sm = 0 then (0, false)
      else rne32 (exact.mul (.num sn sm sd se))
  | _, _, _ => (nanC, false)

/-- The chain of R118 over K-block values in ascending order, from a start value when there is one. -/
def chain32 (start : Option (BitVec 32)) (vs : List (BitVec 32 × Bool)) : BitVec 32 × Bool :=
  match start, vs with
  | none, [] => (0, false)
  | some x, vs => vs.foldl (fun a v => let r := add32 a.1 v.1; (r.1, a.2 || v.2 || r.2)) (x, false)
  | none, v :: vs => vs.foldl (fun a v => let r := add32 a.1 v.1; (r.1, a.2 || v.2 || r.2)) v

/-- Fixed-order lane sum of R141 over FP32 values; `none` is an empty lane. -/
def laneJoin (a b : Option (BitVec 32) × Bool) : Option (BitVec 32) × Bool :=
  match a.1, b.1 with
  | none, _ => (b.1, a.2 || b.2)
  | _, none => (a.1, a.2 || b.2)
  | some x, some y => let r := add32 x y; (some r.1, a.2 || b.2 || r.2)

/-- Elements of one lane: every 512th from its first. -/
def everyNth {α : Type} (step : Nat) : Nat → List α → List α
  | _, [] => []
  | 0, x :: xs => x :: everyNth step (step - 1) xs
  | k + 1, _ :: xs => everyNth step k xs

/-- The halving tree over the lanes, from half size s down. -/
def laneTree : Nat → List (Option (BitVec 32) × Bool) → Option (BitVec 32) × Bool
  | 0, ls => ls.headD (none, false)
  | k + 1, ls =>
    let s := 2 ^ k
    laneTree k ((List.range s).map (fun l => laneJoin (ls.getD l (none, false)) (ls.getD (l + s) (none, false))))

/-- SUM of R141: FP32 result and whether a step saturated. -/
def sum141 (xs : List (BitVec 32)) : BitVec 32 × Bool :=
  let lane (l : Nat) : Option (BitVec 32) × Bool :=
    (everyNth 512 l xs).foldl (fun a x => laneJoin a (some x, false)) (none, false)
  let r := laneTree 9 ((List.range 512).map lane)
  (r.1.getD 0, r.2)

/-- SUMSQ of R141: each lane is a chain of fused multiply-adds. -/
def sumsq141 (xs : List (BitVec 32)) : BitVec 32 × Bool :=
  let step (a : Option (BitVec 32) × Bool) (x : BitVec 32) : Option (BitVec 32) × Bool :=
    let sq := (f32val x).mul (f32val x)
    let r := match a.1 with
      | none => rne32 sq
      | some y => rne32 (sq.add (f32val y))
    (some r.1, a.2 || r.2)
  let lane (l : Nat) := (everyNth 512 l xs).foldl step (none, false)
  let r := laneTree 9 ((List.range 512).map lane)
  (r.1.getD 0, r.2)

end Sys2Proof.Machine
end

