-- ==== Sys2Proof/Machine/StateCore.lean ====
section
/-! DEFINITION. State held once per core C0 to C7: sequencer, engines, queues, stores and their registers
(chapters 02 to 07, 10 and 19 of spec/). Every structure carries its reset value as field defaults. -/

namespace Sys2Proof.Machine

/-- An instruction word (R47). -/
abbrev Word128 := BitVec 128

/-- KCG selection held by a sequencer (R51, R198). -/
structure KcgSel where
  seed   : BitVec 64 := 0
  stream : BitVec 24 := 0
  deriving DecidableEq, Repr

/-! ## Message queues (R31 to R45) -/

/-- One 64 B queue entry with its sideband (R31). -/
structure MsgEntry where
  payload : BitVec 512
  srcDev  : BitVec 14
  srcCore : BitVec 3
  pos     : BitVec 3
  last    : Bool
  deriving DecidableEq, Repr

/-- One inbound queue of a core with the fields of CORE.MSGQ_STAT and CORE.MSGQ_CTRL (R44). -/
structure MsgQueue where
  /-- stage 0 first -/
  entries      : List MsgEntry := []
  /-- RX_LOCKED: a message is partly arrived (R32) -/
  locked       : Bool := false
  flushPending : Bool := false
  markValid    : Bool := false
  mark         : Nat := 0
  rdPos        : Nat := 0
  overrun      : Bool := false
  creditOvf    : Bool := false
  rejectCount  : BitVec 16 := 0
  kt4          : Bool := false
  /-- senders whose status carried FULL = 1: device, core (R38) -/
  senders      : List (BitVec 14 × BitVec 3) := []
  deriving DecidableEq, Repr

/-- One credit-mirror entry of a MSG engine (R37); the list keeps the most recently used first. -/
structure MirrorEntry where
  dev   : BitVec 14
  core  : BitVec 3
  queue : BitVec 4
  full  : Bool
  deriving DecidableEq, Repr

/-- A send whose status has not arrived (R36, R39). -/
structure PendingSend where
  id    : Nat
  sigcc : BitVec 8
  dev   : BitVec 14
  core  : BitVec 3
  queue : BitVec 4
  /-- scheduled send: tag, and what R338 records of it -/
  sched : Bool := false
  tag   : BitVec 16 := 0
  late  : Bool := false
  fellBack : Nat := 0
  fbCause  : Nat := 0
  resent   : Bool := false
  deriving DecidableEq, Repr

/-! ## Engine operations, resolved at issue (R49, R52, R60 to R72) -/

/-- The operation an engine received, its per-core fields substituted and its address operands resolved. -/
inductive EngOp where
  | ldw (src scale : Nat) (plane : Bool) (fmt : BitVec 4) (k n : Nat)
  | mm (inp out rows : Nat) (plane dir : Bool) (inFmt outFmt : BitVec 4) (acc sr : Bool) (kblk : Nat)
  /-- `shape`: K, N and format of the plane's record at issue (R97) -/
  | dual (desc : Nat) (plane : Bool) (shape : Option (Nat × Nat × BitVec 4))
  | wgrad (desc : Nat)
  | vec (opc : BitVec 8) (a b d count : Nat) (fmt : BitVec 4) (sr : Bool)
  | cred (desc : Nat)
  | conv (sr : Bool) (a d scale count : Nat) (inFmt outFmt : BitVec 4)
  | row (bwd : Bool) (desc layer mb kind : Nat)
  | statFree (layer mb kind : Nat)
  | att (opc : BitVec 8) (desc slot : Nat)
  | gather (desc : Nat)
  | walk (desc : Nat)
  | copy1 (src dst len : Nat) (shint dhint : BitVec 2)
  | copyd (desc : Nat)
  | send (src : Nat) (dev : BitVec 14) (core : BitVec 3) (queue : BitVec 4) (len : Nat) (wait sched : Bool)
      (tag : BitVec 16)
  | recv (dst : Nat) (queue : BitVec 4)
  | flush (queue : BitVec 4)
  | mark (queue : BitVec 4)
  | rewind (queue : BitVec 4)
  | release (queue : BitVec 4)
  | cacheRange (writeBack invalidate : Bool) (addr len : Nat)
  deriving DecidableEq, Repr

/-- An entry of an issue queue. `op = none` is a null entry (R76). -/
structure QEntry where
  /-- position in the core's issue order -/
  id     : Nat
  pc     : BitVec 17
  engine : BitVec 4
  opcode : BitVec 8
  sigcc  : BitVec 8
  bcast  : Bool
  /-- launch time set by LAUNCH_AT (R64) -/
  launch : Option (BitVec 64)
  op     : Option EngOp
  /-- KCG selection held by the sequencer at issue (R89, R198) -/
  kcg    : KcgSel
  deriving DecidableEq, Repr

inductive PlaneState where
  | empty | loading | ready
  deriving DecidableEq, Repr

/-- One weight plane of the Ox array (R79, R84): its registers and the stored tile. -/
structure OxPlane where
  state  : PlaneState := .empty
  fmt    : BitVec 4 := 0
  k      : Nat := 0
  n      : Nat := 0
  /-- tile rows as stored, element bytes only (R83) -/
  rows   : List (List Byte) := []
  /-- block scale rows as stored at SCALE (R113) -/
  scales : List (List Byte) := []
  /-- FP32 tensor scale of codes 3 and 4 -/
  tscale : BitVec 32 := 0
  deriving DecidableEq, Repr

/-- A sequence slot of the attention pipeline (R165). -/
structure AttSlot where
  valid    : Bool := false
  dcode    : BitVec 8 := 0
  kvFmt    : BitVec 8 := 0
  kvHeads  : BitVec 8 := 0
  len      : BitVec 21 := 0
  table    : BitVec 42 := 0
  entries  : BitVec 13 := 0
  pitch    : BitVec 32 := 0
  deriving DecidableEq, Repr

/-- A line that a copy has read: its number, its bytes, each with the mark of an uncorrectable line. -/
abbrev HeldLine := Nat × List (Byte × Bool)

/-- An operation that has left its queue and has not signalled. -/
structure REntry where
  q           : QEntry
  /-- OX streams: the plane as it stood at the start; rows passed before a later LDW changes a cell (R86) -/
  plane       : OxPlane := {}
  /-- OX streams: rows still enter, so the stream unit is held -/
  inRows      : Bool := true
  /-- descriptor bytes (and mask) read at the start -/
  desc        : List Byte := []
  /-- ATT: the slot's state read at the start (R167) -/
  slot        : AttSlot := {}
  /-- remote copies: requests sent and not yet completed (R308) -/
  outstanding : Nat := 0
  /-- an error of a part of the operation was reported; the signal carries ERR -/
  err         : Bool := false
  /-- remote copies: packets of the copy sent so far -/
  sent        : Nat := 0
  /-- remote copies: the source line read last, which the next packet may go on in (R271) -/
  held        : Option HeldLine := none
  /-- FT of the start, from which a scheduled operation counts its late limit (R334) -/
  startFt     : BitVec 64 := 0
  /-- it started more than 8 ns after its launch time (R65) -/
  late        : Bool := false
  /-- scheduled operations: packets that fell back, first cause, any packet resent (R338) -/
  fellBack    : Nat := 0
  fbCause     : Nat := 0
  resent      : Bool := false
  deriving DecidableEq, Repr

/-- Issue queue and running operations of one unit. -/
structure EngQueue where
  queue   : List QEntry := []
  running : List REntry := []
  deriving DecidableEq, Repr

/-- A range-scoreboard entry (R58): bytes lo to hi, both included, rounded to 64 B. -/
structure SbEntry where
  owner : Nat
  lo    : Nat
  hi    : Nat
  write : Bool
  deriving DecidableEq, Repr

/-! ## Sequencer (R51, R78) -/

/-- A decoded instruction in the issue buffer, on the ring or in a broadcast buffer (R25, R77).
`cause = 0`: legal; otherwise the cause of R75 it is marked with. -/
structure Decoded where
  pc    : BitVec 17
  word  : Word128
  cause : Nat
  deriving DecidableEq, Repr

/-- What the sequencer waits for (R56, R63, R72). -/
inductive SeqWait where
  | none
  | cc (idx : BitVec 6) (target : BitVec 31) (timed : Bool) (sigcc : BitVec 8)
  | queue (q : BitVec 4) (timed : Bool) (sigcc : BitVec 8)
  | drain (mask : BitVec 8) (sigcc : BitVec 8)
  deriving DecidableEq, Repr

/-- Why the sequencer last could not issue the word at its head (CORE.SEQ_STAT.STATE 2 and 3). -/
inductive SeqStall where
  | none | queueFull | scoreboard
  deriving DecidableEq, Repr

structure SeqState where
  /-- next word to fetch; 131,072 when fetch has run past the last word -/
  pc         : BitVec 18 := 0
  ar         : Vector (BitVec 56) 32 := Vector.replicate 32 0
  as_        : Vector (BitVec 64) 32 := Vector.replicate 32 0
  gr         : Vector (BitVec 64) 16 := Vector.replicate 16 0
  fErr       : Bool := false
  fTmo       : Bool := false
  callStack  : List (BitVec 18) := []
  /-- innermost open region first: region, FT at REGION_BEGIN -/
  regions    : List (BitVec 12 × BitVec 64) := []
  kcg        : KcgSel := {}
  cc         : Vector (BitVec 32) 64 := Vector.replicate 64 0
  sb         : List SbEntry := []
  wait       : SeqWait := .none
  stall      : SeqStall := .none
  /-- STATE 7: stopped by STOP_ON_ERR (R74) -/
  stopped    : Bool := false
  /-- END has issued (or fetch failed): nothing more issues and ACTIVE falls when all is complete (R63) -/
  ended      : Bool := false
  /-- Bellwether only: fetching has ended (R27) -/
  fetchEnded : Bool := false
  /-- a decoded LAUNCH_AT whose following word has not been decoded -/
  launchHeld : Option Decoded := none
  /-- decoded words waiting to issue: the broadcast buffer, or the one word of an independent core -/
  buf        : List Decoded := []
  /-- Bellwether only: ring credits held per rank (R25) -/
  credits    : Vector Nat 8 := Vector.replicate 8 0
  /-- next operation number in issue order -/
  nextId     : Nat := 0
  /-- shape of the last LDW issued to each plane: K, N, format (R97) -/
  ldwRec     : Vector (Option (Nat × Nat × BitVec 4)) 2 := Vector.replicate 2 none
  deriving DecidableEq, Repr

/-- CORE.ERR_CTRL, ERR_COUNT, LAST_ERR, LAST_ERR_FT, LAUNCH_STAT (R78). -/
structure ErrRegs where
  stopOnErr    : Bool := false
  illegal      : BitVec 16 := 0
  inconsistent : BitVec 16 := 0
  waitTimeout  : BitVec 16 := 0
  gooseSupp    : BitVec 8 := 0
  remoteSigRej : BitVec 8 := 0
  lePc         : BitVec 17 := 0
  leEngine     : BitVec 4 := 0
  leOpcode     : BitVec 8 := 0
  leCause      : BitVec 8 := 0
  leRank       : BitVec 3 := 0
  leBcast      : Bool := false
  leExec       : Bool := false
  leValid      : Bool := false
  leOverwritten : Bool := false
  leFt         : BitVec 64 := 0
  lateCount    : BitVec 16 := 0
  maxLate      : BitVec 32 := 0
  deriving DecidableEq, Repr

/-! ## Numerical counters (R126) -/

/-- CORE.NUM_STAT and CORE.NUM_OVF of one engine. -/
structure NumRegs where
  nanIn  : BitVec 16 := 0
  nanOut : BitVec 16 := 0
  infIn  : BitVec 16 := 0
  unf    : BitVec 16 := 0
  /-- saturations per format code 0 to 11 -/
  ovf    : Vector (BitVec 16) 12 := Vector.replicate 12 0
  deriving DecidableEq, Repr

/-- Numerical registers of a core: engine index 0 OX, 1 VEC, 2 ROW, 3 ATT. -/
structure NumState where
  ovfFlags : BitVec 4 := 0
  nanFlags : BitVec 4 := 0
  infFlags : BitVec 4 := 0
  unfFlags : BitVec 4 := 0
  eng      : Vector NumRegs 4 := Vector.replicate 4 {}
  /-- counts since the job load that TELEMETRY sums, 16 for each engine in register order (R354) -/
  sinceLoad : Vector (BitVec 32) 64 := Vector.replicate 64 0
  deriving DecidableEq, Repr

/-! ## Row engine, attention pipeline (R153 to R159, R165, R183) -/

/-- A statistics-directory entry (R154). The entry index is its place in the directory. -/
structure StatEntry where
  idx    : Nat
  layer  : BitVec 12
  mb     : BitVec 8
  kind   : BitVec 4
  backed : Bool
  open_  : Bool
  rows   : BitVec 32
  addr   : BitVec 42
  deriving DecidableEq, Repr

structure RowRegs where
  /-- valid directory entries -/
  dir      : List StatEntry := []
  nospace  : BitVec 16 := 0
  replaced : BitVec 16 := 0
  freeMiss : BitVec 16 := 0
  deriving DecidableEq, Repr

structure AttRegs where
  slots      : Vector AttSlot 16 := Vector.replicate 16 {}
  faultPage  : BitVec 12 := 0
  faultSlot  : BitVec 4 := 0
  faultKind  : BitVec 3 := 0
  faultValid : Bool := false
  faultCount : BitVec 16 := 0
  deriving DecidableEq, Repr

/-! ## Core cache, regions (R242, R252, R429 to R433) -/

/-- A cached line: its HBM line number, its 64 bytes, its dirty bit. The list is most recently used first. -/
structure CacheLine where
  line  : Nat
  data  : BitVec 512
  dirty : Bool
  deriving DecidableEq, Repr

/-- A part of an operand that a stream reader has yet to ask for: [lo, stop), and whether its first request is made. -/
structure PfExtent where
  lo    : Nat
  stop  : Nat
  deriving DecidableEq, Repr

/-- A stream reader that reads HBM ahead for an operation: its extents to come, and the granules in its buffer as local
line numbers, oldest first (R249). -/
structure PfReader where
  owner : Nat
  todo  : List PfExtent
  lines : List Nat := []
  /-- the 64 KiB page begun last, and whether its request was dropped (R250) -/
  page  : Option (Nat × Bool) := none
  deriving DecidableEq, Repr

structure CacheRegs where
  lines    : List CacheLine := []
  pfDrop   : BitVec 16 := 0
  pfInval  : BitVec 16 := 0
  badIndex : BitVec 32 := 0
  /-- stream readers with their prefetch buffers (R249) -/
  pf       : List PfReader := []
  deriving DecidableEq, Repr

/-- One entry of a region table (R429, R433). -/
structure RegionEntry where
  count   : BitVec 32 := 0
  late    : BitVec 16 := 0
  planned : Bool := false
  /-- some planned instance has been counted, so MAX_SLIP holds a slip (R430): the model's own field -/
  slipSeen : Bool := false
  total   : BitVec 64 := 0
  last    : BitVec 40 := 0
  lastSlip : BitVec 32 := 0
  maxSlip  : BitVec 32 := 0
  deriving DecidableEq, Repr

structure RegionRegs where
  lateNs    : BitVec 32 := 1000
  recEn     : Bool := false
  abandoned : BitVec 16 := 0
  /-- entries that differ from the reset value, in rising order of REGION -/
  table     : List (Nat × RegionEntry) := []
  deriving DecidableEq, Repr

/-! ## The core -/

/-- CORE.IDENT and CORE.MODE (R44). CORE_INDEX and DIE follow from the index. -/
structure CoreIdent where
  rank       : BitVec 3 := 0
  partition  : BitVec 4 := 0
  jobTag     : BitVec 16 := 0
  bcast      : Bool := false
  groupSize  : BitVec 2 := 0
  bellwether : BitVec 3 := 0
  active     : Bool := false
  writeRej   : Bool := false
  deriving DecidableEq, Repr

structure MsgRegs where
  queues        : Vector MsgQueue 16 := Vector.replicate 16 {}
  tagReject     : BitVec 16 := 0
  statusTimeout : BitVec 16 := 0
  lateStatus    : BitVec 16 := 0
  mirror        : List MirrorEntry := []
  sends         : List PendingSend := []
  /-- the SEND at the queue head waits for credit (R37) -/
  holding       : Bool := false
  deriving DecidableEq, Repr

structure Core where
  id      : CoreIdent := {}
  /-- RING_HELD of CORE.BCAST_STAT -/
  ringHeld : Bool := false
  /-- words on the broadcast ring that have not reached this member, oldest first (R25) -/
  ringIn   : List Decoded := []
  /-- credits of this member on their way back to its Bellwether (R25) -/
  creditsBack : Nat := 0
  seq     : SeqState := {}
  err     : ErrRegs := {}
  ox      : EngQueue := {}
  vec     : EngQueue := {}
  row     : EngQueue := {}
  att     : EngQueue := {}
  gath    : EngQueue := {}
  mule    : Vector EngQueue 4 := Vector.replicate 4 {}
  msgq    : EngQueue := {}
  cacheq  : EngQueue := {}
  planes  : Vector OxPlane 2 := Vector.replicate 2 {}
  num     : NumState := {}
  rowr    : RowRegs := {}
  attr    : AttRegs := {}
  cache   : CacheRegs := {}
  msg     : MsgRegs := {}
  region  : RegionRegs := {}
  /-- instruction memory words placed by a job load; an unlisted word is zero (R47) -/
  imem    : List (Nat × BitVec 128) := []
  /-- entry point of the loaded program; none on a core that the image does not use (R51) -/
  entry   : Option (BitVec 17) := none
  /-- FTs of the Goose records of skips, late launches, late regions and late scheduled operations (R74) -/
  budget  : List (BitVec 64) := []
  deriving DecidableEq, Repr

end Sys2Proof.Machine
end

