-- ==== Sys2Proof/Machine/StateEth.lean ====
section
/-! DEFINITION. State of the Ethernet ports, of GMCP, of RoCEv2 and of the IEEE 1588 clock (chapter 15). Values that the
standing configuration gives start at zero and are loaded at the cold start. -/

namespace Sys2Proof.Machine

/-! ## GMCP (R346 to R353) -/

/-- A request waiting in the command queue of a control port (R353): 0 E0, 1 E1, 2 UART. -/
structure GmcpReq where
  port  : Nat
  /-- header, payload and tag as they arrived -/
  msg   : List Byte
  /-- FT when it was received -/
  ft    : BitVec 64 := 0
  /-- decoded image that a JOB_LOAD names -/
  image : Option JobImage := none
  deriving DecidableEq, Repr

/-- A reply the module sent: port, VLAN tag of its frame, UDP port it leaves from, bytes. -/
structure GmcpReply where
  port  : Nat
  vlan  : Option (BitVec 12)
  udp   : BitVec 16
  bytes : List Byte
  deriving DecidableEq, Repr

/-- A JOB_START that waits for its START_FT (R352). -/
structure ArmedStart where
  part  : Nat
  ft    : BitVec 64
  deriving DecidableEq, Repr

/-! ## RoCEv2 (R356 to R358) -/

/-- A registered window (R357), with its slots when it is an ingest buffer (R358). -/
structure Window where
  rkey      : BitVec 32
  /-- partition, 0xFF for the load area -/
  part      : BitVec 8
  read      : Bool
  write     : Bool
  ingest    : Bool
  base      : Nat
  length    : Nat
  slotBytes : Nat
  slots     : Nat
  buffer    : Nat
  /-- slot tried first for the next message -/
  nextSlot  : Nat := 0
  /-- full slots, oldest first: slot, message length -/
  full      : List (Nat × Nat) := []
  deriving DecidableEq, Repr

/-- What a QP sent back (R356, R357). -/
inductive RoceOut where
  | ack (psn : BitVec 24)
  | readResp (psn : BitVec 24) (data : List Byte)
  | nakInvalid (psn : BitVec 24)
  | nakAccess (psn : BitVec 24)
  | nakOperational (psn : BitVec 24)
  | rnrNak (psn : BitVec 24)
  | nakSequence (psn : BitVec 24)
  | cnp
  deriving DecidableEq, Repr

structure Qp where
  qpn     : Nat
  port    : Nat
  /-- partition, 0xFF for the load area -/
  part    : Nat
  remote  : BitVec 32
  gid     : BitVec 128
  /-- PSN expected next -/
  psn     : BitVec 24
  err     : Bool := false
  /-- packets received since the last acknowledgement, and the PSN to acknowledge (R356) -/
  unacked : Nat := 0
  lastPsn : BitVec 24 := 0
  /-- SEND message being received: window, slot, bytes so far -/
  recv    : Option (BitVec 32 × Nat × Nat) := none
  /-- RDMA WRITE being received: next address, bytes left -/
  wr      : Option (Nat × Nat) := none
  /-- bytes of each packet but the last of the message being received: the path MTU -/
  mtu     : Nat := 0
  /-- a merge of the RDMA WRITE being received met an uncorrectable line -/
  wrBad   : Bool := false
  /-- READ response rate in millionths of the full rate -/
  rate    : Nat := 1000000
  /-- FT of the last CNP sent -/
  cnpFt   : Option (BitVec 64) := none
  /-- sent, oldest first -/
  out     : List RoceOut := []
  /-- held while the port's priority is paused, oldest first (R343) -/
  held    : List RoceOut := []
  deriving DecidableEq, Repr

/-! ## Ports and clock -/

/-- What the steward answers for a port's addresses (R344). -/
inductive EthAnswer where
  /-- ARP reply: the port's MAC address, to a hardware address and an IPv4 address -/
  | arp (own : BitVec 48) (mac : BitVec 48) (ip : BitVec 32)
  /-- neighbour advertisement: the port's MAC address, to a hardware address and an IPv6 address -/
  | neighbour (own : BitVec 48) (mac : BitVec 48) (ip : BitVec 128)
  /-- echo reply, ICMP or ICMPv6: from the port's MAC address, to whom, and the bytes after the checksum field -/
  | echo (own : BitVec 48) (v6 : Bool) (mac : BitVec 48) (ip : BitVec 128) (body : List Byte)
  deriving DecidableEq, Repr

structure EthPort where
  linkUp    : Bool := false
  lanes     : BitVec 4 := 0
  fecLock   : Bool := false
  disable   : Bool := false
  pfcEn     : Bool := false
  pfcPrio   : BitVec 3 := 0
  roleCtrl  : Bool := false
  roleBulk  : Bool := false
  fecCorr   : BitVec 24 := 0
  fecUncorr : BitVec 16 := 0
  fcsErr    : BitVec 16 := 0
  dropOther : BitVec 8 := 0
  nakSent   : BitVec 16 := 0
  rejAddr   : BitVec 16 := 0
  cnpSent   : BitVec 16 := 0
  rnrSent   : BitVec 16 := 0
  /-- transmission on the configured priority is paused (R343) -/
  paused    : Bool := false
  /-- answers of the steward to ARP, neighbour solicitation and echo with their VLAN tags, oldest first (R343, R344) -/
  answers   : List (Option (BitVec 12) × EthAnswer) := []
  deriving DecidableEq, Repr

/-- A foreign master: its last Announce, and FT of its Announces, newest first. -/
structure ForeignMaster where
  m     : PtpMaster
  heard : List (BitVec 64)
  deriving DecidableEq, Repr

structure PtpClock where
  domain   : BitVec 7 := 0
  masterOk : Bool := false
  lastOffset : BitVec 32 := 0
  /-- masters whose Announce was received -/
  masters  : List ForeignMaster := []
  /-- port identity of the master in force -/
  master   : Option Nat := none
  /-- Sync received: sequence, FT of receipt, correction in 2^-16 ns -/
  sync     : Option (BitVec 16 × BitVec 64 × BitVec 64) := none
  /-- time of day at the master when the Sync left, minus FT of its receipt, ns -/
  msDiff   : Option Int := none
  /-- Delay_Req sent: sequence, FT of sending -/
  req      : Option (BitVec 16 × BitVec 64) := none
  reqSeq   : BitVec 16 := 0
  /-- interval of Delay_Req in ns: at most one second -/
  interval : Nat := 1000000000
  deriving DecidableEq, Repr

structure EthBlk where
  ports     : Vector EthPort 2 := Vector.replicate 2 {}
  cmds      : BitVec 16 := 0
  badTag    : BitVec 16 := 0
  staleSeq  : BitVec 16 := 0
  busy      : BitVec 8 := 0
  replayed  : BitVec 8 := 0
  session   : BitVec 64 := 0
  lastSeq   : BitVec 64 := 0
  /-- replies to the last 16 authenticated requests: SEQ, reply -/
  cache     : List (BitVec 64 × List Byte) := []
  /-- BAD_TAG count since the last Goose record of it, and FT of that record (R347) -/
  badTagNew : BitVec 32 := 0
  badTagFt  : Option (BitVec 64) := none
  /-- requests waiting, oldest first -/
  queue     : List GmcpReq := []
  /-- replies sent, oldest first -/
  replies   : List GmcpReply := []
  armed     : List ArmedStart := []
  windows   : List Window := []
  qps       : List Qp := []
  nextQpn   : Nat := 1
  nextKey   : Nat := 1
  ptp       : PtpClock := {}
  deriving DecidableEq, Repr

end Sys2Proof.Machine
end

