-- ==== Sys2Proof/Machine/StateFab.lean ====
section
/-! DEFINITION. State of the light fabric and of fabric time (chapters 13 and 14). Structures carry their cold-reset
values as field defaults; values loaded from the option bytes or the standing configuration start at zero. -/

namespace Sys2Proof.Machine

/-! ## Lanes (R287 to R296, R314, R316) -/

/-- State codes of R294. -/
inductive LaneState where
  | off | train | hello | up | listen | miswired | failed
  deriving DecidableEq, Repr

/-- The faults injected into a packet that a lane sent: the receiver discards it, two bits of its first wavelength frame
are flipped, payload bit 0 is flipped (R314). -/
structure InjFault where
  drop    : Bool := false
  link    : Bool := false
  payload : Bool := false
  deriving DecidableEq, Repr

/-- A packet a lane has sent, with the fault injected into it. -/
structure SentPacket where
  pkt   : Packet
  fault : InjFault := {}
  deriving DecidableEq, Repr

/-- A scheduled packet ready at this source (R334). -/
structure SchedPacket where
  xid   : BitVec 32
  pkt   : Packet
  trunk : Nat
  core  : Nat
  /-- Mule engine 0 to 3, or 4 for the MSG engine -/
  unit_ : Nat
  id    : Nat
  /-- late limit -/
  limit : BitVec 64
  /-- FT at which it became ready -/
  ready : BitVec 64
  deriving DecidableEq, Repr

/-- Where the right of a packet to a lane comes from: best effort, a scheduled packet of this source (R334), or one that
came in on a lane (R335). -/
inductive SchedFrom where
  | bestEffort
  | source (x : SchedPacket)
  | transit (inLane : Nat)
  deriving DecidableEq, Repr

/-- A packet held for reorder injection (R314, R339). -/
structure HeldPacket where
  sp    : SentPacket
  from_ : SchedFrom
  /-- its hold is over: it leaves as soon as its lane may take it -/
  due   : Bool := false
  deriving DecidableEq, Repr

/-- A lane frame kept for replay (R292). -/
structure RetryFrame where
  seq  : BitVec 16
  data : List Byte
  /-- times it was replayed in a row -/
  replays : Nat
  /-- wavelength of those in use on which two bits are flipped on the fibre, until a replay (R314) -/
  flips : Option Nat := none
  deriving DecidableEq, Repr

/-- Instant of the mark of a TIME packet sent: its sequence number, FT and fraction (R326). -/
structure TimeMark where
  seq  : BitVec 16
  ft   : BitVec 64
  frac : BitVec 16
  deriving DecidableEq, Repr

/-- What the far end's last TIME packet reported (R325). -/
structure FarTime where
  seen      : Bool := false
  seq       : BitVec 16 := 0
  rxFt      : BitVec 64 := 0
  rxFrac    : BitVec 16 := 0
  sourceDev : BitVec 14 := 0x3FFF
  dist      : BitVec 8 := 31
  locked    : Bool := false
  source    : Bool := false
  todValid  : Bool := false
  tod       : BitVec 64 := 0
  /-- the far end follows this lane -/
  upstream  : Bool := false
  deriving DecidableEq, Repr

/-- What became of a packet that is being received, when its header came: a lane sends it on; the lane that did has left
UP; it falls back under a cause once it is whole (R293, R313, R335). -/
inductive CutThrough where
  | onto (lane : Nat)
  | lost
  | falls (cause : Nat)
  deriving DecidableEq, Repr

structure Lane where
  state     : LaneState := .off
  txMask    : BitVec 8 := 0
  rxMask    : BitVec 8 := 0
  misCause  : BitVec 4 := 0
  retrains  : BitVec 16 := 0
  corr      : BitVec 24 := 0
  uncorr    : BitVec 16 := 0
  replays   : BitVec 16 := 0
  los       : BitVec 8 := 0
  injDrop   : BitVec 20 := 0
  injCorrupt : BitVec 20 := 0
  injReorder : BitVec 20 := 0
  corruptKind : Bool := false
  disable   : Bool := false
  listenEn  : Bool := true
  /-- number of the next lane frame to send (R292) -/
  txSeq     : BitVec 16 := 0
  /-- lane frames kept for replay, oldest first (R292) -/
  retry     : List RetryFrame := []
  /-- bytes of the last fill block that the next lane frame begins with (R293) -/
  txCarry   : List Byte := []
  /-- a good lane frame was received since frame lock -/
  rxSync    : Bool := false
  /-- number of the last lane frame received in order without error -/
  rxSeq     : BitVec 16 := 0
  /-- a bad lane frame was received; NAK is sent and frames are discarded until the replay -/
  nak       : Bool := false
  /-- WAKE is sent to the far end (R296) -/
  wakeTx    : Bool := false
  /-- a hello is to be sent once the lane has left LISTEN (R296, R297) -/
  helloDue  : Bool := false
  /-- frames sent on λ0 alone in LISTEN (R291) -/
  listenFrames : Nat := 0
  /-- bytes received in order that do not yet make a block of 32 -/
  rxRaw     : List Byte := []
  /-- blocks of the packet that is being received, without the IDLE blocks in it (R293) -/
  rxBytes   : List Byte := []
  /-- what was settled for the packet being received when its header came -/
  cut       : Option CutThrough := none
  /-- receiving lane whose packet this lane is sending -/
  cutFrom   : Option Nat := none
  /-- FT and fraction of the lane frame that carried the first byte of `rxRaw`, of `rxBytes` (R325) -/
  rawMark   : BitVec 64 × BitVec 16 := (0, 0)
  rxMark    : BitVec 64 × BitVec 16 := (0, 0)
  /-- the replay whose NAK the far end still shows: its ACKSEQ, and the instant it was begun (R292) -/
  replayed  : Option (BitVec 16 × Nat) := none
  /-- uncorrectable wavelength frames of the last 1 ms: wavelength, FT, newest first (R294) -/
  badFrames : List (Nat × BitVec 64) := []
  /-- a hello of this attempt passed the checks of R297 -/
  helloOk   : Bool := false
  /-- credits held: VC0 request, VC0 response, VC1 request, VC1 response (R307) -/
  credits   : Vector Nat 4 := Vector.replicate 4 0
  /-- running totals last received from the far end -/
  crSeen    : Vector (BitVec 11) 4 := Vector.replicate 4 0
  /-- running totals returned to the far end -/
  crTotal   : Vector (BitVec 11) 4 := Vector.replicate 4 0
  /-- packets sent since injection was enabled (R314) -/
  injCount  : Nat := 0
  /-- packets held for reorder injection, newest first -/
  reorder   : List HeldPacket := []
  /-- packets sent, oldest first: what leaves on the lane's byte stream -/
  sent      : List SentPacket := []
  /-- ABORT blocks sent -/
  aborts    : Nat := 0
  /-- the last hello of the far end set JOB_LOADED (R296), RESTRICTED (R297) -/
  farJob    : Bool := false
  farRestricted : Bool := false
  /-- hellos sent -/
  hellos    : Nat := 0
  /-- far device and RX_MASK of the last hello -/
  farDev    : BitVec 14 := 0x3FFF
  farMask   : BitVec 8 := 0
  /-- FT until which the lane carries packets, in units of lane time, 33,075 to the ns -/
  busyUntil : Nat := 0
  /-- TIME exchange: own sequence number, the marks of the packets sent within 500 µs, newest first, a packet that waits
  for a slot of tag 0, what the far end reported -/
  timeSeq   : BitVec 16 := 0
  marks     : List TimeMark := []
  timeDue   : Bool := false
  far       : FarTime := {}
  /-- FT of the last fresh measurement -/
  measFt    : BitVec 64 := 0
  deriving DecidableEq, Repr

/-! ## Requests in flight (R308 to R310) -/

/-- Who waits for the answer of a request. -/
inductive ReqOwner where
  /-- a packet of a copy: core, Mule engine, operation number -/
  | copy (core mule id : Nat)
  /-- a message: core, operation number -/
  | msg (core id : Nat)
  /-- a remote signal, whose sender waits for nothing -/
  | signal
  | notice
  deriving DecidableEq, Repr

/-- An unanswered request packet. A resend reads its data again from `src`. -/
structure OutReq where
  xid   : BitVec 32
  pkt   : Packet
  owner : ReqOwner
  /-- local source address and bytes of the payload data, for WRITE and MSG -/
  src   : Option (Nat × Nat)
  resends : Nat := 0
  deriving DecidableEq, Repr

/-- An entry of the duplicate table (R310). -/
structure DupEntry where
  srcDev : BitVec 14
  xid    : BitVec 32
  status : BitVec 8
  full   : Bool
  deriving DecidableEq, Repr

/-- Fields of a packet to be built at this module. -/
structure PacketFields where
  ty      : Nat
  dst     : BitVec 14
  src     : BitVec 14
  srcCore : Nat := 0
  jobTag  : BitVec 16 := 0
  addr    : Nat := 0
  tail    : Nat := 0
  dstCore : Nat := 0
  queue   : Nat := 0
  counter : Nat := 0
  err     : Bool := false
  xid     : BitVec 32 := 0
  tag     : Nat := 0
  poison  : Bool := false
  payload : List Byte := []
  deriving DecidableEq, Repr

structure FmapEntry where
  dev   : BitVec 14
  trunk : BitVec 3
  src   : BitVec 2
  deriving DecidableEq, Repr

/-- A packet waiting at this hop for its trunk (R304), or in a fallback buffer (R337). -/
structure WaitPacket where
  trunk  : Nat
  pkt    : Packet
  /-- receiving lane whose credits it still holds, with the VC it arrived on -/
  inLane : Option (Nat × Nat)
  /-- receiving lane whose fallback buffer it occupies -/
  fallback : Option Nat := none
  deriving DecidableEq, Repr

structure FabBlk where
  systemId  : BitVec 32 := 0
  sizes     : Vector (BitVec 8) 4 := Vector.replicate 4 0
  coord     : Vector (BitVec 8) 4 := Vector.replicate 4 0
  coordValid : Bool := false
  coordMode : BitVec 2 := 0
  conflict  : Bool := false
  iflDiff   : BitVec 8 := 0
  lsuPresent : BitVec 4 := 0
  lsuOk     : BitVec 4 := 0
  /-- units that are fitted and ready, whatever a reset did to the register: the model's own field -/
  lsuFitted : BitVec 4 := 0
  lsuLit    : BitVec 4 := 0
  downEvt   : BitVec 8 := 0
  unreach   : BitVec 16 := 0
  expired   : BitVec 16 := 0
  hdrErr    : BitVec 16 := 0
  pcrcErr   : BitVec 8 := 0
  poisonRx  : BitVec 8 := 0
  retx      : BitVec 16 := 0
  failed    : BitVec 16 := 0
  dupCount  : BitVec 16 := 0
  busy      : BitVec 16 := 0
  injEn     : Bool := false
  permit    : Bool := false
  injBad    : Bool := false
  injSeed   : BitVec 64 := 0
  fmap      : List (Nat × FmapEntry) := []
  fmapOvf   : Bool := false
  noticesSent : BitVec 16 := 0
  /-- bit t: the loss of trunk t was announced and its return was not (R306) -/
  lossNoticed : BitVec 8 := 0
  /-- notices still to be sent: link (device, trunk in the layout of ADDR), loss, next device -/
  noticeQ   : List (Nat × Bool × Nat) := []
  noticesRecv : BitVec 16 := 0
  lanes     : Vector Lane 64 := Vector.replicate 64 {}
  nextXid   : BitVec 32 := 0
  out       : List OutReq := []
  dups      : List DupEntry := []
  waiting   : List WaitPacket := []
  sched     : List SchedPacket := []
  /-- remote signals that wait for a place among the 8,192 unanswered requests (R308) -/
  rsigQ     : List PacketFields := []
  /-- messages that failed finally and whose status may still come: XID, core, operation number (R39, R308) -/
  failedMsgs : List (BitVec 32 × Nat × Nat) := []
  /-- time to the next lane frame, in fifths of a ns: the model's own field (R291) -/
  framePhase : Nat := 0
  deriving DecidableEq, Repr

/-! ## Fabric time (R318 to R341) -/

structure TimeBlk where
  ft        : BitVec 64 := 0
  frac      : BitVec 16 := 0
  /-- sub-fraction of the tick increment not yet in `frac`, in units of 2^-16 ns x 10^-9: the model's own field -/
  sub       : Nat := 0
  /-- time for which a backward step still holds FT (R318), in units of 2^-16 ns -/
  hold      : Nat := 0
  srcMode   : BitVec 2 := 0
  ppsEn     : Bool := true
  ppsComp   : BitVec 32 := 0
  aligned   : Bool := false
  locked    : Bool := false
  ppsLock   : Bool := false
  holdover  : Bool := false
  ppsMissing : Bool := false
  stepDeferred : Bool := false
  todValid  : Bool := false
  roleSource : Bool := false
  upTrunk   : BitVec 3 := 0
  upLane    : BitVec 3 := 0
  dist      : BitVec 5 := 31
  sourceDev : BitVec 14 := 0x3FFF
  rateAdj   : BitVec 32 := 0
  holdRate  : BitVec 32 := 0
  linkOffset : BitVec 32 := 0
  linkDelay : BitVec 32 := 0
  lastErr   : BitVec 32 := 0
  reject    : BitVec 16 := 0
  missing   : BitVec 8 := 0
  steps     : BitVec 8 := 0
  todOffset : BitVec 64 := 0
  /-- follower with an upstream lane chosen (R320) -/
  hasUp     : Bool := false
  /-- servo of R326 -/
  integ     : Int := 0
  good      : Nat := 0
  /-- last 64 servo outputs, newest first -/
  servoOut  : List Int := []
  /-- an edge has been accepted; FT of the last accepted edge (R323) -/
  edgeSeen  : Bool := false
  lastEdge  : BitVec 64 := 0
  /-- consecutive accepted edges with |e| at most 20 ns (R322) -/
  goodEdges : Nat := 0
  /-- the -e term of R322 is in the rate word, until this FT -/
  slewing   : Bool := false
  slewEnd   : BitVec 64 := 0
  /-- rates of the last 16 accepted pulse intervals in ppb, newest first (R324) -/
  pulseRates : List Int := []
  /-- last 16 offset measurements of IEEE 1588, newest first (R329) -/
  todSamples : List Int := []
  frameM1   : BitVec 13 := 0
  schedEn   : Bool := false
  lateSlots : BitVec 13 := 0
  schedTag  : BitVec 16 := 0
  schedEpoch : BitVec 64 := 0
  fallback  : BitVec 24 := 0
  lateOps   : BitVec 16 := 0
  transitFb : BitVec 16 := 0
  fbDrop    : BitVec 8 := 0
  slTag     : BitVec 16 := 0
  slTrunk   : BitVec 3 := 0
  slCore    : BitVec 3 := 0
  slCause   : BitVec 3 := 0
  slTransit : Bool := false
  slValid   : Bool := false
  slOverwritten : Bool := false
  selSlot   : BitVec 13 := 0
  selTrunk  : BitVec 3 := 0
  slotBad   : Bool := false
  /-- slot-table entries that are not zero: 8,192 x trunk + slot, 16 bytes -/
  slots     : List (Nat × BitVec 128) := []
  deriving DecidableEq, Repr

end Sys2Proof.Machine
end

