-- ==== Sys2Proof/Machine/StateSys.lean ====
section
/-! DEFINITION. State of the always-on island and the steward: power and plant, reset and start-up, flash and option
bytes, security, pins (chapters 16, 17, 18 and 20). Structures carry their cold-reset values as field defaults; values
loaded from the option bytes, the standing configuration, the fuses or a start begin at zero. -/

namespace Sys2Proof.Machine

/-! ## Power (R363 to R381) -/

/-- PWR.PLANT_OUT (R376). -/
structure PlantOut where
  role     : BitVec 2 := 0
  override : Bool := false
  ovrDuty  : BitVec 8 := 0
  deriving DecidableEq, Repr

/-- PWR.PLANT_IN, with what the standing configuration says of the input (R376, R390). -/
structure PlantIn where
  role  : BitVec 2 := 0
  rate  : BitVec 16 := 0
  fault : Bool := false
  /-- pulses per revolution or litre -/
  pulses : BitVec 16 := 0
  expected : BitVec 16 := 0
  minimum : BitVec 16 := 0
  deriving DecidableEq, Repr

/-- One interval of 10 µs: the estimate in W before and after calibration, and the valid sample of the measurement, if there
is one: power in W, current in 0.01 A (R367). -/
structure PowerTick where
  raw  : Nat
  est  : Nat
  meas : Option (Nat × Nat) := none
  deriving DecidableEq, Repr

/-- The two nodes of the thermal model of a compute die, in thousandths of a °C (R375): the junction as last measured, and
cold plate or heatsink base, which no sensor reads; none before the first sample. -/
structure DieHeat where
  junction : Int := 0
  base     : Option Int := none
  deriving DecidableEq, Repr

structure PwrBlk where
  opCur      : BitVec 4 := 8
  opTarget   : BitVec 4 := 8
  halved     : Bool := false
  estTrusted : Bool := true
  measValid  : Bool := false
  plantFault : Bool := false
  limiting   : BitVec 4 := 15
  capW       : BitVec 16 := 0
  capBad     : Bool := false
  /-- cap in force: a cap written while THROTTLE_N is asserted waits for the release (R378) -/
  capInForce : BitVec 16 := 0
  ceilingW   : BitVec 16 := 0
  scLimitW   : BitVec 16 := 0
  limitW     : BitVec 16 := 0
  plantFaultW : BitVec 16 := 0
  vinMv      : BitVec 16 := 0
  iinCa      : BitVec 16 := 0
  pinW       : BitVec 16 := 0
  failEvt    : Bool := false
  estW       : BitVec 16 := 0
  gain       : BitVec 16 := 0x4000
  offset     : BitVec 16 := 0
  disagree   : BitVec 4 := 0
  asserted   : BitVec 8 := 0
  alertMask  : BitVec 8 := 0xFE
  seen       : BitVec 8 := 0
  tjMax      : BitVec 8 := 0
  hbmMax     : BitVec 8 := 0
  optMax     : BitVec 8 := 0
  inlet      : BitVec 8 := 0
  tjPred     : BitVec 8 := 0
  idleEn     : BitVec 8 := 0xFF
  idleStopped : BitVec 8 := 0xFF
  halvings   : BitVec 16 := 0
  untrusted  : BitVec 16 := 0
  extAsserts : BitVec 16 := 0
  plantFaults : BitVec 16 := 0
  thrTime    : Vector (BitVec 64) 8 := Vector.replicate 8 0
  outs       : Vector PlantOut 4 := Vector.replicate 4 {}
  ins        : Vector PlantIn 4 := Vector.replicate 4 {}
  /-- lowest index, that is highest point, each reason allows; 0 allows every point (R373) -/
  allow      : Vector Nat 8 := Vector.replicate 8 0
  /-- index that the thermal model calls for from the junction reason, and the prediction in thousandths of a °C that the last
  sample made (R373, R375) -/
  modelGoal  : Nat := 0
  modelPred  : Int := 0
  /-- index whose voltage is in force (R366) -/
  vIdx       : Nat := 8
  /-- ticks of 10 µs since the last upward move of the point (R371) -/
  upTicks    : Nat := 100
  /-- intervals of the last 100 ms, newest first (R367) -/
  ticks      : List PowerTick := []
  /-- intervals since the last calibration window -/
  winTicks   : Nat := 0
  /-- higher of the two adjacent points the cap controller alternates between, and intervals into the period of 100 µs (R371) -/
  pair       : Option Nat := none
  phase      : Nat := 0
  measFailed : Bool := false
  /-- windows in a row that differ by less than 5 % while untrusted -/
  agree      : Nat := 0
  /-- an overcurrent trip, a thermal trip or a brown-out holds every fast clock (R379) -/
  stopOver   : Bool := false
  stopThermal : Bool := false
  stopBrown  : Bool := false
  /-- full hours THROTTLE_N has been asserted; hold after its release (R378) -/
  throttleHours : Nat := 0
  throttleHold : Bool := false
  /-- plant-fault conditions present: condition code of R428, input; and the one that went last (R376) -/
  conds      : List (Nat × Nat) := []
  lastCond   : Nat × Nat := (0, 0)
  /-- duty that the firmware commands -/
  plantCmd   : BitVec 8 := 255
  /-- the thermal model, by compute die -/
  dies       : Vector DieHeat 4 := Vector.replicate 4 {}
  /-- samples of 1 ms in a row with the prediction below 90 °C (R375) -/
  coolRun    : Nat := 0
  inletFail  : Bool := false
  switchOn   : Bool := false
  /-- PWR_EN low holds every fast clock by the same path, which is no emergency stop (R373, R383) -/
  stopEn     : Bool := false
  /-- the steward drives the plant; before that outputs run at full duty, but those that the standing configuration is known to
  leave unused (R376, R443) -/
  stewardPlant : Bool := false
  rolesRead  : Bool := false
  deriving DecidableEq, Repr

/-! ## Reset and start-up (R383 to R400) -/

structure RstBlk where
  cause      : BitVec 17 := 0
  stSlot     : Bool := false
  buSlot     : Bool := false
  stFallback : Bool := false
  buFallback : Bool := false
  restricted : BitVec 4 := 0
  ready      : Bool := false
  scCopy     : Bool := false
  bootFail   : BitVec 2 := 0
  /-- read from the die fuses (R397) -/
  stepping   : BitVec 4 := Config.stepping
  stIflevel  : BitVec 16 := 0
  buIflevel  : BitVec 16 := 0
  stPref     : Bool := false
  buPref     : Bool := false
  readyMs    : BitVec 32 := 0
  resets     : BitVec 32 := 0
  /-- neither steward slot verified: the ROM stays in control (R395) -/
  recovery   : Bool := false
  /-- RESET_N holds the module in reset -/
  held       : Bool := false
  /-- a reset accepted while an emergency stop holds, or without input power: true for cold (R385) -/
  waiting    : Option Bool := none
  /-- the reset that waits is, or is merged with, a power-on (R383, R385) -/
  powerUp    : Bool := false
  deriving DecidableEq, Repr

/-- A flash command that runs (R399). -/
inductive FlashOp where
  | readPage (addr : Nat)
  | program (addr : Nat)
  | erase (addr : Nat)
  deriving DecidableEq, Repr

structure FlashBlk where
  /-- the 64 MiB flash; an unlisted byte is 0xFF -/
  flash   : Mem := []
  /-- option bytes in force, 256; standing configuration in force, 512 or none -/
  ob      : List Byte := []
  sc      : List Byte := []
  aOk     : Bool := false
  bOk     : Bool := false
  used    : BitVec 2 := 0
  differ  : Bool := false
  addr    : BitVec 26 := 0
  done    : Bool := false
  prot    : Bool := false
  err     : Bool := false
  /-- page buffer: word w holds bytes 8w to 8w + 7 -/
  buf     : Vector (BitVec 64) 32 := Vector.replicate 32 0
  op      : Option FlashOp := none
  deriving DecidableEq, Repr

/-! ## Security (R403 to R417) -/

/-- A fuse operation that waits or runs (R407). -/
inductive FuseOp where
  | commitSt | commitBu
  | revoke (k : Nat)
  deriving DecidableEq, Repr

/-- Working state of the Hash_DRBG with SHA-256: V, C and the requests since its last seed (R411). -/
structure Drbg where
  v     : BitVec 440
  c     : BitVec 440
  count : Nat
  deriving DecidableEq, Repr

structure SecBlk where
  debug     : Bool := false
  injUsed   : Bool := false
  rngFail   : Bool := false
  stKey     : BitVec 2 := 0
  buKey     : BitVec 2 := 0
  revoked   : BitVec 4 := 0
  floorSt   : BitVec 7 := 0
  floorBu   : BitVec 7 := 0
  badWrite  : Bool := false
  reportId  : BitVec 32 := 0
  /-- REPORT_ID of the report whose signature is held -/
  attId     : BitVec 32 := 0
  attValid  : Bool := false
  /-- what SYS.ATT_SIG signs: seeds of the identity key, report; none before the first report -/
  attSig    : Option (List Byte × List Byte) := none
  meas      : Vector (BitVec 256) 6 := Vector.replicate 6 0
  stVersion : BitVec 32 := 0
  buVersion : BitVec 32 := 0
  stSvn     : BitVec 16 := 0
  buSvn     : BitVec 16 := 0
  /-- fuse operations under way, the running one first, and the bits of the write they came from -/
  fuses     : List FuseOp := []
  fuseBits  : BitVec 8 := 0
  /-- challenge presented for a debug unlock (R415) -/
  challenge : List Byte := []
  /-- a valid answer marked the next cold reset as unlocked -/
  unlockNext : Bool := false
  /-- device secret in the fuses (R409) -/
  secret    : BitVec 256 := Config.deviceSecret
  /-- key registers: SK.seed, SK.prf and PK.seed of the identity key, 16 bytes each; empty before a start derives them -/
  idSeeds   : List Byte := []
  /-- the DRBG; none before its first seed -/
  drbg      : Option Drbg := none
  /-- inputs drawn from the entropy source: the model's own counter -/
  drawn     : Nat := 0
  deriving DecidableEq, Repr

/-! ## Pins (R441 to R446) -/

structure PinBlk where
  slotId   : BitVec 6 := 63
  /-- filtered level of the SLOT_ID pins -/
  slotPins : BitVec 6 := 63
  pps      : Bool := false
  resetN   : Bool := true
  pwrEn    : Bool := false
  throttleN : Bool := true
  coolOk   : Bool := false
  uartRx   : Bool := true
  pwrGood  : Bool := false
  slotChanged : Bool := false
  uartFrame : BitVec 16 := 0
  uartCrc  : BitVec 16 := 0
  smbTimeout : BitVec 16 := 0
  glitch   : BitVec 16 := 0
  /-- bytes of a UART frame that is not complete -/
  uartPart : List Byte := []
  /-- frames sent on UART_TX, oldest first -/
  uartTx   : List (List Byte) := []
  /-- SMBus copy: status, serial number (R443) -/
  smbStatus : List Byte := List.replicate 16 0
  smbSerial : List Byte := List.replicate 16 0
  /-- what the SMBus target last answered; none after a NACK or before any command -/
  smbOut   : Option (List Byte) := none
  smbNacked : Bool := false
  /-- a rise of PWR_EN held until 100 ms after its fall -/
  pwrEnHeld : Bool := false
  deriving DecidableEq, Repr

end Sys2Proof.Machine
end

