-- ==== Sys2Proof/Machine/StateUd.lean ====
section
/-! DEFINITION. State of the two Bullock update dies: command rings, the running command and the quiet-layer monitor
(R136, R201 to R225). -/

namespace Sys2Proof.Machine

/-- UDn.RING_BASE, RING_CFG and RING_PTR of one partition (R225). -/
structure UdRing where
  base   : BitVec 42 := 0
  log2   : BitVec 4 := 0
  enable : Bool := false
  head   : BitVec 64 := 0
  tail   : BitVec 64 := 0
  deriving DecidableEq, Repr

/-- One quiet-layer entry: UDn.QLM_ENTRY and the totals since the last judgement (R133, R136). -/
structure QlmEntry where
  layerEn : Bool := true
  quiet   : Bool := false
  count   : BitVec 16 := 0
  lastBp  : BitVec 14 := 0
  events  : BitVec 16 := 0
  /-- gradient elements read, and those that were zero or subnormal, since the last judgement -/
  total   : Nat := 0
  zeros   : Nat := 0
  /-- quiet passes since the layer's previous quiet event (R134) -/
  since   : Nat := 0
  deriving DecidableEq, Repr

/-- A command taken from a ring and not retired (R205). -/
structure UdCmd where
  part    : Nat
  /-- entry index in the ring -/
  entry   : Nat
  /-- the 128 bytes of the command -/
  bytes   : List Byte
  /-- cause of R221, 0 when the command passed its checks -/
  cause   : Nat
  /-- stores of the command: address, bytes -/
  writes  : List (Nat × List Byte)
  /-- SIGNAL of the command; a command whose SIGNAL is not honoured holds 0 here -/
  signal  : BitVec 32
  /-- a chunk was left unwritten (R222), or a factor was kept (R219) -/
  ue      : Bool
  /-- gradient elements read and those zero or subnormal (R224) -/
  total   : Nat
  zeros   : Nat
  /-- working store is borrowed (R217), frames per die -/
  borrow  : Nat
  deriving DecidableEq, Repr

structure Ud where
  rings    : Vector UdRing 8 := Vector.replicate 8 {}
  shareP0  : BitVec 5 := 4
  shareP1  : BitVec 5 := 4
  arbBad   : Bool := false
  done     : BitVec 16 := 0
  failed   : BitVec 16 := 0
  ueChunks : BitVec 16 := 0
  rootKept : BitVec 16 := 0
  ceCause  : BitVec 8 := 0
  cePart   : BitVec 3 := 0
  ceEntry  : BitVec 12 := 0
  ceValid  : Bool := false
  ceOverwritten : Bool := false
  nanIn    : BitVec 16 := 0
  nanOut   : BitVec 16 := 0
  infIn    : BitVec 16 := 0
  ovf      : BitVec 16 := 0
  tailRej  : BitVec 8 := 0
  tailRejCount : BitVec 16 := 0
  /-- partition of the ring served last (R205) -/
  lastRing : Nat := 7
  running  : Option UdCmd := none
  /-- STAT.PART, LAYER and KIND of the current command, and CHUNK -/
  statChunk : BitVec 32 := 0
  qlmEn    : Bool := true
  qlmEvtEn : Bool := true
  qlmDest  : BitVec 4 := 15
  qlmThresh : BitVec 16 := 100
  qlmSteps : BitVec 16 := 64
  qlmBad   : Bool := false
  qlmSelLayer : BitVec 12 := 0
  qlmSelPart  : BitVec 3 := 0
  /-- entries that differ from reset: 4,096 x partition + layer -/
  qlm      : List (Nat × QlmEntry) := []
  evtRej   : BitVec 16 := 0
  evtSent  : BitVec 16 := 0
  lastLayer : BitVec 12 := 0
  lastPart : BitVec 3 := 0
  deriving DecidableEq, Repr

end Sys2Proof.Machine
end

