-- ==== Sys2Proof/Machine/State.lean ====
section
/-! DEFINITION. The state of a KT8 module and of the model's command queue, the reasons a step can stop, and the state
after reset. -/

namespace Sys2Proof.Machine

/-- Source of a message that has not entered its queue (R35). -/
inductive MsgSrc where
  /-- a core of this module, and the operation number of its SEND -/
  | core (c id : Nat)
  /-- the fabric input, with the packet to be acknowledged -/
  | fabric (p : Packet)
  /-- the Bullock input -/
  | ud (n : Nat)
  deriving DecidableEq, Repr

/-- A message on its way to a queue of this module, or partly arrived in it (R32 to R35). -/
structure LocalMsg where
  src     : MsgSrc
  core    : Nat
  queue   : Nat
  jobTag  : BitVec 16
  /-- entries not yet arrived, first to last -/
  entries : List MsgEntry
  /-- FT at which its first entry reached the queue's input -/
  ft      : BitVec 64
  /-- its first entry was accepted and it holds the queue's input -/
  started : Bool := false
  deriving DecidableEq, Repr

/-- Partition states of R352. -/
inductive PartState where
  | empty | loaded | running | ended | aborted
  deriving DecidableEq, Repr

/-- A partition, named by its first core (R28, R352, R449). -/
structure Part where
  state  : PartState := .empty
  size   : Nat := 0
  jobTag : BitVec 16 := 0
  devMap : BitVec 12288 := 0
  deriving DecidableEq, Repr

/-- The machine stops with a fault: the KT8 manual describes no such stop, so nobody raises one. -/
inductive Fault where
  deriving DecidableEq, Repr

/-- The model refuses a command. -/
inductive Refusal where
  /-- Raised by `exec` for a command that has no meaning in the model. Safe: the run stops. -/
  | notModelled (mnemonic : String)
  deriving DecidableEq, Repr

structure State where
  /-- commands waiting, first in first out -/
  pending : List Instr := []
  cores   : Vector Core 8 := Vector.replicate 8 {}
  ms      : MemSys := {}
  goose   : Goose := {}
  fab     : FabBlk := {}
  time    : TimeBlk := {}
  ud      : Vector Ud 2 := Vector.replicate 2 {}
  parts   : Vector Part 8 := Vector.replicate 8 {}
  eth     : EthBlk := {}
  locals  : List LocalMsg := []
  pwr     : PwrBlk := {}
  rst     : RstBlk := {}
  fl      : FlashBlk := {}
  sec     : SecBlk := {}
  pins    : PinBlk := {}
  /-- the model's own counter of free values -/
  free    : Nat := 0
  deriving DecidableEq, Repr

/-- What a command answers. -/
abbrev Out := Host.Outcome State Fault Refusal

/-- The module right after reset: every register at its cold-reset value, every memory, queue and buffer empty. -/
def State.reset : State := {}

end Sys2Proof.Machine
end

