-- ==== Sys2Proof/Machine/Ops.lean ====
section
/-! DEFINITION. Named operations over the state that every family uses: reaching a core, a Bullock, a lane; Goose
events; reads and writes at the home; completion-counter signals (R53, R55, R74, R204, R243, R249). -/

namespace Sys2Proof.Machine

/-! ## Reaching parts of the state -/

def State.core (s : State) (c : Nat) : Core := s.cores.getD c {}
def State.modCore (s : State) (c : Nat) (f : Core → Core) : State := { s with cores := vmod s.cores c f }
def State.udOf (s : State) (u : Nat) : Ud := s.ud.getD u {}
def State.modUd (s : State) (u : Nat) (f : Ud → Ud) : State := { s with ud := vmod s.ud u f }
def State.part (s : State) (p : Nat) : Part := s.parts.getD p {}
def State.modPart (s : State) (p : Nat) (f : Part → Part) : State := { s with parts := vmod s.parts p f }
def State.lane (s : State) (k : Nat) : Lane := s.fab.lanes.getD k {}
def State.modFab (s : State) (f : FabBlk → FabBlk) : State := { s with fab := f s.fab }
def State.modLane (s : State) (k : Nat) (f : Lane → Lane) : State :=
  { s with fab := { s.fab with lanes := vmod s.fab.lanes k f } }
def State.modTime (s : State) (f : TimeBlk → TimeBlk) : State := { s with time := f s.time }
def State.modEth (s : State) (f : EthBlk → EthBlk) : State := { s with eth := f s.eth }
def State.modPwr (s : State) (f : PwrBlk → PwrBlk) : State := { s with pwr := f s.pwr }
def State.modRst (s : State) (f : RstBlk → RstBlk) : State := { s with rst := f s.rst }
def State.modFl (s : State) (f : FlashBlk → FlashBlk) : State := { s with fl := f s.fl }
def State.modSec (s : State) (f : SecBlk → SecBlk) : State := { s with sec := f s.sec }
def State.modPins (s : State) (f : PinBlk → PinBlk) : State := { s with pins := f s.pins }
def State.modMs (s : State) (f : MemSys → MemSys) : State := { s with ms := f s.ms }
def State.modGoose (s : State) (f : Goose → Goose) : State := { s with goose := f s.goose }

def Core.modSeq (k : Core) (f : SeqState → SeqState) : Core := { k with seq := f k.seq }
def Core.modErr (k : Core) (f : ErrRegs → ErrRegs) : Core := { k with err := f k.err }
def Core.modMsg (k : Core) (f : MsgRegs → MsgRegs) : Core := { k with msg := f k.msg }
def Core.modQueue (k : Core) (q : Nat) (f : MsgQueue → MsgQueue) : Core :=
  { k with msg := { k.msg with queues := vmod k.msg.queues q f } }
def Core.queue (k : Core) (q : Nat) : MsgQueue := k.msg.queues.getD q {}

/-- Issue queue and running operations of a unit. -/
def Core.eng (k : Core) : EngUnit → EngQueue
  | .ox => k.ox | .vec => k.vec | .row => k.row | .att => k.att | .gath => k.gath
  | .m0 => k.mule.getD 0 {} | .m1 => k.mule.getD 1 {} | .m2 => k.mule.getD 2 {} | .m3 => k.mule.getD 3 {}
  | .msg => k.msgq | .cache => k.cacheq

def Core.modEng (k : Core) (u : EngUnit) (f : EngQueue → EngQueue) : Core :=
  match u with
  | .ox => { k with ox := f k.ox }
  | .vec => { k with vec := f k.vec }
  | .row => { k with row := f k.row }
  | .att => { k with att := f k.att }
  | .gath => { k with gath := f k.gath }
  | .m0 => { k with mule := vmod k.mule 0 f }
  | .m1 => { k with mule := vmod k.mule 1 f }
  | .m2 => { k with mule := vmod k.mule 2 f }
  | .m3 => { k with mule := vmod k.mule 3 f }
  | .msg => { k with msgq := f k.msgq }
  | .cache => { k with cacheq := f k.cacheq }

/-- Mule engine n of UNIT n. -/
def muleUnit : Nat → EngUnit
  | 0 => .m0 | 1 => .m1 | 2 => .m2 | _ => .m3

def EngUnit.isMule : EngUnit → Bool
  | .m0 | .m1 | .m2 | .m3 => true
  | _ => false

/-- The running operation of number `id` changed. -/
def EngQueue.modRunning (e : EngQueue) (id : Nat) (f : REntry → REntry) : EngQueue :=
  { e with running := e.running.map (fun r => if r.q.id = id then f r else r) }

/-- Fabric time now, ns. -/
abbrev State.now (s : State) : BitVec 64 := s.time.ft

/-- An emergency stop holds every fast clock (R379). -/
def State.emergency (s : State) : Bool := s.pwr.stopOver || s.pwr.stopThermal || s.pwr.stopBrown

/-- Every fast clock stands: an emergency stop, or PWR_EN low by the same path (R379, R383). -/
def State.stopped (s : State) : Bool := s.emergency || s.pwr.stopEn

/-- Ethernet port p carries frames: its link is up and its optical engine runs (R379). -/
def State.portUp (s : State) (p : Nat) : Bool := (s.eth.ports.getD p {}).linkUp && !s.stopped

/-- Device ID of this module; 0x3FFF while its coordinates are not valid (R299). -/
def FabBlk.dev (f : FabBlk) : DevId :=
  if f.coordValid then
    BitVec.ofNat 14 ((f.coord.getD 0 0).toNat + 8 * ((f.coord.getD 1 0).toNat
      + 8 * ((f.coord.getD 2 0).toNat + 12 * (f.coord.getD 3 0).toNat)))
  else 0x3FFF

def State.dev (s : State) : DevId := s.fab.dev

/-- A device value that names this module (R49). -/
def State.isOwnDev (s : State) (d : DevId) : Bool := d == 0x3FFF || d == s.dev

/-! ## Partitions and jobs (R28, R230, R449) -/

/-- Cores p, p + 1, ... of partition p. -/
def Part.cores (pt : Part) (p : Nat) : List Nat := (List.range pt.size).map (· + p)

/-- A job is loaded in some partition (LOADED, RUNNING, ENDED or ABORTED). -/
def State.anyJob (s : State) : Bool := s.parts.toList.any (fun p => p.state != .empty)

/-- The partition number of a core as CORE.IDENT holds it. -/
def State.partNo (s : State) (c : Nat) : Nat := (s.core c).id.partition.toNat

/-- A device is in the job of partition p (R449). -/
def State.inJob (s : State) (p : Nat) (d : DevId) : Bool :=
  s.isOwnDev d || (decide (d.toNat < 12288) && (s.part p).devMap.getLsbD d.toNat)

/-- The partition a job tag names, when a job with that tag is loaded. -/
def State.partOfTag (s : State) (tag : BitVec 16) : Option Nat :=
  (List.range 8).find? (fun p => (s.part p).state != .empty && (s.part p).jobTag == tag)

/-- [a, a + n) is HBM in the regions of partition p. -/
def State.hbmOk (s : State) (p a n : Nat) : Bool := inHbm a n && s.ms.inRegions p a n

/-- [a, a + n) may be named by one that may name HBM of partition p and the SRAM that `sram` allows. Core 0's SRAM begins
where HBM ends, so a range may lie in both (R227, R228). -/
def State.homeOk (s : State) (p : Nat) (sram : Nat → Nat → Bool) (a n : Nat) : Bool :=
  s.hbmOk p a n || sram a n ||
    (decide (a < hbmEnd ∧ hbmEnd < a + n) && s.hbmOk p a (hbmEnd - a) && sram hbmEnd (a + n - hbmEnd))

/-- Cores c and d belong to one partition of this module; a core that is in no job belongs to none (R28, R227). -/
def State.samePart (s : State) (c d : Nat) : Bool :=
  let p := s.part (s.partNo c)
  let cores := if p.state == .empty then [] else p.cores (s.partNo c)
  c == d || (s.partNo c == s.partNo d && cores.contains c && cores.contains d)

/-- [a, a + n) is populated SRAM of a core of core c's partition. -/
def State.partSram (s : State) (c a n : Nat) : Bool :=
  (List.range 8).any (fun d => s.samePart c d && inSram d a n)

/-- [a, a + n) lies in the populated control windows of core d (R227): statistics data with the directory after it,
counters, mailboxes. -/
def ctlOk (d a n : Nat) : Bool :=
  let b := ctlBase d
  decide ((b ≤ a ∧ a + n ≤ b + 0x404000)
    ∨ (b + 0x800000 ≤ a ∧ a + n ≤ b + 0x800200) ∨ (b + 0xC00000 ≤ a ∧ a + n ≤ b + 0xC08000))

def State.partCtl (s : State) (c a n : Nat) : Bool :=
  (List.range 8).any (fun d => s.samePart c d && ctlOk d a n)

/-! ## Goose events (R428) -/

def State.log (s : State) (e : GEvent) : State := { s with goose := s.goose.log s.now s.time.aligned e }

def State.logs (s : State) (es : List GEvent) : State := es.foldl State.log s

/-- Job tag and partition of an event of core c. -/
def State.coreEvent (s : State) (c code : Nat) (detail : List (Nat × Nat)) : GEvent :=
  let p := s.partNo c
  let loaded := (s.part p).state != .empty
  { source := 8 + c, code := code, jobTag := (s.core c).id.jobTag,
    part := if loaded then BitVec.ofNat 8 p else 0xFF, detail := detail }

/-- The budget of R74: at most 16 records of a core in any second. -/
def State.budgetLeft (s : State) (c : Nat) : Bool :=
  decide (((s.core c).budget.filter (fun t => decide ((s.now - t).toNat < 1000000000))).length < 16)

/-- An event of core c recorded within its budget, else counted in GOOSE_SUPP (R74). -/
def State.logBudget (s : State) (c : Nat) (e : GEvent) : State :=
  if s.budgetLeft c then
    let keep := (s.core c).budget.filter (fun t => decide ((s.now - t).toNat < 1000000000))
    (s.modCore c (fun k => { k with budget := s.now :: keep })).log e
  else s.modCore c (fun k => k.modErr (fun r => { r with gooseSupp := satInc r.gooseSupp }))

/-! ## Completion counters (R53) -/

/-- One signal: VALUE + 1 modulo 2^31, ERR set by an error signal. -/
def ccBump (v : BitVec 32) (err : Bool) : BitVec 32 :=
  (v &&& 0x80000000#32) ||| ((v + 1) &&& 0x7FFFFFFF#32) ||| (if err then 0x80000000#32 else 0)

/-- Signal of counter k of core c. -/
def State.bumpCc (s : State) (c k : Nat) (err : Bool) : State :=
  s.modCore c (fun x => x.modSeq (fun q => { q with cc := vmod q.cc k (fun v => ccBump v err) }))

/-- Signal of the counter that SIGCC names; 0xFF and values that name none signal nothing. -/
def State.signal (s : State) (c : Nat) (sigcc : BitVec 8) (err : Bool) : State :=
  if sigcc.toNat < 64 then s.bumpCc c sigcc.toNat err else s

/-! ## Home accesses with their observers -/

/-- The core cache of core c observes its own engines' writes of HBM (R243): a clean copy is invalidated, a dirty copy
takes the written bytes. -/
def CacheRegs.observe (k : CacheRegs) (a : Nat) (bs : List Byte) : CacheRegs :=
  let ln := a / 64
  { k with lines := k.lines.filterMap (fun l =>
      if l.line = ln then
        if l.dirty then
          let old := leBytes 64 l.data.toNat
          let new := old.take (a % 64) ++ bs ++ old.drop (a % 64 + bs.length)
          some { l with data := BitVec.ofNat 512 (leNat new) }
        else none
      else some l) }

/-- A write of any length, observed line by line. -/
def CacheRegs.observeAll (k : CacheRegs) (a : Nat) (bs : List Byte) : CacheRegs :=
  (cutLines (bs.length + 1) a bs).foldl (fun (q : CacheRegs) (w : Nat × List Byte) => q.observe w.1 w.2) k

/-- Prefetched granules of written lines are discarded in every core (R249). -/
def CacheRegs.dropPf (k : CacheRegs) (lines : List Nat) : CacheRegs :=
  let hit := k.pf.flatMap (fun r => r.lines.filter lines.contains)
  if hit.isEmpty then k
  else { k with pf := k.pf.map (fun r => { r with lines := r.lines.filter (fun l => !lines.contains l) }),
                pfInval := satAdd k.pfInval hit.length }

def State.dropPrefetch (s : State) (lines : List Nat) : State :=
  (List.range 8).foldl (fun s c => s.modCore c (fun k => { k with cache := k.cache.dropPf lines })) s

/-- Bookkeeping of reads of the granules of [a, a + n) at their home. -/
def State.noteReads (s : State) (a n hint : Nat) : State :=
  let r := s.ms.touchReads s.now (linesOf a n) hint
  { s with ms := r.1 }.logs r.2

/-- The Bullock reads the doorbell granule of ring p and accepts or rejects TAIL: it is at most 2^LOG2_SIZE ahead of HEAD,
and no smaller a count than the one last accepted (R204). -/
def State.doorbell (s : State) (u p : Nat) : State :=
  let r := (s.udOf u).rings.getD p {}
  if r.enable then
    let tail := BitVec.ofNat 64 (s.ms.le r.base.toNat 8)
    let bad := s.ms.badLine (r.base.toNat / 64)
    let s := s.noteReads r.base.toNat 8 1
    if !bad && decide ((r.tail - r.head).toNat ≤ (tail - r.head).toNat ∧ (tail - r.head).toNat ≤ 2 ^ r.log2.toNat) then
      s.modUd u (fun d => { d with rings := vmod d.rings p (fun r => { r with tail := tail }) })
    else
      let s := s.modUd u (fun d => { d with tailRej := setBit d.tailRej p, tailRejCount := satInc d.tailRejCount })
      s.log { source := 0x10 + u, code := 0x03, jobTag := (s.part p).jobTag, part := BitVec.ofNat 8 p,
              detail := [(p, 1), (tail.toNat, 8)] }
  else s

/-- Every enabled ring whose doorbell granule is among the written lines is reported to its Bullock. -/
def State.doorbells (s : State) (lines : List Nat) : State :=
  (List.range 16).foldl (fun s i =>
    let r := (s.udOf (i / 8)).rings.getD (i % 8) {}
    if r.enable && lines.contains (r.base.toNat / 64) then s.doorbell (i / 8) (i % 8) else s) s

/-- Bytes written at their home by a requester; `own` is the core whose engine writes. The flag says that a merge read
was uncorrectable (R261). -/
def State.homeWrite (s : State) (own : Option Nat) (a : Nat) (bs : List Byte) (hint : Nat) : State × Bool :=
  let r := s.ms.storeBytes s.now a bs hint
  let s := { s with ms := r.1 }.logs r.2.2
  let r := (r.1, r.2.1)
  if isHbm a then
    let lines := linesOf a bs.length
    let s := match own with
      | some c => s.modCore c (fun k =>
          { k with cache := k.cache.observeAll a bs })
      | none => s
    ((s.dropPrefetch lines).doorbells lines, r.2)
  else (s, r.2)

/-- The writes of one operation, a granule at a time in ascending address; the flag joins theirs (R271). -/
def State.homeWrites (s : State) (own : Option Nat) (ws : List (Nat × List Byte)) (hint : Nat) : State × Bool :=
  (granuleRuns ws).foldl (fun acc w => let r := acc.1.homeWrite own w.1 w.2 hint; (r.1, acc.2 || r.2)) (s, false)

/-- Bookkeeping of reads, each with its hint: address, bytes, hint. -/
def State.noteHinted (s : State) (rs : List (Nat × Nat × Nat)) : State :=
  rs.foldl (fun s r => s.noteReads r.1 r.2.1 r.2.2) s

/-- Bookkeeping of the reads of several ranges. -/
def State.noteReadsOf (s : State) (rs : List (Nat × Nat)) (hint : Nat) : State :=
  rs.foldl (fun s r => s.noteReads r.1 r.2 hint) s

/-- A granule stored as poisoned, with the observers of a write; a doorbell granule is reported to its Bullock (R204). -/
def State.poisonAt (s : State) (own : Option Nat) (a hint : Nat) : State :=
  let s := { s with ms := s.ms.poisonLine a hint }
  if isHbm a then
    let s := match own with
      | some c => s.modCore c (fun k => { k with cache := k.cache.observe (roundDown a 64) (List.replicate 64 0) })
      | none => s
    (s.dropPrefetch [a / 64]).doorbells [a / 64]
  else s

/-- One granule of the writes of an operation, with the mark of each byte that its source was uncorrectable: a granule
with a marked byte is stored as poisoned (R232). The flag says that it was, or that a merge was refused. -/
def State.placeGranule (s : State) (own : Option Nat) (hint : Nat) (e : Nat × List (Option (Byte × Bool))) : State × Bool :=
  if e.2.any (fun b => (b.map (·.2)).getD false) then (s.poisonAt own (64 * e.1) hint, true)
  else (givenRuns (64 * e.1) (e.2.map (fun b => b.map (·.1)))).foldl (fun acc w =>
    let r := acc.1.homeWrite own w.1 w.2 hint
    (r.1, acc.2 || r.2)) (s, false)

/-- The marked writes of one operation, granule by granule in ascending address (R232, R271). -/
def State.placeMarked (s : State) (own : Option Nat) (hint : Nat) (ws : List (Nat × List (Byte × Bool))) : State × Bool :=
  (granules ws).foldl (fun acc e =>
    let r := acc.1.placeGranule own hint e
    (r.1, acc.2 || r.2)) (s, false)

end Sys2Proof.Machine
end

