-- ==== Sys2Proof/Machine/Flags.lean ====
section
/-! DEFINITION. Numerical counters and flags of the cores (R124, R126). -/

namespace Sys2Proof.Machine

/-- Events counted into one engine's registers. -/
def NumRegs.add (r : NumRegs) (e : NumEv) : NumRegs :=
  { nanIn := satAdd r.nanIn e.nanIn, nanOut := satAdd r.nanOut e.nanOut, infIn := satAdd r.infIn e.infIn,
    unf := satAdd r.unf e.unf, ovf := e.ovf.foldl (fun v c => vmod v c satInc) r.ovf }

/-- Events as the 16 counts of one engine, in register order (R354). -/
def NumEv.counts (e : NumEv) : List Nat :=
  [e.nanIn, e.nanOut, e.infIn, e.unf] ++ (List.range 12).map (fun g => (e.ovf.filter (· == g)).length)

/-- Events of engine e added to the counts since the job load. -/
def addCounts (v : Vector (BitVec 32) 64) (e : Nat) (ev : NumEv) : Vector (BitVec 32) 64 :=
  (ev.counts.zipIdx 0).foldl (fun v c => vmod v (16 * e + c.2) (fun x => satAdd x c.1)) v

/-- Events of engine e (0 OX, 1 VEC, 2 ROW, 3 ATT) counted and flagged in NUM_FLAGS. -/
def NumState.count (n : NumState) (e : Nat) (ev : NumEv) : NumState :=
  { ovfFlags := if ev.ovf.isEmpty then n.ovfFlags else setBit n.ovfFlags e
    nanFlags := if ev.nanIn + ev.nanOut = 0 then n.nanFlags else setBit n.nanFlags e
    infFlags := if ev.infIn = 0 then n.infFlags else setBit n.infFlags e
    unfFlags := if ev.unf = 0 then n.unfFlags else setBit n.unfFlags e
    eng := vmod n.eng e (fun r => r.add ev)
    sinceLoad := addCounts n.sinceLoad e ev }

def State.countNum (s : State) (c e : Nat) (ev : NumEv) : State :=
  s.modCore c (fun k => { k with num := k.num.count e ev })

end Sys2Proof.Machine
end

