-- ==== Sys2Proof/Machine/InstrWord.lean ====
section
/-! DEFINITION. The 128-bit instruction word: header and body fields, the opcodes of every engine, and the causes that
decoding finds (R47, R48, R50, R52, R60, R67 to R72, R75, R81, R138, R139, R143). -/

namespace Sys2Proof.Machine

/-! ## Header (R47) -/

def Word128.opcode (w : Word128) : BitVec 8 := fld w 120 8
def Word128.engine (w : Word128) : BitVec 4 := fld w 116 4
def Word128.sigcc (w : Word128) : BitVec 8 := fld w 108 8
def Word128.pcs (w : Word128) : Bool := bitB w 107
def Word128.unit_ (w : Word128) : Nat := fldN w 104 3
/-- Body bits [lo + len - 1 : lo]. -/
def Word128.body (w : Word128) (lo len : Nat) : Nat := fldN w lo len

/-- The word with ENGINE and OPCODE written. -/
def Word128.withOp (w : Word128) (e o : Nat) : Word128 := setFld (setFld w 116 4 e) 120 8 o

/-- Engine codes of R11 and R19. -/
def engOX : Nat := 0
def engVEC : Nat := 1
def engROW : Nat := 2
def engATT : Nat := 3
def engGATH : Nat := 4
def engMULE : Nat := 5
def engSEQ : Nat := 6
def engMSG : Nat := 7

/-! ## Opcodes -/

/-- Elementwise VEC opcodes of R139. -/
def vecOpcodes : List Nat :=
  [0x01, 0x02, 0x03, 0x04, 0x05, 0x06, 0x07, 0x08, 0x09, 0x0A, 0x0B, 0x0C, 0x10, 0x11, 0x12, 0x13, 0x14,
   0x20, 0x21, 0x22, 0x23, 0x24, 0x25, 0x26, 0x27, 0x30, 0x31, 0x32, 0x33, 0x40]

/-- The opcode reads B as an operand: two inputs or a scalar. -/
def vecReadsB (o : Nat) : Bool := (decide (1 ≤ o ∧ o ≤ 7)) || decide (0x10 ≤ o ∧ o ≤ 0x14)

/-- B is the single element s. -/
def vecScalar (o : Nat) : Bool := decide (0x10 ≤ o ∧ o ≤ 0x14)

def vecReadsA (o : Nat) : Bool := o != 0x40

/-- Reductions 0x30 to 0x33. -/
def vecReduces (o : Nat) : Bool := decide (0x30 ≤ o ∧ o ≤ 0x33)

/-- SEQ opcodes of R60 with the number of body bits each assigns. -/
def seqBits : List (Nat × Nat) :=
  [(0x00, 0), (0x01, 0), (0x02, 62), (0x03, 21), (0x04, 17), (0x05, 0), (0x08, 53), (0x09, 20), (0x0B, 8), (0x10, 37),
   (0x11, 37), (0x12, 10), (0x18, 61), (0x19, 69), (0x1A, 50), (0x1B, 68), (0x1C, 72), (0x20, 31), (0x21, 31),
   (0x22, 36), (0x24, 56), (0x25, 56), (0x26, 56), (0x28, 69), (0x2A, 88), (0x2C, 12), (0x2D, 52)]

/-- Assigned body bits of an instruction: the lowest and the number of the assigned bits, or `none` for an opcode that
is not assigned (R60, R67 to R72). -/
def bodyBits (e o : Nat) : Option (Nat × Nat) :=
  match e with
  | 0 => ([(1, 73), (2, 103), (3, 25), (4, 24)].lookup o).map (fun n => (0, n))
  | 1 => if vecOpcodes.contains o then some (0, 101)
         else ([(0x80, 24), (0x81, 104), (0x82, 104)].lookup o).map (fun n => (0, n))
  | 2 => [(1, (0, 48)), (2, (0, 48)), (3, (24, 24))].lookup o
  | 3 => [(1, (0, 28)), (2, (0, 28)), (3, (0, 28)), (4, (0, 24)), (5, (0, 28)), (6, (24, 4))].lookup o
  | 4 => [(1, (0, 24)), (2, (0, 24))].lookup o
  | 5 => [(1, (0, 84)), (2, (0, 24))].lookup o
  | 6 => (seqBits.lookup o).map (fun n => (0, n))
  | 7 => [(1, (0, 66)), (2, (0, 28)), (3, (0, 4)), (4, (0, 4)), (5, (0, 4)), (6, (0, 4))].lookup o
  | _ => none

/-- A body bit that the layout does not assign is set (R48). -/
def reservedSet (w : Word128) (lo n : Nat) : Bool :=
  w.body 0 lo != 0 || w.body (lo + n) (104 - (lo + n)) != 0

/-- UNIT is valid: 0 to 3 for MULE, 0 for the others (R47). -/
def unitOk (w : Word128) : Bool := if w.engine.toNat = engMULE then decide (w.unit_ < 4) else w.unit_ == 0

/-- LDW and MM accept every assigned code but FP32 (R81). -/
def oxFmt (c : Nat) : Bool := decide (c < 12 ∧ c ≠ 2)

/-- A format combination that R81 makes illegal for an MM. -/
def mmFmtBad (inF outF : Nat) (acc sr : Bool) : Bool :=
  !oxFmt inF || decide (outF > 2) || (acc && outF != 2) || (sr && outF == 2)

/-- A field outside its encoding, or a field that must be 0 and is not (cause 0x05). -/
def fieldBad (w : Word128) : Bool :=
  let o := w.opcode.toNat
  match w.engine.toNat with
  | 0 => match o with
    | 1 =>
      let f := w.body 49 4
      let k := w.body 53 10
      let n := w.body 63 10
      !oxFmt f || k == 0 || decide (768 < k) || n == 0 || decide (768 < n) || (decide (f ≤ 4) && w.body 24 24 != 0)
    | 2 => mmFmtBad (w.body 82 4) (w.body 86 4) (bitB w 90) (bitB w 91)
    | _ => false
  | 1 =>
    if o < 0x80 then
      let f := w.body 96 4
      let sr := bitB w 100
      decide (2 < f) || w.body 72 24 == 0 || (sr && f == 2) || (sr && vecReduces o)
        || (!vecReadsB o && w.body 24 24 != 0) || (!vecReadsA o && w.body 0 24 != 0)
    else if o = 0x80 then false
    else
      let out := w.body 100 4
      decide (11 < w.body 96 4) || decide (11 < out) || w.body 72 24 == 0
        || (!(out == 3 || out == 4) && w.body 48 24 != 0)
  | 2 =>
    let k := w.body 44 4
    if o = 3 then decide (2 < k) && k != 15 else decide (2 < k)
  | 6 => match o with
    | 0x02 => decide (7 < w.body 17 4)
    | 0x0B => bitB w 6
    | 0x24 | 0x25 | 0x26 => w.body 24 32 == 0
    | _ => false
  | _ => false

/-- The instruction has a per-core field (R52). -/
def hasPerCore (e o : Nat) : Bool :=
  match e with
  | 6 => [0x18, 0x1B, 0x20, 0x21, 0x22, 0x24, 0x25, 0x26, 0x2A].contains o
  | 3 => o != 6
  | 7 => o == 1 || o == 2
  | _ => true

/-- First condition that holds, as its code; 0 when none does. -/
def lowest : List (Nat × Bool) → Nat
  | [] => 0
  | (c, b) :: r => if b then c else lowest r

/-- Cause that decoding finds in a word, 0 for a legal word (R75, causes 0x01 to 0x05 and 0x07). -/
def decodeCause (w : Word128) : Nat :=
  let e := w.engine.toNat
  let o := w.opcode.toNat
  let s := w.sigcc.toNat
  if 8 ≤ e then 0x01
  else match bodyBits e o with
    | none => 0x02
    | some (lo, n) => lowest
      [(0x03, reservedSet w lo n || !unitOk w),
       (0x04, decide (0x40 ≤ s ∧ s ≤ 0xFE) || (e == engSEQ && o == 0x28 && s != 0xFF)),
       (0x05, fieldBad w),
       (0x07, w.pcs && !hasPerCore e o)]

/-- SEQ instructions that change the fetch address (R24). -/
def isControl (w : Word128) : Bool := w.engine.toNat == engSEQ && [0x02, 0x03, 0x04, 0x05].contains w.opcode.toNat

def isLaunch (w : Word128) : Bool := w.engine.toNat == engSEQ && w.opcode.toNat == 0x28

end Sys2Proof.Machine
end

