-- ==== Sys2Proof/Machine/Operands.lean ====
section
/-! DEFINITION. Operands of engine and scalar instructions: effective addresses, where they may lie, row layouts, the
range scoreboard and the reading of elements (R49, R52, R58, R83, R109 to R113, R227, R228). -/

namespace Sys2Proof.Machine

/-! ## Effective addresses (R49) -/

structure Ea where
  addr : Int
  dev  : DevId
  deriving DecidableEq, Repr

/-- Effective address of a 24-bit operand: local part + OFF x 64 (+ rank x AS under PCS). -/
def SeqState.ea (q : SeqState) (rank : Nat) (pcs : Bool) (opnd : Nat) : Ea :=
  let a := opnd / 2 ^ 19 % 32
  let r := q.ar.getD a 0
  let base : Int := fldN r 0 42 + (opnd % 2 ^ 19) * 64
  ⟨if pcs then base + rank * (q.as_.getD a 0).toInt else base, fld r 42 14⟩

/-- Largest local address. -/
def localMax : Nat := 0x3FFFFFFFFFF

def Ea.inRange (e : Ea) : Bool := decide (0 ≤ e.addr ∧ e.addr ≤ localMax)

def Ea.nat (e : Ea) : Nat := e.addr.toNat

/-- The rank that PCS substitutes with: 0 in independent mode (R23, R52). -/
def Core.subRank (k : Core) : Nat := if k.id.bcast then k.id.rank.toNat else 0

/-- The operand of a word of core c whose lowest bit is `lo`. -/
def State.operand (s : State) (c : Nat) (w : Word128) (lo : Nat) : Ea :=
  let k := s.core c
  k.seq.ea k.subRank w.pcs (w.body lo 24)

/-- What an operand may name (R227). -/
inductive Place where
  /-- own core SRAM, or HBM of the partition -/
  | engine
  | ownSram
  /-- MULE source: HBM, SRAM and control windows of the partition -/
  | muleSrc
  /-- MULE destination, ATOM, SST: HBM and SRAM of the partition -/
  | store
  /-- SLD: as a MULE source, and the heat-cache register view -/
  | load
  | hbm
  deriving DecidableEq, Repr

/-- Read-only view of the heat-cache registers (R227). -/
def hcView : Nat := 0x030000000000

def State.placeOk (s : State) (c : Nat) (p : Place) (a n : Nat) : Bool :=
  let part := s.partNo c
  match p with
  | .engine => s.homeOk part (inSram c) a n
  | .ownSram => inSram c a n
  | .muleSrc => s.homeOk part (s.partSram c) a n || s.partCtl c a n
  | .store => s.homeOk part (s.partSram c) a n
  | .load => s.homeOk part (s.partSram c) a n || s.partCtl c a n || decide (hcView ≤ a ∧ a + n ≤ hcView + 0x1000)
  | .hbm => s.hbmOk part a n

/-- Causes 0x10, 0x11 and 0x12 of one operand of n bytes (R75). The population of an address is a matter of this module's
map, so an operand that names another module is judged by its range and its device only. -/
def State.operandCauses (s : State) (c : Nat) (e : Ea) (align : Nat) (p : Place) (n : Nat) : List (Nat × Bool) :=
  let own := s.isOwnDev e.dev
  [(0x10, e.addr % align != 0),
   (0x11, !e.inRange || (own && !s.placeOk c p e.nat n)),
   (0x12, !own)]

/-- Lowest cause over several operands and further conditions. -/
def lowestOf (cs : List (Nat × Bool)) : Nat :=
  cs.foldl (fun m x => if x.2 && (m == 0 || decide (x.1 < m)) then x.1 else m) 0

/-- Operands of n and m bytes share a byte of this module; an operand that names another module shares none. -/
def State.eaOverlap (s : State) (a : Ea) (n : Nat) (b : Ea) (m : Nat) : Bool :=
  s.isOwnDev a.dev && s.isOwnDev b.dev && overlaps a.nat n b.nat m

/-! ## Ranges and the scoreboard (R58) -/

/-- A tracked range: first byte, length, write. -/
structure Range where
  lo    : Nat
  len   : Nat
  write : Bool
  deriving DecidableEq, Repr

def Range.rd (lo len : Nat) : Range := ⟨lo, len, false⟩
def Range.wr (lo len : Nat) : Range := ⟨lo, len, true⟩

/-- One range from the lowest to the highest byte of several; empty parts do not count. -/
def Range.hull (ps : List (Nat × Nat)) (write : Bool) : Range :=
  match ps.filter (fun p => p.2 != 0) with
  | [] => ⟨0, 0, write⟩
  | p :: r =>
    let lo := r.foldl (fun a q => min a q.1) p.1
    let hi := r.foldl (fun a q => max a (q.1 + q.2)) (p.1 + p.2)
    ⟨lo, hi - lo, write⟩

def Range.entry (r : Range) (owner : Nat) : SbEntry :=
  { owner := owner, lo := roundDown r.lo 64, hi := roundUp (r.lo + r.len) 64 - 1, write := r.write }

def SbEntry.conflicts (a b : SbEntry) : Bool := (a.write || b.write) && decide (a.lo ≤ b.hi ∧ b.lo ≤ a.hi)

/-- The scoreboard stalls an instruction with these ranges. -/
def SeqState.sbStalls (q : SeqState) (rs : List Range) : Bool :=
  rs.any (fun r => q.sb.any (fun e => e.conflicts (r.entry 0)))

def liveRanges (rs : List Range) : List Range := rs.filter (fun r => r.len != 0)

/-- Ranges claimed by operation `owner`. -/
def SeqState.claim (q : SeqState) (owner : Nat) (rs : List Range) : SeqState :=
  { q with sb := q.sb ++ rs.map (fun r => r.entry owner) }

/-- Every entry of an operation released. -/
def SeqState.release (q : SeqState) (owner : Nat) : SeqState := { q with sb := q.sb.filter (fun e => e.owner != owner) }

/-! ## Row layouts (R83, R111) -/

/-- Element bytes of a row of L elements. -/
def rowElemBytes (code : BitVec 4) (l : Nat) : Nat := ceilDiv (l * codeBits code) 8

/-- Offset of the row's scales. -/
def rowScaleOff (code : BitVec 4) (l : Nat) : Nat :=
  if code = 5 ∨ code = 6 then roundUp (rowElemBytes code l) 4 else rowElemBytes code l

def rowScaleBytes (code : BitVec 4) (l : Nat) : Nat :=
  if blockLen code = 0 then 0 else ceilDiv l (blockLen code) * (if isMx code then 1 else 4)

/-- Bytes of a row with its scales. -/
def rowBytes (code : BitVec 4) (l : Nat) : Nat :=
  if blockLen code = 0 then rowElemBytes code l else rowScaleOff code l + rowScaleBytes code l

def rowPitch (code : BitVec 4) (l : Nat) : Nat := roundUp (rowBytes code l) 64

/-- Header bytes before the first row: 64 for per-tensor formats. -/
def hdrBytes (code : BitVec 4) : Nat := if perTensor code then 64 else 0

/-- Bytes from the operand address to the last byte of its last row. -/
def matBytes (code : BitVec 4) (rows l : Nat) : Nat := hdrBytes code + (rows - 1) * rowPitch code l + rowBytes code l

/-! ## Reading elements (R109 to R112) -/

/-- An element as read: its value (NaN when its granule is uncorrectable), what the read counts, and whether the
granule was uncorrectable (R103). -/
structure RElem where
  v    : FVal
  flag : ReadFlag
  bad  : Bool
  deriving DecidableEq, Repr

/-- Element at bit position `bit` of a row that starts at address a; one of an uncorrectable granule counts nothing (log 157). -/
def MemSys.elemAt (ms : MemSys) (f : Elem) (a bit : Nat) : RElem :=
  let lo := a + bit / 8
  let n := (bit % 8 + f.bits + 7) / 8
  let x := ms.le lo n / 2 ^ (bit % 8) % 2 ^ f.bits
  if ms.badRange lo n then ⟨.nan, .none, true⟩
  else let d := decodeElem f x; ⟨d.1, d.2, false⟩

/-- L elements of a row in an unscaled layout. -/
def MemSys.rowElems (ms : MemSys) (code : BitVec 4) (a l : Nat) : List RElem :=
  match elemOf code with
  | some f => (List.range l).map (fun j => ms.elemAt f a (j * f.bits))
  | none => []

/-- A scale as read: its value as an FP32 factor, or an E8M0 exponent (`none` for a NaN). -/
inductive ScaleVal where
  | f32 (v : FVal)
  | e8 (x : Option Int)
  deriving DecidableEq, Repr

structure RScale where
  v    : ScaleVal
  flag : ReadFlag
  bad  : Bool
  deriving DecidableEq, Repr

def MemSys.scale32 (ms : MemSys) (a : Nat) : RScale :=
  if ms.badRange a 4 then ⟨.f32 .nan, .none, true⟩
  else let d := decodeScale32 (BitVec.ofNat 32 (ms.le a 4)); ⟨.f32 d.1, d.2, false⟩

def MemSys.scaleE8 (ms : MemSys) (a : Nat) : RScale :=
  if ms.badRange a 1 then ⟨.e8 none, .none, true⟩
  else match decodeE8M0 (ms.byte a) with
    | some x => ⟨.e8 (some x), .none, false⟩
    | none => ⟨.e8 none, .nan, false⟩

/-- The block scales of a row of L elements at address a. -/
def MemSys.rowScales (ms : MemSys) (code : BitVec 4) (a l : Nat) : List RScale :=
  if blockLen code = 0 then []
  else (List.range (ceilDiv l (blockLen code))).map (fun i =>
    if isMx code then ms.scaleE8 (a + rowScaleOff code l + i) else ms.scale32 (a + rowScaleOff code l + 4 * i))

/-- A row with its scales, and the tensor scale of its operand. -/
structure RRow where
  elems  : List RElem
  scales : List RScale
  tensor : Option RScale
  deriving DecidableEq, Repr

/-- Row m of an operand at address a. -/
def MemSys.row (ms : MemSys) (code : BitVec 4) (a l m : Nat) : RRow :=
  let r := a + hdrBytes code + m * rowPitch code l
  { elems := ms.rowElems code r l, scales := ms.rowScales code r l,
    tensor := if perTensor code then some (ms.scale32 a) else none }

/-- Product of the FP32 scales that apply to element j of a row. -/
def RRow.f32At (r : RRow) (code : BitVec 4) (j : Nat) : FVal :=
  let t := match r.tensor with
    | some ⟨.f32 v, _, _⟩ => v
    | _ => .one
  match r.scales[j / max (blockLen code) 1]? with
  | some ⟨.f32 v, _, _⟩ => t.mul v
  | _ => t

/-- E8M0 exponent that applies to element j of a row: 0 where there is none, `none` for a NaN scale. -/
def RRow.e8At (r : RRow) (code : BitVec 4) (j : Nat) : Option Int :=
  match r.scales[j / max (blockLen code) 1]? with
  | some ⟨.e8 x, _, _⟩ => x
  | _ => some 0

/-- Value of element j with every scale applied (R110). -/
def RRow.value (r : RRow) (code : BitVec 4) (j : Nat) : FVal :=
  match r.elems[j]? with
  | some e => match r.e8At code j with
    | some x => (e.v.mul (r.f32At code j)).mul (.num false 1 1 x)
    | none => .nan
  | none => .nan

/-- NaN and infinity reads of elements and scales of a row; the tensor scale is counted by its operand. -/
def RRow.reads (r : RRow) : NumEv :=
  (r.elems.map (fun e => NumEv.ofRead e.flag) ++ r.scales.map (fun e => NumEv.ofRead e.flag)).foldl NumEv.join {}

def RRow.anyBad (r : RRow) : Bool :=
  r.elems.any RElem.bad || r.scales.any RScale.bad || (r.tensor.map RScale.bad).getD false

/-! ## Writing results -/

/-- Bytes of an FP32, BF16 or FP16 element at address a, with its events. `mid` says that an FP32 step before saturated. -/
def writeElem (code : BitVec 4) (kcgSel : Option KcgSel) (a : Nat) (v : FVal) (mid : Bool) : List Byte × NumEv :=
  match elemOf code with
  | some f =>
    let mode := match kcgSel with
      | some k => srMode k.seed k.stream f (8 * a)
      | none => .rne
    let r := roundTo f mode v
    (leBytes (f.bits / 8) r.bits, NumEv.ofWrite code.toNat r mid)
  | none => ([], {})

/-- Bytes per element of a format of whole bytes. -/
def elemBytes (code : BitVec 4) : Nat := codeBits code / 8

end Sys2Proof.Machine
end

