-- ==== Sys2Proof/Machine/Ox.lean ====
section
/-! DEFINITION. The Ox array: what LDW, MM, DUAL and WGRAD claim at issue, check when they start, and write when they
complete (R67, R79 to R104, R113 to R119). -/

namespace Sys2Proof.Machine

/-- What issue finds for an engine instruction: the lowest cause (0 for none), the operation and its tracked ranges. -/
structure IssueRes where
  cause  : Nat
  op     : EngOp
  claims : List Range
  deriving DecidableEq, Repr

/-- What an operation leaves when it completes: bytes to write, granules to poison, counted events, and whether the
signal carries ERR. -/
structure OpResult where
  writes : List (Nat × List Byte) := []
  poison : List Nat := []
  ev     : NumEv := {}
  err    : Bool := false
  deriving DecidableEq, Repr

/-- What an operation reads: for each of its stream readers the runs of memory in order (address, bytes, hint), and its
other reads (R238, R249). -/
structure ReadPlan where
  streams : List (List (Nat × Nat × Nat)) := []
  others  : List (Nat × Nat × Nat) := []
  deriving DecidableEq, Repr

def ReadPlan.all (p : ReadPlan) : List (Nat × Nat × Nat) := p.others ++ p.streams.flatten

/-- Runs read without a hint. -/
def plainRuns (rs : List (Nat × Nat)) : List (Nat × Nat × Nat) := rs.map (fun r => (r.1, r.2, 0))

/-- FP16 pairs only with FP16; every other combination of accepted codes pairs (R81). -/
def oxPairs (a b : BitVec 4) : Bool := (a == 1) == (b == 1)

/-! ## Planes -/

/-- n bits of a byte row from bit position `bit`. -/
def bitsAt (bs : List Byte) (bit n : Nat) : Nat :=
  leNat (slice bs (bit / 8) ((bit % 8 + n + 7) / 8)) / 2 ^ (bit % 8) % 2 ^ n

/-- W[i][j] without scales. -/
def OxPlane.elem (p : OxPlane) (i j : Nat) : FVal :=
  match elemOf p.fmt with
  | some f => (decodeElem f (bitsAt (p.rows.getD i []) (j * f.bits) f.bits)).1
  | none => .nan

/-- Edge of a square scale block of a plane (R113). -/
def planeEdge (code : BitVec 4) : Nat := if isMx code then 32 else 128

/-- FP32 scales that apply to W[i][j]. -/
def OxPlane.f32At (p : OxPlane) (i j : Nat) : FVal :=
  if perTensor p.fmt then (decodeScale32 p.tscale).1
  else if blockLen p.fmt = 0 ∨ isMx p.fmt then .one
  else
    let e := planeEdge p.fmt
    (decodeScale32 (BitVec.ofNat 32 (leAt (p.scales.getD (i / e) []) (4 * (j / e)) 4))).1

/-- E8M0 exponent that applies to W[i][j]. -/
def OxPlane.e8At (p : OxPlane) (i j : Nat) : Option Int :=
  if isMx p.fmt then decodeE8M0 ((p.scales.getD (i / 32) []).getD (j / 32) 0) else some 0

/-! ## Streams (R87, R88, R114 to R119) -/

def addExp (a b : Option Int) : Option Int :=
  match a, b with
  | some x, some y => some (x + y)
  | _, _ => none

/-- K-block b of the product of an input row with column `o` of the direction. -/
def streamBlock (p : OxPlane) (dir : Bool) (code : BitVec 4) (r : RRow) (l o b : Nat) : BitVec 32 × Bool :=
  let w (j : Nat) : FVal := if dir then p.elem o j else p.elem j o
  let prods (lo : Nat) : List Prod :=
    ((List.range 32).filter (fun i => decide (lo + i < l))).map (fun i =>
      prodOf ((r.elems.getD (lo + i) ⟨.nan, .none, true⟩).v) (w (lo + i)))
  let e8 (lo : Nat) : Option Int :=
    if lo < l then addExp (r.e8At code lo) (if dir then p.e8At o lo else p.e8At lo o) else some 0
  let st := (r.f32At code (64 * b)).mul (if dir then p.f32At o (64 * b) else p.f32At (64 * b) o)
  kBlock (prods (64 * b)) (prods (64 * b + 32)) (e8 (64 * b)) (e8 (64 * b + 32)) st

def nan32 : BitVec 32 := 0x7FC00000

/-- An FP32 value read as an accumulator: its bits, canonical NaN where its granule is bad, and what the read counts. -/
def MemSys.accRead (ms : MemSys) (a : Nat) : BitVec 32 × NumEv × Bool :=
  let e := ms.elemAt .fp32 a 0
  (if e.bad then nan32 else BitVec.ofNat 32 (ms.le a 4), NumEv.ofRead e.flag, e.bad)

/-- One stream through a plane (R87). -/
structure Stream where
  inp    : Nat
  out    : Nat
  rows   : Nat
  dir    : Bool
  inFmt  : BitVec 4
  outFmt : BitVec 4
  acc    : Bool
  sr     : Bool
  deriving DecidableEq, Repr

/-- Input and output row lengths of a stream for a tile of K x N. -/
def Stream.lens (t : Stream) (k n : Nat) : Nat × Nat := if t.dir then (n, k) else (k, n)

/-- One output row: bytes, events, uncorrectable input. -/
def streamRow (ms : MemSys) (p : OxPlane) (kc : KcgSel) (t : Stream) (m : Nat) : List Byte × NumEv × Bool :=
  let (l, lo) := t.lens p.k p.n
  let r := ms.row t.inFmt t.inp l m
  let base := t.out + m * rowPitch t.outFmt lo
  let es := elemBytes t.outFmt
  let cell (o : Nat) : List Byte × NumEv × Bool :=
    let a := base + o * es
    let vs := (List.range (ceilDiv l 64)).map (streamBlock p t.dir t.inFmt r l o)
    let (start, ev, bad) : Option (BitVec 32) × NumEv × Bool :=
      if t.acc then let x := ms.accRead a; (some x.1, x.2.1, x.2.2) else (none, {}, false)
    let v := chain32 start vs
    let w := writeElem t.outFmt (if t.sr then some kc else none) a (f32val v.1) v.2
    (w.1, ev.join w.2, bad)
  let cells := (List.range lo).map cell
  (cells.flatMap (·.1), (cells.map (·.2.1)).foldl NumEv.join r.reads, r.anyBad || cells.any (·.2.2))

/-- Destination of a stream through a tile of K x N: address and bytes of each output row. -/
def Stream.places (t : Stream) (k n : Nat) : List (Nat × Nat) :=
  let lo := (t.lens k n).2
  (List.range t.rows).map (fun m => (t.out + m * rowPitch t.outFmt lo, lo * elemBytes t.outFmt))

def streamRun (ms : MemSys) (p : OxPlane) (kc : KcgSel) (t : Stream) : OpResult :=
  let (_, lo) := t.lens p.k p.n
  let rs := (List.range t.rows).map (streamRow ms p kc t)
  let hdr : NumEv := if perTensor t.inFmt && t.rows != 0 then NumEv.ofRead (ms.scale32 t.inp).flag else {}
  { writes := (List.range t.rows).zip rs |>.map (fun x => (t.out + x.1 * rowPitch t.outFmt lo, x.2.1)),
    ev := (rs.map (·.2.1)).foldl NumEv.join hdr, err := rs.any (·.2.2) }

/-- Runs of a matrix operand of rows with their scales, after its header. -/
def matRuns (code : BitVec 4) (a rows l : Nat) : List (Nat × Nat) :=
  (if perTensor code then [(a, 4)] else [])
    ++ (List.range rows).map (fun m => (a + hdrBytes code + m * rowPitch code l, rowBytes code l))

/-- What a stream reads. -/
def Stream.plan (t : Stream) (p : OxPlane) : ReadPlan :=
  if t.rows = 0 then {}
  else
    { streams := [plainRuns (matRuns t.inFmt t.inp t.rows (t.lens p.k p.n).1)],
      others := if t.acc then plainRuns (t.places p.k p.n) else [] }

def ReadPlan.join (a b : ReadPlan) : ReadPlan := ⟨a.streams ++ b.streams, a.others ++ b.others⟩

/-! ## LDW (R85, R97, R103) -/

/-- Bytes of a tile without scales: header, rows at the pitch of their elements. -/
def tileBytes (code : BitVec 4) (k n : Nat) : Nat :=
  hdrBytes code + (k - 1) * roundUp (rowElemBytes code n) 64 + rowElemBytes code n

/-- Bytes of the scale rows of a tile (R113); 0 without block scales. -/
def tileScaleBytes (code : BitVec 4) (k n : Nat) : Nat :=
  if blockLen code = 0 then 0
  else
    let e := planeEdge code
    (ceilDiv k e - 1) * 64 + ceilDiv n e * (if isMx code then 1 else 4)

def State.issueLdw (s : State) (c : Nat) (w : Word128) : IssueRes :=
  let f := BitVec.ofNat 4 (w.body 49 4)
  let k := w.body 53 10
  let n := w.body 63 10
  let src := s.operand c w 0
  let sc := s.operand c w 24
  let nb := tileBytes f k n
  let sb := tileScaleBytes f k n
  { cause := lowestOf (s.operandCauses c src 64 .engine nb ++ (if sb = 0 then [] else s.operandCauses c sc 64 .engine sb)),
    op := .ldw src.nat sc.nat (bitB w 48) f k n,
    claims := [.rd src.nat nb, .rd sc.nat sb] }

/-- The tile an LDW reads: plane contents, what it counts, and whether a granule was uncorrectable. -/
def ldwRead (ms : MemSys) (src scale : Nat) (f : BitVec 4) (k n : Nat) : OxPlane × NumEv × Bool :=
  let h := src + hdrBytes f
  let pitch := roundUp (rowElemBytes f n) 64
  let e := planeEdge f
  let rows := (List.range k).map (fun i => ms.bytes (h + i * pitch) (rowElemBytes f n))
  let elems := (List.range k).flatMap (fun i => ms.rowElems f (h + i * pitch) n)
  let srows : List (Nat × Nat) := if blockLen f = 0 then [] else (List.range (ceilDiv k e)).map (fun u => (u, ceilDiv n e))
  let scs := srows.flatMap (fun u => (List.range u.2).map (fun v =>
    if isMx f then ms.scaleE8 (scale + 64 * u.1 + v) else ms.scale32 (scale + 64 * u.1 + 4 * v)))
  let ts := if perTensor f then [ms.scale32 src] else []
  let ev := (elems.map (fun x => NumEv.ofRead x.flag) ++ (scs ++ ts).map (fun x => NumEv.ofRead x.flag)).foldl NumEv.join {}
  ({ state := .ready, fmt := f, k := k, n := n, rows := rows,
     scales := srows.map (fun u => ms.bytes (scale + 64 * u.1) (u.2 * (if isMx f then 1 else 4))),
     tscale := if perTensor f then BitVec.ofNat 32 (ms.le src 4) else 0 },
   ev, elems.any RElem.bad || (scs ++ ts).any RScale.bad)

/-- What an LDW reads. -/
def ldwPlan (src scale : Nat) (f : BitVec 4) (k n : Nat) : ReadPlan :=
  let h := src + hdrBytes f
  let pitch := roundUp (rowElemBytes f n) 64
  let e := planeEdge f
  { streams := [plainRuns ((if perTensor f then [(src, 4)] else [])
      ++ (List.range k).map (fun i => (h + i * pitch, rowElemBytes f n)))],
    others := if blockLen f = 0 then []
      else plainRuns ((List.range (ceilDiv k e)).map (fun u => (scale + 64 * u, ceilDiv n e * (if isMx f then 1 else 4)))) }

/-- The scale an LDW takes with no granule bad, or the EMPTY plane of R103. -/
def ldwPlane (ms : MemSys) (src scale : Nat) (f : BitVec 4) (k n : Nat) : OxPlane :=
  let r := ldwRead ms src scale f k n
  if r.2.2 then {} else r.1

/-! ## MM (R87 to R92, R97) -/

/-- Tile shape the sequencer recorded for a plane, 768 x 768 before any LDW (R97). -/
def Core.shape (k : Core) (plane : Bool) : Nat × Nat :=
  match k.seq.ldwRec.getD (b2n plane) none with
  | some (a, b, _) => (a, b)
  | none => (768, 768)

/-- Bytes a stream reads and writes for a tile shape. -/
def Stream.spans (t : Stream) (shape : Nat × Nat) : Nat × Nat :=
  if t.rows = 0 then (0, 0)
  else
    let (l, lo) := t.lens shape.1 shape.2
    (matBytes t.inFmt t.rows l, matBytes t.outFmt t.rows lo)

def Stream.ofMm (w : Word128) (inp out : Nat) : Stream :=
  { inp := inp, out := out, rows := w.body 48 32 + 1, dir := bitB w 81, inFmt := BitVec.ofNat 4 (w.body 82 4),
    outFmt := BitVec.ofNat 4 (w.body 86 4), acc := bitB w 90, sr := bitB w 91 }

def State.issueMm (s : State) (c : Nat) (w : Word128) : IssueRes :=
  let i := s.operand c w 0
  let o := s.operand c w 24
  let t := Stream.ofMm w i.nat o.nat
  let (nb, ob) := t.spans ((s.core c).shape (bitB w 80))
  { cause := lowestOf (s.operandCauses c i 64 .engine nb ++ s.operandCauses c o 64 .engine ob
      ++ [(0x11, s.eaOverlap i nb o ob)]),
    op := .mm i.nat o.nat t.rows (bitB w 80) t.dir t.inFmt t.outFmt t.acc t.sr (w.body 92 11),
    claims := [.rd i.nat nb, .wr o.nat ob] }

/-! ## DUAL (R93 to R97) -/

/-- Forward and backward streams of a DUAL descriptor (R94). -/
def dualStreams (d : List Byte) : Stream × Stream :=
  let fmt (off : Nat) : BitVec 4 × BitVec 4 := (BitVec.ofNat 4 (leAt d off 1), BitVec.ofNat 4 (leAt d off 1 / 16))
  let fl (off i : Nat) : Bool := (leAt d off 1).testBit i
  ({ inp := leAt d 0 8, out := leAt d 8 8, rows := leAt d 0x20 4, dir := false, inFmt := (fmt 0x2C).1,
     outFmt := (fmt 0x2C).2, acc := fl 0x2E 0, sr := fl 0x2E 1 },
   { inp := leAt d 0x10 8, out := leAt d 0x18 8, rows := leAt d 0x24 4, dir := true, inFmt := (fmt 0x2D).1,
     outFmt := (fmt 0x2D).2, acc := fl 0x2F 0, sr := fl 0x2F 1 })

def mask42 (a : Nat) : Nat := a % 2 ^ 42

def State.issueDual (s : State) (c : Nat) (w : Word128) : IssueRes :=
  let e := s.operand c w 0
  let plane := bitB w 24
  let shape := (s.core c).shape plane
  let d := s.ms.bytes e.nat 64
  let (f, b) := dualStreams d
  let (fi, fo) := f.spans shape
  let (bi, bo) := b.spans shape
  { cause := lowestOf (s.operandCauses c e 64 .ownSram 64),
    op := .dual e.nat plane ((s.core c).seq.ldwRec.getD (b2n plane) none),
    claims := [.rd e.nat 64, .hull [(mask42 f.inp, fi), (mask42 b.inp, bi)] false, .wr (mask42 f.out) fo,
               .wr (mask42 b.out) bo] }

/-- Ranges [a, a + n) of a list of which some two overlap, save the pairs that `ok` allows. -/
def anyOverlap (rs : List (Nat × Nat × Nat)) (ok : Nat → Nat → Bool) : Bool :=
  rs.any (fun x => rs.any (fun y => decide (x.1 < y.1) && !ok x.1 y.1 && overlaps x.2.1 x.2.2 y.2.1 y.2.2))

/-- A stream's pairing with the plane; a stream without rows has none to check. -/
def Stream.pairs (t : Stream) (p : OxPlane) : Bool := t.rows == 0 || oxPairs t.inFmt p.fmt

/-- The plane is READY and its format pairs (cause 0x13, R81, R86). -/
def planeBad (p : OxPlane) (ts : List Stream) : Bool := p.state != .ready || ts.any (fun t => !t.pairs p)

/-- Tile shape that a DUAL carries from issue, 768 x 768 before any LDW (R97). -/
def dualShape (x : Option (Nat × Nat × BitVec 4)) : Nat × Nat :=
  match x with
  | some (a, b, _) => (a, b)
  | none => (768, 768)

/-- Checks of a DUAL when it starts: lowest cause (R95). Of a stream of no rows the format, the flags, KBLK and address
bits 63 to 42 are checked, and neither placement, overlap nor pairing; a descriptor that reads uncorrectable is paired by
the bytes it has, so cause 0x13 can stand in place of 0x17 (DESIGN CHOICE, log 98). No alignment of F_IN, F_OUT, B_IN and
B_OUT is asked (DESIGN CHOICE, log 136). -/
def State.checkDual (s : State) (c desc : Nat) (p : OxPlane) (shape : Nat × Nat) : Nat :=
  let d := s.ms.bytes desc 64
  let (f, b) := dualStreams d
  let (fi, fo) := f.spans shape
  let (bi, bo) := b.spans shape
  let out (a n : Nat) : Bool := n != 0 && !s.placeOk c .engine a n
  lowestOf
    [(0x13, planeBad p [f, b]),
     (0x17, s.ms.badRange desc 64
       || (f.rows == 0 && b.rows == 0)
       || [f.inp, f.out, b.inp, b.out].any (fun a => decide (2 ^ 42 ≤ a))
       || decide (3 < leAt d 0x2E 1) || decide (3 < leAt d 0x2F 1) || !allZero (slice d 0x30 16)
       || decide (2047 < leAt d 0x28 2) || decide (2047 < leAt d 0x2A 2)
       || [f, b].any (fun t => mmFmtBad t.inFmt.toNat t.outFmt.toNat t.acc t.sr)
       || out f.inp fi || out f.out fo || out b.inp bi || out b.out bo
       || anyOverlap [(0, desc, 64), (1, f.inp, fi), (2, b.inp, bi), (3, f.out, fo), (4, b.out, bo)]
            (fun i j => i == 1 && j == 2))]

/-! ## WGRAD (R98 to R102) -/

/-- Fields of a WGRAD descriptor (R99). -/
structure WgradDesc where
  x     : Nat
  dy    : Nat
  out   : Nat
  xp    : Nat
  dyp   : Nat
  t     : Nat
  k     : Nat
  n     : Nat
  kblk  : Nat
  xf    : BitVec 4
  dyf   : BitVec 4
  flags : Nat
  deriving DecidableEq, Repr

def WgradDesc.of (d : List Byte) : WgradDesc :=
  { x := leAt d 0 8, dy := leAt d 8 8, out := leAt d 0x10 8, xp := leAt d 0x18 4, dyp := leAt d 0x1C 4, t := leAt d 0x20 4,
    k := leAt d 0x24 2, n := leAt d 0x26 2, kblk := leAt d 0x28 2, xf := BitVec.ofNat 4 (leAt d 0x2A 1),
    dyf := BitVec.ofNat 4 (leAt d 0x2A 1 / 16), flags := leAt d 0x2B 1 }

def WgradDesc.acc (d : WgradDesc) : Bool := d.flags.testBit 0
def WgradDesc.maskKind (d : WgradDesc) : Nat := d.flags / 16 % 4
def WgradDesc.maskBytes (d : WgradDesc) : Nat :=
  match d.maskKind with
  | 1 => ceilDiv d.k 8
  | 2 => ceilDiv (ceilDiv d.k 64 * ceilDiv d.n 64) 8
  | _ => 0
def WgradDesc.outPitch (d : WgradDesc) : Nat := roundUp (4 * d.n) 64
def WgradDesc.outBytes (d : WgradDesc) : Nat := d.k * d.outPitch
def WgradDesc.stage (d : WgradDesc) : Nat := d.out + d.outBytes
def WgradDesc.stageBytes (d : WgradDesc) : Nat := 2 * 768 * d.k * elemBytes d.xf
def WgradDesc.xBytes (d : WgradDesc) : Nat := hdrBytes d.xf + (d.t - 1) * d.xp + d.k * elemBytes d.xf
def WgradDesc.dyBytes (d : WgradDesc) : Nat := hdrBytes d.dyf + (d.t - 1) * d.dyp + d.n * elemBytes d.dyf

def State.issueWgrad (s : State) (c : Nat) (w : Word128) : IssueRes :=
  let e := s.operand c w 0
  let d := WgradDesc.of (s.ms.bytes e.nat 64)
  { cause := lowestOf (s.operandCauses c e 64 .ownSram 64 ++ [(0x11, !s.placeOk c .ownSram e.nat (64 + d.maskBytes))]),
    op := .wgrad e.nat,
    claims := [.rd e.nat (64 + d.maskBytes), .rd (mask42 d.x) d.xBytes, .rd (mask42 d.dy) d.dyBytes,
               .wr (mask42 d.out) (d.outBytes + d.stageBytes)] }

def wgradFmt (c : BitVec 4) : Bool := c == 0 || c == 1 || c == 3 || c == 4

/-- Checks of a WGRAD when it starts (R100): 0x17 or 0. No alignment of X, DY and OUT is asked (DESIGN CHOICE, log 136). -/
def State.checkWgrad (s : State) (c desc : Nat) : Nat :=
  let raw := s.ms.bytes desc 64
  let d := WgradDesc.of raw
  let own := [(d.out, d.outBytes + d.stageBytes)]
  let bad :=
    s.ms.badRange desc (64 + d.maskBytes)
    || [d.x, d.dy, d.out].any (fun a => decide (2 ^ 42 ≤ a))
    || !decide (1 ≤ d.t ∧ d.t ≤ 131072) || !decide (1 ≤ d.k ∧ d.k ≤ 32768) || !decide (1 ≤ d.n ∧ d.n ≤ 6144)
    || decide (2047 < d.kblk) || !wgradFmt d.xf || !wgradFmt d.dyf || !oxPairs d.xf d.dyf
    || d.xp % 64 != 0 || decide (d.xp < d.k * elemBytes d.xf)
    || d.dyp % 64 != 0 || decide (d.dyp < d.n * elemBytes d.dyf)
    || d.flags &&& 0xCE != 0 || d.maskKind == 3 || !allZero (slice raw 0x2C 20)
    || !s.placeOk c .ownSram d.out (d.outBytes + d.stageBytes)
    || !s.placeOk c .engine d.x d.xBytes || !s.placeOk c .engine d.dy d.dyBytes
    || own.any (fun o => overlaps o.1 o.2 d.x d.xBytes || overlaps o.1 o.2 d.dy d.dyBytes
        || overlaps o.1 o.2 desc (64 + d.maskBytes))
  if bad then 0x17 else 0

/-- Element (k, n) is frozen by the mask (R101). -/
def WgradDesc.frozen (d : WgradDesc) (mask : List Byte) (k n : Nat) : Bool :=
  match d.maskKind with
  | 1 => (mask.getD (k / 8) 0).getLsbD (k % 8)
  | 2 =>
    let i := k / 64 * ceilDiv d.n 64 + n / 64
    (mask.getD (i / 8) 0).getLsbD (i % 8)
  | _ => false

/-- The transposed token tiles in the staging area, tile by tile; bytes of the two halves. -/
def wgradStage (ms : MemSys) (d : WgradDesc) : List (Nat × List Byte) :=
  let es := elemBytes d.xf
  let x0 := d.x + hdrBytes d.xf
  (List.range (ceilDiv d.t 768)).flatMap (fun tt =>
    let toks := min 768 (d.t - 768 * tt)
    (List.range d.k).map (fun k =>
      (d.stage + (tt % 2) * (768 * d.k * es) + k * (768 * es),
       (List.range toks).flatMap (fun t => ms.bytes (x0 + (768 * tt + t) * d.xp + k * es) es))))

/-- What a WGRAD reads from X and DY, each token once (R98). -/
def wgradPlan (raw : List Byte) : ReadPlan :=
  let d := WgradDesc.of raw
  let part (f : BitVec 4) (a pitch n : Nat) : List (Nat × Nat × Nat) :=
    plainRuns ((if perTensor f then [(a, 4)] else [])
      ++ (List.range d.t).map (fun t => (a + hdrBytes f + t * pitch, n * elemBytes f)))
  { streams := [part d.xf d.x d.xp d.k, part d.dyf d.dy d.dyp d.n] }

/-- WGRAD on the descriptor and mask bytes read when it started: OUT, the staging area, events (R97, R98). Each
element of X counts once (R124; DESIGN CHOICE, log 139). -/
def wgradRun (ms : MemSys) (raw : List Byte) : OpResult :=
  let d := WgradDesc.of raw
  let mask := raw.drop 64
  let x0 := d.x + hdrBytes d.xf
  let y0 := d.dy + hdrBytes d.dyf
  match elemOf d.xf, elemOf d.dyf with
  | some fx, some fy =>
    let xe (t k : Nat) : RElem := ms.elemAt fx (x0 + t * d.xp) (k * fx.bits)
    let ye (t n : Nat) : RElem := ms.elemAt fy (y0 + t * d.dyp) (n * fy.bits)
    let tens : List RScale := (if perTensor d.xf then [ms.scale32 d.x] else []) ++ (if perTensor d.dyf then [ms.scale32 d.dy] else [])
    let st := tens.foldl (fun a r => match r.v with | .f32 v => a.mul v | .e8 _ => a) FVal.one
    let block (k n b : Nat) : BitVec 32 × Bool :=
      let half (lo : Nat) : List Prod :=
        ((List.range 32).filter (fun i => decide (lo + i < d.t))).map (fun i => prodOf (xe (lo + i) k).v (ye (lo + i) n).v)
      kBlock (half (64 * b)) (half (64 * b + 32)) (some 0) (some 0) st
    let cell (k n : Nat) : Option (Nat × List Byte × NumEv × Bool) :=
      if d.frozen mask k n then none
      else
        let a := d.out + k * d.outPitch + 4 * n
        let (start, ev, bad) : Option (BitVec 32) × NumEv × Bool :=
          if d.acc then let x := ms.accRead a; (some x.1, x.2.1, x.2.2) else (none, {}, false)
        let v := chain32 start ((List.range (ceilDiv d.t 64)).map (block k n))
        let w := writeElem 2 none a (f32val v.1) v.2
        some (a, w.1, ev.join w.2, bad)
    let cells := (List.range d.k).flatMap (fun k => (List.range d.n).filterMap (cell k))
    let ins := (List.range d.t).flatMap (fun t => (List.range d.k).map (xe t) ++ (List.range d.n).map (ye t))
    let ev0 := (ins.map (fun e => NumEv.ofRead e.flag) ++ tens.map (fun e => NumEv.ofRead e.flag)).foldl NumEv.join {}
    { writes := wgradStage ms d ++ cells.map (fun x => (x.1, x.2.1)),
      ev := (cells.map (·.2.2.1)).foldl NumEv.join ev0,
      err := ins.any RElem.bad || tens.any RScale.bad || cells.any (·.2.2.2) }
  | _, _ => {}

end Sys2Proof.Machine
end

