-- ==== Sys2Proof/Machine/Vec.lean ====
section
/-! DEFINITION. The vector engine: elementwise operations, reductions, RAND, CONV and CRED (R68, R138 to R146). -/

namespace Sys2Proof.Machine

/-! ## One element (R139) -/

/-- FP32 bits of an exact value that FP32 represents. -/
def f32bits (v : FVal) : BitVec 32 := (rne32 v).1

/-- An FP32 word as an engine takes and writes it: an infinity is the largest finite value of its sign, a NaN is the
canonical one (R109, R122, R123). -/
def clean32 (x : BitVec 32) : BitVec 32 := f32bits (f32val x)

/-- The largest finite FP32 value with a sign. -/
def maxF32 (neg : Bool) : FVal := f32val (if neg then 0xFF7FFFFF#32 else 0x7F7FFFFF#32)

/-- A value beyond every format, which a rounding saturates (R122, R139). -/
def hugeVal (neg : Bool) : FVal := .num neg 1 1 2000

def one32 : BitVec 32 := 0x3F800000

/-- e^0, which is 1 exactly: the largest live score of R172 gives p = 1. The other bits of exp are the reference
vectors' (log 29). -/
def refOne (fn : Config.RefFn) (xs : List (BitVec 32)) : Bool := fn == .exp && xs.all (fun x => (f32val x).isZero)

/-- Result of an elementwise opcode before its rounding to FMT, and whether an FP32 intermediate saturated. `refF` are
the opcodes whose bits the reference vectors give. -/
def vecRef (fn : Config.RefFn) (a : FVal) : FVal × Bool :=
  let x := f32bits a
  if refOne fn [x] then (.one, false) else (f32val (Config.refF32 fn [x]), Config.refSat fn [x])

def vecDiv (a b : FVal) : FVal :=
  if a.isNaN || b.isNaN then .nan
  else if b.isZero then
    if a.isZero then f32val (Config.divZeroZero (f32bits a) (f32bits b)) else hugeVal (a.neg? != b.neg?)
  else a.div b

/-- 1 / √A: the largest finite value at zero; the sign at −0 is the reference's. -/
def vecRsqrt (a : FVal) : FVal × Bool :=
  if a.isZero then (maxF32 (a.neg? && bitB (Config.refF32 .rsqrt [f32bits a]) 31), true) else vecRef .rsqrt a

/-- ln A: NaN below zero, the most negative finite value at zero. -/
def vecLog (a : FVal) : FVal × Bool :=
  if a.isZero then (maxF32 true, true) else if a.neg? then (.nan, false) else vecRef .log a

def vecElem (o : Nat) (a b d : FVal) : FVal × Bool :=
  if a.isNaN || b.isNaN || d.isNaN then (.nan, false)
  else match o with
    | 0x01 | 0x10 => (a.add b, false)
    | 0x02 => (a.sub b, false)
    | 0x03 | 0x11 => (a.mul b, false)
    | 0x04 | 0x14 => ((a.mul b).add d, false)
    | 0x05 => (vecDiv a b, false)
    | 0x06 | 0x12 => (a.max b, false)
    | 0x07 | 0x13 => (a.min b, false)
    | 0x08 => (a.abs, false)
    | 0x09 => (a.negate, false)
    | 0x0A => (a, false)
    | 0x0B => (a.sqrt, false)
    | 0x0C => vecRsqrt a
    | 0x20 => vecRef .exp a
    | 0x21 => vecLog a
    | 0x22 => vecRef .sigmoid a
    | 0x23 => vecRef .tanh a
    | 0x24 => vecRef .silu a
    | 0x25 => vecRef .dsilu a
    | 0x26 => vecRef .gelu a
    | 0x27 => vecRef .dgelu a
    | _ => (.nan, false)

/-- D is also read (R140). -/
def vecReadsD (o : Nat) : Bool := o == 0x04 || o == 0x14

/-- Bytes of the operands A, B and D of an elementwise opcode. -/
def vecSpans (o : Nat) (fmt : BitVec 4) (count : Nat) : Nat × Nat × Nat :=
  let n := count * elemBytes fmt
  (if vecReadsA o then n else 0,
   if vecReadsB o then (if vecScalar o then elemBytes fmt else n) else 0,
   if vecReduces o then 4 else n)

/-- An input of D's instruction overlaps D other than by coinciding with it (R140). -/
def State.vecOverlap (s : State) (o : Nat) (a : Ea) (an : Nat) (d : Ea) (dn : Nat) : Bool :=
  s.eaOverlap a an d dn && (vecReduces o || a.nat != d.nat)

def State.issueVec (s : State) (c : Nat) (w : Word128) : IssueRes :=
  let o := w.opcode.toNat
  let fmt := BitVec.ofNat 4 (w.body 96 4)
  let count := w.body 72 24
  let a := s.operand c w 0
  let b := s.operand c w 24
  let d := s.operand c w 48
  let (an, bn, dn) := vecSpans o fmt count
  let chk (e : Ea) (n : Nat) : List (Nat × Bool) := if n = 0 then [] else s.operandCauses c e 64 .engine n
  { cause := lowestOf (chk a an ++ chk b bn ++ chk d dn
      ++ [(0x11, s.vecOverlap o a an d dn || s.vecOverlap o b bn d dn)]),
    op := .vec w.opcode a.nat b.nat d.nat count fmt (bitB w 100),
    claims := [.rd a.nat an, .rd b.nat bn, .wr d.nat dn] }

/-- An elementwise result, rounded and written at address `at_`. -/
def vecWrite (fmt : BitVec 4) (sr : Option KcgSel) (at_ : Nat) (r : FVal × Bool) : List Byte × NumEv :=
  writeElem fmt sr at_ r.1 r.2

/-- One FP32 value of a reduction (R139, R141). -/
def vecReduce (o : Nat) (xs : List RElem) : BitVec 32 × Bool :=
  let bits := xs.map (fun e => f32bits e.v)
  match o with
  | 0x30 => sum141 bits
  | 0x31 => sumsq141 bits
  | 0x32 => (f32bits ((xs.map RElem.v).tail.foldl FVal.max ((xs.map RElem.v).headD .nan)), false)
  | _ => (f32bits ((xs.map (fun e => e.v.abs)).tail.foldl FVal.max ((xs.map (fun e => e.v.abs)).headD .nan)), false)

/-- RAND element: the draw scaled by 2^-32, truncated to FMT (R142). -/
def vecRand (k : KcgSel) (fmt : BitVec 4) (a : Nat) : List Byte × NumEv :=
  match elemOf fmt with
  | some f =>
    let r := roundTo f .trunc (.num false (kcgAt k.seed k.stream a).toNat 1 (-32))
    (leBytes (f.bits / 8) r.bits, NumEv.ofWrite fmt.toNat r false)
  | none => ([], {})

def joinAll (es : List NumEv) : NumEv := es.foldl NumEv.join {}

def readEv (es : List RElem) : NumEv := joinAll (es.map (fun e => NumEv.ofRead e.flag))

/-- An elementwise instruction, reduction or RAND. -/
def vecRun (ms : MemSys) (k : KcgSel) (o a b d count : Nat) (fmt : BitVec 4) (sr : Bool) : OpResult :=
  let es := elemBytes fmt
  let sel := if sr then some k else none
  if o = 0x40 then
    let out := (List.range count).map (fun j => vecRand k fmt (d + j * es))
    { writes := [(d, out.flatMap (·.1))], ev := joinAll (out.map (·.2)) }
  else
    let as_ := ms.rowElems fmt a count
    if vecReduces o then
      let r := vecReduce o as_
      let w := writeElem 2 none d (f32val r.1) r.2
      { writes := [(d, w.1)], ev := (readEv as_).join w.2, err := as_.any RElem.bad }
    else
      let bs := if vecReadsB o then ms.rowElems fmt b (if vecScalar o then 1 else count) else []
      let ds := if vecReadsD o then ms.rowElems fmt d count else []
      let el (l : List RElem) (j : Nat) : FVal := match l[j]? with | some e => e.v | none => .zero
      let out := (List.range count).map (fun j =>
        vecWrite fmt sel (d + j * es) (vecElem o (el as_ j) (el bs (if vecScalar o then 0 else j)) (el ds j)))
      { writes := [(d, out.flatMap (·.1))], ev := joinAll (readEv as_ :: readEv bs :: readEv ds :: out.map (·.2)),
        err := (as_ ++ bs ++ ds).any RElem.bad }

/-- What an elementwise instruction or a reduction reads. -/
def vecPlan (o a b d count : Nat) (fmt : BitVec 4) : ReadPlan :=
  let es := elemBytes fmt
  if o = 0x40 then {}
  else
    { streams := [plainRuns [(a, count * es)]]
        ++ (if !vecReduces o && vecReadsB o then [plainRuns [(b, (if vecScalar o then 1 else count) * es)]] else [])
        ++ (if !vecReduces o && vecReadsD o then [plainRuns [(d, count * es)]] else []) }

/-! ## CONV (R143) -/

def State.issueConv (s : State) (c : Nat) (w : Word128) : IssueRes :=
  let inF := BitVec.ofNat 4 (w.body 96 4)
  let outF := BitVec.ofNat 4 (w.body 100 4)
  let count := w.body 72 24
  let a := s.operand c w 0
  let d := s.operand c w 24
  let sc := s.operand c w 48
  let an := matBytes inF 1 count
  let dn := matBytes outF 1 count
  let sn := if perTensor outF then 4 else 0
  { cause := lowestOf (s.operandCauses c a 64 .engine an ++ s.operandCauses c d 64 .engine dn
      ++ (if sn = 0 then [] else s.operandCauses c sc 64 .engine sn)
      ++ [(0x11, s.eaOverlap d dn a an || s.eaOverlap d dn sc sn)]),
    op := .conv (w.opcode == 0x82) a.nat d.nat sc.nat count inF outF,
    claims := [.rd a.nat an, .rd sc.nat sn, .wr d.nat dn] }

/-- Quotient of an element by its scale; a nonzero value by zero is beyond every format. -/
def convQuot (x s : FVal) : FVal :=
  if x.isNaN || s.isNaN then .nan
  else if s.isZero then (if x.isZero then x else hugeVal x.neg?)
  else x.div s

/-- Largest magnitude of the values of a block that are numbers. -/
def amaxOf (xs : List FVal) : FVal := (xs.filter (fun x => !x.isNaN)).foldl (fun a x => a.max x.abs) FVal.zero

/-- FP32 block scale amax / F of codes 5 and 6; a saturated one counts under FP32, and one written as zero
or subnormal counts nothing (R124; DESIGN CHOICE, log 139). -/
def blockScale32 (code : BitVec 4) (xs : List FVal) : Sat32 :=
  roundS ((amaxOf xs).div (.ofInt (if code = 5 then 448 else 57344))) false

/-- E8M0 byte of a block of codes 7 to 11. -/
def blockScaleE8 (code : BitVec 4) (xs : List FVal) : Byte :=
  if xs.any FVal.isNaN then 0xFF
  else
    let m := amaxOf xs
    if m.isZero then 0
    else
      let e : Int := match code.toNat with | 7 => 8 | 8 => 15 | 9 => 4 | _ => 2
      BitVec.ofInt 8 (max (-127) (min 127 (m.log2 - e)) + 127)

/-- Elements packed as a bit stream of b bits each (R112). -/
def packBits (b : Nat) (xs : List Nat) : List Byte :=
  leBytes (ceilDiv (xs.length * b) 8) ((xs.zip (List.range xs.length)).foldl (fun a x => a + x.1 * 2 ^ (b * x.2)) 0)

/-- One row converted: bytes with their offsets from D, and events. The elements of an MX block marked NaN count nothing
(R124; DESIGN CHOICE, log 139). -/
def convRow (k : Option KcgSel) (code : BitVec 4) (d : Nat) (xs : List FVal) (tscale : BitVec 32 × FVal) :
    List (Nat × List Byte) × NumEv :=
  match elemOf code with
  | none => ([], {})
  | some f =>
    let n := xs.length
    let bl := max (blockLen code) 1
    let nBlk := if blockLen code = 0 then 0 else ceilDiv n bl
    let blk (i : Nat) : List FVal := (xs.drop (i * bl)).take bl
    let s32 := (List.range nBlk).map (fun i => blockScale32 code (blk i))
    let s8 := (List.range nBlk).map (fun i => blockScaleE8 code (blk i))
    let base := d + hdrBytes code
    let el (x : FVal) (j : Nat) : Nat × NumEv :=
      let q : FVal :=
        if perTensor code then convQuot x tscale.2
        else if isMx code then
          match decodeE8M0 (s8.getD (j / bl) 0) with
          | some e => if x.isNaN then .nan else x.div (.num false 1 1 e)
          | none => x
        else if blockLen code = 0 then x
        else convQuot x (f32val (s32.getD (j / bl) (0, false)).1)
      let mode := match k with
        | some sel => srMode sel.seed sel.stream f (8 * base + j * f.bits)
        | none => .rne
      -- a block that holds a NaN is written as zeros under scale 0xFF (R123)
      if isMx code && (s8.getD (j / bl) 0 == 0xFF) then (0, { nanOut := b2n x.isNaN })
      else let r := roundTo f mode q; (r.bits, NumEv.ofWrite code.toNat r false)
    let es := (xs.zip (List.range n)).map (fun x => el x.1 x.2)
    ((if perTensor code then [(0, leBytes 4 tscale.1.toNat)] else [])
       ++ [(hdrBytes code, packBits f.bits (es.map (·.1)))]
       ++ (if nBlk = 0 then []
           else [(hdrBytes code + rowScaleOff code n,
                  if isMx code then s8 else s32.flatMap (fun x => leBytes 4 x.1.toNat))]),
     joinAll ((if isMx code then {} else NumEv.ofSats (s32.map (·.2))) :: es.map (·.2)))

def convRun (ms : MemSys) (k : KcgSel) (sr : Bool) (a d scale count : Nat) (inF outF : BitVec 4) : OpResult :=
  let r := ms.row inF a count 0
  let xs := (List.range count).map (r.value inF)
  let hdr : NumEv := match r.tensor with | some t => NumEv.ofRead t.flag | none => {}
  let sc : RScale := if perTensor outF then ms.scale32 scale else ⟨.f32 .one, .none, false⟩
  let ts : BitVec 32 × FVal := match sc.v with
    | .f32 .nan => (0x3F800000, .nan)
    | .f32 v => (BitVec.ofNat 32 (ms.le scale 4), v)
    | .e8 _ => (0, .one)
  let o := convRow (if sr then some k else none) outF d xs ts
  { writes := o.1.map (fun x => (d + x.1, x.2)), ev := joinAll [r.reads, hdr, NumEv.ofRead sc.flag, o.2],
    err := r.anyBad || sc.bad }

/-- What a CONV reads. -/
def convPlan (a scale count : Nat) (inF outF : BitVec 4) : ReadPlan :=
  { streams := [plainRuns (matRuns inF a 1 count)], others := if perTensor outF then [(scale, 4, 0)] else [] }

/-! ## CRED (R144) -/

structure CredDesc where
  src   : Nat
  d     : Nat
  pitch : Nat
  count : Nat
  slots : Nat
  inF   : BitVec 4
  outF  : BitVec 4
  flags : Nat
  deriving DecidableEq, Repr

def CredDesc.of (x : List Byte) : CredDesc :=
  { src := leAt x 0 8, d := leAt x 8 8, pitch := leAt x 0x10 4, count := leAt x 0x14 4, slots := leAt x 0x18 2,
    inF := BitVec.ofNat 4 (leAt x 0x1A 1), outF := BitVec.ofNat 4 (leAt x 0x1A 1 / 16), flags := leAt x 0x1B 1 }

def CredDesc.srcBytes (d : CredDesc) : Nat := (d.slots - 1) * d.pitch + d.count * elemBytes d.inF
def CredDesc.outBytes (d : CredDesc) : Nat := d.count * elemBytes d.outF

def State.issueCred (s : State) (c : Nat) (w : Word128) : IssueRes :=
  let e := s.operand c w 0
  let d := CredDesc.of (s.ms.bytes e.nat 64)
  { cause := lowestOf (s.operandCauses c e 64 .ownSram 64),
    op := .cred e.nat,
    claims := [.hull [(e.nat, 64), (mask42 d.src, d.srcBytes)] false, .wr (mask42 d.d) d.outBytes] }

/-- Checks of a CRED when it starts: 0x17 or 0. SRC and D need no alignment (log 160). -/
def State.checkCred (s : State) (c desc : Nat) : Nat :=
  let raw := s.ms.bytes desc 64
  let d := CredDesc.of raw
  let bad :=
    s.ms.badRange desc 64 || decide (2 < d.inF.toNat) || decide (2 < d.outF.toNat)
    || !decide (1 ≤ d.count ∧ d.count ≤ 16777215) || !decide (1 ≤ d.slots ∧ d.slots ≤ 4096)
    || d.pitch % 64 != 0 || decide (d.pitch < d.count * elemBytes d.inF)
    || decide (3 < d.flags) || !allZero (slice raw 0x20 32) || decide (2 ^ 42 ≤ d.src) || decide (2 ^ 42 ≤ d.d)
    || (d.flags.testBit 1 && d.outF == 2)
    || !s.placeOk c .engine d.src d.srcBytes || !s.placeOk c .engine d.d d.outBytes
    || (List.range d.slots).any (fun i => overlaps d.d d.outBytes (d.src + i * d.pitch) (d.count * elemBytes d.inF))
  if bad then 0x17 else 0

/-- What a CRED reads. -/
def credPlan (raw : List Byte) : ReadPlan :=
  let d := CredDesc.of raw
  let n := d.count * elemBytes d.inF
  { streams := [plainRuns ((List.range d.slots).map (fun i => (d.src + i * d.pitch, n)))],
    others := if d.flags.testBit 0 then [(d.d, d.outBytes, 0)] else [] }

def credRun (ms : MemSys) (k : KcgSel) (raw : List Byte) : OpResult :=
  let d := CredDesc.of raw
  let slots := (List.range d.slots).map (fun i => ms.rowElems d.inF (d.src + i * d.pitch) d.count)
  let old := if d.flags.testBit 0 then ms.rowElems d.outF d.d d.count else []
  let sel := if d.flags.testBit 1 then some k else none
  let out := (List.range d.count).map (fun j =>
    let terms := (old[j]?.toList ++ slots.filterMap (fun l => l[j]?)).map (fun e => (f32bits e.v, false))
    let v := chain32 none terms
    writeElem d.outF sel (d.d + j * elemBytes d.outF) (f32val v.1) v.2)
  { writes := [(d.d, out.flatMap (·.1))], ev := joinAll (readEv old :: slots.map readEv ++ out.map (·.2)),
    err := (old ++ slots.flatten).any RElem.bad }

end Sys2Proof.Machine
end

