-- ==== Sys2Proof/Machine/Row.lean ====
section
/-! DEFINITION. The row engine and the statistics store: what ROW instructions claim, check and write (R69, R147 to R158).
Sums, products, differences and quotients are the FP32 steps of R125 and R141; steps whose bits R147 leaves to the
reference vectors are the constants of Config. -/

namespace Sys2Proof.Machine

/-! ## FP32 steps -/

def isNaN32 (x : BitVec 32) : Bool := (f32val x).isNaN

/-- A step the reference vectors define, on operands and with a result without infinities (R109, R122); a NaN operand
gives the canonical NaN, and so does a NaN result. -/
def ref32 (fn : Config.RefFn) (xs : List (BitVec 32)) : BitVec 32 :=
  if xs.any isNaN32 then nan32 else if refOne fn xs then one32 else clean32 (Config.refF32 fn (xs.map clean32))

/-- A step of the reference vectors with its own saturation and that of the steps before it. -/
def refS (fn : Config.RefFn) (xs : List Sat32) : Sat32 :=
  let bits := xs.map (·.1)
  (ref32 fn bits, xs.any (·.2) || (!bits.any isNaN32 && !refOne fn bits && Config.refSat fn (bits.map clean32)))

/-! ## Descriptor (R148, R149) -/

structure RowDesc where
  x     : Nat
  ydy   : Nat
  dx    : Nat
  gb    : Nat
  dgb   : Nat
  stat  : Nat
  rows  : Nat
  len   : Nat
  eps   : BitVec 32
  xf    : BitVec 4
  yf    : BitVec 4
  flags : Nat
  deriving DecidableEq, Repr

def RowDesc.of (d : List Byte) : RowDesc :=
  { x := leAt d 0 8, ydy := leAt d 8 8, dx := leAt d 0x10 8, gb := leAt d 0x18 8, dgb := leAt d 0x20 8,
    stat := leAt d 0x28 8, rows := leAt d 0x30 4, len := leAt d 0x34 4, eps := BitVec.ofNat 32 (leAt d 0x38 4),
    xf := BitVec.ofNat 4 (leAt d 0x3C 1), yf := BitVec.ofNat 4 (leAt d 0x3C 1 / 16), flags := leAt d 0x3D 1 }

def RowDesc.f (d : RowDesc) (i : Nat) : Bool := d.flags.testBit i
/-- SEG of KIND 2. -/
def RowDesc.seg (d : RowDesc) : Nat := d.flags % 4
def RowDesc.layout (d : RowDesc) : Bool := d.f 7
def RowDesc.statMem (d : RowDesc) : Bool := d.f 6

/-- Pitch of a 768-element slice row. -/
def slicePitch (fmt : BitVec 4) : Nat := rowPitch fmt 768

/-- Address of element j of row r of an operand (R149). -/
def RowDesc.at_ (d : RowDesc) (base : Nat) (fmt : BitVec 4) (r j : Nat) : Nat :=
  if d.layout then
    let sl := j / 768
    let w := min 768 (d.len - 768 * sl)
    base + sl * (d.rows * slicePitch fmt) + r * rowPitch fmt w + (j % 768) * elemBytes fmt
  else base + r * rowPitch fmt d.len + j * elemBytes fmt

/-- Bytes from an operand's address to its last element. -/
def RowDesc.span (d : RowDesc) (fmt : BitVec 4) : Nat :=
  if d.rows = 0 ∨ d.len = 0 then 0 else d.at_ 0 fmt (d.rows - 1) (d.len - 1) + elemBytes fmt

/-- Second half of a GB or DGB operand: after the first, rounded up to 64 B. -/
def RowDesc.half (d : RowDesc) (es : Nat) : Nat := roundUp (d.len * es) 64

def RowDesc.gbSpan (d : RowDesc) (kind : Nat) : Nat :=
  let es := elemBytes d.xf
  if kind = 2 then 0
  else if kind = 0 ∧ d.f 1 then d.half es + d.len * es
  else if d.f 0 then d.len * es else 0

def RowDesc.dgbSpan (d : RowDesc) (kind : Nat) : Nat :=
  match kind with
  | 0 => d.half 4 + 4 * d.len
  | 1 => 4 * d.len
  | _ => 0

/-- FWD writes y: not for a segment whose statistics only are taken (R150). -/
def RowDesc.writesY (d : RowDesc) (kind : Nat) : Bool := kind != 2 || d.seg == 0

def RowDesc.xent (d : RowDesc) (kind : Nat) : Bool := kind == 2 && d.f 3

/-- Bytes of YDY: y, dy, or labels. -/
def RowDesc.ydySpan (d : RowDesc) (bwd : Bool) (kind : Nat) : Nat :=
  if bwd then (if d.xent kind then 4 * d.rows else d.span d.yf)
  else if d.writesY kind then d.span d.yf else 0

def RowDesc.statSpan (d : RowDesc) (bwd : Bool) : Nat := if !bwd && d.statMem then 8 * d.rows else 0

/-- Issue of FWD and BWD (R158). -/
def State.issueRow (s : State) (c : Nat) (w : Word128) (bwd : Bool) : IssueRes :=
  let k := s.core c
  let e := s.operand c w 0
  let kind := w.body 44 4
  let mb := w.body 36 8 + (if w.pcs then k.subRank else 0)
  let d := RowDesc.of (s.ms.bytes e.nat 64)
  let gb := (mask42 d.gb, d.gbSpan kind)
  let x := (mask42 d.x, d.span d.xf)
  { cause := lowestOf (s.operandCauses c e 64 .ownSram 64 ++ [(0x1D, decide (255 < mb))]),
    op := .row bwd e.nat (w.body 24 12) mb kind,
    claims :=
      if bwd then
        [.hull [(e.nat, 64), x, (mask42 d.ydy, d.ydySpan true kind), gb] false, .wr (mask42 d.dx) (d.span d.xf),
         .wr (mask42 d.dgb) (d.dgbSpan kind)]
      else
        [.hull [(e.nat, 64), x, gb] false, .wr (mask42 d.ydy) (d.ydySpan false kind),
         .wr (mask42 d.stat) (d.statSpan false)] }

def State.issueStatFree (s : State) (c : Nat) (w : Word128) : IssueRes :=
  let mb := w.body 36 8 + (if w.pcs then (s.core c).subRank else 0)
  { cause := lowestOf [(0x1D, decide (255 < mb))], op := .statFree (w.body 24 12) mb (w.body 44 4), claims := [] }

/-! ## Statistics store (R153 to R157) -/

def StatEntry.tagged (e : StatEntry) (layer mb kind : Nat) : Bool :=
  e.layer.toNat == layer && e.mb.toNat == mb && e.kind.toNat == kind

def RowRegs.find (r : RowRegs) (layer mb kind : Nat) : Option StatEntry := r.dir.find? (fun e => e.tagged layer mb kind)

/-- Granules of a resident entry of core c: first, count. -/
def StatEntry.run (e : StatEntry) (c : Nat) : Option (Nat × Nat) :=
  if e.backed then none else some ((e.addr.toNat - ctlBase c) / 64, ceilDiv e.rows.toNat 8)

def RowRegs.runs (r : RowRegs) (c : Nat) : List (Nat × Nat) := r.dir.filterMap (fun e => e.run c)

/-- Lowest first granule of a free run of n granules (R153). -/
def RowRegs.alloc (r : RowRegs) (c n : Nat) : Option Nat :=
  let runs := r.runs c
  let ok (g : Nat) : Bool := decide (g + n ≤ 65536) && runs.all (fun x => !overlaps g n x.1 x.2)
  ((0 :: runs.map (fun x => x.1 + x.2)).filter ok).foldl (fun b g => match b with
    | none => some g
    | some y => some (min y g)) none

/-- Lowest free directory place (DESIGN CHOICE, log 159). -/
def RowRegs.place (r : RowRegs) : Option Nat := (List.range 1024).find? (fun i => !(r.dir.any (fun e => e.idx == i)))

/-- Granules of the longest free run (CORE.STAT_USE). -/
def RowRegs.largestFree (r : RowRegs) (c : Nat) : Nat :=
  let runs := r.runs c
  let start := (0 :: runs.map (fun x => x.1 + x.2)).filter (fun g => runs.all (fun x => !(decide (x.1 ≤ g ∧ g < x.1 + x.2))))
  start.foldl (fun m g =>
    let next := runs.foldl (fun a x => if g ≤ x.1 then min a x.1 else a) 65536
    max m (next - g)) 0

/-- Bytes 0 to 15 of a directory entry (R154). -/
def StatEntry.bytes (e : StatEntry) : List Byte :=
  leBytes 8 (pack [(e.layer.toNat, 0), (e.mb.toNat, 12), (e.kind.toNat, 20), (1, 24), (b2n e.backed, 25),
    (b2n e.open_, 26), (e.rows.toNat, 32)]).toNat ++ leBytes 8 e.addr.toNat

/-! ## Checks at the start (R149, R150, R156) -/

/-- The entry a FWD that folds or applies, or a BWD, needs; `none` is cause 0x14. -/
def State.rowEntry (s : State) (c : Nat) (bwd : Bool) (d : RowDesc) (layer mb kind : Nat) : Option StatEntry :=
  match (s.core c).rowr.find layer mb kind with
  | some e =>
    if bwd then (if e.open_ then none else some e)
    else if d.f 2 then (if e.open_ then none else some e)
    else if e.open_ && e.rows.toNat == d.rows then some e else none
  | none => none

/-- A FWD that needs an entry: SEG 2, 3 or APPLY of KIND 2. -/
def RowDesc.needsEntry (d : RowDesc) (kind : Nat) : Bool := kind == 2 && (d.f 2 || decide (2 ≤ d.seg))

def rowFieldsBad (raw : List Byte) (d : RowDesc) (bwd : Bool) (kind : Nat) : Bool :=
  [d.x, d.ydy, d.dx, d.gb, d.dgb, d.stat].any (fun a => decide (2 ^ 42 ≤ a))
    || !decide (1 ≤ d.rows ∧ d.rows ≤ 16777215) || !decide (1 ≤ d.len ∧ d.len ≤ 65536)
    || decide (2 < d.xf.toNat) || decide (2 < d.yf.toNat) || leAt raw 0x3E 2 != 0
    || (d.f 4 && (if bwd then d.xf else d.yf) == 2)
    -- fields the direction or the KIND does not use
    || (!bwd && (d.dx != 0 || d.dgb != 0 || d.f 5 || (d.stat != 0 && !d.statMem) || (kind != 2 && d.f 2)))
    || (bwd && (d.stat != 0 || d.statMem))
    || (kind == 2 && (d.gb != 0 || d.dgb != 0))
    || (kind == 2 && !bwd && (d.f 3 || (d.f 2 && d.seg != 0)))
    || (kind == 2 && bwd && (d.f 2 || d.seg != 0))
    || (kind != 2 && d.f 3) || (kind == 1 && d.f 1)

/-- Checks of a ROW when it starts: 0x17 or 0. Addresses need no alignment, and DX takes the place of DY in the same format alone
(log 160). -/
def State.checkRow (s : State) (c : Nat) (bwd : Bool) (desc layer mb kind : Nat) : Nat :=
  let raw := s.ms.bytes desc 64
  let d := RowDesc.of raw
  let out (a n : Nat) : Bool := n != 0 && !s.placeOk c .engine a n
  let ydy := (d.ydy, d.ydySpan bwd kind)
  let x := (d.x, d.span d.xf)
  let gb := (d.gb, d.gbSpan kind)
  let dx := (d.dx, if bwd then d.span d.xf else 0)
  let dgb := (d.dgb, if bwd then d.dgbSpan kind else 0)
  let st := (d.stat, d.statSpan bwd)
  let hit (a b : Nat × Nat) : Bool := overlaps a.1 a.2 b.1 b.2
  lowestOf
    [(0x14, (bwd || d.needsEntry kind) && (s.rowEntry c bwd d layer mb kind).isNone),
     (0x17, s.ms.badRange desc 64 || rowFieldsBad raw d bwd kind
       || out x.1 x.2 || out ydy.1 ydy.2 || out gb.1 gb.2 || out dx.1 dx.2 || out dgb.1 dgb.2
       || (st.2 != 0 && (d.stat % 64 != 0 || !s.placeOk c .engine st.1 st.2))
       || (if bwd then
             hit dx x || hit dx gb || hit dx (desc, 64) || (d.f 2 && hit dx dgb)
               || (hit dx ydy && !(dx.1 == ydy.1 && dx.2 == ydy.2 && d.xf == d.yf && !d.xent kind))
               || hit dgb x || hit dgb gb || hit dgb ydy || hit dgb (desc, 64)
           else
             hit ydy x || hit ydy gb || hit ydy (desc, 64) || hit st x || hit st gb || hit st (desc, 64)))]

/-! ## Rows (R147, R150, R151) -/

/-- Elements of row r of an operand. -/
def rowRead (ms : MemSys) (d : RowDesc) (base : Nat) (fmt : BitVec 4) (r : Nat) : List RElem :=
  match elemOf fmt with
  | some f => (List.range d.len).map (fun j => ms.elemAt f (d.at_ base fmt r j) 0)
  | none => []

def bitsOf (xs : List RElem) : List (BitVec 32) := xs.map (fun e => f32bits e.v)

/-- Saturation of a quantity that a whole row shares counts once, with that quantity, and not with every element that uses
it (DESIGN CHOICE, log 106); so shared quantities enter the elements as plain values. -/
def rowHat (kind : Nat) (mu rho : BitVec 32) (xs : List (BitVec 32)) : List Sat32 :=
  xs.map (fun x => mulS (if kind = 0 then subS (plainS x) (plainS mu) else plainS x) (plainS rho))

/-- Statistics of one row, word 0 and word 1, each with the saturation of the steps that lead to it alone; a NaN or infinite EPS
is not counted (log 157). -/
def rowStats (kind : Nat) (eps : BitVec 32) (xs : List (BitVec 32)) : Sat32 × Sat32 :=
  let n := xs.length
  match kind with
  | 0 =>
    let mu := divNS (sum141 xs) n
    let var := divNS (sumsq141 (xs.map (fun x => (subS (plainS x) (plainS mu.1)).1))) n
    (mu, refS .rowRho [var, plainS eps])
  | 1 => (plainS 0, refS .rowRho [divNS (sumsq141 xs) n, plainS eps])
  | _ =>
    let m := f32bits ((xs.map f32val).tail.foldl FVal.max ((xs.map f32val).headD .nan))
    let ts := xs.map (fun x => refS .exp [subS (plainS x) (plainS m)])
    let sm := sum141 (ts.map (·.1))
    (plainS m, refS .rowLog [(sm.1, sm.2 || ts.any (·.2))])

/-- A fold of a segment's statistics into an entry's (R150). -/
def rowFold (old : BitVec 32 × BitVec 32) (new : Sat32 × Sat32) : Sat32 × Sat32 :=
  ((f32bits ((f32val old.1).max (f32val new.1.1)), new.1.2),
   refS .rowFold [plainS old.1, plainS old.2, new.1, new.2])

/-- The list written as elements of row r at an operand. -/
def rowWrite (d : RowDesc) (base : Nat) (fmt : BitVec 4) (k : Option KcgSel) (r : Nat) (vs : List Sat32) :
    List (Nat × List Byte) × NumEv :=
  let o := (vs.zip (List.range vs.length)).map (fun v =>
    let a := d.at_ base fmt r v.2
    let w := writeElem fmt k a (f32val v.1.1) v.1.2
    ((a, w.1), w.2))
  (o.map (·.1), joinAll (o.map (·.2)))

/-- Gain and bias elements: `none` where the descriptor has none. -/
def rowGain (ms : MemSys) (d : RowDesc) (kind : Nat) : Option (List RElem) × Option (List RElem) :=
  (if kind ≠ 2 ∧ d.f 0 then some (ms.rowElems d.xf d.gb d.len) else none,
   if kind = 0 ∧ d.f 1 then some (ms.rowElems d.xf (d.gb + d.half (elemBytes d.xf)) d.len) else none)

/-- y of one element of KIND 0 or 1 from x̂ (R147). A product, or a sum with one factor 1 or one term 0, is the FP32
operation R125 rounds correctly; a product and a sum together are the reference vectors'. -/
def rowNorm (kind : Nat) (h : Sat32) (g b : Option (BitVec 32)) : Sat32 :=
  match kind, g, b with
  | 0, some x, some y => refS .rowNormY [h, plainS x, plainS y]
  | 0, some x, none => addS (mulS h (plainS x)) (plainS 0)
  | 0, none, some y => addS h (plainS y)
  | 0, none, none => addS h (plainS 0)
  | _, some x, _ => mulS h (plainS x)
  | _, none, _ => h

/-- y of one row from its statistics. -/
def rowY (kind : Nat) (st : BitVec 32 × BitVec 32) (xs : List (BitVec 32)) (g b : Option (List (BitVec 32))) : List Sat32 :=
  if kind = 2 then xs.map (fun x => refS .rowSoftmaxY [plainS x, plainS st.1, plainS st.2])
  else
    let hs := rowHat kind st.1 st.2 xs
    (hs.zip (List.range hs.length)).map (fun h =>
      rowNorm kind h.1 (g.map (fun l => l.getD h.2 one32)) (b.map (fun l => l.getD h.2 0)))

/-- Statistics words of row r at address `addr`, and whether their granule is uncorrectable (R138); a NaN or infinite one is not
counted (log 157). -/
def statAt (ms : MemSys) (addr r : Nat) : (BitVec 32 × BitVec 32) × Bool :=
  let a := addr + 8 * r
  if ms.badRange a 8 then ((nan32, nan32), true) else ((BitVec.ofNat 32 (ms.le a 4), BitVec.ofNat 32 (ms.le (a + 4) 4)), false)

def statWrite (addr r : Nat) (st : BitVec 32 × BitVec 32) : Nat × List Byte :=
  (addr + 8 * r, leBytes 4 st.1.toNat ++ leBytes 4 st.2.toNat)

/-- What BWD computes of one row: dx, its terms of dg and db, and the saturations of the row's means and sums. -/
structure RowGrad where
  dx : List Sat32
  dg : List Sat32 := []
  db : List Sat32 := []
  shared : List Bool := []
  deriving DecidableEq, Repr

/-- dx of one row, and its terms of dg and db. -/
def rowBack (kind : Nat) (st : BitVec 32 × BitVec 32) (xs dy : List (BitVec 32)) (g : Option (List (BitVec 32))) : RowGrad :=
  let n := xs.length
  if kind = 2 then
    let y := rowY 2 st xs none none
    let ts := List.zipWith (fun d v => mulS (plainS d) (plainS v.1)) dy y
    let sm := sum141 (ts.map (·.1))
    { dx := List.zipWith (fun v d => mulS v (subS (plainS d) (plainS sm.1))) y dy,
      shared := [sm.2 || ts.any (·.2)] }
  else
    let hs := rowHat kind st.1 st.2 xs
    let gy : List Sat32 := match g with
      | some gs => List.zipWith (fun d x => mulS (plainS d) (plainS x)) dy gs
      | none => dy.map plainS
    let mg : Sat32 := if kind = 0 then divNS (sum141 (gy.map (·.1))) n else plainS 0
    let ps := List.zipWith (fun a h => mulS (plainS a.1) (plainS h.1)) gy hs
    let mx := divNS (sum141 (ps.map (·.1))) n
    { dx := List.zipWith (fun a h => refS .rowDx [a, h, plainS st.2, plainS mg.1, plainS mx.1]) gy hs,
      dg := List.zipWith (fun d h => mulS (plainS d) (plainS h.1)) dy hs, db := dy.map plainS,
      shared := [mg.2, mx.2 || ps.any (·.2)] }

/-- dx of one row under XENT (R151). -/
def rowXent (st : BitVec 32 × BitVec 32) (xs : List (BitVec 32)) (col0 label : Nat) : List Sat32 :=
  if label = 0xFFFFFFFF then xs.map (fun _ => plainS 0)
  else
    let y := rowY 2 st xs none none
    (y.zip (List.range y.length)).map (fun p => if col0 + p.2 = label then subS p.1 (plainS one32) else p.1)

/-- FWD of rows: writes of y and of statistics at `addr`, events, uncorrectable input. With `fold` the rows' statistics
fold into those already there; with `apply` they are only read. Statistics written as NaN or subnormal count nothing
(R124; DESIGN CHOICE, log 139). -/
def rowFwd (ms : MemSys) (k : KcgSel) (d : RowDesc) (kind : Nat) (addr : Option Nat) (fold apply : Bool) : OpResult :=
  let (g, b) := rowGain ms d kind
  let gb := g.map bitsOf
  let bb := b.map bitsOf
  let one (r : Nat) : List (Nat × List Byte) × NumEv × Bool :=
    let xe := rowRead ms d d.x d.xf r
    let xs := bitsOf xe
    let old := if apply || fold then statAt ms (addr.getD 0) r else ((0, 0), false)
    let own := rowStats kind d.eps xs
    let new := if fold then rowFold old.1 own else own
    let st := if apply then old.1 else (new.1.1, new.2.1)
    let y : List (Nat × List Byte) × NumEv :=
      if d.writesY kind then rowWrite d d.ydy d.yf (if d.f 4 then some k else none) r (rowY kind st xs gb bb) else ([], {})
    let sw := match addr with
      | some a => if apply then [] else [statWrite a r st]
      | none => []
    let sats := if apply then [] else [new.1.2, new.2.2]
    (y.1 ++ sw, joinAll [readEv xe, y.2, NumEv.ofSats sats], xe.any RElem.bad || old.2)
  let rs := (List.range d.rows).map one
  let gs := (g.getD []) ++ (b.getD [])
  { writes := rs.flatMap (·.1), ev := joinAll (readEv gs :: rs.map (·.2.1)),
    err := gs.any RElem.bad || rs.any (·.2.2) }

/-- BWD of rows with the entry's statistics at `addr`. Each element of dg and db is one chain over the rows (R151). -/
def rowBwd (ms : MemSys) (k : KcgSel) (d : RowDesc) (kind addr : Nat) : OpResult :=
  let (g, _) := rowGain ms d kind
  let gb := g.map bitsOf
  let sel := if d.f 4 then some k else none
  let one (r : Nat) : List (Nat × List Byte) × NumEv × Bool × RowGrad :=
    let xe := rowRead ms d d.x d.xf r
    let xs := bitsOf xe
    let st := statAt ms addr r
    if d.xent kind then
      let a := d.ydy + 4 * r
      let bad := ms.badRange a 4
      let dx := rowXent st.1 xs d.eps.toNat (ms.le a 4)
      let dx := if bad then dx.map (fun _ => plainS nan32) else dx
      let w := rowWrite d d.dx d.xf sel r dx
      (w.1, (readEv xe).join w.2, xe.any RElem.bad || bad || st.2, { dx := dx })
    else
      let ye := rowRead ms d d.ydy d.yf r
      let o := rowBack kind st.1 xs (bitsOf ye) gb
      let w := rowWrite d d.dx d.xf sel r o.dx
      (w.1, joinAll [readEv xe, readEv ye, w.2, NumEv.ofSats o.shared], (xe ++ ye).any RElem.bad || st.2, o)
  let rs := (List.range d.rows).map one
  let param (off j : Nat) (terms : List Sat32) : (Nat × List Byte) × NumEv × Bool :=
    let a := d.dgb + off + 4 * j
    let (start, ev, bad) : Option (BitVec 32) × NumEv × Bool :=
      if d.f 2 then let x := ms.accRead a; (some x.1, x.2.1, x.2.2) else (none, {}, false)
    let v := chain32 start terms
    let w := writeElem 2 none a (f32val v.1) v.2
    ((a, w.1), ev.join w.2, bad)
  let dg := if kind = 2 then [] else
    (List.range d.len).map (fun j => param 0 j (rs.map (fun x => x.2.2.2.dg.getD j (0, false))))
  let db := if kind = 0 then
    (List.range d.len).map (fun j => param (d.half 4) j (rs.map (fun x => x.2.2.2.db.getD j (0, false)))) else []
  { writes := rs.flatMap (·.1) ++ (dg ++ db).map (·.1),
    ev := joinAll (readEv (g.getD []) :: rs.map (·.2.1) ++ (dg ++ db).map (·.2.1)),
    err := (g.getD []).any RElem.bad || rs.any (·.2.2.1) || (dg ++ db).any (·.2.2) }

/-! ## Reads (R152, R238) -/

/-- Runs of row r of an operand. -/
def RowDesc.rowRuns (d : RowDesc) (base : Nat) (fmt : BitVec 4) (r : Nat) : List (Nat × Nat) :=
  let es := elemBytes fmt
  if d.layout then
    (List.range (ceilDiv d.len 768)).map (fun sl => (d.at_ base fmt r (768 * sl), min 768 (d.len - 768 * sl) * es))
  else [(d.at_ base fmt r 0, d.len * es)]

/-- The operation reads each input row twice (R152). -/
def RowDesc.twoPass (d : RowDesc) (bwd : Bool) (kind : Nat) : Bool :=
  if bwd then !d.xent kind else kind != 2 || (d.seg == 0 && !d.f 2)

/-- An operand's rows, each once for each pass; the first pass of two carries KEEP. -/
def RowDesc.passes (d : RowDesc) (two : Bool) (base : Nat) (fmt : BitVec 4) : List (Nat × Nat × Nat) :=
  (List.range d.rows).flatMap (fun r =>
    (if two then (d.rowRuns base fmt r).map (fun x => (x.1, x.2, 2)) else []) ++ plainRuns (d.rowRuns base fmt r))

/-- What a FWD or BWD reads, with the statistics at `stat` when it reads them. -/
def RowDesc.plan (d : RowDesc) (bwd : Bool) (kind : Nat) (stat : Option Nat) : ReadPlan :=
  let two := d.twoPass bwd kind
  { streams := [d.passes two d.x d.xf]
      ++ (if bwd && !d.xent kind then [d.passes two d.ydy d.yf] else []),
    others := (if d.gbSpan kind = 0 then [] else [(d.gb, d.gbSpan kind, 0)])
      ++ (match stat with | some a => [(a, 8 * d.rows, 0)] | none => [])
      ++ (if bwd && d.xent kind then [(d.ydy, 4 * d.rows, 0)] else [])
      ++ (if bwd && d.f 2 && d.dgbSpan kind != 0 then [(d.dgb, d.dgbSpan kind, 0)] else []) }

/-- What a row operation of core c reads when it runs. -/
def State.rowPlan (s : State) (c : Nat) (bwd : Bool) (raw : List Byte) (layer mb kind : Nat) : ReadPlan :=
  let d := RowDesc.of raw
  let stat := if bwd || d.needsEntry kind then ((s.core c).rowr.find layer mb kind).map (fun e => e.addr.toNat) else none
  d.plan bwd kind stat

/-! ## Completion -/

def State.modRow (s : State) (c : Nat) (f : RowRegs → RowRegs) : State := s.modCore c (fun k => { k with rowr := f k.rowr })

/-- Where a FWD that creates an entry puts its statistics: freed same-tag entry, then a directory place and, unless
backed, a run of granules (R153, R155). -/
def State.rowCreate (s : State) (c : Nat) (d : RowDesc) (layer mb kind : Nat) (open_ : Bool) : State × Option Nat :=
  let s := if ((s.core c).rowr.find layer mb kind).isSome then
      s.modRow c (fun r => { r with dir := r.dir.filter (fun e => !e.tagged layer mb kind), replaced := satInc r.replaced })
    else s
  let r := (s.core c).rowr
  let addr := if d.statMem then some d.stat else (r.alloc c (ceilDiv d.rows 8)).map (fun g => ctlBase c + 64 * g)
  match r.place, addr with
  | some i, some a =>
    let e : StatEntry :=
      { idx := i, layer := BitVec.ofNat 12 layer, mb := BitVec.ofNat 8 mb, kind := BitVec.ofNat 4 kind, backed := d.statMem,
        open_ := open_, rows := BitVec.ofNat 32 d.rows, addr := BitVec.ofNat 42 a }
    (s.modRow c (fun r => { r with dir := r.dir ++ [e] }), some a)
  | _, _ =>
    let s := s.modRow c (fun r => { r with nospace := satInc r.nospace })
    (s.log (s.coreEvent c 0x03 [(layer, 2), (mb, 1), (kind, 1)]), none)

/-- Results and directory changes of a FWD that completes. -/
def State.runRowFwd (s : State) (c : Nat) (k : KcgSel) (raw : List Byte) (layer mb kind : Nat) : State × OpResult :=
  let d := RowDesc.of raw
  if d.needsEntry kind then
    match (s.core c).rowr.find layer mb kind with
    | some e =>
      let r := rowFwd s.ms k d kind (some e.addr.toNat) (!d.f 2) (d.f 2)
      (if d.seg = 3 then
         s.modRow c (fun q => { q with dir := q.dir.map (fun x => if x.idx = e.idx then { x with open_ := false } else x) })
       else s, r)
    | none => (s, { err := true })
  else
    let p := s.rowCreate c d layer mb kind (kind == 2 && d.seg == 1)
    let r := rowFwd s.ms k d kind p.2 false false
    (p.1, { r with err := r.err || p.2.isNone })

def State.runRowBwd (s : State) (c : Nat) (k : KcgSel) (raw : List Byte) (layer mb kind : Nat) : State × OpResult :=
  let d := RowDesc.of raw
  match (s.core c).rowr.find layer mb kind with
  | some e =>
    let r := rowBwd s.ms k d kind e.addr.toNat
    (if d.f 5 then s else s.modRow c (fun q => { q with dir := q.dir.filter (fun x => x.idx != e.idx) }), r)
  | none => (s, { err := true })

/-- STAT_FREE (R157). -/
def State.runStatFree (s : State) (c layer mb kind : Nat) : State :=
  let hit (e : StatEntry) : Bool := if kind = 15 then e.layer.toNat == layer else e.tagged layer mb kind
  s.modRow c (fun r =>
    if r.dir.any hit then { r with dir := r.dir.filter (fun e => !hit e) } else { r with freeMiss := satInc r.freeMiss })

end Sys2Proof.Machine
end

