-- ==== Sys2Proof/Machine/View.lean ====
section
/-! DEFINITION. Local reads that do not come from HBM or core SRAM: the control windows of the cores and the view of the
heat-cache registers (R154, R227, R251, R78). -/

namespace Sys2Proof.Machine

/-! ## Heat-cache registers (R251) -/

/-- HBM.HC_CTRL. -/
def HcCtrl.reg (h : HcCtrl) : BitVec 64 :=
  pack [(h.en.toNat, 0), (h.thresh.toNat, 8), (h.epoch.toNat, 24), (h.keepDiv.toNat, 40), (b2n h.badWrite, 48)]

/-- HBM.HC_STAT of a die. -/
def HcDie.statReg (d : HcDie) : BitVec 64 :=
  pack [(d.frames.length, 0), (d.borrowed, 12), (d.fills, 24), (d.discards.toNat, 32)]

/-- HBM.HC_COUNT of a die. -/
def HcDie.countReg (d : HcDie) : BitVec 64 :=
  pack [(d.promotions.toNat, 0), (d.evictions.toNat, 24), (d.declined.toNat, 48)]

/-- HBM.PREG. -/
def PRegion.reg (r : PRegion) : BitVec 64 :=
  pack [(r.base.toNat, 0), (r.size.toNat, 16), (b2n r.valid, 32), (b2n r.scratch, 33), (b2n r.nopf, 34)]

/-- Register at HBM-block offset 0x4000 + o, for the registers of R251. -/
def MemSys.hcReg (ms : MemSys) (o : Nat) : Option (BitVec 64) :=
  if o = 0 then some ms.hcCtrl.reg
  else if 0x10 ≤ o ∧ o < 0x30 then some (ms.hc.getD ((o - 0x10) / 8) {}).statReg
  else if 0x40 ≤ o ∧ o < 0x60 then some (ms.hc.getD ((o - 0x40) / 8) {}).countReg
  else if o = 0x80 then some (ms.hcCtrl.ilvMode.setWidth 64)
  else if 0x400 ≤ o ∧ o < 0x800 then
    let p := (o - 0x400) / 128
    let i := (o - 0x400) % 128 / 8
    some (ms.preg.getD (16 * p + i) {}).reg
  else none

/-! ## Control windows -/

/-- A 16-byte directory entry; a place without a valid entry reads as zero (log 159). -/
def Core.dirBytes (k : Core) (i : Nat) : List Byte :=
  match k.rowr.dir.find? (fun e => e.idx == i) with
  | some e => e.bytes
  | none => List.replicate 16 0

/-- Payload of stage e of queue q. -/
def State.stage (s : State) (c q e : Nat) : BitVec 512 :=
  match ((s.core c).queue q).entries[e]? with
  | some m => m.payload
  | none => Config.emptyStage c q e s.now

/-- Byte o of the control window of core c. -/
def State.ctlByte (s : State) (c o : Nat) : Byte :=
  if o < 0x400000 then s.ms.byte (ctlBase c + o)
  else if o < 0x404000 then ((s.core c).dirBytes ((o - 0x400000) / 16)).getD (o % 16) 0
  else if o < 0xC00000 then
    BitVec.ofNat 8 (((s.core c).seq.cc.getD ((o - 0x800000) / 8) 0).toNat / 2 ^ (8 * (o % 8)))
  else BitVec.ofNat 8 ((s.stage c ((o - 0xC00000) / 2048) (o % 2048 / 64)).toNat / 2 ^ (8 * (o % 64)))

/-- One byte of the local address space as a load or a copy reads it. The view of a heat cache's control registers (R227)
clears no RC field (DESIGN CHOICE, log 133). -/
def State.viewByte (s : State) (a : Nat) : Byte :=
  if 0x020000000000 ≤ a ∧ a < 0x020008000000 then s.ctlByte ((a - 0x020000000000) / 0x1000000) (a % 0x1000000)
  else if 0x030000000000 ≤ a then
    let o := a % 0x1000
    BitVec.ofNat 8 (((s.ms.hcReg (o / 8 * 8)).getD 0).toNat / 2 ^ (8 * (o % 8)))
  else s.ms.byte a

/-- n bytes from a upward as a load or a copy reads them. -/
def State.view (s : State) (a n : Nat) : List Byte :=
  if a < 0x020000000000 then s.ms.bytes a n else (List.range n).map (fun i => s.viewByte (a + i))

end Sys2Proof.Machine
end

