-- ==== Sys2Proof/Machine/WaveCode.lean ====
section
/-! DEFINITION. The frame of one wavelength (R290): 2,048 bits, an extended Hamming codeword of 2,016 data bits and 20
control bits, and its PAM4 symbols. A frame is a bit vector whose bit p is position p. -/

namespace Sys2Proof.Machine

/-! ## Positions

The positions between check bits i and i + 1, which are 2^i + 1 to 2^(i+1) - 1, hold 2^i - 1 bits one after the other. -/

/-- First of the 2,036 bits that stands above check bit i. -/
def segFrom (i : Nat) : Nat := 2 ^ i - 1 - i

/-- The 2,036 bits put in their positions, the check bits 0. -/
def spreadBits (x : Nat) : Nat :=
  (List.range 11).foldl (fun w i => w + x / 2 ^ segFrom i % 2 ^ (2 ^ i - 1) * 2 ^ (2 ^ i + 1)) 0

/-- The 2,036 bits taken out of their positions. -/
def gatherBits (w : Nat) : Nat :=
  (List.range 11).foldl (fun x i => x + w / 2 ^ (2 ^ i + 1) % 2 ^ (2 ^ i - 1) * 2 ^ segFrom i) 0

/-! ## Parity -/

/-- Parity of the lowest 2^n bits. -/
def parityOf : Nat → Nat → Nat
  | 0, x => x % 2
  | n + 1, x => parityOf n (x ^^^ (x / 2 ^ 2 ^ n))

/-- The positions whose number has bit i set: every second block of 2^i positions. -/
def checkMask (i : Nat) : Nat := (2 ^ 2 ^ i - 1) * 2 ^ 2 ^ i * ((2 ^ 2048 - 1) / (2 ^ 2 ^ (i + 1) - 1))

/-- Bit i says whether the positions that check bit i covers have odd parity. -/
def hammingSyndrome (w : Nat) : Nat := (List.range 11).foldl (fun a i => a + parityOf 11 (w &&& checkMask i) * 2 ^ i) 0

/-! ## Frames -/

/-- Number of the frame modulo 16, and the 16 lane-control bits of its wavelength (R290, R291). -/
structure WaveControl where
  number : BitVec 4
  lane   : BitVec 16
  deriving DecidableEq, Repr

/-- The frame of 252 data bytes and its control bits. -/
def encodeWave (data : List Byte) (c : WaveControl) : BitVec 2048 :=
  let body := spreadBits (leNat (data.take 252) + (c.number.toNat + 16 * c.lane.toNat) * 2 ^ 2016)
  let syn := hammingSyndrome body
  let w := (List.range 11).foldl (fun w i => w + syn / 2 ^ i % 2 * 2 ^ 2 ^ i) body
  BitVec.ofNat 2048 (w + parityOf 11 w)

/-- What a receiver makes of a frame. -/
structure WaveRead where
  data  : List Byte
  ctl   : WaveControl
  /-- one bit was wrong and is corrected -/
  fixed : Bool
  /-- an even number of bits is wrong -/
  bad   : Bool
  deriving DecidableEq, Repr

def decodeWave (f : BitVec 2048) : WaveRead :=
  let w := f.toNat
  let syn := hammingSyndrome w
  let odd := parityOf 11 w == 1
  let x := gatherBits (if odd then w ^^^ 2 ^ syn else w)
  { data := leBytes 252 (x % 2 ^ 2016)
    ctl := { number := BitVec.ofNat 4 (x / 2 ^ 2016), lane := BitVec.ofNat 16 (x / 2 ^ 2020) }
    fixed := odd
    bad := !odd && syn != 0 }

/-- PAM4 level of symbol i: the even position is the most significant bit, Gray-coded 00, 01, 11, 10 upwards. -/
def pamLevel (f : BitVec 2048) (i : Nat) : Nat :=
  match f.getLsbD (2 * i), f.getLsbD (2 * i + 1) with
  | false, false => 0
  | false, true => 1
  | true, true => 2
  | true, false => 3

/-- The 1,024 symbols of a frame in the order sent. -/
def pamLevels (f : BitVec 2048) : List Nat := (List.range 1024).map (pamLevel f)

/-- The frame that a receiver reads from PAM4 levels. -/
def ofPamLevels (ls : List Nat) : BitVec 2048 :=
  BitVec.ofNat 2048 ((ls.zipIdx.map (fun l => (b2n (decide (2 ≤ l.1)) + 2 * b2n (l.1 == 1 || l.1 == 2)) * 4 ^ l.2)).sum)

end Sys2Proof.Machine
end

