-- ==== Sys2Proof/Machine/FabricOps.lean ====
section
/-! DEFINITION. Packets, routes, fault map, lanes and requests of the light fabric as shared operations
(R299 to R310, R314, R332, R337). The rows of chapters 13 and 14 and the MULE and MSG engines call them. -/

namespace Sys2Proof.Machine

/-! ## Header fields (R300) -/

def Packet.ty (p : Packet) : Nat := fldN p.w0 0 4
def Packet.cls (p : Packet) : Bool := bitB p.w0 4
def Packet.vc (p : Packet) : Nat := fldN p.w0 5 1
def Packet.dir (p : Packet) : BitVec 4 := fld p.w0 6 4
def Packet.len (p : Packet) : Nat := fldN p.w0 10 7
def Packet.dst (p : Packet) : DevId := fld p.w0 17 14
def Packet.srcDev (p : Packet) : DevId := fld p.w0 31 14
def Packet.srcCore (p : Packet) : BitVec 3 := fld p.w0 45 3
def Packet.jobTag (p : Packet) : BitVec 16 := fld p.w0 48 16
def Packet.addr (p : Packet) : Nat := fldN p.w1 0 42
def Packet.tail (p : Packet) : Nat := fldN p.w1 42 6
def Packet.dstCore (p : Packet) : Nat := fldN p.w1 48 3
def Packet.queue (p : Packet) : Nat := fldN p.w1 51 4
def Packet.counter (p : Packet) : Nat := fldN p.w1 55 6
def Packet.err (p : Packet) : Bool := bitB p.w1 61
def Packet.xid (p : Packet) : BitVec 32 := fld p.w2 0 32
def Packet.tag (p : Packet) : BitVec 16 := fld p.w2 32 16
def Packet.status (p : Packet) : Nat := fldN p.w2 32 8
def Packet.full (p : Packet) : Bool := bitB p.w2 40
def Packet.expire (p : Packet) : Nat := fldN p.w2 48 16
def Packet.pcrc (p : Packet) : BitVec 32 := fld p.w3 0 32
def Packet.hops (p : Packet) : Nat := fldN p.w3 32 6
def Packet.poison (p : Packet) : Bool := bitB p.w3 38
def Packet.hcrc (p : Packet) : BitVec 16 := fld p.w3 48 16

/-- The mark under which a packet to be dropped by injection travels: a reserved bit of word 3, since R314 gives the receiver
no other sign (DESIGN CHOICE, log 150). -/
def Packet.dropped (p : Packet) : Bool := bitB p.w3 47

def Packet.header (p : Packet) : List Byte :=
  leBytes 8 p.w0.toNat ++ leBytes 8 p.w1.toNat ++ leBytes 8 p.w2.toNat ++ leBytes 8 p.w3.toNat

def Packet.bytes (p : Packet) : List Byte := p.header ++ p.payload

/-- The packet whose header is the first 32 of the bytes. -/
def Packet.ofBytes (bs : List Byte) : Packet :=
  let w (i : Nat) : BitVec 64 := BitVec.ofNat 64 (leAt bs (8 * i) 8)
  { w0 := w 0, w1 := w 1, w2 := w 2, w3 := w 3, payload := bs.drop 32 }

/-- HCRC over header bytes 0 to 29. -/
def Packet.calcHcrc (p : Packet) : BitVec 16 := crc16 (p.header.take 30)

/-- A header with its HCRC made right. -/
def Packet.sealed (p : Packet) : Packet := { p with w3 := setFld p.w3 48 16 p.calcHcrc.toNat }

def Packet.hcrcOk (p : Packet) : Bool := p.hcrc == p.calcHcrc
def Packet.pcrcOk (p : Packet) : Bool := p.pcrc == crc32 p.payload

/-- Request types use the request pool (R301). -/
def Packet.isRequest (p : Packet) : Bool := [0x1, 0x2, 0x4, 0x5, 0x8].contains p.ty

/-- Credit pool index: 2 x VC + (1 for responses) (R307). -/
def Packet.pool (p : Packet) : Nat := 2 * p.vc + b2n (!p.isRequest)

/-- Credits a packet takes. -/
def Packet.credits (p : Packet) : Nat := 1 + p.len

/-- The packet of the fields: best effort, direction and expiry not yet set, both CRCs right. -/
def PacketFields.build (f : PacketFields) : Packet :=
  Packet.sealed
    { w0 := pack [(f.ty, 0), (f.payload.length / 64, 10), (f.dst.toNat, 17), (f.src.toNat, 31), (f.srcCore, 45),
                  (f.jobTag.toNat, 48)]
      w1 := pack [(f.addr, 0), (f.tail % 64, 42), (f.dstCore, 48), (f.queue, 51), (f.counter, 55), (b2n f.err, 61)]
      w2 := pack [(f.xid.toNat, 0), (f.tag, 32)]
      w3 := pack [((crc32 f.payload).toNat, 0), (b2n f.poison, 38)]
      payload := f.payload }

def Packet.withDir (p : Packet) (d : BitVec 4) : Packet := { p with w0 := setFld p.w0 6 4 d.toNat }.sealed
def Packet.withVc (p : Packet) (v : Nat) : Packet := { p with w0 := setFld p.w0 5 1 v }.sealed
def Packet.withClass (p : Packet) (b : Bool) : Packet := { p with w0 := setFld p.w0 4 1 (b2n b) }.sealed
def Packet.withTag (p : Packet) (g : Nat) : Packet := { p with w2 := setFld p.w2 32 16 g }.sealed

/-- A header field HOPS one higher. -/
def Packet.hopped (p : Packet) : Packet := { p with w3 := setFld p.w3 32 6 (p.hops + 1) }.sealed

/-- EXPIRE 48 units of 1,024 ns after fabric time (R308). -/
def Packet.withExpiry (p : Packet) (now : BitVec 64) : Packet :=
  { p with w2 := setFld p.w2 48 16 (now.toNat / 1024 + 48) }.sealed

/-- A best-effort packet has expired at fabric time `now` (R302). -/
def Packet.expiredAt (p : Packet) (now : BitVec 64) : Bool :=
  let d := (fldN now 10 16 + 65536 - p.expire) % 65536
  !p.cls && decide (1 ≤ d ∧ d ≤ 32767)

/-! ## Coordinates and routes (R299, R303 to R305) -/

/-- Coordinate of a device ID in dimension d. -/
def coordOf (dev d : Nat) : Nat :=
  match d with
  | 0 => dev % 8
  | 1 => dev / 8 % 8
  | 2 => dev / 64 % 12
  | _ => dev / 768

/-- Device ID of coordinates. -/
def devOf (x y z w : Nat) : Nat := x + 8 * (y + 8 * (z + 12 * w))

def FabBlk.size (f : FabBlk) (d : Nat) : Nat := (f.sizes.getD d 0).toNat

/-- The device lies within the torus sizes. -/
def FabBlk.inSizes (f : FabBlk) (dev : Nat) : Bool := (List.range 4).all (fun d => decide (coordOf dev d < f.size d))

def FabBlk.linkBad (f : FabBlk) (dev trunk : Nat) : Bool :=
  f.fmap.any (fun e => e.2.dev.toNat == dev && e.2.trunk.toNat == trunk)

/-- One step along dimension d; `minus` is the direction. -/
def stepCoord (size c : Nat) (minus : Bool) : Nat := if minus then (c + size - 1) % size else (c + 1) % size

/-- Links of the path in dimension d from coordinate c, n hops; the other coordinates are given by `mk`. -/
def pathLinks (size : Nat) (mk : Nat → Nat) (trunk : Nat) (minus : Bool) : Nat → Nat → List (Nat × Nat)
  | 0, _ => []
  | n + 1, c => (mk c, trunk) :: pathLinks size mk trunk minus n (stepCoord size c minus)

/-- Steps in the + direction of dimension d. -/
def FabBlk.delta (f : FabBlk) (src dst d : Nat) : Nat := (coordOf dst d + f.size d - coordOf src d) % f.size d

/-- The minimal direction of dimension d is - (R303); + for a dimension that is skipped. -/
def FabBlk.minimal (f : FabBlk) (src dst d : Nat) : Bool :=
  let δ := f.delta src dst d
  decide (f.size d ≠ 0 ∧ coordOf src d ≠ coordOf dst d) &&
    decide (δ > f.size d - δ ∨ (δ = f.size d - δ ∧ coordOf src d % 2 = 1))

/-- DIR of the minimal route, which scheduled traffic takes whatever the fault map holds (R303, R306, R334). -/
def FabBlk.planned (f : FabBlk) (src dst : Nat) : BitVec 4 :=
  BitVec.ofNat 4 ((List.range 4).map (fun d => b2n (f.minimal src dst d) * 2 ^ d)).sum

/-- Trunk of the first dimension of the minimal route. -/
def FabBlk.plannedTrunk (f : FabBlk) (src dst : Nat) : Option Nat :=
  ((List.range 4).find? (fun d => coordOf src d != coordOf dst d)).map (fun d => 2 * d + b2n (f.minimal src dst d))

/-- Direction of dimension d from src to dst, or `none` when both paths cross a mapped link (R303). -/
def FabBlk.dirOf (f : FabBlk) (src dst d : Nat) : Option Bool :=
  let n := f.size d
  let a := coordOf src d
  if n = 0 ∨ a = coordOf dst d then some false
  else
    let δ := f.delta src dst d
    let minus := f.minimal src dst d
    -- dimensions already routed equal the destination's, those not yet routed the source's
    let co (i c : Nat) : Nat := if i < d then coordOf dst i else if i = d then c else coordOf src i
    let mk (c : Nat) : Nat := devOf (co 0 c) (co 1 c) (co 2 c) (co 3 c)
    let bad (m : Bool) : Bool :=
      (pathLinks n mk (2 * d + b2n m) m (if m then n - δ else δ) a).any (fun l => f.linkBad l.1 l.2)
    if !bad minus then some minus else if !bad (!minus) then some (!minus) else none

/-- DIR of a route, or `none` when a dimension is blocked both ways. -/
def FabBlk.route (f : FabBlk) (src dst : Nat) : Option (BitVec 4) :=
  match f.dirOf src dst 0, f.dirOf src dst 1, f.dirOf src dst 2, f.dirOf src dst 3 with
  | some x, some y, some z, some w => some (BitVec.ofNat 4 (b2n x + 2 * b2n y + 4 * b2n z + 8 * b2n w))
  | _, _, _, _ => none

/-- Trunk on which a packet leaves a module, `none` at its destination (R304). -/
def nextTrunk (here : Nat) (p : Packet) : Option Nat :=
  ((List.range 4).find? (fun d => coordOf here d != coordOf p.dst.toNat d)).map (fun d => 2 * d + b2n (p.dir.getLsbD d))

/-- Virtual channel of the link a packet takes from `here` (R305): VC1 once it crosses or has crossed the dateline of
the dimension it travels. -/
def FabBlk.vcFor (f : FabBlk) (here : Nat) (p : Packet) : Nat :=
  match (List.range 4).find? (fun d => coordOf here d != coordOf p.dst.toNat d) with
  | none => 0
  | some d =>
    let c := coordOf here d
    let s := coordOf p.srcDev.toNat d
    if f.size d = 2 then 1
    else if p.dir.getLsbD d then b2n (decide (c = 0 ∨ c > s)) else b2n (decide (c + 1 = f.size d ∨ c < s))

/-! ## Slots (R331, R332) -/

/-- Tag of lane l of trunk t at fabric time `ft`; 0 before the epoch and while EN is clear. -/
def TimeBlk.tagAt (tb : TimeBlk) (t l : Nat) (ft : Nat) : Nat :=
  if tb.schedEn ∧ tb.schedEpoch ≠ 0 ∧ tb.schedEpoch.toNat ≤ ft then
    let sl := (ft - tb.schedEpoch.toNat) / 128 % (tb.frameM1.toNat + 1)
    fldN (tabGet tb.slots (8192 * t + sl) 0) (16 * l) 16
  else 0

def popcount {n : Nat} (x : BitVec n) : Nat := ((List.range n).filter (fun i => x.getLsbD i)).length

/-- Units of lane time in a ns. -/
def laneUnit : Nat := 33075

/-- Lane time of `n` bytes at width w: 157.5 GB/s at width 8 (R287), which is 1680 / w units for a byte. -/
def laneTime (n w : Nat) : Nat := n * (1680 / max w 1)

/-- FT now in units of lane time. -/
def State.instant (s : State) : Nat := s.now.toNat * laneUnit

/-- Packet bytes on the lane. -/
def Packet.size (p : Packet) : Nat := 32 + 64 * p.len

/-- Wavelengths a lane transmits on, and receives on. -/
def Lane.width (l : Lane) : Nat := popcount l.txMask
def Lane.rxWidth (l : Lane) : Nat := popcount l.rxMask

/-- Every slot of lane k from instant a up to instant `stop` has a tag of the kind. -/
def State.slotsAre (s : State) (k a stop : Nat) (ok : Nat → Bool) : Bool :=
  let slot := 128 * laneUnit
  (List.range (stop / slot - a / slot + 1)).all (fun i =>
    let x := max a ((a / slot + i) * slot)
    x == stop || ok (s.time.tagAt (k / 8) (k % 8) (x / laneUnit)))

/-- End of a packet that starts on lane k at instant a, with the guard of 16 ns (R332). -/
def State.laneStop (s : State) (k a size : Nat) : Nat := a + laneTime size (s.lane k).width + 16 * laneUnit

/-- A best-effort packet that comes at width w may take the lane from instant a: it starts once the lane has sent what it
took before, lasts no shorter than its coming, and every slot that it and its guard touch is tag 0 (R332). -/
def State.laneOpenAt (s : State) (k a w size : Nat) : Bool :=
  let a := max a (s.lane k).busyUntil
  s.slotsAre k a (a + laneTime size (min w (s.lane k).width) + 16 * laneUnit) (· == 0)

/-- A best-effort or TIME packet that is here whole may take the lane now. -/
def State.laneOpen (s : State) (k : Nat) (p : Packet) : Bool := s.laneOpenAt k s.instant 8 p.size

/-! ## Slots for scheduled packets (R332, R334, R335) -/

/-- Tag reserved for scheduled packets: neither 0 nor quiet. -/
def tagFit (g : Nat) : Bool := decide (1 ≤ g ∧ g ≤ 0xFFFE)

/-- A scheduled packet of tag g may start on lane k at instant a: the run of g lasts 16 ns beyond its end. -/
def State.runFits (s : State) (k g a size : Nat) : Bool :=
  tagFit g && s.slotsAre k a (s.laneStop k a size) (· == g)

/-- The lane sends no packet at instant a, or ends one before FT shows another ns; none is being forwarded onto it. -/
def Lane.freeAt (l : Lane) (a : Nat) : Bool := l.cutFrom.isNone && decide (l.busyUntil < a + laneUnit)

/-- Lane k is UP and free now, and can take a packet of tag g. -/
def State.laneTakes (s : State) (k g size : Nat) : Bool :=
  (s.lane k).state == .up && (s.lane k).freeAt s.instant && s.runFits k g (max s.instant (s.lane k).busyUntil) size

/-- A start time before the limit exists on lane k: as soon as it is free, or at a later slot (R334). -/
def State.laneLater (s : State) (k g size limit : Nat) : Bool :=
  let slot := 128 * laneUnit
  let first := max s.instant (s.lane k).busyUntil
  let stop := limit * laneUnit
  (s.lane k).state == .up &&
    ((decide (first < stop) && s.runFits k g first size) ||
      (List.range (min 8193 (ceilDiv stop slot - first / slot))).any (fun i =>
        let x := (first / slot + 1 + i) * slot
        decide (x < stop) && s.runFits k g x size))

/-- EN is set, the epoch has come and the job owns the tables. -/
def State.tableOk (s : State) (tag : BitVec 16) : Bool :=
  s.time.schedEn && s.time.schedEpoch != 0 && decide (s.time.schedEpoch ≤ s.now) && s.time.schedTag == tag

/-- Lane j takes a scheduled packet whose header came in on lane k at instant a (R335). -/
def State.hopTakes (s : State) (k j : Nat) (p : Packet) (a : Nat) : Bool :=
  let l := s.lane j
  l.state == .up && l.freeAt a && decide ((s.lane k).rxWidth ≤ l.width)
    && tagFit p.tag.toNat && s.time.tagAt (j / 8) (j % 8) (a / laneUnit) == p.tag.toNat

/-! ## Fallback records (R337, R338) -/

/-- TIME.SCHED_LAST and the fallback counters. -/
def TimeBlk.noteFallback (t : TimeBlk) (tag trunk core cause : Nat) (transit : Bool) : TimeBlk :=
  { t with
    fallback := if transit then t.fallback else satInc t.fallback
    transitFb := if transit then satInc t.transitFb else t.transitFb
    slTag := BitVec.ofNat 16 tag, slTrunk := BitVec.ofNat 3 trunk, slCore := BitVec.ofNat 3 core
    slCause := BitVec.ofNat 3 cause, slTransit := transit
    slOverwritten := t.slValid || t.slOverwritten, slValid := true }

/-- Bytes in the fallback buffer of receiving lane k (R337). -/
def FabBlk.fallbackBytes (f : FabBlk) (k : Nat) : Nat :=
  (f.waiting.map (fun w => if w.fallback == some k then w.pkt.size else 0)).foldl (· + ·) 0

/-- A scheduled packet that came in on lane k falls back under a cause and waits for trunk t in the best-effort class; one
that finds its fallback buffer full is discarded (R337). -/
def State.transitFalls (s : State) (k t cause : Nat) (p : Packet) : State :=
  if 32768 < s.fab.fallbackBytes k + p.size then s.modTime (fun b => { b with fbDrop := satInc b.fbDrop })
  else
    let s := s.modTime (fun b => b.noteFallback p.tag.toNat t 0 cause true)
    let q := (p.withClass false).withExpiry s.now
    s.modFab (fun f => { f with waiting := f.waiting ++ [⟨t, q.withVc (f.vcFor s.dev.toNat q), none, some k⟩] })

/-! ## The byte stream of a lane (R291 to R293) -/

/-- A fill block and the block that ends a failed packet: headers of types 0x0 and 0xF with their HCRC, whose other
fields are 0 (DESIGN CHOICE, log 113). -/
def blockOf (ty : Nat) : List Byte := (Packet.sealed { w0 := BitVec.ofNat 64 ty, w1 := 0, w2 := 0, w3 := 0, payload := [] }).header
def idleBlock : List Byte := blockOf 0x0
def abortBlock : List Byte := blockOf 0xF

/-- Numbered lane frames of `per` bytes. -/
def framesOf (per : Nat) : Nat → BitVec 16 → List Byte → List RetryFrame
  | 0, _, _ => []
  | n + 1, sq, bs => if bs.length < per then [] else ⟨sq, bs.take per, 0, none⟩ :: framesOf per n (sq + 1) (bs.drop per)

/-- Bytes leave on a lane: its lane frames, 252 bytes for each wavelength in use, are filled up with IDLE blocks, numbered
and kept in the retry buffer, which holds the last 128 KiB. The rest of a fill block begins the next frame. -/
def Lane.emit (l : Lane) (bs : List Byte) : Lane :=
  let per := 252 * max l.width 1
  let all := l.txCarry ++ bs
  let n := ceilDiv all.length per
  let fill := (List.replicate (ceilDiv (n * per - all.length) 32) idleBlock).flatten
  let fs := framesOf per n l.txSeq (all ++ fill)
  let kept := l.retry ++ fs
  { l with txSeq := l.txSeq + BitVec.ofNat 16 n, txCarry := (all ++ fill).drop (n * per),
           retry := kept.drop (kept.length - 131072 / per) }

/-- A packet leaves on the lane; a link corruption strikes the wavelength frame that carries its first byte (R314). -/
def Lane.transmit (l : Lane) (sp : SentPacket) : Lane :=
  let m := { l with sent := l.sent ++ [sp] }.emit sp.pkt.bytes
  if sp.fault.link then
    { m with retry := m.retry.map (fun f => if f.seq == l.txSeq then { f with flips := some (l.txCarry.length / 252) } else f) }
  else m

/-- A frame of λ0 alone leaves on a lane in LISTEN: it is numbered, and nothing of it is kept (R291). -/
def Lane.emitListen (l : Lane) : Lane := { l with txSeq := l.txSeq + 1, listenFrames := l.listenFrames + 1 }

/-- The lane control word a lane sends (R291). -/
def Lane.controlWord (l : Lane) : BitVec 64 :=
  pack [((l.crTotal.getD 0 0).toNat, 0), ((l.crTotal.getD 1 0).toNat, 11), ((l.crTotal.getD 2 0).toNat, 22),
        ((l.crTotal.getD 3 0).toNat, 33), (l.rxSeq.toNat, 44), (b2n l.nak, 60), (b2n l.wakeTx, 61)]

/-- Wavelengths of a mask in ascending order. -/
def wavesOf (m : BitVec 8) : List Nat := (List.range 8).filter m.getLsbD

/-- A wavelength frame with two bits flipped on the fibre (R314). -/
def flipTwo (w : BitVec 2048) (bits : Fin 2048 × Fin 2047) : BitVec 2048 :=
  w ^^^ BitVec.twoPow 2048 bits.1.val ^^^ BitVec.twoPow 2048 ((bits.1.val + 1 + bits.2.val) % 2048)

/-- The wavelength frames of a lane frame: byte b on wavelength b div 252 in use, the lane control word on the four lowest.
A lane in LISTEN sends one on λ0, with WAKE alone. -/
def Lane.waveFrames (l : Lane) (f : RetryFrame) : List (BitVec 2048) :=
  let number : BitVec 4 := f.seq.setWidth 4
  if l.state == .listen then [encodeWave [] ⟨number, BitVec.ofNat 16 (b2n l.wakeTx)⟩]
  else (List.range l.width).map (fun i =>
    let w := encodeWave (slice f.data (252 * i) 252) ⟨number, if i < 4 then fld l.controlWord (16 * i) 16 else 0⟩
    if f.flips = some i then flipTwo w (Config.flippedBits f.seq i) else w)

/-! ## Sending on a lane (R304, R307, R314, R339) -/

/-- A draw of R314: the fault kind strikes packet n of lane k. -/
def FabBlk.strikes (f : FabBlk) (kind k n : Nat) (rate : BitVec 20) : Bool :=
  decide ((kcg f.injSeed (BitVec.ofNat 24 (0x800000 + 64 * kind + k)) (BitVec.ofNat 40 n)).toNat / 4096 < rate.toNat)

/-- Payload bit 0 flipped (R314). -/
def Packet.flipBit (p : Packet) : Packet :=
  match p.payload with
  | b :: r => { p with payload := (b ^^^ 1#8) :: r }
  | [] => p

/-- A packet marked for the receiver to drop (R314; log 150). -/
def Packet.withDrop (p : Packet) : Packet := { p with w3 := setFld p.w3 47 1 1 }.sealed

/-- The faults drawn for the next packet of lane k, each kind for itself: what is sent, and whether it is held (R314). -/
def FabBlk.drawFaults (f : FabBlk) (k : Nat) (p : Packet) : SentPacket × Bool :=
  let l := f.lanes.getD k {}
  let on (kind : Nat) (rate : BitVec 20) : Bool := f.injEn && f.strikes kind k l.injCount rate
  let drop := on 0 l.injDrop
  let corrupt := on 1 l.injCorrupt
  let q := if drop then p.withDrop else p
  ({ pkt := if corrupt && l.corruptKind then q.flipBit else q,
     fault := { drop := drop, link := corrupt && !l.corruptKind, payload := corrupt && l.corruptKind } },
   on 2 l.injReorder)

/-- Lane k carries a packet of `size` bytes that comes at width w from instant a on, or from when it has sent what it took
before. -/
def State.occupyAt (s : State) (k a w size : Nat) : State :=
  s.modLane k (fun l => { l with busyUntil := max a l.busyUntil + laneTime size (min w l.width) })

/-- Lane k carries a packet that is here whole. -/
def State.occupy (s : State) (k a size : Nat) : State := s.occupyAt k a 8 size

/-- A packet leaves on lane k at instant `start`; `none`: the lane has carried it since its header came. -/
def State.putOn (s : State) (k : Nat) (sp : SentPacket) (start : Option Nat) : State :=
  let s := match start with
    | some a => s.occupy k a sp.pkt.size
    | none => s
  s.modLane k (fun l => l.transmit sp)

/-- A TIME packet as its mark leaves: TX_FT and TX_FRAC of now, and the mark kept for its echo (R325). -/
def State.stamp (s : State) (k : Nat) (sp : SentPacket) : State × SentPacket :=
  if sp.pkt.ty = 0xA then
    let body := leBytes 8 s.time.ft.toNat ++ leBytes 2 s.time.frac.toNat ++ sp.pkt.payload.drop 10
    let q := Packet.sealed { sp.pkt with payload := body, w3 := setFld sp.pkt.w3 0 32 (crc32 body).toNat }
    let seq : BitVec 16 := BitVec.ofNat 16 (leAt body 0xA 2)
    (s.modLane k (fun l =>
      { l with marks := l.marks.map (fun m => if m.seq == seq then ⟨seq, s.time.ft, s.time.frac⟩ else m) }),
     { sp with pkt := if sp.fault.payload then q.flipBit else q })
  else (s, sp)

/-- A packet held for reorder injection leaves, once its lane may take it. A scheduled one leaves only if R334 or R335
still allows it; otherwise one of this source is ready again, to leave later or fall back, and one from another module
falls back (R339). -/
def State.sendReordered (s : State) (k : Nat) (h : HeldPacket) : State :=
  let p := h.sp.pkt
  let l := s.lane k
  let open_ := s.time.aligned && s.tableOk p.jobTag
  let stay := s.modLane k (fun l => { l with reorder := l.reorder ++ [{ h with due := true }] })
  match h.from_ with
  | .bestEffort =>
    if l.cutFrom.isNone && s.laneOpen k p && (p.ty != 0xA || l.freeAt s.instant) then
      let r := s.stamp k h.sp
      r.1.putOn k r.2 (some s.instant)
    else stay
  | .source x =>
    if open_ && s.laneTakes k p.tag.toNat p.size && decide (s.now < x.limit) then s.putOn k h.sp (some s.instant)
    else if open_ && s.laneLater k p.tag.toNat p.size x.limit.toNat then stay
    else s.modFab (fun f => { f with sched := f.sched ++ [x] })
  | .transit i =>
    let fits := l.state == .up && decide ((s.lane i).rxWidth ≤ l.width)
    if open_ && fits && !l.freeAt s.instant then stay
    else if open_ && s.hopTakes i k p s.instant then s.putOn k h.sp (some s.instant)
    else
      let cause := if !s.time.aligned then 3 else if !s.tableOk p.jobTag then 4 else if !fits then 1 else 5
      s.transitFalls i (k / 8) cause p

/-- Packets held on lane k leave as they may. -/
def State.releaseHeld (s : State) (k : Nat) (which : HeldPacket → Bool) : State :=
  ((s.lane k).reorder.filter which).foldl (fun s h => s.sendReordered k h)
    (s.modLane k (fun l => { l with reorder := l.reorder.filter (fun h => !which h) }))

/-- A packet sent on lane k from instant `start` on, with fault injection; a best-effort one takes its credits. Packets
held for reordering leave after it. -/
def State.laneSend (s : State) (k : Nat) (p : Packet) (from_ : SchedFrom) (start : Option Nat) : State :=
  let (sp, hold) := s.fab.drawFaults k p
  let s := s.modLane k (fun l =>
    { l with credits := if p.cls then l.credits else vmod l.credits p.pool (fun c => c - p.credits),
             injCount := if s.fab.injEn then l.injCount + 1 else l.injCount })
  if hold then s.modLane k (fun l => { l with reorder := { sp := sp, from_ := from_ } :: l.reorder })
  else (s.putOn k sp start).releaseHeld k (fun _ => true)

def trunkLanes (t : Nat) : List Nat := (List.range 8).map (· + 8 * t)

def State.trunkUp (s : State) (t : Nat) : Bool := (trunkLanes t).any (fun k => (s.lane k).state == .up)
def State.trunkListens (s : State) (t : Nat) : Bool := (trunkLanes t).any (fun k => (s.lane k).state == .listen)

/-- The lane a best-effort packet that comes at width w takes on trunk t from instant a: UP, open, with credits for all of
it; the most credits, lowest lane first (R304). -/
def State.pickLaneAt (s : State) (t : Nat) (p : Packet) (a w : Nat) : Option Nat :=
  ((trunkLanes t).foldl (fun best k =>
    let l := s.lane k
    let cr := l.credits.getD p.pool 0
    if l.state == .up && l.cutFrom.isNone && decide (p.credits ≤ cr) && s.laneOpenAt k a w p.size then
      match best with
      | none => some (k, cr)
      | some b => if b.2 < cr then some (k, cr) else some b
    else best) none).map (·.1)

/-- The lane that a best-effort packet that is here whole takes now. -/
def State.pickLane (s : State) (t : Nat) (p : Packet) : Option Nat := s.pickLaneAt t p s.instant 8

/-- Credits of a received packet returned to the lane it came on (R307). -/
def State.returnCredits (s : State) (inLane : Option (Nat × Nat)) (p : Packet) : State :=
  match inLane with
  | some (k, vc) =>
    let i := 2 * vc + b2n (!p.isRequest)
    let n := BitVec.ofNat 11 p.credits
    s.modLane k (fun l => { l with crTotal := vmod l.crTotal i (fun t => t + n) })
  | none => s

/-- A best-effort packet queued for trunk t leaves on a lane that can take it, else waits at this hop. A LISTEN lane is
asked to wake (R296). -/
def State.queueTrunk (s : State) (t : Nat) (p : Packet) (inLane : Option (Nat × Nat)) (fb : Option Nat) : State :=
  match s.pickLane t p with
  | some k => (s.laneSend k p .bestEffort (some s.instant)).returnCredits inLane p
  | none =>
    let s := (trunkLanes t).foldl (fun s k => if (s.lane k).state == .listen then s.modLane k (fun l => { l with wakeTx := true }) else s) s
    s.modFab (fun f => { f with waiting := f.waiting ++ [⟨t, p, inLane, fb⟩] })

/-- Waiting packets of trunk t are offered to its lanes again, in order. -/
def State.pumpTrunk (s : State) (t : Nat) : State :=
  let mine := s.fab.waiting.filter (fun w => w.trunk == t)
  let s := s.modFab (fun f => { f with waiting := f.waiting.filter (fun w => w.trunk != t) })
  mine.foldl (fun s w => s.queueTrunk t w.pkt w.inLane w.fallback) s

/-! ## Fault map (R306) -/

def FabBlk.fmapIndexOf (f : FabBlk) (dev : DevId) (trunk : Nat) : Option Nat :=
  (f.fmap.find? (fun e => e.2.dev == dev && e.2.trunk.toNat == trunk)).map (·.1)

/-- A link entered by a notice (src 0) or an UNREACH (src 1): lowest free index, OVF when there is none. -/
def FabBlk.enterLink (f : FabBlk) (dev : DevId) (trunk src : Nat) : FabBlk :=
  match f.fmapIndexOf dev trunk with
  | some _ => f
  | none => match (List.range 64).find? (fun i => !(f.fmap.any (fun e => e.1 == i))) with
    | some i => { f with fmap := tabSet f.fmap i ⟨dev, BitVec.ofNat 3 trunk, BitVec.ofNat 2 src⟩ }
    | none => { f with fmapOvf := true }

/-- A return notice removes its link at whatever index it holds. -/
def FabBlk.removeLink (f : FabBlk) (dev : DevId) (trunk : Nat) : FabBlk :=
  { f with fmap := f.fmap.filter (fun e => !(e.2.dev == dev && e.2.trunk.toNat == trunk)) }

/-! ## Requests and responses (R308, R309) -/

/-- Requests of this module that have no answer (R308). -/
def State.outstanding (s : State) : Nat := s.fab.out.length

/-- The copy or message that waits for a request is told of an error of one of its packets (R309). -/
def State.ownerDone (s : State) (o : ReqOwner) (err : Bool) : State :=
  match o with
  | .copy c m id =>
    s.modCore c (fun k => k.modEng (muleUnit m) (fun e => e.modRunning id (fun r =>
      { r with outstanding := r.outstanding - 1, err := r.err || err })))
  | _ => s

/-- Final failure of a request (R308): counted, and its copy completes with ERR. A SEND leaves it to R39: a status may
still come. -/
def State.failReq (s : State) (r : OutReq) : State :=
  let s := s.modFab (fun f => { f with failed := satInc f.failed, out := f.out.filter (fun q => q.xid != r.xid) })
  match r.owner with
  | .msg c id => s.modFab (fun f => { f with failedMsgs := f.failedMsgs ++ [(r.xid, c, id)] })
  | o => s.ownerDone o true

/-- A request is kept as unanswered. -/
def State.keepReq (s : State) (r : OutReq) : State :=
  s.modFab (fun f => { f with out := f.out.filter (fun q => q.xid != r.xid) ++ [r] })

/-- A packet of the scheduled owner was resent: the operation is late (R338). -/
def State.markResent (s : State) (o : ReqOwner) : State :=
  match o with
  | .copy c m id =>
    s.modCore c (fun k => k.modEng (muleUnit m) (fun e => e.modRunning id (fun r => { r with resent := true })))
  | .msg c id =>
    s.modCore c (fun k => k.modMsg (fun q =>
      { q with sends := q.sends.map (fun p => if p.id = id then { p with resent := true } else p) }))
  | _ => s

/-- Source hint of the copy that a request belongs to, which its reads carry (R238). -/
def State.ownerHint (s : State) (o : ReqOwner) : Nat :=
  match o with
  | .copy c m id => match ((s.core c).eng (muleUnit m)).running.find? (fun r => r.q.id == id) with
    | some r => leAt r.desc 0x20 4 / 4 % 4
    | none => 0
  | _ => 0

/-- A resend reads its data again: the reads it makes (R308, R260). -/
def State.noteReload (s : State) (r : OutReq) : State :=
  match r.src with
  | some (a, n) => s.noteReads a n (s.ownerHint r.owner)
  | none => s

/-- The payload data of a request read again from its source, POISON as that read finds it (R308, R312). -/
def State.reload (s : State) (r : OutReq) : Packet :=
  match r.src with
  | none => r.pkt
  | some (a, n) =>
    let lead := match r.pkt.ty with | 0x1 => r.pkt.addr % 64 | _ => 0
    let body := slice (List.replicate lead 0 ++ s.view a n) 0 (64 * r.pkt.len)
    let bad := s.ms.badRange a n
    { r.pkt with payload := body,
                 w3 := setFld (setFld r.pkt.w3 0 32 (crc32 body).toNat) 38 1 (b2n bad) }.sealed

/-- A request leaves this module in the best-effort class, is kept as unanswered, or fails. A trunk without an UP or
LISTEN lane is an UNREACH of this module's own link, which is entered and the request resent at once; `n` bounds the
resends (R303, R306, R308). -/
def State.sendReq : Nat → State → OutReq → State
  | 0, s, r => s.failReq r
  | n + 1, s, r =>
    match s.fab.route s.dev.toNat r.pkt.dst.toNat with
    | none => (s.modFab (fun f => { f with unreach := satInc f.unreach })).failReq r
    | some d =>
      let p := (((s.reload r).withClass false).withDir d).withExpiry s.now
      match nextTrunk s.dev.toNat p with
      | none => s.failReq r
      | some t =>
        let p := p.withVc (s.fab.vcFor s.dev.toNat p)
        let r := { r with pkt := p }
        if s.trunkUp t ∨ s.trunkListens t then (s.keepReq r).queueTrunk t p none none
        else
          let s := s.modFab (fun f => { f with unreach := satInc f.unreach }.enterLink s.dev t 1)
          if r.resends ≥ 7 then s.failReq r
          else
            let s := ((s.modFab (fun f => { f with retx := satInc f.retx })).markResent r.owner).noteReload r
            State.sendReq n s { r with resends := r.resends + 1 }

/-- A request resent: 7 resends at most, then the final failure (R308). -/
def State.resend (s : State) (r : OutReq) : State :=
  if r.resends ≥ 7 then s.failReq r
  else
    let s := ((s.modFab (fun f => { f with retx := satInc f.retx })).markResent r.owner).noteReload r
    s.sendReq 9 { r with resends := r.resends + 1 }

/-- A new request under the next XID. -/
def State.newReq (s : State) (f : PacketFields) (owner : ReqOwner) (src : Option (Nat × Nat)) : State :=
  let x := s.fab.nextXid
  let s := s.modFab (fun b => { b with nextXid := b.nextXid + 1 })
  s.sendReq 9 { xid := x, pkt := { f with xid := x }.build, owner := owner, src := src }

/-- A response or CREDIT leaves this module: neither kept nor resent; without a route it is discarded, and a trunk of this
module without an UP lane is entered (R303, R306). -/
def State.sendResp (s : State) (p : Packet) : State :=
  let drop := s.modFab (fun f => { f with unreach := satInc f.unreach })
  match s.fab.route s.dev.toNat p.dst.toNat with
  | none => drop
  | some d =>
    let p := ((p.withClass false).withDir d).withExpiry s.now
    match nextTrunk s.dev.toNat p with
    | none => s
    | some t =>
      let p := p.withVc (s.fab.vcFor s.dev.toNat p)
      if s.trunkUp t ∨ s.trunkListens t then s.queueTrunk t p none none
      else drop.modFab (fun f => f.enterLink s.dev t 1)

/-- The ACK of a request (R309). -/
def State.sendAck (s : State) (p : Packet) (status : Nat) (full : Bool) : State :=
  s.sendResp (PacketFields.build
    { ty := 0x6, dst := p.srcDev, src := s.dev, srcCore := p.srcCore.toNat, jobTag := p.jobTag, dstCore := p.dstCore,
      queue := p.queue, xid := p.xid, tag := status + 256 * b2n full })

/-- The ACK UNREACH of a hop, naming its link in ADDR (R306). -/
def State.sendUnreach (s : State) (p : Packet) (t : Nat) : State :=
  s.sendResp (PacketFields.build
    { ty := 0x6, dst := p.srcDev, src := s.dev, srcCore := p.srcCore.toNat, jobTag := p.jobTag,
      addr := s.dev.toNat + 16384 * t, xid := p.xid, tag := 4 })

/-! ## Late operations (R338) -/

/-- A late scheduled operation is counted and recorded within the core's budget (R338). -/
def State.noteLateOp (s : State) (c tag trunk cause packets : Nat) : State :=
  let s := s.modTime (fun t => { t with lateOps := satInc t.lateOps })
  let e := s.coreEvent c 0x04 [(tag, 2), (trunk, 1), (c, 1), (cause, 1), (packets, 4)]
  s.logBudget c { e with source := 0x03 }

end Sys2Proof.Machine
end

