-- ==== Sys2Proof/Machine/Att.lean ====
section
/-! DEFINITION. The attention pipeline: sequence slots, page tables, FWD, BWD, APPEND and BUCKET (R69, R161 to R183). -/

namespace Sys2Proof.Machine

/-! ## Slots (R161, R165) -/

def AttSlot.d (t : AttSlot) : Nat := 64 * 2 ^ t.dcode.toNat
/-- Keys of a span. -/
def AttSlot.span (t : AttSlot) : Nat := 65536 / t.d
def AttSlot.fmt (t : AttSlot) : BitVec 4 := BitVec.ofNat 4 t.kvFmt.toNat
def AttSlot.e (t : AttSlot) : Nat := elemBytes t.fmt
/-- Bytes of one K or V page of a head. -/
def AttSlot.pageBytes (t : AttSlot) : Nat := 256 * t.d * t.e

def State.slot (s : State) (c i : Nat) : AttSlot := (s.core c).attr.slots.getD i {}
def State.modAtt (s : State) (c : Nat) (f : AttRegs → AttRegs) : State := s.modCore c (fun k => { k with attr := f k.attr })

/-- A SLOT_SET descriptor: its slot state when every field is in range. -/
def slotOf (raw : List Byte) : Option AttSlot :=
  let t : AttSlot :=
    { valid := true, table := BitVec.ofNat 42 (leAt raw 0 8), len := BitVec.ofNat 21 (leAt raw 8 4),
      entries := BitVec.ofNat 13 (leAt raw 0xC 2), dcode := BitVec.ofNat 8 (leAt raw 0xE 1),
      kvFmt := BitVec.ofNat 8 (leAt raw 0xF 1), pitch := BitVec.ofNat 32 (leAt raw 0x10 4),
      kvHeads := BitVec.ofNat 8 (leAt raw 0x14 1) }
  let ok :=
    decide (leAt raw 0 8 < 2 ^ 42 ∧ leAt raw 0 8 % 64 = 0 ∧ leAt raw 8 4 ≤ 1048576
      ∧ 1 ≤ leAt raw 0xC 2 ∧ leAt raw 0xC 2 ≤ 4096 ∧ leAt raw 8 4 ≤ leAt raw 0xC 2 * 256 ∧ leAt raw 0xE 1 ≤ 2)
    && [0, 1, 3, 4].contains (leAt raw 0xF 1)
    && decide (leAt raw 0x10 4 % 4096 = 0 ∧ 512 * t.d * t.e ≤ leAt raw 0x10 4 ∧ 1 ≤ leAt raw 0x14 1
      ∧ leAt raw 0x14 1 ≤ 16)
    && allZero (slice raw 0x15 43)
  if ok then some t else none

/-! ## Page tables (R163, R164) -/

structure PageEntry where
  base   : Nat
  fill   : Nat
  kScale : Nat
  vScale : Nat
  deriving DecidableEq, Repr

/-- Entry i of a slot's table, or the kind of its fault (R164, R183). An entry whose granule is uncorrectable counts as
not VALID. Only BASE is judged by its place; a page set that runs past the partition's regions is read and written where
it lies (DESIGN CHOICE, log 107). -/
def State.pageEntry (s : State) (c : Nat) (t : AttSlot) (i : Nat) : PageEntry ⊕ Nat :=
  let a := t.table.toNat + 16 * i
  let w := s.ms.le a 8
  let e : PageEntry := { base := w % 2 ^ 42 / 4096 * 4096, fill := w / 2 % 512, kScale := a + 8, vScale := a + 12 }
  let need := min 256 (t.len.toNat - 256 * i)
  if s.ms.badRange a 16 || w % 2 == 0 then .inr 1
  else if e.fill < need then .inr 2
  else if !s.placeOk c .hbm e.base 1 then .inr 3
  else if w / 1024 % 4 != 0 || w / 2 ^ 42 != 0 then .inr 4
  else .inl e

/-- First fault among entries, in ascending order: entry, kind. -/
def State.firstFault (s : State) (c : Nat) (t : AttSlot) (is : List Nat) : Option (Nat × Nat) :=
  firstSome (fun i => match s.pageEntry c t i with
    | .inr k => some (i, k)
    | .inl _ => none) is

/-- CORE.ATT_FAULT takes a fault (R183). -/
def AttRegs.fault (r : AttRegs) (page slot kind : Nat) : AttRegs :=
  { r with faultPage := BitVec.ofNat 12 page, faultSlot := BitVec.ofNat 4 slot, faultKind := BitVec.ofNat 3 kind,
           faultValid := true, faultCount := satInc r.faultCount }

def PageEntry.at_ (e : PageEntry) (t : AttSlot) (v : Bool) (head pos : Nat) : Nat :=
  e.base + head * t.pitch.toNat + (if v then t.pageBytes else 0) + pos % 256 * (t.d * t.e)

/-! ## FWD and BWD descriptors (R170, R176) -/

structure AttDesc where
  q      : Nat
  o      : Nat
  lse    : Nat
  ws     : Nat
  tok    : Nat
  slice_ : Nat
  qt     : Nat
  qf     : BitVec 4
  of_    : BitVec 4
  pos0   : Nat
  scale  : BitVec 32
  window : Nat
  spFirst : Nat
  spCount : Nat
  hps    : Nat
  h0     : Nat
  g      : Nat
  kvh    : Nat
  flags  : Nat
  do_    : Nat
  dq     : Nat
  dk     : Nat
  dv     : Nat
  deriving DecidableEq, Repr

def AttDesc.of (d : List Byte) : AttDesc :=
  let qf := leAt d 0x28 4
  { q := leAt d 0 8, o := leAt d 8 8, lse := leAt d 0x10 8, ws := leAt d 0x18 8, tok := leAt d 0x20 4,
    slice_ := leAt d 0x24 4, qt := qf % 2 ^ 17, qf := BitVec.ofNat 4 (qf / 2 ^ 20), of_ := BitVec.ofNat 4 (qf / 2 ^ 24),
    pos0 := leAt d 0x2C 4, scale := BitVec.ofNat 32 (leAt d 0x30 4), window := leAt d 0x34 4, spFirst := leAt d 0x38 2,
    spCount := leAt d 0x3A 2, hps := leAt d 0x3C 1, h0 := leAt d 0x3D 1, g := leAt d 0x3E 1 % 16 + 1,
    kvh := leAt d 0x3E 1 / 16, flags := leAt d 0x3F 1, do_ := leAt d 0x40 8, dq := leAt d 0x48 8, dk := leAt d 0x50 8,
    dv := leAt d 0x58 8 }

def AttDesc.causal (d : AttDesc) : Bool := d.flags.testBit 0
def AttDesc.cont (d : AttDesc) : Bool := d.flags.testBit 1
def AttDesc.final (d : AttDesc) : Bool := d.flags.testBit 2
def AttDesc.sr (d : AttDesc) : Bool := d.flags.testBit 3
def AttDesc.rows (d : AttDesc) : Nat := d.g * d.qt

/-- Offset of a placement (R168): token t, placement index h, element 0. -/
def placeAt (hps sl tok headBytes t h : Nat) : Nat := h / max hps 1 * sl + t * tok + h % max hps 1 * headBytes

/-- Address of row r of a placement: every operand has the offsets of Q (R170). -/
def AttDesc.rowAt (d : AttDesc) (dim base : Nat) (r : Nat) : Nat :=
  base + placeAt d.hps d.slice_ d.tok (dim * elemBytes d.qf) (r / d.g) (d.h0 + d.kvh * d.g + r % d.g)

/-- Byte runs of a placement, one per row. -/
def AttDesc.runs (d : AttDesc) (dim base : Nat) (fmt : BitVec 4) : List (Nat × Nat) :=
  (List.range d.rows).map (fun r => (d.rowAt dim base r, dim * elemBytes fmt))

/-- Smallest range that holds a placement: from the first and last tokens of each head. -/
def AttDesc.hullOf (d : AttDesc) (dim base : Nat) (fmt : BitVec 4) : List (Nat × Nat) :=
  if d.qt = 0 then []
  else (List.range d.g).flatMap (fun h =>
    [(d.rowAt dim base h, dim * elemBytes fmt), (d.rowAt dim base ((d.qt - 1) * d.g + h), dim * elemBytes fmt)])

def AttDesc.wsBytes (d : AttDesc) (dim : Nat) : Nat := d.rows * (4 * dim + 64)
def AttDesc.lseBytes (d : AttDesc) : Nat := 4 * d.rows

/-- Lowest and highest key position some query of the instruction sees (R171); `none` when there is none. -/
def AttDesc.seen (d : AttDesc) (len : Nat) : Nat × Nat :=
  (if d.window = 0 then 0 else d.pos0 + 1 - d.window,
   if d.causal then min len (d.pos0 + d.qt) else len)

/-- Needed spans [lo, hi) (R171). -/
def AttDesc.needed (d : AttDesc) (t : AttSlot) : Nat × Nat :=
  let hi := if d.causal then d.pos0 + d.qt else t.len.toNat
  ((if d.window = 0 then 0 else d.pos0 + 1 - d.window) / t.span, ceilDiv hi t.span)

/-- Spans the instruction processes, ascending. -/
def AttDesc.spans (d : AttDesc) (t : AttSlot) : List Nat :=
  let (lo, hi) := d.needed t
  let stop := if d.spCount = 0 then hi else min hi (d.spFirst + d.spCount)
  (List.range (stop - max lo d.spFirst)).map (· + max lo d.spFirst)

/-- Page-table entries a span needs (R164). -/
def AttDesc.entriesOf (d : AttDesc) (t : AttSlot) (n : Nat) : List Nat :=
  let (lo, hi) := d.seen t.len.toNat
  let a := max lo (n * t.span)
  let b := min hi ((n + 1) * t.span)
  if a < b then (List.range ((b - 1) / 256 - a / 256 + 1)).map (· + a / 256) else []

/-- Key position k is not masked for query position q (R171). -/
def AttDesc.live (d : AttDesc) (len q k : Nat) : Bool :=
  decide (k < len) && (!d.causal || decide (k ≤ q)) && (d.window == 0 || decide (q < k + d.window))

/-! ## Issue (R181) -/

def State.issueAttRun (s : State) (c : Nat) (w : Word128) (bwd : Bool) : IssueRes :=
  let e := s.operand c w 0
  let slot := w.body 24 4
  let n := if bwd then 128 else 64
  let t := s.slot c slot
  let d := AttDesc.of (s.ms.bytes e.nat n)
  let dim := t.d
  let m (p : Nat × Nat) : Nat × Nat := (mask42 p.1, p.2)
  let q := (d.hullOf dim d.q d.qf).map m
  let o := (d.hullOf dim d.o d.of_).map m
  let kv (b : Nat) : List (Nat × Nat) := match d.spans t with
    | [] => []
    | f :: r => let last := r.getLastD f
                let lo := f * t.span
                [(mask42 b + lo * 4 * dim, (min t.len.toNat ((last + 1) * t.span) - lo) * 4 * dim)]
  { cause := lowestOf (s.operandCauses c e 64 .ownSram n),
    op := .att w.opcode e.nat slot,
    claims :=
      if bwd then
        [.hull ((e.nat, n) :: q ++ o ++ (d.hullOf dim d.do_ d.of_).map m ++ [(mask42 d.lse, d.lseBytes)]) false,
         .hull ((d.hullOf dim d.dq d.qf).map m) true, .hull (kv d.dk ++ kv d.dv) true, .wr (mask42 d.ws) (d.wsBytes dim)]
      else
        [.hull ((e.nat, n) :: q) false, .hull o true, .wr (mask42 d.lse) d.lseBytes, .wr (mask42 d.ws) (d.wsBytes dim)] }

/-! ## APPEND descriptor (R168) -/

structure AppendDesc where
  k      : Nat
  v      : Nat
  tok    : Nat
  slice_ : Nat
  t      : Nat
  hps    : Nat
  kh0    : Nat
  vh0    : Nat
  flags  : Nat
  deriving DecidableEq, Repr

def AppendDesc.of (d : List Byte) : AppendDesc :=
  { k := leAt d 0 8, v := leAt d 8 8, tok := leAt d 0x10 4, slice_ := leAt d 0x14 4, t := leAt d 0x18 4,
    hps := leAt d 0x1C 1, kh0 := leAt d 0x1D 1, vh0 := leAt d 0x1E 1, flags := leAt d 0x1F 1 }

def AppendDesc.fmt (d : AppendDesc) : BitVec 4 := BitVec.ofNat 4 d.flags

/-- Address of token i, head index h of a placement. -/
def AppendDesc.at_ (d : AppendDesc) (base dim i h : Nat) : Nat :=
  base + placeAt d.hps d.slice_ d.tok (dim * elemBytes d.fmt) i h

/-- First and last runs of every head: hull of a placement. -/
def AppendDesc.hullOf (d : AppendDesc) (base dim h0 heads : Nat) : List (Nat × Nat) :=
  if d.t = 0 then []
  else (List.range heads).flatMap (fun j =>
    [(d.at_ base dim 0 (h0 + j), dim * elemBytes d.fmt), (d.at_ base dim (d.t - 1) (h0 + j), dim * elemBytes d.fmt)])

def State.issueAppend (s : State) (c : Nat) (w : Word128) : IssueRes :=
  let e := s.operand c w 0
  let slot := w.body 24 4
  let t := s.slot c slot
  let d := AppendDesc.of (s.ms.bytes e.nat 64)
  let hs := t.kvHeads.toNat
  { cause := lowestOf (s.operandCauses c e 64 .engine 64),
    op := .att w.opcode e.nat slot,
    claims := [.hull ((e.nat, 64) :: d.hullOf (mask42 d.k) t.d d.kh0 hs ++ d.hullOf (mask42 d.v) t.d d.vh0 hs) false] }

def State.issueSlotSet (s : State) (c : Nat) (w : Word128) : IssueRes :=
  let e := s.operand c w 0
  { cause := lowestOf (s.operandCauses c e 64 .engine 64), op := .att w.opcode e.nat (w.body 24 4), claims := [.rd e.nat 64] }

def issueSlotClr (w : Word128) : IssueRes := { cause := 0, op := .att w.opcode 0 (w.body 24 4), claims := [] }

/-! ## BUCKET (R182) -/

structure BucketDesc where
  lens  : Nat
  bnds  : Nat
  out   : Nat
  summ  : Nat
  order : Nat
  n     : Nat
  nb    : Nat
  deriving DecidableEq, Repr

def BucketDesc.of (d : List Byte) : BucketDesc :=
  { lens := leAt d 0 8, bnds := leAt d 8 8, out := leAt d 0x10 8, summ := leAt d 0x18 8, order := leAt d 0x20 8,
    n := leAt d 0x28 4, nb := leAt d 0x2C 1 }

/-- Input ranges and output ranges. -/
def BucketDesc.ins (d : BucketDesc) : List (Nat × Nat) := [(d.lens, 4 * d.n), (d.bnds, 4 * d.nb)]
def BucketDesc.outs (d : BucketDesc) : List (Nat × Nat) :=
  [(d.out, 4 * d.n), (d.summ, 16 * (d.nb + 1))] ++ (if d.order = 0 then [] else [(d.order, 4 * d.n)])

def State.issueBucket (s : State) (c : Nat) (w : Word128) : IssueRes :=
  let e := s.operand c w 0
  let d := BucketDesc.of (s.ms.bytes e.nat 64)
  let m (p : Nat × Nat) : Nat × Nat := (mask42 p.1, p.2)
  { cause := lowestOf (s.operandCauses c e 64 .ownSram 64),
    op := .att w.opcode e.nat 0,
    claims := [.hull ((e.nat, 64) :: d.ins.map m) false, .hull (d.outs.map m) true] }

/-- n u32 values at an address; one whose granule is uncorrectable has a value nobody states (R182, R260, log 108). -/
def words32 (ms : MemSys) (a n : Nat) : List Nat :=
  (List.range n).map (fun i =>
    let p := a + 4 * i
    if ms.badRange p 4 then (Config.unreadWord p).toNat else ms.le p 4)

/-- Bounds are multiples of 256, strictly ascending, at most 1,048,576. -/
def boundsOk : Nat → List Nat → Bool
  | _, [] => true
  | prev, b :: r => decide (b % 256 = 0 ∧ prev < b ∧ b ≤ 1048576) && boundsOk b r

def firstBound : List Nat → Bool
  | [] => true
  | b :: r => decide (b % 256 = 0 ∧ b ≤ 1048576) && boundsOk b r

def State.checkBucket (s : State) (c desc : Nat) : Nat :=
  let raw := s.ms.bytes desc 64
  let d := BucketDesc.of raw
  let bad :=
    s.ms.badRange desc 64 || !decide (1 ≤ d.n ∧ d.n ≤ 65536) || !decide (1 ≤ d.nb ∧ d.nb ≤ 16)
    || !allZero (slice raw 0x2D 19)
    || (d.ins ++ d.outs).any (fun r => decide (2 ^ 42 ≤ r.1) || !s.placeOk c .engine r.1 r.2)
    || (words32 s.ms d.lens d.n).any (fun l => decide (1048576 < l)) || !firstBound (words32 s.ms d.bnds d.nb)
    || d.outs.any (fun o => d.ins.any (fun i => overlaps o.1 o.2 i.1 i.2))
  if bad then 0x17 else 0

def bucketRun (ms : MemSys) (raw : List Byte) : OpResult :=
  let d := BucketDesc.of raw
  let bnds := words32 ms d.bnds d.nb
  let pages := (words32 ms d.lens d.n).map (fun l => ceilDiv l 256)
  let bucket (p : Nat) : Nat := (bnds.findIdx? (fun b => decide (p * 256 ≤ b))).getD d.nb
  let bs := pages.map bucket
  let count (b : Nat) : Nat := (bs.filter (· == b)).length
  let total (b : Nat) : Nat := ((bs.zip pages).filter (fun x => x.1 == b)).foldl (fun a x => a + x.2) 0
  let first (b : Nat) : Nat := ((List.range b).map count).foldl (· + ·) 0
  let order := (List.range (d.nb + 1)).flatMap (fun b => (List.range d.n).filter (fun i => bs.getD i 0 == b))
  { writes := [(d.out, (pages.zip bs).flatMap (fun x => leBytes 4 (x.1 + 65536 * x.2))),
               (d.summ, (List.range (d.nb + 1)).flatMap (fun b =>
                 leBytes 4 (count b) ++ leBytes 4 (total b) ++ leBytes 4 (first b) ++ leBytes 4 0))]
      ++ (if d.order = 0 then [] else [(d.order, order.flatMap (leBytes 4))]),
    err := d.ins.any (fun r => ms.badRange r.1 r.2) }

/-! ## Checks at the start (R168, R174, R176) -/

def anyHit (as_ bs : List (Nat × Nat)) : Bool := as_.any (fun a => bs.any (fun b => overlaps a.1 a.2 b.1 b.2))

/-- Two of several operands overlap. -/
def pairHits : List (List (Nat × Nat)) → Bool
  | [] => false
  | a :: r => r.any (anyHit a) || pairHits r

/-- DK or DV bytes of the processed spans below LEN. -/
def AttDesc.kvRuns (d : AttDesc) (t : AttSlot) (base : Nat) : List (Nat × Nat) :=
  (d.spans t).map (fun n => (base + n * t.span * 4 * t.d, (min t.len.toNat ((n + 1) * t.span) - n * t.span) * 4 * t.d))

def State.checkAttRun (s : State) (c : Nat) (bwd : Bool) (desc slot : Nat) : Nat :=
  let n := if bwd then 128 else 64
  let raw := s.ms.bytes desc n
  let t := s.slot c slot
  let d := AttDesc.of raw
  let dim := t.d
  let (_, hi) := d.needed t
  let qr := d.runs dim d.q d.qf
  let or_ := d.runs dim d.o d.of_
  let lse := [(d.lse, d.lseBytes)]
  let ws := [(d.ws, d.wsBytes dim)]
  let dsc := [(desc, n)]
  let dor := d.runs dim d.do_ d.of_
  let dqr := d.runs dim d.dq d.qf
  let dkr := d.kvRuns t d.dk
  let dvr := d.kvRuns t d.dv
  let outside (rs : List (Nat × Nat)) : Bool := rs.any (fun r => r.2 != 0 && !s.placeOk c .engine r.1 r.2)
  let bad :=
    s.ms.badRange desc n
    || ([d.q, d.o, d.lse, d.ws] ++ (if bwd then [d.do_, d.dq, d.dk, d.dv] else [])).any (fun a => decide (2 ^ 42 ≤ a))
    || d.tok % 64 != 0 || d.slice_ % 64 != 0 || !decide (1 ≤ d.qt ∧ d.qt ≤ 65536)
    || decide (1 < d.qf.toNat) || decide (2 < d.of_.toNat) || leAt raw 0x28 4 / 2 ^ 17 % 8 != 0
    || leAt raw 0x28 4 / 2 ^ 28 != 0 || decide (1048576 < d.window) || !decide (1 ≤ d.hps ∧ d.hps ≤ 16)
    || decide (15 < d.flags) || (bwd && !allZero (slice raw 0x60 32))
    || decide (131072 < d.rows) || decide (t.kvHeads.toNat ≤ d.kvh) || decide (d.tok < d.hps * dim * elemBytes d.qf)
    || ((d.qf == 1) != (t.fmt == 1)) || (d.sr && (if bwd then d.qf else d.of_) == 2)
    || ((d.causal || d.window != 0) && decide (t.len.toNat < d.pos0 + d.qt))
    || decide (hi ≤ d.spFirst)
    || !s.placeOk c .ownSram d.ws (d.wsBytes dim) || outside qr || outside or_ || outside lse
    || pairHits [ws, or_, lse] || [ws, or_, lse].any (fun x => anyHit x (dsc ++ qr))
    || (bwd && (outside dor || outside dqr || outside dkr || outside dvr
        || pairHits [dqr, dkr, dvr, ws]
        || [dqr, dkr, dvr, ws].any (fun x => anyHit x (dsc ++ qr ++ or_ ++ dor ++ lse))))
  lowestOf [(0x15, !t.valid), (0x17, t.valid && bad)]

def State.checkAppend (s : State) (c desc slot : Nat) : Nat :=
  let raw := s.ms.bytes desc 64
  let t := s.slot c slot
  let d := AppendDesc.of raw
  let hs := t.kvHeads.toNat
  let run (base h0 : Nat) : Bool := (List.range d.t).any (fun i => (List.range hs).any (fun j =>
    !s.placeOk c .engine (d.at_ base t.d i (h0 + j)) (t.d * elemBytes d.fmt)))
  let bad :=
    s.ms.badRange desc 64 || decide (2 ^ 42 ≤ d.k) || decide (2 ^ 42 ≤ d.v) || d.tok % 64 != 0 || d.slice_ % 64 != 0
    || !decide (1 ≤ d.t ∧ d.t ≤ 1048576) || !decide (1 ≤ d.hps ∧ d.hps ≤ 16) || decide (1 < d.flags % 16)
    || decide (31 < d.flags) || !allZero (slice raw 0x20 32)
    || decide (t.entries.toNat * 256 < t.len.toNat + d.t) || decide (1048576 < t.len.toNat + d.t)
    || run d.k d.kh0 || run d.v d.vh0
  lowestOf [(0x15, !t.valid), (0x17, t.valid && bad)]

/-- Checks of a SLOT_SET: field ranges (R165) and a table in this core's SRAM or this module's HBM (R163, R228). -/
def State.checkSlotSet (s : State) (c desc : Nat) : Nat :=
  let ok := match slotOf (s.ms.bytes desc 64) with
    | some t => s.placeOk c .engine t.table.toNat (16 * t.entries.toNat)
    | none => false
  if s.ms.badRange desc 64 || !ok then 0x17 else 0

/-- Cause of an ATT instruction when it starts, 0 when none. -/
def State.checkAtt (s : State) (c : Nat) (opc : BitVec 8) (desc slot : Nat) : Nat :=
  match opc.toNat with
  | 1 => s.checkAttRun c false desc slot
  | 2 => s.checkAttRun c true desc slot
  | 3 => s.checkAppend c desc slot
  | 4 => s.checkBucket c desc
  | 5 => s.checkSlotSet c desc
  | _ => 0

/-! ## Dots (R115, R118, R172) -/

/-- AIA dot of two lists with one FP32 scale factor: K-blocks of 64 in order. `none` elements take no part. -/
def dotBits (a b : List FVal) (st : FVal) : BitVec 32 × Bool :=
  let ps := (a.zip b).map (fun p => prodOf p.1 p.2)
  let n := ps.length
  chain32 none ((List.range (ceilDiv n 64)).map (fun i =>
    kBlock ((ps.drop (64 * i)).take 32) ((ps.drop (64 * i + 32)).take 32) (some 0) (some 0) st))

/-- A value rounded to the probability format (R172): the value, and the format's code where it saturated (R122). -/
def roundP (fp16 : Bool) (x : BitVec 32) : FVal × List Nat :=
  let f : Elem := if fp16 then .fp16 else .bf16
  let r := roundTo f .rne (f32val x)
  ((decodeElem f r.bits).1, if r.ovf then [if fp16 then 1 else 0] else [])

/-- e^x of the pipeline, whose bits are the reference vectors' (R172). -/
def expS (x : Sat32) : Sat32 := refS .exp [x]

def fma32 (a b c : BitVec 32) : Sat32 := roundS (((f32val a).mul (f32val b)).add (f32val c)) false

/-- Events of a score, or a gradient of a score, which is no output element: once under FP32 and once under the
probability format where a step saturated (R124; DESIGN CHOICE, log 106). -/
def cellEv (mid : Bool) (codes : List Nat) : NumEv := (NumEv.ofSats [mid]).join { ovf := codes.eraseDups }

/-- The pages of a span as read: keys and values of each position a query may see, `none` for the others; the K and V
scale of each position's page; and the scales read, once for each page (R124). -/
structure SpanKv where
  k  : List (Option (List RElem))
  v  : List (Option (List RElem))
  ks : List RScale
  vs : List RScale
  pageScales : List RScale
  deriving DecidableEq, Repr

/-- Reads a span's keys and values of KV head `head` (R162). A page's scales hold for all its positions, whichever of
them a query sees (R172). -/
def State.spanRead (s : State) (c : Nat) (t : AttSlot) (d : AttDesc) (n : Nat) : SpanKv :=
  let (lo, hi) := d.seen t.len.toNat
  let one : RScale := ⟨.f32 .one, .none, false⟩
  let pages := (d.entriesOf t n).filterMap (fun i => match s.pageEntry c t i with
    | .inl e => some (i, e)
    | .inr _ => none)
  let ent (p : Nat) : Option PageEntry := pages.lookup (p / 256)
  let ps := (List.range t.span).map (· + n * t.span)
  let row (v : Bool) (p : Nat) : Option (List RElem) :=
    if lo ≤ p ∧ p < hi then (ent p).map (fun e => s.ms.rowElems t.fmt (e.at_ t v d.kvh p) t.d) else none
  let read (v : Bool) (e : PageEntry) : RScale := s.ms.scale32 (if v then e.vScale else e.kScale)
  let sc (v : Bool) (p : Nat) : RScale := if perTensor t.fmt then ((ent p).map (read v)).getD one else one
  { k := ps.map (row false), v := ps.map (row true), ks := ps.map (sc false), vs := ps.map (sc true),
    pageScales := if perTensor t.fmt then pages.flatMap (fun x => [read false x.2, read true x.2]) else [] }

/-- Scale of each K-block of a span, given at its first position; a K-block in which no key is live takes none (R172). -/
def liveScales (live : List Bool) (sc : List FVal) : List FVal :=
  (List.range sc.length).map (fun j =>
    if ((live.drop (j / 64 * 64)).take 64).any id then sc.getD j .one else .one)

def SpanKv.reads (x : SpanKv) : NumEv :=
  joinAll ((x.k ++ x.v).filterMap (fun r => r.map readEv) ++ x.pageScales.map (fun r => NumEv.ofRead r.flag))

def SpanKv.bad (x : SpanKv) : Bool :=
  (x.k ++ x.v).any (fun r => (r.getD []).any RElem.bad) || (x.ks ++ x.vs).any RScale.bad

def RScale.f32 (r : RScale) : FVal := match r.v with | .f32 v => v | .e8 _ => .one

def vals (xs : List RElem) : List FVal := xs.map RElem.v

/-- State of a query row (R172). -/
structure AttRow where
  m   : BitVec 32 := 0
  l   : BitVec 32 := 0
  o   : List (BitVec 32)
  started : Bool := false
  /-- an FP32 step of this element of o saturated in this instruction -/
  sat : List Bool
  /-- an FP32 step of l saturated in this instruction -/
  lsat : Bool := false
  /-- events of the row's scores -/
  ev  : NumEv := {}
  deriving DecidableEq, Repr

def AttRow.nan (r : AttRow) : AttRow :=
  { r with m := nan32, l := nan32, o := r.o.map (fun _ => nan32), started := true }

/-- A dot over keys: K-blocks of 64 in order, each under the scale of its first position (R172). -/
def keyDot (ps : List FVal) (xs : List FVal) (sc : List FVal) : Sat32 :=
  let n := ps.length
  let pr := (ps.zip xs).map (fun p => prodOf p.1 p.2)
  chain32 none ((List.range (ceilDiv n 64)).map (fun i =>
    kBlock ((pr.drop (64 * i)).take 32) ((pr.drop (64 * i + 32)).take 32) (some 0) (some 0) (sc.getD (64 * i) .one)))

/-- One row through one span (R172). SCALE is not taken for an FP32 scale of R109 (DESIGN CHOICE, log 137). -/
def attRowStep (d : AttDesc) (fp16 : Bool) (dim len base pos : Nat) (q : List FVal) (kv : SpanKv) (r : AttRow) : AttRow :=
  let n := kv.k.length
  let live := (List.range n).map (fun j => d.live len pos (base + j))
  if !live.any id then r
  else
    let sc : List (Option Sat32) := (List.range n).map (fun j =>
      if live.getD j false then
        match kv.k.getD j none with
        | some k => some (mulS (dotBits q (vals k) ((kv.ks.getD j ⟨.f32 .one, .none, false⟩).f32)) (plainS d.scale))
        | none => some (plainS nan32)
      else none)
    let ss := sc.filterMap id
    let mx := (ss.map (fun x => f32val x.1)).tail.foldl FVal.max ((ss.map (fun x => f32val x.1)).headD .nan)
    if mx.isNaN || ss.any (fun x => isNaN32 x.1) || (r.started && (isNaN32 r.m || isNaN32 r.l)) then
      AttRow.nan { r with ev := joinAll (r.ev :: ss.map (fun (x : Sat32) => cellEv x.2 [])) }
    else
      let mn := if r.started then (f32val r.m).max mx else mx
      let m' := f32bits mn
      let alpha := if !r.started || (f32val r.m).lt mn == false then plainS one32 else expS (subS (plainS r.m) (plainS m'))
      let es : List (Option Sat32) := sc.map (fun x => x.map (fun y => expS (subS y (plainS m'))))
      let ps := es.map (fun x => match x with
        | some y => roundP fp16 y.1
        | none => (FVal.zero, []))
      let col (x : Nat) : List FVal := (List.range n).map (fun j =>
        if live.getD j false then (match kv.v.getD j none with
          | some v => (v.getD x ⟨.nan, .none, true⟩).v
          | none => .nan) else .zero)
      let vsc := liveScales live (kv.vs.map RScale.f32)
      let pv := ps.map (·.1)
      let o' := (List.range dim).map (fun x =>
        let dv := keyDot pv (col x) vsc
        let f := fma32 (r.o.getD x 0) alpha.1 dv.1
        (f.1, dv.2 || f.2 || r.sat.getD x false))
      let ld := keyDot pv (pv.map (fun _ => FVal.one)) []
      let l' := fma32 r.l alpha.1 ld.1
      let cells := List.zipWith (fun (e : Option Sat32) (p : FVal × List Nat) => cellEv ((e.map (·.2)).getD false) p.2) es ps
      let r' : AttRow :=
        { m := m', l := l'.1, o := o'.map (·.1), started := true, sat := o'.map (·.2),
          lsat := r.lsat || alpha.2 || ld.2 || l'.2, ev := joinAll (r.ev :: cells) }
      if isNaN32 l'.1 || r'.o.any isNaN32 then r'.nan else r'

/-- Workspace bytes of a row (R173). -/
def AttRow.bytes (r : AttRow) : List Byte :=
  r.o.flatMap (fun x => leBytes 4 x.toNat) ++ leBytes 4 r.m.toNat ++ leBytes 4 r.l.toNat ++ leBytes 4 (b2n r.started)

def attRowLoad (ms : MemSys) (a dim : Nat) : AttRow :=
  { o := (List.range dim).map (fun i => BitVec.ofNat 32 (ms.le (a + 4 * i) 4)), m := BitVec.ofNat 32 (ms.le (a + 4 * dim) 4),
    l := BitVec.ofNat 32 (ms.le (a + 4 * dim + 4) 4), started := ms.le (a + 4 * dim + 8) 1 % 2 == 1,
    sat := List.replicate dim false }

/-- Outcome of an ATT run: results, the fault that stopped it, if one did. -/
structure AttOut where
  res   : OpResult
  fault : Option (Nat × Nat) := none
  deriving DecidableEq, Repr

/-- FWD on the descriptor and slot state it started with (R172, R173). A faulty entry stops it before any output is
written. -/
def State.attFwd (s : State) (c : Nat) (k : KcgSel) (raw : List Byte) (t : AttSlot) : AttOut :=
  let ms := s.ms
  let d := AttDesc.of raw
  let dim := t.d
  let spans := d.spans t
  match firstSome (fun n => s.firstFault c t (d.entriesOf t n)) spans with
  | some f => { res := { err := true }, fault := some f }
  | none =>
    let kvs := spans.map (fun n => (n, s.spanRead c t d n))
    let wsA (r : Nat) : Nat := d.ws + r * (4 * dim + 64)
    let row (r : Nat) : List (Nat × List Byte) × NumEv × Bool :=
      let q := ms.rowElems d.qf (d.rowAt dim d.q r) dim
      let r0 : AttRow := if d.cont then attRowLoad ms (wsA r) dim
        else { o := List.replicate dim 0, sat := List.replicate dim false }
      let st := kvs.foldl (fun (a : AttRow) (x : Nat × SpanKv) =>
        attRowStep d (t.fmt == 1) dim t.len.toNat (x.1 * t.span) (d.pos0 + r / d.g) (vals q) x.2 a) r0
      let inner := st.ev.join (NumEv.ofSats [st.lsat])
      if d.final then
        let oa := d.rowAt dim d.o r
        let es := elemBytes d.of_
        let outs := (List.range dim).map (fun x =>
          let v : Sat32 :=
            if st.started then roundS ((f32val (st.o.getD x 0)).div (f32val st.l)) (st.sat.getD x false) else plainS 0
          writeElem d.of_ (if d.sr then some k else none) (oa + x * es) (f32val v.1) v.2)
        let lse : Sat32 :=
          if st.started then addS (plainS st.m) (refS .attLog [plainS st.l]) else (0xFF7FFFFF, false)
        let lw := writeElem 2 none (d.lse + 4 * r) (f32val lse.1) lse.2
        ([(oa, outs.flatMap (·.1)), (d.lse + 4 * r, lw.1)], joinAll (readEv q :: inner :: lw.2 :: outs.map (·.2)),
         q.any RElem.bad)
      else ([(wsA r, st.bytes)], joinAll [readEv q, inner, NumEv.ofSats st.sat], q.any RElem.bad)
    let rs := (List.range d.rows).map row
    { res := { writes := rs.flatMap (·.1), ev := joinAll (kvs.map (fun x => x.2.reads) ++ rs.map (·.2.1)),
               err := kvs.any (fun x => x.2.bad) || rs.any (·.2.2) } }

/-! ## Backward (R177, R178) -/

/-- A row of BWD while it runs. -/
structure BwdRow where
  dq    : List (BitVec 32) := []
  delta : BitVec 32 := 0
  /-- a span has contributed to dq -/
  begun : Bool := false
  /-- an FP32 step of this element of dq saturated in this instruction -/
  sat   : List Bool := []
  /-- events of the row's delta and scores -/
  ev    : NumEv := {}
  deriving DecidableEq, Repr

/-- A row that never started: the bits of its LSE are the canonical NaN or −0x7F7F_FFFF (R177; on the bits, DESIGN CHOICE,
log 137). -/
def lseDead (lse : BitVec 32) : Bool := lse == nan32 || lse == 0xFF7FFFFF

/-- What one row does in one span: its probabilities and score gradients (none for masked keys), and its new dq. -/
def bwdRowStep (d : AttDesc) (fp16 : Bool) (dim len base pos : Nat) (q do_ : List FVal) (lse : BitVec 32) (kv : SpanKv)
    (r : BwdRow) : BwdRow × List FVal × List FVal :=
  let n := kv.k.length
  let live := (List.range n).map (fun j => d.live len pos (base + j))
  let zero := List.replicate n FVal.zero
  if !live.any id || lseDead lse then (r, zero, zero)
  else
    let cell (j : Nat) : FVal × FVal × NumEv :=
      if live.getD j false then
        let k := vals ((kv.k.getD j none).getD [])
        let v := vals ((kv.v.getD j none).getD [])
        let s := mulS (dotBits q k ((kv.ks.getD j ⟨.f32 .one, .none, false⟩).f32)) (plainS d.scale)
        let e := expS (subS s (plainS lse))
        let p := roundP fp16 e.1
        let dp := dotBits do_ v ((kv.vs.getD j ⟨.f32 .one, .none, false⟩).f32)
        let t := mulS (plainS (f32bits p.1)) (subS dp (plainS r.delta))
        let ds := mulS t (plainS d.scale)
        let g := roundP fp16 ds.1
        (p.1, g.1, (cellEv e.2 p.2).join (cellEv ds.2 g.2))
      else (.zero, .zero, {})
    let cells := (List.range n).map cell
    let ds := cells.map (·.2.1)
    let ksc := liveScales live (kv.ks.map RScale.f32)
    let col (x : Nat) : List FVal := (List.range n).map (fun j =>
      if live.getD j false then (((kv.k.getD j none).getD []).getD x ⟨.nan, .none, true⟩).v else .zero)
    let dq' := (List.range dim).map (fun x =>
      let v := keyDot ds (col x) ksc
      let a := if r.begun then addS (plainS (r.dq.getD x 0)) v else v
      (a.1, a.2 || r.sat.getD x false))
    ({ r with dq := dq'.map (·.1), begun := true, sat := dq'.map (·.2), ev := joinAll (r.ev :: cells.map (·.2.2)) },
     cells.map (·.1), ds)

/-- dK or dV of one key: the chain over K-blocks of 64 rows from the buffer's value. A K-block in which no row sees the
key adds nothing, so that the split of the rows does not matter (R180; DEDUCED, log 131). -/
def rowsDot (start : BitVec 32) (live : List Bool) (a b : List FVal) : BitVec 32 × Bool :=
  let ps := (a.zip b).map (fun p => prodOf p.1 p.2)
  chain32 (some start) (((List.range (ceilDiv ps.length 64)).filter (fun i => ((live.drop (64 * i)).take 64).any id)).map (fun i =>
    kBlock ((ps.drop (64 * i)).take 32) ((ps.drop (64 * i + 32)).take 32) (some 0) (some 0) .one))

/-- One span of BWD: new rows, and the writes of DK and DV. -/
def State.bwdSpan (s : State) (c : Nat) (t : AttSlot) (d : AttDesc) (qs dos : List (List FVal)) (lses : List (BitVec 32))
    (n : Nat) (rows : List BwdRow) : List BwdRow × OpResult :=
  let dim := t.d
  let len := t.len.toNat
  let kv := s.spanRead c t d n
  let base := n * t.span
  let steps := (List.range d.rows).map (fun r =>
    bwdRowStep d (t.fmt == 1) dim len base (d.pos0 + r / d.g) (qs.getD r []) (dos.getD r []) (lses.getD r 0) kv
      (rows.getD r {}))
  let dead (r : Nat) : Bool := lseDead (lses.getD r 0)
  let sees (j : Nat) : List Bool := (List.range d.rows).map (fun r => !dead r && d.live len (d.pos0 + r / d.g) (base + j))
  let keep (lv : List Bool) (xs : List (List FVal)) (x : Nat) : List FVal :=
    List.zipWith (fun l r => if l then (xs.getD r []).getD x .nan else .zero) lv (List.range d.rows)
  let cell (buf j x : Nat) (w : List FVal) (other : List (List FVal)) : (Nat × List Byte) × NumEv × Bool :=
    let a := buf + (base + j) * (4 * dim) + 4 * x
    let acc := s.ms.accRead a
    let v := rowsDot acc.1 (sees j) w (keep (sees j) other x)
    let o := writeElem 2 none a (f32val v.1) v.2
    ((a, o.1), acc.2.1.join o.2, acc.2.2)
  let js := (List.range t.span).filter (fun j => decide (base + j < len))
  let outs := js.flatMap (fun j =>
    let ds := steps.map (fun x => x.2.2.getD j .zero)
    let ps := steps.map (fun x => x.2.1.getD j .zero)
    (List.range dim).map (fun x => cell d.dk j x ds qs) ++ (List.range dim).map (fun x => cell d.dv j x ps dos))
  (steps.map (·.1),
   { writes := outs.map (·.1), ev := joinAll (kv.reads :: outs.map (·.2.1)), err := kv.bad || outs.any (·.2.2) })

def OpResult.join (a b : OpResult) : OpResult :=
  { writes := a.writes ++ b.writes, poison := a.poison ++ b.poison, ev := a.ev.join b.ev, err := a.err || b.err }

/-- BWD over the spans in order; a fault stops it, and the spans before it stay written (R76). -/
def State.bwdSpans (s : State) (c : Nat) (t : AttSlot) (d : AttDesc) (qs dos : List (List FVal)) (lses : List (BitVec 32)) :
    List Nat → List BwdRow → OpResult → List BwdRow × OpResult × Option (Nat × Nat)
  | [], rows, acc => (rows, acc, none)
  | n :: ns, rows, acc =>
    match s.firstFault c t (d.entriesOf t n) with
    | some f => (rows, acc, some f)
    | none =>
      let r := s.bwdSpan c t d qs dos lses n rows
      State.bwdSpans s c t d qs dos lses ns r.1 (acc.join r.2)

/-- BWD on the descriptor and slot state it started with (R177, R178). A row kept in WS says in bit 0 of byte 4D + 8, the
place of STARTED, whether a span has contributed to its dq (R180; DEDUCED, log 131). -/
def State.attBwd (s : State) (c : Nat) (k : KcgSel) (raw : List Byte) (t : AttSlot) : AttOut :=
  let ms := s.ms
  let d := AttDesc.of raw
  let dim := t.d
  let rs := List.range d.rows
  let qe := rs.map (fun r => ms.rowElems d.qf (d.rowAt dim d.q r) dim)
  let oe := rs.map (fun r => ms.rowElems d.of_ (d.rowAt dim d.o r) dim)
  let de := rs.map (fun r => ms.rowElems d.of_ (d.rowAt dim d.do_ r) dim)
  let lses := rs.map (fun r => ms.accRead (d.lse + 4 * r))
  let wsA (r : Nat) : Nat := d.ws + r * (4 * dim + 64)
  let start (r : Nat) : BwdRow :=
    if d.cont then
      { dq := (List.range dim).map (fun i => BitVec.ofNat 32 (ms.le (wsA r + 4 * i) 4)),
        delta := BitVec.ofNat 32 (ms.le (wsA r + 4 * dim) 4),
        begun := ms.le (wsA r + 4 * dim + 8) 1 % 2 == 1 }
    else
      let x := dotBits (vals (de.getD r [])) (vals (oe.getD r [])) .one
      { dq := List.replicate dim 0, delta := x.1, ev := NumEv.ofSats [x.2] }
  let ev0 := joinAll (qe.map readEv ++ de.map readEv ++ (if d.cont then [] else oe.map readEv) ++ lses.map (fun x => x.2.1))
  let err0 := (qe ++ de ++ (if d.cont then [] else oe)).any (fun r => r.any RElem.bad) || lses.any (·.2.2)
  let (rows, acc, fault) := s.bwdSpans c t d (qe.map vals) (de.map vals) (lses.map (·.1)) (d.spans t) (rs.map start)
    { ev := ev0, err := err0 }
  match fault with
  | some f => { res := { acc with err := true }, fault := some f }
  | none =>
    let out (r : Nat) : List (Nat × List Byte) × NumEv :=
      let x := rows.getD r {}
      let lse := (lses.getD r (0, {}, false)).1
      let dead := lseDead lse
      if d.final then
        let a := d.rowAt dim d.dq r
        let es := elemBytes d.qf
        let ws := (List.range dim).map (fun i =>
          writeElem d.qf (if d.sr then some k else none) (a + i * es) (if dead then .zero else f32val (x.dq.getD i 0))
            (!dead && x.sat.getD i false))
        ([(a, ws.flatMap (·.1))], joinAll (x.ev :: ws.map (·.2)))
      else ([(wsA r, x.dq.flatMap (fun v => leBytes 4 v.toNat) ++ leBytes 4 x.delta.toNat),
             (wsA r + 4 * dim + 8, leBytes 4 (b2n x.begun))],
            x.ev.join (NumEv.ofSats x.sat))
    let os := rs.map out
    { res := acc.join { writes := os.flatMap (·.1), ev := joinAll (os.map (·.2)) } }

/-! ## APPEND (R168) -/

/-- One element converted to the KV format at its address. -/
def kvElem (fmt : BitVec 4) (k : Option KcgSel) (a : Nat) (x : FVal) (scale : FVal) : List Byte × NumEv :=
  writeElem fmt k a (if perTensor fmt then convQuot x scale else x) false

/-- The positions of one page, every head: writes, events, uncorrectable sources. -/
def State.appendPage (s : State) (k : Option KcgSel) (t : AttSlot) (d : AppendDesc) (e : PageEntry) (ps : List Nat) : OpResult :=
  let es := t.e
  let dim := t.d
  let one (v : Bool) (sc : FVal) (p j : Nat) : (Nat × List Byte) × NumEv × Bool :=
    let i := p - t.len.toNat
    let src := s.ms.rowElems d.fmt (if v then d.at_ d.v dim i (d.vh0 + j) else d.at_ d.k dim i (d.kh0 + j)) dim
    let a := e.at_ t v j p
    let ws := (src.zip (List.range dim)).map (fun x => kvElem t.fmt k (a + x.2 * es) x.1.v sc)
    ((a, ws.flatMap (·.1)), joinAll (readEv src :: ws.map (·.2)), src.any RElem.bad)
  let ks : RScale := if perTensor t.fmt then s.ms.scale32 e.kScale else ⟨.f32 .one, .none, false⟩
  let vs : RScale := if perTensor t.fmt then s.ms.scale32 e.vScale else ⟨.f32 .one, .none, false⟩
  let outs := ps.flatMap (fun p => (List.range t.kvHeads.toNat).flatMap (fun j => [one false ks.f32 p j, one true vs.f32 p j]))
  { writes := outs.map (·.1), ev := joinAll (NumEv.ofRead ks.flag :: NumEv.ofRead vs.flag :: outs.map (·.2.1)),
    err := outs.any (·.2.2) }

def State.appendPages (s : State) (c : Nat) (k : Option KcgSel) (t : AttSlot) (d : AppendDesc) :
    List Nat → OpResult → OpResult × Option (Nat × Nat)
  | [], acc => (acc, none)
  | i :: is, acc =>
    match s.pageEntry c t i with
    | .inr f => (acc, some (i, f))
    | .inl e =>
      let lo := max t.len.toNat (256 * i)
      let hi := min (t.len.toNat + d.t) (256 * (i + 1))
      State.appendPages s c k t d is (acc.join (s.appendPage k t d e ((List.range (hi - lo)).map (· + lo))))

/-- Page-table entries that an APPEND touches. -/
def AppendDesc.span (d : AppendDesc) (t : AttSlot) : List Nat :=
  (List.range ((t.len.toNat + d.t - 1) / 256 - t.len.toNat / 256 + 1)).map (· + t.len.toNat / 256)

/-- The K and V rows an APPEND places in its pages, in ascending position, and the entry it stops at. -/
def State.appendRun (s : State) (c : Nat) (k : KcgSel) (raw : List Byte) (t : AttSlot) : OpResult × Option (Nat × Nat) :=
  let d := AppendDesc.of raw
  s.appendPages c (if d.flags.testBit 4 then some k else none) t d (d.span t) {}

/-- APPEND: on completion the FILL fields and the slot's LEN. -/
def State.attAppend (s : State) (c : Nat) (k : KcgSel) (raw : List Byte) (t : AttSlot) (slot : Nat) : State × AttOut :=
  let d := AppendDesc.of raw
  let n := t.len.toNat + d.t
  let r := s.appendRun c k raw t
  match r.2 with
  | some f => (s, { res := { r.1 with err := true }, fault := some f })
  | none =>
    let fills := (d.span t).map (fun i =>
      let a := t.table.toNat + 16 * i
      (a, leBytes 8 (setFld (BitVec.ofNat 64 (s.ms.le a 8)) 1 9 (min 256 (n - 256 * i))).toNat))
    let s := s.modAtt c (fun q => { q with slots := vmod q.slots slot (fun x => { x with len := BitVec.ofNat 21 n }) })
    (s, { res := { r.1 with writes := r.1.writes ++ fills } })

/-- The results of an ATT operation that completes: `raw` and `t` are its descriptor and its slot's state as they stood
when it started (R167, R181). An operation that stops at a faulty entry is skipped and counts nothing (R124). -/
def State.runAtt (s : State) (c : Nat) (k : KcgSel) (opc : BitVec 8) (raw : List Byte) (t : AttSlot) (slot : Nat) : State × AttOut :=
  let quiet (x : AttOut) : AttOut := if x.fault.isSome then { x with res := { x.res with ev := {} } } else x
  match opc.toNat with
  | 1 => (s, quiet (s.attFwd c k raw t))
  | 2 => (s, quiet (s.attBwd c k raw t))
  | 3 => let r := s.attAppend c k raw t slot; (r.1, quiet r.2)
  | 4 => (s, { res := bucketRun s.ms raw })
  | 5 => match slotOf raw with
    | some t => (s.modAtt c (fun q => { q with slots := vmod q.slots slot (fun _ => t) }), { res := {} })
    | none => (s, { res := { err := true } })
  | _ => (s.modAtt c (fun q => { q with slots := vmod q.slots slot (fun x => { x with valid := false }) }), { res := {} })

/-- Descriptor bytes of an ATT instruction (R165, R168, R170, R176, R182). -/
def attDescBytes (opc : BitVec 8) : Nat := if opc = 2 then 128 else if opc = 6 then 0 else 64

/-! ## Reads -/

/-- Reads of page-table entries. -/
def AttSlot.entryReads (t : AttSlot) (is : List Nat) : List (Nat × Nat × Nat) :=
  is.map (fun i => (t.table.toNat + 16 * i, 16, 0))

/-- A list up to its first member that is faulty, and that member. -/
def untilFault (bad : Nat → Bool) : List Nat → List Nat × List Nat
  | [] => ([], [])
  | i :: is => if bad i then ([], [i]) else let r := untilFault bad is; (i :: r.1, r.2)

/-- Keys (or values) of a span that some query sees, page by page. -/
def State.spanRuns (s : State) (c : Nat) (t : AttSlot) (d : AttDesc) (v : Bool) (n : Nat) : List (Nat × Nat) :=
  let (lo, hi) := d.seen t.len.toNat
  (d.entriesOf t n).filterMap (fun i => match s.pageEntry c t i with
    | .inl e =>
      let a := max lo (max (n * t.span) (256 * i))
      let b := min hi (min ((n + 1) * t.span) (256 * (i + 1)))
      some (e.at_ t v d.kvh a, (b - a) * (t.d * t.e))
    | .inr _ => none)

/-- What a FWD or BWD reads: the spans before the first with a faulty entry, and entries up to that one (R164). -/
def State.attRunPlan (s : State) (c : Nat) (bwd : Bool) (raw : List Byte) (t : AttSlot) : ReadPlan :=
  let d := AttDesc.of raw
  let dim := t.d
  let (good, stop) := untilFault (fun n => (s.firstFault c t (d.entriesOf t n)).isSome) (d.spans t)
  let faulty (i : Nat) : Bool := match s.pageEntry c t i with | .inr _ => true | .inl _ => false
  let last := stop.flatMap (fun n => let r := untilFault faulty (d.entriesOf t n); r.1 ++ r.2)
  let acc (base : Nat) : List (Nat × Nat × Nat) := plainRuns (good.map (fun n =>
    (base + n * t.span * 4 * dim, (min t.len.toNat ((n + 1) * t.span) - n * t.span) * 4 * dim)))
  { streams := [plainRuns (d.runs dim d.q d.qf), plainRuns (good.flatMap (s.spanRuns c t d false)),
                plainRuns (good.flatMap (s.spanRuns c t d true))]
      ++ (if bwd then [plainRuns (d.runs dim d.do_ d.of_)] ++ (if d.cont then [] else [plainRuns (d.runs dim d.o d.of_)])
          else []),
    others := t.entryReads (good.flatMap (d.entriesOf t) ++ last)
      ++ (if bwd then (d.lse, d.lseBytes, 0) :: (acc d.dk ++ acc d.dv) else []) }

/-- What an APPEND reads: its entries up to the first that is faulty, and the tokens that go into the pages before. -/
def State.appendPlan (s : State) (c : Nat) (raw : List Byte) (t : AttSlot) : ReadPlan :=
  let d := AppendDesc.of raw
  let n := t.d * elemBytes d.fmt
  let r := untilFault (fun i => match s.pageEntry c t i with | .inr _ => true | .inl _ => false) (d.span t)
  let toks := match r.2 with
    | i :: _ => 256 * i - t.len.toNat
    | [] => d.t
  let rows (base h0 : Nat) : List (Nat × Nat × Nat) := plainRuns ((List.range toks).flatMap (fun i =>
    (List.range t.kvHeads.toNat).map (fun j => (d.at_ base t.d i (h0 + j), n))))
  { streams := [rows d.k d.kh0, rows d.v d.vh0], others := t.entryReads (r.1 ++ r.2) }

/-- What an ATT operation of core c reads when it runs. -/
def State.attPlan (s : State) (c : Nat) (opc : BitVec 8) (raw : List Byte) (t : AttSlot) : ReadPlan :=
  match opc.toNat with
  | 1 => s.attRunPlan c false raw t
  | 2 => s.attRunPlan c true raw t
  | 3 => s.appendPlan c raw t
  | 4 => let d := BucketDesc.of raw; { streams := [plainRuns [(d.lens, 4 * d.n)], plainRuns [(d.bnds, 4 * d.nb)]] }
  | _ => {}

end Sys2Proof.Machine
end

