-- ==== Sys2Proof/Machine/CoreCache.lean ====
section
/-! DEFINITION. The core cache: fills, replacement, write-back, and the accesses of SLD, SST, ATOM, the range operations
and the gather engine through it (R62, R242 to R244, R261, R276, R280). -/

namespace Sys2Proof.Machine

def CacheRegs.find (k : CacheRegs) (ln : Nat) : Option CacheLine := k.lines.find? (fun l => l.line == ln)
def CacheRegs.drop (k : CacheRegs) (ln : Nat) : CacheRegs := { k with lines := k.lines.filter (fun l => l.line != ln) }
def CacheRegs.dirtyCount (k : CacheRegs) : Nat := (k.lines.filter (fun l => l.dirty)).length

/-- A line put in front as most recently used. -/
def CacheRegs.put (k : CacheRegs) (l : CacheLine) : CacheRegs :=
  { k with lines := l :: k.lines.filter (fun x => x.line != l.line) }

/-- Least recently used line of a full set (R242). -/
def CacheRegs.victim (k : CacheRegs) (ln : Nat) : Option CacheLine :=
  let set := k.lines.filter (fun l => l.line % 2048 == ln % 2048)
  if set.length < 16 then none else set.getLast?

def State.cacheOf (s : State) (c : Nat) : CacheRegs := (s.core c).cache
def State.modCache (s : State) (c : Nat) (f : CacheRegs → CacheRegs) : State :=
  s.modCore c (fun k => { k with cache := f k.cache })

/-- A whole line written back to its home (R276). -/
def State.writeBack (s : State) (l : CacheLine) : State := (s.homeWrite none (64 * l.line) (leBytes 64 l.data.toNat) 0).1

/-- A line allocated, its set's victim written back when dirty. -/
def State.cacheAlloc (s : State) (c : Nat) (l : CacheLine) : State :=
  let s := match (s.cacheOf c).find l.line with
    | some _ => s
    | none => match (s.cacheOf c).victim l.line with
      | some v =>
        let s := s.modCache c (fun k => k.drop v.line)
        if v.dirty then s.writeBack v else s
      | none => s
  s.modCache c (fun k => k.put l)

/-- A line read at its home: data, uncorrectable. -/
def State.homeLine (s : State) (ln hint : Nat) : State × BitVec 512 × Bool :=
  let bad := s.ms.badLine ln
  let d := s.ms.line ln
  (s.noteReads (64 * ln) 64 hint, d, bad)

/-- A line read through the core cache of core c; a miss allocates when `alloc`. -/
def State.cacheRead (s : State) (c ln hint : Nat) (alloc : Bool) : State × BitVec 512 × Bool :=
  match (s.cacheOf c).find ln with
  | some l => (s.modCache c (fun k => k.put l), l.data, false)
  | none =>
    let (s, d, bad) := s.homeLine ln hint
    (if bad || !alloc then s else s.cacheAlloc c ⟨ln, d, false⟩, d, bad)

/-- Bytes [off, off + n) of a line. -/
def lineBytes (d : BitVec 512) (off n : Nat) : List Byte := ((leBytes 64 d.toNat).drop off).take n

def lineMerge (d : BitVec 512) (off : Nat) (bs : List Byte) : BitVec 512 :=
  let old := leBytes 64 d.toNat
  BitVec.ofNat 512 (leNat (old.take off ++ bs ++ old.drop (off + bs.length)))

/-- Bytes of any local range read by the gather engine: HBM through the cache, the rest directly. Pieces stay inside
lines; `fuel` bounds their number. -/
def State.gathRead (c hint : Nat) (alloc : Bool) : Nat → State → Nat → Nat → State × List Byte × Bool
  | 0, s, _, _ => (s, [], false)
  | fuel + 1, s, a, n =>
    if n = 0 then (s, [], false)
    else
      let k := min n (64 - a % 64)
      let (s, bs, bad) : State × List Byte × Bool :=
        if isHbm a then
          let r := s.cacheRead c (a / 64) hint alloc
          (r.1, lineBytes r.2.1 (a % 64) k, r.2.2)
        else (s, s.ms.bytes a k, false)
      let (s, rest, bad') := State.gathRead c hint alloc fuel s (a + k) (n - k)
      (s, bs ++ rest, bad || bad')

/-! ## Scalar accesses (R62) -/

/-- SLD of n bytes of HBM: value, error. With FRESH, a cached line whose home read is uncorrectable is dropped (DESIGN
CHOICE, log 102). -/
def State.loadHbm (s : State) (c a n : Nat) (fresh : Bool) : State × Nat × Bool :=
  let ln := a / 64
  let pick (d : BitVec 512) : Nat := leNat (lineBytes d (a % 64) n)
  if fresh then
    match (s.cacheOf c).find ln with
    | some l =>
      let s := if l.dirty then s.writeBack l else s
      let (s, d, bad) := s.homeLine ln 0
      if bad then (s.modCache c (fun k => k.drop ln), 0, true)
      else (s.modCache c (fun k => k.put ⟨ln, d, false⟩), pick d, false)
    | none =>
      let (s, d, bad) := s.homeLine ln 0
      (s, if bad then 0 else pick d, bad)
  else
    let (s, d, bad) := s.cacheRead c ln 0 true
    (s, if bad then 0 else pick d, bad)

/-- SST of bytes of HBM; the flag is ERR. -/
def State.storeHbm (s : State) (c a : Nat) (bs : List Byte) (thru : Bool) : State × Bool :=
  let ln := a / 64
  match (s.cacheOf c).find ln with
  | some l =>
    let s := s.modCache c (fun k => k.put { l with data := lineMerge l.data (a % 64) bs, dirty := l.dirty || !thru })
    if thru then s.homeWrite none a bs 0 else (s, false)
  | none =>
    let (s, d, bad) := s.homeLine ln 0
    if bad then ((s.homeWrite none a bs 0).1, true)
    else
      let s := s.cacheAlloc c ⟨ln, lineMerge d (a % 64) bs, !thru⟩
      if thru then s.homeWrite none a bs 0 else (s, false)

/-- The value an ATOM stores: operation, width in bytes, signedness (R62). -/
def atomNew (op n : Nat) (signed : Bool) (old ga gb : Nat) : Nat :=
  let m := 2 ^ (8 * n)
  let v (x : Nat) : Int := if signed then (if x % m ≥ m / 2 then (x % m : Int) - m else x % m) else (x % m : Int)
  match op with
  | 0 => (old + ga) % m
  | 1 => if old = ga % m then gb % m else old
  | 2 => if v old < v ga then ga % m else old
  | _ => if v ga < v old then ga % m else old

/-- ATOM at the home of n bytes at a: old value, error. It is one read-modify-write at the controller (R261, R276, R280). -/
def State.atomAt (s : State) (c a n op : Nat) (signed : Bool) (ga gb : Nat) : State × Nat × Bool :=
  let ln := a / 64
  let s := if isHbm a then
      match (s.cacheOf c).find ln with
      | some l => (if l.dirty then s.writeBack l else s).modCache c (fun k => k.drop ln)
      | none => s
    else s
  let old := s.ms.le a n
  let r := s.homeWrite none a (leBytes n (atomNew op n signed old ga gb)) 0
  (r.1, if r.2 then 0 else old, r.2)

/-! ## Range operations -/

/-- CFLUSH, CINV and CFLINV of [a, a + n). -/
def State.cacheRange (s : State) (c : Nat) (wb inv : Bool) (a n : Nat) : State :=
  let hit (l : CacheLine) : Bool := decide (a / 64 ≤ l.line ∧ 64 * l.line < a + n)
  let ls := (s.cacheOf c).lines.filter hit
  let s := if wb then (ls.filter (fun l => l.dirty)).foldl State.writeBack s else s
  s.modCache c (fun k =>
    { k with lines := if inv then k.lines.filter (fun l => !hit l)
                      else k.lines.map (fun l => if hit l && wb then { l with dirty := false } else l) })

end Sys2Proof.Machine
end

