-- ==== Sys2Proof/Machine/Gath.lean ====
section
/-! DEFINITION. The gather engine: GATHER and WALK (R69, R245 to R247). -/

namespace Sys2Proof.Machine

/-! ## GATHER (R245) -/

structure GatherDesc where
  table : Nat
  index : Nat
  dst   : Nat
  rowBytes : Nat
  tp    : Nat
  rows  : Nat
  count : Nat
  dp    : Nat
  flags : Nat
  deriving DecidableEq, Repr

def GatherDesc.of (d : List Byte) : GatherDesc :=
  { table := leAt d 0 8, index := leAt d 8 8, dst := leAt d 0x10 8, rowBytes := leAt d 0x18 4, tp := leAt d 0x1C 4,
    rows := leAt d 0x20 4, count := leAt d 0x24 4, dp := leAt d 0x28 4, flags := leAt d 0x2C 1 }

def GatherDesc.dstBytes (d : GatherDesc) : Nat := (d.count - 1) * d.dp + d.rowBytes

def State.issueGather (s : State) (c : Nat) (w : Word128) : IssueRes :=
  let e := s.operand c w 0
  let d := GatherDesc.of (s.ms.bytes e.nat 64)
  { cause := lowestOf (s.operandCauses c e 64 .ownSram 64),
    op := .gather e.nat,
    claims := [.hull [(e.nat, 64), (mask42 d.index, 4 * d.count)] false, .rd (mask42 d.table) (d.rows * d.tp),
               .wr (mask42 d.dst) d.dstBytes] }

def State.checkGather (s : State) (c desc : Nat) : Nat :=
  let raw := s.ms.bytes desc 64
  let d := GatherDesc.of raw
  let tb := (d.rows - 1) * d.tp + d.rowBytes
  let hit (i : Nat) : Bool :=
    let a := d.dst + i * d.dp
    overlaps a d.rowBytes d.table tb || overlaps a d.rowBytes d.index (4 * d.count) || overlaps a d.rowBytes desc 64
  let bad :=
    s.ms.badRange desc 64 || [d.table, d.index, d.dst].any (fun a => decide (2 ^ 42 ≤ a))
    || !decide (64 ≤ d.rowBytes ∧ d.rowBytes ≤ 1048576 ∧ d.rowBytes % 64 = 0)
    || !decide (d.tp % 64 = 0 ∧ d.rowBytes ≤ d.tp) || !decide (d.dp % 64 = 0 ∧ d.rowBytes ≤ d.dp)
    || !decide (1 ≤ d.rows ∧ d.rows ≤ 2 ^ 32 - 2) || !decide (1 ≤ d.count ∧ d.count ≤ 16777215)
    || decide (15 < d.flags) || !allZero (slice raw 0x2D 19)
    || !s.placeOk c .engine d.table tb || !s.placeOk c .engine d.index (4 * d.count)
    || !s.placeOk c .engine d.dst d.dstBytes || (List.range d.count).any hit
  if bad then 0x17 else 0

/-- A table row as the engine reads it, line by line through the core cache, each byte with the mark of an uncorrectable
line. -/
def State.gathLines (c hint : Nat) (alloc : Bool) : Nat → State → Nat → Nat → State × List (Byte × Bool)
  | 0, s, _, _ => (s, [])
  | fuel + 1, s, src, n =>
    if n = 0 then (s, [])
    else
      let k := min n (64 - src % 64)
      let (s, bs, bad) := State.gathRead c hint alloc 3 s src k
      let (s, xs) := State.gathLines c hint alloc fuel s (src + k) (n - k)
      (s, bs.map (fun b => (b, bad)) ++ xs)

/-- A destination whose index was unreadable. -/
def markedRow (n : Nat) : List (Byte × Bool) := List.replicate n (0, true)

def State.modCacheBad (s : State) (c x : Nat) : State := s.modCache c (fun k => { k with badIndex := BitVec.ofNat 32 x })

/-- Rows i, i + 1, ... of a GATHER read: the writes of its destination rows, each byte with the mark of an uncorrectable
source (R232, R245), and the cause that stopped it (0 for none). -/
def State.gatherRows (c : Nat) (d : GatherDesc) : Nat → State → Nat → State × List (Nat × List (Byte × Bool)) × Nat
  | 0, s, _ => (s, [], 0)
  | n + 1, s, i =>
    let (s, ib, bad) := State.gathRead c 0 true 3 s (d.index + 4 * i) 4
    let ix := leNat ib
    let dst := d.dst + i * d.dp
    let next (s : State) (xs : List (Byte × Bool)) : State × List (Nat × List (Byte × Bool)) × Nat :=
      let r := State.gatherRows c d n s (i + 1)
      (r.1, (dst, xs) :: r.2.1, r.2.2)
    if bad then next s (markedRow d.rowBytes)
    else if ix = 0xFFFFFFFF ∧ d.flags.testBit 2 then next s (List.replicate d.rowBytes (0, false))
    else if d.rows ≤ ix then (s.modCacheBad c ix, [], 0x16)
    else
      let r := State.gathLines c (d.flags % 4) (!d.flags.testBit 3) (d.rowBytes / 64 + 2) s (d.table + ix * d.tp) d.rowBytes
      next r.1 r.2

/-- What a GATHER or WALK has read is written, a granule at a time (R271); the results are ERR and the cause. -/
def State.gathWrite (c : Nat) (r : State × List (Nat × List (Byte × Bool)) × Nat) : State × Bool × Nat :=
  let w := r.1.placeMarked (some c) 0 r.2.1
  (w.1, w.2 || r.2.2 != 0, r.2.2)

def State.runGather (s : State) (c : Nat) (raw : List Byte) : State × Bool × Nat :=
  let d := GatherDesc.of raw
  State.gathWrite c (State.gatherRows c d d.count s 0)

/-! ## WALK (R246) -/

structure WalkDesc where
  table : Nat
  pos   : Nat
  dst   : Nat
  entries : Nat
  dcode : Nat
  kvFmt : Nat
  pitch : Nat
  count : Nat
  head  : Nat
  flags : Nat
  deriving DecidableEq, Repr

def WalkDesc.of (d : List Byte) : WalkDesc :=
  { table := leAt d 0 8, pos := leAt d 8 8, dst := leAt d 0x10 8, entries := leAt d 0x18 2, dcode := leAt d 0x1A 1,
    kvFmt := leAt d 0x1B 1, pitch := leAt d 0x1C 4, count := leAt d 0x20 4, head := leAt d 0x24 1, flags := leAt d 0x25 1 }

/-- Bytes D x e of a row. -/
def WalkDesc.rowBytes (d : WalkDesc) : Nat := 64 * 2 ^ d.dcode * elemBytes (BitVec.ofNat 4 d.kvFmt)

def State.issueWalk (s : State) (c : Nat) (w : Word128) : IssueRes :=
  let e := s.operand c w 0
  let d := WalkDesc.of (s.ms.bytes e.nat 64)
  { cause := lowestOf (s.operandCauses c e 64 .ownSram 64),
    op := .walk e.nat,
    claims := [.hull [(e.nat, 64), (mask42 d.pos, 4 * d.count)] false, .rd (mask42 d.table) (16 * d.entries),
               .wr (mask42 d.dst) (8 * d.count)] }

def State.checkWalk (s : State) (c desc : Nat) : Nat :=
  let raw := s.ms.bytes desc 64
  let d := WalkDesc.of raw
  let bad :=
    s.ms.badRange desc 64 || [d.table, d.pos, d.dst].any (fun a => decide (2 ^ 42 ≤ a))
    || d.table % 64 != 0 || !decide (1 ≤ d.entries ∧ d.entries ≤ 4096) || decide (2 < d.dcode)
    || !(([0, 1, 3, 4] : List Nat).contains d.kvFmt) || d.pitch % 4096 != 0 || decide (d.pitch < 512 * d.rowBytes)
    || !decide (1 ≤ d.count ∧ d.count ≤ 16777215) || decide (15 < d.head) || decide (1 < d.flags)
    || !allZero (slice raw 0x26 26)
    || !s.placeOk c .engine d.table (16 * d.entries) || !s.placeOk c .engine d.pos (4 * d.count)
    || !s.placeOk c .engine d.dst (8 * d.count)
  if bad then 0x17 else 0

/-- Positions i, i + 1, ... of a WALK; as `gatherRows`. -/
def State.walkRows (c : Nat) (d : WalkDesc) : Nat → State → Nat → State × List (Nat × List (Byte × Bool)) × Nat
  | 0, s, _ => (s, [], 0)
  | n + 1, s, i =>
    let (s, pb, bad) := State.gathRead c 0 true 3 s (d.pos + 4 * i) 4
    let p := leNat pb
    let dst := d.dst + 8 * i
    let next (s : State) (xs : List (Byte × Bool)) : State × List (Nat × List (Byte × Bool)) × Nat :=
      let r := State.walkRows c d n s (i + 1)
      (r.1, (dst, xs) :: r.2.1, r.2.2)
    if bad then next s (markedRow 8)
    else if d.entries * 256 ≤ p then (s.modCacheBad c p, [], 0x16)
    else
      let (s, eb, ebad) := State.gathRead c 0 true 3 s (d.table + 16 * (p / 256)) 8
      let w := leNat eb
      let base := w % 2 ^ 42 / 4096 * 4096
      let a := base + d.head * d.pitch + (if d.flags.testBit 0 then 256 * d.rowBytes else 0) + p % 256 * d.rowBytes
      if ebad || w % 2 == 0 || decide (w / 2 % 512 ≤ p % 256) || !s.placeOk c .hbm base 1 || w / 1024 % 4 != 0
          || w / 2 ^ 42 != 0 then (s.modCacheBad c p, [], 0x15)
      else next s ((leBytes 8 a).map (fun b => (b, false)))

def State.runWalk (s : State) (c : Nat) (raw : List Byte) : State × Bool × Nat :=
  let d := WalkDesc.of raw
  State.gathWrite c (State.walkRows c d d.count s 0)

/-! ## What is under way -/

/-- Elements of a running GATHER or WALK. -/
def gathCount (r : REntry) : Nat :=
  match r.q.op with
  | some (.gather _) => (GatherDesc.of r.desc).count
  | some (.walk _) => (WalkDesc.of r.desc).count
  | _ => 0

/-- Some byte of [a, a + n) lies in an HBM line that the core cache does not hold. -/
def State.cacheMisses (s : State) (c a n : Nat) : Bool :=
  (linesOf a n).any (fun l => isHbm (64 * l) && ((s.cacheOf c).find l).isNone)

/-- An element of a running GATHER or WALK reads a line that the core cache misses. -/
def State.gathMisses (s : State) (c : Nat) (r : REntry) : Bool :=
  match r.q.op with
  | some (.gather _) =>
    let d := GatherDesc.of r.desc
    (List.range d.count).any (fun i =>
      let x := s.ms.le (d.index + 4 * i) 4
      s.cacheMisses c (d.index + 4 * i) 4
        || (decide (x < d.rows) && s.cacheMisses c (d.table + x * d.tp) d.rowBytes))
  | some (.walk _) =>
    let d := WalkDesc.of r.desc
    (List.range d.count).any (fun i =>
      let p := s.ms.le (d.pos + 4 * i) 4
      s.cacheMisses c (d.pos + 4 * i) 4
        || (decide (p < 256 * d.entries) && s.cacheMisses c (d.table + 16 * (p / 256)) 8))
  | _ => false

end Sys2Proof.Machine
end

