-- ==== Sys2Proof/Machine/Mule.lean ====
section
/-! DEFINITION. The Mule engines: COPY1 and COPYD, local and remote, and remote signals (R57, R70, R71, R76, R228, R232,
R233, R303, R308, R311, R312, R334, R358). -/

namespace Sys2Proof.Machine

/-! ## COPY1 (R70) -/

def State.issueCopy1 (s : State) (c : Nat) (w : Word128) : IssueRes :=
  let src := s.operand c w 0
  let dst := s.operand c w 24
  let n := w.body 48 32 + 1
  let cs := s.operandCauses c src 64 .muleSrc n ++ s.operandCauses c dst 64 .store n
  { cause := lowestOf ((0x11, s.eaOverlap src n dst n) :: cs),
    op := .copy1 src.nat dst.nat n (BitVec.ofNat 2 (w.body 80 2)) (BitVec.ofNat 2 (w.body 82 2)),
    claims := [.rd src.nat n, .wr dst.nat n] }

/-! ## COPYD (R71) -/

structure CopyDesc where
  src    : Nat
  dst    : Nat
  rowLen : Nat
  rows   : Nat
  sp     : Int
  dp     : Int
  flags  : Nat
  rsig   : Nat
  chunk  : Nat
  slotTag : Nat
  deriving DecidableEq, Repr

def CopyDesc.of (d : List Byte) : CopyDesc :=
  { src := leAt d 0 8, dst := leAt d 8 8, rowLen := leAt d 0x10 4, rows := leAt d 0x14 4,
    sp := (BitVec.ofNat 32 (leAt d 0x18 4)).toInt, dp := (BitVec.ofNat 32 (leAt d 0x1C 4)).toInt,
    flags := leAt d 0x20 4, rsig := leAt d 0x24 4, chunk := leAt d 0x28 4, slotTag := leAt d 0x2C 4 }

def CopyDesc.cls (d : CopyDesc) : Nat := d.flags % 4
def CopyDesc.shint (d : CopyDesc) : Nat := d.flags / 4 % 4
def CopyDesc.dhint (d : CopyDesc) : Nat := d.flags / 16 % 4
def CopyDesc.eth (d : CopyDesc) : Bool := d.flags.testBit 6
def CopyDesc.rsigEn (d : CopyDesc) : Bool := d.flags.testBit 8
def CopyDesc.srcDev (d : CopyDesc) : DevId := BitVec.ofNat 14 (d.src / 2 ^ 42)
def CopyDesc.dstDev (d : CopyDesc) : DevId := BitVec.ofNat 14 (d.dst / 2 ^ 42)
def CopyDesc.srcLocal (d : CopyDesc) : Nat := d.src % 2 ^ 42
def CopyDesc.dstLocal (d : CopyDesc) : Nat := d.dst % 2 ^ 42
def CopyDesc.rsigDev (d : CopyDesc) : DevId := BitVec.ofNat 14 d.rsig
def CopyDesc.rsigCore (d : CopyDesc) : Nat := d.rsig / 2 ^ 14 % 8
def CopyDesc.rsigCc (d : CopyDesc) : Nat := d.rsig / 2 ^ 17 % 64

/-- Addresses of row i at the source and at the destination. -/
def CopyDesc.srcRow (d : CopyDesc) (i : Nat) : Int := d.srcLocal + i * d.sp
def CopyDesc.dstRow (d : CopyDesc) (i : Nat) : Int := d.dstLocal + i * d.dp

/-- Lowest byte and length of the extent that rows of a pitch touch. -/
def rowExtent (base : Nat) (rows rowLen : Nat) (pitch : Int) : Nat × Nat :=
  let last : Int := base + ((rows : Int) - 1) * pitch
  let lo := min (base : Int) last
  ((lo).toNat, (max (base : Int) last - lo).toNat + rowLen)

/-- The source end is on another module. -/
def State.copySrcRemote (s : State) (d : CopyDesc) : Bool := !d.eth && !s.isOwnDev d.srcDev
def State.copyDstRemote (s : State) (d : CopyDesc) : Bool := !s.isOwnDev d.dstDev

/-- Every byte of the rows at an end satisfies a place rule. -/
def rowsOk (rows rowLen : Nat) (at_ : Nat → Int) (ok : Nat → Nat → Bool) : Bool :=
  (List.range rows).all (fun i => decide (0 ≤ at_ i ∧ at_ i + rowLen ≤ 2 ^ 42) && ok (at_ i).toNat rowLen)

def State.issueCopyd (s : State) (c : Nat) (w : Word128) : IssueRes :=
  let e := s.operand c w 0
  let d := CopyDesc.of (s.ms.bytes e.nat 64)
  let ends : List Range :=
    if inSram c e.nat 64 then
      let r := rowExtent d.srcLocal d.rows d.rowLen d.sp
      let t := rowExtent d.dstLocal d.rows d.rowLen d.dp
      (if d.eth || s.copySrcRemote d then [] else [Range.rd r.1 r.2])
        ++ (if s.copyDstRemote d then [] else [Range.wr t.1 t.2])
    else []
  { cause := lowestOf (s.operandCauses c e 64 .engine 64), op := .copyd e.nat, claims := .rd e.nat 64 :: ends }

/-- The ingest buffer a SRC_ETH descriptor names, by SRC[15:0] alone (log 156). -/
def State.ingestOf (s : State) (d : CopyDesc) : Option Window :=
  s.eth.windows.find? (fun w => w.ingest && w.buffer == d.src % 65536)

/-- The source of a SRC_ETH copy is not known while its buffer has no full slot: the copy waits, and its overlap with the
destination is judged when a slot is full (R358; log 149). -/
def State.noSlotYet (s : State) (d : CopyDesc) : Bool :=
  d.eth && (match s.ingestOf d with
    | some w => w.full.isEmpty
    | none => false)

/-- Address of the source of row i of a local copy. -/
def State.copySrcAt (s : State) (d : CopyDesc) (i : Nat) : Int :=
  if d.eth then
    match s.ingestOf d with
    | some w => (w.base + (w.full.headD (0, 0)).1 * w.slotBytes + i * d.rowLen : Nat)
    | none => 0
  else d.srcRow i

/-- RSIG names a counter of a device of the job and nothing above it (R71, R76). -/
def State.rsigOk (s : State) (c : Nat) (d : CopyDesc) : Bool := s.inJob (s.partNo c) d.rsigDev && decide (d.rsig < 2 ^ 23)

/-- Cause of a COPYD when it starts: 0x17 or 0 (R71, R228, R232, R358; RSIG and SRC bits that the table leaves out: log 156). -/
def State.checkCopyd (s : State) (c desc : Nat) : Nat :=
  let raw := s.ms.bytes desc 64
  let d := CopyDesc.of raw
  let p := s.partNo c
  let sr := s.copySrcRemote d
  let dr := s.copyDstRemote d
  let ethBad := d.eth && (d.cls != 0 || (match s.ingestOf d with
    | some w => w.part.toNat != p || (match w.full with
      | m :: _ => d.rows * d.rowLen != m.2
      | [] => false)
    | none => true))
  let hit (i j : Nat) : Bool := overlaps (s.copySrcAt d i).toNat d.rowLen (d.dstRow j).toNat d.rowLen
  let bad :=
    s.ms.badRange desc 64
    || decide (2 ^ 56 ≤ d.src) || decide (2 ^ 56 ≤ d.dst)
    || d.rowLen == 0 || d.rows == 0 || decide (2 ^ 40 < d.rows * d.rowLen)
    || d.cls == 3 || decide (65536 ≤ d.slotTag)
    || (d.rsigEn && decide (2 ^ 23 ≤ d.rsig)) || !allZero (slice raw 0x30 16)
    || (sr && dr) || (d.cls == 0 && (sr || dr)) || (d.cls == 2 && sr)
    || (sr && !s.inJob p d.srcDev) || (dr && !s.inJob p d.dstDev)
    || (d.rsigEn && !s.inJob p d.rsigDev) || ethBad
    || (!d.eth && !rowsOk d.rows d.rowLen d.srcRow (fun a n => sr || s.placeOk c .muleSrc a n))
    || !rowsOk d.rows d.rowLen d.dstRow (fun a n => dr || s.placeOk c .store a n)
    || (!sr && !dr && !s.noSlotYet d && (List.range d.rows).any (fun i => (List.range d.rows).any (hit i)))
  if bad then 0x17 else 0

/-- A COPYD under SRC_ETH waits until a slot of its buffer is full (R358). -/
def State.copyWaits (s : State) (c desc : Nat) : Bool :=
  let d := CopyDesc.of (s.ms.bytes desc 64)
  s.checkCopyd c desc == 0 && s.noSlotYet d

/-! ## Remote signals (R57) -/

/-- A remote signal applied at this module. -/
def State.remoteSignal (s : State) (tag : BitVec 16) (core cc : Nat) (err : Bool) : State :=
  if (s.core core).id.jobTag = tag then s.bumpCc core cc err
  else s.modCore core (fun k => k.modErr (fun r => { r with remoteSigRej := satInc r.remoteSigRej }))

/-- The remote signal of a copy of core c, applied here or sent as a SIGNAL packet in the best-effort class (R336). -/
def State.sendRsig (s : State) (c : Nat) (d : CopyDesc) (err : Bool) : State :=
  let tag := (s.core c).id.jobTag
  if !d.rsigEn then s
  else if s.isOwnDev d.rsigDev then s.remoteSignal tag d.rsigCore d.rsigCc err
  else
    let f : PacketFields :=
      { ty := 0x4, dst := d.rsigDev, src := s.dev, srcCore := c, jobTag := tag, dstCore := d.rsigCore, counter := d.rsigCc,
        err := err }
    if s.outstanding < 8192 ∧ s.fab.rsigQ = [] then s.newReq f .signal none
    else s.modFab (fun b => { b with rsigQ := b.rsigQ ++ [f] })

/-- Remote signals that wait leave while the module holds fewer than 8,192 unanswered requests (R308). -/
def State.pumpRsigs : List PacketFields → State → State
  | [], s => s.modFab (fun b => { b with rsigQ := [] })
  | f :: r, s =>
    if s.outstanding < 8192 then State.pumpRsigs r (s.newReq f .signal none) else s.modFab (fun b => { b with rsigQ := f :: r })

/-- A COPYD skipped under cause 0x17 still sends its remote signal when its descriptor is readable and RSIG valid (R76). -/
def State.skipRsig (s : State) (c desc : Nat) : State :=
  let d := CopyDesc.of (s.ms.bytes desc 64)
  if !s.ms.badRange desc 64 && s.rsigOk c d then s.sendRsig c d true else s

/-! ## Local data movement (R232, R233) -/

/-- Bytes of [a, a + n) as a Mule engine reads them, each with the mark of an uncorrectable granule. -/
def State.viewMarked (s : State) (a n : Nat) : List (Byte × Bool) :=
  (s.view a n).zip ((linesOf a n).flatMap (fun l =>
    List.replicate (min (a + n) (64 * l + 64) - max a (64 * l)) (s.ms.badLine l)))

/-- n bytes of a copy's source from a on: a line that the copy read last is not read again (R271; log 132). -/
def State.copyRead (s : State) (sh : Nat) (held : Option HeldLine) (a n : Nat) :
    State × List (Byte × Bool) × Option HeldLine :=
  let own := match held with
    | some h => if h.1 = a / 64 then (h.2.drop (a % 64)).take n else []
    | none => []
  let k := own.length
  (s.noteReads (a + k) (n - k) sh, own ++ s.viewMarked (a + k) (n - k),
   if n ≤ k then held else some ((a + n - 1) / 64, s.viewMarked (64 * ((a + n - 1) / 64)) 64))

/-- Rows i, i + 1, ... of a local copy read, each with its place at the destination. -/
def State.copyRows (sh : Nat) (srcAt dstAt : Nat → Int) (rowLen : Nat) :
    Nat → State → Nat → Option HeldLine → State × List (Nat × List (Byte × Bool))
  | 0, s, _, _ => (s, [])
  | n + 1, s, i, held =>
    let r := s.copyRead sh held (srcAt i).toNat rowLen
    let q := State.copyRows sh srcAt dstAt rowLen n r.1 (i + 1) r.2.2
    (q.1, ((dstAt i).toNat, r.2.1) :: q.2)

/-- COPY1: the source is read, then each destination granule is written once (R232, R271; the order of the two is the
model's, log 132). -/
def State.runCopy1 (s : State) (c src dst len : Nat) (sh dh : BitVec 2) : State × Bool :=
  let r := s.copyRead sh.toNat none src len
  r.1.placeMarked (some c) dh.toNat [(dst, r.2.1)]

/-- The oldest full slot of an ingest buffer freed. -/
def State.freeSlot (s : State) (buffer : Nat) : State :=
  s.modEth (fun e => { e with windows := e.windows.map (fun w =>
    if w.ingest && w.buffer == buffer then { w with full := w.full.tail } else w) })

/-- A COPYD whose two ends are local. -/
def State.runCopyLocal (s : State) (c : Nat) (d : CopyDesc) : State × Bool :=
  let r := State.copyRows d.shint (s.copySrcAt d) d.dstRow d.rowLen d.rows s 0 none
  let w := r.1.placeMarked (some c) d.dhint r.2
  (if d.eth then w.1.freeSlot (d.src % 65536) else w.1, w.2)

/-! ## Remote copies (R300, R308, R311, R334) -/

/-- One packet of a remote copy: local address, remote address, bytes. -/
structure CopyPart where
  loc : Nat
  rem : Nat
  n   : Nat
  deriving DecidableEq, Repr

/-- A row cut into packets: each carries at most 64 units, its first unit being the one that holds its first byte of
the destination. -/
def cutRow : Nat → Nat → Nat → Nat → Bool → List CopyPart
  | 0, _, _, _, _ => []
  | fuel + 1, loc, rem, n, write =>
    if n = 0 then []
    else
      let k := min n (4096 - (if write then rem else loc) % 64)
      ⟨loc, rem, k⟩ :: cutRow fuel (loc + k) (rem + k) (n - k) write

/-- The packets of a remote copy in order. -/
def CopyDesc.parts (d : CopyDesc) (write : Bool) : List CopyPart :=
  (List.range d.rows).flatMap (fun i =>
    let a := (d.srcRow i).toNat
    let b := (d.dstRow i).toNat
    if write then cutRow (d.rowLen / 4032 + 2) a b d.rowLen true else cutRow (d.rowLen / 4032 + 2) b a d.rowLen false)

/-- The WRITE packet of a part: the data read from the local source, placed from the granule of its first byte. -/
def State.writePacket (s : State) (c : Nat) (d : CopyDesc) (p : CopyPart) (xs : List (Byte × Bool)) : PacketFields :=
  let lead := p.rem % 64
  let units := ceilDiv (lead + p.n) 64
  { ty := 0x1, dst := d.dstDev, src := s.dev, srcCore := c, jobTag := (s.core c).id.jobTag, addr := p.rem,
    tail := (lead + p.n) % 64, payload := slice (List.replicate lead 0 ++ xs.map (·.1)) 0 (64 * units), poison := xs.any (·.2) }

/-- The READ packet of a part: return address and byte count in its payload. -/
def State.readPacket (s : State) (c : Nat) (d : CopyDesc) (p : CopyPart) : PacketFields :=
  { ty := 0x2, dst := d.srcDev, src := s.dev, srcCore := c, jobTag := (s.core c).id.jobTag, addr := p.rem,
    payload := slice (leBytes 8 p.loc ++ leBytes 4 p.n) 0 64 }

def State.modRun (s : State) (c : Nat) (u : EngUnit) (id : Nat) (f : REntry → REntry) : State :=
  s.modCore c (fun k => k.modEng u (fun e => e.modRunning id f))

/-- A scheduled packet becomes ready at this source: an XID, its minimal route, which no fault map changes (R306), and its
late limit (R334). -/
def State.readySched (s : State) (f : PacketFields) (tag : Nat) (owner : ReqOwner) (core unit_ id : Nat)
    (limit : BitVec 64) (src : Option (Nat × Nat)) : State :=
  let x := s.fab.nextXid
  let dir := s.fab.planned s.dev.toNat f.dst.toNat
  let p := ((({ f with xid := x }.build).withDir dir).withClass true).withTag tag
  match s.fab.plannedTrunk s.dev.toNat f.dst.toNat with
  | none => s.newReq f owner src
  | some t =>
    let s := s.modFab (fun b => { b with nextXid := b.nextXid + 1 })
    let s := s.keepReq { xid := x, pkt := p, owner := owner, src := src }
    s.modFab (fun b => { b with sched := b.sched ++ [⟨x, p, t, core, unit_, id, limit, s.now⟩] })

/-- Late limit of a scheduled operation: its launch time, or its start, plus LATE_SLOTS x 128 ns (R334). -/
def State.lateLimit (s : State) (base : BitVec 64) : BitVec 64 :=
  let n := if s.time.lateSlots = 0 then s.time.frameM1.toNat + 1 else s.time.lateSlots.toNat
  base + BitVec.ofNat 64 (128 * n)

/-- One packet of a remote copy leaves, or becomes ready in the scheduled class. -/
def State.sendPart (s : State) (c m : Nat) (r : REntry) (d : CopyDesc) (p : CopyPart) : State :=
  let own : ReqOwner := .copy c m r.q.id
  let held := (((s.core c).eng (muleUnit m)).running.find? (fun x => x.q.id == r.q.id)).bind (·.held)
  let s := s.modRun c (muleUnit m) r.q.id (fun r => { r with sent := r.sent + 1, outstanding := r.outstanding + 1 })
  if s.copyDstRemote d then
    let x := s.copyRead d.shint held p.loc p.n
    let f := s.writePacket c d p x.2.1
    let s := x.1.modRun c (muleUnit m) r.q.id (fun r => { r with held := x.2.2 })
    if d.cls = 2 then
      s.readySched f (d.slotTag % 65536) own c m r.q.id (s.lateLimit (r.q.launch.getD r.startFt)) (some (p.loc, p.n))
    else s.newReq f own (some (p.loc, p.n))
  else s.newReq (s.readPacket c d p) own none

/-- Packets of a running remote copy are sent while the module holds fewer than 8,192 unanswered requests. -/
def State.sendParts (c m : Nat) (r : REntry) (d : CopyDesc) : State → List CopyPart → State
  | s, [] => s
  | s, p :: ps => if s.outstanding < 8192 then State.sendParts c m r d (s.sendPart c m r d p) ps else s

/-- The descriptor a running copy holds. -/
def REntry.copyDesc (r : REntry) : CopyDesc := CopyDesc.of r.desc

/-- A running operation is a remote copy of this module. -/
def State.isRemoteCopy (s : State) (r : REntry) : Bool :=
  match r.q.op with
  | some (.copyd _) => s.copySrcRemote r.copyDesc || s.copyDstRemote r.copyDesc
  | _ => false

/-- Packets of the copy. -/
def State.copyParts (s : State) (r : REntry) : List CopyPart := r.copyDesc.parts (s.copyDstRemote r.copyDesc)

/-- Every Mule engine goes on sending its remote copy (R308). -/
def State.pumpCopies (s : State) : State :=
  let s := if s.fab.rsigQ.isEmpty then s else State.pumpRsigs s.fab.rsigQ s
  (List.range 32).foldl (fun s i =>
    let c := i / 4
    let m := i % 4
    ((s.core c).eng (muleUnit m)).running.foldl (fun s r =>
      if s.isRemoteCopy r then
        let parts := s.copyParts r
        let s := State.sendParts c m r r.copyDesc s (parts.drop r.sent)
        let n := (((s.core c).eng (muleUnit m)).running.find? (fun x => x.q.id == r.q.id)).map (fun x => x.sent)
        if decide (parts.length ≤ n.getD 0) then s.modRun c (muleUnit m) r.q.id (fun x => { x with inRows := false }) else s
      else s) s) s

/-- Every byte of the copy is written, here or at the other module. -/
def State.copyDone (s : State) (r : REntry) : Bool :=
  !s.isRemoteCopy r || (decide ((s.copyParts r).length ≤ r.sent) && r.outstanding == 0)

/-- A late scheduled copy, to another module or within this one, is reported when it completes (R338; the trunk that a local one
names: log 161). -/
def State.reportLate (s : State) (c : Nat) (r : REntry) : State :=
  let d := r.copyDesc
  match r.q.op with
  | some (.copyd _) =>
    if d.cls = 2 && (r.late || r.fellBack != 0 || r.resent) then
      s.noteLateOp c (d.slotTag % 65536) ((s.fab.plannedTrunk s.dev.toNat d.dstDev.toNat).getD 0) r.fbCause r.fellBack
    else s
  | _ => s

end Sys2Proof.Machine
end

