-- ==== Sys2Proof/Machine/Retire.lean ====
section
/-! DEFINITION. How operations leave the engines: skips and their records, null entries, lateness of held operations,
signals and the release of scoreboard entries (R53, R54, R58, R65, R74, R76). -/

namespace Sys2Proof.Machine

/-! ## Skips (R74, R78) -/

/-- CORE.LAST_ERR. -/
def ErrRegs.lastErr (r : ErrRegs) : BitVec 64 :=
  pack [(r.lePc.toNat, 0), (r.leEngine.toNat, 20), (r.leOpcode.toNat, 24), (r.leCause.toNat, 32), (r.leRank.toNat, 40),
    (b2n r.leBcast, 44), (b2n r.leExec, 45), (b2n r.leValid, 48), (b2n r.leOverwritten, 49)]

/-- A skip counted and recorded. -/
def ErrRegs.note (r : ErrRegs) (q : QEntry) (cause : Nat) (rank : BitVec 3) (exec : Bool) (ft : BitVec 64) : ErrRegs :=
  { r with
    illegal := if cause < 0x10 then satInc r.illegal else r.illegal
    inconsistent := if cause < 0x10 then r.inconsistent else satInc r.inconsistent
    lePc := q.pc, leEngine := q.engine, leOpcode := q.opcode, leCause := BitVec.ofNat 8 cause, leRank := rank
    leBcast := q.bcast, leExec := exec, leOverwritten := r.leValid || r.leOverwritten, leValid := true, leFt := ft }

/-- A skipped instruction is counted, recorded in CORE.LAST_ERR and the Goose; an independent core with STOP_ON_ERR
stops (R74, R77). The steward's report of the stop is what the host reads: SEQ_STAT, LAST_ERR and the Goose record
(DESIGN CHOICE, log 100: R74 names no means). -/
def State.recordSkip (s : State) (c : Nat) (q : QEntry) (cause : Nat) (exec : Bool) : State :=
  let s := s.modCore c (fun k => k.modErr (fun r => r.note q cause k.id.rank exec s.now))
  let s := s.logBudget c (s.coreEvent c 0x01 [(((s.core c).err.lastErr).toNat % 2 ^ 46, 8)])
  s.modCore c (fun k => if k.err.stopOnErr && !k.id.bcast then k.modSeq (fun x => { x with stopped := true }) else k)

/-! ## Signals of operations (R53, R54, R58) -/

/-- Operation `id` of a unit leaves the engine: its scoreboard entries are released and its counter signalled. -/
def State.finish (s : State) (c : Nat) (u : EngUnit) (id : Nat) (sigcc : BitVec 8) (err : Bool) : State :=
  let s := s.modCore c (fun k =>
    (k.modEng u (fun e => { e with running := e.running.filter (fun r => r.q.id != id) })).modSeq (fun q => q.release id))
  s.signal c sigcc err

/-- A skip found at execution: recorded, then signalled at once with ERR (R76). -/
def State.skipExec (s : State) (c : Nat) (u : EngUnit) (q : QEntry) (cause : Nat) : State :=
  (s.recordSkip c q cause true).finish c u q.id q.sigcc true

/-- An operation enters its unit's list of running operations. -/
def State.run (s : State) (c : Nat) (u : EngUnit) (r : REntry) : State :=
  s.modCore c (fun k => k.modEng u (fun e => { e with running := e.running ++ [r] }))

/-- The head leaves the issue queue of a unit. -/
def State.popHead (s : State) (c : Nat) (u : EngUnit) : State :=
  s.modCore c (fun k => k.modEng u (fun e => { e with queue := e.queue.tail }))

/-! ## Launch times (R64, R65) -/

/-- The head may start: it has no launch time, or fabric time has reached it. -/
def QEntry.launchOk (q : QEntry) (now : BitVec 64) : Bool :=
  match q.launch with
  | some t => decide (t ≤ now)
  | none => true

/-- The operation starts more than 8 ns after its launch time. -/
def QEntry.lateAt (q : QEntry) (now : BitVec 64) : Bool :=
  match q.launch with
  | some t => decide (t.toNat + 8 < now.toNat)
  | none => false

/-- A late launch is counted and recorded (R65). -/
def State.noteLaunch (s : State) (c : Nat) (q : QEntry) : State :=
  match q.launch with
  | some t =>
    if q.lateAt s.now then
      let n := s.now.toNat - t.toNat
      let v : BitVec 32 := BitVec.ofNat 32 (min n (2 ^ 32 - 1))
      let s := s.modCore c (fun k => k.modErr (fun r =>
        { r with lateCount := satInc r.lateCount, maxLate := if r.maxLate < v then v else r.maxLate }))
      s.logBudget c (s.coreEvent c 0x02 [(v.toNat, 4)])
    else s
  | none => s

/-- The head of a unit's queue starts: it leaves the queue and runs. -/
def State.start (s : State) (c : Nat) (u : EngUnit) (r : REntry) : State :=
  let late := r.q.lateAt s.now
  ((s.popHead c u).noteLaunch c r.q).run c u { r with startFt := s.now, late := late }

/-! ## Null entries (R76) -/

/-- Null entries at the head of a queue leave it and wait for the earlier operations of their engine; one under a valid
LAUNCH_AT is held until its launch time. -/
def State.dropNulls (c : Nat) (u : EngUnit) : Nat → State → State
  | 0, s => s
  | n + 1, s =>
    match ((s.core c).eng u).queue with
    | q :: _ =>
      if q.op.isNone && q.launchOk s.now then State.dropNulls c u n ((s.popHead c u).run c u { q := q, inRows := false })
      else s
    | [] => s

/-- The oldest null entry of a unit that has left the queue while no earlier operation of the unit still runs. -/
def EngQueue.readyNull (e : EngQueue) : Option REntry :=
  e.running.find? (fun r => r.q.op.isNone && e.running.all (fun x => decide (r.q.id ≤ x.q.id)))

/-- A null entry signals its counter with ERR. -/
def State.signalNull (s : State) (c : Nat) (u : EngUnit) : State :=
  match ((s.core c).eng u).readyNull with
  | some r => s.finish c u r.q.id r.q.sigcc true
  | none => s

end Sys2Proof.Machine
end

