-- ==== Sys2Proof/Machine/MsgEng.lean ====
section
/-! DEFINITION. Message queues and the MSG engine: arrival, status, credit, receive, flush and the KT4 operations
(R31 to R43, R72). -/

namespace Sys2Proof.Machine

/-! ## Queue contents (R31, R34, R42, R44) -/

/-- Fewer than 8 free entries. -/
def MsgQueue.full (q : MsgQueue) : Bool := decide (24 < q.entries.length)

/-- Entries from the head message on: stage 0, or the read position in KT4 mode. -/
def MsgQueue.ahead (q : MsgQueue) : List MsgEntry := if q.kt4 then q.entries.drop q.rdPos else q.entries

/-- Entries of the first message of a list, when its end mark is there. -/
def firstMsg : List MsgEntry → Option (List MsgEntry)
  | [] => none
  | e :: r => if e.last then some [e] else (firstMsg r).map (e :: ·)

/-- The complete head message. -/
def MsgQueue.head (q : MsgQueue) : Option (List MsgEntry) := firstMsg q.ahead

/-- Sideband of an entry (R31). -/
def MsgEntry.sideband (e : MsgEntry) : Nat :=
  e.srcDev.toNat + e.srcCore.toNat * 2 ^ 14 + e.pos.toNat * 2 ^ 17 + b2n e.last * 2 ^ 20

/-- Entries of a message of whole units of payload. -/
def entriesOf (dev : DevId) (core : Nat) (payload : List Byte) : List MsgEntry :=
  let n := payload.length / 64
  (List.range n).map (fun i =>
    { payload := BitVec.ofNat 512 (leNat (slice payload (64 * i) 64)), srcDev := dev, srcCore := BitVec.ofNat 3 core,
      pos := BitVec.ofNat 3 i, last := i + 1 == n })

/-! ## Credit mirror (R37) -/

/-- Device value under which a mirror entry is kept: this module by either name is one. -/
def State.mirrorDev (s : State) (d : DevId) : DevId := if s.isOwnDev d then 0x3FFF else d

def MirrorEntry.names (m : MirrorEntry) (d : DevId) (core : Nat) (q : Nat) : Bool :=
  m.dev == d && m.core.toNat == core && m.queue.toNat == q

/-- The mirror shows the destination full; a destination not in it counts as not full. -/
def MsgRegs.mirrorFull (r : MsgRegs) (d : DevId) (core q : Nat) : Bool :=
  r.mirror.any (fun m => m.names d core q && m.full)

/-- A destination addressed: it becomes the most recently used entry, FULL as held. -/
def MsgRegs.address (r : MsgRegs) (d : DevId) (core q : Nat) : MsgRegs :=
  let f := r.mirrorFull d core q
  let rest := r.mirror.filter (fun m => !m.names d core q)
  { r with mirror := (⟨d, BitVec.ofNat 3 core, BitVec.ofNat 4 q, f⟩ :: rest).take 64 }

/-- FULL recorded for a destination that is in the mirror. -/
def MsgRegs.setMirror (r : MsgRegs) (d : DevId) (core q : Nat) (full : Bool) : MsgRegs :=
  { r with mirror := r.mirror.map (fun m => if m.names d core q then { m with full := full } else m) }

/-! ## Credit updates (R38) -/

/-- One listed sender told that queue q of core c is no longer full. -/
def State.creditTo (s : State) (c q : Nat) (dest : DevId × BitVec 3) : State :=
  if s.isOwnDev dest.1 then s.modCore dest.2.toNat (fun k => k.modMsg (fun r => r.setMirror 0x3FFF c q false))
  else
    let f : PacketFields :=
      { ty := 0x7, dst := dest.1, src := s.dev, srcCore := c, jobTag := (s.core c).id.jobTag, dstCore := dest.2.toNat,
        queue := q }
    s.sendResp f.build

/-- A queue changed; when FULL falls its senders are told and the list is cleared. -/
def State.changeQueue (s : State) (c q : Nat) (f : MsgQueue → MsgQueue) : State :=
  let old := (s.core c).queue q
  let s := s.modCore c (fun k => k.modQueue q f)
  if old.full && !((s.core c).queue q).full then
    let s' := s.modCore c (fun k => k.modQueue q (fun x => { x with senders := [] }))
    old.senders.foldl (fun s t => s.creditTo c q t) s'
  else s

/-- A sender whose status carried FULL = 1 is listed; a ninth sets CREDIT_OVF (R38). -/
def MsgQueue.list (q : MsgQueue) (dev : DevId) (core : BitVec 3) : MsgQueue :=
  if q.senders.contains (dev, core) then q
  else if q.senders.length < 8 then { q with senders := q.senders ++ [(dev, core)] }
  else { q with creditOvf := true }

/-! ## Status (R33, R36, R39) -/

/-- A scheduled SEND that was late is reported when it ends (R338). -/
def State.reportLateSend (s : State) (c : Nat) (p : PendingSend) : State :=
  if p.sched && (p.late || p.fellBack != 0 || p.resent) then
    s.noteLateOp c p.tag.toNat ((s.fab.plannedTrunk s.dev.toNat p.dev.toNat).getD 0) p.fbCause p.fellBack
  else s

/-- The status of SEND `id` of core c: mirror, signal; a status after the timeout is discarded and counted. -/
def State.sendStatus (s : State) (c id : Nat) (reject full : Bool) : State :=
  match (s.core c).msg.sends.find? (fun p => p.id == id) with
  | some p =>
    let md := s.mirrorDev p.dev
    let s := s.modCore c (fun k => k.modMsg (fun r =>
      MsgRegs.setMirror { r with sends := r.sends.filter (fun x => x.id != id) } md p.core.toNat p.queue.toNat full))
    (s.reportLateSend c p).finish c .msg id p.sigcc reject
  | none => s.modCore c (fun k => k.modMsg (fun r => { r with lateStatus := satInc r.lateStatus }))

/-- No status within 1 ms of a send (R39). -/
def State.sendTimeout (s : State) (c id : Nat) : State :=
  match (s.core c).msg.sends.find? (fun p => p.id == id) with
  | some p =>
    let s := s.modCore c (fun k => k.modMsg (fun r =>
      { r with sends := r.sends.filter (fun x => x.id != id), statusTimeout := satInc r.statusTimeout }))
    (s.reportLateSend c p).finish c .msg id p.sigcc true
  | none => s

/-- An applied SIGNAL or MSG packet enters the duplicate table with its status (R310). -/
def State.addDup (s : State) (p : Packet) (status : Nat) (full : Bool) : State :=
  s.modFab (fun f => { f with dups := f.dups ++ [⟨p.srcDev, p.xid, BitVec.ofNat 8 status, full⟩] })

/-- The status of a message to its source: status code of R309 and FULL. EVT_REJ counts every event message that is not
accepted (log 158). -/
def State.msgStatus (s : State) (src : MsgSrc) (status : Nat) (full : Bool) : State :=
  match src with
  | .core c id => s.sendStatus c id (status != 0) full
  | .fabric p => (s.addDup p status full).sendAck p status full
  | .ud n => s.modUd n (fun u => if status = 0 then { u with evtSent := satInc u.evtSent } else { u with evtRej := satInc u.evtRej })

/-- Device and core that a status with FULL = 1 lists. -/
def State.listed (s : State) (src : MsgSrc) : Option (DevId × BitVec 3) :=
  match src with
  | .core c _ => some (s.dev, BitVec.ofNat 3 c)
  | .fabric p => some (p.srcDev, p.srcCore)
  | .ud _ => none

def State.listSender (s : State) (c q : Nat) (src : MsgSrc) : State :=
  match s.listed src with
  | some t => s.modCore c (fun k => k.modQueue q (fun x => x.list t.1 t.2))
  | none => s

/-! ## Flush (R41) -/

/-- The flush of a queue takes effect: contents, read position and mark go; waiting MSG FLUSH instructions signal. -/
def State.flushNow (s : State) (c q : Nat) : State :=
  let s := s.changeQueue c q (fun x =>
    { x with entries := [], rdPos := 0, mark := 0, markValid := false, flushPending := false })
  ((s.core c).msgq.running).foldl (fun s r =>
    match r.q.op with
    | some (.flush f) => if f.toNat = q then s.finish c .msg r.q.id r.q.sigcc false else s
    | _ => s) s

/-- A flush request: at once unless a message is partly arrived. -/
def State.requestFlush (s : State) (c q : Nat) : State :=
  if ((s.core c).queue q).locked then s.modCore c (fun k => k.modQueue q (fun x => { x with flushPending := true }))
  else s.flushNow c q

/-! ## Arrival (R32 to R36) -/

/-- Rank of a source among first entries of equal age (R35). -/
def MsgSrc.rank : MsgSrc → Nat
  | .core c _ => c
  | .fabric _ => 8
  | .ud n => 9 + n

/-- The message of a queue whose next entry arrives: the one that holds the input, else the oldest (R32, R35). -/
def State.nextArrival (s : State) (c q : Nat) : Option LocalMsg :=
  let ms := s.locals.filter (fun m => m.core == c && m.queue == q)
  match ms.find? (fun m => m.started) with
  | some m => some m
  | none => ms.foldl (fun best m =>
      match best with
      | none => some m
      | some b => if m.ft < b.ft || (m.ft == b.ft && decide (m.src.rank < b.src.rank)) then some m else some b) none

/-- The message taken out of the list of those under way. -/
def State.dropLocal (s : State) (m : LocalMsg) : State := { s with locals := s.locals.erase m }

/-- A message whose first entry reaches a queue: discarded, ignored or accepted (R33, R34). The flag says accepted. -/
def State.offer (s : State) (m : LocalMsg) : State × Bool :=
  if m.jobTag ≠ (s.core m.core).id.jobTag then
    let s := s.modCore m.core (fun k => k.modMsg (fun r => { r with tagReject := satInc r.tagReject }))
    (s.msgStatus m.src 2 false, false)
  else if ((s.core m.core).queue m.queue).full then
    let s := s.modCore m.core (fun k => k.modQueue m.queue (fun x =>
      { x with overrun := true, rejectCount := satInc x.rejectCount }))
    ((s.listSender m.core m.queue m.src).msgStatus m.src 3 true, false)
  else (s, true)

/-- Entries of an accepted message enter its queue; with the end mark the status is sent (R34, R36). FULL is reported as
it stands before a pending flush takes effect (DESIGN CHOICE, log 101). A RECV that waits at the head for this end mark is
not in progress: the flush comes first (R41; DESIGN CHOICE, log 134). -/
def State.enter (s : State) (m : LocalMsg) (n : Nat) : State :=
  let now := m.entries.take n
  let rest := m.entries.drop n
  let s := s.modCore m.core (fun k => k.modQueue m.queue (fun x =>
    { x with entries := x.entries ++ now, locked := !rest.isEmpty }))
  if rest.isEmpty then
    let full := ((s.core m.core).queue m.queue).full
    let s := if full then s.listSender m.core m.queue m.src else s
    let s := s.msgStatus m.src 0 full
    if ((s.core m.core).queue m.queue).flushPending then s.flushNow m.core m.queue else s
  else { s with locals := { m with entries := rest, started := true } :: s.locals }

/-- The next n entries of the message that a queue takes next arrive. -/
def State.arrive (s : State) (c q n : Nat) : State :=
  match s.nextArrival c q with
  | some m =>
    let s := s.dropLocal m
    if m.started then s.enter m (max n 1)
    else
      let r := s.offer m
      if r.2 then r.1.enter m (max n 1) else r.1
  | none => s

/-! ## Instructions at issue (R72) -/

def State.issueSend (s : State) (c : Nat) (w : Word128) : IssueRes :=
  let k := s.core c
  let e := s.operand c w 0
  let n := w.body 45 3 + 1
  let core := w.body 38 3 + (if w.pcs then k.subRank else 0)
  let dev : DevId := BitVec.ofNat 14 (w.body 24 14)
  { cause := lowestOf (s.operandCauses c e 64 .ownSram (64 * n)
      ++ [(0x1C, !s.inJob (s.partNo c) dev), (0x1D, decide (8 ≤ core))]),
    op := .send e.nat dev (BitVec.ofNat 3 core) (BitVec.ofNat 4 (w.body 41 4)) n (bitB w 48) (bitB w 49)
      (BitVec.ofNat 16 (w.body 50 16)),
    claims := [.rd e.nat (64 * n)] }

def State.issueRecv (s : State) (c : Nat) (w : Word128) : IssueRes :=
  let e := s.operand c w 0
  { cause := lowestOf (s.operandCauses c e 64 .ownSram 576), op := .recv e.nat (BitVec.ofNat 4 (w.body 24 4)),
    claims := [.wr e.nat 576] }

/-- FLUSH, MARK, REWIND and RELEASE. -/
def issueQueueOp (w : Word128) : IssueRes :=
  let q := BitVec.ofNat 4 (w.body 0 4)
  { cause := 0, claims := [],
    op := match w.opcode.toNat with
      | 3 => .flush q
      | 4 => .mark q
      | 5 => .rewind q
      | _ => .release q }

/-! ## SEND (R36, R37, R72, R334) -/

/-- The head SEND leaves: a local message goes to its queue's input, a remote one becomes a packet. -/
def State.sendNow (s : State) (c : Nat) (q : QEntry) (src : Nat) (dev : DevId) (core : BitVec 3) (queue : BitVec 4)
    (len : Nat) (sched : Bool) (tag : BitVec 16) : State :=
  let s := s.modCore c (fun k => k.modMsg (fun r => { r with holding := false }))
  let p : PendingSend :=
    { id := q.id, sigcc := q.sigcc, dev := dev, core := core, queue := queue, sched := sched, tag := tag, late := q.lateAt s.now }
  if s.ms.badRange src (64 * len) then
    ((s.start c .msg { q := q }).reportLateSend c p).finish c .msg q.id q.sigcc true
  else
    let payload := s.ms.bytes src (64 * len)
    let s := s.start c .msg { q := q, inRows := false }
    let md := s.mirrorDev dev
    let s := s.modCore c (fun k => k.modMsg (fun r =>
      MsgRegs.address { r with sends := r.sends ++ [p] } md core.toNat queue.toNat))
    let jt := (s.core c).id.jobTag
    if s.isOwnDev dev then
      { s with locals := s.locals ++ [{ src := .core c q.id, core := core.toNat, queue := queue.toNat, jobTag := jt,
                                        entries := entriesOf s.dev c payload, ft := s.now }] }
    else
      let f : PacketFields :=
        { ty := 0x5, dst := dev, src := s.dev, srcCore := c, jobTag := jt, dstCore := core.toNat, queue := queue.toNat,
          payload := payload }
      if sched then
        s.readySched f tag.toNat (.msg c q.id) c 4 q.id (s.lateLimit (q.launch.getD s.now)) (some (src, 64 * len))
      else s.newReq f (.msg c q.id) (some (src, 64 * len))

/-! ## RECV (R40 to R42, R72) -/

/-- Payload and sideband of a message written at DST. -/
def recvWrites (dst : Nat) (m : List MsgEntry) : List (Nat × List Byte) :=
  m.flatMap (fun e =>
    [(dst + 64 * e.pos.toNat, leBytes 64 e.payload.toNat), (dst + 512 + 8 * e.pos.toNat, leBytes 8 e.sideband)])

/-- The head message is taken: freed in native mode, passed by the read position in KT4 mode. -/
def MsgQueue.take (q : MsgQueue) (n : Nat) : MsgQueue :=
  if q.kt4 then { q with rdPos := q.rdPos + n } else { q with entries := q.entries.drop n }

/-! ## KT4 operations (R42) -/

/-- Entries before the read position freed. -/
def MsgQueue.release (q : MsgQueue) : MsgQueue :=
  { q with entries := q.entries.drop q.rdPos, rdPos := 0, mark := q.mark - q.rdPos }

/-! ## The engine -/

/-- A SEND to this module may leave at any time, one to another once the module may send another request (R308). -/
def State.mayRequest (s : State) (dev : DevId) : Bool := s.isOwnDev dev || decide (s.outstanding < 8192)

/-- What the head of the MSG queue does now; `none` when it waits. A RECV that waits for a message's end mark is not in
progress (DESIGN CHOICE, log 134). -/
def State.msgHead (s : State) (c : Nat) : Option State :=
  match (s.core c).msgq.queue with
  | [] => none
  | q :: _ =>
    if !q.launchOk s.now then none
    else match q.op with
      | some (.send src dev core queue len wait sched tag) =>
        if wait && (s.core c).msg.mirrorFull (s.mirrorDev dev) core.toNat queue.toNat then
          if (s.core c).msg.holding then none
          else some (s.modCore c (fun k => k.modMsg (fun r => { r with holding := true })))
        else if s.mayRequest dev then some (s.sendNow c q src dev core queue len sched tag)
        else none
      | some (.recv dst queue) =>
        let x := (s.core c).queue queue.toNat
        if x.flushPending then none
        else match x.head with
          | some m =>
            let s := s.start c .msg { q := q }
            let s := (s.homeWrites (some c) (recvWrites dst m) 0).1
            let s := s.changeQueue c queue.toNat (fun x => x.take m.length)
            some (s.finish c .msg q.id q.sigcc false)
          | none => none
      | some (.flush queue) => some ((s.start c .msg { q := q, inRows := false }).requestFlush c queue.toNat)
      | some (.mark queue) =>
        let s' := s.start c .msg { q := q }
        if ((s.core c).queue queue.toNat).kt4 then
          let s' := s'.changeQueue c queue.toNat (fun x => { x with mark := x.rdPos, markValid := true })
          some (s'.finish c .msg q.id q.sigcc false)
        else some (s'.skipExec c .msg q 0x18)
      | some (.rewind queue) =>
        let s' := s.start c .msg { q := q }
        let x := (s.core c).queue queue.toNat
        if x.kt4 && x.markValid then
          let s' := s'.changeQueue c queue.toNat (fun x => { x with rdPos := x.mark })
          some (s'.finish c .msg q.id q.sigcc false)
        else some (s'.skipExec c .msg q 0x18)
      | some (.release queue) =>
        let s' := s.start c .msg { q := q }
        if ((s.core c).queue queue.toNat).kt4 then
          let s' := s'.changeQueue c queue.toNat MsgQueue.release
          some (s'.finish c .msg q.id q.sigcc false)
        else some (s'.skipExec c .msg q 0x18)
      | _ => none

/-- The MSG engine works through its queue until its head waits. -/
def State.pumpMsg (c : Nat) : Nat → State → State
  | 0, s => s
  | n + 1, s =>
    let s := State.dropNulls c .msg 32 s
    match s.msgHead c with
    | some s' => State.pumpMsg c n s'
    | none => s

/-- A WAIT-form message held for 1 ms is sent as TRY would (R37): once the module may send another request (R308). -/
def State.sendHeld (s : State) (c : Nat) : State :=
  match (s.core c).msgq.queue with
  | q :: rest => match q.op with
    | some (.send src dev core queue len _ sched tag) =>
      if !(s.core c).msg.holding then s
      else if s.mayRequest dev then s.sendNow c q src dev core queue len sched tag
      else
        let q' : QEntry := { q with op := some (.send src dev core queue len false sched tag) }
        s.modCore c (fun k => (k.modMsg (fun r => { r with holding := false })).modEng .msg (fun e => { e with queue := q' :: rest }))
    | _ => s
  | [] => s

end Sys2Proof.Machine
end

