-- ==== Sys2Proof/Machine/Engines.lean ====
section
/-! DEFINITION. Starting and completing engine operations: OX, VEC, ROW, ATT, GATH, MULE and the core-cache controller
(R54, R64, R65, R76, R84 to R86, R103, R145, R152, R167, R232, R249, R250). -/

namespace Sys2Proof.Machine

/-! ## Reads (R235, R238, R249) -/

/-- What a running operation of core c reads. A copy's own movement of data records its reads. -/
def State.readPlan (s : State) (c : Nat) (r : REntry) : ReadPlan :=
  match r.q.op with
  | some (.ldw src scale _ fmt k n) => ldwPlan src scale fmt k n
  | some (.mm inp out rows _ dir inFmt outFmt acc sr _) => Stream.plan ⟨inp, out, rows, dir, inFmt, outFmt, acc, sr⟩ r.plane
  | some (.dual _ _ _) => let t := dualStreams r.desc; (t.1.plan r.plane).join (t.2.plan r.plane)
  | some (.wgrad _) => wgradPlan r.desc
  | some (.vec opc a b d count fmt _) => vecPlan opc.toNat a b d count fmt
  | some (.cred _) => credPlan r.desc
  | some (.conv _ a _ scale count inF outF) => convPlan a scale count inF outF
  | some (.row bwd _ layer mb kind) => s.rowPlan c bwd r.desc layer mb kind
  | some (.att opc _ _) => s.attPlan c opc r.desc r.slot
  | some (.copy1 src _ len _ _) => { streams := [plainRuns [(src, len)]] }
  | some (.copyd _) =>
    let d := r.copyDesc
    if s.copySrcRemote d then {}
    else { streams := [plainRuns ((List.range d.rows).map (fun i => ((s.copySrcAt d i).toNat, d.rowLen)))] }
  | _ => {}

/-- Descriptor, with a WGRAD's mask, that an instruction names: address and bytes; 0 bytes where it has none. -/
def State.descRun (s : State) (q : QEntry) : Nat × Nat :=
  match q.op with
  | some (.wgrad d) => (d, 64 + (WgradDesc.of (s.ms.bytes d 64)).maskBytes)
  | some (.att opc d _) => (d, attDescBytes opc)
  | some (.dual d _ _) => (d, 64)
  | some (.cred d) => (d, 64)
  | some (.row _ d _ _ _) => (d, 64)
  | some (.gather d) => (d, 64)
  | some (.walk d) => (d, 64)
  | some (.copyd d) => (d, 64)
  | _ => (0, 0)

/-- The engine reads the descriptor of its head as the operation starts (R97, R260). -/
def State.readDesc (s : State) (q : QEntry) : State :=
  let r := s.descRun q
  if r.2 = 0 then s else s.noteReads r.1 r.2 0

/-! ## Prefetch (R249, R250) -/

/-- Runs in HBM joined where one ends in the line in which the next begins; a run read again at once counts once. -/
def joinRuns : List (Nat × Nat) → List (Nat × Nat)
  | [] => []
  | r :: rs =>
    match joinRuns rs with
    | q :: qs =>
      if r = q then q :: qs
      else if roundUp (r.1 + r.2) 64 = roundDown q.1 64 then (r.1, q.1 + q.2 - r.1) :: qs else r :: q :: qs
    | [] => [r]

/-- Extents of a stream reader; after an operand whose last 64 KiB it reads in sequence it may read beyond. -/
def readerExtents (runs : List (Nat × Nat × Nat)) : List PfExtent :=
  let ext := (joinRuns ((runs.filter (fun r => r.2.1 != 0 && isHbm r.1)).map (fun r => (r.1, min r.2.1 (hbmEnd - r.1))))).map
    (fun r => (⟨r.1, r.1 + r.2⟩ : PfExtent))
  match ext.getLast? with
  | some e =>
    if 65536 ≤ e.stop - e.lo then
      ext.dropLast ++ [{ e with stop := e.stop + min 16384 (Config.readPast e.lo e.stop) }]
    else ext
  | none => ext

/-- A reader asks for the granules up to the end of its extent, the next 64 KiB boundary or a full buffer of 16 KiB,
whichever comes first. A request that begins a page, another than the one before, which `ok` refuses is dropped, and with
it what the reader wants of that page (R250). The flag counts a drop. -/
def PfReader.ask (ok : Nat → Bool) (r : PfReader) : PfReader × Bool :=
  match r.todo with
  | [] => (r, false)
  | e :: rest =>
    let page := e.lo / 65536
    let begins := r.page.map (·.1) != some page
    let refused := if begins then !ok e.lo else (r.page.map (·.2)).getD false
    let last := min e.stop (65536 * (page + 1))
    if e.stop ≤ e.lo then ({ r with todo := rest }, false)
    else if refused then ({ r with todo := { e with lo := last } :: rest, page := some (page, true) }, begins)
    else
      let stop := min last (roundDown e.lo 64 + 64 * (256 - r.lines.length))
      ({ r with todo := { e with lo := stop } :: rest, lines := r.lines ++ linesOf e.lo (stop - e.lo),
                page := some (page, false) }, false)

/-- Requests until the buffer is full or the operand ends, at most `n`; the drops are counted. -/
def PfReader.fill (ok : Nat → Bool) : Nat → PfReader → PfReader × Nat
  | 0, r => (r, 0)
  | n + 1, r =>
    if 256 ≤ r.lines.length ∨ r.todo.isEmpty then (r, 0)
    else
      let p := r.ask ok
      let q := PfReader.fill ok n p.1
      (q.1, q.2 + b2n p.2)

/-- First addresses of the pages an extent touches. -/
def PfExtent.pages (e : PfExtent) : List Nat :=
  if e.stop ≤ e.lo then []
  else (List.range ((e.stop - 1) / 65536 - e.lo / 65536 + 1)).map (fun i => max e.lo (65536 * (e.lo / 65536 + i)))

/-- Drops of the requests a reader has still to make. -/
def PfReader.drops (ok : Nat → Bool) (r : PfReader) : Nat :=
  ((r.todo.flatMap PfExtent.pages).foldl (fun (acc : Option Nat × Nat) a =>
    if acc.1 == some (a / 65536) then acc else (some (a / 65536), acc.2 + b2n (!ok a))) (r.page.map (·.1), 0)).2

/-- A page may be read ahead: in a region of the partition, and none that forbids it. -/
def State.pfOk (s : State) (c a : Nat) : Bool :=
  s.ms.inRegions (s.partNo c) (roundDown a 65536) 1 && !s.ms.inNopf (s.partNo c) a

/-- Every reader of a core fills its buffer. -/
def State.pfFill (s : State) (c : Nat) : State :=
  let rs := (s.cacheOf c).pf.map (PfReader.fill (s.pfOk c) 64)
  s.modCache c (fun k => { k with pf := rs.map (·.1), pfDrop := satAdd k.pfDrop ((rs.map (·.2)).foldl (· + ·) 0) })

/-- The stream readers of an operation start to read ahead. -/
def State.prefetchOp (s : State) (c : Nat) (r : REntry) : State :=
  let rs := ((s.readPlan c r).streams.map readerExtents).filter (fun e => !e.isEmpty)
  if rs.isEmpty then s
  else (s.modCache c (fun k => { k with pf := k.pf ++ rs.map (fun e => ({ owner := r.q.id, todo := e } : PfReader)) })).pfFill c

/-- In a tick every reader uses its oldest granule and asks for the next (DESIGN CHOICE, log 110). -/
def State.pfTick (s : State) (c : Nat) : State :=
  if (s.cacheOf c).pf.isEmpty then s
  else (s.modCache c (fun k => { k with pf := k.pf.map (fun r => { r with lines := r.lines.drop 1 }) })).pfFill c

/-- The readers of operation `id` are done: the requests they had still to make are made, and their buffers are free. -/
def State.pfEnd (s : State) (c id : Nat) : State :=
  let mine := (s.cacheOf c).pf.filter (fun r => r.owner == id)
  let drops := (mine.map (fun r => r.drops (s.pfOk c))).foldl (· + ·) 0
  s.modCache c (fun k => { k with pf := k.pf.filter (fun r => r.owner != id), pfDrop := satAdd k.pfDrop drops })

/-! ## Running operations -/

/-- Running operations of a unit that are not null entries. -/
def EngQueue.ops (e : EngQueue) : List REntry := e.running.filter (fun r => r.q.op.isSome)

/-- The head may leave the queue now. -/
def State.headOf (s : State) (c : Nat) (u : EngUnit) : Option QEntry :=
  match ((s.core c).eng u).queue with
  | q :: _ => if q.op.isSome && q.launchOk s.now then some q else none
  | [] => none

/-- The head starts: the engine has read its descriptor, and its readers read ahead. -/
def State.launch (s : State) (c : Nat) (u : EngUnit) (r : REntry) : State := ((s.readDesc r.q).start c u r).prefetchOp c r

/-- The head is skipped as it starts (R76); the read of its descriptor is recorded like any other (R260). -/
def State.skipHead (s : State) (c : Nat) (u : EngUnit) (q : QEntry) (cause : Nat) : State :=
  ((s.readDesc q).start c u { q := q }).skipExec c u q cause

/-! ## OX (R84 to R86) -/

def Core.plane (k : Core) (i : Bool) : OxPlane := k.planes.getD (b2n i) {}

def State.setPlane (s : State) (c : Nat) (i : Bool) (p : OxPlane) : State :=
  s.modCore c (fun k => { k with planes := vmod k.planes (b2n i) (fun _ => p) })

def State.emptyPlanes (s : State) (c : Nat) : State := (s.setPlane c false {}).setPlane c true {}

def EngOp.isLdw : EngOp → Bool
  | .ldw _ _ _ _ _ _ => true
  | _ => false

def EngOp.isWgrad : EngOp → Bool
  | .wgrad _ => true
  | _ => false

def EngOp.isStream : EngOp → Bool
  | .mm _ _ _ _ _ _ _ _ _ _ => true
  | .dual _ _ _ => true
  | _ => false

def REntry.opIs (r : REntry) (p : EngOp → Bool) : Bool :=
  match r.q.op with
  | some o => p o
  | none => false

/-- The plane an OX instruction names. -/
def EngOp.planeOf : EngOp → Option Bool
  | .ldw _ _ p _ _ _ => some p
  | .mm _ _ _ p _ _ _ _ _ _ => some p
  | .dual _ p _ => some p
  | _ => none

/-- The streams on a plane have entered their last row, so the stream unit does not run them any more (R86, R105). -/
def State.rowsIn (s : State) (c : Nat) (plane : Bool) : State :=
  s.modCore c (fun k => k.modEng .ox (fun e => { e with running := e.running.map (fun r =>
    if r.opIs (fun o => o.isStream && o.planeOf == some plane) then { r with inRows := false } else r) }))

/-- The load unit starts an LDW: it and WGRAD are idle, and the streams on its plane have entered their last row (R86).
While the plane is LOADING, OX_STAT shows the LDW's K, N and format (DESIGN CHOICE, log 99). -/
def State.startLdw (s : State) (c : Nat) : State :=
  match s.headOf c .ox with
  | some q => match q.op with
    | some (.ldw _ _ plane fmt k n) =>
      if (s.core c).ox.running.any (fun r => r.opIs (fun o => o.isLdw || o.isWgrad)) then s
      else ((s.rowsIn c plane).launch c .ox { q := q, inRows := false }).setPlane c plane { state := .loading, fmt := fmt, k := k, n := n }
    | _ => s
  | none => s

/-- The stream unit is free: earlier streams have entered their last row. -/
def State.streamsIn (s : State) (c : Nat) : State :=
  s.modCore c (fun k => k.modEng .ox (fun e => { e with running := e.running.map (fun r => { r with inRows := false }) }))

/-- The stream unit starts an MM or DUAL: no WGRAD runs and its plane is not LOADING; on an EMPTY plane, or one its
format does not pair with, the instruction is skipped (R67, R86, R95). -/
def State.startStream (s : State) (c : Nat) : State :=
  if (s.core c).ox.running.any (fun r => r.opIs EngOp.isWgrad) then s
  else
    let go (q : QEntry) (p : OxPlane) (desc : List Byte) : State := (s.streamsIn c).launch c .ox { q := q, plane := p, desc := desc }
    match s.headOf c .ox with
    | some q => match q.op with
      | some (.mm inp out rows plane dir inFmt outFmt acc sr _) =>
        let p := (s.core c).plane plane
        let t : Stream := ⟨inp, out, rows, dir, inFmt, outFmt, acc, sr⟩
        if p.state = .loading then s
        else if planeBad p [t] then (s.streamsIn c).skipHead c .ox q 0x13
        else go q p []
      | some (.dual desc plane shape) =>
        let p := (s.core c).plane plane
        if p.state = .loading then s
        else
          let cause := s.checkDual c desc p (dualShape shape)
          if cause ≠ 0 then (s.streamsIn c).skipHead c .ox q cause else go q p (s.ms.bytes desc 64)
      | _ => s
    | none => s

/-- WGRAD starts once every earlier OX instruction has completed (R86); it keeps the descriptor and mask it was checked
with (R97). While it loads tiles of dY the planes show what they held before (DESIGN CHOICE, log 99). -/
def State.startWgrad (s : State) (c : Nat) : State :=
  match s.headOf c .ox with
  | some q => match q.op with
    | some (.wgrad desc) =>
      if (s.core c).ox.ops.isEmpty then
        let cause := s.checkWgrad c desc
        if cause ≠ 0 then s.skipHead c .ox q cause
        else s.launch c .ox { q := q, desc := s.ms.bytes desc (64 + (WgradDesc.of (s.ms.bytes desc 64)).maskBytes) }
      else s
    | _ => s
  | none => s

/-! ## VEC, ROW, ATT, GATH -/

/-- The vector engine starts its next instruction (R145). -/
def State.startVec (s : State) (c : Nat) : State :=
  match s.headOf c .vec with
  | some q => match q.op with
    | some (.cred desc) =>
      let cause := s.checkCred c desc
      if cause ≠ 0 then s.skipHead c .vec q cause else s.launch c .vec { q := q, desc := s.ms.bytes desc 64 }
    | _ => s.launch c .vec { q := q }
  | none => s

/-- A row operation starts after the previous one has signalled (R152). -/
def State.startRow (s : State) (c : Nat) : State :=
  match s.headOf c .row with
  | some q =>
    if (s.core c).row.ops.isEmpty then
      match q.op with
      | some (.row bwd desc layer mb kind) =>
        let cause := s.checkRow c bwd desc layer mb kind
        if cause ≠ 0 then s.skipHead c .row q cause else s.launch c .row { q := q, desc := s.ms.bytes desc 64 }
      | _ => s.launch c .row { q := q }
    else s
  | none => s

/-- FWD and BWD of the attention pipeline. -/
def EngOp.isAttRun : EngOp → Bool
  | .att o _ _ => o == 1 || o == 2
  | _ => false

/-- APPEND on a slot. -/
def EngOp.appendsTo (slot : Nat) : EngOp → Bool
  | .att o _ x => o == 3 && x == slot
  | _ => false

/-- The ATT engine starts its next instruction. FWD and BWD wait for an earlier APPEND on their slot only, the others for
every earlier one. It takes its descriptor and its slot's state as they stand now (R167). -/
def State.startAtt (s : State) (c : Nat) : State :=
  match s.headOf c .att with
  | some q => match q.op with
    | some (.att opc desc slot) =>
      let runs := (s.core c).att.ops
      let free := if EngOp.isAttRun (.att opc desc slot) then !runs.any (fun r => r.opIs (EngOp.appendsTo slot)) else runs.isEmpty
      if free then
        let cause := s.checkAtt c opc desc slot
        if cause ≠ 0 then s.skipHead c .att q cause
        else s.launch c .att { q := q, desc := s.ms.bytes desc (attDescBytes opc), slot := s.slot c slot }
      else s
    | _ => s
  | none => s

/-- The gather engine takes its next instruction when the one before has completed. -/
def State.startGath (s : State) (c : Nat) : State :=
  match s.headOf c .gath with
  | some q =>
    if (s.core c).gath.ops.isEmpty then
      let (cause, raw) : Nat × List Byte := match q.op with
        | some (.gather desc) => (s.checkGather c desc, s.ms.bytes desc 64)
        | some (.walk desc) => (s.checkWalk c desc, s.ms.bytes desc 64)
        | _ => (0, [])
      if cause ≠ 0 then s.skipHead c .gath q cause else (s.readDesc q).start c .gath { q := q, desc := raw }
    else s
  | none => s

/-! ## MULE (R232) -/

/-- A Mule engine takes the next copy once the previous one has issued its last write or packet. A local copy reads and
writes its data; a remote one has its packets sent. -/
def State.startCopy (s : State) (c m : Nat) : State :=
  let u := muleUnit m
  match s.headOf c u with
  | some q =>
    if ((s.core c).eng u).running.any (fun r => r.inRows) then s
    else match q.op with
      | some (.copy1 src dst len sh dh) =>
        let r := (s.launch c u { q := q, inRows := false }).runCopy1 c src dst len sh dh
        (r.1.pfEnd c q.id).modRun c u q.id (fun x => { x with err := r.2 })
      | some (.copyd desc) =>
        if s.copyWaits c desc then s
        else
          let cause := s.checkCopyd c desc
          if cause ≠ 0 then (s.skipHead c u q cause).skipRsig c desc
          else
            let raw := s.ms.bytes desc 64
            let d := CopyDesc.of raw
            if s.copySrcRemote d || s.copyDstRemote d then (s.launch c u { q := q, desc := raw }).pumpCopies
            else
              let r := (s.launch c u { q := q, desc := raw, inRows := false }).runCopyLocal c d
              (r.1.pfEnd c q.id).modRun c u q.id (fun x => { x with err := r.2 })
      | _ => s
  | none => s

/-! ## Completion (R54) -/

/-- Results of an operation: its reads recorded, its results written at their homes, its events counted for engine e,
then its signal. -/
def State.commit (s : State) (c : Nat) (u : EngUnit) (q : QEntry) (e : Nat) (plan : ReadPlan) (res : OpResult) : State :=
  let s := s.noteHinted plan.all
  let w := s.homeWrites (some c) res.writes 0
  let s := res.poison.foldl (fun s a => s.poisonAt (some c) a 0) w.1
  ((s.countNum c e res.ev).pfEnd c q.id).finish c u q.id q.sigcc (res.err || w.2)

/-- A GATHER or WALK that stopped part-way is recorded and signals with ERR (R76). -/
def State.finishGath (s : State) (c : Nat) (q : QEntry) (err : Bool) (cause : Nat) : State :=
  if cause ≠ 0 then s.skipExec c .gath q cause else s.finish c .gath q.id q.sigcc err

/-- What completes when the operation's writes become visible. -/
def State.complete (s : State) (c : Nat) (u : EngUnit) (r : REntry) : State :=
  let q := r.q
  let plan := s.readPlan c r
  match q.op with
  | some (.ldw src scale plane fmt k n) =>
    let x := ldwRead s.ms src scale fmt k n
    let s := s.setPlane c plane (ldwPlane s.ms src scale fmt k n)
    s.commit c u q 0 plan { ev := x.2.1, err := x.2.2 }
  | some (.mm inp out rows _ dir inFmt outFmt acc sr _) =>
    s.commit c u q 0 plan (streamRun s.ms r.plane q.kcg ⟨inp, out, rows, dir, inFmt, outFmt, acc, sr⟩)
  | some (.dual _ _ _) =>
    let t := dualStreams r.desc
    s.commit c u q 0 plan ((streamRun s.ms r.plane q.kcg t.1).join (streamRun s.ms r.plane q.kcg t.2))
  | some (.wgrad _) => (s.emptyPlanes c).commit c u q 0 plan (wgradRun s.ms r.desc)
  | some (.vec opc a b d count fmt sr) => s.commit c u q 1 plan (vecRun s.ms q.kcg opc.toNat a b d count fmt sr)
  | some (.cred _) => s.commit c u q 1 plan (credRun s.ms q.kcg r.desc)
  | some (.conv sr a d scale count inF outF) => s.commit c u q 1 plan (convRun s.ms q.kcg sr a d scale count inF outF)
  | some (.row bwd _ layer mb kind) =>
    let x := if bwd then s.runRowBwd c q.kcg r.desc layer mb kind else s.runRowFwd c q.kcg r.desc layer mb kind
    x.1.commit c u q 2 plan x.2
  | some (.statFree layer mb kind) => (s.runStatFree c layer mb kind).finish c u q.id q.sigcc false
  | some (.att opc _ slot) =>
    let x := s.runAtt c q.kcg opc r.desc r.slot slot
    match x.2.fault with
    | some f =>
      let s := x.1.modAtt c (fun a => a.fault f.1 slot f.2)
      (s.recordSkip c q 0x15 true).commit c u q 3 plan { x.2.res with err := true }
    | none => x.1.commit c u q 3 plan x.2.res
  | some (.gather _) => let x := s.runGather c r.desc; x.1.finishGath c q x.2.1 x.2.2
  | some (.walk _) => let x := s.runWalk c r.desc; x.1.finishGath c q x.2.1 x.2.2
  | some (.copy1 _ _ _ _ _) => (s.pfEnd c q.id).finish c u q.id q.sigcc r.err
  | some (.copyd _) =>
    if s.copyDone r then
      ((((s.pfEnd c q.id).reportLate c r).finish c u q.id q.sigcc r.err).sendRsig c r.copyDesc r.err)
    else s
  | some (.cacheRange wb inv a n) => (s.cacheRange c wb inv a n).finish c u q.id q.sigcc false
  | _ => s

/-- The i-th running operation of a unit may be the next to complete: operations of one kind complete in queue order,
and loads of a plane beside the streams. -/
def EngQueue.mayComplete (e : EngQueue) (u : EngUnit) (i : Nat) : Option REntry :=
  match e.ops[i]? with
  | some r =>
    let same (x : REntry) : Bool := u != .ox || (x.opIs EngOp.isLdw == r.opIs EngOp.isLdw)
    if (e.ops.take i).any same then none else some r
  | none => none

def State.completeAt (s : State) (c : Nat) (u : EngUnit) (i : Nat) : State :=
  match ((s.core c).eng u).mayComplete u i with
  | some r => if s.stopped then s else s.complete c u r
  | none => s

end Sys2Proof.Machine
end

