-- ==== Sys2Proof/Machine/Seq.lean ====
section
/-! DEFINITION. The sequencer: issue of decoded words, SEQ instructions, waits, regions, broadcast, and the end of a
program (R20 to R30, R47 to R66, R74 to R77, R429 to R431). -/

namespace Sys2Proof.Machine

/-! ## Waits (R56, R63, R72) -/

/-- The comparison of R56. -/
def ccReached (v : BitVec 32) (target : Nat) : Bool := decide ((fldN v 0 31 + 2 ^ 31 - target % 2 ^ 31) % 2 ^ 31 < 2 ^ 30)

def Core.cc (k : Core) (i : Nat) : BitVec 32 := k.seq.cc.getD i 0

/-- A unit has an empty issue queue and nothing in flight. -/
def EngQueue.idle (e : EngQueue) : Bool := e.queue.isEmpty && e.running.isEmpty

/-- Engine n of a DRAIN mask is empty. -/
def Core.engIdle (k : Core) : Nat → Bool
  | 0 => k.ox.idle
  | 1 => k.vec.idle
  | 2 => k.row.idle
  | 3 => k.att.idle
  | 4 => k.gath.idle
  | 5 => k.mule.toList.all EngQueue.idle
  | 7 => k.msgq.idle
  | _ => true

/-- Every operation the core issued has completed. -/
def Core.allIdle (k : Core) : Bool := (List.range 8).all k.engIdle && k.cacheq.idle

/-- The wait in force has ended by itself: F_ERR as it then stands and the SIGCC to signal. -/
def Core.waitOver (k : Core) : Option (Bool × BitVec 8 × Bool) :=
  match k.seq.wait with
  | .none => none
  | .cc i t _ sg => if ccReached (k.cc i.toNat) t.toNat then some (bitB (k.cc i.toNat) 31, sg, true) else none
  | .queue q _ sg => if (k.queue q.toNat).head.isSome then some (false, sg, true) else none
  | .drain m sg => if (List.range 8).all (fun n => !m.getLsbD n || k.engIdle n) then some (k.seq.fErr, sg, false) else none

/-- A wait ends: flags, then its signal (R54, R56). -/
def State.endWait (s : State) (c : Nat) (err tmo : Bool) (sg : BitVec 8) : State :=
  (s.modCore c (fun k => k.modSeq (fun q => { q with wait := .none, fErr := err, fTmo := tmo }))).signal c sg false

/-- A WAITCC or WAITQ timeout expires before the wait is reached (R56, R72). -/
def State.timeoutWait (s : State) (c : Nat) : State :=
  let k := s.core c
  let bump (s : State) : State := s.modCore c (fun k => k.modErr (fun r => { r with waitTimeout := satInc r.waitTimeout }))
  if k.waitOver.isSome then s else
  match k.seq.wait with
  | .cc i _ true sg => (bump s).endWait c (bitB (k.cc i.toNat) 31) true sg
  | .queue _ true sg => (bump s).endWait c false true sg
  | _ => s

/-! ## Regions (R66, R429, R430) -/

/-- REGION_END of the innermost region: its entry after an instance of `ns` ns under a plan (0 for none). The flag says
that the instance is late. -/
def RegionEntry.close (e : RegionEntry) (ns plan lateNs : Nat) : RegionEntry × Option Int :=
  let last := min ns (2 ^ 40 - 1)
  let e : RegionEntry := { e with count := satInc e.count, last := BitVec.ofNat 40 last, total := satAdd e.total last }
  if plan = 0 then ({ e with planned := false }, none)
  else
    let slip : Int := (last : Int) - plan
    let mx : Int := if e.slipSeen then max e.maxSlip.toInt slip else slip
    let late := decide ((lateNs : Int) < slip)
    ({ e with planned := true, slipSeen := true, lastSlip := satInt 32 slip, maxSlip := satInt 32 mx,
              late := if late then satInc e.late else e.late }, if late then some slip else none)

/-- REGION_BEGIN: cause 0x1B or the region opened. -/
def State.regionBegin (s : State) (c r : Nat) : State × Nat :=
  let rs := (s.core c).seq.regions
  if decide (16 ≤ rs.length) || rs.any (fun x => x.1.toNat == r) then (s, 0x1B)
  else (s.modCore c (fun k => k.modSeq (fun q => { q with regions := (BitVec.ofNat 12 r, s.now) :: q.regions })), 0)

/-- REGION_END: cause 0x1B or the entry updated, with the late record (R430). -/
def State.regionEnd (s : State) (c r plan : Nat) : State × Nat :=
  match (s.core c).seq.regions with
  | (x, t0) :: rest =>
    if x.toNat ≠ r then (s, 0x1B)
    else
      let k := s.core c
      let res := (tabGet k.region.table r {}).close (s.now - t0).toNat plan k.region.lateNs.toNat
      let s := s.modCore c (fun k =>
        { k.modSeq (fun q => { q with regions := rest }) with region := { k.region with table := tabSet k.region.table r res.1 } })
      (match res.2 with
        | some slip =>
          if k.region.recEn then s.logBudget c (s.coreEvent c 0x04 [(r, 2), ((satInt 32 slip).toNat, 4)]) else s
        | none => s, 0)
  | [] => (s, 0x1B)

/-- Regions still open close without counting (R431). -/
def Core.closeRegions (k : Core) : Core :=
  { k.modSeq (fun q => { q with regions := [] }) with
    region := { k.region with abandoned := satAdd k.region.abandoned k.seq.regions.length } }

/-! ## Control flow (R61) -/

def SeqState.gpr (q : SeqState) (i : Nat) : BitVec 64 := q.gr.getD i 0

/-- BR is taken. -/
def SeqState.branches (q : SeqState) (w : Word128) : Bool :=
  let g := q.gpr (w.body 21 4)
  let cc := q.cc.getD (w.body 25 6) 0
  match w.body 17 4 with
  | 0 => true
  | 1 => g == 0
  | 2 => g != 0
  | 3 => g.msb
  | 4 => q.fErr
  | 5 => q.fTmo
  | 6 => ccReached cc (w.body 31 31)
  | 7 => bitB cc 31
  | _ => false

/-- BR, LOOP, CALL and RET after the pc has moved past them: cause 0x19 or the new state. -/
def SeqState.control (q : SeqState) (w : Word128) : SeqState × Nat :=
  let target : BitVec 18 := BitVec.ofNat 18 (w.body 0 17)
  match w.opcode.toNat with
  | 0x02 => (if q.branches w then { q with pc := target } else q, 0)
  | 0x03 =>
    let i := w.body 17 4
    let v := q.gpr i - 1
    let q := { q with gr := vmod q.gr i (fun _ => v) }
    (if v = 0 then q else { q with pc := target }, 0)
  | 0x04 => if decide (16 ≤ q.callStack.length) then (q, 0x19) else ({ q with callStack := q.pc :: q.callStack, pc := target }, 0)
  | _ => match q.callStack with
    | a :: r => ({ q with callStack := r, pc := a }, 0)
    | [] => (q, 0x19)

/-! ## Register instructions (R52, R60, R61, R198) -/

/-- Effect of the register instructions on the sequencer: new state, or the cause that skips. -/
def SeqState.regOp (q : SeqState) (rank : Nat) (w : Word128) : SeqState × Nat :=
  let sub := w.pcs
  match w.opcode.toNat with
  | 0x10 => ({ q with cc := vmod q.cc (w.body 0 6) (fun _ => BitVec.ofNat 32 (w.body 6 31)) }, 0)
  | 0x11 =>
    ({ q with cc := vmod q.cc (w.body 0 6) (fun v =>
        (v &&& 0x80000000#32) ||| ((v + BitVec.ofNat 32 (w.body 6 31)) &&& 0x7FFFFFFF#32)) }, 0)
  | 0x12 => ({ q with gr := vmod q.gr (w.body 6 4) (fun _ => (q.cc.getD (w.body 0 6) 0).setWidth 64) }, 0)
  | 0x18 =>
    let i := w.body 0 5
    let v : Int := (w.body 5 56 : Int) + (if sub then rank * (q.as_.getD i 0).toInt else 0)
    if 0 ≤ v ∧ v < 2 ^ 56 then ({ q with ar := vmod q.ar i (fun _ => BitVec.ofInt 56 v) }, 0) else (q, 0x1D)
  | 0x19 => ({ q with as_ := vmod q.as_ (w.body 0 5) (fun _ => BitVec.ofNat 64 (w.body 5 64)) }, 0)
  | 0x1A =>
    let add : BitVec 64 := if bitB w 45 then q.gpr (w.body 46 4) else (fld w 5 40).signExtend 64
    ({ q with ar := vmod q.ar (w.body 0 5) (fun a =>
        setFld a 0 42 ((fldN a 0 42 + (add.setWidth 42).toNat) % 2 ^ 42)) }, 0)
  | 0x1B =>
    let v := w.body 4 64 + (if sub then rank else 0)
    if v < 2 ^ 64 then ({ q with gr := vmod q.gr (w.body 0 4) (fun _ => BitVec.ofNat 64 v) }, 0) else (q, 0x1D)
  | 0x1C => ({ q with gr := vmod q.gr (w.body 0 4) (fun _ => q.gpr (w.body 4 4) + BitVec.ofNat 64 (w.body 8 64)) }, 0)
  | 0x2A =>
    let v := w.body 0 24 + (if sub then rank else 0)
    if v < 2 ^ 24 then ({ q with kcg := ⟨BitVec.ofNat 64 (w.body 24 64), BitVec.ofNat 24 v⟩ }, 0) else (q, 0x1D)
  | _ => (q, 0)

/-! ## Scalar accesses (R62, R244, R280) -/

/-- Address, width and lowest cause of an SLD, SST or ATOM. -/
def State.scalarOperand (s : State) (c : Nat) (w : Word128) : Nat × Nat × Nat :=
  let e := s.operand c w 0
  let n := if w.opcode.toNat = 0x22 then (if bitB w 34 then 8 else 4) else 2 ^ w.body 28 2
  let p : Place := if w.opcode.toNat = 0x20 then .load else .store
  (e.nat, n, lowestOf (s.operandCauses c e n p n))

def State.setGr (s : State) (c i v : Nat) : State :=
  s.modCore c (fun k => k.modSeq (fun q => { q with gr := vmod q.gr i (fun _ => BitVec.ofNat 64 v) }))

/-- SLD, SST or ATOM at an address that passed its checks: the flag is the ERR of its signal. -/
def State.scalar (s : State) (c : Nat) (w : Word128) (a n : Nat) : State × Bool :=
  let g := w.body 24 4
  match w.opcode.toNat with
  | 0x20 =>
    if isHbm a then let r := s.loadHbm c a n (bitB w 30); (r.1.setGr c g r.2.1, r.2.2)
    else (s.setGr c g (leNat (s.view a n)), false)
  | 0x21 =>
    let bs := leBytes n ((s.core c).seq.gpr g).toNat
    if isHbm a then s.storeHbm c a bs (bitB w 30) else s.homeWrite (some c) a bs 0
  | _ =>
    let q := (s.core c).seq
    let r := s.atomAt c a n (w.body 32 2) (bitB w 35) (q.gpr g).toNat (q.gpr (w.body 28 4)).toNat
    (r.1.setGr c g r.2.1, r.2.2)

/-- A core-cache range operation as it issues. -/
def State.issueRange (s : State) (c : Nat) (w : Word128) : IssueRes :=
  let e := s.operand c w 0
  let n := 64 * w.body 24 32
  let o := w.opcode.toNat
  { cause := lowestOf (s.operandCauses c e 64 .hbm n),
    op := .cacheRange (o != 0x25) (o != 0x24) e.nat n, claims := [.wr e.nat n] }

/-! ## Engine instructions at issue -/

/-- Operation, cause and tracked ranges of an engine instruction (R52, R67 to R72). -/
def State.resolve (s : State) (c : Nat) (w : Word128) : IssueRes :=
  let o := w.opcode.toNat
  match w.engine.toNat with
  | 0 => match o with
    | 1 => s.issueLdw c w
    | 2 => s.issueMm c w
    | 3 => s.issueDual c w
    | _ => s.issueWgrad c w
  | 1 => if o = 0x80 then s.issueCred c w else if o < 0x80 then s.issueVec c w else s.issueConv c w
  | 2 => match o with
    | 1 => s.issueRow c w false
    | 2 => s.issueRow c w true
    | _ => s.issueStatFree c w
  | 3 => match o with
    | 1 => s.issueAttRun c w false
    | 2 => s.issueAttRun c w true
    | 3 => s.issueAppend c w
    | 4 => s.issueBucket c w
    | 5 => s.issueSlotSet c w
    | _ => issueSlotClr w
  | 4 => if o = 1 then s.issueGather c w else s.issueWalk c w
  | 5 => if o = 1 then s.issueCopy1 c w else s.issueCopyd c w
  | 7 => match o with
    | 1 => s.issueSend c w
    | 2 => s.issueRecv c w
    | _ => issueQueueOp w
  | _ => s.issueRange c w

/-- The unit whose queue a word names. -/
def unitOf (w : Word128) : EngUnit :=
  match w.engine.toNat with
  | 0 => .ox
  | 1 => .vec
  | 2 => .row
  | 3 => .att
  | 4 => .gath
  | 5 => muleUnit w.unit_
  | 7 => .msg
  | _ => .cache

/-- Issue queue depth (R19). -/
def depthOf : EngUnit → Nat
  | .ox | .row | .att => 8
  | _ => 16

/-- The record entry of a word. -/
def entryOf (k : Core) (pc : BitVec 17) (w : Word128) (bcast : Bool) (launch : Option (BitVec 64)) (op : Option EngOp) :
    QEntry :=
  { id := k.seq.nextId, pc := pc, engine := w.engine, opcode := w.opcode,
    sigcc := if isLaunch w then 0xFF else w.sigcc, bcast := bcast, launch := launch, op := op, kcg := k.seq.kcg }

/-- The record entry of cause 0x08: no word stands behind it. -/
def beyondEntry (k : Core) (bcast : Bool) (ft : BitVec 64) : QEntry :=
  let r := Config.beyondEnd ft
  { id := k.seq.nextId, pc := fld r 0 17, engine := fld r 17 4, opcode := fld r 21 8, sigcc := 0xFF, bcast := bcast,
    launch := none, op := none, kcg := k.seq.kcg }

def State.bumpId (s : State) (c : Nat) : State :=
  s.modCore c (fun k => k.modSeq (fun q => { q with nextId := q.nextId + 1 }))

/-- An operation issued to the Ox array, VEC, ROW or ATT restarts their clocks, unless its launch time lies more than 3 µs
ahead; the null entry of a skipped word issues no operation and restarts nothing (R76, R380). -/
def State.wakeClocks (s : State) (c : Nat) (u : EngUnit) (q : QEntry) : State :=
  let fast := u == .ox || u == .vec || u == .row || u == .att
  let soon := match q.launch with
    | some t => decide (t.toNat ≤ s.now.toNat + 3000)
    | none => true
  if fast && soon && q.op.isSome && s.pwr.idleStopped.getLsbD c then
    s.modPwr (fun p => { p with idleStopped := clrBit p.idleStopped c })
  else s

def State.enqueue (s : State) (c : Nat) (u : EngUnit) (q : QEntry) : State :=
  ((s.modCore c (fun k => k.modEng u (fun e => { e with queue := e.queue ++ [q] }))).bumpId c).wakeClocks c u q

def Core.queueFull (k : Core) (u : EngUnit) : Bool := decide (depthOf u ≤ (k.eng u).queue.length)

/-- A word skipped at decode, fetch or issue: recorded, and signalled through a null entry or at once (R74, R76). -/
def State.skipWord (s : State) (c : Nat) (record null : QEntry) (u : EngUnit) (cause : Nat) (atOnce : Bool) : State :=
  let s := s.recordSkip c record cause false
  if atOnce then s.signal c null.sigcc true else s.enqueue c u null

/-- What happened to the word at the head of the issue buffer. -/
inductive Issued where
  /-- it stays -/
  | stalled (why : SeqStall)
  | done_ (s : State)

/-! ## Issue of one word -/

/-- END: nothing more issues; open regions close (R63, R431). -/
def State.endProgram (s : State) (c : Nat) : State :=
  s.modCore c (fun k => (k.modSeq (fun q => { q with ended := true })).closeRegions)

/-- A legal SEQ word other than control flow and LAUNCH_AT. -/
def State.issueSeq (s : State) (c : Nat) (d : Decoded) (bcast : Bool) : Issued :=
  let k := s.core c
  let w := d.word
  let rec_ := entryOf k d.pc w bcast none none
  let skip (cause : Nat) : Issued := .done_ (s.skipWord c rec_ rec_ .cache cause true)
  let ok (s : State) : Issued := .done_ (s.signal c w.sigcc false)
  let waitFor (x : SeqWait) : Issued := .done_ (s.modCore c (fun k => k.modSeq (fun q => { q with wait := x })))
  match w.opcode.toNat with
  | 0x00 => ok s
  | 0x01 => ok (s.endProgram c)
  | 0x08 => waitFor (.cc (BitVec.ofNat 6 (w.body 0 6)) (BitVec.ofNat 31 (w.body 6 31)) (w.body 37 16 != 0) w.sigcc)
  | 0x09 => waitFor (.queue (BitVec.ofNat 4 (w.body 0 4)) (w.body 4 16 != 0) w.sigcc)
  | 0x0B => waitFor (.drain (BitVec.ofNat 8 (w.body 0 8)) w.sigcc)
  | 0x20 | 0x21 | 0x22 =>
    let (a, n, cause) := s.scalarOperand c w
    if cause ≠ 0 then skip cause
    else if k.seq.sbStalls [if w.opcode.toNat = 0x20 then .rd a n else .wr a n] then .stalled .scoreboard
    else let r := s.scalar c w a n; .done_ (r.1.signal c w.sigcc r.2)
  | 0x24 | 0x25 | 0x26 =>
    let r := s.issueRange c w
    if r.cause ≠ 0 then skip r.cause
    else if k.seq.sbStalls r.claims || decide (64 < k.seq.sb.length + r.claims.length) then .stalled .scoreboard
    else
      let q := entryOf k d.pc w bcast none (some r.op)
      let s := s.modCore c (fun k => k.modSeq (fun x => x.claim q.id r.claims))
      .done_ ((s.run c .cache { q := q, inRows := false }).bumpId c)
  | 0x2C => let r := s.regionBegin c (w.body 0 12); if r.2 ≠ 0 then skip r.2 else ok r.1
  | 0x2D => let r := s.regionEnd c (w.body 0 12) (w.body 12 40); if r.2 ≠ 0 then skip r.2 else ok r.1
  | 0x02 | 0x03 | 0x04 | 0x05 =>
    let r := k.seq.control w
    if r.2 ≠ 0 then skip r.2 else ok (s.modCore c (fun k => { k with seq := r.1 }))
  | _ =>
    let r := k.seq.regOp k.subRank w
    if r.2 ≠ 0 then skip r.2 else ok (s.modCore c (fun k => { k with seq := r.1 }))

/-- Shape recorded for the plane of an LDW that passes issue (R97). -/
def State.noteLdw (s : State) (c : Nat) (op : EngOp) : State :=
  match op with
  | .ldw _ _ plane fmt k n =>
    s.modCore c (fun x => x.modSeq (fun q => { q with ldwRec := vmod q.ldwRec (b2n plane) (fun _ => some (k, n, fmt)) }))
  | _ => s

/-- An engine word, with the LAUNCH_AT in front of it if there is one. -/
def State.issueEngine (s : State) (c : Nat) (d : Decoded) (la : Option Decoded) (bcast : Bool) : Issued :=
  let k := s.core c
  let w := d.word
  let u := unitOf w
  let time : Option (BitVec 64) := la.map (fun l =>
    let ft := BitVec.ofNat 64 (l.word.body 0 64)
    if bitB l.word 64 then ft + k.seq.gpr (l.word.body 65 4) else ft)
  let far := match time with
    | some t => decide (s.now.toNat + 1000000000 < t.toNat)
    | none => false
  let null := entryOf k d.pc w bcast (if far then none else time) none
  if k.queueFull u then .stalled .queueFull
  else if far then
    let l := la.getD d
    .done_ (s.skipWord c (entryOf k l.pc l.word bcast none none) null u 0x1A false)
  else
    let r := s.resolve c w
    let claims := liveRanges r.claims
    if r.cause ≠ 0 then .done_ (s.skipWord c null null u r.cause false)
    else if k.seq.sbStalls claims || decide (64 < k.seq.sb.length + claims.length) then .stalled .scoreboard
    else
      let s := s.modCore c (fun x => x.modSeq (fun q => q.claim k.seq.nextId claims))
      .done_ ((s.noteLdw c r.op).enqueue c u (entryOf k d.pc w bcast time (some r.op)))

/-- A word marked with a cause of R75. A MULE word of cause 0x02 whose UNIT is 4 to 7 names no Mule engine; its null
entry goes to M3 (DESIGN CHOICE, log 97: the spec names no engine for it). -/
def State.issueMarked (s : State) (c : Nat) (d : Decoded) (bcast : Bool) : Issued :=
  let k := s.core c
  let w := d.word
  if d.cause = 8 then
    let q := beyondEntry k bcast s.now
    let s := s.recordSkip c q 8 false
    .done_ (if k.err.stopOnErr && !bcast then s else s.endProgram c)
  else
    let q := entryOf k d.pc w bcast none none
    let atOnce := w.engine.toNat == engSEQ || d.cause == 1 || (d.cause == 3 && !unitOk w)
    if !atOnce && k.queueFull (unitOf w) then .stalled .queueFull
    else .done_ (s.skipWord c q q (unitOf w) d.cause atOnce)

/-- The first n words of the issue buffer have issued; a broadcast member frees as many places (R25). -/
def State.tookWords (s : State) (c n : Nat) (bcast : Bool) : State :=
  s.modCore c (fun k =>
    { k.modSeq (fun q => { q with buf := q.buf.drop n, stall := .none }) with
      creditsBack := if bcast then k.creditsBack + n else k.creditsBack })

/-- One step of the issue side: a wait that is over ends, or the head of the issue buffer issues. `none` when nothing
can happen; the reason of a stall is kept in the state. A wait in force ends on a stopped core too (R53, R56, R74). -/
def State.issueOne (s : State) (c : Nat) : State × Bool :=
  let k := s.core c
  let q := k.seq
  let bcast := k.id.bcast
  if q.ended then (s, false)
  else match k.waitOver with
    | some (err, sg, flags) => (if flags then s.endWait c err false sg else s.endWait c q.fErr q.fTmo sg, true)
    | none =>
      if q.stopped || q.wait != .none then (s, false)
      else
        let (n, res) : Nat × Issued := match q.buf with
          | [] => (0, .stalled .none)
          | d :: rest =>
            if d.cause ≠ 0 then (1, s.issueMarked c d bcast)
            else if isLaunch d.word then
              match rest with
              | e :: _ => (2, s.issueEngine c e (some d) bcast)
              | [] => (0, .stalled .none)
            else if d.word.engine.toNat = engSEQ then (1, s.issueSeq c d bcast)
            else (1, s.issueEngine c d none bcast)
        match res with
        | .done_ s' => (s'.tookWords c n bcast, true)
        | .stalled why => (s.modCore c (fun k => k.modSeq (fun x => { x with stall := why })), false)

/-! ## Settling -/

def engUnits : List EngUnit := [.ox, .vec, .row, .att, .gath, .m0, .m1, .m2, .m3, .msg]

/-- What the engines of a core do by themselves: null entries leave the queue heads, the MSG and gather engines work. -/
def State.engineSide (s : State) (c : Nat) : State :=
  let k := s.core c
  let s := (engUnits.filter (fun u => !(k.eng u).queue.isEmpty)).foldl (fun s u => State.dropNulls c u 16 s) s
  let s := if k.msgq.queue.isEmpty then s else State.pumpMsg c 32 s
  if k.gath.queue.isEmpty then s else s.startGath c

/-- Nothing waits on the core: no word to issue, no wait, no queued operation. -/
def Core.quiet (k : Core) : Bool :=
  k.seq.buf.isEmpty && k.seq.wait == .none && engUnits.all (fun u => (k.eng u).queue.isEmpty)

/-- A core goes on until its sequencer and its MSG and gather engines wait. -/
def State.settleCore (c : Nat) : Nat → State → State
  | 0, s => s
  | n + 1, s =>
    if (s.core c).quiet then s
    else
      let r := (s.engineSide c).issueOne c
      if r.2 then State.settleCore c n r.1 else r.1

/-! ## End of a program (R27, R63, R352) -/

/-- Cores of the broadcast group of core c; the core itself in independent mode (R22). -/
def State.groupOf (s : State) (c : Nat) : List Nat :=
  let k := s.core c
  if k.id.bcast then
    let g := 2 ^ k.id.groupSize.toNat
    (List.range g).map (· + c / g * g)
  else [c]

/-- The program of core c has ended and every operation it issued has completed; one that STOP_ON_ERR stopped keeps ACTIVE
(R74). -/
def State.programOver (s : State) (c : Nat) : Bool :=
  (s.groupOf c).all (fun d => (s.core d).seq.ended && !(s.core d).seq.stopped && (s.core d).allIdle)

/-- Heat pages that hold the doorbell granule of an enabled ring (R239). -/
def State.repin (s : State) : State :=
  let pages := (List.range 2).flatMap (fun u => ((s.udOf u).rings.toList.filter (fun r => r.enable)).map (fun r =>
    let l := s.ms.loc r.base.toNat
    (l.die, l.page)))
  s.modMs (fun m => { m with pinned := pages })

/-- Bullock rings of a partition disabled (R204, R223). -/
def State.closeRings (s : State) (p : Nat) : State :=
  ((List.range 2).foldl (fun s u => s.modUd u (fun d =>
    { d with rings := vmod d.rings p (fun r => { r with enable := false }) })) s).repin

/-- Slot tables cleared when the partition's job owns them (R331). -/
def State.releaseSlots (s : State) (p : Nat) : State :=
  if s.time.schedTag = (s.part p).jobTag ∧ s.time.schedTag ≠ 0 then
    s.modTime (fun t => { t with schedEn := false, slots := [], frameM1 := 0, lateSlots := 0, schedTag := 0, schedEpoch := 0 })
  else s

/-- ACTIVE falls where the program is over; a RUNNING partition without an active core has ENDED. -/
def State.checkEnd (s : State) : State :=
  let ending := (List.range 8).filter (fun c => (s.core c).id.active && s.programOver c)
  let s := ending.foldl (fun s c => s.modCore c (fun k => { k with id := { k.id with active := false } })) s
  let done_ := (List.range 8).filter (fun p =>
    (s.part p).state == .running && !s.eth.armed.any (fun a => a.part == p) && ((s.part p).cores p).all (fun c => !(s.core c).id.active))
  done_.foldl (fun s p => ((s.closeRings p).releaseSlots p).modPart p (fun x => { x with state := .ended })) s

/-- Every core goes on as far as it can; messages and credits between cores are passed on. Nothing while an emergency stop
holds the clocks (R379). -/
def State.settle (s : State) : State :=
  if s.stopped then s else
  let pass (s : State) : State :=
    ((List.range 8).filter (fun c => !(s.core c).quiet)).foldl (fun s c => State.settleCore c 160 s) s
  (pass (pass (pass s))).checkEnd

/-! ## Fetch and broadcast (R21 to R27, R47, R77) -/

/-- Core c is the Bellwether of its group. -/
def Core.isBellwether (k : Core) : Bool := k.id.bcast && k.id.rank == k.id.bellwether

/-- The Bellwether has caught up: every word it sent has issued on it and its waits have ended. -/
def Core.caughtUp (k : Core) : Bool := k.ringIn.isEmpty && k.seq.buf.isEmpty && k.seq.wait == .none

/-- The Bellwether holds n credits from every member. -/
def State.ringFree (s : State) (c n : Nat) : Bool :=
  (s.groupOf c).all (fun d => decide (n ≤ (s.core c).seq.credits.getD (s.core d).id.rank.toNat 0))

/-- Words leave on the ring for every member of the group, a credit of each being used. -/
def State.ringSend (s : State) (c : Nat) (ds : List Decoded) : State :=
  (s.groupOf c).foldl (fun s d =>
    let r := (s.core d).id.rank.toNat
    (s.modCore d (fun k => { k with ringIn := k.ringIn ++ ds })).modCore c (fun k =>
      k.modSeq (fun q => { q with credits := vmod q.credits r (fun n => n - ds.length) }))) s

/-- Members whose credits hold the Bellwether back show RING_HELD. -/
def State.holdRing (s : State) (c n : Nat) : State :=
  (s.groupOf c).foldl (fun s d =>
    if (s.core c).seq.credits.getD (s.core d).id.rank.toNat 0 < n then s.modCore d (fun k => { k with ringHeld := true })
    else s) s

def State.setPc (s : State) (c : Nat) (pc : BitVec 18) : State := s.modCore c (fun k => k.modSeq (fun q => { q with pc := pc }))

/-- Words ready to issue or to send once a decoded word and the LAUNCH_AT held before it meet (R64, cause 0x06); the
second part is the LAUNCH_AT now held. A LAUNCH_AT with cause 0x07 is held too, since cause 0x06 is lower (R75). -/
def pairUp (held : Option Decoded) (d : Decoded) : List Decoded × Option Decoded :=
  let bad := d.cause != 0 || d.word.engine.toNat == engSEQ
  let front : List Decoded := match held with
    | some l => [if bad then { l with cause := 6 } else l]
    | none => []
  if (d.cause = 0 || d.cause = 7) && isLaunch d.word then (front, some d) else (front ++ [d], none)

/-- Core c runs no program: none has been started on it, an emergency stop holds it, or the module is in restricted mode (R29,
R379, R398). -/
def State.noProgram (s : State) (c : Nat) : Bool := s.stopped || !(s.core c).id.active || s.rst.restricted != 0

/-- The sequencer of core c fetches and decodes word w at its pc. Nothing happens on a core that cannot take it. -/
def State.fetch (s : State) (c : Nat) (w : Word128) : State :=
  let k := s.core c
  let q := k.seq
  if s.noProgram c || q.stopped || q.ended || q.fetchEnded || decide (131072 ≤ q.pc.toNat) then s
  else
    let d : Decoded := ⟨q.pc.setWidth 17, w, decodeCause w⟩
    let next := q.pc + 1
    let (ws, held) := pairUp q.launchHeld d
    if k.isBellwether then
      if isControl w then
        let front := ws.dropLast
        if !k.caughtUp then s
        else if !front.isEmpty && !s.ringFree c front.length then s.holdRing c front.length
        else
          let s := ((s.ringSend c front).setPc c next).modCore c (fun k => k.modSeq (fun q => { q with launchHeld := none }))
          match (if d.cause ≠ 0 then s.issueMarked c d false else s.issueSeq c d false) with
          | .done_ s' => s'.settle
          | .stalled _ => s
      else if !s.ringFree c ws.length then s.holdRing c ws.length
      else
        let s := ((s.ringSend c ws).setPc c next).modCore c (fun k => k.modSeq (fun q =>
          { q with launchHeld := held, fetchEnded := d.cause == 0 && w.engine.toNat == engSEQ && w.opcode.toNat == 0x01 }))
        s.settle
    else if k.id.bcast || !q.buf.isEmpty || q.wait != .none then s
    else
      ((s.setPc c next).modCore c (fun k => k.modSeq (fun q => { q with launchHeld := held, buf := ws }))).settle

/-- Fetch past the last word (cause 0x08): the core ends or stops; a Bellwether sends END with the cause (R74, R77). -/
def State.fetchBeyond (s : State) (c : Nat) : State :=
  let k := s.core c
  let q := k.seq
  if s.noProgram c || q.stopped || q.ended || q.fetchEnded || decide (q.pc.toNat < 131072) then s
  else
    let d : Decoded := ⟨0, Word128.withOp 0 engSEQ 1, 8⟩
    let (ws, _) := pairUp q.launchHeld d
    let clear (k : Core) : Core := k.modSeq (fun q => { q with launchHeld := none })
    if k.isBellwether then
      if !s.ringFree c ws.length then s.holdRing c ws.length
      else ((s.ringSend c ws).modCore c (fun k => (clear k).modSeq (fun q => { q with fetchEnded := true }))).settle
    else if k.id.bcast || !q.buf.isEmpty || q.wait != .none then s
    else (s.modCore c (fun k => (clear k).modSeq (fun q => { q with buf := ws }))).settle

/-- The oldest word on the ring reaches member c (R25). -/
def State.deliver (s : State) (c : Nat) : State :=
  match (s.core c).ringIn with
  | d :: rest =>
    if (s.core c).seq.buf.length < 64 then
      (s.modCore c (fun k => { k.modSeq (fun q => { q with buf := q.buf ++ [d] }) with ringIn := rest })).settle
    else s
  | [] => s

/-- A credit of member c reaches its Bellwether (R25, R44). -/
def State.creditReturn (s : State) (c : Nat) : State :=
  let k := s.core c
  if k.creditsBack = 0 then s
  else
    match (s.groupOf c).find? (fun d => (s.core d).isBellwether) with
    | some b =>
      (s.modCore c (fun k => { k with creditsBack := k.creditsBack - 1, ringHeld := false })).modCore b (fun x =>
        x.modSeq (fun q => { q with credits := vmod q.credits k.id.rank.toNat (fun n => n + 1) }))
    | none => s

end Sys2Proof.Machine
end

