-- ==== Sys2Proof/Machine/Bullock.lean ====
section
/-! DEFINITION. The Bullock update dies: update programs, the schedule engine, block mode, inverse roots, the command
checks and the quiet-layer monitor (R133 to R135, R201 to R224). -/

namespace Sys2Proof.Machine

/-! ## Commands and addresses (R201, R206) -/

/-- [a, a + n) lies on the stacks of side u (R201, R229). Modes 1 and 2 give each half of a group one side; mode 0 gives
a side four consecutive 4 KiB granules. -/
def MemSys.onSide (ms : MemSys) (u a n : Nat) : Bool :=
  let last := a + n - 1
  if fldN ms.hcCtrl.ilvMode (2 * (a / 2 ^ 36)) 2 = 0 then
    decide (a / 16384 = last / 16384) && (stackOf ms.hcCtrl.ilvMode a).1 / 4 == u
  else
    (List.range (last / 2 ^ 35 - a / 2 ^ 35 + 1)).all (fun i =>
      let x := max a ((a / 2 ^ 35 + i) * 2 ^ 35)
      fldN ms.hcCtrl.ilvMode (2 * (x / 2 ^ 36)) 2 != 0 && (stackOf ms.hcCtrl.ilvMode x).1 / 4 == u)

/-- A range that a command of partition p may reach, its start a multiple of `al` (cause 0x03). -/
def State.udOk (s : State) (u p al a n : Nat) : Bool :=
  decide (a % al = 0) && s.hbmOk p a n && s.ms.onSide u a n

def maxF (neg : Bool) : FVal := f32val (if neg then 0xFF7FFFFF#32 else 0x7F7FFFFF#32)

/-- Bytes of an element of a TFMT code; 0 for the others. -/
def udBytes (f : Nat) : Nat := match f with | 0 | 1 => 2 | 2 => 4 | 3 => 1 | _ => 0

def udElem (f : Nat) : Elem := match f with | 0 => .bf16 | 1 => .fp16 | _ => .fp32

/-- Fields of an UPDATE command (R206). -/
structure UpdateCmd where
  flags  : Nat
  layer  : Nat
  step   : Nat
  prog   : Nat
  sched  : Nat
  rows   : Nat
  cols   : Nat
  t      : List Nat
  fmt    : List Nat
  signal : BitVec 32
  br     : Nat
  bc     : Nat
  fact   : Nat
  deriving DecidableEq, Repr

def UpdateCmd.of_ (b : List Byte) : UpdateCmd :=
  { flags := leAt b 1 1, layer := leAt b 2 2, step := leAt b 4 4, prog := leAt b 8 8, sched := leAt b 0x10 8,
    rows := leAt b 0x18 4, cols := leAt b 0x1C 4, t := (List.range 8).map (fun n => leAt b (0x20 + 8 * n) 8),
    fmt := (List.range 8).map (fun n => leAt b 0x60 4 / 16 ^ n % 16),
    signal := BitVec.ofNat 32 (leAt b 0x64 4), br := leAt b 0x68 2, bc := leAt b 0x6A 2, fact := leAt b 0x70 8 }

def UpdateCmd.block (c : UpdateCmd) : Bool := c.flags.testBit 0
def UpdateCmd.statAcc (c : UpdateCmd) : Bool := c.flags.testBit 1
def UpdateCmd.endl (c : UpdateCmd) : Bool := c.flags.testBit 2
def UpdateCmd.elems (c : UpdateCmd) : Nat := c.rows * c.cols
def UpdateCmd.fmtOf (c : UpdateCmd) (n : Nat) : Nat := c.fmt.getD n 15
def UpdateCmd.addrOf (c : UpdateCmd) (n : Nat) : Nat := c.t.getD n 0

/-! ## Update programs (R208 to R210, R212) -/

/-- A program as the Bullock reads it. -/
structure UdProg where
  ninst  : Nat
  nreg   : Nat
  gradT  : Nat
  nconst : Nat
  seed   : BitVec 64
  stream : BitVec 24
  insts  : List (BitVec 32)
  consts : List (BitVec 32)
  deriving DecidableEq, Repr

def progBytes : Nat := 0x220

def UdProg.of_ (b : List Byte) : UdProg :=
  let ni := leAt b 0 1
  let nc := leAt b 3 1
  { ninst := ni, nreg := leAt b 1 1, gradT := leAt b 2 1, nconst := nc, seed := BitVec.ofNat 64 (leAt b 8 8),
    stream := BitVec.ofNat 24 (leAt b 0x10 4),
    insts := (List.range (min ni 64)).map (fun i => BitVec.ofNat 32 (leAt b (0x40 + 4 * i) 4)),
    consts := (List.range (min nc 56)).map (fun i => BitVec.ofNat 32 (leAt b (0x140 + 4 * i) 4)) }

def instOp (w : BitVec 32) : Nat := fldN w 26 6
def instD (w : BitVec 32) : Nat := fldN w 21 5
def instA (w : BitVec 32) : Nat := fldN w 14 7
def instB (w : BitVec 32) : Nat := fldN w 7 7
def instC (w : BitVec 32) : Nat := fldN w 0 7

/-- Operand fields A, B, C that an operation reads as registers or scalars. -/
def udReads (op : Nat) : List Nat :=
  match op with
  | 0x08 | 0x09 | 0x0B | 0x0E | 0x0F => [0, 1]
  | 0x0A | 0x11 | 0x12 => [0, 1, 2]
  | 0x0C | 0x0D | 0x10 | 0x13 | 0x14 => [0]
  | _ => []

/-- Fields D, A, B, C that an operation uses. -/
def udUses (op : Nat) : List Nat :=
  match op with
  | 0x01 | 0x03 | 0x0C | 0x0D | 0x10 => [0, 1]
  | 0x02 | 0x04 | 0x08 | 0x09 | 0x0B | 0x0E | 0x0F | 0x14 => [0, 1, 2]
  | 0x0A | 0x11 | 0x12 | 0x13 => [0, 1, 2, 3]
  | _ => []

def udAssigned (op : Nat) : Bool := decide (op ≤ 4 ∨ (8 ≤ op ∧ op ≤ 0x14))

def instField (w : BitVec 32) (i : Nat) : Nat :=
  match i with | 0 => instD w | 1 => instA w | 2 => instB w | _ => instC w

/-- Tensors an operation loads and stores. -/
def udLoads (w : BitVec 32) : List Nat :=
  match instOp w with | 0x01 => [instA w] | 0x02 => [instA w, instB w] | _ => []

def udStores (w : BitVec 32) : List Nat :=
  match instOp w with | 0x03 => [instA w] | 0x04 => [instA w, instB w] | _ => []

/-- Formats of the tensors an instruction names are accepted; `fmts` says that the command's formats could be read. -/
def udFmtOk (c : UpdateCmd) (fmts : Bool) (w : BitVec 32) : Bool :=
  match instOp w with
  | 0x01 | 0x03 => decide (instA w < 8) && (!fmts || decide (c.fmtOf (instA w) ≤ 2))
  | 0x02 | 0x04 =>
    decide (instA w < 8 ∧ instB w < 8) && (!fmts || (c.fmtOf (instA w) == 0 && c.fmtOf (instB w) == 3))
  | 0x13 => decide (instC w < 8 ∧ instB w ≤ 1) && (!fmts || c.fmtOf (instC w) != 15)
  | 0x14 => c.block && decide (instB w ≤ 1)
  | _ => true

/-- An operand field names a scalar that exists, or a register that was written. -/
def UdProg.operandOk (p : UdProg) (written : List Nat) (f : Nat) : Bool :=
  if f < 0x20 then decide (f < p.nreg) && written.contains f
  else if f < 0x40 then false
  else decide (f - 0x40 < p.nconst ∨ 56 ≤ f - 0x40)

/-- What a scan of the program has seen: registers written, tensors loaded, tensors stored, and whether all was right. -/
structure ProgScan where
  written : List Nat := []
  loaded  : List Nat := []
  stored  : List Nat := []
  ok      : Bool := true
  deriving DecidableEq, Repr

def UdProg.scan (p : UdProg) (c : UpdateCmd) (fmts : Bool) (s : ProgScan) (w : BitVec 32) : ProgScan :=
  let op := instOp w
  let uses := udUses op
  let readsD := op == 0x03 || op == 0x04
  let ok :=
    udAssigned op && (List.range 4).all (fun i => uses.contains i || instField w i == 0) && udFmtOk c fmts w
      && (udReads op).all (fun i => p.operandOk s.written (instField w (i + 1)))
      && (!readsD || p.operandOk s.written (instD w)) && (!uses.contains 0 || decide (instD w < p.nreg))
      && (udLoads w).all (fun t => !s.loaded.contains t && !s.stored.contains t)
      && (udStores w).all (fun t => !s.stored.contains t)
  { written := if uses.contains 0 && !readsD then instD w :: s.written else s.written,
    loaded := udLoads w ++ s.loaded, stored := udStores w ++ s.stored, ok := s.ok && ok }

/-- The checks of R212 on the first 0x40 bytes of a program. -/
def UdProg.headOk (p : UdProg) (b : List Byte) : Bool :=
  decide (1 ≤ p.ninst ∧ p.ninst ≤ 64 ∧ 1 ≤ p.nreg ∧ p.nreg ≤ 32 ∧ p.nconst ≤ 56)
    && allZero (slice b 0x04 4) && allZero (slice b 0x14 44) && leAt b 0x13 1 == 0

/-- What R212 asks of a program holds as far as it can be read: `fmts` says whether the command's formats could be,
`seen i` whether instruction i could. Of one that could not, it may have written any register. -/
def UdProg.valid (p : UdProg) (c : UpdateCmd) (b : List Byte) (fmts : Bool) (seen : Nat → Bool) : Bool :=
  let step (s : ProgScan) (x : BitVec 32 × Nat) : ProgScan :=
    if seen x.2 then p.scan c fmts s x.1 else { s with written := List.range 32 }
  let is := p.insts.zip (List.range 64)
  p.headOk b && (is.foldl step {}).ok
    && (p.gradT == 0xFF || is.any (fun x => !seen x.2 || (instOp x.1 == 0x01 && instA x.1 == p.gradT)))

/-! ## Schedule engine (R215, R216) -/

structure UdSched where
  base      : BitVec 32
  floor     : BitVec 32
  warmStart : BitVec 32
  warmSteps : Nat
  decaySteps : Nat
  gamma     : BitVec 32
  tau       : BitVec 32
  period    : Nat
  mult      : Nat
  warmKind  : Nat
  decayKind : Nat
  b0        : BitVec 32
  b1        : BitVec 32
  statDecay : BitVec 32
  deriving DecidableEq, Repr

def UdSched.of_ (b : List Byte) : UdSched :=
  let f (o : Nat) : BitVec 32 := BitVec.ofNat 32 (leAt b o 4)
  { base := f 0, floor := f 4, warmStart := f 8, warmSteps := leAt b 0xC 4, decaySteps := leAt b 0x10 4,
    gamma := f 0x14, tau := f 0x18, period := leAt b 0x1C 4, mult := leAt b 0x20 2, warmKind := leAt b 0x22 1,
    decayKind := leAt b 0x23 1, b0 := f 0x24, b1 := f 0x28, statDecay := f 0x2C }

def finite32 (x : BitVec 32) : Bool := fldN x 23 8 != 255

/-- The range checks of R215; a failure is cause 0x02. -/
def UdSched.valid (s : UdSched) (b : List Byte) : Bool :=
  [s.base, s.floor, s.warmStart, s.gamma, s.tau, s.b0, s.b1, s.statDecay].all finite32
    && allZero (slice b 0x30 16) && decide (s.decayKind ≤ 4)
    && (s.warmSteps == 0 || decide (s.warmKind ≤ 1))
    && (!(s.decayKind == 1 || s.decayKind == 2) || s.period != 0 || s.decaySteps != 0)
    && (s.decayKind == 0 || s.period == 0 || decide (1 ≤ s.mult ∧ s.mult ≤ 256))
    && (s.decayKind != 3 || (FVal.zero.lt (f32val s.gamma) && !(FVal.one.lt (f32val s.gamma))))
    && (s.decayKind != 4 || FVal.zero.lt (f32val s.tau))

/-- One binary64 rounding to nearest even. -/
def r64 (v : FVal) : FVal := (decodeElem .f64 (roundTo .f64 .rne v).bits).1

def mul64 (a b : FVal) : FVal := r64 (a.mul b)
def add64 (a b : FVal) : FVal := r64 (a.add b)
def sub64 (a b : FVal) : FVal := r64 (a.sub b)
def div64 (a b : FVal) : FVal := r64 (a.div b)
def nat64 (n : Nat) : FVal := .num false n 1 0

/-- π in binary64. -/
def pi64 : FVal := (decodeElem .f64 0x400921FB54442D18).1

def cosine64 (x : FVal) : FVal :=
  (decodeElem .f64 (Config.cos64 (BitVec.ofNat 64 (roundTo .f64 .rne x).bits)).toNat).1

/-- powi of R216, left to right over the bits of n. -/
def powi64 (b : FVal) (n : Nat) : FVal :=
  (List.range 32).foldl (fun r i =>
    let r := mul64 r r
    if n.testBit (31 - i) then mul64 r b else r) FVal.one

/-- The restart loop of R216: steps into the present period, and its length. -/
def restart : Nat → Nat → Nat → Nat → Nat × Nat
  | 0, k, len, _ => (k, len)
  | f + 1, k, len, mult => if k < len then (k, len) else restart f (k - len) (min (len * mult) 0xFFFFFFFF) mult

def UdSched.steps (s : UdSched) (k : Nat) : Nat × Nat :=
  if s.period = 0 then (k, s.decaySteps)
  else if s.mult ≤ 1 then (k % s.period, s.period)
  else restart 40 k s.period s.mult

/-- factor of R216. -/
def UdSched.factor (s : UdSched) (t : Nat) : FVal :=
  let base := f32val s.base
  let fl := f32val s.floor
  if 0 < s.warmSteps ∧ t ≤ s.warmSteps then
    let x := div64 (nat64 t) (nat64 s.warmSteps)
    let w := if s.warmKind = 0 then x else div64 (sub64 FVal.one (cosine64 (mul64 pi64 x))) (nat64 2)
    let ws := f32val s.warmStart
    mul64 base (add64 ws (mul64 (sub64 FVal.one ws) w))
  else
    let (k, len) := s.steps (t - s.warmSteps)
    let g := match s.decayKind with
      | 1 => sub64 FVal.one (div64 (mul64 (sub64 FVal.one fl) (nat64 (min k len))) (nat64 len))
      | 2 =>
        let c := cosine64 (div64 (mul64 pi64 (nat64 (min k len))) (nat64 len))
        add64 fl (div64 (mul64 (sub64 FVal.one fl) (add64 FVal.one c)) (nat64 2))
      | 3 => fl.max (powi64 (f32val s.gamma) k)
      | 4 => fl.max (r64 (div64 (f32val s.tau) (add64 (f32val s.tau) (nat64 k))).sqrt)
      | _ => FVal.one
    mul64 base g

/-- S56 to S59 of a command, each rounded once to FP32 with the mark that it saturated (R209, R216). -/
def udFactors (s : Option UdSched) (t : Nat) : List (BitVec 32 × Bool) :=
  let one64 (b : BitVec 32) : FVal := sub64 FVal.one (powi64 (f32val b) t)
  (match s with
    | some s => [s.factor t, nat64 t, one64 s.b0, one64 s.b1]
    | none => [FVal.one, nat64 t, FVal.one, FVal.one]).map rne32

/-- Scalars S0 to S63 of a command (R209). -/
def udScalars (p : UdProg) (s : Option UdSched) (t : Nat) : List FVal :=
  let consts := (List.range 56).map (fun i => (decodeElem .fp32 (p.consts.getD i 0).toNat).1)
  consts ++ (udFactors s t).map (fun x => f32val x.1) ++ [FVal.zero, FVal.one, FVal.one.negate, .num false 1 1 (-1)]

/-! ## Numerical events of UDn.NUM_STAT (R211) -/

structure UdEv where
  nanIn  : Nat := 0
  nanOut : Nat := 0
  infIn  : Nat := 0
  ovf    : Nat := 0
  deriving DecidableEq, Repr

def UdEv.join (a b : UdEv) : UdEv := ⟨a.nanIn + b.nanIn, a.nanOut + b.nanOut, a.infIn + b.infIn, a.ovf + b.ovf⟩

def UdEv.ofRead : ReadFlag → UdEv
  | .none => {}
  | .nan => { nanIn := 1 }
  | .inf => { infIn := 1 }

/-! ## Master weights (R213) -/

/-- decode of R213: value and what reading it counts. -/
def masterDecode (w : BitVec 16) (x : Byte) : FVal × ReadFlag :=
  let mag := w.toNat % 0x8000
  let neg := bitB w 15
  if mag > 0x7F80 then (.nan, .nan)
  else if mag = 0x7F80 then (maxF neg, .inf)
  else
    let p := mag * 65536 + x.toNat * 256
    let m := if 0x8000 ≤ p then p - 0x8000 else 0
    (f32val (BitVec.ofNat 32 (b2n neg * 2 ^ 31 + m)), .none)

/-- m rounded to nearest even to a multiple of 0x100. -/
def round100 (m : Nat) : Nat :=
  let q := m / 256
  let r := m % 256
  (if 128 < r ∨ (r = 128 ∧ q % 2 = 1) then q + 1 else q) * 256

/-- encode of R213 on FP32 bits: BF16 word, extension byte, and what writing them counts. -/
def masterEncode (v : FVal) : BitVec 16 × Byte × UdEv :=
  match v with
  | .nan => (0x7FC0, 0x80, { nanOut := 1 })
  | _ =>
    let b := (rne32 v).1
    let m := round100 (b.toNat % 2 ^ 31)
    let sat := decide (0x7F7F7F00 < m)
    let e := (if sat then 0x7F7F7F00 else m) + 0x8000
    (BitVec.ofNat 16 (b2n (bitB b 31) * 0x8000 + e / 65536), BitVec.ofNat 8 (e / 256), { ovf := b2n sat })

/-! ## Executing a program over a chunk or tile (R207, R210, R211, R217) -/

/-- A chunk, or a tile: its elements by number, its shape, its bands. -/
structure UdUnit where
  no     : Nat
  elems  : List Nat
  h      : Nat
  w      : Nat
  rband  : Nat
  cband  : Nat
  deriving DecidableEq, Repr

/-- One arithmetic result: its FP32 value, and whether it saturated. -/
def udArith (op : Nat) (a b c : FVal) : FVal × Bool :=
  let rnd (v : FVal) : FVal × Bool :=
    match v with
    | .nan => (.nan, false)
    | v => let r := rne32 v; (f32val r.1, r.2)
  match op with
  | 0x08 => rnd (a.add b)
  | 0x09 => rnd (a.mul b)
  | 0x0A => rnd ((a.mul b).add c)
  | 0x0B =>
    if a.isNaN || b.isNaN then (.nan, false)
    else if b.isZero then (if a.isZero then (.nan, false) else (maxF (a.neg? != b.neg?), true))
    else rnd (a.div b)
  | 0x0C => rnd a.sqrt
  | 0x0D =>
    if a.isNaN then (.nan, false)
    else if a.isZero then (maxF false, true)
    else if a.neg? then (.nan, false)
    else rnd (FVal.one.div a).sqrt
  | 0x0E => (a.max b, false)
  | 0x0F => (a.min b, false)
  | 0x10 => (if a.isNaN then .nan else if a.isZero then a else .num a.neg? 1 1 0, false)
  | 0x11 => ((a.max b).min c, false)
  | 0x12 => (if a.isNaN then .nan else if FVal.zero.lt a then b else c, false)
  | _ => (a, false)

/-- A dot product of FP32 values in K-blocks of 64, chained from a start value (R115, R118, R217). -/
def dotBlocks : Nat → List (FVal × FVal) → List (BitVec 32 × Bool)
  | 0, _ => []
  | n + 1, ps =>
    if ps.isEmpty then []
    else
      let p (l : List (FVal × FVal)) : List Prod := l.map (fun x => prodOf x.1 x.2)
      kBlock (p (ps.take 32)) (p ((ps.drop 32).take 32)) (some 0) (some 0) FVal.one :: dotBlocks n (ps.drop 64)

def dot64 (start : Option (BitVec 32)) (xs ys : List FVal) : BitVec 32 × Bool :=
  chain32 start (dotBlocks (xs.length / 64 + 1) (xs.zip ys))

/-- Row-major matrix of FP32 values at an address with a pitch in elements. -/
def MemSys.matrix (ms : MemSys) (a pitch h w : Nat) : List (List FVal × List ReadFlag) :=
  (List.range h).map (fun i =>
    let r := (List.range w).map (fun j => decodeElem .fp32 (ms.le (a + 4 * (i * pitch + j)) 4))
    (r.map (·.1), r.map (·.2)))

def transpose {α : Type} (w : Nat) (m : List (List α)) : List (List α) :=
  (List.range w).map (fun j => m.filterMap (fun r => r[j]?))

/-- Product of two matrices of FP32 values, each element a chain of K-blocks. -/
def matMul (a b : List (List FVal)) (w : Nat) : List (List (BitVec 32 × Bool)) :=
  let bt := transpose w b
  a.map (fun row => bt.map (fun col => dot64 none row col))

def rowsOf {α : Type} (w : Nat) : Nat → List α → List (List α)
  | 0, _ => []
  | n + 1, xs => xs.take w :: rowsOf w n (xs.drop w)

/-- What running a program over one unit leaves. -/
structure UdRun where
  regs   : List (List FVal) := List.replicate 32 []
  /-- tensor, bytes per element -/
  stores : List (Nat × List (List Byte)) := []
  ev     : UdEv := {}
  /-- elements of GRAD_T: values, and those ±0 or subnormal -/
  grad   : List FVal := []
  total  : Nat := 0
  zeros  : Nat := 0
  /-- sides whose factor was read: 0 left, 1 right -/
  facts  : List Nat := []
  deriving DecidableEq, Repr

/-- Context of a command: parsed fields, program, scalars. -/
structure UdCtx where
  cmd     : UpdateCmd
  prog    : UdProg
  scalars : List FVal
  /-- factors of the schedule that saturated as they were rounded to FP32 (R122, R216) -/
  satur   : Nat
  decay   : FVal
  deriving DecidableEq, Repr

def UdCtx.operand (x : UdCtx) (r : UdRun) (f i : Nat) : FVal :=
  if f < 0x20 then (r.regs.getD f []).getD i .zero else x.scalars.getD (f - 0x40) .zero

def UdCtx.tensorAt (x : UdCtx) (t e : Nat) : Nat := x.cmd.addrOf t + e * udBytes (x.cmd.fmtOf t)

def UdCtx.nL (x : UdCtx) : Nat := ceilDiv x.cmd.rows x.cmd.br
def UdCtx.nR (x : UdCtx) : Nat := ceilDiv x.cmd.cols x.cmd.bc

/-- Address of left matrix i and right matrix i; `stat` selects the statistics (R217). -/
def UdCtx.leftAt (x : UdCtx) (i : Nat) (stat : Bool) : Nat :=
  x.cmd.fact + 4 * (b2n stat * (x.nL * x.cmd.br ^ 2 + x.nR * x.cmd.bc ^ 2) + i * x.cmd.br ^ 2)
def UdCtx.rightAt (x : UdCtx) (i : Nat) (stat : Bool) : Nat :=
  x.cmd.fact + 4 * (b2n stat * (x.nL * x.cmd.br ^ 2 + x.nR * x.cmd.bc ^ 2) + x.nL * x.cmd.br ^ 2 + i * x.cmd.bc ^ 2)

def UdRun.put (r : UdRun) (d : Nat) (vs : List FVal) (ev : UdEv) : UdRun :=
  { r with regs := r.regs.set d vs, ev := r.ev.join ev }

def joinUd (es : List UdEv) : UdEv := es.foldl UdEv.join {}

/-- The factor of a unit on side 0 (left) or 1 (right): the leading rows and columns of its matrix (R217). -/
def UdCtx.factor (x : UdCtx) (ms : MemSys) (un : UdUnit) (side : Nat) : List (List FVal × List ReadFlag) :=
  if side = 0 then ms.matrix (x.leftAt un.rband false) x.cmd.br un.h un.h
  else ms.matrix (x.rightAt un.cband false) x.cmd.bc un.w un.w

def UdEv.ofMatrix (m : List (List FVal × List ReadFlag)) : UdEv := joinUd (m.flatMap (fun r => r.2.map UdEv.ofRead))

/-- One instruction over a unit. -/
def UdCtx.inst (x : UdCtx) (ms : MemSys) (un : UdUnit) (r : UdRun) (w : BitVec 32) : UdRun :=
  let op := instOp w
  let n := un.elems.length
  let opd (k i : Nat) : FVal := x.operand r (instField w k) i
  match op with
  | 0x00 => r
  | 0x01 =>
    let t := instA w
    let f := udElem (x.cmd.fmtOf t)
    let raw := un.elems.map (fun e => ms.le (x.tensorAt t e) (udBytes (x.cmd.fmtOf t)))
    let vs := raw.map (decodeElem f)
    let r := r.put (instD w) (vs.map (·.1)) (joinUd (vs.map (fun v => UdEv.ofRead v.2)))
    if t = x.prog.gradT then
      { r with grad := vs.map (·.1), total := n, zeros := (raw.filter (fun b => b / 2 ^ f.fb % 2 ^ f.eb == 0)).length }
    else r
  | 0x02 =>
    let vs := un.elems.map (fun e => masterDecode (BitVec.ofNat 16 (ms.le (x.tensorAt (instA w) e) 2))
      (ms.byte (x.tensorAt (instB w) e)))
    r.put (instD w) (vs.map (·.1)) (joinUd (vs.map (fun v => UdEv.ofRead v.2)))
  | 0x03 =>
    let f := udElem (x.cmd.fmtOf (instA w))
    let out := (r.regs.getD (instD w) []).map (roundTo f .rne)
    { r with stores := r.stores ++ [(instA w, out.map (fun o => leBytes (f.bits / 8) o.bits))],
             ev := r.ev.join (joinUd (out.map (fun o => { nanOut := b2n o.nan, ovf := b2n o.ovf }))) }
  | 0x04 =>
    let out := (r.regs.getD (instD w) []).map masterEncode
    { r with stores := r.stores ++ [(instA w, out.map (fun o => leBytes 2 o.1.toNat)), (instB w, out.map (fun o => [o.2.1]))],
             ev := r.ev.join (joinUd (out.map (fun o => o.2.2))) }
  | 0x13 =>
    let f : Elem := if instB w = 0 then .bf16 else .fp16
    let seed := x.prog.seed + BitVec.ofNat 64 x.cmd.step
    let out := (List.range n).map (fun i =>
      let a := x.tensorAt (instC w) (un.elems.getD i 0)
      roundTo f (srMode seed x.prog.stream f (8 * a)) (opd 1 i))
    r.put (instD w) (out.map (fun o => (decodeElem f o.bits).1)) (joinUd (out.map (fun o => { ovf := b2n o.ovf })))
  | 0x14 =>
    let a := rowsOf un.w un.h ((List.range n).map (opd 1))
    let fm := x.factor ms un (instB w)
    let m := if instB w = 0 then matMul (fm.map (·.1)) a un.w else matMul a (fm.map (·.1)) un.w
    let seen := r.facts.contains (instB w)
    let r := { r with facts := instB w :: r.facts, ev := r.ev.join (if seen then {} else .ofMatrix fm) }
    r.put (instD w) (m.flatten.map (fun v => f32val v.1)) (joinUd (m.flatten.map (fun v => { ovf := b2n v.2 })))
  | _ =>
    let out := (List.range n).map (fun i => udArith op (opd 1 i) (opd 2 i) (opd 3 i))
    r.put (instD w) (out.map (·.1)) (joinUd (out.map (fun o => { ovf := b2n o.2 })))

/-- Rows of an n by n corner of a matrix with rows of `pitch` elements, as runs of memory. -/
def cornerRuns (a pitch n : Nat) : List (Nat × Nat) := (List.range n).map (fun i => (a + 4 * i * pitch, 4 * n))

/-- The statistics are accumulated (R218). -/
def UdCtx.statOn (x : UdCtx) : Bool := x.cmd.block && x.cmd.statAcc && x.prog.gradT != 0xFF

/-- Runs of memory a unit reads: address, bytes. Each factor is read once in a tile that uses it (R217); a right statistic
is read in every row band, and a left one where the working store does not hold it yet (R218). -/
def UdCtx.spans (x : UdCtx) (heldLeft : Bool) (un : UdUnit) : List (Nat × Nat) :=
  let rowStarts := (List.range un.h).map (fun i => un.elems.getD (i * un.w) 0)
  let tensors := (x.prog.insts.flatMap udLoads).flatMap (fun t =>
    rowStarts.map (fun e => (x.tensorAt t e, un.w * udBytes (x.cmd.fmtOf t))))
  let uses (side : Nat) : Bool := x.prog.insts.any (fun w => instOp w == 0x14 && instB w == side)
  tensors
    ++ (if uses 0 then cornerRuns (x.leftAt un.rband false) x.cmd.br un.h else [])
    ++ (if uses 1 then cornerRuns (x.rightAt un.cband false) x.cmd.bc un.w else [])
    ++ (if x.statOn && !heldLeft then cornerRuns (x.leftAt un.rband true) x.cmd.br un.h else [])
    ++ (if x.statOn then cornerRuns (x.rightAt un.cband true) x.cmd.bc un.w else [])

/-- Units of a command: chunks of 4,096 elements, or tiles band by band (R207, R217). -/
def UpdateCmd.units (c : UpdateCmd) : List UdUnit :=
  if c.block then
    (List.range (ceilDiv c.rows c.br)).flatMap (fun i =>
      (List.range (ceilDiv c.cols c.bc)).map (fun j =>
        let h := min c.br (c.rows - i * c.br)
        let w := min c.bc (c.cols - j * c.bc)
        { no := i * ceilDiv c.cols c.bc + j, h := h, w := w, rband := i, cband := j,
          elems := (List.range h).flatMap (fun r => (List.range w).map (fun k => (i * c.br + r) * c.cols + j * c.bc + k)) }))
  else
    (List.range (ceilDiv c.elems 4096)).map (fun i =>
      let n := min 4096 (c.elems - 4096 * i)
      { no := i, h := 1, w := n, rband := 0, cband := 0, elems := (List.range n).map (· + 4096 * i) })

/-- A statistics matrix in the working store: address, pitch, present values. -/
structure UdStat where
  addr  : Nat
  pitch : Nat
  vals  : List (List (BitVec 32))
  deriving DecidableEq, Repr

def isNan32 (b : BitVec 32) : Bool := (f32val b).isNaN

/-- NaN elements of a statistic. -/
def UdStat.nans (t : UdStat) : Nat := (t.vals.flatten.filter isNan32).length

/-- The statistic at an address, decayed at its first touch in the command; `again` says that a later touch reads it from
memory once more (a right statistic in a later row band, R218). -/
def UdCtx.stat (x : UdCtx) (ms : MemSys) (sts : List UdStat) (a pitch n : Nat) (again : Bool) : UdStat × UdEv :=
  match sts.find? (fun t => t.addr == a) with
  | some t => (t, { nanIn := if again then t.nans else 0 })
  | none =>
    let m := ms.matrix a pitch n n
    let out := m.map (fun r => r.1.map (fun v => udArith 0x09 x.decay v .zero))
    ({ addr := a, pitch := pitch, vals := out.map (fun r => r.map (fun v => f32bits v.1)) },
     joinUd (m.flatMap (fun r => r.2.map UdEv.ofRead) ++ out.flatMap (fun r => r.map (fun v => { ovf := b2n v.2 }))))

/-- S ← S + G Gᵀ over the rows of G, each sum continued from S (R218). -/
def accumulate (t : UdStat) (g : List (List FVal)) : UdStat × UdEv :=
  let idx := List.range g.length
  let out := idx.map (fun i => idx.map (fun j =>
    dot64 (some ((t.vals.getD i []).getD j 0)) (g.getD i []) (g.getD j [])))
  ({ t with vals := out.map (fun r => r.map (·.1)) }, joinUd (out.flatMap (fun r => r.map (fun v => { ovf := b2n v.2 }))))

/-- What a whole command leaves: stores, statistics, events, totals, first elements of the units left unwritten. -/
structure UdResult where
  writes : List (Nat × List Byte) := []
  stats  : List UdStat := []
  ev     : UdEv := {}
  total  : Nat := 0
  zeros  : Nat := 0
  bad    : List Nat := []
  kept   : List Nat := []
  /-- runs of memory read, in order -/
  reads  : List (Nat × Nat) := []
  deriving DecidableEq, Repr

/-- The stores of a unit as byte runs, one per row. -/
def UdCtx.storeRuns (x : UdCtx) (un : UdUnit) (st : List (Nat × List (List Byte))) : List (Nat × List Byte) :=
  st.flatMap (fun p => (List.range un.h).map (fun i =>
    (x.tensorAt p.1 (un.elems.getD (i * un.w) 0), ((p.2.drop (i * un.w)).take un.w).flatten)))

/-- One chunk or tile. -/
def UdCtx.runUnit (x : UdCtx) (ms : MemSys) (res : UdResult) (un : UdUnit) : UdResult :=
  let spans := x.spans (res.stats.any (fun t => t.addr == x.leftAt un.rband true)) un
  let res := { res with reads := res.reads ++ spans }
  if spans.any (fun r => ms.badRange r.1 r.2) then { res with bad := res.bad ++ [un.elems.getD 0 0] }
  else
    let r := x.prog.insts.foldl (x.inst ms un) {}
    let res := { res with writes := res.writes ++ x.storeRuns un r.stores, ev := res.ev.join r.ev,
                          total := res.total + r.total, zeros := res.zeros + r.zeros }
    if x.statOn then
      let g := rowsOf un.w un.h r.grad
      let (l, e0) := x.stat ms res.stats (x.leftAt un.rband true) x.cmd.br un.h false
      let (l, e1) := accumulate l g
      let (q, e2) := x.stat ms res.stats (x.rightAt un.cband true) x.cmd.bc un.w true
      let (q, e3) := accumulate q (transpose un.w g)
      { res with stats := res.stats.filter (fun t => t.addr != l.addr && t.addr != q.addr) ++ [l, q],
                 ev := res.ev.join (joinUd [e0, e1, e2, e3, { nanOut := q.nans }]) }
    else res

/-- The statistics a command wrote, as byte runs. -/
def UdStat.runs (t : UdStat) : List (Nat × List Byte) :=
  (List.range t.vals.length).map (fun i =>
    (t.addr + 4 * i * t.pitch, (t.vals.getD i []).flatMap (fun b => leBytes 4 b.toNat)))

/-- A whole command. A right statistic is written once per row band and counts the NaNs it writes each time; a left one
is written once (R218). -/
def UdCtx.run (x : UdCtx) (ms : MemSys) : UdResult :=
  let cflags := x.prog.consts.map (fun b => (decodeElem .fp32 b.toNat).2)
  let r := x.cmd.units.foldl (x.runUnit ms) { ev := joinUd ({ ovf := x.satur } :: cflags.map UdEv.ofRead) }
  let left := r.stats.filter (fun t => decide (t.addr < x.rightAt 0 true))
  { r with writes := r.writes ++ r.stats.flatMap UdStat.runs,
           ev := r.ev.join { nanOut := left.foldl (fun n t => n + t.nans) 0 } }

/-! ## Inverse roots (R219) -/

structure RootCmd where
  p4     : Bool
  layer  : Nat
  iters  : Nat
  eps    : BitVec 32
  nmat   : Nat
  src    : Nat
  dst    : Nat
  dim    : Nat
  signal : BitVec 32
  deriving DecidableEq, Repr

def RootCmd.of_ (b : List Byte) : RootCmd :=
  { p4 := leAt b 1 1 % 2 == 1, layer := leAt b 2 2 % 4096, iters := leAt b 4 4, eps := BitVec.ofNat 32 (leAt b 8 4),
    nmat := leAt b 0xC 4, src := leAt b 0x10 8, dst := leAt b 0x18 8, dim := leAt b 0x20 2,
    signal := BitVec.ofNat 32 (leAt b 0x64 4) }

def RootCmd.bytes (c : RootCmd) : Nat := 4 * c.dim ^ 2 * c.nmat

abbrev FMat := List (List FVal)

/-- A map over a matrix with row and column, saturations counted. -/
def mapMat (m : FMat) (f : Nat → Nat → FVal → FVal × Bool) : FMat × Nat :=
  let r := (List.range m.length).map (fun i => (List.range (m.getD i []).length).map (fun j => f i j ((m.getD i []).getD j .zero)))
  (r.map (fun x => x.map (·.1)), (r.flatten.filter (·.2)).length)

def prodMat (a b : FMat) : FMat × Nat :=
  let r := matMul a b b.length
  (r.map (fun x => x.map (fun v => f32val v.1)), (r.flatten.filter (·.2)).length)

/-- One Newton iteration on (x, m, saturations). -/
def rootStep (p : Nat) (st : FMat × FMat × Nat) : FMat × FMat × Nat :=
  let (x, m, n) := st
  let inv : FVal := .num false 1 p 0
  let (t, n1) := mapMat m (fun i j v =>
    let d := udArith 0x08 (if i = j then nat64 (p + 1) else .zero) v.negate .zero
    let q := udArith 0x09 d.1 inv .zero
    (q.1, d.2 || q.2))
  let (x, n2) := prodMat x t
  let (u, n3) := prodMat t t
  let (u, n4) := if p = 4 then prodMat u u else (u, 0)
  let (m, n5) := prodMat u m
  (x, m, n + n1 + n2 + n3 + n4 + n5)

def iterate {α : Type} (f : α → α) : Nat → α → α
  | 0, a => a
  | n + 1, a => iterate f n (f a)

/-- The inverse root of one matrix, and the saturations on the way. -/
def RootCmd.root (c : RootCmd) (s : FMat) : FMat × Nat :=
  let p := if c.p4 then 4 else 2
  let eps := (decodeElem .fp32 c.eps.toNat).1
  let (a, n0) := mapMat s (fun i j v => if i = j then udArith 0x08 v eps .zero else (v, false))
  let q := sumsq141 (a.flatten.map f32bits)
  let z := udArith 0x0C (f32val q.1) .zero .zero
  let w := if c.p4 then udArith 0x0C z.1 .zero .zero else z
  let k := udArith 0x0D w.1 .zero .zero
  let (x, _) := mapMat a (fun i j _ => (if i = j then k.1 else .zero, false))
  let iz := udArith 0x0B FVal.one z.1 .zero
  let (m, n1) := mapMat a (fun _ _ v => udArith 0x09 v iz.1 .zero)
  let r := iterate (rootStep p) c.iters (x, m, n0 + n1 + b2n q.2 + b2n z.2 + b2n k.2 + b2n iz.2)
  (r.1, r.2.2)

def RootCmd.runOne (c : RootCmd) (ms : MemSys) (res : UdResult) (k : Nat) : UdResult :=
  let sz := 4 * c.dim ^ 2
  let res := { res with reads := res.reads ++ [(c.src + sz * k, sz)] }
  if ms.badRange (c.src + sz * k) sz then { res with bad := res.bad ++ [c.dim ^ 2 * k] }
  else
    let s := ms.matrix (c.src + sz * k) c.dim c.dim c.dim
    let (x, n) := c.root (s.map (·.1))
    let ev := joinUd (s.flatMap (fun r => r.2.map UdEv.ofRead))
    let res := { res with ev := res.ev.join { ev with ovf := ev.ovf + n } }
    if x.flatten.any FVal.isNaN then { res with kept := res.kept ++ [k] }
    else { res with writes := res.writes ++ [(c.dst + sz * k, x.flatten.flatMap (fun v => leBytes 4 (f32bits v).toNat))] }

def RootCmd.run (c : RootCmd) (ms : MemSys) : UdResult :=
  (List.range c.nmat).foldl (c.runOne ms) { ev := UdEv.ofRead (decodeElem .fp32 c.eps.toNat).2 }

/-! ## Command checks (R221) -/

/-- Lowest cause that applies, 0 for none. -/
def udLowest (cs : List (Nat × Bool)) : Nat :=
  (cs.filter (·.2)).foldl (fun a c => if a = 0 ∨ c.1 < a then c.1 else a) 0

/-- SIGNAL.EN with a core outside the partition (cause 0x07). -/
def State.signalBad (s : State) (p : Nat) (sig : BitVec 32) : Bool :=
  bitB sig 9 && !((s.part p).cores p).contains (fldN sig 0 3)

/-- Working store of a block-mode command (R217). -/
def UpdateCmd.store (c : UpdateCmd) (nreg : Nat) : Nat :=
  nreg * 4 * c.br * c.bc + 4 * (c.br ^ 2 + c.bc ^ 2) * (if c.statAcc then 2 else 1)

/-- Bytes of the factor area (R217). -/
def UpdateCmd.factBytes (c : UpdateCmd) : Nat :=
  4 * (ceilDiv c.rows c.br * c.br ^ 2 + ceilDiv c.cols c.bc * c.bc ^ 2) * (if c.statAcc then 2 else 1)

/-- Ranges of the tensors in use. -/
def UpdateCmd.tensors (c : UpdateCmd) : List (Nat × Nat) :=
  (List.range 8).filterMap (fun n =>
    if udBytes (c.fmtOf n) = 0 then none else some (c.addrOf n, c.elems * udBytes (c.fmtOf n)))

def rangesOverlap : List (Nat × Nat) → Bool
  | [] => false
  | r :: rs => rs.any (fun q => overlaps r.1 r.2 q.1 q.2) || rangesOverlap rs

/-- Parts of a program that a command reads: its first 0x40 bytes, and where these can be read, the first NINST
instructions and NCONST constants (R208). -/
def UdProg.reads (ms : MemSys) (a : Nat) : List (Nat × Nat) :=
  if ms.badRange a 0x40 then [(a, 0x40)]
  else
    [(a, 0x40), (a + 0x40, 4 * min (ms.byte a).toNat 64), (a + 0x140, 4 * min (ms.byte (a + 3)).toNat 56)].filter
      (fun r => r.2 != 0)

def UdProg.readBad (ms : MemSys) (a : Nat) : Bool := (UdProg.reads ms a).any (fun r => ms.badRange r.1 r.2)

/-- Checks of the fields in bytes 0x00 to 0x3F of an UPDATE (cause 0x02). -/
def UpdateCmd.lowBad (c : UpdateCmd) : Bool :=
  decide (8 ≤ c.flags ∨ 4096 ≤ c.layer ∨ c.step = 0 ∨ c.rows = 0 ∨ c.cols = 0 ∨ 2 ^ 34 < c.elems)
    || ([c.prog, c.sched] ++ c.t.take 4).any (fun a => decide (2 ^ 42 ≤ a))

/-- Checks of the fields in bytes 0x40 to 0x7F of an UPDATE (cause 0x02). -/
def UpdateCmd.highBad (c : UpdateCmd) (b : List Byte) : Bool :=
  decide (2 ^ 10 ≤ c.signal.toNat) || !allZero (slice b 0x6C 4) || !allZero (slice b 0x78 8)
    || (c.fact :: c.t.drop 4).any (fun a => decide (2 ^ 42 ≤ a))
    || (List.range 8).any (fun n => decide (3 < c.fmtOf n ∧ c.fmtOf n ≠ 15))
    || (List.range 4).any (fun n => c.fmtOf (n + 4) == 15 && c.addrOf (n + 4) != 0)

/-- The causes of R221 that an UPDATE shows; `r0` and `r1` say which granules of its entry read correctly, and a check
that needs an unreadable granule, program or schedule record shows nothing. Neither the program nor the schedule record
is read where the command may not reach it (R201). -/
def State.updateCauses (s : State) (u p : Nat) (b : List Byte) (r0 r1 : Bool) : List (Nat × Bool) :=
  let c := UpdateCmd.of_ b
  let both := r0 && r1
  let pb := s.ms.bytes c.prog progBytes
  let prog := UdProg.of_ pb
  let sb := s.ms.bytes c.sched 64
  let blockOk := decide (1 ≤ c.br ∧ c.br ≤ 1024 ∧ 1 ≤ c.bc ∧ c.bc ≤ 1024)
  let others := [(c.prog, progBytes)] ++ (if c.sched = 0 then [] else [(c.sched, 64)])
  let facts := if c.block && blockOk then [(c.fact, c.factBytes)] else []
  let progOn := r0 && s.udOk u p 64 c.prog progBytes
  let schedOn := r0 && c.sched != 0 && s.udOk u p 64 c.sched 64
  let progBad := progOn && UdProg.readBad s.ms c.prog
  let schedBad := schedOn && s.ms.badRange c.sched 64
  [(0x02, (r0 && c.lowBad) || (r1 && c.highBad b)
      || (both && (List.range 4).any (fun n => c.fmtOf n == 15 && c.addrOf n != 0))
      || (schedOn && !schedBad && !(UdSched.of_ sb).valid sb)),
   (0x03, (r0 && !(others.all (fun r => s.udOk u p 64 r.1 r.2)))
      || (both && (!(c.tensors.all (fun r => s.udOk u p 64 r.1 r.2)) || !(facts.all (fun r => s.udOk u p 1 r.1 r.2))))),
   (0x04, both && (rangesOverlap c.tensors
      || c.tensors.any (fun t => (others ++ facts).any (fun r => overlaps t.1 t.2 r.1 r.2)))),
   (0x05, progOn && !s.ms.badRange c.prog 0x40
      && !prog.valid c pb both (fun i => !s.ms.badRange (c.prog + 0x40 + 4 * i) 4)),
   (0x06, (r0 && !c.block && c.statAcc)
      || (both && (if c.block then !blockOk || (progOn && !s.ms.badRange c.prog 0x40 && decide (2 ^ 26 < c.store prog.nreg))
                   else c.br != 0 || c.bc != 0 || c.fact != 0))),
   (0x07, r1 && s.signalBad p c.signal),
   (0x09, progBad || schedBad || !both)]

def State.checkUpdate (s : State) (u p : Nat) (b : List Byte) : Nat := udLowest (s.updateCauses u p b true true)

/-- The causes of R221 that a ROOT shows; `r0` and `r1` as for an UPDATE. -/
def State.rootCauses (s : State) (u p : Nat) (b : List Byte) (r0 r1 : Bool) : List (Nat × Bool) :=
  let c := RootCmd.of_ b
  let eps := (decodeElem .fp32 c.eps.toNat).1
  [(0x02, (r0 && (decide (2 ≤ leAt b 1 1 ∨ 4096 ≤ leAt b 2 2 ∨ c.iters = 0 ∨ 64 < c.iters ∨ c.nmat = 0 ∨ 4096 < c.nmat
        ∨ c.dim = 0 ∨ 1024 < c.dim ∨ 2 ^ 42 ≤ c.src ∨ 2 ^ 42 ≤ c.dst)
        || eps.isNaN || eps.lt .zero || !allZero (slice b 0x22 0x1E)))
      || (r1 && (decide (2 ^ 10 ≤ c.signal.toNat) || !allZero (slice b 0x40 0x24) || !allZero (slice b 0x68 24)))),
   (0x03, r0 && (!s.udOk u p 1 c.src c.bytes || !s.udOk u p 1 c.dst c.bytes)),
   (0x07, r1 && s.signalBad p c.signal),
   (0x08, r0 && (overlaps c.src c.bytes c.dst c.bytes || decide (2 ^ 40 < c.src + c.bytes ∨ 2 ^ 40 < c.dst + c.bytes))),
   (0x09, !(r0 && r1))]

def State.checkRoot (s : State) (u p : Nat) (b : List Byte) : Nat := udLowest (s.rootCauses u p b true true)

/-- The cause of a command whose entry read as uncorrectable in one granule or both: the lowest that what could be read
shows, else 0x09. With KIND unreadable, only the checks common to both kinds of command show. -/
def State.badCause (s : State) (u p : Nat) (b : List Byte) (r0 r1 : Bool) : Nat :=
  if !r0 then udLowest [(0x02, r1 && (UpdateCmd.of_ b).highBad b), (0x07, r1 && s.signalBad p (UpdateCmd.of_ b).signal),
    (0x09, true)]
  else match leAt b 0 1 with
    | 1 => udLowest (s.updateCauses u p b r0 r1)
    | 2 => udLowest (s.rootCauses u p b r0 r1)
    | _ => 1

/-! ## Starting a command (R205) -/

/-- The ring served next: ascending after the last one, rings without an accepted command skipped. -/
def Ud.nextRing (d : Ud) : Option Nat :=
  ((List.range 8).map (fun i => (d.lastRing + 1 + i) % 8)).find? (fun p =>
    let r := d.rings.getD p {}
    r.enable && r.tail != r.head)

/-- Address of the entry at the head of a ring (R203). -/
def UdRing.entry (r : UdRing) : Nat := r.head.toNat % 2 ^ r.log2.toNat
def UdRing.entryAt (r : UdRing) : Nat := r.base.toNat + 64 + 128 * r.entry

/-- Frames borrowed from each of the two dies: flushed, then lent, from frame 1,023 downward (R239). -/
def MemSys.borrow (ms : MemSys) (die n : Nat) : MemSys :=
  ((List.range n).foldl (fun m i => m.evict die (1023 - i)) ms).modDie die (fun d => { d with borrowed := n })

def State.udEvent (s : State) (u p code : Nat) (detail : List (Nat × Nat)) : State :=
  s.log { source := 0x10 + u, code := code, jobTag := (s.part p).jobTag, part := BitVec.ofNat 8 p, detail := detail }

def Ud.addEv (d : Ud) (e : UdEv) : Ud :=
  { d with nanIn := satAdd d.nanIn e.nanIn, nanOut := satAdd d.nanOut e.nanOut, infIn := satAdd d.infIn e.infIn,
           ovf := satAdd d.ovf e.ovf }

/-- Failure of a command (R221). -/
def State.failCmd (s : State) (u p cause entry : Nat) : State :=
  let s := s.modUd u (fun d => { d with
    failed := satInc d.failed, ceCause := BitVec.ofNat 8 cause, cePart := BitVec.ofNat 3 p,
    ceEntry := BitVec.ofNat 12 entry, ceOverwritten := d.ceValid || d.ceOverwritten, ceValid := true })
  s.udEvent u p 0x04 [(cause, 1), (p, 1), (entry, 2)]

/-- The results of a command that passed its checks are held until it retires (R205, R219, R222). -/
def State.holdCmd (s : State) (u p layer units : Nat) (cmd : UdCmd) (res : UdResult) : State :=
  let s := s.modUd u (fun d => Ud.addEv { d with
    ueChunks := satAdd d.ueChunks res.bad.length, rootKept := satAdd d.rootKept res.kept.length,
    statChunk := BitVec.ofNat 32 (units - 1),
    running := some { cmd with writes := res.writes, ue := !res.bad.isEmpty || !res.kept.isEmpty,
                               total := res.total, zeros := res.zeros } } res.ev)
  let s := res.bad.foldl (fun s e => s.udEvent u p 0x05 [(layer, 2), (e, 8)]) s
  res.kept.foldl (fun s k => s.udEvent u p 0x06 [(layer, 2), (k, 2)]) s

/-- Uncorrectable reads of the data of a command are recorded by the memory (R260). -/
def State.noteData (s : State) (rs : List (Nat × Nat)) : State := s.noteReadsOf rs 1

/-- Reading the command at the head of ring p: its bytes, and whether a granule read as uncorrectable. -/
def State.readCmd (s : State) (u p : Nat) : State × List Byte × Bool :=
  let a := ((s.udOf u).rings.getD p {}).entryAt
  (s.noteReads a 128 1, s.ms.bytes a 128, s.ms.badRange a 128)

/-- A command begins: UPDATE of its checks, and what stands in `running` until it retires. -/
def State.beginCmd (s : State) (u p cause : Nat) (b : List Byte) (sig : BitVec 32) : State :=
  let e := ((s.udOf u).rings.getD p {}).entry
  let sig := if bitB sig 9 && cause != 7 && !s.signalBad p sig then sig else 0
  let s := s.modUd u (fun d => { d with lastRing := p, statChunk := 0, running := some {
    part := p, entry := e, bytes := b, cause := cause, writes := [], signal := sig, ue := false, total := 0, zeros := 0,
    borrow := 0 } })
  if cause = 0 then s else s.failCmd u p cause e

/-- A command whose entry read as uncorrectable. -/
def State.beginBad (s : State) (u p : Nat) (b : List Byte) : State :=
  let a := ((s.udOf u).rings.getD p {}).entryAt
  let cause := s.badCause u p b (!s.ms.badRange a 64) (!s.ms.badRange (a + 64) 64)
  let sig := if s.ms.badRange (a + 64) 64 then Config.badSignal s.ms.freeNo else BitVec.ofNat 32 (leAt b 0x64 4)
  let s := s.modMs (fun m => { m with freeNo := m.freeNo + 1 })
  s.beginCmd u p cause b sig

/-- An UPDATE (R207, R217): checked, then run over its chunks or tiles. -/
def State.startUpdate (s : State) (u p : Nat) (b : List Byte) : State :=
  let c := UpdateCmd.of_ b
  let cause := s.checkUpdate u p b
  let prog := if s.udOk u p 64 c.prog progBytes then UdProg.reads s.ms c.prog else []
  let sched := if c.sched != 0 && s.udOk u p 64 c.sched 64 then [(c.sched, 64)] else []
  let s := s.noteData (prog ++ sched)
  let s := s.beginCmd u p cause b c.signal
  match cause, (s.udOf u).running with
  | 0, some cmd =>
    let prog := UdProg.of_ (s.ms.bytes c.prog progBytes)
    let sched := if c.sched = 0 then none else some (UdSched.of_ (s.ms.bytes c.sched 64))
    let decay := match sched with | some d => d.statDecay | none => Config.noScheduleDecay
    let x : UdCtx := { cmd := c, prog := prog, scalars := udScalars prog sched c.step,
                        satur := ((udFactors sched c.step).filter (·.2)).length, decay := f32val decay }
    let n := if c.block then ceilDiv (c.store prog.nreg) 131072 else 0
    let s := if n = 0 then s else s.modMs (fun m => (m.borrow (2 * u) n).borrow (2 * u + 1) n)
    let res := x.run s.ms
    let s := s.noteData res.reads
    s.holdCmd u p c.layer c.units.length { cmd with borrow := n } res
  | _, _ => s

/-- A ROOT (R219). -/
def State.startRoot (s : State) (u p : Nat) (b : List Byte) : State :=
  let c := RootCmd.of_ b
  let cause := s.checkRoot u p b
  let s := s.beginCmd u p cause b c.signal
  match cause, (s.udOf u).running with
  | 0, some cmd =>
    let res := c.run s.ms
    let s := s.noteData res.reads
    s.holdCmd u p c.layer c.nmat cmd res
  | _, _ => s

/-- The next command of Bullock u is taken when it is idle; `root` says which KIND the row starts. A KIND that is not
assigned, or cannot be read, starts as an UPDATE and fails (cause 0x01, or what State.badCause says). -/
def State.takeCmd (s : State) (u : Nat) (root : Bool) : State :=
  if s.stopped then s else
  match (s.udOf u).running, (s.udOf u).nextRing with
  | none, some p =>
    let (t, b, bad) := s.readCmd u p
    let kind := if s.ms.badRange ((s.udOf u).rings.getD p {}).entryAt 64 then 0 else leAt b 0 1
    if (kind == 2) != root then s
    else if bad then t.beginBad u p b
    else if kind = 2 then t.startRoot u p b
    else if kind = 1 then t.startUpdate u p b
    else t.beginCmd u p 1 b (BitVec.ofNat 32 (leAt b 0x64 4))
  | _, _ => s

/-! ## Quiet-layer monitor (R133, R134, R224) -/

def Ud.entry (d : Ud) (p layer : Nat) : QlmEntry := tabGet d.qlm (4096 * p + layer) {}
def Ud.setEntry (d : Ud) (p layer : Nat) (e : QlmEntry) : Ud :=
  { d with qlm := if e = {} then tabErase d.qlm (4096 * p + layer) else tabSet d.qlm (4096 * p + layer) e }

/-- The event message of R134, 64 bytes. -/
def quietMessage (u kind layer count bp total nz : Nat) (ft : BitVec 64) : List Byte :=
  leBytes 1 (0x10 + u) ++ leBytes 1 kind ++ leBytes 2 layer ++ leBytes 2 count ++ leBytes 2 bp ++ leBytes 8 total
    ++ leBytes 8 nz ++ leBytes 8 ft.toNat ++ List.replicate 32 0

/-- A quiet event (kind 1) or recovered event (kind 2) of a layer. -/
def State.quietEvent (s : State) (u p kind layer count bp total nz : Nat) : State :=
  let s := s.udEvent u p kind [(layer, 2), (count, 2), (bp, 2), (total, 8), (nz, 8)]
  let s := s.modUd u (fun d =>
    let e := d.entry p layer
    { d.setEntry p layer { e with events := satInc e.events } with
      lastLayer := BitVec.ofNat 12 layer, lastPart := BitVec.ofNat 3 p })
  let d := s.udOf u
  if d.qlmEvtEn then
    let pl := BitVec.ofNat 512 (leNat (quietMessage u kind layer count bp total nz s.now))
    let m : LocalMsg := { src := .ud u, core := p, queue := d.qlmDest.toNat, jobTag := (s.part p).jobTag, ft := s.now,
                          entries := [{ payload := pl, srcDev := s.dev, srcCore := 0, pos := 0, last := true }] }
    { s with locals := s.locals ++ [m] }
  else s

/-- The judgement of a layer with the totals since the last one (R133, R134). -/
def State.judge (s : State) (u p layer : Nat) : State :=
  let d := s.udOf u
  let e := d.entry p layer
  let clear : QlmEntry := { e with total := 0, zeros := 0 }
  if !d.qlmEn || !e.layerEn || e.total == 0 then s.modUd u (fun d => d.setEntry p layer clear)
  else
    let nz := e.total - e.zeros
    let bp := nz * 10000 / e.total
    let base : QlmEntry := { clear with lastBp := BitVec.ofNat 14 bp }
    if nz * 10000 < d.qlmThresh.toNat * e.total then
      let count := satInc e.count
      let rise := !e.quiet && decide (d.qlmSteps.toNat ≤ count.toNat)
      let again := e.quiet && decide (d.qlmSteps.toNat ≤ e.since + 1)
      let since := if rise || again || !e.quiet then 0 else e.since + 1
      let s := s.modUd u (fun d => d.setEntry p layer { base with count := count, quiet := e.quiet || rise, since := since })
      if rise || again then s.quietEvent u p 1 layer count.toNat bp e.total nz else s
    else
      let s := s.modUd u (fun d => d.setEntry p layer { base with count := 0, quiet := false, since := 0 })
      if e.quiet then s.quietEvent u p 2 layer e.count.toNat bp e.total nz else s

/-! ## Retirement (R205, R224) -/

/-- Writes of a Bullock: STREAM requests that ring no doorbell (R204, R235). -/
def State.udWrite (s : State) (a : Nat) (bs : List Byte) : State × Bool :=
  let r := s.ms.storeBytes s.now a bs 1
  (({ s with ms := r.1 }.logs r.2.2).dropPrefetch (linesOf a bs.length), r.2.1)

/-- The stores of a command, a granule at a time in ascending address (R271). -/
def State.udWrites (s : State) (ws : List (Nat × List Byte)) : State × Bool :=
  (granuleRuns ws).foldl (fun acc w => let r := acc.1.udWrite w.1 w.2; (r.1, acc.2 || r.2)) (s, false)

/-- Frames lent to Bullock u come back. -/
def State.giveBack (s : State) (u : Nat) : State :=
  s.modMs (fun m => (m.modDie (2 * u) (fun d => { d with borrowed := 0 })).modDie (2 * u + 1)
    (fun d => { d with borrowed := 0 }))

/-- The running command of Bullock u retires. -/
def State.retireCmd (s : State) (u : Nat) : State :=
  match (s.udOf u).running with
  | none => s
  | some c =>
    let w := s.udWrites c.writes
    let s := w.1
    let r := (s.udOf u).rings.getD c.part {}
    let s := s.modUd u (fun d => { d with
      rings := vmod d.rings c.part (fun r => { r with head := r.head + 1 }), running := none,
      done := if c.cause = 0 then satInc d.done else d.done })
    let s := (s.udWrite (r.base.toNat + 8) (leBytes 8 (r.head + 1).toNat)).1
    let s := if c.borrow = 0 then s else s.giveBack u
    let s := if bitB c.signal 9 then s.bumpCc (fldN c.signal 0 3) (fldN c.signal 3 6) (c.cause != 0 || c.ue || w.2) else s
    if c.cause = 0 ∧ leAt c.bytes 0 1 = 1 then
      let k := UpdateCmd.of_ c.bytes
      let s := s.modUd u (fun d =>
        let e := d.entry c.part k.layer
        d.setEntry c.part k.layer { e with total := e.total + c.total, zeros := e.zeros + c.zeros })
      if k.endl then s.judge u c.part k.layer else s
    else s

/-- Stores of a command that stopped at a granule boundary: every granule is written or not (R190). -/
def State.partialWrites (s : State) (ws : List (Nat × List Byte)) : State :=
  let n := s.free
  let cut := ws.flatMap (fun w => cutLines (w.2.length + 1) w.1 w.2)
  let s := (s.udWrites (cut.filter (fun w => Config.granuleDone n (w.1 / 64)))).1
  { s with free := n + 1 }

/-- Partition p is aborted, or the module reset: a running command of it stops; neither HEAD nor a signal is written (R223). -/
def State.dropCmd (s : State) (u p : Nat) : State :=
  match (s.udOf u).running with
  | some c =>
    if c.part = p then
      let s := (s.partialWrites c.writes).modUd u (fun d => { d with running := none })
      if c.borrow = 0 then s else s.giveBack u
    else s
  | none => s

/-! ## Register writes (R135, R225) -/

/-- UDn.QLM_CTRL written. -/
def Ud.writeQlmCtrl (d : Ud) (v : Reg) : Ud :=
  if fldN v 32 16 = 0 ∨ 10000 < fldN v 16 16 then { d with qlmBad := true }
  else { d with qlmEn := bitB v 0, qlmEvtEn := bitB v 1, qlmDest := fld v 4 4, qlmThresh := fld v 16 16,
                qlmSteps := fld v 32 16, qlmBad := d.qlmBad && !bitB v 48 }

/-- UDn.ARB written. -/
def Ud.writeArb (d : Ud) (v : Reg) : Ud :=
  if 16 < fldN v 0 5 ∨ 16 < fldN v 8 5 then { d with arbBad := true }
  else { d with shareP0 := fld v 0 5, shareP1 := fld v 8 5, arbBad := d.arbBad && !bitB v 16 }

/-! ## Rows -/

/-- QLM_CTRL_WRITE (R135). -/
def execQlmCtrlWrite (u : UdId) (v : Reg) (s : State) : Out := .next (s.modUd u (fun d => d.writeQlmCtrl v))

/-- ARB_WRITE (R202, R225). -/
def execArbWrite (u : UdId) (v : Reg) (s : State) : Out := .next (s.modUd u (fun d => d.writeArb v))

/-- DOORBELL_WRITE (R204): a requester's write of TAIL reaches the doorbell granule of ring p. -/
def execDoorbellWrite (u : UdId) (p : Fin 8) (tail : BitVec 64) (s : State) : Out :=
  if s.stopped then .next s else
  .next (s.homeWrite none ((s.udOf u).rings.getD p {}).base.toNat (leBytes 8 tail.toNat) 0).1

/-- UPDATE (R207, R221). -/
def execUpdate (u : UdId) (s : State) : Out := .next (s.takeCmd u false)

/-- ROOT (R219). -/
def execRoot (u : UdId) (s : State) : Out := .next (s.takeCmd u true)

/-- BULLOCK_RETIRE (R205). -/
def execBullockRetire (u : UdId) (s : State) : Out :=
  if s.stopped then .next s else .next (s.retireCmd u).settle

end Sys2Proof.Machine
end

