-- ==== Sys2Proof/Machine/EngRows.lean ====
section
/-! DEFINITION. Meanings of the ROW, ATT, GATH, MULE and MSG instructions, of their starts and of completion (R69 to R72).
Each command offers the instruction word that core c's sequencer fetches at its pc; the row's ENGINE and OPCODE stand in the
word, whatever the word held there. A core that cannot take a word keeps its state. -/

namespace Sys2Proof.Machine

/-- ROW_FWD: opcode 0x01 of engine 2 (R69, R150). -/
def execRowFwd (c : CoreId) (w : IWord) (s : State) : Out := .next (s.fetch c (Word128.withOp w 2 0x01))

/-- ROW_BWD: opcode 0x02 of engine 2 (R69, R156). -/
def execRowBwd (c : CoreId) (w : IWord) (s : State) : Out := .next (s.fetch c (Word128.withOp w 2 0x02))

/-- STAT_FREE: opcode 0x03 of engine 2 (R69, R157). -/
def execStatFree (c : CoreId) (w : IWord) (s : State) : Out := .next (s.fetch c (Word128.withOp w 2 0x03))

/-- ATT_FWD: opcode 0x01 of engine 3 (R69, R172). -/
def execAttFwd (c : CoreId) (w : IWord) (s : State) : Out := .next (s.fetch c (Word128.withOp w 3 0x01))

/-- ATT_BWD: opcode 0x02 of engine 3 (R69, R177). -/
def execAttBwd (c : CoreId) (w : IWord) (s : State) : Out := .next (s.fetch c (Word128.withOp w 3 0x02))

/-- APPEND: opcode 0x03 of engine 3 (R69, R168). -/
def execAppend (c : CoreId) (w : IWord) (s : State) : Out := .next (s.fetch c (Word128.withOp w 3 0x03))

/-- BUCKET: opcode 0x04 of engine 3 (R69, R182). -/
def execBucket (c : CoreId) (w : IWord) (s : State) : Out := .next (s.fetch c (Word128.withOp w 3 0x04))

/-- SLOT_SET: opcode 0x05 of engine 3 (R69, R165). -/
def execSlotSet (c : CoreId) (w : IWord) (s : State) : Out := .next (s.fetch c (Word128.withOp w 3 0x05))

/-- SLOT_CLR: opcode 0x06 of engine 3 (R69, R165). -/
def execSlotClr (c : CoreId) (w : IWord) (s : State) : Out := .next (s.fetch c (Word128.withOp w 3 0x06))

/-- GATHER: opcode 0x01 of engine 4 (R69, R245). -/
def execGather (c : CoreId) (w : IWord) (s : State) : Out := .next (s.fetch c (Word128.withOp w 4 0x01))

/-- WALK: opcode 0x02 of engine 4 (R69, R246). -/
def execWalk (c : CoreId) (w : IWord) (s : State) : Out := .next (s.fetch c (Word128.withOp w 4 0x02))

/-- COPY1: opcode 0x01 of engine 5 (R70, R232). -/
def execCopy1 (c : CoreId) (w : IWord) (s : State) : Out := .next (s.fetch c (Word128.withOp w 5 0x01))

/-- COPYD: opcode 0x02 of engine 5 (R71, R232). -/
def execCopyd (c : CoreId) (w : IWord) (s : State) : Out := .next (s.fetch c (Word128.withOp w 5 0x02))

/-- SEND: opcode 0x01 of engine 7 (R72, R37). -/
def execSend (c : CoreId) (w : IWord) (s : State) : Out := .next (s.fetch c (Word128.withOp w 7 0x01))

/-- RECV: opcode 0x02 of engine 7 (R72, R40). -/
def execRecv (c : CoreId) (w : IWord) (s : State) : Out := .next (s.fetch c (Word128.withOp w 7 0x02))

/-- MSG_FLUSH: opcode 0x03 of engine 7 (R72, R41). -/
def execMsgFlush (c : CoreId) (w : IWord) (s : State) : Out := .next (s.fetch c (Word128.withOp w 7 0x03))

/-- MARK: opcode 0x04 of engine 7 (R72, R42). -/
def execMark (c : CoreId) (w : IWord) (s : State) : Out := .next (s.fetch c (Word128.withOp w 7 0x04))

/-- REWIND: opcode 0x05 of engine 7 (R72, R42). -/
def execRewind (c : CoreId) (w : IWord) (s : State) : Out := .next (s.fetch c (Word128.withOp w 7 0x05))

/-- RELEASE: opcode 0x06 of engine 7 (R72, R42). -/
def execRelease (c : CoreId) (w : IWord) (s : State) : Out := .next (s.fetch c (Word128.withOp w 7 0x06))

/-- ROW_OP_START: the row engine starts its next operation (R152). -/
def execRowOpStart (c : CoreId) (s : State) : Out :=
  if s.stopped then .next s else .next (s.startRow c).settle

/-- ATT_OP_START: the attention pipeline starts its next instruction (R167). -/
def execAttOpStart (c : CoreId) (s : State) : Out :=
  if s.stopped then .next s else .next (s.startAtt c).settle

/-- MULE_COPY_START: Mule engine m takes its next copy (R232). -/
def execMuleCopyStart (c : CoreId) (m : Fin 4) (s : State) : Out :=
  if s.stopped then .next s else .next (s.startCopy c m).settle

/-- SEND_WAIT_LIMIT: a message held for 1 ms is sent as TRY would (R37). -/
def execSendWaitLimit (c : CoreId) (s : State) : Out :=
  if s.stopped then .next s else .next (s.sendHeld c).settle

/-- LOCAL_MESSAGE_ARRIVAL: the next n entries of a message reach queue q of core c (R32 to R36). -/
def execLocalMessageArrival (c : CoreId) (q : Fin 16) (n : Nat) (s : State) : Out :=
  if s.stopped then .next s else .next (s.arrive c q n).settle

/-- STATUS_TIMEOUT: no status of SEND `id` arrived within 1 ms (R39). -/
def execStatusTimeout (c : CoreId) (id : Nat) (s : State) : Out :=
  if s.stopped then .next s else .next (s.sendTimeout c id).settle

/-- The operation at the head of a unit starts, whatever its kind. -/
def State.startUnit (s : State) (c : Nat) (u : EngUnit) : State :=
  match u with
  | .ox =>
    let is (p : EngOp → Bool) : Bool := match s.headOf c .ox with
      | some q => REntry.opIs { q := q } p
      | none => false
    if is EngOp.isLdw then s.startLdw c else if is EngOp.isStream then s.startStream c else s.startWgrad c
  | .vec => s.startVec c
  | .row => s.startRow c
  | .att => s.startAtt c
  | .gath => s.startGath c
  | .m0 => s.startCopy c 0
  | .m1 => s.startCopy c 1
  | .m2 => s.startCopy c 2
  | .m3 => s.startCopy c 3
  | _ => s

/-- LAUNCH_TIME_REACHED: fabric time reaches the launch time of the operation held at the head of a unit, which starts
(R64, R76). -/
def execLaunchTimeReached (c : CoreId) (u : EngUnit) (s : State) : Out :=
  if s.stopped then .next s else
  match ((s.core c).eng u).queue with
  | q :: _ => match q.launch with
    | some t =>
      let s := s.modTime (fun x => { x with ft := if x.ft < t then t else x.ft })
      .next ((if q.op.isSome then s.startUnit c u else s).settle)
    | none => .next s
  | [] => .next s

/-- OPERATION_COMPLETE: the writes of the i-th running operation of a unit become visible; it signals and releases its
scoreboard entries (R54, R58). -/
def execOperationComplete (c : CoreId) (u : EngUnit) (i : Nat) (s : State) : Out := .next (s.completeAt c u i).settle

end Sys2Proof.Machine
end

