-- ==== Sys2Proof/Machine/TimeOps.lean ====
section
/-! DEFINITION. Fabric time as shared operations: the counter, its steps, the choice of an upstream, alignment, and where a
scheduled packet may leave (R318 to R321, R324, R328, R334). -/

namespace Sys2Proof.Machine

/-! ## The counter (R318) -/

/-- FT with its fraction, in units of 2^-16 ns. -/
def TimeBlk.ticks (t : TimeBlk) : Nat := t.ft.toNat * 65536 + t.frac.toNat

/-- A rate word limited to 100 ppm. -/
def clampPpb (r : Int) : Int := max (-100000) (min 100000 r)

/-- The frequency term learnt from successive pulses (R322). -/
def TimeBlk.term (t : TimeBlk) : Int := (Config.pulseTerm (t.pulseRates.map (BitVec.ofInt 32))).toInt

/-- The second for which the -e term of R322 counts is over. -/
def TimeBlk.endSlew (t : TimeBlk) : TimeBlk :=
  if t.slewing && decide (t.slewEnd ≤ t.ft) then { t with slewing := false, rateAdj := BitVec.ofInt 32 (clampPpb t.term) } else t

/-- One tick of the 1 GHz time clock; `sub` keeps what the 16 fraction bits do not hold. -/
def TimeBlk.tick (t : TimeBlk) : TimeBlk :=
  if 65536 ≤ t.hold then { t with hold := t.hold - 65536 }
  else
    let rate := clampPpb t.rateAdj.toInt
    let add := t.sub + 65536 * (1000000000 + rate).toNat
    let n := t.ticks + (add / 1000000000 - t.hold)
    { t with ft := BitVec.ofNat 64 (n / 65536), frac := BitVec.ofNat 16 n, sub := add % 1000000000, hold := 0 }.endSlew

/-- A step of FT by d x 2^-16 ns: forward at once, backward by holding FT. The last accepted edge and the end of a slew are
kept in the new time scale, so that the intervals of R322 and R323 stay those between pulses. -/
def TimeBlk.step (t : TimeBlk) (d : Int) : TimeBlk :=
  let by_ : BitVec 64 := BitVec.ofInt 64 (d / 65536)
  let t : TimeBlk := { t with steps := satInc t.steps, lastEdge := t.lastEdge + by_, slewEnd := t.slewEnd + by_ }
  if 0 ≤ d then
    let n := t.ticks + d.toNat
    { t with ft := BitVec.ofNat 64 (n / 65536), frac := BitVec.ofNat 16 n }
  else { t with hold := t.hold + (-d).toNat }

/-- FT brought to a later instant that a command names. -/
def State.atFt (s : State) (ft : BitVec 64) : State := if s.now < ft then s.modTime (fun t => { t with ft := ft, frac := 0 }.endSlew) else s

def meanOf (l : List Int) : Int := if l.isEmpty then 0 else (l.foldl (· + ·) 0).tdiv l.length

/-- Holdover: the rate word is frozen at HOLD_RATE (R324), within the limit of R318. -/
def TimeBlk.enterHoldover (t : TimeBlk) : TimeBlk :=
  { t with holdover := true, slewing := false, rateAdj := BitVec.ofInt 32 (clampPpb t.holdRate.toInt) }

/-! ## Sources and followers (R319 to R321) -/

/-- The lane could be followed: UP, its far end LOCKED or a source, DIST below 31; a pulse source follows only another source. -/
def State.candidate (s : State) (k : Nat) : Bool :=
  let l := s.lane k
  l.state == .up && l.far.seen && (l.far.locked || l.far.source) && decide (l.far.dist.toNat < 31)
    && (s.time.srcMode == 1 || l.far.sourceDev != s.dev)

/-- Candidate of lowest DIST, lowest trunk and lane first. -/
def State.bestCandidate (s : State) : Option Nat :=
  (List.range 64).foldl (fun best k =>
    if s.candidate k then
      match best with
      | none => some k
      | some b => if (s.lane k).far.dist.toNat < (s.lane b).far.dist.toNat then some k else best
    else best) none

/-- Lane of the upstream neighbour. -/
def TimeBlk.upIx (t : TimeBlk) : Nat := 8 * t.upTrunk.toNat + t.upLane.toNat

/-- The module follows somebody: SRC_MODE 1, or a pulse source whose pulse is missing. -/
def TimeBlk.mayFollow (t : TimeBlk) : Bool := t.srcMode == 1 || (t.srcMode == 0 && t.ppsMissing)

/-- What the upstream's last TIME packet makes of this module's DIST, source and time of day (R319, R325, R329). -/
def TimeBlk.copyUp (t : TimeBlk) (f : FarTime) : TimeBlk :=
  { t with dist := BitVec.ofNat 5 (min 31 (f.dist.toNat + 1)), sourceDev := f.sourceDev, todValid := f.todValid,
           todOffset := f.tod }

/-- The module follows lane k from now on; holdover ends. -/
def State.follow (s : State) (k : Nat) : State :=
  let f := (s.lane k).far
  s.modTime (fun t =>
    TimeBlk.copyUp { t with hasUp := true, upTrunk := BitVec.ofNat 3 (k / 8), upLane := BitVec.ofNat 3 k, roleSource := false,
                            holdover := false } f)

/-- A follower without a candidate: DIST 31, holdover. A pulse source stays the source, in holdover at the mean of its last
16 pulse intervals (R321, R324). -/
def State.followNone (s : State) : State :=
  if s.time.srcMode = 1 then
    s.modTime (fun t => ({ t with hasUp := false, dist := 31, sourceDev := 0x3FFF, locked := false } : TimeBlk).enterHoldover)
  else
    let d := s.dev
    s.modTime (fun t => ({ t with hasUp := false, dist := 0, sourceDev := d, locked := false, roleSource := true,
                                  holdRate := BitVec.ofInt 32 (meanOf t.pulseRates) } : TimeBlk).enterHoldover)

/-- The present upstream is kept: UP, and its DIST not above that of another candidate. -/
def State.keepsUp (s : State) : Bool :=
  let k := s.time.upIx
  let l := s.lane k
  s.time.hasUp && l.state == .up && decide (l.far.dist.toNat < 31)
    && (match s.bestCandidate with
      | some b => decide (l.far.dist.toNat ≤ (s.lane b).far.dist.toNat)
      | none => true)

def State.chooseUp (s : State) : State :=
  if !s.time.mayFollow then s
  else if s.keepsUp then s
  else match s.bestCandidate with
    | some k => s.follow k
    | none => if s.time.hasUp || !s.time.holdover then s.followNone else s

/-- The module acts as a source again: DIST 0, its own device as SOURCE_DEV. -/
def State.actAsSource (s : State) : State :=
  let d := s.dev
  s.modTime (fun t => { t with roleSource := true, hasUp := false, dist := 0, sourceDev := d, holdover := false, locked := false })

/-! ## Alignment (R328) -/

/-- ALIGNED as R328 gives it. The far end is ALIGNED when it reports LOCKED or ROLE_SOURCE. -/
def State.alignedNow (s : State) : Bool :=
  let t := s.time
  let f := (s.lane t.upIx).far
  if t.roleSource then true
  else if t.holdover then t.aligned
  else t.hasUp && t.locked && (f.locked || f.source) && decide (t.dist.toNat ≤ 30)

/-- ALIGNED set; a change is recorded. -/
def State.setAligned (s : State) (b : Bool) : State :=
  if s.time.aligned = b then s
  else (s.modTime (fun t => { t with aligned := b })).log
    { source := 0x03, code := 0x03, detail := [(b2n b, 1), (s.time.dist.toNat, 1)] }

/-- Upstream and ALIGNED brought up to date. -/
def State.retime (s : State) : State :=
  let s := s.chooseUp
  s.setAligned s.alignedNow

/-! ## Slots for scheduled packets (R332, R334, R335) -/

/-- The lane of trunk t that takes the packet first, within this ns; the lower one of two at the same instant (R334). -/
def State.schedLane (s : State) (t g size : Nat) : Option Nat :=
  let start (k : Nat) : Nat := max s.instant (s.lane k).busyUntil
  ((trunkLanes t).filter (fun k => s.laneTakes k g size)).foldl (fun best k =>
    match best with
    | none => some k
    | some b => if start k < start b then some k else some b) none

def State.schedLater (s : State) (t g size limit : Nat) : Bool := (trunkLanes t).any (fun k => s.laneLater k g size limit)

/-- Lane k carries tag g in some slot of the frame. -/
def TimeBlk.carries (tb : TimeBlk) (k g : Nat) : Bool :=
  tagFit g && tb.slots.any (fun e => e.1 / 8192 == k / 8 && decide (e.1 % 8192 ≤ tb.frameM1.toNat) && fldN e.2 (16 * (k % 8)) 16 == g)

end Sys2Proof.Machine
end

