-- ==== Sys2Proof/Machine/FabricLink.lean ====
section
/-! DEFINITION. Lanes of the light fabric: light-source units, bring-up, hellos, coordinates, LISTEN, loss and return of a
trunk with its notices, and the registers FMAP, INJ and LANE_CTRL (R287 to R298, R306, R313 to R315). -/

namespace Sys2Proof.Machine

/-! ## Loss and return of a trunk (R306, R313) -/

/-- Link name in the layout of ADDR: device, trunk. -/
def linkWord (dev : DevId) (t : Nat) : Nat := dev.toNat + 16384 * t

/-- The next notice of the head of the notice queue, while the module may send requests. -/
def State.pumpNotice : Nat → State → State
  | 0, s => s
  | n + 1, s =>
    match s.fab.noticeQ with
    | [] => s
    | (link, loss, d) :: rest =>
      if 12288 ≤ d then State.pumpNotice n (s.modFab (fun f => { f with noticeQ := rest }))
      else
        let s' := s.modFab (fun f => { f with noticeQ := (link, loss, d + 1) :: rest })
        if !s.fab.inSizes d || d == s.dev.toNat then State.pumpNotice n s'
        else if s.outstanding < 8192 then
          let p : PacketFields :=
            { ty := 0x8, dst := BitVec.ofNat 14 d, src := s.dev, payload := slice (leBytes 4 link ++ [BitVec.ofNat 8 (b2n loss)]) 0 64 }
          State.pumpNotice n ((s'.modFab (fun f => { f with noticesSent := satInc f.noticesSent })).newReq p .notice none)
        else s

def State.pumpNotices (s : State) : State := if s.fab.noticeQ.isEmpty then s else State.pumpNotice 40000 s

/-- A packet that a trunk without an UP lane cannot take (R306): discarded and counted; its source is told. -/
def State.unreachHere (s : State) (p : Packet) (t : Nat) : State :=
  (s.modFab (fun f => { f with unreach := satInc f.unreach })).sendUnreach p t

/-- Packets that waited for a lost trunk: this module's own requests are resent, the others answered with UNREACH. -/
def State.flushTrunk (s : State) (t : Nat) : State :=
  let mine := s.fab.waiting.filter (fun w => w.trunk == t)
  let s := s.modFab (fun f => { f with waiting := f.waiting.filter (fun w => w.trunk != t) })
  mine.foldl (fun s w =>
    let s := s.returnCredits w.inLane w.pkt
    if w.pkt.srcDev = s.dev then
      let s := s.modFab (fun f => { f with unreach := satInc f.unreach }.enterLink s.dev t 1)
      match s.fab.out.find? (fun r => r.xid == w.pkt.xid && w.pkt.isRequest) with
      | some r => s.resend r
      | none => s
    else s.unreachHere w.pkt t) s

/-- The last lane of trunk t is gone: recorded, announced to every module, its waiting packets handled. -/
def State.trunkLost (s : State) (t : Nat) : State :=
  let s := s.modFab (fun f => { f with downEvt := setBit f.downEvt t })
  let s :=
    if s.fab.coordValid then
      s.modFab (fun f =>
        { f.enterLink s.dev t 0 with noticeQ := f.noticeQ ++ [(linkWord s.dev t, true, 0)], lossNoticed := setBit f.lossNoticed t })
    else s
  (s.flushTrunk t).pumpNotices

/-- A lane of trunk t is UP again: a loss that was announced is taken back, and what waits is offered to it. -/
def State.trunkBack (s : State) (t : Nat) : State :=
  let s :=
    if s.fab.lossNoticed.getLsbD t then
      s.modFab (fun f =>
        { f.removeLink s.dev t with noticeQ := f.noticeQ ++ [(linkWord s.dev t, false, 0)], lossNoticed := clrBit f.lossNoticed t })
    else s
  (s.pumpTrunk t).pumpNotices

/-! ## Lane states (R294, R295) -/

def LaneState.code : LaneState → Nat
  | .off => 0 | .train => 1 | .hello => 2 | .up => 3 | .listen => 4 | .miswired => 5 | .failed => 6

/-- A lane whose packets count on it: UP, or LISTEN, which wakes for them (R296). -/
def LaneState.carries : LaneState → Bool
  | .up | .listen => true
  | _ => false

/-- A lane that sends and receives lane frames of its full width. -/
def LaneState.locked : LaneState → Bool
  | .hello | .up | .miswired => true
  | _ => false

/-- Wavelengths transmitted in a state (R294): hellos go on the wavelengths received well, as far as this end knows those
that locked in both directions (R295). -/
def Lane.lightOf (l : Lane) : LaneState → BitVec 8
  | .off | .failed => 0
  | .listen => 1
  | .train => 0xFF
  | .hello | .miswired => l.rxMask
  | .up => l.farMask

/-- A lane goes to a state other than UP and LISTEN: what was under way on it is dropped. -/
def Lane.leave (l : Lane) (next : LaneState) : Lane :=
  { l with state := next, txMask := l.lightOf next, retry := [], txCarry := [], rxSync := false, rxRaw := [], rxBytes := [],
           cut := none, cutFrom := none, busyUntil := 0, badFrames := [], reorder := [], timeDue := false, marks := [],
           nak := false, wakeTx := false, helloDue := false, helloOk := false, far := { l.far with seen := false },
           replayed := none, crSeen := Vector.replicate 4 0, crTotal := Vector.replicate 4 0,
           misCause := if next = .miswired then l.misCause else 0 }

/-- The packet being received on lane k, of which the bytes `bs` have come, ends unfinished on lane j: they and an ABORT
block are what the next hop gets (R293). A best-effort packet has taken its credits there. -/
def State.abortOn (s : State) (k j : Nat) (bs : List Byte) : State :=
  let p := (Packet.ofBytes bs).hopped
  let s := s.modLane k (fun l => { l with cut := none })
  if (s.lane j).state != .up || (s.lane j).cutFrom != some k then s
  else
    let q := if p.cls then p else p.withVc (s.fab.vcFor s.dev.toNat p)
    (s.modLane j (fun l =>
      { l with cutFrom := none, aborts := l.aborts + 1,
               credits := if p.cls then l.credits else vmod l.credits q.pool (fun c => c - q.credits) }.emit
        (q.header ++ bs.drop 32 ++ abortBlock))).pumpTrunk (j / 8)

/-- Packets that are forwarded from lane k, or onto it, as it leaves UP (R293, R313). -/
def State.cutOff (s : State) (k : Nat) : State :=
  let l := s.lane k
  let s := match l.cutFrom with
    | some i => s.modLane i (fun x => { x with cut := some .lost })
    | none => s
  match l.cut with
  | some (.onto j) => s.abortOn k j l.rxBytes
  | _ => s

/-- Lane k leaves for a state other than UP and LISTEN. -/
def State.laneDown (s : State) (k : Nat) (next : LaneState) : State :=
  let was := (s.lane k).state.carries
  let s := (s.cutOff k).modLane k (fun l => l.leave next)
  let t := k / 8
  let s := if was && !(s.trunkUp t || s.trunkListens t) then s.trunkLost t else s
  if was then s.retime else s

def State.countRetrain (s : State) (k : Nat) : State := s.modLane k (fun l => { l with retrains := satInc l.retrains })

/-- The lane may carry light: its dimension has more than one module, it is enabled and its light source is ready. -/
def State.laneUsable (s : State) (k : Nat) : Bool :=
  decide (1 < s.fab.size (k / 16)) && !(s.lane k).disable && s.fab.lsuOk.getLsbD (k / 16)

/-- Step 1 of a bring-up, or OFF. -/
def State.startTrain (s : State) (k : Nat) : State :=
  s.laneDown k (if s.laneUsable k then .train else .off)

/-- A retrain from step 1 of R295. -/
def State.retrainLane (s : State) (k : Nat) : State := (s.countRetrain k).startTrain k

/-! ## Hellos (R297, R298) -/

def State.restrictedHere (s : State) : Bool := s.rst.restricted != 0

def State.helloPayload (s : State) (k : Nat) : List Byte :=
  let f := s.fab
  let co (d : Nat) : Byte := if f.coordValid then f.coord.getD d 0 else 0
  let flags := b2n f.coordValid + 2 * b2n (f.coordMode == 1) + 4 * b2n s.restrictedHere + 8 * b2n s.anyJob
  leBytes 4 f.systemId.toNat ++ leBytes 2 s.dev.toNat ++ [BitVec.ofNat 8 (k / 8), BitVec.ofNat 8 (k % 8)]
    ++ [co 0, co 1, co 2, co 3] ++ (List.range 4).map (fun d => f.sizes.getD d 0)
    ++ [BitVec.ofNat 8 flags, (s.lane k).rxMask] ++ leBytes 2 s.rst.stIflevel.toNat ++ List.replicate 44 0

/-- A hello leaves on lane k. -/
def State.sendHello (s : State) (k : Nat) : State :=
  let p := PacketFields.build { ty := 0xB, dst := 0x3FFF, src := s.dev, payload := s.helloPayload k }
  (s.occupy k s.instant p.size).modLane k (fun l => { l with hellos := l.hellos + 1 }.transmit { pkt := p })

/-- The set of good wavelengths of lane k changed: it retrains from step 4, which exchanges hellos again (R294, R295). -/
def State.relock (s : State) (k : Nat) : State := ((s.countRetrain k).laneDown k .hello).sendHello k

/-- A hello is due on a lane in LISTEN: it wakes for it (R296, R297). -/
def State.dueHello (s : State) (k : Nat) : State := s.modLane k (fun l => { l with helloDue := true, wakeTx := true })

/-- Wavelengths of lane k are no longer received well; `los` says that a signal was lost, without which MISWIRED persists
(R294). -/
def State.wavesLost (s : State) (k : Nat) (los : Bool) : State :=
  let enough := decide (4 ≤ popcount (s.lane k).rxMask)
  match (s.lane k).state with
  | .up => if enough then s.relock k else s.retrainLane k
  | .hello => if enough then s.sendHello k else s.retrainLane k
  | .miswired => if los then s.retrainLane k else s.sendHello k
  | .listen => if (s.lane k).rxMask.getLsbD 0 then s.dueHello k else s.retrainLane k
  | _ => s

/-- A field of the hello changed: every lane that exchanges hellos sends one, a lane in LISTEN once it has woken. -/
def State.helloAll (s : State) : State :=
  (List.range 64).foldl (fun s k =>
    match (s.lane k).state with
    | .hello | .up | .miswired => s.sendHello k
    | .listen => s.dueHello k
    | _ => s) s

/-- A lane that passed its checks and is not held by RESTRICTED comes UP with full credits (R295, R307). -/
def State.laneUp (s : State) (k : Nat) : State :=
  let s := s.modLane k (fun l =>
    { l with state := .up, txMask := l.farMask, credits := #v[1536, 512, 1536, 512], crSeen := Vector.replicate 4 0,
             crTotal := Vector.replicate 4 0, misCause := 0 })
  (s.trunkBack (k / 8)).retime

/-- A LISTEN lane returns to UP, and sends the hello that is due on it (R296, R297). -/
def State.wakeLane (s : State) (k : Nat) : State :=
  let l := s.lane k
  if l.state = .listen then
    let s := s.modLane k (fun l => { l with state := .up, txMask := l.farMask, wakeTx := false, helloDue := false })
    (if l.helloDue then s.sendHello k else s).pumpTrunk (k / 8)
  else s

/-- Every LISTEN lane returns to UP: a job is loaded. -/
def State.wakeAll (s : State) : State := (List.range 64).foldl State.wakeLane s

/-- A hello as fields. -/
structure Hello where
  systemId : Nat
  dev : Nat
  trunk : Nat
  lane : Nat
  coord : List Nat
  sizes : List Nat
  flags : Byte
  rxMask : Byte
  iflevel : Nat
  deriving DecidableEq, Repr

def Hello.of (p : List Byte) : Hello :=
  { systemId := leAt p 0 4, dev := leAt p 4 2, trunk := leAt p 6 1, lane := leAt p 7 1,
    coord := (slice p 8 4).map (·.toNat), sizes := (slice p 0xC 4).map (·.toNat),
    flags := p.getD 0x10 0, rxMask := p.getD 0x11 0, iflevel := leAt p 0x12 2 }

/-- The far coordinate in the trunk's dimension is one step away in its direction, the others equal. -/
def neighbourOk (own far : List Nat) (sizes : List Nat) (t : Nat) : Bool :=
  (List.range 4).all (fun d =>
    let a := own.getD d 0
    let b := far.getD d 0
    if d = t / 2 then b == stepCoord (sizes.getD d 1) a (t % 2 == 1) else a == b)

def State.ownCoord (s : State) : List Nat := (List.range 4).map (fun d => (s.fab.coord.getD d 0).toNat)

/-- First check of R297 that a hello fails on lane k; 0 when it passes. -/
def State.helloCause (s : State) (k : Nat) (h : Hello) : Nat :=
  let t := k / 8
  let sizes := (List.range 4).map s.fab.size
  if h.systemId ≠ s.fab.systemId.toNat then 1
  else if h.trunk ≠ t ^^^ 1 then 2
  else if h.lane ≠ k % 8 then 3
  else if h.sizes ≠ sizes then 4
  else if s.fab.coordValid && h.flags.getLsbD 0 && !neighbourOk s.ownCoord h.coord sizes t then 5
  else 0

/-- Coordinates derived from a hello on trunk t: the neighbour's minus the step (R298). -/
def FabBlk.derive (f : FabBlk) (t : Nat) (h : Hello) : FabBlk :=
  let c := (List.range 4).foldl (fun v d =>
    let x := h.coord.getD d 0
    v.setIfInBounds d (BitVec.ofNat 8 (if d = t / 2 then stepCoord (f.size d) x (t % 2 == 0) else x))) f.coord
  { f with coord := c, coordValid := true }

/-- A source reports its own device (R319). -/
def State.ownSource (s : State) : State :=
  let d := s.dev
  s.modTime (fun t => if t.roleSource then { t with sourceDev := d } else t)

/-- What a hello whose checks passed makes of lane k (R294 to R297). -/
def State.helloPassed (s : State) (k : Nat) (h : Hello) : State :=
  if popcount h.rxMask < 4 then (s.countRetrain k).laneDown k .failed
  else
    let changed := (s.lane k).state = .up ∧ (h.rxMask ≠ (s.lane k).txMask ∨ h.flags.getLsbD 2 = true)
    let s := if changed then s.relock k else s
    let s := s.modLane k (fun l =>
      { l with farMask := h.rxMask, farDev := BitVec.ofNat 14 h.dev, farRestricted := h.flags.getLsbD 2,
               farJob := h.flags.getLsbD 3, helloOk := true,
               txMask := if l.state = .hello then h.rxMask else l.txMask })
    if h.flags.getLsbD 3 then s.wakeLane k else s

/-- A hello received on lane k. The first that passes checks 1 to 4 with COORD_VALID gives a module in mode 2 its
coordinates, whatever becomes of the lane; one that fails under cause 5 is a conflict on every lane (R298). Every hello with
another IFLEVEL counts (R316). A lane in MISWIRED stays so. -/
def State.helloIn (s : State) (k : Nat) (payload : List Byte) : State :=
  let h := Hello.of payload
  let st := (s.lane k).state
  let cause := s.helloCause k h
  if !st.locked && st != .listen then s
  else
    let derives := decide (s.fab.coordMode = 2) && !s.fab.coordValid && h.flags.getLsbD 0 && cause == 0
    let s := if h.iflevel ≠ s.rst.stIflevel.toNat then s.modFab (fun f => { f with iflDiff := satInc f.iflDiff }) else s
    let s := if derives then ((s.modFab (fun f => f.derive (k / 8) h)).ownSource).helloAll else s
    let s := if cause = 5 ∧ s.fab.coordMode = 2 then s.modFab (fun f => { f with conflict := true }) else s
    if st = .miswired then s
    else if cause ≠ 0 then
      let s := (s.modLane k (fun l => { l with misCause := BitVec.ofNat 4 cause })).laneDown k .miswired
      s.log { source := 0x04, code := 0x01, detail := [(k / 8, 1), (k % 8, 1), (cause, 1)] }
    else s.helloPassed k h

/-! ## Registers -/

/-- FAB.LANE_CTRL written (R294, R316). -/
def State.writeLaneCtrl (s : State) (k : Nat) (v : Reg) : State :=
  let was := (s.lane k).disable
  let s := s.modLane k (fun l => { l with disable := bitB v 0, listenEn := bitB v 1 })
  if bitB v 0 then s.laneDown k .off
  else if bitB v 2 then s.retrainLane k
  else if was then s.startTrain k
  else s

/-- FAB.FMAP entry i written (R306). -/
def FabBlk.writeFmap (f : FabBlk) (i : Nat) (v : Reg) : FabBlk :=
  if bitB v 31 then
    match f.fmapIndexOf (fld v 0 14) (fldN v 14 3) with
    | some j => if j = i then { f with fmap := tabSet f.fmap i ⟨fld v 0 14, fld v 14 3, 2⟩ } else f
    | none => { f with fmap := tabSet f.fmap i ⟨fld v 0 14, fld v 14 3, 2⟩ }
  else { f with fmap := tabErase f.fmap i }

/-- The Goose record of a lane's injection rates (R315). -/
def injEvent (k : Nat) (l : Lane) : GEvent :=
  { source := 0x04, code := 0x02, detail := [(k, 1), (l.injDrop.toNat, 4), (l.injCorrupt.toNat, 4), (l.injReorder.toNat, 4)] }

def Lane.injects (l : Lane) : Bool := l.injDrop != 0 || l.injCorrupt != 0 || l.injReorder != 0

/-- FAB.INJ_CTRL written (R315). -/
def State.writeInjCtrl (s : State) (v : Reg) : State :=
  if !s.fab.permit then s.modFab (fun f => { f with injBad := true })
  else
    let was := s.fab.injEn
    let s := s.modFab (fun f => { f with injEn := bitB v 0, injBad := f.injBad && !bitB v 2 })
    if bitB v 0 && !was then
      let s := s.modSec (fun x => { x with injUsed := true })
      let s := (List.range 64).foldl (fun s k => s.modLane k (fun l => { l with injCount := 0 })) s
      let ks := (List.range 64).filter (fun k => (s.lane k).injects)
      if ks.isEmpty then s.log (injEvent 0xFF {}) else s.logs (ks.map (fun k => injEvent k (s.lane k)))
    else s

/-- FAB.INJ_SEED written (R315). -/
def State.writeInjSeed (s : State) (v : Reg) : State :=
  s.modFab (fun f => if f.permit then { f with injSeed := v } else { f with injBad := true })

/-- FAB.LANE_INJ written (R315). -/
def State.writeLaneInj (s : State) (k : Nat) (v : Reg) : State :=
  if !s.fab.permit then s.modFab (fun f => { f with injBad := true })
  else
    let old := s.lane k
    let s := s.modLane k (fun l =>
      { l with injDrop := fld v 0 20, injCorrupt := fld v 20 20, injReorder := fld v 40 20, corruptKind := bitB v 60 })
    let new := s.lane k
    if old.injDrop ≠ new.injDrop ∨ old.injCorrupt ≠ new.injCorrupt ∨ old.injReorder ≠ new.injReorder
      then s.log (injEvent k new) else s

/-! ## Rows -/

/-- FMAP_WRITE (R306). -/
def execFmapWrite (i : Fin 64) (v : Reg) (s : State) : Out := .next (s.modFab (fun f => f.writeFmap i.val v))

/-- RETRAIN (R294): a write to FAB.LANE_CTRL. -/
def execRetrain (k : LaneId) (v : Reg) (s : State) : Out := .next ((s.writeLaneCtrl k.val v).settle)

/-- INJ_CTRL_WRITE (R315). -/
def execInjCtrlWrite (v : Reg) (s : State) : Out := .next (s.writeInjCtrl v)

/-- INJ_SEED_WRITE (R315). -/
def execInjSeedWrite (v : Reg) (s : State) : Out := .next (s.writeInjSeed v)

/-- LANE_INJ_WRITE (R315). -/
def execLaneInjWrite (k : LaneId) (v : Reg) (s : State) : Out := .next (s.writeLaneInj k.val v)

/-- Lanes of the trunks of light-source unit u. -/
def lsuLanes (u : Nat) : List Nat := (List.range 16).map (· + 16 * u)

/-- The light-source units that are fitted and ready show again and their lanes start bring-up: the end of a reset (R295). -/
def State.lightUp (s : State) : State :=
  let s := s.modFab (fun f => { f with lsuOk := f.lsuLit, lsuPresent := f.lsuFitted })
  (List.range 64).foldl (fun s k => if s.laneUsable k then s.startTrain k else s) s

/-- LSU_FAULT (R289): unit u faults, or is removed. -/
def execLsuFault (u : Fin 4) (removed : Bool) (s : State) : Out :=
  let s := s.modFab (fun f =>
    { f with lsuOk := clrBit f.lsuOk u.val, lsuPresent := if removed then clrBit f.lsuPresent u.val else f.lsuPresent,
             lsuLit := clrBit f.lsuLit u.val, lsuFitted := if removed then clrBit f.lsuFitted u.val else f.lsuFitted })
  .next ((lsuLanes u.val).foldl (fun s k => s.laneDown k .off) s).settle

/-- LSU_READY (R289). -/
def execLsuReady (u : Fin 4) (s : State) : Out :=
  let s := s.modFab (fun f =>
    { f with lsuOk := setBit f.lsuOk u.val, lsuPresent := setBit f.lsuPresent u.val, lsuLit := setBit f.lsuLit u.val,
             lsuFitted := setBit f.lsuFitted u.val })
  .next ((lsuLanes u.val).foldl (fun s k => if (s.lane k).state = .off ∧ s.stopped = false then s.startTrain k else s) s)

/-- LANE_BRING_UP (R295): the next step of lane k is reached: frame lock with the wavelengths received well, or UP, each with
at least 4 wavelengths (R291, R317). A lane that is UP and receives another set well locks again (R294). -/
def execLaneBringUp (k : LaneId) (mask : BitVec 8) (s : State) : Out :=
  if s.stopped then .next s else
  let l := s.lane k.val
  match l.state with
  | .train =>
    if popcount mask < 4 then .next s
    else .next ((s.modLane k.val (fun l =>
      { l with state := .hello, rxMask := mask, txMask := mask, helloOk := false, txSeq := 0, rxSync := false,
               rxSeq := 0xFFFF, crSeen := Vector.replicate 4 0, crTotal := Vector.replicate 4 0 })).sendHello k.val)
  | .up =>
    if mask = l.rxMask then .next s
    else .next (((s.modLane k.val (fun l => { l with rxMask := mask })).wavesLost k.val false).settle)
  | .hello =>
    if l.helloOk && decide (4 ≤ popcount l.rxMask) && !l.farRestricted && !s.restrictedHere then .next ((s.laneUp k.val).pumpCopies.settle) else .next s
  | _ => .next s

/-- BRING_UP_TIMEOUT (R295); a lane that RESTRICTED holds stays in HELLO (R297). -/
def execBringUpTimeout (k : LaneId) (s : State) : Out :=
  if s.stopped then .next s else
  let l := s.lane k.val
  let held := l.helloOk && (l.farRestricted || s.restrictedHere)
  if l.state = .train ∨ (l.state = .hello ∧ held = false) then .next ((s.countRetrain k.val).laneDown k.val .failed) else .next s

/-- LANE_RETRY_TIMER (R294). -/
def execLaneRetryTimer (k : LaneId) (s : State) : Out :=
  if s.stopped then .next s else
  if (s.lane k.val).state = .failed then .next (s.startTrain k.val) else .next s

/-- LOSS_OF_SIGNAL (R294): wavelength w of lane k loses its signal; one that was not received well is only counted. -/
def execLossOfSignal (k : LaneId) (w : Fin 8) (s : State) : Out :=
  if s.stopped then .next s else
  let had := (s.lane k.val).rxMask.getLsbD w.val
  let s := s.modLane k.val (fun l => { l with los := satInc l.los, rxMask := clrBit l.rxMask w.val })
  .next (if had then (s.wavesLost k.val true).settle else s)

/-- LANE_WIDTH_LOSS (R294). -/
def execLaneWidthLoss (k : LaneId) (s : State) : Out :=
  if s.stopped then .next s else
  if (s.lane k.val).state = .up then .next ((s.retrainLane k.val).settle) else .next s

/-- LISTEN_ENTRY (R296, R325): not while a job is loaded at either end, nor on a lane that either end follows. -/
def execListenEntry (k : LaneId) (s : State) : Out :=
  if s.stopped then .next s else
  let l := s.lane k.val
  let busy := s.fab.waiting.any (fun w => w.trunk == k.val / 8)
  if l.state = .up ∧ l.listenEn = true ∧ s.anyJob = false ∧ l.farJob = false ∧ busy = false
      ∧ ¬ (s.time.hasUp = true ∧ s.time.upIx = k.val) ∧ l.far.upstream = false then
    .next (s.modLane k.val (fun l => { l with state := .listen, txMask := 1 }))
  else .next s

/-- LISTEN_WAKE (R296). -/
def execListenWake (k : LaneId) (s : State) : Out :=
  if s.stopped then .next s else .next ((s.wakeLane k.val).settle)

/-- HELLO_RECEIVED (R297, R298). -/
def execHelloReceived (k : LaneId) (payload : List Byte) (s : State) : Out :=
  if s.stopped then .next s else .next ((s.helloIn k.val payload).settle)

/-- HELLO_TIMER (R297, R298): the periodic hello of every lane in HELLO while deriving coordinates or restricted. -/
def execHelloTimer (s : State) : Out :=
  if s.stopped then .next s else
  let deriving_ := s.fab.coordMode == 2 && !s.fab.coordValid
  .next ((List.range 64).foldl (fun s k =>
    if (s.lane k).state == .hello && (deriving_ || s.restrictedHere || (s.lane k).farRestricted) then s.sendHello k else s) s)

end Sys2Proof.Machine
end

