-- ==== Sys2Proof/Machine/Time.lean ====
section
/-! DEFINITION. Fabric time as commands: TIME packets and the follower servo, the pulse, holdover, slot-table writes and
the sending of scheduled packets (R319 to R341). -/

namespace Sys2Proof.Machine

/-! ## TIME packets (R325) -/

/-- Device ID of the neighbour on trunk t. -/
def FabBlk.neighbour (f : FabBlk) (t : Nat) : DevId :=
  let co (d : Nat) : Nat := let c := (f.coord.getD d 0).toNat; if d = t / 2 then stepCoord (f.size d) c (t % 2 == 1) else c
  BitVec.ofNat 14 (devOf (co 0) (co 1) (co 2) (co 3))

/-- Payload of the TIME packet of sequence number `seq` on a lane. -/
def TimeBlk.packet (t : TimeBlk) (l : Lane) (seq : BitVec 16) (up : Bool) : List Byte :=
  let flags := b2n t.locked + 2 * b2n t.roleSource + 4 * b2n t.todValid + 8 * b2n up
  leBytes 8 t.ft.toNat ++ leBytes 2 t.frac.toNat ++ leBytes 2 seq.toNat ++ leBytes 2 l.far.seq.toNat
    ++ leBytes 2 l.far.rxFrac.toNat ++ leBytes 8 l.far.rxFt.toNat ++ leBytes 2 t.sourceDev.toNat
    ++ [BitVec.ofNat 8 t.dist.toNat, BitVec.ofNat 8 flags] ++ leBytes 4 0 ++ leBytes 8 t.todOffset.toNat ++ List.replicate 24 0

/-- The TIME packet due on lane k leaves when the lane is UP, is in a slot of tag 0 and has the credits; until then it waits. -/
def State.sendTime (s : State) (k : Nat) : State :=
  let l := s.lane k
  let t := k / 8
  let seq := l.timeSeq + 1
  let up := s.time.hasUp && s.time.upIx == k
  let f : PacketFields := { ty := 0xA, dst := s.fab.neighbour t, src := s.dev, payload := s.time.packet l seq up }
  let p := (f.build.withDir (BitVec.ofNat 4 ((t % 2) * 2 ^ (t / 2)))).withExpiry s.now
  let p := p.withVc (s.fab.vcFor s.dev.toNat p)
  if l.timeDue && l.state == .up && l.freeAt s.instant && s.fab.coordValid && decide (p.credits ≤ l.credits.getD p.pool 0)
      && s.laneOpen k p then
    let m : TimeMark := ⟨seq, s.time.ft, s.time.frac⟩
    (s.laneSend k p .bestEffort (some s.instant)).modLane k (fun l =>
      { l with timeSeq := seq, timeDue := false, marks := m :: l.marks.filter (fun x => decide ((m.ft - x.ft).toNat ≤ 500000)) })
  else s

/-- TIME packets that are due leave as their lanes come to a slot of tag 0 (R325). -/
def State.timeTick (s : State) : State :=
  (List.range 64).foldl (fun s k => if (s.lane k).timeDue then s.sendTime k else s) s

/-- Every 12.8 ns a lane frame leaves on each lane that sends frames; with nothing to send it holds IDLE blocks (R291, R293). -/
def State.frameTick (s : State) : State :=
  let s := s.modFab (fun f => { f with framePhase := f.framePhase + 5 })
  if s.fab.framePhase < 64 then s
  else
    let s := s.modFab (fun f => { f with framePhase := f.framePhase - 64 })
    (List.range 64).foldl (fun s k =>
      if (s.lane k).state.locked then s.modLane k (fun l => l.emit idleBlock)
      else if (s.lane k).state = .listen then s.modLane k Lane.emitListen
      else s) s

/-- Packets that wait leave as their lanes come free or to a slot that allows them: those held for reordering whose hold is
over first, then those of each trunk (R304, R332, R339). -/
def State.waitTick (s : State) : State :=
  let s := (List.range 64).foldl (fun s k =>
    if (s.lane k).reorder.any (·.due) then s.releaseHeld k (fun h => h.due) else s) s
  (List.range 8).foldl (fun s t => if s.fab.waiting.any (fun w => w.trunk == t) && s.trunkUp t then s.pumpTrunk t else s) s

/-! ## The servo (R326) -/

/-- The lane's own packet that an ECHO_SEQ names, when it is at most 500 µs old. -/
def Lane.markOf (l : Lane) (seq : Nat) (now : BitVec 64) : Option TimeMark :=
  l.marks.find? (fun m => m.seq.toNat == seq && decide ((now - m.ft).toNat ≤ 500000))

/-- A 64.16 instant in units of 2^-16 ns. -/
def at16 (ft : BitVec 64) (frac : BitVec 16) : Int := ft.toInt * 65536 + frac.toNat

/-- The servo at offset o, in units of 2^-16 ns. -/
def TimeBlk.servo (t : TimeBlk) (o : Int) : TimeBlk :=
  let t : TimeBlk :=
    if o.natAbs ≥ 1000 * 65536 then { t.step (-o) with integ := 0, good := 0 }
    else
      let integ := clampPpb (t.integ + (o * 125).tdiv 65536)
      let out := -(clampPpb ((o * 1000).tdiv 65536 + integ))
      let outs := (out :: t.servoOut).take 64
      { t with integ := integ, rateAdj := BitVec.ofInt 32 out, servoOut := outs, holdRate := BitVec.ofInt 32 (meanOf outs),
               good := if o.natAbs ≤ 65536 then t.good + 1 else 0 }
  { t with locked := decide (8 ≤ t.good), holdover := false }

/-- A TIME packet received on lane k, whose timing mark arrived at the FT and fraction `mk`: what the far end reports, the
measurement of the link and, on the upstream lane, the servo (R325, R326). -/
def State.timeIn (s : State) (k : Nat) (p : List Byte) (mk : BitVec 64 × BitVec 16) : State :=
  let l := s.lane k
  let t := s.time
  let flags : Byte := p.getD 0x1B 0
  let far : FarTime :=
    { seen := true, seq := BitVec.ofNat 16 (leAt p 0xA 2), rxFt := mk.1, rxFrac := mk.2,
      sourceDev := BitVec.ofNat 14 (leAt p 0x18 2), dist := p.getD 0x1A 0, locked := flags.getLsbD 0,
      source := flags.getLsbD 1, todValid := flags.getLsbD 2, tod := BitVec.ofNat 64 (leAt p 0x20 8),
      upstream := flags.getLsbD 3 }
  let mark := l.markOf (leAt p 0xC 2) t.ft
  let fresh := mark.isSome
  let a1 := match mark with
    | some m => at16 m.ft m.frac
    | none => 0
  let a2 := at16 mk.1 mk.2
  let b1 := at16 (BitVec.ofNat 64 (leAt p 0x10 8)) (BitVec.ofNat 16 (leAt p 0xE 2))
  let b2 := at16 (BitVec.ofNat 64 (leAt p 0 8)) (BitVec.ofNat 16 (leAt p 8 2))
  let d := ((a2 - a1) - (b2 - b1)).tdiv 2
  let o := ((a1 - b1) + (a2 - b2)).tdiv 2
  let s := s.modLane k (fun l => { l with far := far, measFt := if fresh then t.ft else l.measFt })
  let s := s.chooseUp
  let onUp := s.time.hasUp && s.time.upIx == k
  let s :=
    if onUp then
      s.modTime (fun t =>
        let t := t.copyUp far
        if fresh then
          ({ t with linkOffset := satInt 32 (o.tdiv 4096), linkDelay := satInt 32 (d.tdiv 4096) } : TimeBlk).servo o
        else t)
    else s
  s.setAligned s.alignedNow

/-! ## The pulse (R322 to R324) -/

/-- Pulse error of a captured FT, in ns. -/
def pulseError (capt : BitVec 64) (comp : BitVec 32) : Int :=
  ((capt.toNat : Int) - comp.toInt + 500000000) % 1000000000 - 500000000

/-- What every accepted edge does: it ends PPS_MISSING and holdover, and keeps the rate of the interval it closes. -/
def TimeBlk.acceptEdge (t : TimeBlk) (capt : BitVec 64) (e : Int) : TimeBlk :=
  let rates := if t.edgeSeen then ((Config.pulseRate (capt - t.lastEdge) t.rateAdj).toInt :: t.pulseRates).take 16 else t.pulseRates
  let n := if e.natAbs ≤ 20 then t.goodEdges + 1 else 0
  { t with edgeSeen := true, lastEdge := capt, ppsMissing := false, holdover := false, lastErr := BitVec.ofInt 32 e,
           pulseRates := rates, holdRate := BitVec.ofInt 32 (meanOf rates), goodEdges := n,
           ppsLock := decide (4 ≤ n) || (t.ppsLock && decide (e.natAbs ≤ 1000)) }

/-- The rate word for the next second (R322). -/
def TimeBlk.slew (t : TimeBlk) (e : Int) : TimeBlk :=
  { t with rateAdj := BitVec.ofInt 32 (clampPpb (t.term - e)), slewing := true, slewEnd := t.ft + 1000000000,
           stepDeferred := false }

/-- A rising edge of PPS_IN captured at FT `capt`. -/
def State.pulse (s : State) (capt : BitVec 64) : State :=
  let t := s.time
  if t.srcMode ≠ 0 ∨ t.ppsEn = false then s
  else if t.stepDeferred && s.anyJob then s
  else if t.edgeSeen && decide ((capt - t.lastEdge).toNat < 900000000) then s.modTime (fun t => { t with reject := satInc t.reject })
  else
    let e := pulseError capt t.ppsComp
    if e.natAbs < 1000000 then ((s.modTime (fun t => (t.acceptEdge capt e).slew e)).actAsSource).retime
    else if s.anyJob then
      (s.modTime (fun t =>
        { t with stepDeferred := true, lastErr := BitVec.ofInt 32 e, ppsLock := false, goodEdges := 0 })).log
        { source := 0x03, code := 0x02, detail := [((BitVec.ofInt 32 e).toNat, 4)] }
    else
      ((s.modTime (fun t => ({ (t.acceptEdge capt e).step (-(e * 65536)) with stepDeferred := false } : TimeBlk))).actAsSource).retime

/-- 1.1 s without an accepted edge (R323, R321). -/
def State.pulseMissing (s : State) : State :=
  if s.time.srcMode ≠ 0 ∨ s.time.ppsMissing = true then s
  else
    let last := s.time.lastEdge
    let s := s.modTime (fun t =>
      ({ t with ppsMissing := true, missing := satInc t.missing, ppsLock := false, goodEdges := 0 } : TimeBlk).enterHoldover)
    (s.log { source := 0x03, code := 0x01, detail := [(last.toNat, 8)] }).retime

/-! ## Slot tables (R341) -/

/-- Half of the selected slot-table entry written. -/
def TimeBlk.writeSlot (t : TimeBlk) (hi : Bool) (v : Reg) : TimeBlk :=
  if t.schedEn then { t with slotBad := true }
  else
    let key := 8192 * t.selTrunk.toNat + t.selSlot.toNat
    let old := tabGet t.slots key 0
    let new : BitVec 128 := setFld old (if hi then 64 else 0) 64 v.toNat
    { t with slots := if new = 0 then tabErase t.slots key else tabSet t.slots key new }

/-! ## Scheduled packets at the source (R334, R337) -/

/-- Cause under which a ready packet falls back now; 0 while it may still wait. -/
def State.sourceCause (s : State) (x : SchedPacket) : Nat :=
  let g := x.pkt.tag.toNat
  if !s.time.aligned then 3
  else if !s.tableOk x.pkt.jobTag then 4
  else if s.schedLater x.trunk g x.pkt.size x.limit.toNat then 0
  else if (trunkLanes x.trunk).any (fun k => (s.lane k).state == .up && s.time.carries k g) then 2
  else 1

/-- One more packet of the operation fell back; its first cause is kept. -/
def REntry.fell (r : REntry) (cause : Nat) : REntry :=
  { r with fellBack := r.fellBack + 1, fbCause := if r.fellBack = 0 then cause else r.fbCause }

def PendingSend.fell (p : PendingSend) (cause : Nat) : PendingSend :=
  { p with fellBack := p.fellBack + 1, fbCause := if p.fellBack = 0 then cause else p.fbCause }

/-- The packet falls back: its operation is late, and it goes on as a best-effort request. -/
def State.fallBack (s : State) (x : SchedPacket) (cause : Nat) : State :=
  let s := s.modTime (fun t => t.noteFallback x.pkt.tag.toNat x.trunk x.core cause false)
  match s.fab.out.find? (fun r => r.xid == x.xid) with
  | some r =>
    let s := match r.owner with
      | .copy c m id => s.modRun c (muleUnit m) id (fun r => r.fell cause)
      | .msg c id => s.modCore c (fun k => k.modMsg (fun q =>
          { q with sends := q.sends.map (fun (p : PendingSend) => if p.id = id then p.fell cause else p) }))
      | _ => s
    s.sendReq 9 r
  | none => s

/-- Among packets of one tag and trunk an older one goes first, then the lower engine (R334). -/
def SchedPacket.before (a b : SchedPacket) : Bool :=
  a.trunk == b.trunk && a.pkt.tag == b.pkt.tag && (a.ready < b.ready || (a.ready == b.ready && decide (a.unit_ < b.unit_)))

def State.dropSched (s : State) (xid : BitVec 32) : State :=
  s.modFab (fun f => { f with sched := f.sched.filter (fun x => x.xid != xid) })

/-- A ready scheduled packet leaves in its tag's run, falls back, or waits. -/
def State.sendSched (s : State) (x : SchedPacket) : State :=
  let g := x.pkt.tag.toNat
  let ok := s.time.aligned && s.tableOk x.pkt.jobTag
  match s.schedLane x.trunk g x.pkt.size with
  | some k =>
    if ok && decide (s.now < x.limit) then
      if s.fab.sched.any (fun y => y.before x && (s.schedLane y.trunk g y.pkt.size).isSome) then s
      else (s.dropSched x.xid).laneSend k x.pkt (.source x) (some s.instant)
    else
      let c := s.sourceCause x
      if c = 0 then s else (s.dropSched x.xid).fallBack x c
  | none =>
    let c := s.sourceCause x
    if c = 0 then s else (s.dropSched x.xid).fallBack x c

/-! ## Rows -/

/-- TIME_PACKET_TIMER (R325). -/
def execTimePacketTimer (s : State) : Out :=
  if s.stopped then .next s else
  .next ((List.range 64).foldl (fun s k =>
    (s.modLane k (fun l => { l with timeDue := l.state == .up })).sendTime k) s)

/-- TIME_PACKET_RECEIVED (R326). -/
def execTimePacketReceived (k : LaneId) (payload : List Byte) (s : State) : Out :=
  if s.stopped then .next s else
  if (s.lane k.val).state = .up ∧ s.fab.coordValid = true then .next ((s.timeIn k.val payload (s.time.ft, s.time.frac)).settle) else .next s

/-- UPSTREAM_STALE (R326): no fresh measurement on the upstream lane for 1 ms. -/
def execUpstreamStale (s : State) : Out :=
  if s.time.hasUp then
    let s := s.modTime (fun t => ({ t with locked := false, good := 0 } : TimeBlk).enterHoldover)
    .next (s.setAligned s.alignedNow)
  else .next s

/-- HOLDOVER_ALIGN_EXPIRY (R328): a follower has been in holdover for 1 ms. -/
def execHoldoverAlignExpiry (s : State) : Out :=
  if s.time.holdover && !s.time.roleSource then .next (s.setAligned false) else .next s

/-- PPS_EDGE (R322, R323): an edge captured at FT `capt`. -/
def execPpsEdge (capt : BitVec 64) (s : State) : Out := .next (((s.modPins (fun p => { p with pps := true })).pulse capt).settle)

/-- PPS_MISSING (R323). -/
def execPpsMissing (s : State) : Out := .next s.pulseMissing

/-- SLOT_ENTRY_WRITE (R341): TIME.SLOT_HI or TIME.SLOT_LO. -/
def execSlotEntryWrite (hi : Bool) (v : Reg) (s : State) : Out := .next (s.modTime (fun t => t.writeSlot hi v))

/-- SCHEDULED_PACKET_SEND (R334, R337): the packet of XID `xid`, once it is ready. -/
def execScheduledPacketSend (xid : BitVec 32) (s : State) : Out :=
  if s.stopped then .next s else
  match s.fab.sched.find? (fun x => x.xid == xid) with
  | some x => .next (s.sendSched x)
  | none => .next s

end Sys2Proof.Machine
end

