-- ==== Sys2Proof/Machine/FabricPackets.lean ====
section
/-! DEFINITION. Packets that arrive on a lane: lane frames, the checks of every hop, forwarding, and what each type does at
its destination (R291 to R293, R300 to R313, R335, R337). -/

namespace Sys2Proof.Machine

/-! ## Checks (R300 to R302) -/

/-- LEN that R301 gives a type; `none` for a type that is none of its rows. -/
def lenOk (ty len : Nat) : Bool :=
  match ty with
  | 0x1 | 0x3 => decide (1 ≤ len ∧ len ≤ 64)
  | 0x2 | 0x8 | 0xA | 0xB => len == 1
  | 0x5 => decide (1 ≤ len ∧ len ≤ 8)
  | 0x0 | 0x4 | 0x6 | 0x7 | 0xF => len == 0
  | _ => false

/-- A header that no hop may use: HCRC, type, length, hops, destination. -/
def State.headerBad (s : State) (p : Packet) : Bool :=
  !p.hcrcOk || !lenOk p.ty p.len || decide (41 ≤ p.hops) || (p.ty != 0xB && !s.fab.inSizes p.dst.toNat)

def State.hdrErr (s : State) : State := s.modFab (fun f => { f with hdrErr := satInc f.hdrErr })

/-- The bytes a data packet places: address, bytes (R300). -/
def Packet.placed (p : Packet) : Nat × List Byte :=
  let lead := p.addr % 64
  let n := 64 * p.len - lead - (if p.tail = 0 then 0 else 64 - p.tail)
  (p.addr, slice p.payload lead n)

/-! ## Memory named from the fabric (R228, R309) -/

/-- [a, a + n) may be named by a packet of the job: HBM of its regions, SRAM of its cores. -/
def State.fabricOk (s : State) (tag : BitVec 16) (a n : Nat) : Bool :=
  match s.partOfTag tag with
  | some p => s.homeOk p (fun a n => ((s.part p).cores p).any (fun c => inSram c a n)) a n
  | none => false

/-- Every granule of [a, a + 64 n) stored as poisoned. -/
def State.poisonUnits (s : State) (own : Option Nat) (a n hint : Nat) : State :=
  (List.range n).foldl (fun s i => s.poisonAt own (a + 64 * i) hint) s

/-- A poisoned data packet stored (R312). -/
def State.storePoison (s : State) (own : Option Nat) (p : Packet) (hint : Nat) : State :=
  (s.poisonUnits own (roundDown p.addr 64) p.len hint).modFab (fun f => { f with poisonRx := satInc f.poisonRx })

/-! ## Requests at their destination (R309 to R312) -/

/-- WRITE. -/
def State.writeIn (s : State) (p : Packet) : State :=
  let (a, bs) := p.placed
  if !s.fabricOk p.jobTag a bs.length then s.sendAck p 1 false
  else if p.poison then (s.storePoison none p 0).sendAck p 0 false
  else
    let r := s.homeWrite none a bs 0
    r.1.sendAck p (if r.2 then 6 else 0) false

/-- READ. -/
def State.readIn (s : State) (p : Packet) : State :=
  let a := p.addr
  let ret := leAt p.payload 0 8 % 2 ^ 42
  let n := leAt p.payload 8 4
  let lead := ret % 64
  if n = 0 ∨ 4096 < lead + n ∨ s.fabricOk p.jobTag a n = false then s.sendAck p 1 false
  else
    let bad := s.ms.badRange a n
    let data := slice (List.replicate lead 0 ++ s.view a n) 0 (64 * ceilDiv (lead + n) 64)
    let s := s.noteReads a n 0
    let f : PacketFields :=
      { ty := 0x3, dst := p.srcDev, src := s.dev, srcCore := p.srcCore.toNat, jobTag := p.jobTag, addr := ret,
        tail := (lead + n) % 64, xid := p.xid, poison := bad, payload := data }
    s.sendResp f.build

/-- Entry of the duplicate table for a packet. -/
def FabBlk.dupOf (f : FabBlk) (p : Packet) : Option DupEntry := f.dups.find? (fun d => d.srcDev == p.srcDev && d.xid == p.xid)

/-- A message from another module, which will have an entry of the duplicate table. -/
def LocalMsg.fromFabric (m : LocalMsg) : Bool := match m.src with | .fabric _ => true | _ => false

/-- A SIGNAL or MSG that was applied before, or finds the table full, with the messages whose entries are still to be made
(R310); `none` when it is to be applied. -/
def State.dupCheck (s : State) (p : Packet) : Option State :=
  match s.fab.dupOf p with
  | some d => some ((s.modFab (fun f => { f with dupCount := satInc f.dupCount })).sendAck p d.status.toNat d.full)
  | none =>
    let waits (m : LocalMsg) : Bool := match m.src with | .fabric q => q.srcDev == p.srcDev && q.xid == p.xid | _ => false
    if s.locals.any waits then some s
    else if 4096 ≤ s.fab.dups.length + (s.locals.filter LocalMsg.fromFabric).length then
      some ((s.modFab (fun f => { f with busy := satInc f.busy })).sendAck p 5 false)
    else none

/-- SIGNAL. -/
def State.signalIn (s : State) (p : Packet) : State :=
  match s.dupCheck p with
  | some s' => s'
  | none => ((s.remoteSignal p.jobTag p.dstCore p.counter p.err).addDup p 0 false).sendAck p 0 false

/-- MSG: it enters its queue at once unless another message goes first (R32, R35). -/
def State.msgIn (s : State) (p : Packet) : State :=
  match s.dupCheck p with
  | some s' => s'
  | none =>
    let m : LocalMsg :=
      { src := .fabric p, core := p.dstCore, queue := p.queue, jobTag := p.jobTag,
        entries := entriesOf p.srcDev p.srcCore.toNat p.payload, ft := s.now }
    let s := { s with locals := s.locals ++ [m] }
    if s.nextArrival p.dstCore p.queue = some m then s.arrive p.dstCore p.queue p.len else s

/-- NOTICE (R306). -/
def State.noticeIn (s : State) (p : Packet) : State :=
  let w := leAt p.payload 0 4
  let dev : DevId := BitVec.ofNat 14 w
  let t := w / 16384 % 8
  let s := s.modFab (fun f =>
    let f := if p.payload.getD 4 0 = 0 then f.removeLink dev t else f.enterLink dev t 0
    { f with noticesRecv := satInc f.noticesRecv })
  s.sendAck p 0 false

/-! ## Responses at the requester (R38, R309, R311) -/

def State.dropOut (s : State) (xid : BitVec 32) : State :=
  s.modFab (fun f => { f with out := f.out.filter (fun r => r.xid != xid) })

/-- The late ACK of a message that failed finally: its status, or one that comes after the timeout (R39). -/
def State.lateAck (s : State) (p : Packet) : State :=
  match s.fab.failedMsgs.find? (fun f => f.1 == p.xid) with
  | some (_, c, id) =>
    if 3 < p.status then s
    else (s.modFab (fun f => { f with failedMsgs := f.failedMsgs.filter (fun f => f.1 != p.xid) })).sendStatus c id (p.status != 0) p.full
  | none => s

/-- ACK. UNREACH enters its link at once, whatever packet it answers (R306). -/
def State.ackIn (s : State) (p : Packet) : State :=
  let s := if p.status = 4 then s.modFab (fun f => f.enterLink (BitVec.ofNat 14 p.addr) (p.addr / 16384 % 8) 1) else s
  match s.fab.out.find? (fun r => r.xid == p.xid) with
  | none => s.lateAck p
  | some r =>
    match p.status with
    | 4 => s.resend r
    | 5 => s.resend r
    | st =>
      if 6 < st then s
      else
        let s := s.dropOut p.xid
        match r.owner with
        | .msg c id => s.sendStatus c id (st != 0) p.full
        | o => s.ownerDone o (st != 0 || r.pkt.poison)

/-- Destination hint of the copy that a request belongs to (R238). -/
def State.destHint (s : State) (o : ReqOwner) : Nat :=
  match o with
  | .copy c m id => match ((s.core c).eng (muleUnit m)).running.find? (fun r => r.q.id == id) with
    | some r => r.copyDesc.dhint
    | none => 0
  | _ => 0

/-- READ_RESP. -/
def State.respIn (s : State) (p : Packet) : State :=
  match s.fab.out.find? (fun r => r.xid == p.xid) with
  | none => s
  | some r =>
    match r.owner with
    | .copy c _ _ =>
      let s := s.dropOut p.xid
      if p.poison then (s.storePoison (some c) p (s.destHint r.owner)).ownerDone r.owner true
      else
        let (a, bs) := p.placed
        let w := s.homeWrite (some c) a bs (s.destHint r.owner)
        w.1.ownerDone r.owner w.2
    | _ => s

/-- CREDIT. -/
def State.creditIn (s : State) (p : Packet) : State :=
  s.modCore p.dstCore (fun k => k.modMsg (fun r => r.setMirror p.srcDev p.srcCore.toNat p.queue p.full))

/-! ## A packet at this module (R302, R304, R306, R335) -/

/-- A packet at its destination; a payload that fails PCRC is discarded without an answer. -/
def State.deliverPacket (s : State) (p : Packet) : State :=
  if !p.pcrcOk then s.modFab (fun f => { f with pcrcErr := satInc f.pcrcErr })
  else
    let s := match p.ty with
      | 0x1 => s.writeIn p
      | 0x2 => s.readIn p
      | 0x3 => s.respIn p
      | 0x4 => s.signalIn p
      | 0x5 => s.msgIn p
      | 0x6 => s.ackIn p
      | 0x7 => s.creditIn p
      | 0x8 => s.noticeIn p
      | _ => s
    s.pumpCopies.pumpNotices.settle

/-- Lane a scheduled packet takes at this hop, its header having come at instant a: the input lane's number if it
qualifies, else the lowest (R335). -/
def State.hopLane (s : State) (k t : Nat) (p : Packet) (a : Nat) : Option Nat :=
  if !(s.time.aligned && s.tableOk p.jobTag) then none
  else if s.hopTakes k (8 * t + k % 8) p a then some (8 * t + k % 8) else (trunkLanes t).find? (fun j => s.hopTakes k j p a)

/-- Cause of the fallback of a scheduled packet at this hop, in the order 3, 4, 1, 5 (R337). -/
def State.hopCause (s : State) (k t : Nat) (p : Packet) (a : Nat) : Nat :=
  let w := (s.lane k).rxWidth
  let g := p.tag.toNat
  let wide (j : Nat) : Bool := (s.lane j).state == .up && decide (w ≤ (s.lane j).width)
  let named := (trunkLanes t).filter (fun j => tagFit g && s.time.tagAt t (j % 8) (a / laneUnit) == g)
  if !s.time.aligned then 3
  else if !s.tableOk p.jobTag then 4
  else if !((trunkLanes t).any (fun j => wide j && s.time.carries j g)) || (!named.isEmpty && !named.any wide) then 1
  else 5

/-- A best-effort packet leaves this hop on trunk t, or is answered with UNREACH. -/
def State.forward (s : State) (p : Packet) (t : Nat) (inLane : Option (Nat × Nat)) (fb : Option Nat) : State :=
  let q := p.withVc (s.fab.vcFor s.dev.toNat p)
  if s.trunkUp t ∨ s.trunkListens t then s.queueTrunk t q inLane fb
  else (s.returnCredits inLane p).unreachHere p t

/-- An intermediate hop only counts a payload that fails PCRC (R302). -/
def State.countPcrc (s : State) (p : Packet) : State :=
  if p.pcrcOk then s else s.modFab (fun f => { f with pcrcErr := satInc f.pcrcErr })

/-- A packet that fell back to trunk t is offered to its lanes, or answered with UNREACH when it has none (R337). -/
def State.fallPump (s : State) (t : Nat) : State := if s.trunkUp t ∨ s.trunkListens t then s.pumpTrunk t else s.flushTrunk t

/-- A packet that goes on from this hop, its header having come at instant a. -/
def State.hop (s : State) (k : Nat) (p : Packet) (a : Nat) : State :=
  match nextTrunk s.dev.toNat p with
  | none => s
  | some t =>
    let s := s.countPcrc p
    let q := p.hopped
    if p.cls then
      match s.hopLane k t p a with
      | some j => s.laneSend j q (.transit k) (some a)
      | none => (s.transitFalls k t (s.hopCause k t p a) q).fallPump t
    else s.forward q t (some (k, p.vc)) none

/-- Credits that a received packet holds of lane k. -/
def Packet.inLane (p : Packet) (k : Nat) : Option (Nat × Nat) := if p.cls then none else some (k, p.vc)

/-- A whole packet received on lane k, its header at instant a, the lane frame of its first byte at the FT `m`. A header
that fails discards it, in whatever state the lane exchanges packets or hellos (R302); TIME and HELLO end here. One that
injection drops is taken, and gives its credits back (R314). -/
def State.packetIn (s : State) (k : Nat) (p : Packet) (a : Nat) (m : BitVec 64 × BitVec 16) : State :=
  let st := (s.lane k).state
  let back (s : State) : State := if st = .up then s.returnCredits (p.inLane k) p else s
  if st.locked = false ∨ s.stopped = true then s
  else if s.headerBad p then (back s).hdrErr
  else if p.ty = 0xB then (if p.pcrcOk then s.helloIn k p.payload else s.countPcrc p)
  else if p.ty = 0x0 ∨ p.ty = 0xF ∨ st ≠ .up then s
  else if !s.fab.coordValid ∨ p.dropped then back s
  else if p.expiredAt s.now then (back s).modFab (fun f => { f with expired := satInc f.expired })
  else if p.ty = 0xA then (if p.pcrcOk then (back s).timeIn k p.payload m else (back s).countPcrc p)
  else if p.dst = s.dev then (back s).deliverPacket p
  else s.hop k p a

/-! ## Blocks of a lane's byte stream (R293) -/

/-- A packet whose header has come on lane k goes on from this hop. -/
def State.goesOn (s : State) (k : Nat) (p : Packet) : Bool :=
  (s.lane k).state == .up && !s.stopped && s.fab.coordValid && !s.headerBad p && !p.dropped && !p.expiredAt s.now && p.dst != s.dev
    && decide (0 < p.ty ∧ p.ty < 9)

/-- The header of a packet has come on lane k at instant a: a lane that can take the packet is kept for it from now on. A
scheduled packet that finds none falls back at this hop (R304, R335). -/
def State.beginForward (s : State) (k : Nat) (p : Packet) (a : Nat) : State :=
  match s.goesOn k p, nextTrunk s.dev.toNat p with
  | true, some t =>
    let w := (s.lane k).rxWidth
    let lane := if p.cls then s.hopLane k t p a else s.pickLaneAt t (p.withVc (s.fab.vcFor s.dev.toNat p)) a w
    match lane with
    | some j =>
      ((s.modLane k (fun l => { l with cut := some (.onto j) })).modLane j (fun l => { l with cutFrom := some k })).occupyAt j a w
        p.size
    | none => if p.cls then s.modLane k (fun l => { l with cut := some (.falls (s.hopCause k t p a)) }) else s
  | _, _ => s

/-- A packet has come whole on lane k: what was settled when its header came is carried out, or it is taken as a packet
that this hop has not yet looked at. -/
def State.wholeIn (s : State) (k : Nat) (p : Packet) (a : Nat) : State :=
  let cut := (s.lane k).cut
  let s := s.modLane k (fun l => { l with cut := none })
  match cut with
  | none => s.packetIn k p a (s.lane k).rxMark
  | some .lost => s.returnCredits (p.inLane k) p
  | some (.falls cause) =>
    match nextTrunk s.dev.toNat p with
    | some t => ((s.countPcrc p).transitFalls k t cause p.hopped).fallPump t
    | none => s
  | some (.onto j) =>
    let s := (s.modLane j (fun l => { l with cutFrom := none })).countPcrc p
    let q := p.hopped
    let s := if p.cls then s.laneSend j q (.transit k) none
      else (s.laneSend j (q.withVc (s.fab.vcFor s.dev.toNat q)) .bestEffort none).returnCredits (p.inLane k) p
    s.pumpTrunk (j / 8)

/-- An ABORT block on lane k: the partial packet is discarded, its credits return, and the ABORT is passed on. -/
def State.abortIn (s : State) (k : Nat) : State :=
  let l := s.lane k
  let s := s.modLane k (fun l => { l with rxBytes := [], cut := none })
  if l.rxBytes.isEmpty then s
  else
    let p := Packet.ofBytes l.rxBytes
    let s := s.returnCredits (p.inLane k) p
    match l.cut with
    | some (.onto j) => s.abortOn k j l.rxBytes
    | _ => s

/-- One block of 32 bytes on lane k, which came at instant a, its first byte in the lane frame of the FT `m`. An IDLE or ABORT
block is known as such inside a packet too; a first block is one only under a good HCRC (R302). -/
def State.blockIn (k a : Nat) (m : BitVec 64 × BitVec 16) (s : State) (b : List Byte) : State :=
  let l := s.lane k
  let h := Packet.ofBytes b
  let first (ty : Nat) : Prop := l.rxBytes = [] ∧ h.ty = ty ∧ h.hcrcOk = true
  if l.state.locked = false ∨ b = idleBlock ∨ first 0x0 then s
  else if b = abortBlock ∨ first 0xF then s.abortIn k
  else
    let bs := l.rxBytes ++ b
    let p := Packet.ofBytes bs
    let s := if l.rxBytes = [] then s.modLane k (fun l => { l with rxMark := m }) else s
    if bs.length < p.size then
      let s := s.modLane k (fun l => { l with rxBytes := bs })
      if l.rxBytes = [] then s.beginForward k p a else s
    else (s.modLane k (fun l => { l with rxBytes := [] })).wholeIn k p a

/-- Consecutive blocks of a byte list. -/
def blocksOf : Nat → List Byte → List (List Byte)
  | 0, _ => []
  | n + 1, bs => bs.take 32 :: blocksOf n (bs.drop 32)

/-- The whole blocks received on lane k are taken, each at the instant its place in the lane frame gives it; `old` bytes of
them came with earlier lane frames. -/
def State.takeBlocks (s : State) (k old : Nat) : State :=
  let raw := (s.lane k).rxRaw
  let n := raw.length / 32
  let a := s.instant
  let w := (s.lane k).rxWidth
  let before := (s.lane k).rawMark
  let now := (s.time.ft, s.time.frac)
  ((blocksOf n raw).zip (List.range n)).foldl (fun s b =>
      State.blockIn k (a + laneTime (32 * b.2) w) (if 32 * b.2 < old then before else now) s b.1)
    (s.modLane k (fun l => { l with rxRaw := raw.drop (32 * n), rawMark := if 32 * n < old then before else now }))

/-! ## Lane frames (R290 to R292, R294) -/

/-- Credits and acknowledgement of a lane control word. -/
def Lane.control (l : Lane) (w : BitVec 64) : Lane :=
  let tot (i : Nat) : BitVec 11 := fld w (11 * i) 11
  let credits := (List.range 4).foldl (fun v i => vmod v i (fun c => c + (tot i - l.crSeen.getD i 0).toNat)) l.credits
  let ack : BitVec 16 := fld w 44 16
  { l with credits := credits, crSeen := #v[tot 0, tot 1, tot 2, tot 3],
           retry := l.retry.filter (fun f => decide (32768 ≤ (ack - f.seq).toNat)) }

/-- A NAK of acknowledgement `ack`: the unacknowledged frames are resent under their own numbers from instant a on, 12.8 ns
each, and the lane carries no packet meanwhile (R292, R339). -/
def Lane.replay (l : Lane) (ack : BitVec 16) (a : Nat) : Lane :=
  { l with replays := satAdd l.replays l.retry.length, replayed := some (ack, a),
           retry := l.retry.map (fun f => { f with replays := f.replays + 1, flips := none }),
           busyUntil := max a l.busyUntil + 64 * laneUnit * l.retry.length / 5 }

/-- A NAK asks for a replay that is not under way: the first one, one after another good frame, or one that still shows
after the 832 ns of a round trip (R292; DESIGN CHOICE, log 151). -/
def Lane.asksAgain (l : Lane) (ack : BitVec 16) (a : Nat) : Bool :=
  match l.replayed with
  | none => true
  | some (x, b) => x != ack || decide (b + 832 * laneUnit ≤ a)

/-- Some frame to be replayed was replayed 8 times already. -/
def Lane.worn (l : Lane) : Bool := l.retry.any (fun f => decide (8 ≤ f.replays))

/-- Data of a lane frame taken in order; a frame out of order waits for the replay. The first frame after frame lock gives
the number that the next ones follow. -/
def Lane.accept (l : Lane) (seq : BitVec 16) (data : List Byte) : Lane :=
  if l.rxSync = false ∨ seq = l.rxSeq + 1 then { l with rxSeq := seq, rxSync := true, nak := false, rxRaw := l.rxRaw ++ data }
  else l

/-- A lane frame of which a wavelength frame is uncorrectable: it and every later one wait for the replay, which begins
with it when it is the first after frame lock (R292). -/
def Lane.refuse (l : Lane) (seq : BitVec 16) : Lane :=
  { l with nak := true, rxSync := true, rxSeq := if l.rxSync then l.rxSeq else seq - 1 }

/-- A frame of a far end in LISTEN, which carries neither data nor acknowledgements: only its number counts, and a bad one
is not replayed (R291). -/
def Lane.listened (l : Lane) (seq : BitVec 16) (bad : Bool) : Lane :=
  if bad then { l with rxSync := false } else { l with rxSync := true, rxSeq := seq }

/-- The wavelength frames of a lane frame, in ascending λ: the lowest one alone (LISTEN), or four to eight (R291). -/
def waveFrames (alone : Bool) (first : BitVec 2048) (next : Vector (BitVec 2048) 3) (others : List (BitVec 2048)) :
    List (BitVec 2048) := if alone then [first] else first :: next.toList ++ others

/-- The wavelengths of a lane frame, in ascending λ, as received. -/
def readWaves (frames : List (BitVec 2048)) : List WaveRead := frames.map decodeWave

/-- The lane control word that they carry. -/
def controlOf (ws : List WaveRead) : BitVec 64 :=
  (ws.take 4).foldr (fun w x => x * 0x10000#64 + w.ctl.lane.setWidth 64) 0

/-- A request to leave LISTEN: bit 0 on λ0 alone, or WAKE of a whole word (R291). -/
def wakes (ws : List WaveRead) : Bool :=
  !ws.any (·.bad) && (if ws.length < 4 then (controlOf ws).getLsbD 0 else (controlOf ws).getLsbD 61)

/-- Frames corrected and uncorrectable are counted; the uncorrectable ones of the last 1 ms are kept for each wavelength. A
frame that came alone came on λ0. -/
def Lane.countWaves (l : Lane) (now : BitVec 64) (ws : List WaveRead) : Lane :=
  let bad := ((if ws.length = 1 then [0] else wavesOf l.rxMask).zip ws).filter (fun w => w.2.bad)
  { l with corr := satAdd l.corr (ws.filter (·.fixed)).length, uncorr := satAdd l.uncorr (ws.filter (·.bad)).length,
           badFrames := bad.map (fun w => (w.1, now)) ++ l.badFrames.filter (fun b => decide ((now - b.2).toNat < 1000000)) }

/-- Wavelengths with 16 uncorrectable frames within 1 ms (R294). -/
def Lane.badWaves (l : Lane) : List Nat := (wavesOf l.rxMask).filter (fun w => decide (16 ≤ (l.badFrames.filter (·.1 == w)).length))

/-- A lane frame of full width that arrived whole and good. An UP lane of which a frame would need a ninth replay retrains
(R292, R294). -/
def State.goodFrame (s : State) (k : Nat) (seq : BitVec 16) (ws : List WaveRead) : State :=
  let w := controlOf ws
  let ack : BitVec 16 := fld w 44 16
  let a := s.instant
  let s := s.modLane k (fun l => l.control w)
  let again := bitB w 60 && (s.lane k).asksAgain ack a
  if again && (s.lane k).worn && (s.lane k).state == .up then s.retrainLane k
  else
    let s :=
      if again then s.modLane k (fun l => l.replay ack a)
      else if bitB w 60 then s else s.modLane k (fun l => { l with replayed := none })
    let old := (s.lane k).rxRaw.length
    ((s.modLane k (fun l => l.accept seq (ws.flatMap (·.data)))).pumpTrunk (k / 8)).takeBlocks k old

/-- A good lane frame of full width that meets a lane in LISTEN is received in order, without what its control word says; its
IDLE blocks are dropped, and other bytes wait until the lane is UP (R291, R292, R296; DESIGN CHOICE, log 151). -/
def Lane.listenData (l : Lane) (seq : BitVec 16) (data : List Byte) : Lane :=
  let m := l.accept seq data
  let n := m.rxRaw.length / 32
  { m with rxRaw := ((blocksOf n m.rxRaw).filter (· != idleBlock)).flatten ++ m.rxRaw.drop (32 * n) }

/-- Wavelengths of lane k on which 16 frames were uncorrectable within 1 ms are no longer received well (R294). -/
def State.dropWaves (s : State) (k : Nat) : State :=
  let gone := (s.lane k).badWaves
  if gone.isEmpty then s
  else (s.modLane k (fun l => { l with rxMask := gone.foldl clrBit l.rxMask })).wavesLost k false

/-- A lane frame received on lane k: its number and its wavelength frames, one alone from a far end in LISTEN. -/
def State.frameIn (s : State) (k : Nat) (seq : BitVec 16) (frames : List (BitVec 2048)) : State :=
  let ws := readWaves frames
  let alone := decide (ws.length = 1)
  let bad := ws.any (·.bad)
  let st := (s.lane k).state
  if !st.locked && st != .listen then s
  else
    let now := s.now
    let s := s.modLane k (fun l => l.countWaves now ws)
    let s := if st == .listen && wakes ws then s.wakeLane k else s
    if alone then
      let s := s.modLane k (fun l => l.listened seq bad)
      if bad then s.dropWaves k else s
    else if bad then (s.modLane k (fun l => l.refuse seq)).dropWaves k
    else if (s.lane k).state = .listen then
      let m := if (s.lane k).rxRaw.isEmpty then (s.time.ft, s.time.frac) else (s.lane k).rawMark
      s.modLane k (fun l => { l.listenData seq (ws.flatMap (·.data)) with rawMark := m })
    else s.goodFrame k seq ws

/-! ## Rows -/

/-- LANE_FRAME_RECEIVED (R292). -/
def execLaneFrameReceived (k : LaneId) (seq : BitVec 16) (alone : Bool) (first : BitVec 2048) (next : Vector (BitVec 2048) 3)
    (others : List (BitVec 2048)) (s : State) : Out :=
  if s.stopped then .next s else
  .next ((s.frameIn k.val seq (waveFrames alone first next others)).settle)

/-- PACKET_HOP (R302): a packet arrives on lane k. -/
def execPacketHop (k : LaneId) (p : Packet) (s : State) : Out := .next (s.packetIn k.val p s.instant (s.time.ft, s.time.frac))

/-- ABORT_BLOCK_RECEIVED (R293): the partial packet of lane k ends. A block that is no ABORT block is not this event. -/
def execAbortBlockReceived (k : LaneId) (block : Vector Byte 32) (s : State) : Out :=
  if s.stopped then .next s
  else .next (if (s.lane k.val).state = .up ∧ block.toList = abortBlock then s.abortIn k.val else s)

/-- A packet of a type and for this module, received on lane k. -/
def State.typed (s : State) (k ty : Nat) (p : Packet) : State := if p.ty = ty ∧ p.dst = s.dev then s.packetIn k p s.instant (s.time.ft, s.time.frac) else s

/-- WRITE_PACKET_RECEIVED (R309). -/
def execWritePacketReceived (k : LaneId) (p : Packet) (s : State) : Out := .next (s.typed k.val 0x1 p)

/-- READ_PACKET_RECEIVED (R311). -/
def execReadPacketReceived (k : LaneId) (p : Packet) (s : State) : Out := .next (s.typed k.val 0x2 p)

/-- READ_RESP_RECEIVED (R311). -/
def execReadRespReceived (k : LaneId) (p : Packet) (s : State) : Out := .next (s.typed k.val 0x3 p)

/-- SIGNAL_PACKET_RECEIVED (R310). -/
def execSignalPacketReceived (k : LaneId) (p : Packet) (s : State) : Out := .next (s.typed k.val 0x4 p)

/-- MSG_PACKET_RECEIVED (R310). -/
def execMsgPacketReceived (k : LaneId) (p : Packet) (s : State) : Out := .next (s.typed k.val 0x5 p)

/-- ACK_RECEIVED (R309). -/
def execAckReceived (k : LaneId) (p : Packet) (s : State) : Out := .next (s.typed k.val 0x6 p)

/-- CREDIT_PACKET_RECEIVED (R38). -/
def execCreditPacketReceived (k : LaneId) (p : Packet) (s : State) : Out := .next (s.typed k.val 0x7 p)

/-- NOTICE_RECEIVED (R306). -/
def execNoticeReceived (k : LaneId) (p : Packet) (s : State) : Out := .next (s.typed k.val 0x8 p)

/-- REQUEST_TIMEOUT (R308): 100 µs after its last sending; a copy of it that still waits here is dropped. -/
def execRequestTimeout (xid : BitVec 32) (s : State) : Out :=
  if s.stopped then .next s else
  if s.fab.sched.any (fun x => x.xid == xid) then .next s
  else match s.fab.out.find? (fun r => r.xid == xid) with
    | some r =>
      let s := s.modFab (fun f =>
        { f with waiting := f.waiting.filter (fun w => !(w.pkt.isRequest && w.pkt.xid == xid && w.pkt.srcDev == r.pkt.srcDev)) })
      .next ((s.resend r).pumpCopies.pumpNotices.settle)
    | none => .next s

/-- DUP_ENTRY_EXPIRY (R310). -/
def execDupEntryExpiry (dev : DevId) (xid : BitVec 32) (s : State) : Out :=
  if s.stopped then .next s else
  .next (s.modFab (fun f => { f with dups := f.dups.filter (fun d => !(d.srcDev == dev && d.xid == xid)) }))

/-- REORDER_HOLD_EXPIRY (R314, R339). -/
def execReorderHoldExpiry (k : LaneId) (s : State) : Out :=
  if s.stopped then .next s else
  .next (s.releaseHeld k.val (fun _ => true))

end Sys2Proof.Machine
end

