-- ==== Sys2Proof/Machine/Abort.lean ====
section
/-! DEFINITION. Stopping a core or a partition: what an abort leaves, and what a reset leaves of operations under way
(R84, R104, R166, R190, R223, R331, R355, R431). -/

namespace Sys2Proof.Machine

/-- Bytes an outcome writes: address, length. -/
def OpResult.places (r : OpResult) : List (Nat × Nat) := r.writes.map (fun w => (w.1, w.2.length)) ++ r.poison.map (fun a => (a, 64))

/-- Destination of a running operation. -/
def State.destsOf (s : State) (c : Nat) (r : REntry) : List (Nat × Nat) :=
  let k := r.q.kcg
  match r.q.op with
  | some (.mm inp out rows _ dir inFmt outFmt acc sr _) =>
    (streamRun s.ms r.plane k ⟨inp, out, rows, dir, inFmt, outFmt, acc, sr⟩).places
  | some (.dual _ _ _) =>
    let t := dualStreams r.desc
    (streamRun s.ms r.plane k t.1).places ++ (streamRun s.ms r.plane k t.2).places
  | some (.wgrad _) => (wgradRun s.ms r.desc).places
  | some (.vec opc a b d count fmt sr) => (vecRun s.ms k opc.toNat a b d count fmt sr).places
  | some (.cred _) => (credRun s.ms k r.desc).places
  | some (.conv sr a d scale count inF outF) => (convRun s.ms k sr a d scale count inF outF).places
  | some (.row bwd _ layer mb kind) =>
    (if bwd then s.runRowBwd c k r.desc layer mb kind else s.runRowFwd c k r.desc layer mb kind).2.places
  | some (.att opc _ slot) =>
    -- an APPEND that stops early writes neither FILL nor LEN (R168)
    if opc = 3 then (s.appendRun c k r.desc r.slot).1.places else (s.runAtt c k opc r.desc r.slot slot).2.res.places
  | some (.gather _) =>
    let d := GatherDesc.of r.desc
    (List.range d.count).map (fun i => (d.dst + i * d.dp, d.rowBytes))
  | some (.walk _) =>
    let d := WalkDesc.of r.desc
    [(d.dst, 8 * d.count)]
  | some (.copy1 _ dst len _ _) => [(dst, len)]
  | some (.copyd _) =>
    let d := r.copyDesc
    if s.copyDstRemote d then [] else (List.range d.rows).map (fun i => ((d.dstRow i).toNat, d.rowLen))
  | _ => []

/-- A plane once some OX instructions before an operation have run: what the last LDW of them that names it loads, else what it
holds or a load under way brings. -/
def Core.planeAfter (k : Core) (before : List EngOp) (plane : Bool) : OxPlane :=
  let now := k.plane plane
  before.foldl (fun x o => match o with
    | .ldw _ _ p f n m => if p == plane then { state := .ready, fmt := f, k := n, n := m } else x
    | _ => x) (if now.state = .loading then { now with state := .ready } else now)

/-- Destination of an OX instruction that waits in its queue behind others; one that its checks would skip has none. -/
def State.queuedDests (s : State) (c : Nat) (before : List EngOp) (o : EngOp) : List (Nat × Nat) :=
  match o with
  | .mm inp out rows plane dir inFmt outFmt acc sr _ =>
    let p := (s.core c).planeAfter before plane
    let t : Stream := ⟨inp, out, rows, dir, inFmt, outFmt, acc, sr⟩
    if planeBad p [t] then [] else t.places p.k p.n
  | .dual desc plane shape =>
    let p := (s.core c).planeAfter before plane
    let t := dualStreams (s.ms.bytes desc 64)
    if s.checkDual c desc p (dualShape shape) = 0 then t.1.places p.k p.n ++ t.2.places p.k p.n else []
  | .wgrad desc =>
    let raw := s.ms.bytes desc (64 + (WgradDesc.of (s.ms.bytes desc 64)).maskBytes)
    if s.checkWgrad c desc = 0 then (wgradRun s.ms raw).places else []
  | _ => []

/-- Destinations of the OX instructions still queued: they had not completed either (R104). -/
def State.oxQueued (s : State) (c : Nat) : List (Nat × Nat) :=
  let q := (s.core c).ox.queue.filterMap (·.op)
  (List.range q.length).flatMap (fun i => match q[i]? with
    | some o => s.queuedDests c (q.take i) o
    | none => [])

/-- Destinations of every operation of core c that has started and not completed, and of its queued OX instructions. -/
def State.openDests (s : State) (c : Nat) : List (Nat × Nat) :=
  engUnits.flatMap (fun u => ((s.core c).eng u).running.flatMap (s.destsOf c)) ++ s.oxQueued c

/-- The destinations of stopped operations hold values nobody states. -/
def State.leaveOpen (s : State) (c : Nat) : State :=
  let n := s.free
  let ws := (s.openDests c).map (fun d => (d.1, (List.range d.2).map (fun i => Config.haltedByte n (d.1 + i))))
  let s := (s.homeWrites (some c) ws 0).1
  { s with free := n + 1 }

/-- Who sent a request was core c. -/
def ReqOwner.ofCore (c : Nat) : ReqOwner → Bool
  | .copy d _ _ => d == c
  | .msg d _ => d == c
  | _ => false

/-- The sequencer and the engines of core c as an abort leaves them; what the host can still read stays. -/
def Core.halted (k : Core) : Core :=
  let none_ : EngQueue := {}
  { k.closeRegions with
    id := { k.id with active := false }
    ringHeld := false, ringIn := [], creditsBack := 0
    seq := { k.closeRegions.seq with sb := [], wait := .none, stall := .none, ended := true, fetchEnded := true,
                                     launchHeld := none, buf := [] }
    ox := none_, vec := none_, row := none_, att := none_, gath := none_, mule := Vector.replicate 4 none_, msgq := none_,
    cacheq := none_
    planes := Vector.replicate 2 {}
    attr := { k.attr with slots := Vector.replicate 16 {} }
    cache := { k.cache with lines := [], pf := [] }
    msg := { k.msg with sends := [], holding := false } }

/-- Core c stops. A SEND under way is forgotten (DESIGN CHOICE, log 105). -/
def State.haltCore (s : State) (c : Nat) : State :=
  let s := (s.leaveOpen c).modCore c Core.halted
  s.modFab (fun f =>
    { f with out := f.out.filter (fun r => !r.owner.ofCore c), sched := f.sched.filter (fun x => x.core != c),
             rsigQ := f.rsigQ.filter (fun g => g.srcCore != c), failedMsgs := f.failedMsgs.filter (fun m => m.2.1 != c) })

/-- The QPs of partition p enter the error state. -/
def EthBlk.failQps (e : EthBlk) (p : Nat) : EthBlk :=
  { e with qps := e.qps.map (fun q => if q.part = p then { q with err := true } else q) }

/-- The Bellwethers of partition p stop fetching, and the members of its groups issue what remains on the ring and in
their buffers (R27). -/
def State.drainRing (s : State) (p : Nat) : State :=
  let cs := ((s.part p).cores p).filter (fun c => (s.core c).id.bcast)
  if cs.isEmpty then s
  else
    (cs.foldl (fun s c => s.modCore c (fun k =>
      { k.modSeq (fun q => { q with buf := q.buf ++ k.ringIn, launchHeld := none, fetchEnded := true }) with
        ringIn := [] })) s).settle

/-- An abort of partition p: first what R27 lets its members issue, then every core stops. -/
def State.abortPart (s : State) (p : Nat) : State :=
  let s := ((s.part p).cores p).foldl State.haltCore (s.drainRing p)
  let s := (List.range 2).foldl (fun s u => s.dropCmd u p) s
  let s := (s.closeRings p).releaseSlots p
  (s.modEth (fun e => { e.failQps p with armed := e.armed.filter (fun a => a.part != p) })).modPart p
    (fun x => { x with state := .aborted })

/-- What was under way when a warm reset came: every partition stops as by ABORT (R393), so members issue what remains (R27), and
started operations and running Bullock commands break off (R190, R223). -/
def State.breakOff (s : State) : State :=
  let s := (List.range 8).foldl (fun s p => if (s.part p).state = .running then s.drainRing p else s) s
  let s := (List.range 8).foldl State.leaveOpen s
  (List.range 8).foldl (fun s p => (List.range 2).foldl (fun s u => s.dropCmd u p) s) s

end Sys2Proof.Machine
end

