-- ==== Sys2Proof/Machine/Hbm.lean ====
section
/-! DEFINITION. The stack controllers and the heat caches as commands: requests, fills, epochs, scrub and their register
writes (R234 to R240, R251, R256 to R262, R267). -/

namespace Sys2Proof.Machine

/-! ## Heat cache (R236, R237, R240) -/

/-- Every frame of a die written back and freed (R240). -/
def MemSys.freeFrames (ms : MemSys) (die : Nat) : MemSys :=
  ((ms.hc.getD die {}).stackOld.foldl MemSys.unframe ms).modDie die (fun d => { d with frames := [], stackOld := [] })

/-- Frames freed and counter tables zeroed without writeback (R240, cold reset). -/
def MemSys.dropFrames (ms : MemSys) (die : Nat) : MemSys :=
  let d := ms.hc.getD die {}
  let ms := d.stackOld.foldl (fun m e => m.put (64 * e.1) (leBytes 64 e.2.toNat)) ms
  ms.modDie die (fun d => { d with frames := [], stackOld := [], counts := [], borrowed := 0 })

/-- HBM.HC_CTRL written (R240, R251). -/
def MemSys.writeHcCtrl (ms : MemSys) (v : Reg) : MemSys :=
  let thresh := fldN v 8 12
  let epoch := fldN v 24 16
  let keep := fldN v 40 4
  if thresh < 64 ∨ epoch = 0 ∨ keep = 0 then { ms with hcCtrl := { ms.hcCtrl with badWrite := true } }
  else
    let old := ms.hcCtrl.en
    let h : HcCtrl := { ms.hcCtrl with en := fld v 0 4, thresh := fld v 8 12, epoch := fld v 24 16, keepDiv := fld v 40 4,
                                       badWrite := ms.hcCtrl.badWrite && !bitB v 48 }
    (List.range 4).foldl (fun m d => if bitB old d && !bitB v d then m.freeFrames d else m) { ms with hcCtrl := h }

/-- HBM address of line ix of a heat page of a die. -/
def MemSys.pageLine (ms : MemSys) (die page ix : Nat) : Nat :=
  addrOfStack ms.hcCtrl.ilvMode (2 * die + page / 2 ^ 21) (page % 2 ^ 21 * 65536 + 64 * ix) / 64

/-- The fill of frame i reads its lines below `stop`, skipping valid lines and lines that LAST invalidated; a line that
the stack returns good becomes valid. At the last line the frame is VALID (R237). -/
def MemSys.fillTo (ms : MemSys) (ft : BitVec 64) (die i stop : Nat) : MemSys × List GEvent :=
  match (ms.hc.getD die {}).frames.find? (fun e => e.1 == i) with
  | some (_, f) =>
    if f.state = .filling then
      let want := ((List.range (stop - f.fillAt)).map (· + f.fillAt)).filter (fun k =>
        !f.valid.getLsbD k && !f.gone.getLsbD k)
      let r := want.foldl (fun (acc : MemSys × List GEvent × BitVec 1024) k =>
        let q := acc.1.stackRead ft (64 * ms.pageLine die f.page k) [] false
        (q.1, acc.2.1 ++ q.2.2.2, if q.2.2.1 then acc.2.2 else setBit acc.2.2 k)) (ms, [], f.valid)
      (r.1.putFrame die i { f with valid := r.2.2, fillAt := max stop f.fillAt, state := if stop < 1024 then .filling else .valid },
       r.2.1)
    else (ms, [])
  | none => (ms, [])

/-- A fill has read its page (R237). -/
def MemSys.fillDone (ms : MemSys) (ft : BitVec 64) (die i : Nat) : MemSys × List GEvent := ms.fillTo ft die i 1024

/-- A frame's fill reads its next line. -/
def MemSys.fillNext (ms : MemSys) (ft : BitVec 64) (die i : Nat) : MemSys × List GEvent :=
  match (ms.hc.getD die {}).frames.find? (fun e => e.1 == i) with
  | some (_, f) =>
    let next := (List.range (1024 - f.fillAt)).find? (fun k =>
      !f.valid.getLsbD (k + f.fillAt) && !f.gone.getLsbD (k + f.fillAt))
    ms.fillTo ft die i ((next.map (fun k => k + f.fillAt + 1)).getD 1024)
  | none => (ms, [])

/-- What the controllers do in a tick: every fill reads a line, and every pseudo-channel serves a request (DESIGN CHOICE,
log 109). -/
def State.hbmTick (s : State) : State :=
  let fills := (List.range 4).flatMap (fun d =>
    ((s.ms.hc.getD d {}).frames.filter (fun e => e.2.state == .filling)).map (fun e => (d, e.1)))
  let s := fills.foldl (fun s f => let r := s.ms.fillNext s.now f.1 f.2; { s with ms := r.1 }.logs r.2) s
  s.modMs MemSys.serveAll

/-- Aging of a frame at an epoch boundary (R236). -/
def Frame.age_ (f : Frame) (keepEpoch : Bool) : Frame :=
  let f' : Frame := { f with touched := false }
  if f.state = .valid ∧ f.touched = false ∧ (f.keep = false ∨ keepEpoch = true) then { f' with age := satInc f.age } else f'

/-- Epoch boundary: counts halve and frames age (R235, R236). -/
def MemSys.epoch (ms : MemSys) : MemSys :=
  let n := ms.hcCtrl.epochNo + 1
  let keepEpoch := n % max ms.hcCtrl.keepDiv.toNat 1 == 0
  let die (d : HcDie) : HcDie :=
    { d with counts := d.counts.map (fun e => (e.1, { e.2 with count := e.2.count >>> 1 })),
             frames := d.frames.map (fun e => (e.1, e.2.age_ keepEpoch)) }
  { ms with hcCtrl := { ms.hcCtrl with epochNo := n },
            hc := (List.range 4).foldl (fun v d => vmod v d die) ms.hc }

/-! ## Stack controllers (R258 to R262, R267) -/

/-- HBM.ECC_CTRL written. -/
def HbmRegs.writeEcc (h : HbmRegs) (v : Reg) : HbmRegs :=
  if fldN v 0 16 = 0 then { h with eccBad := true }
  else { h with retThresh := fld v 0 16, retEn := bitB v 16, demandWb := bitB v 17, eccBad := h.eccBad && !bitB v 24 }

/-- HBM.SCRUB_CTRL written. -/
def HbmRegs.writeScrub (h : HbmRegs) (v : Reg) : HbmRegs :=
  if fldN v 8 8 = 0 ∨ 168 < fldN v 8 8 then { h with scrubBad := true }
  else { h with scrubEn := bitB v 0, periodH := fld v 8 8, scrubBad := h.scrubBad && !bitB v 16 }

/-- A value written into RET0 or RET1: a pin 0 to 35, or 63; any other value has no effect. -/
def retWrite (old : BitVec 6) (v : Nat) : BitVec 6 := if v < 36 ∨ v = 63 then BitVec.ofNat 6 v else old

/-- HBM.PC_VIEW written for the selected pseudo-channel. -/
def MemSys.writePcView (ms : MemSys) (v : Reg) : MemSys :=
  let st := ms.hbm.pcSelStack.toNat
  let pc := ms.hbm.pcSelPc.toNat
  let p := ms.pcState st pc
  ms.setPc st pc { p with ret0 := retWrite p.ret0 (fldN v 0 6), ret1 := retWrite p.ret1 (fldN v 8 6) }

/-- The patrol scrub reads the next line of a stack (R262); at the end of a pass the counts clear (R258). -/
def MemSys.scrub (ms : MemSys) (ft : BitVec 64) (st : Nat) (errs : List Nat) : MemSys × List GEvent :=
  let r := ms.hbm.stackRegs.getD st {}
  let a := addrOfStack ms.hcCtrl.ilvMode st (64 * r.scrubLine.toNat)
  let (ms, _, _, ev) := ms.stackRead ft a errs true
  let last := r.scrubLine == BitVec.allOnes 31
  (ms.modStack st (fun r =>
    let r : StackRegs := { r with scrubLine := r.scrubLine + 1 }
    if last then
      { r with passes := satInc r.passes,
               pcs := r.pcs.map (fun e => (e.1, { e.2 with cands := [], refused := false })) }
    else r), ev)

/-! ## Requests (R234) -/

/-- A read of the line that holds address a. -/
def State.hbmRead (s : State) (a hint : Nat) (errs : List Nat) : State :=
  let a := roundDown a 64
  let resident := (s.ms.residentFrame (s.ms.loc a)).isSome
  let (ms, data, bad, ev) :=
    if resident then
      let bad := s.ms.framePoison (a / 64)
      let r := if bad then s.ms.noteMerges s.now [a / 64] else (s.ms, [])
      (r.1, s.ms.line (a / 64), bad, r.2)
    else s.ms.stackRead s.now a errs false
  let ms := ms.touchRead (a / 64) hint
  let out : HbmResp := { addr := a, data := data, poisoned := bad, code := if bad then [] else codeword data }
  { s with ms := { ms with resp := some out } }.logs ev

/-- A write of bytes within one line; what is written beyond the line is cut off. A merge reads the line first (R261). -/
def State.hbmWrite (s : State) (a : Nat) (bs : List Byte) (hint : Nat) (errs : List Nat) : State :=
  let bs := bs.take (64 - a % 64)
  let resident := (s.ms.residentFrame (s.ms.loc a)).isSome
  let s :=
    if resident ∨ bs.length = 64 ∨ errs.isEmpty ∨ s.ms.ue.contains (a / 64) then s
    else
      let (ms, _, bad, ev) := s.ms.stackRead s.now a errs false
      -- an uncorrectable merge read is recorded by the write itself; a merge stores what its read returned
      if bad then { s with ms := { s.ms with ue := (a / 64) :: s.ms.ue, freeNo := ms.freeNo } }
      else { s with ms := ms.fresh (a / 64) }.logs ev
  let r := s.homeWrite none a bs hint
  let line := r.1.ms.line (a / 64)
  let out : HbmResp := { addr := roundDown a 64, data := line, poisoned := r.2, code := if r.2 then [] else codeword line }
  r.1.modMs (fun m => { m with resp := some out })

/-! ## Rows -/

/-- HC_CTRL_WRITE (R240, R251). -/
def execHcCtrlWrite (v : Reg) (s : State) : Out := .next (s.modMs (fun m => m.writeHcCtrl v))

/-- ECC_CTRL_WRITE (R267). -/
def execEccCtrlWrite (v : Reg) (s : State) : Out := .next (s.modMs (fun m => { m with hbm := m.hbm.writeEcc v }))

/-- SCRUB_CTRL_WRITE (R267). -/
def execScrubCtrlWrite (v : Reg) (s : State) : Out := .next (s.modMs (fun m => { m with hbm := m.hbm.writeScrub v }))

/-- PC_VIEW_WRITE (R267). -/
def execPcViewWrite (v : Reg) (s : State) : Out := .next (s.modMs (fun m => m.writePcView v))

/-- HBM_REQUEST (R234): a read, or a write of the given bytes, with its hint and the pins in error on the stack. -/
def execHbmRequest (a : BitVec 40) (wr : Option (List Byte)) (hint : Fin 4) (pins : List (Fin 36)) (s : State) : Out :=
  if s.stopped then .next s else
  match wr with
  | none => .next (s.hbmRead a.toNat hint.val (pins.map (·.val)))
  | some bs => .next (s.hbmWrite a.toNat bs hint.val (pins.map (·.val)))

/-- FILL_COMPLETE (R237). -/
def execFillComplete (d : DieId) (frame : Fin 1024) (s : State) : Out :=
  if s.stopped then .next s else
  let r := s.ms.fillDone s.now d.val frame.val
  .next ({ s with ms := r.1 }.logs r.2)

/-- EPOCH_BOUNDARY (R235, R236). -/
def execEpochBoundary (s : State) : Out :=
  if s.stopped then .next s else .next (s.modMs MemSys.epoch)

/-- SCRUB_READ (R262); nothing while the scrub is not running. -/
def execScrubRead (st : StackId) (pins : List (Fin 36)) (s : State) : Out :=
  if s.stopped then .next s else
  if s.ms.hbm.scrubEn then
    let r := s.ms.scrub s.now st.val (pins.map (·.val))
    .next ({ s with ms := r.1 }.logs r.2)
  else .next s

end Sys2Proof.Machine
end

