-- ==== Sys2Proof/Machine/SlhDsa.lean ====
section
/-! DEFINITION. SLH-DSA of FIPS 205 for the two parameter sets of R403, both with SHA-256 and n = 16 (FIPS 205's text stands
outside the spec: PRESUMED, log 140). A hash value of n bytes is a node; a signature is a list of nodes. -/

namespace Sys2Proof.Machine

/-- Parameter sets that the module uses (R403). -/
inductive SlhParam where
  | sha2_128s | sha2_128f
  deriving DecidableEq, Repr

/-- Layers of trees, height of one, height and number of the FORS trees. -/
structure SlhSet where
  layers  : Nat
  height  : Nat
  forsA   : Nat
  forsK   : Nat
  deriving DecidableEq, Repr

def SlhParam.set : SlhParam → SlhSet
  | .sha2_128s => { layers := 7, height := 9, forsA := 12, forsK := 14 }
  | .sha2_128f => { layers := 22, height := 3, forsA := 6, forsK := 33 }

/-- Bytes of a message digest that select the FORS leaves, the tree and its leaf. -/
def SlhSet.mdBytes (p : SlhSet) : Nat := (p.forsK * p.forsA + 7) / 8
def SlhSet.treeBits (p : SlhSet) : Nat := p.height * (p.layers - 1)
def SlhSet.treeBytes (p : SlhSet) : Nat := (p.treeBits + 7) / 8
def SlhSet.leafBytes (p : SlhSet) : Nat := (p.height + 7) / 8

/-- Nodes of a signature: R, the FORS part, the hypertree part. -/
def SlhSet.sigNodes (p : SlhSet) : Nat := 1 + p.forsK * (1 + p.forsA) + p.layers * (35 + p.height)

/-- An address; `pair`, `mid` and `last` are its words after the type (key pair; chain or tree height; hash or tree index). -/
structure SlhAdrs where
  layer : Nat := 0
  tree  : Nat := 0
  type  : Nat := 0
  pair  : Nat := 0
  mid   : Nat := 0
  last  : Nat := 0
  deriving DecidableEq, Repr

/-- The compressed address of 22 bytes. -/
def SlhAdrs.bytes (a : SlhAdrs) : List Byte :=
  beBytes 1 a.layer ++ beBytes 8 a.tree ++ beBytes 1 a.type ++ beBytes 4 a.pair ++ beBytes 4 a.mid ++ beBytes 4 a.last

/-- The tweakable hashes F, H and T, and PRF: SHA-256 behind a block of PK.seed, cut to n bytes. -/
def slhHash (seed : List Byte) (a : SlhAdrs) (x : List Byte) : List Byte :=
  (sha256 (seed ++ List.replicate 48 0 ++ a.bytes ++ x)).take 16

/-- First n digits of b bits of a byte string, most significant first. -/
def slhDigits (b n : Nat) (x : List Byte) : List Nat :=
  (List.range n).map (fun i => beNat x / 2 ^ (8 * x.length - b * (i + 1)) % 2 ^ b)

/-! ## One-time signatures -/

/-- The 32 digits of a node and the three of their checksum. -/
def wotsDigits (m : List Byte) : List Nat :=
  let ds := slhDigits 4 32 m
  ds ++ slhDigits 4 3 (beBytes 2 (16 * (ds.map (fun d => 15 - d)).foldl (· + ·) 0))

/-- `steps` further links of a chain, from link i on. -/
def wotsChain (seed : List Byte) (a : SlhAdrs) : Nat → Nat → List Byte → List Byte
  | 0, _, x => x
  | n + 1, i, x => wotsChain seed a n (i + 1) (slhHash seed { a with last := i } x)

/-- Start of chain c of a key pair. -/
def wotsSecret (sk seed : List Byte) (a : SlhAdrs) (c : Nat) : List Byte := slhHash seed { a with type := 5, mid := c } sk

/-- The public key that the tops of the chains give. -/
def wotsPublic (seed : List Byte) (a : SlhAdrs) (tops : List (List Byte)) : List Byte := slhHash seed { a with type := 1 } tops.flatten

def wotsKey (sk seed : List Byte) (a : SlhAdrs) : List Byte :=
  wotsPublic seed a ((List.range 35).map (fun c => wotsChain seed { a with mid := c } 15 0 (wotsSecret sk seed a c)))

def wotsSign (sk seed : List Byte) (a : SlhAdrs) (m : List Byte) : List (List Byte) :=
  (wotsDigits m).zipIdx.map (fun d => wotsChain seed { a with mid := d.2 } d.1 0 (wotsSecret sk seed a d.2))

/-- The public key under which 35 nodes sign m. -/
def wotsFromSig (seed : List Byte) (a : SlhAdrs) (sig : List (List Byte)) (m : List Byte) : List Byte :=
  wotsPublic seed a ((wotsDigits m).zipIdx.map (fun d => wotsChain seed { a with mid := d.2 } (15 - d.1) d.1 (sig.getD d.2 [])))

/-! ## Trees -/

/-- Node i at height z of a tree with the leaves `leaf`. -/
def treeNode (seed : List Byte) (a : SlhAdrs) (leaf : Nat → List Byte) : Nat → Nat → List Byte
  | 0, i => leaf i
  | z + 1, i => slhHash seed { a with mid := z + 1, last := i } (treeNode seed a leaf z (2 * i) ++ treeNode seed a leaf z (2 * i + 1))

/-- The siblings on the way up from leaf i, through `heights` heights. -/
def treePath (seed : List Byte) (a : SlhAdrs) (leaf : Nat → List Byte) (heights i : Nat) : List (List Byte) :=
  (List.range heights).map (fun j => treeNode seed a leaf j ((i / 2 ^ j) ^^^ 1))

/-- The root that siblings give: node x stands at index i of height k. -/
def treeClimb (seed : List Byte) (a : SlhAdrs) : List (List Byte) → Nat → Nat → List Byte → List Byte
  | [], _, _, x => x
  | y :: path, k, i, x =>
    treeClimb seed a path (k + 1) (i / 2) (slhHash seed { a with mid := k + 1, last := i / 2 } (if i % 2 = 0 then x ++ y else y ++ x))

/-- Key pair i of a tree of the hypertree, and the tree's inner nodes. -/
def SlhAdrs.leafOf (a : SlhAdrs) (i : Nat) : SlhAdrs := { layer := a.layer, tree := a.tree, pair := i }
def SlhAdrs.inner (a : SlhAdrs) : SlhAdrs := { layer := a.layer, tree := a.tree, type := 2 }

def xmssNode (sk seed : List Byte) (a : SlhAdrs) (z i : Nat) : List Byte :=
  treeNode seed a.inner (fun i => wotsKey sk seed (a.leafOf i)) z i

/-- A node signed by leaf i of a tree: the one-time signature and the path. -/
def xmssSign (sk seed : List Byte) (a : SlhAdrs) (h i : Nat) (m : List Byte) : List (List Byte) :=
  wotsSign sk seed (a.leafOf i) m ++ treePath seed a.inner (fun i => wotsKey sk seed (a.leafOf i)) h i

def xmssFromSig (seed : List Byte) (a : SlhAdrs) (i : Nat) (sig : List (List Byte)) (m : List Byte) : List Byte :=
  treeClimb seed a.inner (sig.drop 35) 0 i (wotsFromSig seed (a.leafOf i) (sig.take 35) m)

/-- The hypertree from layer j up: each tree's root is signed by the next. -/
def hyperSign (sk seed : List Byte) (h : Nat) : Nat → Nat → Nat → Nat → List Byte → List (List Byte)
  | 0, _, _, _, _ => []
  | n + 1, j, tree, leaf, m =>
    let a : SlhAdrs := { layer := j, tree := tree }
    let sig := xmssSign sk seed a h leaf m
    sig ++ hyperSign sk seed h n (j + 1) (tree / 2 ^ h) (tree % 2 ^ h) (xmssFromSig seed a leaf sig m)

/-- The root of the hypertree that a signature gives. -/
def hyperRoot (seed : List Byte) (h : Nat) : Nat → Nat → Nat → Nat → List (List Byte) → List Byte → List Byte
  | 0, _, _, _, _, m => m
  | n + 1, j, tree, leaf, sig, m =>
    hyperRoot seed h n (j + 1) (tree / 2 ^ h) (tree % 2 ^ h) (sig.drop (35 + h))
      (xmssFromSig seed { layer := j, tree := tree } leaf (sig.take (35 + h)) m)

/-! ## Few-time signatures -/

/-- Secret value and leaf of index i over all FORS trees. -/
def forsSecret (sk seed : List Byte) (a : SlhAdrs) (i : Nat) : List Byte := slhHash seed { a with type := 6, last := i } sk
def forsLeaf (sk seed : List Byte) (a : SlhAdrs) (i : Nat) : List Byte := slhHash seed { a with last := i } (forsSecret sk seed a i)

/-- The leaf of each FORS tree that a digest selects, numbered over all trees. -/
def SlhSet.forsLeaves (p : SlhSet) (md : List Byte) : List Nat :=
  (slhDigits p.forsA p.forsK md).zipIdx.map (fun d => d.2 * 2 ^ p.forsA + d.1)

def forsSign (p : SlhSet) (sk seed : List Byte) (a : SlhAdrs) (md : List Byte) : List (List Byte) :=
  (p.forsLeaves md).flatMap (fun i => forsSecret sk seed a i :: treePath seed a (forsLeaf sk seed a) p.forsA i)

/-- The FORS public key that a signature gives. -/
def forsFromSig (p : SlhSet) (seed : List Byte) (a : SlhAdrs) (sig : List (List Byte)) (md : List Byte) : List Byte :=
  let root (i t : Nat) : List Byte :=
    let part := (sig.drop (t * (1 + p.forsA))).take (1 + p.forsA)
    treeClimb seed a (part.drop 1) 0 i (slhHash seed { a with last := i } (part.headD []))
  slhHash seed { a with type := 4 } ((p.forsLeaves md).zipIdx.flatMap (fun i => root i.1 i.2))

/-! ## Keys and signatures -/

/-- What a message selects: the FORS digest, the tree and the leaf of the lowest layer. -/
structure SlhPick where
  md   : List Byte
  tree : Nat
  leaf : Nat
  deriving DecidableEq, Repr

/-- MGF1 with SHA-256, for at most 64 bytes. -/
def mgf64 (x : List Byte) (n : Nat) : List Byte := (sha256 (x ++ beBytes 4 0) ++ sha256 (x ++ beBytes 4 1)).take n

/-- H_msg and the parts of its result. -/
def SlhSet.pick (p : SlhSet) (r seed root m : List Byte) : SlhPick :=
  let t := p.mdBytes + p.treeBytes
  let d := mgf64 (r ++ seed ++ sha256 (r ++ seed ++ root ++ m)) (t + p.leafBytes)
  { md := d.take p.mdBytes, tree := beNat (slice d p.mdBytes p.treeBytes) % 2 ^ p.treeBits,
    leaf := beNat (slice d t p.leafBytes) % 2 ^ p.height }

/-- Address of the FORS trees under a leaf. -/
def SlhPick.fors (x : SlhPick) : SlhAdrs := { tree := x.tree, type := 3, pair := x.leaf }

/-- PK.root of the key generation: parameter set, SK.seed, PK.seed (R409). -/
@[irreducible] def slhRoot (u : SlhParam) (sk seed : List Byte) : List Byte :=
  xmssNode sk seed { layer := u.set.layers - 1 } u.set.height 0

/-- The signature over a message M': SK.seed, SK.prf, PK.seed and PK.root, and opt_rand (R403, R412). -/
@[irreducible] def slhSign (u : SlhParam) (sk prf seed root m rand : List Byte) : List Byte :=
  let p := u.set
  let r := (hmac256 prf (rand ++ m)).take 16
  let x := p.pick r seed root m
  let few := forsSign p sk seed x.fors x.md
  (r :: few ++ hyperSign sk seed p.height p.layers 0 x.tree x.leaf (forsFromSig p seed x.fors few x.md)).flatten

/-- The signature over M' verifies under the public key PK.seed and PK.root (R403, R405). -/
@[irreducible] def slhVerify (u : SlhParam) (pk m sig : List Byte) : Bool :=
  let p := u.set
  let seed := pk.take 16
  let root := pk.drop 16
  let nodes := (List.range p.sigNodes).map (fun i => slice sig (16 * i) 16)
  let x := p.pick (nodes.headD []) seed root m
  let cut := 1 + p.forsK * (1 + p.forsA)
  sig.length == 16 * p.sigNodes
    && hyperRoot seed p.height p.layers 0 x.tree x.leaf (nodes.drop cut) (forsFromSig p seed x.fors ((nodes.take cut).drop 1) x.md) == root

end Sys2Proof.Machine
end

