-- ==== Sys2Proof/Machine/Keys.lean ====
section
/-! DEFINITION. Signatures in the forms of R403, the identity key (R409, R415) and the random numbers (R411). -/

namespace Sys2Proof.Machine

/-! ## Signatures (R403) -/

/-- A string of ASCII characters as bytes, without a terminator. -/
def ascii (t : String) : List Byte := t.toList.map (fun c => BitVec.ofNat 8 c.toNat)

/-- What each use of a signature binds it to. -/
inductive SigUse where
  | firmware | debugUnlock | report
  deriving DecidableEq, Repr

def SigUse.param : SigUse → SlhParam
  | .firmware | .debugUnlock => .sha2_128s
  | .report => .sha2_128f

def SigUse.context : SigUse → List Byte
  | .firmware => ascii "GQKT8FW"
  | .debugUnlock => ascii "GQKT8DB"
  | .report => ascii "GQKT8AT"

/-- Object identifier of SHA-256 in DER, which HashSLH-DSA puts before the digest. -/
def oidSha256 : List Byte := [0x06, 0x09, 0x60, 0x86, 0x48, 0x01, 0x65, 0x03, 0x04, 0x02, 0x01]

/-- The message M' of FIPS 205 that is signed: of the message itself (pure) or, for firmware, of its SHA-256 digest (HashSLH-DSA). -/
def SigUse.message (u : SigUse) (m : List Byte) : List Byte :=
  let ctx := BitVec.ofNat 8 u.context.length :: u.context
  match u with
  | .firmware => 1 :: ctx ++ oidSha256 ++ m
  | .debugUnlock | .report => 0 :: ctx ++ m

/-- A signature over `m` (firmware: over its digest) verifies under a 32-byte public key. -/
def sigOk (u : SigUse) (key : BitVec 256) (m sig : List Byte) : Bool :=
  slhVerify u.param (leBytes 32 key.toNat) (u.message m) sig

/-! ## Identity (R409, R415) -/

/-- HKDF-SHA-256 (RFC 5869) with a salt of 32 zero bytes, for at most 64 bytes. -/
def hkdf (ikm info : List Byte) (len : Nat) : List Byte :=
  let prk := hmac256 (List.replicate 32 0) ikm
  let t1 := hmac256 prk (info ++ [1])
  (t1 ++ hmac256 prk (t1 ++ info ++ [2])).take len

/-- SK.seed, SK.prf and PK.seed that the key unit derives: from the device secret, or from 32 zero bytes at an unlocked start. -/
def SecBlk.identity (x : SecBlk) : List Byte :=
  hkdf (if x.debug then List.replicate 32 0 else leBytes 32 x.secret.toNat) (ascii "KT8 identity 1") 48

/-- PK.seed and PK.root of identity seeds. -/
def idPublic (seeds : List Byte) : List Byte :=
  slice seeds 32 16 ++ slhRoot SigUse.report.param (seeds.take 16) (slice seeds 32 16)

/-- Word w of the signature over a report: pure, deterministic with opt_rand = PK.seed. -/
def reportSig (seeds report : List Byte) (w : Nat) : BitVec 64 :=
  let pk := idPublic seeds
  let sig := slhSign SigUse.report.param (seeds.take 16) (slice seeds 16 16) (pk.take 16) (pk.drop 16) (SigUse.report.message report)
    (slice seeds 32 16)
  BitVec.ofNat 64 (leNat (slice sig (8 * w) 8))

/-! ## Random numbers (R411): the Hash_DRBG of NIST SP 800-90A with SHA-256, whose seeds have 440 bits -/

/-- Most significant byte first. -/
def bigBytes (n v : Nat) : List Byte := (leBytes n v).reverse

/-- Hash_df for 440 bits. -/
def hashDf (m : List Byte) : BitVec 440 :=
  let block (i : Byte) : List Byte := sha256 (i :: bigBytes 4 440 ++ m)
  BitVec.ofNat 440 (leNat ((block 1 ++ block 2).take 55).reverse)

/-- The state that a seed gives. -/
def Drbg.seeded (m : List Byte) : Drbg :=
  let v := hashDf m
  { v := v, c := hashDf (0 :: bigBytes 55 v.toNat), count := 1 }

/-- A reseed with an input of the entropy source. -/
def Drbg.reseed (d : Drbg) (e : BitVec 440) : Drbg := Drbg.seeded (1 :: bigBytes 55 d.v.toNat ++ bigBytes 55 e.toNat)

/-- A request for 256 bits: the value, and the state after it. -/
def Drbg.request (d : Drbg) : BitVec 256 × Drbg :=
  let add (x : List Byte) : BitVec 440 := BitVec.ofNat 440 (leNat x.reverse)
  let h := sha256 (3 :: bigBytes 55 d.v.toNat)
  (BitVec.ofNat 256 (leNat (sha256 (bigBytes 55 d.v.toNat))),
   { d with v := d.v + add h + d.c + BitVec.ofNat 440 d.count, count := d.count + 1 })

/-- The DRBG ready for a request: seeded, and reseeded after 2^20 requests while the entropy source is sound. -/
def SecBlk.drbgReady (x : SecBlk) : Drbg × Nat :=
  match x.drbg with
  | none => (Drbg.seeded (bigBytes 55 (Config.entropy x.drawn).toNat), x.drawn + 1)
  | some d => if 2 ^ 20 < d.count ∧ x.rngFail = false then (d.reseed (Config.entropy x.drawn), x.drawn + 1) else (d, x.drawn)

/-- The attempt to reseed that follows a health failure every second. -/
def SecBlk.retrySeed (x : SecBlk) : SecBlk :=
  match x.drbg with
  | some d =>
    { x with drbg := if Config.entropySound x.drawn then some (d.reseed (Config.entropy x.drawn)) else some d, drawn := x.drawn + 1 }
  | none => x

/-- 256 bits from the DRBG. -/
def SecBlk.draw (x : SecBlk) : BitVec 256 × SecBlk :=
  let r := x.drbgReady
  let y := r.1.request
  (y.1, { x with drbg := some y.2, drawn := r.2 })

end Sys2Proof.Machine
end

