-- ==== Sys2Proof/Machine/Plant.lean ====
section
/-! DEFINITION. What power and plant follow from: throttle reasons, the limit in force, duties, plant faults, the thermal model
and the cap controller (R365, R370 to R377). -/

namespace Sys2Proof.Machine

def meanNat (l : List Nat) : Nat := if l.isEmpty then 0 else l.foldl (· + ·) 0 / l.length

/-- A field of the option bytes in force. -/
def FlashBlk.opt (f : FlashBlk) (off n : Nat) : Nat := leAt f.ob off n

def FlashBlk.scHeld (f : FlashBlk) : Bool := !f.sc.isEmpty
def FlashBlk.scAt (f : FlashBlk) (off n : Nat) : Nat := leAt f.sc off n

/-- THERMAL of the option bytes: the heatsink of an air part (R18, R388). -/
def FlashBlk.heatsink (f : FlashBlk) : Bool := f.opt 7 1 == 1

/-! ## Reasons (R373) -/

/-- The reasons asserted. -/
def PwrBlk.reasons (p : PwrBlk) (throttleN hot : Bool) : BitVec 8 :=
  let a (r : Nat) : Bool := decide (0 < p.allow.getD r 0)
  BitVec.ofNat 8 (b2n (a 0) + 2 * b2n (a 1 || p.halved) + 4 * b2n (a 2) + 8 * b2n (decide (95 ≤ p.hbmMax.toNat))
    + 16 * b2n (p.plantFault || hot) + 32 * b2n (!throttleN || p.throttleHold) + 64 * b2n (!p.estTrusted)
    + 128 * b2n (decide (75 ≤ p.optMax.toNat)))

/-- What the reasons but the power cap allow. -/
def PwrBlk.othersIdx (p : PwrBlk) : Nat := (p.allow.toList.drop 1).foldl max 0

/-- Lowest index that every reason allows. -/
def PwrBlk.floorIdx (p : PwrBlk) : Nat := p.allow.toList.foldl max 0

/-- The reason whose allowance is the lowest, ties to the lower bit; 15 for none. -/
def PwrBlk.limitingNow (p : PwrBlk) : Nat :=
  if p.floorIdx = 0 then 15 else ((List.range 8).find? (fun r => p.allow.getD r 0 == p.floorIdx)).getD 15

/-- The inlet's limit (R374). -/
def State.inletTop (s : State) : Nat := if s.fl.heatsink then 35 else 40

/-- The inlet reads above its limit (R377). -/
def State.inletHot (s : State) : Bool := decide (s.inletTop < s.pwr.inlet.toNat)

/-- ASSERTED, SEEN and LIMITING follow the reasons. -/
def State.reassess (s : State) : State :=
  let hot := s.inletHot
  let thr := s.pins.throttleN
  s.modPwr (fun p =>
    let a := p.reasons thr hot
    { p with asserted := a, seen := p.seen ||| a, limiting := BitVec.ofNat 4 p.limitingNow })

def PwrBlk.setAllow (p : PwrBlk) (r i : Nat) : PwrBlk := { p with allow := vmod p.allow r (fun _ => i) }

/-! ## The limit in force (R17, R370, R376, R377) -/

/-- The limit in force: the lowest of ceiling, configuration and cap, less a plant fault and a hot inlet. With no valid
standing configuration there is no SC_LIMIT_W, and the lowest is of the other two (DESIGN CHOICE, log 111). -/
def State.limitNow (s : State) : Nat :=
  let p := s.pwr
  let base := min p.ceilingW.toNat (min (if s.fl.scHeld then p.scLimitW.toNat else p.ceilingW.toNat) p.capInForce.toNat)
  let base := if p.plantFault ∧ s.fl.scHeld = true then min base p.plantFaultW.toNat
    else if p.plantFault then min base (p.ceilingW.toNat * 60 / 100) else base
  let excess := p.inlet.toNat - s.inletTop
  if excess = 0 then base else max (min 600 base) (base - excess * (if s.fl.heatsink then 40 else 50))

def State.setLimit (s : State) : State :=
  let w := s.limitNow
  s.modPwr (fun p => { p with limitW := BitVec.ofNat 16 w })

/-! ## Plant outputs and faults (R376) -/

/-- Duty of output k under a command (R376, R381): full before the steward and during a plant fault, none where it is known to be
unused; an override is a floor below the model's command. -/
def PwrBlk.dutyAt (p : PwrBlk) (cmd k : Nat) : Nat :=
  let o := p.outs.getD k {}
  let known := p.stewardPlant || p.rolesRead
  if !p.stewardPlant && (o.role != 0 || !known) then 255
  else if o.override then max (if p.plantFault then 255 else cmd) o.ovrDuty.toNat
  else if o.role = 0 then 0
  else if p.plantFault then 255 else cmd

/-- Duty driven. -/
def PwrBlk.duty (p : PwrBlk) (k : Nat) : Nat := p.dutyAt p.plantCmd.toNat k

/-- Duties of the outputs in use under a command. -/
def PwrBlk.dutiesAt (p : PwrBlk) (cmd : Nat) : List Nat :=
  ((List.range 4).filter (fun k => (p.outs.getD k {}).role != 0)).map (p.dutyAt cmd)

/-- A condition of a plant fault appears (R376, R377): one record each; the fault is counted when it is new. -/
def State.raiseFault (s : State) (cond k : Nat) : State :=
  if s.pwr.conds.contains (cond, k) then s
  else
    let s := s.modPwr (fun p =>
      { p with plantFaults := if p.plantFault then p.plantFaults else satInc p.plantFaults, plantFault := true,
               conds := (cond, k) :: p.conds, plantCmd := 255 })
    ((s.log { source := 0x02, code := 0x05, detail := [(1, 1), (cond, 1), (k, 1)] }).setLimit).reassess

/-- A condition has gone; the fault stays until 10 s after the last one. -/
def PwrBlk.goneFault (p : PwrBlk) (cond k : Nat) : PwrBlk :=
  if p.conds.contains (cond, k) then { p with conds := p.conds.filter (fun c => c != (cond, k)), lastCond := (cond, k) } else p

/-- Pulses per second that a rate register's unit stands for: revolutions or millilitres per minute. -/
def PlantIn.perUnit (i : PlantIn) : Nat := if i.role = 2 then 60000 else 60

/-- RATE of an input at a pulse frequency; the rounding of the quotient is open. -/
def PlantIn.rateAt (i : PlantIn) (hz : Nat) : BitVec 16 :=
  let r := Config.roundReg (hz * i.perUnit : Int) (i.pulses.toNat : Int)
  BitVec.ofNat 16 (min 0xFFFF r.toNat)

/-- The pulses come slower than the minimum rate. -/
def PlantIn.slow (i : PlantIn) (hz : Nat) : Bool := decide (hz * i.perUnit < i.minimum.toNat * i.pulses.toNat)

/-- The input shows a fault (R376, R441): a tach below its minimum while its output runs at 25 % or more, a flow below its
minimum, or more than 20,000 pulses per second. -/
def PwrBlk.inputBad (p : PwrBlk) (k hz : Nat) : Bool :=
  let i := p.ins.getD k {}
  decide (i.role = 1 ∨ i.role = 2) &&
    (decide (20000 < hz) || (i.slow hz && (decide (i.role = 2) || decide (255 ≤ 4 * p.duty k))))

/-! ## The thermal model (R375) -/

/-- Parameters of the model in thousandths of a °C per W and in ms. -/
structure HeatParams where
  rJunction   : Nat
  tauJunction : Nat
  rBase       : Nat
  tauBase     : Nat
  horizon     : Nat
  deriving DecidableEq, Repr

/-- The parameters of the thermal hardware fitted: cold plate or heatsink (R18). -/
def FlashBlk.heatParams (f : FlashBlk) : HeatParams :=
  if f.heatsink then { rJunction := 18, tauJunction := 250, rBase := 32, tauBase := 60000, horizon := 30000 }
  else { rJunction := 18, tauJunction := 250, rBase := 12, tauBase := 6000, horizon := 2000 }

/-- e to the power of minus t / tau in units of 2^-64: the series at a 256th of the exponent, squared eight times. -/
def expDecay (t tau : Nat) : Nat :=
  let x : Nat := t * 2 ^ 56 / tau
  let series := (List.range 20).foldl (fun (a : Int × Int) i =>
    (a.1 + a.2, -(a.2 * (x : Int) / (2 ^ 64 * ((i : Int) + 1))))) ((0, 2 ^ 64) : Int × Int)
  (List.range 8).foldl (fun f _ => f * f / 2 ^ 64) series.1.toNat

/-- What is left of a temperature difference after a time with a time constant, both in ms: exact but for the rounding. -/
def decayed (t tau : Nat) (d : Int) : Int :=
  let x := d * (expDecay t tau : Int)
  if x % 2 ^ 64 = 0 then x / 2 ^ 64 else x / 2 ^ 64 + (if Config.roundsUp x then 1 else 0)

/-- What the model works from: parameters, kind of thermal hardware, inlet in °C. -/
structure HeatCtx where
  par   : HeatParams
  kind  : Nat
  inlet : Nat
  deriving DecidableEq, Repr

def State.heatCtx (s : State) : HeatCtx := { par := s.fl.heatParams, kind := b2n s.fl.heatsink, inlet := s.pwr.inlet.toNat }

/-- Resistance from base to coolant or air under these duties. -/
def HeatCtx.toAir (x : HeatCtx) (duties : List Nat) : Nat :=
  if duties.all (fun d => d == 255) then x.par.rBase else Config.baseResistance x.kind duties

/-- Base temperature that a power settles to. -/
def HeatCtx.settled (x : HeatCtx) (power : Nat) (duties : List Nat) : Int := 1000 * x.inlet + x.toAir duties * power

/-- Base temperature of a die now. -/
def HeatCtx.baseOf (x : HeatCtx) (d : DieHeat) : Int :=
  d.base.getD (Config.baseAtStart (d.junction / 1000).toNat x.inlet)

/-- One sample of 1 ms: the base moves toward what the power settles it to, the junction is the hottest sensor. -/
def HeatCtx.step (x : HeatCtx) (d : DieHeat) (power : Nat) (duties : List Nat) (junction : Nat) : DieHeat :=
  let d := { d with junction := 1000 * junction }
  let far := x.settled power duties
  let base := match d.base with
    | some b => far + decayed 1 x.par.tauBase (b - far)
    | none => x.baseOf d
  { d with base := some base }

/-- Junction temperature of a die at the horizon under a power. -/
def HeatCtx.predict (x : HeatCtx) (d : DieHeat) (power : Nat) (duties : List Nat) : Int :=
  let far := x.settled power duties
  let base := x.baseOf d
  let rise : Int := x.par.rJunction * power
  far + decayed x.par.horizon x.par.tauBase (base - far)
    + rise + decayed x.par.horizon x.par.tauJunction (d.junction - base - rise)

/-- The highest prediction of the four dies at a power and a plant command. -/
def PwrBlk.predicted (p : PwrBlk) (x : HeatCtx) (power cmd : Nat) : Int :=
  let ts := p.dies.toList.map (fun d => x.predict d power (p.dutiesAt cmd))
  ts.foldl max (ts.headD 0)

/-- The least command, no lower than `from_`, that keeps the prediction at or below 95 °C; full duty where none does. -/
def PwrBlk.leastCommand (p : PwrBlk) (x : HeatCtx) (power from_ : Nat) : Nat :=
  ((List.range 256).find? (fun c => decide (from_ ≤ c) && decide (p.predicted x power c ≤ 95000))).getD 255

/-! ## The cap controller (R365, R371) -/

/-- Input power of the present load at operating point i; `now`: its power at the present point `cur`. -/
def powerAt (now cur i : Nat) : Nat :=
  if i = cur then now
  else if cur < i then min now (Config.powerScaled now cur i)
  else max now (Config.powerScaled now cur i)

/-- n more intervals of a power keep the mean over 100 ms at or below a target. -/
def keepsMean (hist : List Nat) (target n power : Nat) : Bool :=
  let l := (List.replicate n power ++ hist).take 10000
  decide (l.foldl (· + ·) 0 ≤ target * l.length)

/-- What the controller allows next, and the pair it alternates between: powers of its view over 100 ms newest first, target
in W. Where the target lies between two adjacent points it takes the higher one for a period of 100 µs if that keeps the
mean, else the lower one. -/
def PwrBlk.capStep (p : PwrBlk) (hist : List Nat) (target : Nat) : PwrBlk :=
  let cur := p.opCur.toNat
  let at_ (i : Nat) : Nat := powerAt (hist.headD 0) cur i
  let needed := ((List.range 9).find? (fun i => keepsMean hist target 1 (at_ i))).getD 8
  match (List.range 8).find? (fun i => decide (target < at_ i ∧ at_ (i + 1) ≤ target)) with
  | some i =>
    if i + 1 < needed then { p.setAllow 0 needed with pair := none, phase := 0 }
    else if p.pair = some i ∧ p.phase < 9 then { p with phase := p.phase + 1 }
    else { p.setAllow 0 (if keepsMean hist target 10 (at_ i) then i else i + 1) with pair := some i, phase := 0 }
  | none =>
    let level := if at_ 0 ≤ target then 0 else 8
    { p.setAllow 0 (max level needed) with pair := none, phase := 0 }

/-- Index whose voltage the point needs: of an alternation, the higher point that the other reasons allow. -/
def PwrBlk.voltsIdx (p : PwrBlk) : Nat :=
  match p.pair with
  | some i => min p.opCur.toNat (max i p.othersIdx)
  | none => p.opCur.toNat

/-- The point follows the allowances: down at once, the frequency first; up one index per 1 ms, the voltage first, but within
an alternation the frequency alone moves. Reaching index 8 removes the emergency divider (R372). -/
def PwrBlk.move (p : PwrBlk) : PwrBlk :=
  let want := p.floorIdx
  let cur := p.opCur.toNat
  let at_ (i : Nat) : PwrBlk :=
    { p with opCur := BitVec.ofNat 4 i, opTarget := BitVec.ofNat 4 i, halved := p.halved && i != 8 }
  if cur < want then at_ want
  else if want < cur ∧ p.pair = some want ∧ p.vIdx ≤ want then at_ want
  else if want < cur ∧ 100 ≤ p.upTicks then { p with opTarget := BitVec.ofNat 4 (cur - 1), halved := p.halved && cur != 8 }
  else { p with opTarget := if want < cur then p.opTarget else p.opCur, halved := p.halved && cur != 8 }

end Sys2Proof.Machine
end

