-- ==== Sys2Proof/Machine/Boot.lean ====
section
/-! DEFINITION. Resets and starts: what a reset of each kind reaches, option bytes, standing configuration, firmware slots,
measurements, and the way to READY (R383 to R398, R404 to R408, R442). -/

namespace Sys2Proof.Machine

/-! ## The flash (R386) -/

def FlashBlk.bytes (f : FlashBlk) (a n : Nat) : List Byte := f.flash.readN 0xFF a n

def FlashBlk.put (f : FlashBlk) (a : Nat) (bs : List Byte) : FlashBlk := { f with flash := f.flash.writeN 0xFF a bs }

/-- A block whose last four bytes are the CRC-32 of the bytes before them. -/
def crcOk (bs : List Byte) : Bool := leAt bs (bs.length - 4) 4 == (crc32 (bs.take (bs.length - 4))).toNat

/-! ## Option bytes (R387 to R389) -/

def optionGood (bs : List Byte) : Bool := leAt bs 0 4 == 0x3854424F && crcOk bs

/-- The safe defaults. -/
def optionDefaults : List Byte :=
  List.replicate 6 0 ++ [0xFF, 1] ++ leBytes 2 1300 ++ leBytes 2 240 ++ leBytes 2 270 ++ leBytes 2 300 ++ List.replicate 240 0

/-- The option-byte loader. -/
def FlashBlk.loadOptions (f : FlashBlk) : FlashBlk :=
  let a := f.bytes 0 256
  let b := f.bytes 0x10000 256
  let ga := optionGood a
  let gb := optionGood b
  let used : Nat := if ga then 0 else if gb then 1 else 2
  { f with ob := if ga then a else if gb then b else optionDefaults, aOk := ga, bOk := gb, used := BitVec.ofNat 2 used,
           differ := ga && gb && a != b }

/-! ## Standing configuration (R390) -/

/-- Bytes of the layout that no field covers. -/
def scReserved : List (Nat × Nat) := [(0x2E, 2), (0x36, 2), (0x4C, 4), (0x56, 2), (0x6C, 4), (0x94, 4), (0xB8, 0x144)]

/-- MAGIC, CRC-32 and every field within its range. -/
def scValid (c : List Byte) : Bool :=
  let u8 (o : Nat) := leAt c o 1
  let rng (o lo hi : Nat) : Bool := decide (lo ≤ u8 o ∧ u8 o ≤ hi)
  leAt c 0 4 == 0x46435353 && crcOk c
    && rng 0xC 1 8 && rng 0xD 1 8 && rng 0xE 1 12 && rng 0xF 1 16 && rng 0x10 0 2
    && (u8 0x10 != 0 || (List.range 4).all (fun d => decide (u8 (0x11 + d) < u8 (0xC + d))))
    && rng 0x15 0 2 && rng 0x16 0 127 && rng 0x17 0 1
    && decide (600 ≤ leAt c 0x1C 2 ∧ leAt c 0x1C 2 ≤ 2000) && (leAt c 0x1E 2 == 0 || decide (600 ≤ leAt c 0x1E 2))
    && (List.range 16).all (fun g => leAt c 0x20 4 / 4 ^ g % 4 != 3)
    && decide (leAt c 0x26 2 + leAt c 0x28 2 ≤ 1024) && rng 0x2A 0 15 && rng 0x2B 0 15 && decide (leAt c 0x2C 2 < 8192)
    && (List.range 4).all (fun k => rng (0x90 + k) 0 2 && rng (0x98 + 8 * k) 0 2 && u8 (0x99 + 8 * k) == 0)
    && scReserved.all (fun r => allZero (slice c r.1 r.2))

/-- The copy in force: the valid one of higher GENERATION. -/
def FlashBlk.loadStanding (f : FlashBlk) : List Byte × Bool :=
  let a := f.bytes 0x30000 512
  let b := f.bytes 0x40000 512
  match scValid a, scValid b with
  | true, true => if (leAt a 4 4 + 2 ^ 32 - leAt b 4 4) % 2 ^ 32 < 2 ^ 31 then (a, false) else (b, true)
  | true, false => (a, false)
  | false, true => (b, true)
  | false, false => ([], false)

/-! ## Firmware images (R394, R404, R405) -/

/-- What a verified image says of itself. -/
structure FwImage where
  version  : Nat
  stepMask : Nat
  iflevel  : Nat
  bulMin   : Nat
  bulMax   : Nat
  key      : Nat
  svn      : Nat
  /-- SHA-256 of the signed message -/
  digest   : List Byte
  deriving DecidableEq, Repr

/-- The image in a slot, when it passes the checks of R405 in order. -/
def verifyImage (f : FlashBlk) (sec : SecBlk) (base size kind floor : Nat) : Option FwImage :=
  let h := f.bytes base 64
  let len := leAt h 0xC 4
  let at_ := base + 64 + roundUp len 64
  if leAt h 0 4 ≠ 0x4D57464B ∨ leAt h 4 1 ≠ kind ∨ size < 64 + roundUp len 64 + 64 + 7856 then none
  else
    let blk := f.bytes at_ 64
    let key := leAt blk 5 1
    let svn := leAt blk 6 2
    if leAt blk 0 4 ≠ 0x4E474953 ∨ leAt blk 4 1 ≠ 1 ∨ allZero (slice blk 8 56) = false then none
    else if 4 ≤ key ∨ sec.revoked.getLsbD key = true then none
    else if svn < floor then none
    else
      let digest := sha256 (f.bytes base (64 + len) ++ blk)
      if sigOk .firmware (Config.romKey key) digest (f.bytes (at_ + 64) 7856) then
        some { version := leAt h 8 4, stepMask := leAt h 0x10 4, iflevel := leAt h 0x14 2, bulMin := leAt h 0x16 2,
               bulMax := leAt h 0x18 2, key := key, svn := svn, digest := digest }
      else none

/-- Steward slot A or B. -/
def stSlotBase (b : Bool) : Nat := if b then 0x1100000 else 0x100000

/-- Bullock slot A or B. -/
def buSlotBase (b : Bool) : Nat := if b then 0x2900000 else 0x2100000

def State.stImage (s : State) (b : Bool) : Option FwImage :=
  verifyImage s.fl s.sec (stSlotBase b) 0x1000000 1 s.sec.floorSt.toNat

def State.buImage (s : State) (b : Bool) : Option FwImage :=
  verifyImage s.fl s.sec (buSlotBase b) 0x800000 2 s.sec.floorBu.toNat

/-- The boot record: preferred steward and Bullock slots; an invalid record means A for both. -/
def FlashBlk.bootRecord (f : FlashBlk) : Bool × Bool :=
  let r := f.bytes 0x20000 8
  if crcOk r then (r.getD 0 0 == 1, r.getD 1 0 == 1) else (false, false)

def bootRecordBytes (st bu : Bool) : List Byte :=
  let b : List Byte := [BitVec.ofNat 8 (b2n st), BitVec.ofNat 8 (b2n bu), 0, 0]
  b ++ leBytes 4 (crc32 b).toNat

/-- The boot record erased and written (R395, R400). -/
def FlashBlk.writeBoot (f : FlashBlk) (st bu : Bool) : FlashBlk :=
  { f with flash := f.flash.clearRange 0x20000 0x30000 }.put 0x20000 (bootRecordBytes st bu)

/-! ## Measurements (R408) -/

def digestOf (bs : List Byte) : BitVec 256 := BitVec.ofNat 256 (leNat (sha256 bs))

/-- M i extended with the 32 bytes of D. -/
def SecBlk.extend (x : SecBlk) (i : Nat) (d : List Byte) : SecBlk :=
  { x with meas := vmod x.meas i (fun m => digestOf (leBytes 32 m.toNat ++ d)) }

/-! ## What a reset reaches (R384) -/

/-- Memories after a reset. -/
def MemSys.onReset (ms : MemSys) (cold : Bool) : MemSys :=
  if cold then { freeNo := ms.freeNo }
  else
    let m := (List.range 4).foldl MemSys.freeFrames ms
    { m with
      mem := (List.range 8).foldl (fun x c => Mem.clearRange x (ctlBase c) (ctlBase c + 0x400000)) m.mem
      hc := Vector.replicate 4 {}, hcCtrl := { m.hcCtrl with epochNo := 0 }, preg := Vector.replicate 128 {}, pinned := [],
      resp := none }

/-- Fabric time after a reset: a cold one starts it again, a warm one takes the tables away. -/
def TimeBlk.onReset (t : TimeBlk) (cold : Bool) : TimeBlk :=
  if cold then {}
  else
    { t with schedEn := false, slots := [], frameM1 := 0, lateSlots := 0, schedTag := 0, schedEpoch := 0, fallback := 0,
             lateOps := 0, transitFb := 0, fbDrop := 0, slTag := 0, slTrunk := 0, slCore := 0, slCause := 0,
             slTransit := false, slValid := false, slOverwritten := false, selSlot := 0, selTrunk := 0, slotBad := false }

/-- A port after a warm reset. -/
def EthPort.onWarm (p : EthPort) : EthPort :=
  { p with roleCtrl := false, roleBulk := false, nakSent := 0, rejAddr := 0, cnpSent := 0, rnrSent := 0 }

def EthBlk.onReset (e : EthBlk) (cold : Bool) : EthBlk :=
  if cold then { replies := e.replies }
  else
    let p (i : Nat) : EthPort := (e.ports.getD i {}).onWarm
    { replies := e.replies, ports := #v[p 0, p 1], ptp := e.ptp }

/-- The PWR block after a reset (R381, R384, log 60). The pin THROTTLE_N holds index 8 through it (R378); the thermal model
is the firmware's and starts anew. -/
def PwrBlk.onReset (p : PwrBlk) (cold throttleN : Bool) : PwrBlk :=
  if cold then
    let q : PwrBlk := { switchOn := p.switchOn, stopThermal := p.stopThermal, stopBrown := p.stopBrown,
                         stopEn := p.stopEn }
    if throttleN then q else { q.setAllow 5 8 with throttleHours := p.throttleHours }
  else
    { p with opCur := 8, opTarget := 8, vIdx := 8, halved := false, idleStopped := 0xFF, stopOver := false, pair := none,
             phase := 0, dies := Vector.replicate 4 {} }

/-- RESETS and BOOT_FAIL start at 0 with a power-on (R383, R400). -/
def RstBlk.onReset (r : RstBlk) : RstBlk :=
  { cause := r.cause, bootFail := if r.powerUp then 0 else r.bootFail, resets := if r.powerUp then 0 else satInc r.resets,
    held := r.held }

/-- The option bytes in force stay until the start reloads them: the SMBus shows their SERIAL through a reset (R443). -/
def FlashBlk.onReset (f : FlashBlk) : FlashBlk := { flash := f.flash, ob := f.ob }

/-- The fuse operation that runs completes before a reset proceeds (R407). -/
def SecBlk.fuseDone (x : SecBlk) : SecBlk :=
  match x.fuses with
  | .commitSt :: _ => { x with floorSt := BitVec.ofNat 7 (max x.floorSt.toNat (min 64 x.stSvn.toNat)) }
  | .commitBu :: _ => { x with floorBu := BitVec.ofNat 7 (max x.floorBu.toNat (min 64 x.buSvn.toNat)) }
  | .revoke k :: _ => { x with revoked := setBit x.revoked k }
  | [] => x

/-- The Goose record of a fuse change. -/
def SecBlk.fuseEvent (x : SecBlk) : GEvent :=
  { source := 0x07, code := 0x01, detail := [(x.fuseBits.toNat, 1), (x.floorSt.toNat, 1), (x.floorBu.toNat, 1)] }

/-- Fuses, DRBG and the mark of an unlock stay through every reset. -/
def SecBlk.onReset (x : SecBlk) (cold : Bool) : SecBlk :=
  let y : SecBlk := { revoked := x.revoked, floorSt := x.floorSt, floorBu := x.floorBu, secret := x.secret, drbg := x.drbg,
                      drawn := x.drawn, unlockNext := x.unlockNext }
  if cold then y
  else
    { y with debug := x.debug, injUsed := x.injUsed, rngFail := x.rngFail, reportId := x.reportId, attId := x.attId }

def PinBlk.onReset (p : PinBlk) (cold : Bool) : PinBlk :=
  if cold then
    { p with slotId := p.slotPins, slotChanged := false, pwrGood := false, uartFrame := 0, uartCrc := 0, smbTimeout := 0,
             glitch := 0, uartPart := [] }
  else { p with slotId := p.slotPins, uartPart := [] }

/-- Everything a reset clears is at its reset value. -/
def State.teardown (s : State) (cold : Bool) : State :=
  let s := if cold then s else s.breakOff
  let run := !s.sec.fuses.isEmpty
  let s := s.modSec SecBlk.fuseDone
  let s := if run then s.log s.sec.fuseEvent else s
  { s with
    cores := Vector.replicate 8 {}
    ms := s.ms.onReset cold
    goose := let g := s.goose.onReset s.now s.time.aligned; if cold then { g with freezeMaxS := 10 } else g
    fab := { nextXid := s.fab.nextXid, lsuFitted := s.fab.lsuFitted, lsuLit := s.fab.lsuLit }
    time := s.time.onReset cold
    ud := Vector.replicate 2 {}
    parts := Vector.replicate 8 {}
    eth := s.eth.onReset cold
    locals := []
    pwr := s.pwr.onReset cold s.pins.throttleN
    rst := s.rst.onReset
    fl := s.fl.onReset
    sec := s.sec.onReset cold
    pins := s.pins.onReset cold }

/-! ## The start (R391, R393, R395 to R398) -/

/-- A 256-bit value from the DRBG (R411). -/
def State.draw (s : State) : State × BitVec 256 := (s.modSec (fun x => x.draw.2), s.sec.draw.1)

/-- Option bytes loaded, with what follows from them. -/
def State.loadOptions (s : State) (cold : Bool) : State :=
  let s := s.modFl FlashBlk.loadOptions
  let f := s.fl
  let ceil : BitVec 16 := BitVec.ofNat 16 (f.opt 8 2)
  let s := s.modPwr (fun p => { p with ceilingW := ceil, capW := if cold then ceil else p.capW,
                                       capInForce := if cold then ceil else p.capInForce })
  let s := s.modFab (fun b => { b with permit := (BitVec.ofNat 8 (f.opt 0x10 1)).getLsbD 0 })
  let stat := b2n f.aOk + 2 * b2n f.bOk + 4 * f.used.toNat + 16 * b2n f.differ
  let s := if f.used ≠ 0 ∨ f.differ = true then s.log { source := 0x01, code := 0x04, detail := [(stat, 1)] } else s
  if f.used = 2 then
    s.modRst (fun r => { r with cause := setBit r.cause 16, restricted := setBit r.restricted 0 })
  else s

/-- PLANT_FAULT_W in force: 60 % of the ceiling unless the standing configuration sets another (R376). -/
def FlashBlk.plantFaultW (f : FlashBlk) : Nat :=
  let v := f.scAt 0x1E 2
  if v = 0 then f.opt 8 2 * 60 / 100 else v

/-- Registers loaded from the standing configuration; those that keep their value through a warm reset only at a cold one. -/
def State.applyStanding (s : State) (cold : Bool) : State :=
  let f := s.fl
  let u8 (o : Nat) : Nat := f.scAt o 1
  let mode := u8 0x10
  let coord (d : Nat) : BitVec 8 := if mode = 0 then BitVec.ofNat 8 (u8 (0x11 + d)) else 0
  let s := s.modFab (fun b =>
    { b with systemId := BitVec.ofNat 32 (f.scAt 8 4), sizes := #v[BitVec.ofNat 8 (u8 0xC), BitVec.ofNat 8 (u8 0xD), BitVec.ofNat 8 (u8 0xE), BitVec.ofNat 8 (u8 0xF)],
             coord := #v[coord 0, coord 1, coord 2, coord 3], coordValid := mode != 2, coordMode := BitVec.ofNat 2 mode })
  let s := s.modTime (fun t =>
    { t with srcMode := BitVec.ofNat 2 (u8 0x15), ppsComp := if cold then BitVec.ofNat 32 (f.scAt 0x18 4) else t.ppsComp })
  let s := s.modMs (fun m => if cold then { m with hcCtrl := { m.hcCtrl with ilvMode := BitVec.ofNat 32 (f.scAt 0x20 4) } } else m)
  let roles := BitVec.ofNat 4 (u8 0x2A)
  let s := s.modEth (fun e =>
    let port (i : Nat) : EthPort :=
      let p := e.ports.getD i {}
      { p with roleCtrl := roles.getLsbD (2 * i), roleBulk := roles.getLsbD (2 * i + 1),
               pfcEn := if cold then decide (u8 0x2B % 2 = 1) else p.pfcEn,
               pfcPrio := if cold then BitVec.ofNat 3 (u8 0x2B / 2) else p.pfcPrio }
    { e with ports := #v[port 0, port 1], ptp := { e.ptp with domain := BitVec.ofNat 7 (u8 0x16) } })
  s.modPwr (fun p =>
    { p with scLimitW := BitVec.ofNat 16 (min (f.scAt 0x1C 2) (f.opt 8 2)), rolesRead := true,
             outs := (List.range 4).foldl (fun v k => vmod v k (fun o => { o with role := BitVec.ofNat 2 (u8 (0x90 + k)) })) p.outs,
             ins := (List.range 4).foldl (fun v k => vmod v k (fun (i : PlantIn) =>
               let u16 (o : Nat) : BitVec 16 := BitVec.ofNat 16 (f.scAt (0x98 + 8 * k + o) 2)
               { i with role := BitVec.ofNat 2 (u8 (0x98 + 8 * k)), pulses := u16 2, expected := u16 4, minimum := u16 6 })) p.ins })

/-- The standing configuration read and checked (R18, R390). -/
def State.loadStanding (s : State) (cold : Bool) : State :=
  let (c, copyB) := s.fl.loadStanding
  let s := (s.modFl (fun f => { f with sc := c })).modRst (fun r => { r with scCopy := copyB })
  let fault := BitVec.ofNat 16 s.fl.plantFaultW
  let s := s.modPwr (fun p => { p with plantFaultW := fault })
  if c.isEmpty then
    (s.modRst (fun r => { r with restricted := setBit r.restricted 1 })).log { source := 0x01, code := 0x05, detail := [(3, 1)] }
  else
    let s := s.applyStanding cold
    let s := if s.fl.scAt 0x17 1 ≠ s.fl.opt 7 1 then s.log { source := 0x01, code := 0x05, detail := [(1, 1)] } else s
    let s := if s.fl.opt 8 2 < s.fl.scAt 0x1C 2 then s.log { source := 0x01, code := 0x05, detail := [(2, 1)] } else s
    s.modSec (fun x => x.extend 4 (sha256 (c.take 0x70 ++ List.replicate 32 0 ++ c.drop 0x90)))

/-- A slot tried in order: the one found, and whether it is the second. -/
def pickSlot {α : Type} (first : Bool) (get : Bool → Option α) : Option (Bool × α × Bool) :=
  match get first with
  | some i => some (first, i, false)
  | none => (get (!first)).map (fun i => (!first, i, true))

/-- The boot ROM finds the steward image (R395). -/
def State.bootSteward (s : State) : State × Option FwImage :=
  let pref := s.fl.bootRecord
  let s := s.modRst (fun r => { r with stPref := pref.1, buPref := pref.2 })
  let twice := decide (2 ≤ s.rst.bootFail.toNat)
  match pickSlot (if twice then !pref.1 else pref.1) s.stImage with
  | some (slot, img, second) =>
    let back := slot != pref.1
    let why := if second then 1 else 2
    let s := s.modRst (fun r => { r with stSlot := slot, stFallback := back, stIflevel := BitVec.ofNat 16 img.iflevel })
    let s := if back then s.log { source := 0x01, code := 0x02, detail := [(1, 1), (b2n slot, 1), (why, 1)] } else s
    let s := s.modSec (fun x => SecBlk.extend { x with stKey := BitVec.ofNat 2 img.key, stVersion := BitVec.ofNat 32 img.version,
                                                       stSvn := BitVec.ofNat 16 img.svn } 1 img.digest)
    let ok := (BitVec.ofNat 32 img.stepMask).getLsbD Config.stepping.toNat
    (if ok then s else s.modRst (fun r => { r with restricted := setBit r.restricted 2 }), some img)
  | none =>
    ((s.modRst (fun r => { r with recovery := true, stFallback := true })).log
      { source := 0x01, code := 0x02, detail := [(1, 1), (Config.noSlot.toNat, 1), (1, 1)] }, none)

/-- The steward finds the Bullock image (R396, R397). -/
def State.bootBullock (s : State) (st : FwImage) : State :=
  let qualified (i : FwImage) : Bool :=
    (BitVec.ofNat 32 i.stepMask).getLsbD Config.stepping.toNat && decide (st.bulMin ≤ i.iflevel ∧ i.iflevel ≤ st.bulMax)
  let get (b : Bool) : Option FwImage := match s.buImage b with
    | some i => if qualified i then some i else none
    | none => none
  let pref := s.rst.buPref
  match pickSlot pref get with
  | some (slot, img, back) =>
    let why := if (s.buImage pref).isSome then 3 else 1
    let s := s.modRst (fun r => { r with buSlot := slot, buFallback := back, buIflevel := BitVec.ofNat 16 img.iflevel })
    let s := if back then s.log { source := 0x01, code := 0x02, detail := [(2, 1), (b2n slot, 1), (why, 1)] } else s
    s.modSec (fun x => SecBlk.extend { x with buKey := BitVec.ofNat 2 img.key, buVersion := BitVec.ofNat 32 img.version,
                                              buSvn := BitVec.ofNat 16 img.svn } 2 img.digest)
  | none => s.modRst (fun r => { r with restricted := setBit r.restricted 3, buFallback := true })

/-- READY is reached: the boot record follows a fallback (R395). -/
def State.becomeReady (s : State) (cold : Bool) : State :=
  let s := s.modRst (fun r => { r with ready := true, bootFail := 0, readyMs := Config.readyMs cold r.resets })
  let r := s.rst
  let s := s.modPwr (fun p => { p with stewardPlant := true })
  let none_ := r.restricted.getLsbD 3
  if r.stFallback ∨ (r.buFallback = true ∧ none_ = false) then
    let bu := if none_ then r.buPref else r.buSlot
    let s := (s.modFl (fun f => f.writeBoot r.stSlot bu)).modRst (fun x => { x with stPref := x.stSlot, buPref := bu })
    s.log { source := 0x01, code := 0x03, detail := [(b2n r.stSlot, 1), (b2n bu, 1)] }
  else s

/-- A source acts as one from its start; a follower has no upstream yet (R319, R324). -/
def State.startTime (s : State) : State :=
  let s := if s.time.srcMode = 1 ∧ s.time.roleSource = true then
      s.modTime (fun t => { t with roleSource := false, dist := 31, sourceDev := 0x3FFF })
    else s
  if !s.fl.scHeld then s
  else if s.time.mayFollow then s.retime
  else if s.time.roleSource then s.ownSource.retime
  else s.actAsSource.retime

/-- The record of a start in restricted mode (R398). -/
def State.noteRestricted (s : State) : State :=
  if s.rst.restricted ≠ 0 then s.log { source := 0x01, code := 0x06, detail := [(s.rst.restricted.toNat, 1)] } else s

/-- From the release of a reset to READY, or to recovery, or to a steward that hangs. -/
def State.startUp (s : State) (cold : Bool) : State :=
  let s := s.modSec (fun x => x.extend 0 (leBytes 32 Config.romHash.toNat))
  let s := s.loadOptions cold
  let ob := s.fl.ob
  let s := s.modSec (fun x => x.extend 3 (sha256 ob))
  let s := (s.modPins (fun p => { p with pwrGood := true })).modPwr (fun p => { p with switchOn := true })
  let unlocked := cold && s.sec.unlockNext
  let s := if cold then s.modSec (fun x => { x with debug := unlocked, unlockNext := false }) else s
  let s := if unlocked then s.log { source := 0x07, code := 0x03 } else s
  let s := s.modSec (fun x => { x with idSeeds := x.identity })
  match s.bootSteward with
  | (s, none) => s.noteRestricted.setLimit.reassess
  | (s, some img) =>
    let s := s.loadStanding cold
    let s := (s.bootBullock img).noteRestricted
    let r := s.draw
    let s := (r.1.modEth (fun e => { e with session := fld r.2 0 64 })).startTime.setLimit.reassess
    let s := if cold && !s.pins.coolOk then s.raiseFault 3 0 else s
    if Config.imageRuns img.digest then s.lightUp.becomeReady cold else s.lightUp

/-! ## Accepting a reset (R383, R385) -/

/-- A reset now. -/
def State.doReset (s : State) (cold : Bool) : State := (s.teardown cold).startUp cold

/-- The steward's cores are not released: a reset waits, RESET_N is low, or PWR_EN is low and the rails are down (R383, R391). -/
def State.stewardDown (s : State) : Bool := s.rst.waiting.isSome || s.rst.held || !s.pins.pwrEn

/-- An emergency stop, PWR_EN low (step 4 of R391) or RESET_N holds a reset back. -/
def State.resetBlocked (s : State) : Bool := s.pwr.stopThermal || s.pwr.stopBrown || s.rst.held || !s.pins.pwrEn

/-- A reset is accepted: its cause and record; it proceeds, or is merged with the one that waits. -/
def State.requestReset (s : State) (cold : Bool) (bit : Nat) : State :=
  let s := s.modRst (fun r => { r with cause := setBit r.cause bit })
  let s := s.log { source := 0x01, code := 0x01, detail := [(s.rst.cause.toNat, 8), (b2n cold, 1)] }
  let cold := cold || s.rst.waiting == some true
  if s.resetBlocked then s.modRst (fun r => { r with waiting := some cold, ready := false }) else s.doReset cold

/-- A waiting reset proceeds once nothing holds it back. -/
def State.resumeReset (s : State) : State :=
  match s.rst.waiting with
  | some cold => if s.resetBlocked then s else s.doReset cold
  | none => s

end Sys2Proof.Machine
end

