-- ==== Sys2Proof/Machine/Reset.lean ====
section
/-! DEFINITION. Reset sources, flash commands, fuses, random numbers, debug unlock and the Goose as commands
(R383 to R385, R399 to R401, R407, R411, R415, R420 to R425). -/

namespace Sys2Proof.Machine

/-! ## Reset sources (R383) -/

/-- What is left of the Goose when island power is lost: its non-volatile records, resumed after the highest SEQ (R421). -/
def Goose.powerUp (g : Goose) : Goose :=
  let top := g.ring.foldl (fun (m : Option Nat) e => match m with
    | none => some e.2.seq.toNat
    | some x => some (max x e.2.seq.toNat)) none
  let next : Nat := match top with | some x => x + 1 | none => 0
  { ring := g.ring, nextSeq := BitVec.ofNat 32 next, filled := decide (65536 ≤ next), hours := g.hours, pcycle := satInc g.pcycle }

/-- The island powers up: everything that is not non-volatile is at its reset value; pin levels are as they are. -/
def State.islandUp (s : State) (pwrEn : Bool) : State :=
  { pending := s.pending, free := s.free
    goose := s.goose.powerUp
    ms := { freeNo := s.ms.freeNo }
    pwr := PwrBlk.onReset {} true s.pins.throttleN
    rst := { cause := 1, held := !s.pins.resetN }
    fl := { flash := s.fl.flash }
    sec := { revoked := s.sec.revoked, floorSt := s.sec.floorSt, floorBu := s.sec.floorBu, secret := s.sec.secret,
             drawn := s.sec.drawn, unlockNext := s.sec.unlockNext }
    pins := { slotPins := s.pins.slotPins, slotId := s.pins.slotPins, pps := s.pins.pps, resetN := s.pins.resetN, pwrEn := pwrEn,
              throttleN := s.pins.throttleN, coolOk := s.pins.coolOk, uartRx := s.pins.uartRx } }

/-- Power-on: reset record, then the start. Without PWR_EN it waits at step 4 of R391 with its option bytes loaded, the switch
open and every fast clock stopped; RESET_N low holds it too. -/
def State.powerOn (s : State) (pwrEn : Bool) : State :=
  let s := (s.islandUp pwrEn).log { source := 0x01, code := 0x01, detail := [(1, 8), (1, 1)] }
  if s.resetBlocked then
    ((s.loadOptions true).modPwr (fun p => { p with stopEn := !pwrEn })).modRst (fun r => { r with waiting := some true, powerUp := true })
  else s.startUp true

/-- The input switch closes as a power-on (R383): a cold reset, with which one that waits is merged (R385). -/
def State.switchOn (s : State) : State :=
  let s := (s.modPins (fun p => { p with pwrEn := true, pwrEnHeld := false })).modPwr (fun p => { p with stopBrown := false, stopEn := false })
  (s.modRst (fun r => { r with powerUp := true })).requestReset true 0

/-- POWER_ON (R391), with the level of PWR_EN. -/
def execPowerOn (pwrEn : Bool) (s : State) : Out := .next (s.powerOn pwrEn)

/-- PWR_EN_RISE (R383); `early`: within 100 ms of its fall, and then held until 100 ms after the fall (R441). -/
def execPwrEnRise (early : Bool) (s : State) : Out :=
  if s.pins.pwrEn then .next s
  else if early then .next (s.modPins (fun p => { p with pwrEnHeld := true })) else .next s.switchOn

/-- PWR_EN_HOLD_END (R441). -/
def execPwrEnHoldEnd (s : State) : Out := if s.pins.pwrEnHeld then .next s.switchOn else .next s

/-- PWR_EN_FALL (R383): the switch opens, every fast clock stops, the rails and PWR_GOOD fall; the island stays. -/
def execPwrEnFall (s : State) : Out :=
  let s := s.modPins (fun p => { p with pwrEn := false, pwrEnHeld := false, pwrGood := false })
  .next ((s.modPwr (fun p => { p with switchOn := false, stopEn := true })).modRst (fun r => { r with ready := false }))

/-- RESET_PIN (R383): RESET_N is asserted and holds the module in reset until it rises. -/
def execResetPin (s : State) : Out :=
  if !s.pins.resetN then .next s else
  let s := (s.modPins (fun p => { p with resetN := false })).modRst (fun r => { r with held := true })
  let s := s.requestReset true 2
  let t := s.time
  let r := s.rst
  .next (((s.teardown true).modTime (fun _ => t)).modRst (fun x =>
    { x with waiting := r.waiting, resets := r.resets, bootFail := r.bootFail, powerUp := r.powerUp }))

/-- RESET_N_RELEASE (R383). -/
def execResetNRelease (s : State) : Out :=
  .next (((s.modPins (fun p => { p with resetN := true })).modRst (fun r => { r with held := false })).resumeReset)

/-- WATCHDOG (R383, R395): a firmware that did not reach READY counts in BOOT_FAIL; the ROM in recovery arms none, and none is
armed before the steward's cores are released. -/
def execWatchdog (s : State) : Out :=
  if s.rst.recovery || s.stewardDown then .next s
  else
    let s := if s.rst.ready then s else s.modRst (fun r => { r with bootFail := satInc r.bootFail })
    .next (s.requestReset false 5)

/-- FIRMWARE_REQUEST (R383). -/
def execFirmwareRequest (cold : Bool) (s : State) : Out := .next (s.requestReset cold 7)

/-- BULLOCK_FAULT (R383). -/
def execBullockFault (s : State) : Out := .next (s.requestReset false 8)

/-! ## The flash as registers (R399 to R401) -/

/-- RST.BOOT_CTRL written: the boot record follows. -/
def State.writeBootCtrl (s : State) (v : Reg) : State :=
  let st := bitB v 0
  let bu := bitB v 1
  (s.modRst (fun r => { r with stPref := st, buPref := bu })).modFl (fun f => f.writeBoot st bu)

/-- A target that a program or an erase refuses: option bytes, boot record, the slots booted from, the configuration in
force. -/
def State.flashProtected (s : State) (a : Nat) : Bool :=
  let sector := a / 65536
  let within (base size : Nat) : Bool := decide (base ≤ a ∧ a < base + size)
  decide (sector ≤ 2) || (s.fl.scHeld && sector == (if s.rst.scCopy then 4 else 3))
    || (!s.rst.recovery && within (stSlotBase s.rst.stSlot) 0x1000000)
    || (!s.rst.recovery && !s.rst.restricted.getLsbD 3 && within (buSlotBase s.rst.buSlot) 0x800000)

/-- A flash command issued. -/
def State.flashStart (s : State) (op : FlashOp) : State :=
  let refuse := match op with
    | .readPage _ => false
    | .program a => s.flashProtected a
    | .erase a => s.flashProtected a
  if s.fl.op.isSome then s.modFl (fun f => { f with err := true })
  else if refuse then s.modFl (fun f => { f with prot := true })
  else s.modFl (fun f => { f with op := some op })

def State.pageAddr (s : State) : Nat := roundDown s.fl.addr.toNat 256
def State.sectorAddr (s : State) : Nat := roundDown s.fl.addr.toNat 65536

/-- The bytes of the page buffer. -/
def FlashBlk.bufBytes (f : FlashBlk) : List Byte := f.buf.toList.flatMap (fun w => leBytes 8 w.toNat)

/-- OPT.FL_CMD written. -/
def State.writeFlCmd (s : State) (v : Reg) : State :=
  match fldN v 0 2 with
  | 1 => s.flashStart (.readPage s.pageAddr)
  | 2 => s.flashStart (.program s.pageAddr)
  | 3 => s.flashStart (.erase s.sectorAddr)
  | _ => s

/-- The flash command that runs completes. -/
def FlashBlk.finishOp (f : FlashBlk) (failed : Bool) : FlashBlk :=
  let f' : FlashBlk := { f with op := none, done := true, err := f.err || failed }
  let junk (a n : Nat) : List Byte := (List.range n).map (fun i => Config.flashFailed (a + i))
  match f.op with
  | none => f
  | some (.readPage a) =>
    if failed then f'
    else { f' with buf := (List.range 32).foldl (fun v w => vmod v w (fun _ => BitVec.ofNat 64 (leNat (f.bytes (a + 8 * w) 8)))) f.buf }
  | some (.program a) => f'.put a (if failed then junk a 256 else f.bufBytes)
  | some (.erase a) => if failed then f'.put a (junk a 65536) else { f' with flash := f.flash.clearRange a (a + 65536) }

/-- BOOT_CTRL_WRITE (R400). -/
def execBootCtrlWrite (v : Reg) (s : State) : Out := .next (s.writeBootCtrl v)

/-- FL_READ_PAGE (R399): FL_CMD 1 at OPT.FL_ADDR. -/
def execFlReadPage (s : State) : Out := .next (s.flashStart (.readPage s.pageAddr))

/-- FL_PROGRAM_PAGE (R399). -/
def execFlProgramPage (s : State) : Out := .next (s.flashStart (.program s.pageAddr))

/-- FL_ERASE_SECTOR (R399). -/
def execFlEraseSector (s : State) : Out := .next (s.flashStart (.erase s.sectorAddr))

/-- FLASH_COMMAND_DONE (R399): the running command completes, or the flash reports a failure. -/
def execFlashCommandDone (failed : Bool) (s : State) : Out := .next (s.modFl (fun f => f.finishOp failed))

/-! ## Fuses (R407, R417) -/

/-- SYS.SEC_CTRL written. -/
def SecBlk.writeCtrl (x : SecBlk) (v : Reg) : SecBlk :=
  if !x.fuses.isEmpty then { x with badWrite := true }
  else
    let st := if bitB v 0 ∧ x.floorSt.toNat < x.stSvn.toNat then [FuseOp.commitSt] else []
    let bu := if bitB v 1 ∧ x.floorBu.toNat < x.buSvn.toNat then [FuseOp.commitBu] else []
    let asked := (List.range 4).filter (fun j => bitB v (4 + j))
    let may (j : Nat) : Bool := decide (j < x.stKey.toNat ∧ j < x.buKey.toNat)
    { x with fuses := st ++ bu ++ (asked.filter may).map FuseOp.revoke, fuseBits := fld v 0 8,
             badWrite := (x.badWrite && !bitB v 8) || asked.any (fun j => !may j) }

/-- COMMIT_ST (R407): SEC_CTRL written with bit 0. -/
def execCommitSt (s : State) : Out := .next (s.modSec (fun x => x.writeCtrl 1))

/-- COMMIT_BU (R407): SEC_CTRL written with bit 1. -/
def execCommitBu (s : State) : Out := .next (s.modSec (fun x => x.writeCtrl 2))

/-- REVOKE (R407): SEC_CTRL written with the REVOKE bit of key j. -/
def execRevoke (j : Fin 4) (s : State) : Out := .next (s.modSec (fun x => x.writeCtrl (BitVec.ofNat 64 (2 ^ (4 + j.val)))))

/-- FUSE_OPERATION_DONE (R407). -/
def execFuseOperationDone (s : State) : Out :=
  if s.sec.fuses.isEmpty then .next s
  else
    let s := s.modSec (fun x => { x.fuseDone with fuses := x.fuses.tail })
    .next (s.log s.sec.fuseEvent)

/-! ## Random numbers and debug (R411, R415) -/

/-- RNG_HEALTH_FAIL (R411). -/
def execRngHealthFail (s : State) : Out :=
  .next ((s.modSec (fun x => { x with rngFail := true })).log { source := 0x07, code := 0x02 })

/-- RNG_RESEED_TIMER (R411): after a failure the DRBG attempts a reseed. -/
def execRngReseedTimer (s : State) : Out := .next (s.modSec (fun x => if x.rngFail then x.retrySeed else x))

/-- DEBUG_UNLOCK (R415): no answer presents a challenge; a valid answer to it marks the next cold reset as unlocked. -/
def execDebugUnlock (answer : Option (List Byte)) (s : State) : Out :=
  if (BitVec.ofNat 8 (s.fl.opt 0x10 1)).getLsbD 1 then
    match answer with
    | none =>
      let r := s.draw
      .next (r.1.modSec (fun x => { x with challenge := leBytes 32 r.2.toNat }))
    | some sig =>
      if !s.sec.challenge.isEmpty && sigOk .debugUnlock Config.debugKey (s.sec.challenge ++ slice s.fl.ob 0x20 16) sig then
        .next (s.modSec (fun x => { x with unlockNext := true, challenge := [] }))
      else .next s
  else .next s

/-! ## The Goose (R420 to R425) -/

/-- GOOSE.CTRL written. -/
def State.writeGooseCtrl (s : State) (v : Reg) : State :=
  let now := s.now
  let al := s.time.aligned
  s.modGoose (fun g =>
    let g : Goose := if fldN v 8 8 = 0 then g else { g with freezeMaxS := fld v 8 8 }
    if bitB v 0 && bitB v 1 then g
    else if bitB v 0 then g.freeze now
    else if bitB v 1 then g.thaw now al
    else g)

/-- CTRL_FREEZE (R425): GOOSE.CTRL written with FREEZE set, THAW clear. -/
def execCtrlFreeze (maxS : BitVec 8) (s : State) : Out := .next (s.writeGooseCtrl (BitVec.ofNat 64 (1 + 256 * maxS.toNat)))

/-- CTRL_THAW (R425): GOOSE.CTRL written with THAW set, FREEZE clear. -/
def execCtrlThaw (maxS : BitVec 8) (s : State) : Out := .next (s.writeGooseCtrl (BitVec.ofNat 64 (2 + 256 * maxS.toNat)))

/-- GOOSE_RECORD_WRITE (R420): the oldest queued record, after `fails` attempts that did not read back. -/
def execGooseRecordWrite (fails : Fin 16) (s : State) : Out :=
  let now := s.now
  let al := s.time.aligned
  .next (s.modGoose (fun g => g.writeNext now al fails.val))

/-- REPEAT_UPDATE (R423). -/
def execRepeatUpdate (s : State) : Out := .next (s.modGoose Goose.writeHeld)

/-- FREEZE_TIMEOUT (R425). -/
def execFreezeTimeout (s : State) : Out :=
  let now := s.now
  let al := s.time.aligned
  .next (s.modGoose (fun g => g.freezeTimeout now al))

/-- HOURS_TIMER (R422). -/
def execHoursTimer (s : State) : Out :=
  if s.pins.pwrGood then .next (s.modGoose (fun g => { g with hours := satInc g.hours })) else .next s

end Sys2Proof.Machine
end

