-- ==== Sys2Proof/Machine/Power.lean ====
section
/-! DEFINITION. Power, heat and the cooling plant as commands: estimate and measurement, limits, throttle reasons, plant
faults, external throttle, emergency stops, idle clocks, stack temperatures (R266, R363 to R381, R441). -/

namespace Sys2Proof.Machine

/-- ALERT_N (R373, R395): low while a masked reason, an emergency stop or ROM recovery holds. -/
def State.alertN (s : State) : Bool := (s.pwr.asserted &&& s.pwr.alertMask) == 0 && !s.emergency && !s.rst.recovery

/-! ## Estimate, measurement and cap (R367 to R372) -/

/-- The calibrated estimate of a raw value, in W. -/
def PwrBlk.calibrate (p : PwrBlk) (raw : Nat) : Nat := ((raw * p.gain.toNat : Int) / 16384 + p.offset.toInt).toNat

/-- Powers of the valid samples among intervals, and the pairs of raw estimate and sample that calibration fits. -/
def measured (l : List PowerTick) : List Nat := l.filterMap (fun t => t.meas.map (·.1))
def fitPairs (l : List PowerTick) : List (Nat × Nat) := l.filterMap (fun t => t.meas.map (fun m => (t.raw, m.1)))

/-- The intervals of the present window. -/
def PwrBlk.window (p : PwrBlk) : List PowerTick := p.ticks.take p.winTicks

/-- The registers of the two views after an interval of 10 µs (R367). -/
def PwrBlk.sampled (p : PwrBlk) (raw : Nat) (sample : Option (BitVec 16 × BitVec 16)) : PwrBlk :=
  let m := sample.map (fun x => (x.1.toNat * x.2.toNat / 100000, x.2.toNat))
  let ticks := (({ raw := raw, est := p.calibrate raw, meas := m } : PowerTick) :: p.ticks).take 10000
  let p : PwrBlk :=
    { p with ticks := ticks, winTicks := min 10000 (p.winTicks + 1),
             estW := BitVec.ofNat 16 (meanNat (ticks.map (·.est))), pinW := BitVec.ofNat 16 (meanNat (measured ticks)),
             thrTime := (List.range 8).foldl (fun v r => if p.asserted.getLsbD r then vmod v r (fun t => satAdd t 10) else v) p.thrTime,
             upTicks := min 100 (p.upTicks + 1) }
  match sample with
  | some (mv, ca) => { p with vinMv := mv, iinCa := ca, measFailed := false, measValid := true }
  | none => p

/-- The view and the target of the cap controller; none where the module has no trusted view (R368, R369, R371). -/
def PwrBlk.view (p : PwrBlk) (limit : Nat) : Option (List Nat × Nat) :=
  if p.measFailed && !p.estTrusted then none
  else if p.measFailed then some (p.ticks.map (·.est), limit * 80 / 100)
  else if !p.estTrusted then some (measured p.ticks, limit * 90 / 100)
  else some (p.ticks.map (·.est), limit)

/-- The current limit acts (R372): the mean over 100 µs is not below the level. -/
def PwrBlk.overCurrent (p : PwrBlk) (level : Nat) : Bool :=
  let l := (p.ticks.take 10).filterMap (fun t => t.meas.map (·.2))
  !l.isEmpty && decide (level * l.length ≤ l.foldl (· + ·) 0)

/-- Every 10 µs: the estimate, the sample of the measurement if there is a valid one (mV, 0.01 A), and the cap controller.
After the fast limit the controller goes to index 8 (R372). -/
def State.powerTick (s : State) (raw : Nat) (sample : Option (BitVec 16 × BitVec 16)) : State :=
  let back := s.pwr.measFailed && sample.isSome
  let limit := s.limitNow
  let level := s.fl.opt 0xA 2 * 10
  let s := s.modPwr (fun p =>
    let p := { p.sampled raw sample with limitW := BitVec.ofNat 16 limit }
    let p : PwrBlk := match p.view limit with
      | none => { p.setAllow 0 8 with pair := none, phase := 0 }
      | some (hist, target) => p.capStep hist target
    let slow : Nat := if p.halved then 8 else if p.overCurrent level then min 8 (p.opCur.toNat + 1) else 0
    (p.setAllow 1 slow).move)
  let s := s.reassess
  if back then s.log { source := 0x02, code := 0x04, detail := [(0, 1)] } else s

/-- Least-squares fit of the pairs of the window: gain in 2^-14, offset in W, as exact quotients over one denominator. -/
def PwrBlk.fit (p : PwrBlk) : Int × Int × Int :=
  let ps := fitPairs p.window
  let n : Int := ps.length
  let sx : Int := (ps.map (fun x => (x.1 : Int))).foldl (· + ·) 0
  let sy : Int := (ps.map (fun x => (x.2 : Int))).foldl (· + ·) 0
  let sxx : Int := (ps.map (fun x => (x.1 * x.1 : Int))).foldl (· + ·) 0
  let sxy : Int := (ps.map (fun x => (x.1 * x.2 : Int))).foldl (· + ·) 0
  let den := n * sxx - sx * sx
  if den = 0 then
    let f := Config.fitFlat (ps.map (·.1)) (ps.map (·.2))
    (f.1, f.2, 1)
  else (16384 * (n * sxy - sx * sy), sy * sxx - sx * sxy, den)

/-- Gain and offset one eighth of the way toward the fit, clamped to 0.85 to 1.15 and 100 W. -/
def PwrBlk.recalibrate (p : PwrBlk) : PwrBlk :=
  let (gn, on, den) := p.fit
  let g := Config.roundReg (7 * p.gain.toNat * den + gn) (8 * den)
  let o := Config.roundReg (7 * p.offset.toInt * den + on) (8 * den)
  { p with gain := BitVec.ofInt 16 (max 13926 (min 18841 g)), offset := BitVec.ofInt 16 (max (-100) (min 100 o)) }

/-- Whether the views of a window agree, from their means (R368): DISAGREE, windows under 5 %, and trust. -/
def PwrBlk.judge (p : PwrBlk) (m e : Nat) : PwrBlk :=
  let diff := if m < e then e - m else m - e
  let n := if 15 * m < 100 * diff then min 10 (p.disagree.toNat + 1) else 0
  let a := if p.estTrusted = false ∧ 100 * diff < 5 * m then p.agree + 1 else 0
  let loses := p.estTrusted && decide (10 ≤ n)
  let gains := !p.estTrusted && decide (10 ≤ a)
  { p with disagree := BitVec.ofNat 4 n, agree := if gains then 0 else a, estTrusted := (p.estTrusted && !loses) || gains,
           untrusted := if loses then satInc p.untrusted else p.untrusted }

/-- Every 100 ms: calibration, and whether the views agree (R367, R368). Nothing while the measurement has failed, or for a
window without a valid sample; the next window begins. -/
def State.calibrationWindow (s : State) : State :=
  let p := s.pwr
  let ms := measured p.window
  let next (s : State) : State := s.modPwr (fun p => { p with winTicks := 0 })
  if p.measFailed || ms.isEmpty then next s
  else
    let m := meanNat ms
    let e := meanNat (p.window.map (·.est))
    let s := (next (s.modPwr (fun p => p.recalibrate.judge m e))).reassess
    if s.pwr.estTrusted = p.estTrusted then s
    else s.log { source := 0x02, code := 0x03, detail := [(b2n s.pwr.estTrusted, 1), (m, 2), (e, 2)] }

/-- PWR.CAP written (R370, R378). -/
def State.writeCap (s : State) (v : Reg) : State :=
  let w := fldN v 0 16
  let now := s.pins.throttleN
  if w < 600 ∨ s.pwr.ceilingW.toNat < w then s.modPwr (fun p => { p with capBad := true })
  else (s.modPwr (fun p =>
    { p with capW := fld v 0 16, capBad := p.capBad && !bitB v 16, capInForce := if now then fld v 0 16 else p.capInForce })).setLimit

/-! ## Heat (R374, R375) -/

/-- Hottest of a list of sensors. -/
def hottest (l : List (BitVec 8)) : Nat := l.foldl (fun m t => max m t.toNat) 0

/-- Trip level of a class of sensor: junction of a compute die, of another die, stack, optical engine (R374). -/
def tripLevel (cls : Fin 4) : Nat := match cls with
  | 0 => 115 | 1 => 115 | 2 => 105 | 3 => 90

/-- Every fast clock stops for a sensor at its trip level (R374, R379); the reading shows in PWR.TEMP. -/
def State.tripThermal (s : State) (cls : Fin 4) (ix t : Nat) : State :=
  let up (b : BitVec 8) : BitVec 8 := BitVec.ofNat 8 (max b.toNat t)
  (s.modPwr (fun p =>
    { p with stopThermal := true, tjMax := if cls.val ≤ 1 then up p.tjMax else p.tjMax, hbmMax := if cls = 2 then up p.hbmMax else p.hbmMax,
             optMax := if cls = 3 then up p.optMax else p.optMax })).log
    { source := 0x02, code := 0x08, detail := [((Config.sensorClass cls).toNat, 1), (ix, 1), (t, 1)] }

/-- The sensors of a class that are at their trip level: each trips. -/
def State.tripsOf (s : State) (cls : Fin 4) (l : List (BitVec 8)) : State :=
  (List.range l.length).foldl (fun s i =>
    let t := (l.getD i 0).toNat
    if tripLevel cls ≤ t then s.tripThermal cls i t else s) s

/-- Hottest stack by its last reading. -/
def State.hbmHottest (s : State) : BitVec 8 :=
  BitVec.ofNat 8 ((List.range 8).foldl (fun m i => max m (s.ms.hbm.stackRegs.getD i {}).tempC.toNat) 0)

/-- PWR.TEMP and the rates of the inputs as a sample reads them; an input at its minimum rate again shows no fault. -/
def PwrBlk.read (p : PwrBlk) (h : HeatSample) (hbm : BitVec 8) : PwrBlk :=
  let p : PwrBlk :=
    { p with tjMax := BitVec.ofNat 8 (hottest (h.compute.toList ++ h.others.toList)), optMax := BitVec.ofNat 8 (hottest h.optical.toList),
             hbmMax := hbm, inlet := if h.inletOk then h.inlet else p.inlet, inletFail := !h.inletOk }
  let p := if h.inletOk then p.goneFault 4 0 else p
  (List.range 4).foldl (fun (p : PwrBlk) k =>
    let i := p.ins.getD k {}
    let hz := (h.pulseHz.getD k 0).toNat
    if i.role = 1 ∨ i.role = 2 then
      let bad := i.fault && p.inputBad k hz
      let p : PwrBlk := { p with ins := vmod p.ins k (fun (x : PlantIn) => { x with rate := x.rateAt hz, fault := bad }) }
      if bad then p else p.goneFault i.role.toNat k
    else p) p

/-- The thermal model of each compute die takes the power and its sensors (R375). -/
def PwrBlk.modelStep (p : PwrBlk) (x : HeatCtx) (h : HeatSample) (power : Nat) : PwrBlk :=
  let duties := p.dutiesAt p.plantCmd.toNat
  let die (v : Vector DieHeat 4) (d : Nat) : Vector DieHeat 4 :=
    vmod v d (fun n => x.step n power duties (hottest ((h.compute.toList.drop (16 * d)).take 16)))
  { p with dies := (List.range 4).foldl die p.dies }

/-- The plant command follows the prediction (R375): up until it lies at or below 95 °C, down once it has stayed below 90 °C
for a horizon; `low`: where the lowering aims. -/
def PwrBlk.steer (p : PwrBlk) (x : HeatCtx) (power : Nat) (low : BitVec 8) : PwrBlk :=
  let cmd := p.plantCmd.toNat
  let pred := p.predicted x power cmd
  let run := if pred < 90000 then min x.par.horizon (p.coolRun + 1) else 0
  let next := if 95000 < pred then p.leastCommand x power cmd
    else if x.par.horizon ≤ run then p.leastCommand x power (min cmd low.toNat) else cmd
  let shown := Config.roundReg pred 1000
  { p with plantCmd := BitVec.ofNat 8 next, coolRun := run, tjPred := BitVec.ofNat 8 (min 255 shown.toNat) }

/-- With every output at full duty and the prediction above 100 °C, the junction reason calls for the highest point at which
the model predicts 100 °C (R375); the allowance goes there by R373's steps. -/
def PwrBlk.modelAllow (p : PwrBlk) (x : HeatCtx) (power : Nat) : PwrBlk :=
  let cmd := p.plantCmd.toNat
  let full := (p.dutiesAt cmd).all (fun d => d == 255)
  let cur := p.opCur.toNat
  let fits (i : Nat) : Bool := decide (p.predicted x (powerAt power cur i) cmd ≤ 100000)
  let pred := p.predicted x power cmd
  { p with modelGoal := if full = true ∧ 100000 < pred then ((List.range 9).find? fits).getD 8 else 0, modelPred := pred }

/-- What the carrier's pins showed since the last sample (R441, R446). -/
def PinBlk.read (p : PinBlk) (h : PlantSample) : PinBlk :=
  { p with pps := h.ppsIn, uartRx := h.uartRx, glitch := satAdd p.glitch h.glitches }

/-- Every 1 ms: sensors and inputs are read, the model predicts, plant and junction reason follow (R374 to R377). -/
def State.temperatures (s : State) (h : HeatSample) : State :=
  let s := s.modPins (fun p => p.read h.toPlantSample)
  let low := Config.plantLowered s.free
  let hbm := s.hbmHottest
  let s := { s with free := s.free + 1 }.modPwr (fun p => p.read h hbm)
  let x := s.heatCtx
  let power := (s.pwr.ticks.headD { raw := 0, est := 0 }).est
  let s := s.modPwr (fun p => ((p.modelStep x h power).steer x power low).modelAllow x power)
  let s := if h.inletOk then s else s.raiseFault 4 0
  let s := ((s.tripsOf 0 h.compute.toList).tripsOf 1 h.others.toList).tripsOf 3 h.optical.toList
  s.setLimit.reassess

/-- A temperature reason holds, and it is 3 °C below its threshold (R373). The junction reason holds at the measured threshold
and while its allowance is above what the thermal model calls for, and is over once sensors and prediction are below (R374,
R375; log 152). -/
def PwrBlk.tooHot (p : PwrBlk) (r : Nat) : Bool := match r with
  | 2 => decide (103 ≤ p.tjMax.toNat ∨ p.allow.getD 2 0 < p.modelGoal)
  | 3 => decide (95 ≤ p.hbmMax.toNat)
  | _ => decide (75 ≤ p.optMax.toNat)

def PwrBlk.cooled (p : PwrBlk) (r : Nat) : Bool := match r with
  | 2 => decide (p.tjMax.toNat ≤ 100 ∧ p.modelPred ≤ 97000)
  | 3 => decide (p.hbmMax.toNat ≤ 92)
  | _ => decide (p.optMax.toNat ≤ 72)

/-- A temperature reason's allowance moves by one index at its interval (R373). -/
def State.allowanceStep (s : State) (r : Nat) : State :=
  let a := s.pwr.allow.getD r 0
  if s.pwr.tooHot r then (s.modPwr (fun p => (p.setAllow r (min 8 (a + 1))).move)).reassess
  else if s.pwr.cooled r then (s.modPwr (fun p => p.setAllow r (a - 1))).reassess
  else s.reassess

/-! ## Rows: input and power -/

/-- CAP_WRITE (R370). -/
def execCapWrite (v : Reg) (s : State) : Out := .next (s.writeCap v)

/-- INPUT_LOW (R363). -/
def execInputLow (mv : BitVec 16) (s : State) : Out := .next (s.log { source := 0x02, code := 0x01, detail := [(mv.toNat, 2)] })

/-- A brown-out (R364, R424, R443): its record and the reset's are written out within the hold-up time with all that waits, and
PWR_GOOD falls with the rails. -/
def State.brownDown (s : State) (mv : BitVec 16) : State :=
  let s := (s.modPins (fun p => { p with pwrGood := false })).log { source := 0x02, code := 0x02, detail := [(mv.toNat, 2)] }
  let s := s.requestReset true 1
  let now := s.now
  let al := s.time.aligned
  s.modGoose (fun g => g.onReset now al)

/-- The input is lost (R364): the stop is held, the rails fall, and the cold reset waits for the input. -/
def State.inputLost (s : State) (mv : BitVec 16) : State :=
  (s.modPwr (fun p => { p with switchOn := false, stopBrown := true })).brownDown mv

/-- BROWN_OUT (R364, R385): the stop, its record and the brown-out reset; `back`: the input recovers within the hold-up time,
so the reset proceeds with the island powered. -/
def execBrownOut (dip : InputDip) (s : State) : Out :=
  if dip.back then .next (s.brownDown dip.mv)
  else .next (s.inputLost dip.mv)

/-- OVER_VOLTAGE (R363, R364): the switch opens, and the module behaves as on loss of input. -/
def execOverVoltage (s : State) : Out := .next ({ s with free := s.free + 1 }.inputLost (Config.stopMv s.free))

/-- POWER_ESTIMATE_TICK (R367, R371): the raw estimate in W, and a valid sample of the measurement in mV and 0.01 A. -/
def execPowerEstimateTick (raw : BitVec 16) (sample : Option (BitVec 16 × BitVec 16)) (s : State) : Out :=
  .next (s.powerTick raw.toNat sample)

/-- CALIBRATION_WINDOW (R367, R368). -/
def execCalibrationWindow (s : State) : Out := .next s.calibrationWindow

/-- MEASUREMENT_FAIL (R369). -/
def execMeasurementFail (s : State) : Out :=
  if s.pwr.measFailed then .next s
  else .next ((s.modPwr (fun p => { p with measFailed := true, measValid := false, failEvt := true })).log
    { source := 0x02, code := 0x04, detail := [(1, 1)] })

/-- VOLTAGE_STEP (R366): one 25 mV step toward the point; going up the frequency follows once the voltage is reached. -/
def execVoltageStep (s : State) : Out :=
  .next (s.modPwr (fun p =>
    let cur := p.opCur.toNat
    let target := p.opTarget.toNat
    if target < p.vIdx ∧ target < cur then
      let v := p.vIdx - 1
      if v = target then { p with vIdx := v, opCur := p.opTarget, upTicks := 0 } else { p with vIdx := v }
    else if p.vIdx < p.voltsIdx then { p with vIdx := p.vIdx + 1 }
    else if target < cur then { p with opCur := p.opTarget, upTicks := 0 }
    else p))

/-- FAST_CURRENT_LIMIT (R372): the emergency divider. -/
def execFastCurrentLimit (s : State) : Out :=
  .next ((s.modPwr (fun p => { p with halved := true, halvings := satInc p.halvings })).reassess)

/-- OVERCURRENT_TRIP (R379): the stop, its record, and the steward's request for a cold reset. -/
def execOvercurrentTrip (s : State) : Out :=
  .next (((s.modPwr (fun p => { p with stopOver := true })).log { source := 0x02, code := 0x07, detail := [(3, 1)] }).requestReset true 7)

/-! ## Rows: temperatures -/

/-- TEMPERATURE_SAMPLE (R374, R375): what every sensor and plant input reads. -/
def execTemperatureSample (compute : Vector (BitVec 8) 64) (dies : Vector (BitVec 8) 16) (optical : Vector (BitVec 8) 10)
    (plant : PlantSample) (s : State) : Out :=
  .next (s.temperatures { plant with compute := compute, others := dies, optical := optical })

/-- HBM_TEMP_SAMPLE (R266). -/
def execHbmTempSample (st : StackId) (t : BitVec 8) (s : State) : Out :=
  let s := s.modMs (fun m => m.modStack st.val (fun r =>
    let hot := decide (85 ≤ t.toNat) || (r.hot && decide (83 ≤ t.toNat))
    { r with tempC := t, hot := hot, hotTime := if r.hot then satInc r.hotTime else r.hotTime }))
  let hbm := s.hbmHottest
  let s := (s.modPwr (fun p => { p with hbmMax := hbm })).reassess
  .next (if tripLevel 2 ≤ t.toNat then (s.tripThermal 2 st.val t.toNat).reassess else s)

/-- ALLOWANCE_STEP (R373) of the junction, HBM or optics reason; the other reasons have no such step. -/
def execAllowanceStep (r : Fin 8) (s : State) : Out :=
  if r.val = 2 ∨ r.val = 3 ∨ r.val = 7 then .next (s.allowanceStep r.val) else .next s

/-- THERMAL_TRIP (R379): the class and index of a sensor, and what it reads; nothing below its trip level. -/
def execThermalTrip (cls : Fin 4) (ix t : BitVec 8) (s : State) : Out :=
  if tripLevel cls ≤ t.toNat then .next (s.tripThermal cls ix.toNat t.toNat).reassess else .next s

/-- Every sensor reads at least 20 °C below its trip level. -/
def PwrBlk.cool (p : PwrBlk) : Bool := decide (p.tjMax.toNat ≤ 95 ∧ p.hbmMax.toNat ≤ 85 ∧ p.optMax.toNat ≤ 70)

/-- THERMAL_TRIP_CLEAR (R379, R383): the warm reset that follows the stop, once every sensor is cool. -/
def execThermalTripClear (s : State) : Out :=
  if s.pwr.stopThermal && s.pwr.cool then .next ((s.modPwr (fun p => { p with stopThermal := false })).requestReset false 6)
  else .next s

/-! ## Rows: plant -/

/-- TACH_FAULT (R376, R441): input k has stood for 2 s at `hz` pulses per second, too slow or over-fast. -/
def execTachFault (k : Fin 4) (hz : BitVec 16) (s : State) : Out :=
  if s.pwr.inputBad k.val hz.toNat then
    let s := s.modPwr (fun p =>
      { p with ins := vmod p.ins k.val (fun (i : PlantIn) => { i with rate := i.rateAt hz.toNat, fault := true }) })
    .next (s.raiseFault (s.pwr.ins.getD k.val {}).role.toNat k.val)
  else .next s

/-- COOL_OK_DEASSERT (R376). -/
def execCoolOkDeassert (s : State) : Out := .next ((s.modPins (fun p => { p with coolOk := false })).raiseFault 3 0)

/-- COOL_OK_ASSERT (R441). -/
def execCoolOkAssert (s : State) : Out :=
  .next ((s.modPins (fun p => { p with coolOk := true })).modPwr (fun p => p.goneFault 3 0))

/-- PLANT_FAULT_CLEAR (R376): 10 s after the last condition has gone. -/
def execPlantFaultClear (s : State) : Out :=
  if s.pwr.plantFault && s.pwr.conds.isEmpty then
    let c := s.pwr.lastCond
    let s := s.modPwr (fun p => { p with plantFault := false })
    .next ((s.log { source := 0x02, code := 0x05, detail := [(0, 1), (c.1, 1), (c.2, 1)] }).setLimit.reassess)
  else .next s

/-! ## Rows: external throttle (R378) -/

/-- THROTTLE_N_ASSERT: index 8 in hardware. -/
def execThrottleNAssert (s : State) : Out :=
  if !s.pins.throttleN then .next s
  else
    let s := s.modPins (fun p => { p with throttleN := false })
    let s := s.modPwr (fun p =>
      { (p.setAllow 5 8) with opCur := 8, opTarget := 8, pair := none, phase := 0, extAsserts := satInc p.extAsserts, throttleHours := 0, throttleHold := false })
    .next ((s.log { source := 0x02, code := 0x06, detail := [(1, 1), (0, 4)] }).reassess)

/-- THROTTLE_N_RELEASE, after `secs` seconds: a cap written meanwhile takes effect. -/
def execThrottleNRelease (secs : BitVec 32) (s : State) : Out :=
  if s.pins.throttleN then .next s
  else
    let s := s.modPins (fun p => { p with throttleN := true })
    let s := s.modPwr (fun p => { p with throttleHold := true, capInForce := p.capW })
    .next (((s.log { source := 0x02, code := 0x06, detail := [(3, 1), (secs.toNat, 4)] }).setLimit).reassess)

/-- THROTTLE_N_HOUR. -/
def execThrottleNHour (s : State) : Out :=
  if s.pins.throttleN then .next s
  else
    let s := s.modPwr (fun p => { p with throttleHours := p.throttleHours + 1 })
    .next (s.log { source := 0x02, code := 0x06, detail := [(2, 1), (3600 * s.pwr.throttleHours, 4)] })

/-- RELEASE_HOLD_END. -/
def execReleaseHoldEnd (s : State) : Out :=
  if s.pwr.throttleHold then .next ((s.modPwr (fun p => { (p.setAllow 5 0) with throttleHold := false })).reassess) else .next s

/-! ## Rows: idle clocks (R380) -/

/-- IDLE_CLOCK_STOP: nothing is queued or in flight in the engines that stop. -/
def execIdleClockStop (c : CoreId) (s : State) : Out :=
  let k := s.core c.val
  if s.pwr.idleEn.getLsbD c.val && k.ox.idle && k.vec.idle && k.row.idle && k.att.idle then
    .next (s.modPwr (fun p => { p with idleStopped := setBit p.idleStopped c.val }))
  else .next s

/-- LAUNCH_WAKE. -/
def execLaunchWake (c : CoreId) (s : State) : Out := .next (s.modPwr (fun p => { p with idleStopped := clrBit p.idleStopped c.val }))

end Sys2Proof.Machine
end

