-- ==== Sys2Proof/Machine/Regs.lean ====
section
/-! DEFINITION. Management registers: reading and writing every register of every block at its address, with the access
codes of R7 (R5 to R9 and the register tables of every chapter). -/

namespace Sys2Proof.Machine

/-- A register read: its value, and the state once its RC fields are cleared. -/
abbrev RegRead := Reg × State

/-- Place of offset o in an array of `n` words that begins at `base` and repeats every `stride` bytes. -/
def arrayIx (base stride n o : Nat) : Option Nat :=
  if base ≤ o ∧ o < base + stride * n ∧ (o - base) % stride = 0 then some ((o - base) / stride) else none

/-! ## SYS (R417, R446) -/

def State.pinsReg (s : State) : Reg :=
  let p := s.pins
  pack [(p.slotId.toNat, 0), (b2n p.pps, 8), (b2n p.resetN, 9), (b2n (p.pwrEn || p.pwrEnHeld), 10), (b2n p.throttleN, 11), (b2n p.coolOk, 12),
    (b2n p.uartRx, 13), (b2n p.pwrGood, 16), (b2n s.alertN, 17), (b2n p.slotChanged, 24)]

def PinBlk.errReg (p : PinBlk) : Reg :=
  pack [(p.uartFrame.toNat, 0), (p.uartCrc.toNat, 16), (p.smbTimeout.toNat, 32), (p.glitch.toNat, 48)]

def SecBlk.statReg (x : SecBlk) : Reg :=
  pack [(b2n x.debug, 0), (b2n x.injUsed, 1), (b2n x.rngFail, 2), (b2n (!x.fuses.isEmpty), 3), (x.stKey.toNat, 4),
    (x.buKey.toNat, 6), (x.revoked.toNat, 8), (x.floorSt.toNat, 16), (x.floorBu.toNat, 24)]

/-- Word w of the attestation signature. -/
def SecBlk.sigWord (x : SecBlk) (w : Nat) : Reg :=
  match x.attSig with
  | some (seeds, report) => reportSig seeds report w
  | none => 0

def State.sysRead (s : State) (o : Nat) : Option RegRead :=
  let x := s.sec
  if o = 0x100 then some (s.pinsReg, s)
  else if o = 0x108 then
    some (s.pins.errReg, s.modPins (fun p => { p with uartFrame := 0, uartCrc := 0, smbTimeout := 0, glitch := 0 }))
  else if o = 0x1000 then some (x.statReg, s)
  else if o = 0x1008 then some (pack [(b2n x.badWrite, 8)], s)
  else if o = 0x1010 then some (pack [(x.attId.toNat, 0), (b2n x.attValid, 32)], s)
  else match arrayIx 0x1100 8 24 o with
    | some i => some (fld (x.meas.getD (i / 4) 0) (64 * (i % 4)) 64, s)
    | none => match arrayIx 0x2000 8 2136 o with
      | some w => some (x.sigWord w, s)
      | none => none

def State.sysWrite (s : State) (o : Nat) (v : Reg) : State :=
  if o = 0x100 then s.modPins (fun p => { p with slotChanged := p.slotChanged && !bitB v 24 })
  else if o = 0x1008 then s.modSec (fun x => x.writeCtrl v)
  else s

/-! ## RST (R400) and OPT (R401) -/

def RstBlk.bootStat (r : RstBlk) : Reg :=
  pack [(b2n r.stSlot, 0), (b2n r.buSlot, 1), (b2n r.stFallback, 2), (b2n r.buFallback, 3), (r.restricted.toNat, 4),
    (b2n r.ready, 8), (b2n r.scCopy, 9), (r.bootFail.toNat, 10), (r.stepping.toNat, 16), (r.stIflevel.toNat, 32),
    (r.buIflevel.toNat, 48)]

def State.rstRead (s : State) (o : Nat) : Option RegRead :=
  let r := s.rst
  match o with
  | 0x00 => some (r.cause.setWidth 64, s)
  | 0x08 => some (r.bootStat, s)
  | 0x10 => some (pack [(b2n r.stPref, 0), (b2n r.buPref, 1)], s)
  | 0x18 => some (pack [(r.readyMs.toNat, 0), (r.resets.toNat, 32)], s)
  | _ => none

def State.rstWrite (s : State) (o : Nat) (v : Reg) : State :=
  match o with
  | 0x00 => s.modRst (fun r => { r with cause := r.cause &&& ~~~(v.setWidth 17) })
  | 0x10 => s.writeBootCtrl v
  | _ => s

def FlashBlk.statReg (f : FlashBlk) : Reg :=
  pack [(b2n f.op.isSome, 0), (b2n f.done, 1), (b2n f.prot, 2), (b2n f.err, 3)]

def State.optRead (s : State) (o : Nat) : Option RegRead :=
  let f := s.fl
  if o = 0x100 then some (pack [(b2n f.aOk, 0), (b2n f.bOk, 1), (f.used.toNat, 2), (b2n f.differ, 4)], s)
  else if o = 0x200 then some (f.addr.setWidth 64, s)
  else if o = 0x208 then some (0, s)
  else if o = 0x210 then some (f.statReg, s)
  else match arrayIx 0 8 32 o with
    | some i => some (BitVec.ofNat 64 (f.opt (8 * i) 8), s)
    | none => match arrayIx 0x400 8 32 o with
      | some w => some (f.buf.getD w 0, s)
      | none => none

def State.optWrite (s : State) (o : Nat) (v : Reg) : State :=
  if o = 0x200 then s.modFl (fun f => { f with addr := fld v 0 26 })
  else if o = 0x208 then s.writeFlCmd v
  else if o = 0x210 then
    s.modFl (fun f => { f with done := f.done && !bitB v 1, prot := f.prot && !bitB v 2, err := f.err && !bitB v 3 })
  else match arrayIx 0x400 8 32 o with
    | some w => s.modFl (fun f => { f with buf := vmod f.buf w (fun _ => v) })
    | none => s

/-! ## PWR (R381) -/

def PwrBlk.statReg (p : PwrBlk) : Reg :=
  pack [(p.opCur.toNat, 0), (p.opTarget.toNat, 4), (b2n p.halved, 8), (b2n p.estTrusted, 9), (b2n p.measValid, 10),
    (b2n p.plantFault, 11), (p.limiting.toNat, 12)]

def PwrBlk.outReg (p : PwrBlk) (k : Nat) : Reg :=
  let x := p.outs.getD k {}
  pack [(p.duty k, 0), (x.role.toNat, 8), (b2n x.override, 16), (x.ovrDuty.toNat, 24)]

def PwrBlk.inReg (p : PwrBlk) (k : Nat) : Reg :=
  let x := p.ins.getD k {}
  pack [(x.role.toNat, 0), (x.rate.toNat, 16), (b2n x.fault, 32)]

def State.pwrRead (s : State) (o : Nat) : Option RegRead :=
  let p := s.pwr
  match o with
  | 0x00 => some (p.statReg, s)
  | 0x08 => some (pack [(p.capW.toNat, 0), (b2n p.capBad, 16)], s)
  | 0x10 => some (pack [(p.ceilingW.toNat, 0), (p.scLimitW.toNat, 16), (p.limitW.toNat, 32), (p.plantFaultW.toNat, 48)], s)
  | 0x18 => some (pack [(p.vinMv.toNat, 0), (p.iinCa.toNat, 16), (p.pinW.toNat, 32), (b2n p.failEvt, 48)], s)
  | 0x20 => some (pack [(p.estW.toNat, 0), (p.gain.toNat, 16), (p.offset.toNat, 32), (p.disagree.toNat, 48)], s)
  | 0x28 => some (pack [(p.asserted.toNat, 0), (p.alertMask.toNat, 8), (p.seen.toNat, 16)], s)
  | 0x30 => some (pack [(p.tjMax.toNat, 0), (p.hbmMax.toNat, 8), (p.optMax.toNat, 16), (p.inlet.toNat, 24), (p.tjPred.toNat, 32)], s)
  | 0x38 => some (pack [(p.idleEn.toNat, 0), (p.idleStopped.toNat, 8)], s)
  | 0x40 =>
    some (pack [(p.halvings.toNat, 0), (p.untrusted.toNat, 16), (p.extAsserts.toNat, 32), (p.plantFaults.toNat, 48)],
      s.modPwr (fun p => { p with halvings := 0, untrusted := 0, extAsserts := 0, plantFaults := 0 }))
  | _ => match arrayIx 0x100 8 8 o with
    | some r => some (p.thrTime.getD r 0, s)
    | none => match arrayIx 0x200 16 4 o with
      | some k => some (p.outReg k, s)
      | none => match arrayIx 0x208 16 4 o with
        | some k => some (p.inReg k, s)
        | none => none

def State.pwrWrite (s : State) (o : Nat) (v : Reg) : State :=
  match o with
  | 0x08 => s.writeCap v
  | 0x18 => s.modPwr (fun p => { p with failEvt := p.failEvt && !bitB v 48 })
  | 0x28 => s.modPwr (fun p => { p with alertMask := fld v 8 8, seen := p.seen &&& ~~~(fld v 16 8) })
  | 0x38 => s.modPwr (fun p => { p with idleEn := fld v 0 8 })
  | _ => match arrayIx 0x200 16 4 o with
    | some k => s.modPwr (fun p =>
        { p with outs := vmod p.outs k (fun (x : PlantOut) => { x with override := bitB v 16, ovrDuty := fld v 24 8 }) })
    | none => s

/-! ## TIME (R341) -/

def TimeBlk.ctrlReg (t : TimeBlk) : Reg := pack [(t.srcMode.toNat, 0), (b2n t.ppsEn, 2), (t.ppsComp.toNat, 32)]

def TimeBlk.statReg (t : TimeBlk) : Reg :=
  pack [(b2n t.aligned, 0), (b2n t.locked, 1), (b2n t.ppsLock, 2), (b2n t.holdover, 3), (b2n t.ppsMissing, 4),
    (b2n t.stepDeferred, 5), (b2n t.todValid, 6), (b2n t.roleSource, 7), (t.upTrunk.toNat, 8), (t.upLane.toNat, 11),
    (t.dist.toNat, 16), (t.sourceDev.toNat, 32)]

def TimeBlk.schedCtrl (t : TimeBlk) : Reg :=
  pack [(t.frameM1.toNat, 0), (b2n t.schedEn, 16), (t.lateSlots.toNat, 17), (t.schedTag.toNat, 32)]

def TimeBlk.schedLast (t : TimeBlk) : Reg :=
  pack [(t.slTag.toNat, 0), (t.slTrunk.toNat, 16), (t.slCore.toNat, 19), (t.slCause.toNat, 24), (b2n t.slTransit, 27),
    (b2n t.slValid, 28), (b2n t.slOverwritten, 29)]

/-- The selected slot-table entry. -/
def TimeBlk.selected (t : TimeBlk) : BitVec 128 := tabGet t.slots (8192 * t.selTrunk.toNat + t.selSlot.toNat) 0

def State.timeRead (s : State) (o : Nat) : Option RegRead :=
  let t := s.time
  match o with
  | 0x00 => some (t.ft, s)
  | 0x08 => some (t.ctrlReg, s)
  | 0x10 => some (t.statReg, s)
  | 0x18 => some (pack [(t.rateAdj.toNat, 0), (t.holdRate.toNat, 32)], s)
  | 0x20 => some (pack [(t.linkOffset.toNat, 0), (t.linkDelay.toNat, 32)], s)
  | 0x28 => some (pack [(t.lastErr.toNat, 0), (t.reject.toNat, 32), (t.missing.toNat, 48), (t.steps.toNat, 56)],
      s.modTime (fun t => { t with reject := 0, missing := 0, steps := 0 }))
  | 0x30 => some (t.todOffset, s)
  | 0x100 => some (t.schedCtrl, s)
  | 0x108 => some (t.schedEpoch, s)
  | 0x110 => some (pack [(t.fallback.toNat, 0), (t.lateOps.toNat, 24), (t.transitFb.toNat, 40), (t.fbDrop.toNat, 56)],
      s.modTime (fun t => { t with fallback := 0, lateOps := 0, transitFb := 0, fbDrop := 0 }))
  | 0x118 => some (t.schedLast, s.modTime (fun t => { t with slValid := false, slOverwritten := false }))
  | 0x200 => some (pack [(t.selSlot.toNat, 0), (t.selTrunk.toNat, 16), (b2n t.slotBad, 24)], s)
  | 0x208 => some (fld t.selected 0 64, s)
  | 0x210 => some (fld t.selected 64 64, s)
  | _ => none

def State.timeWrite (s : State) (o : Nat) (v : Reg) : State :=
  match o with
  | 0x08 => s.modTime (fun t => { t with ppsEn := bitB v 2, ppsComp := fld v 32 32 })
  | 0x200 => s.modTime (fun t => { t with selSlot := fld v 0 13, selTrunk := fld v 16 3, slotBad := t.slotBad && !bitB v 24 })
  | 0x208 => s.modTime (fun t => t.writeSlot false v)
  | 0x210 => s.modTime (fun t => t.writeSlot true v)
  | _ => s

/-! ## GOOSE (R432) -/

/-- WRITING reads 0: a record is written as one command. -/
def Goose.statReg (g : Goose) : Reg :=
  pack [(b2n g.frozen, 0), (b2n g.nvmFail, 1), (g.queue.length, 16), (g.lost.toNat, 32)]

def State.gooseRead (s : State) (o : Nat) : Option RegRead :=
  let g := s.goose
  match o with
  | 0x00 => some (g.statReg, s)
  | 0x08 => some (pack [(g.freezeMaxS.toNat, 8)], s)
  | 0x10 => some (pack [(g.nextSeq.toNat, 0), (g.oldestSeq.toNat, 32)], s)
  | 0x18 => some (g.cursor.setWidth 64, s)
  | 0x20 => some (pack [(g.hours.toNat, 0), (g.pcycle.toNat, 32)], s)
  | _ => match arrayIx 0x1000 8 512 o with
    | some w => some (BitVec.ofNat 64 (leAt (g.windowRecord (w / 8)) (8 * (w % 8)) 8), s)
    | none => none

def State.gooseWrite (s : State) (o : Nat) (v : Reg) : State :=
  match o with
  | 0x00 => s.modGoose (fun g => { g with nvmFail := g.nvmFail && !bitB v 1 })
  | 0x08 => s.writeGooseCtrl v
  | 0x18 => s.modGoose (fun g => { g with cursor := fld v 0 32 })
  | _ => s

/-! ## FAB (R316) -/

def FabBlk.idReg (f : FabBlk) : Reg :=
  let c (d : Nat) : Nat := if f.coordValid then (f.coord.getD d 0).toNat else 0
  pack [(f.dev.toNat, 0), (c 0 % 8, 16), (c 1 % 8, 20), (c 2 % 16, 24), (c 3 % 16, 28), (b2n f.coordValid, 32),
    (f.coordMode.toNat, 33), (b2n f.conflict, 35)]

def FabBlk.sysReg (f : FabBlk) : Reg :=
  pack [(f.systemId.toNat, 0), (f.size 0 % 16, 32), (f.size 1 % 16, 36), (f.size 2 % 16, 40), (f.size 3 % 32, 44),
    (f.iflDiff.toNat, 56)]

/-- Every lane of the trunk is UP at width 8. -/
def State.trunkFull (s : State) (t : Nat) : Bool :=
  (trunkLanes t).all (fun k => (s.lane k).state == .up && (s.lane k).width == 8)

def bitsWhere (n : Nat) (p : Nat → Bool) : Nat := (List.range n).foldl (fun a i => a + b2n (p i) * 2 ^ i) 0

def State.trunkStat (s : State) : Reg :=
  pack [(bitsWhere 8 s.trunkUp, 0), (bitsWhere 8 s.trunkFull, 8), (s.fab.lsuPresent.toNat, 16), (s.fab.lsuOk.toNat, 20),
    (s.fab.downEvt.toNat, 24)]

def FabBlk.fmapReg (f : FabBlk) (i : Nat) : Reg :=
  match f.fmap.find? (fun e => e.1 == i) with
  | some (_, e) => pack [(e.dev.toNat, 0), (e.trunk.toNat, 14), (e.src.toNat, 17), (1, 31)]
  | none => 0

def Lane.statReg (l : Lane) : Reg :=
  pack [(l.state.code, 0), (l.txMask.toNat, 8), (l.rxMask.toNat, 16), (l.misCause.toNat, 24), (l.retrains.toNat, 32)]

def Lane.errReg (l : Lane) : Reg := pack [(l.corr.toNat, 0), (l.uncorr.toNat, 24), (l.replays.toNat, 40), (l.los.toNat, 56)]

def Lane.injReg (l : Lane) : Reg :=
  pack [(l.injDrop.toNat, 0), (l.injCorrupt.toNat, 20), (l.injReorder.toNat, 40), (b2n l.corruptKind, 60)]

/-- The four registers of lane k. -/
def State.laneRead (s : State) (k j : Nat) : Option RegRead :=
  let l := s.lane k
  match j with
  | 0 => some (l.statReg, s.modLane k (fun l => { l with retrains := 0 }))
  | 1 => some (l.errReg, s.modLane k (fun l => { l with corr := 0, uncorr := 0, replays := 0, los := 0 }))
  | 2 => some (l.injReg, s)
  | 3 => some (pack [(b2n l.disable, 0), (b2n l.listenEn, 1)], s)
  | _ => none

def State.fabRead (s : State) (o : Nat) : Option RegRead :=
  let f := s.fab
  match o with
  | 0x00 => some (f.idReg, s)
  | 0x08 => some (f.sysReg, s.modFab (fun f => { f with iflDiff := 0 }))
  | 0x10 => some (s.trunkStat, s)
  | 0x18 => some (pack [(f.unreach.toNat, 0), (f.expired.toNat, 16), (f.hdrErr.toNat, 32), (f.pcrcErr.toNat, 48), (f.poisonRx.toNat, 56)],
      s.modFab (fun f => { f with unreach := 0, expired := 0, hdrErr := 0, pcrcErr := 0, poisonRx := 0 }))
  | 0x20 => some (pack [(f.retx.toNat, 0), (f.failed.toNat, 16), (f.dupCount.toNat, 32), (f.busy.toNat, 48)],
      s.modFab (fun f => { f with retx := 0, failed := 0, dupCount := 0, busy := 0 }))
  | 0x28 => some (pack [(b2n f.injEn, 0), (b2n f.permit, 1), (b2n f.injBad, 2)], s)
  | 0x30 => some (f.injSeed, s)
  | 0x38 => some (pack [(f.fmap.length, 0), (b2n f.fmapOvf, 8), (f.noticesSent.toNat, 16), (f.noticesRecv.toNat, 32)],
      s.modFab (fun f => { f with noticesSent := 0, noticesRecv := 0 }))
  | _ => match arrayIx 0x100 8 64 o with
    | some i => some (f.fmapReg i, s)
    | none => match arrayIx 0x1000 8 256 o with
      | some j => s.laneRead (j / 4) (j % 4)
      | none => none

def State.fabWrite (s : State) (o : Nat) (v : Reg) : State :=
  match o with
  | 0x00 => s.modFab (fun f => { f with conflict := f.conflict && !bitB v 35 })
  | 0x10 => s.modFab (fun f => { f with downEvt := f.downEvt &&& ~~~(fld v 24 8) })
  | 0x28 => s.writeInjCtrl v
  | 0x30 => s.writeInjSeed v
  | 0x38 => s.modFab (fun f => { f with fmapOvf := f.fmapOvf && !bitB v 8 })
  | _ => match arrayIx 0x100 8 64 o with
    | some i => s.modFab (fun f => f.writeFmap i v)
    | none => match arrayIx 0x1000 8 256 o with
      | some j => if j % 4 = 2 then s.writeLaneInj (j / 4) v else if j % 4 = 3 then (s.writeLaneCtrl (j / 4) v).settle else s
      | none => s

/-! ## ETH (R361) -/

def State.portRead (s : State) (p j : Nat) : Option RegRead :=
  let e := s.eth.ports.getD p {}
  let clear (f : EthPort → EthPort) : State := s.modEth (fun x => { x with ports := vmod x.ports p f })
  match j with
  | 0 =>
    let n := (s.eth.qps.filter (fun q => q.port == p)).length
    some (pack [(b2n e.linkUp, 0), (e.lanes.toNat, 1), (b2n e.fecLock, 8), (n, 16)], s)
  | 1 => some (pack [(b2n e.disable, 0), (b2n e.pfcEn, 1), (e.pfcPrio.toNat, 2), (b2n e.roleCtrl, 8), (b2n e.roleBulk, 9)], s)
  | 2 => some (pack [(e.fecCorr.toNat, 0), (e.fecUncorr.toNat, 24), (e.fcsErr.toNat, 40), (e.dropOther.toNat, 56)],
      clear (fun e => { e with fecCorr := 0, fecUncorr := 0, fcsErr := 0, dropOther := 0 }))
  | 3 => some (pack [(e.nakSent.toNat, 0), (e.rejAddr.toNat, 16), (e.cnpSent.toNat, 32), (e.rnrSent.toNat, 48)],
      clear (fun e => { e with nakSent := 0, rejAddr := 0, cnpSent := 0, rnrSent := 0 }))
  | _ => none

def State.ethRead (s : State) (o : Nat) : Option RegRead :=
  let e := s.eth
  if o = 0x100 then
    some (pack [(e.cmds.toNat, 0), (e.badTag.toNat, 16), (e.staleSeq.toNat, 32), (e.busy.toNat, 48), (e.replayed.toNat, 56)],
      s.modEth (fun e => { e with cmds := 0, badTag := 0, staleSeq := 0, busy := 0, replayed := 0 }))
  else if o = 0x108 then
    some (pack [(e.ptp.domain.toNat, 0), (b2n e.ptp.masterOk, 8), (e.ptp.lastOffset.toNat, 32)], s)
  else match arrayIx 0 8 16 o with
    | some i => s.portRead (i / 8) (i % 8)
    | none => none

/-- A port whose link is gone (R361): nothing is locked, and a pause ends with the link. -/
def EthPort.down (p : EthPort) : EthPort := { p with linkUp := false, lanes := 0, fecLock := false, paused := false }

/-- ETH.PORT_CTRL written. -/
def EthPort.writeCtrl (p : EthPort) (v : Reg) : EthPort :=
  let p : EthPort := { p with disable := bitB v 0, pfcEn := bitB v 1, pfcPrio := fld v 2 3 }
  let p : EthPort := if p.pfcEn then p else { p with paused := false }
  if p.disable then p.down else p

/-- The pause of a port is over: what its QPs held leaves (R343). -/
def State.release (s : State) (p : Nat) : State :=
  s.modEth (fun e => { e with qps := e.qps.map (fun q => if q.port = p then { q with out := q.out ++ q.held, held := [] } else q) })

/-- ETH.PORT_CTRL of port p written; a pause that it ends lets go what was held. -/
def State.writePort (s : State) (p : Nat) (v : Reg) : State :=
  let s := s.modEth (fun e => { e with ports := vmod e.ports p (fun p => p.writeCtrl v) })
  if (s.eth.ports.getD p {}).paused then s else s.release p

def State.ethWrite (s : State) (o : Nat) (v : Reg) : State :=
  if o = 0x08 then s.writePort 0 v
  else if o = 0x48 then s.writePort 1 v
  else s

/-! ## HBM (R251, R267) -/

/-- The candidate of the selected pseudo-channel with the highest count. -/
def PcState.topCand (p : PcState) : Nat × Nat :=
  p.cands.foldl (fun b c => if b.2 < c.2.toNat then (c.1, c.2.toNat) else b) (63, 0)

def MemSys.pcView (ms : MemSys) : Reg :=
  let p := ms.pcState ms.hbm.pcSelStack.toNat ms.hbm.pcSelPc.toNat
  pack [(p.ret0.toNat, 0), (p.ret1.toNat, 8), (p.topCand.1, 16), (p.topCand.2, 32)]

def StackRegs.eccReg (r : StackRegs) : Reg :=
  pack [(r.ce.toNat, 0), (r.ue.toNat, 24), (r.retiredCount, 40), (b2n r.retRefused, 47), (r.poisonWr.toNat, 48)]

/-- What a read clears of the heat-cache registers. -/
def MemSys.hcClear (ms : MemSys) (o : Nat) : MemSys :=
  match arrayIx 0x10 8 4 o with
  | some d => ms.modDie d (fun x => { x with discards := 0 })
  | none => match arrayIx 0x40 8 4 o with
    | some d => ms.modDie d (fun x => { x with promotions := 0, evictions := 0, declined := 0 })
    | none => ms

def State.hbmRegRead (s : State) (o : Nat) : Option RegRead :=
  let h := s.ms.hbm
  let st (i : Nat) : StackRegs := h.stackRegs.getD i {}
  if 0x4000 ≤ o then (s.ms.hcReg (o - 0x4000)).map (fun v => (v, s.modMs (fun m => m.hcClear (o - 0x4000))))
  else match o with
  | 0x00 => some (pack [(h.retThresh.toNat, 0), (b2n h.retEn, 16), (b2n h.demandWb, 17), (b2n h.eccBad, 24)], s)
  | 0x08 => some (pack [(b2n h.scrubEn, 0), (h.periodH.toNat, 8), (b2n h.scrubBad, 16)], s)
  | 0x180 => some (pack [(h.ueAddr.toNat, 0), (h.ueStack.toNat, 40), (h.uePc.toNat, 43), (b2n h.ueScrub, 48), (b2n h.ueValid, 49),
      (b2n h.ueOverwritten, 50)], s.modMs (fun m => { m with hbm := { m.hbm with ueValid := false, ueOverwritten := false } }))
  | 0x188 => some (h.ueFt, s)
  | 0x200 => some (pack [(h.pcSelStack.toNat, 0), (h.pcSelPc.toNat, 4)], s)
  | 0x208 => some (s.ms.pcView, s)
  | _ => match arrayIx 0x10 8 8 o with
    | some i => some (pack [((st i).scrubLine.toNat, 6), ((st i).passes.toNat, 48)], s)
    | none => match arrayIx 0x100 8 8 o with
      | some i => some ((st i).eccReg, s.modMs (fun m => m.modStack i (fun r => { r with ce := 0, ue := 0, poisonWr := 0 })))
      | none => match arrayIx 0x300 8 8 o with
        | some i => some (pack [((st i).tempC.toNat, 0), (b2n (st i).hot, 8), ((st i).hotTime.toNat, 16)],
            s.modMs (fun m => m.modStack i (fun r => { r with hotTime := 0 })))
        | none => none

def State.hbmRegWrite (s : State) (o : Nat) (v : Reg) : State :=
  match o with
  | 0x00 => s.modMs (fun m => { m with hbm := m.hbm.writeEcc v })
  | 0x08 => s.modMs (fun m => { m with hbm := m.hbm.writeScrub v })
  | 0x200 => s.modMs (fun m => { m with hbm := { m.hbm with pcSelStack := fld v 0 3, pcSelPc := fld v 4 5 } })
  | 0x208 => s.modMs (fun m => m.writePcView v)
  | 0x4000 => s.modMs (fun m => m.writeHcCtrl v)
  | _ => match arrayIx 0x100 8 8 o with
    | some i => s.modMs (fun m => m.modStack i (fun r => { r with retRefused := r.retRefused && !bitB v 47 }))
    | none => s

/-! ## Core blocks (R44, R78, R105, R126, R159, R183, R252, R433) -/

def State.identReg (s : State) (c : Nat) : Reg :=
  let k := (s.core c).id
  pack [(c, 0), (c / 2, 4), (k.rank.toNat, 8), (k.partition.toNat, 12), (k.jobTag.toNat, 32)]

def CoreIdent.modeReg (k : CoreIdent) : Reg :=
  pack [(b2n k.bcast, 0), (k.groupSize.toNat, 1), (k.bellwether.toNat, 4), (b2n k.active, 8), (b2n k.writeRej, 16)]

def MsgQueue.statReg (q : MsgQueue) : Reg :=
  pack [(q.entries.length, 0), (b2n q.full, 8), (b2n q.entries.isEmpty, 9), (b2n q.locked, 10), (b2n q.flushPending, 11),
    (b2n q.markValid, 12), (b2n q.overrun, 16), (b2n q.creditOvf, 17), (if q.kt4 then q.rdPos else 0, 24), (q.rejectCount.toNat, 32)]

/-- CORE.SEQ_STAT.STATE. SLD and ATOM answer at once, so 9 is never seen. -/
def State.seqState (s : State) (c : Nat) : Nat :=
  let k := s.core c
  let q := k.seq
  let headEnded := (s.groupOf c).any (fun d => (s.core d).isBellwether && (s.core d).seq.fetchEnded)
  if q.stopped then 7
  else if !k.id.active || q.ended then 0
  else match q.wait with
    | .cc _ _ _ _ => 4
    | .queue _ _ _ => 5
    | .drain _ _ => 8
    | .none => match q.stall with
      | .queueFull => 2
      | .scoreboard => 3
      | .none => if k.id.bcast && q.buf.isEmpty then (if headEnded && k.ringIn.isEmpty then 0 else 6) else 1

/-- SEQ_STAT (R78). PC has 17 bits and shows 0 after word 131,071 (DESIGN CHOICE, log 135). -/
def State.seqStat (s : State) (c : Nat) : Reg :=
  let q := (s.core c).seq
  pack [(q.pc.toNat % 131072, 0), (s.seqState c, 20), (q.callStack.length, 24), (q.sb.length, 32), (b2n q.fErr, 40), (b2n q.fTmo, 41)]

/-- An engine holds an operation for its launch time. -/
def State.holdsLaunch (s : State) (c : Nat) : Bool :=
  engUnits.any (fun u => match ((s.core c).eng u).queue with
    | q :: _ => !q.launchOk s.now
    | [] => false)

def PlaneState.code : PlaneState → Nat
  | .empty => 0 | .loading => 1 | .ready => 2

def OxPlane.fields (p : OxPlane) (lo : Nat) : List (Nat × Nat) :=
  [(p.state.code, lo), (p.fmt.toNat, lo + 4)] ++
    (if lo = 0 then [(p.k, 8), (p.n, 18)] else [(p.k, 40), (p.n, 50)])

def Core.oxStat (k : Core) : Reg :=
  let r (p : EngOp → Bool) (inRows : Bool) : Nat := b2n (k.ox.running.any (fun x => x.opIs p && (!inRows || x.inRows)))
  pack ((k.plane false).fields 0 ++ (k.plane true).fields 32
    ++ [(r EngOp.isLdw false, 60), (r EngOp.isStream true, 61), (r EngOp.isWgrad false, 62)])

def NumRegs.ovfReg (n : NumRegs) (g : Nat) : Reg := pack ((List.range 4).map (fun i => ((n.ovf.getD (4 * g + i) 0).toNat, 16 * i)))

def NumRegs.statReg (n : NumRegs) : Reg := pack [(n.nanIn.toNat, 0), (n.nanOut.toNat, 16), (n.infIn.toNat, 32), (n.unf.toNat, 48)]

def NumState.flagsReg (n : NumState) : Reg :=
  pack [(n.ovfFlags.toNat, 0), (n.nanFlags.toNat, 8), (n.infFlags.toNat, 16), (n.unfFlags.toNat, 24)]

def State.modNum (s : State) (c : Nat) (f : NumState → NumState) : State := s.modCore c (fun k => { k with num := f k.num })

def State.numRead (s : State) (c o : Nat) : Option RegRead :=
  let n := (s.core c).num
  if o = 0x900 then some (n.flagsReg, s)
  else match arrayIx 0x910 8 4 o with
    | some e => some ((n.eng.getD e {}).statReg, s.modNum c (fun n =>
        { n with eng := vmod n.eng e (fun (x : NumRegs) => { x with nanIn := 0, nanOut := 0, infIn := 0, unf := 0 }) }))
    | none => match arrayIx 0x940 8 16 o with
      | some i =>
        let e := i / 4
        let g := i % 4
        if g = 3 then none
        else some ((n.eng.getD e {}).ovfReg g, s.modNum c (fun n =>
          { n with eng := vmod n.eng e (fun (x : NumRegs) =>
              { x with ovf := (List.range 4).foldl (fun v j => vmod v (4 * g + j) (fun _ => 0)) x.ovf }) }))
      | none => none

def State.statUse (s : State) (c : Nat) : Reg :=
  let r := (s.core c).rowr
  pack [(r.dir.length, 0), ((r.runs c).foldl (fun a x => a + x.2) 0, 16), (r.largestFree c, 40)]

/-- CUR_OP of an ATT opcode. -/
def attOpCode (r : REntry) : Nat × Nat :=
  match r.q.op with
  | some (.att opc _ slot) => (if opc.toNat ≤ 5 then opc.toNat else 0, slot)
  | _ => (0, 0)

/-- The span a FWD or BWD streams: one of those it processes, in ascending order; how far it has come is free. Any other
operation streams none (R183; DESIGN CHOICE, log 77). -/
def State.curSpan (s : State) (c : Nat) (r : REntry) : Nat :=
  let spans := (AttDesc.of r.desc).spans r.slot
  if 1 ≤ (attOpCode r).1 ∧ (attOpCode r).1 ≤ 2 then spans.getD (min (Config.spansPast c s.now) (spans.length - 1)) 0 else 0

def State.attStat (s : State) (c : Nat) : Reg :=
  let k := s.core c
  let valid := bitsWhere 16 (fun i => (s.slot c i).valid)
  match k.att.ops with
  | r :: _ => pack [(valid, 0), (1, 16), ((attOpCode r).2 % 16, 17), ((attOpCode r).1, 21), (s.curSpan c r, 32)]
  | [] => pack [(valid, 0)]

def AttRegs.faultReg (a : AttRegs) : Reg :=
  pack [(a.faultPage.toNat, 0), (a.faultSlot.toNat, 16), (a.faultKind.toNat, 20), (b2n a.faultValid, 24), (a.faultCount.toNat, 32)]

def AttSlot.reg (t : AttSlot) (j : Nat) : Reg :=
  match j with
  | 0 => pack [(b2n t.valid, 0), (t.dcode.toNat % 4, 1), (t.kvFmt.toNat % 16, 4), (t.kvHeads.toNat % 32, 8), (t.len.toNat, 32)]
  | 1 => pack [(t.table.toNat, 0), (t.entries.toNat, 48)]
  | _ => t.pitch.setWidth 64

def Core.memStat (k : Core) : Reg :=
  pack [(k.cache.pfDrop.toNat, 0), (k.cache.pfInval.toNat, 16), (k.cache.dirtyCount, 32), (b2n (!k.cacheq.running.isEmpty), 63)]

/-- Threads of the GATHER or WALK under way that hold an element, and those of them parked on a miss: no more than it has
elements, and none parked while no element misses. The counts themselves are free (R245, R252; log 77). -/
def State.threads (s : State) (c : Nat) (r : REntry) : Nat × Nat :=
  let run := min (Config.threadsRunning c s.now).val (gathCount r)
  (run, if s.gathMisses c r then min (Config.threadsParked c s.now).val run else 0)

def State.gathStat (s : State) (c : Nat) : Reg :=
  let k := s.core c
  let bad := k.cache.badIndex.toNat
  match k.gath.ops with
  | r :: _ =>
    let op := match r.q.op with
      | some (.gather _) => 1
      | _ => 2
    pack [(1, 0), (op, 1), ((s.threads c r).1, 8), ((s.threads c r).2, 16), (bad, 32)]
  | [] => pack [(bad, 32)]

/-- Word j of region r. -/
def Core.regionReg (k : Core) (r j : Nat) : Reg :=
  let e : RegionEntry := tabGet k.region.table r {}
  match j with
  | 0 => pack [(e.count.toNat, 0), (e.late.toNat, 32), (b2n (k.seq.regions.any (fun x => x.1.toNat == r)), 48), (b2n e.planned, 49)]
  | 1 => e.total
  | 2 => e.last.setWidth 64
  | _ => pack [(e.lastSlip.toNat, 0), (e.maxSlip.toNat, 32)]

def State.queueRead (s : State) (c q : Nat) : RegRead :=
  (((s.core c).queue q).statReg, s.modCore c (fun k => k.modQueue q (fun x => { x with rejectCount := 0 })))

def State.coreRead (s : State) (c o : Nat) : Option RegRead :=
  let k := s.core c
  let e := k.err
  let onErr (f : ErrRegs → ErrRegs) : State := s.modCore c (fun k => k.modErr f)
  match o with
  | 0x000 => some (s.identReg c, s)
  | 0x008 => some (k.id.modeReg, s)
  | 0x010 => some (pack [(if k.id.bcast then k.seq.buf.length else 0, 0), (b2n k.ringHeld, 8)], s)
  | 0x018 => some (pack [(k.msg.tagReject.toNat, 0), (k.msg.statusTimeout.toNat, 16), (k.msg.lateStatus.toNat, 32)],
      s.modCore c (fun k => k.modMsg (fun m => { m with tagReject := 0, statusTimeout := 0, lateStatus := 0 })))
  | 0x200 => some (s.seqStat c, s)
  | 0x208 => some (pack [(b2n e.stopOnErr, 0)], s)
  | 0x210 => some (pack [(e.illegal.toNat, 0), (e.inconsistent.toNat, 16), (e.waitTimeout.toNat, 32), (e.gooseSupp.toNat, 48), (e.remoteSigRej.toNat, 56)],
      onErr (fun r => { r with illegal := 0, inconsistent := 0, waitTimeout := 0, gooseSupp := 0, remoteSigRej := 0 }))
  | 0x218 => some (e.lastErr, onErr (fun r => { r with leValid := false, leOverwritten := false }))
  | 0x220 => some (e.leFt, s)
  | 0x228 => some (pack [(e.lateCount.toNat, 0), (e.maxLate.toNat, 16), (b2n (s.holdsLaunch c), 48)],
      onErr (fun r => { r with lateCount := 0, maxLate := 0 }))
  | 0x800 => some (k.oxStat, s)
  | 0xA00 => some (pack [(k.rowr.nospace.toNat, 0), (k.rowr.replaced.toNat, 16), (k.rowr.freeMiss.toNat, 32)],
      s.modRow c (fun r => { r with nospace := 0, replaced := 0, freeMiss := 0 }))
  | 0xA08 => some (s.statUse c, s)
  | 0xB00 => some (s.attStat c, s)
  | 0xB08 => some (k.attr.faultReg, s.modAtt c (fun a => { a with faultValid := false, faultCount := 0 }))
  | 0xE00 => some (k.memStat, s.modCache c (fun x => { x with pfDrop := 0, pfInval := 0 }))
  | 0xE08 => some (s.gathStat c, s)
  | 0xF00 => some (pack [(k.region.lateNs.toNat, 0), (b2n k.region.recEn, 32)], s)
  | 0xF08 => some (pack [(k.seq.regions.length, 0), (k.region.abandoned.toNat, 16)],
      s.modCore c (fun k => { k with region := { k.region with abandoned := 0 } }))
  | _ => match arrayIx 0x100 8 16 o with
    | some q => some (s.queueRead c q)
    | none => match arrayIx 0x180 8 16 o with
      | some q => some (pack [(b2n (k.queue q).kt4, 8)], s)
      | none => match arrayIx 0x400 8 64 o with
        | some i => some ((k.cc i).setWidth 64, s)
        | none => match arrayIx 0xC00 8 64 o with
          | some i => if i % 4 = 3 then none else some ((s.slot c (i / 4)).reg (i % 4), s)
          | none => match arrayIx 0x10000 8 16384 o with
            | some i => some (k.regionReg (i / 4) (i % 4), s)
            | none => s.numRead c o

/-- CORE.MODE written (R29, R30): ignored with WRITE_REJ on an active core. -/
def CoreIdent.writeMode (k : CoreIdent) (c : Nat) (v : Reg) : CoreIdent :=
  if k.active then { k with writeRej := true }
  else { k with bcast := bitB v 0, groupSize := fld v 1 2, bellwether := fld v 4 3, writeRej := k.writeRej && !bitB v 16,
                rank := if bitB v 0 then BitVec.ofNat 3 (c % 2 ^ fldN v 1 2) else 0 }

def State.writeMode (s : State) (c : Nat) (v : Reg) : State := s.modCore c (fun k => { k with id := k.id.writeMode c v })

/-- KT4 of a queue written (R43); a change also clears the read position and the mark (DESIGN CHOICE, log 145). -/
def MsgQueue.writeKt4 (q : MsgQueue) (b : Bool) : MsgQueue :=
  if q.kt4 = b then q
  else if q.entries.isEmpty && !q.locked then { q with kt4 := b, rdPos := 0, mark := 0, markValid := false }
  else { q with overrun := true }

def State.writeKt4 (s : State) (c q : Nat) (b : Bool) : State := s.modCore c (fun k => k.modQueue q (fun x => x.writeKt4 b))

/-- CORE.MSGQ_CTRL written; where one write asks for both, which acts first is open. -/
def State.writeMsgq (s : State) (c q : Nat) (v : Reg) : State :=
  if !bitB v 0 then s.writeKt4 c q (bitB v 8)
  else if Config.flushFirst c q s.now then (s.requestFlush c q).writeKt4 c q (bitB v 8)
  else (s.writeKt4 c q (bitB v 8)).requestFlush c q

def NumState.writeFlags (n : NumState) (v : Reg) : NumState :=
  { n with ovfFlags := n.ovfFlags &&& ~~~(fld v 0 4), nanFlags := n.nanFlags &&& ~~~(fld v 8 4),
           infFlags := n.infFlags &&& ~~~(fld v 16 4), unfFlags := n.unfFlags &&& ~~~(fld v 24 4) }

def State.coreWrite (s : State) (c o : Nat) (v : Reg) : State :=
  match o with
  | 0x008 => s.writeMode c v
  | 0x208 => s.modCore c (fun k => k.modErr (fun r => { r with stopOnErr := bitB v 0 }))
  | 0x900 => s.modNum c (fun n => n.writeFlags v)
  | 0xF00 => s.modCore c (fun k => { k with region := { k.region with lateNs := fld v 0 32, recEn := bitB v 32 } })
  | _ => match arrayIx 0x100 8 16 o with
    | some q => s.modCore c (fun k => k.modQueue q (fun x =>
        { x with overrun := x.overrun && !bitB v 16, creditOvf := x.creditOvf && !bitB v 17 }))
    | none => match arrayIx 0x180 8 16 o with
      | some q => (s.writeMsgq c q v).settle
      | none => s

/-! ## UD blocks (R136, R225) -/

def Ud.statReg (d : Ud) : Reg :=
  match d.running with
  | some c =>
    pack [(1, 0), (c.part, 1), (leAt c.bytes 2 2 % 4096, 4), (leAt c.bytes 0 1 % 4, 16), (b2n (c.borrow != 0), 20), (d.statChunk.toNat, 32)]
  | none => 0

def Ud.ringReg (d : Ud) (p j : Nat) : Option Reg :=
  let r := d.rings.getD p {}
  match j with
  | 0 => some (r.base.setWidth 64)
  | 1 => some (pack [(r.log2.toNat, 0), (b2n r.enable, 8)])
  | 2 => some (pack [(r.head.toNat % 2 ^ 32, 0), (r.tail.toNat % 2 ^ 32, 32)])
  | _ => none

def Ud.qlmCtrl (d : Ud) : Reg :=
  pack [(b2n d.qlmEn, 0), (b2n d.qlmEvtEn, 1), (d.qlmDest.toNat, 4), (d.qlmThresh.toNat, 16), (d.qlmSteps.toNat, 32), (b2n d.qlmBad, 48)]

/-- The entry that QLM_SEL names. -/
def Ud.selEntry (d : Ud) : QlmEntry := d.entry d.qlmSelPart.toNat d.qlmSelLayer.toNat

def QlmEntry.reg (e : QlmEntry) : Reg :=
  pack [(b2n e.layerEn, 0), (b2n e.quiet, 1), (e.count.toNat, 16), (e.lastBp.toNat, 32), (e.events.toNat, 48)]

def State.udRead (s : State) (u o : Nat) : Option RegRead :=
  let d := s.udOf u
  match o with
  | 0x00 => some (d.statReg, s)
  | 0x08 => some (pack [(d.shareP0.toNat, 0), (d.shareP1.toNat, 8), (b2n d.arbBad, 16)], s)
  | 0x10 => some (pack [(d.done.toNat, 0), (d.failed.toNat, 16), (d.ueChunks.toNat, 32), (d.rootKept.toNat, 48)],
      s.modUd u (fun d => { d with done := 0, failed := 0, ueChunks := 0, rootKept := 0 }))
  | 0x18 => some (pack [(d.ceCause.toNat, 0), (d.cePart.toNat, 8), (d.ceEntry.toNat, 16), (b2n d.ceValid, 32), (b2n d.ceOverwritten, 33)],
      s.modUd u (fun d => { d with ceValid := false, ceOverwritten := false }))
  | 0x20 => some (pack [(d.nanIn.toNat, 0), (d.nanOut.toNat, 16), (d.infIn.toNat, 32), (d.ovf.toNat, 48)],
      s.modUd u (fun d => { d with nanIn := 0, nanOut := 0, infIn := 0, ovf := 0 }))
  | 0x28 => some (pack [(d.tailRej.toNat, 0), (d.tailRejCount.toNat, 32)], s.modUd u (fun d => { d with tailRejCount := 0 }))
  | 0x400 => some (d.qlmCtrl, s)
  | 0x408 => some (pack [(d.qlmSelLayer.toNat, 0), (d.qlmSelPart.toNat, 16)], s)
  | 0x410 => some (d.selEntry.reg, s)
  | 0x418 => some (pack [(d.evtRej.toNat, 0), (d.evtSent.toNat, 16), (d.lastLayer.toNat, 32), (d.lastPart.toNat, 48)],
      s.modUd u (fun d => { d with evtRej := 0, evtSent := 0 }))
  | _ => match arrayIx 0x100 8 32 o with
    | some i => (d.ringReg (i / 4) (i % 4)).map (fun v => (v, s))
    | none => none

def State.udWriteReg (s : State) (u o : Nat) (v : Reg) : State :=
  match o with
  | 0x08 => s.modUd u (fun d => d.writeArb v)
  | 0x28 => s.modUd u (fun d => { d with tailRej := d.tailRej &&& ~~~(fld v 0 8) })
  | 0x400 => s.modUd u (fun d => d.writeQlmCtrl v)
  | 0x408 => s.modUd u (fun d => { d with qlmSelLayer := fld v 0 12, qlmSelPart := fld v 16 3 })
  | 0x410 => s.modUd u (fun d =>
      d.setEntry d.qlmSelPart.toNat d.qlmSelLayer.toNat { d.selEntry with layerEn := bitB v 0 })
  | _ => s

/-! ## The address map (R5, R6) -/

inductive Blk where
  | sys | rst | opt | pwr | time | goose | fab | eth | hbm
  | core (n : Nat)
  | ud (n : Nat)
  deriving DecidableEq, Repr

/-- Block and offset of a management address; none in no block. -/
def blkOf (a : Nat) : Option (Blk × Nat) :=
  if a < 0x10000 then some (.sys, a)
  else if a < 0x20000 then some (.rst, a - 0x10000)
  else if a < 0x30000 then some (.opt, a - 0x20000)
  else if a < 0x40000 then some (.pwr, a - 0x30000)
  else if a < 0x50000 then some (.time, a - 0x40000)
  else if a < 0x60000 then some (.goose, a - 0x50000)
  else if a < 0x100000 then none
  else if a < 0x180000 then some (.fab, a - 0x100000)
  else if a < 0x200000 then some (.eth, a - 0x180000)
  else if a < 0x300000 then some (.hbm, a - 0x200000)
  else if a < 0x1000000 then none
  else if a < 0x1800000 then some (.core ((a - 0x1000000) / 0x100000), a % 0x100000)
  else if a < 0x2000000 then none
  else if a < 0x2200000 then some (.ud ((a - 0x2000000) / 0x100000), a % 0x100000)
  else none

def State.blkRead (s : State) : Blk → Nat → Option RegRead
  | .sys => s.sysRead | .rst => s.rstRead | .opt => s.optRead | .pwr => s.pwrRead | .time => s.timeRead
  | .goose => s.gooseRead | .fab => s.fabRead | .eth => s.ethRead | .hbm => s.hbmRegRead
  | .core n => s.coreRead n | .ud n => s.udRead n

def State.blkWrite (s : State) : Blk → Nat → Reg → State
  | .sys => s.sysWrite | .rst => s.rstWrite | .opt => s.optWrite | .pwr => s.pwrWrite | .time => s.timeWrite
  | .goose => s.gooseWrite | .fab => s.fabWrite | .eth => s.ethWrite | .hbm => s.hbmRegWrite
  | .core n => s.coreWrite n | .ud n => s.udWriteReg n

/-- One register read (R351): value, status byte, state. -/
def State.regRead (s : State) (a : Nat) : Reg × Nat × State :=
  if a % 8 ≠ 0 then (0, 1, s)
  else match blkOf a with
    | none => (0, 2, s)
    | some (b, o) => match s.blkRead b o with
      | some r => (r.1, 0, r.2)
      | none => (0, 1, s)

/-- One register write (R351): status byte, state. -/
def State.regWrite (s : State) (a : Nat) (v : Reg) : Nat × State :=
  if a % 8 ≠ 0 then (1, s)
  else match blkOf a with
    | none => (2, s)
    | some (b, o) => if (s.blkRead b o).isSome then (0, s.blkWrite b o v) else (1, s)

/-! ## Rows -/

/-- CORE_MODE_WRITE (R30). -/
def execCoreModeWrite (c : CoreId) (v : Reg) (s : State) : Out := .next (s.writeMode c.val v)

/-- MSGQ_FLUSH_WRITE (R41). -/
def execMsgqFlushWrite (c : CoreId) (q : Fin 16) (s : State) : Out := .next (s.requestFlush c.val q.val).settle

/-- MSGQ_KT4_WRITE (R43). -/
def execMsgqKt4Write (c : CoreId) (q : Fin 16) (kt4 : Bool) (s : State) : Out := .next (s.writeKt4 c.val q.val kt4)

/-- REGISTER_WRITE (R5, R7): a 64-bit write at a management address. -/
def execRegisterWrite (a : BitVec 32) (v : Reg) (s : State) : Out := .next (s.regWrite a.toNat v).2

end Sys2Proof.Machine
end

