-- ==== Sys2Proof/Machine/Jobs.lean ====
section
/-! DEFINITION. Jobs and partitions: loading an image, starting it, ending its partition (R28, R29, R51, R124, R135, R157,
R166, R202, R203, R229 to R231, R331, R352, R375, R408, R431, R449). -/

namespace Sys2Proof.Machine

/-! ## JOB_LOAD -/

/-- What a JOB_LOAD payload says. -/
structure LoadReq where
  first  : Nat
  size   : Nat
  tag    : Nat
  addr   : Nat
  length : Nat
  digest : List Byte
  deriving DecidableEq, Repr

def LoadReq.of (b : List Byte) : LoadReq :=
  ⟨leAt b 0 1, leAt b 1 1, leAt b 2 2, leAt b 8 8, leAt b 16 8, slice b 24 32⟩

/-- [a, a + n) lies in the load area (R352). -/
def State.inLoadArea (s : State) (a n : Nat) : Bool :=
  let lo := s.fl.scAt 0x26 2 * 2 ^ 30
  decide (lo ≤ a ∧ a + n ≤ lo + s.fl.scAt 0x28 2 * 2 ^ 30)

/-- FIRST_CORE and SIZE name a partition that R28 allows. -/
def LoadReq.aligned (r : LoadReq) : Bool := [1, 2, 4, 8].contains r.size && decide (r.first < 8) && r.first % r.size == 0

/-- A core of the partition belongs to another loaded partition. -/
def State.coresTaken (s : State) (first size : Nat) : Bool :=
  (List.range 8).any (fun p => (s.part p).state != .empty && overlaps first size p (s.part p).size)

def JobRegion.gib (r : JobRegion) : Nat × Nat := (r.base.toNat, r.size.toNat + 1)

/-- The regions of an image: at most 16, inside HBM, apart from one another, from every assigned region and from the load
area. -/
def State.regionsFree (s : State) (rs : List JobRegion) : Bool :=
  let want := rs.map JobRegion.gib
  let taken := (s.ms.preg.toList.filter (fun r => r.valid)).map (fun r => (r.base.toNat, r.size.toNat + 1))
    ++ [(s.fl.scAt 0x26 2, s.fl.scAt 0x28 2)]
  decide (rs.length ≤ 16) && want.all (fun r => decide (r.1 + r.2 ≤ 1024)) && !rangesOverlap want
    && want.all (fun r => taken.all (fun t => !overlaps r.1 r.2 t.1 t.2))

/-- [a, a + n) lies in the regions of an image. -/
def inJobRegions (rs : List JobRegion) (a n : Nat) : Bool :=
  rs.any (fun r => decide (r.base.toNat * 2 ^ 30 ≤ a ∧ a + n ≤ (r.base.toNat + r.size.toNat + 1) * 2 ^ 30))

/-- A ring of the image: 16 to 4,096 entries behind a doorbell granule, in the job's regions (R203). -/
def State.ringOk (s : State) (rs : List JobRegion) (r : JobRing) : Bool :=
  decide (4 ≤ r.log2.toNat ∧ r.log2.toNat ≤ 12) && r.base.toNat % 64 == 0
    && s.ms.onSide r.ud.val r.base.toNat (64 + 128 * 2 ^ r.log2.toNat)
    && inJobRegions rs r.base.toNat (64 + 128 * 2 ^ r.log2.toNat)

/-- Every device of the map names a module of the system (R449). -/
def FabBlk.mapOk (f : FabBlk) (m : BitVec 12288) : Bool :=
  (List.range 12288).all (fun d => !m.getLsbD d || f.inSizes d)

/-- The checks of an image whose digest is right (IMAGE of R350). -/
def State.imageOk (s : State) (r : LoadReq) (i : JobImage) : Bool :=
  let tagUsed := (List.range 8).any (fun p => (s.part p).state != .empty && (s.part p).jobTag.toNat == r.tag)
  r.tag != 0 && !tagUsed && decide (i.iflevel ≤ s.rst.stIflevel)
    && i.steppings.getLsbD s.rst.stepping.toNat && i.cores.length == r.size
    && i.ilv.all (fun g => fldN s.ms.hcCtrl.ilvMode (2 * g.1.val) 2 == g.2.toNat)
    && s.regionsFree i.regions && (i.slots.isNone || s.time.schedTag == 0) && i.rings.all (s.ringOk i.regions)
    && i.shares.all (fun x => decide (x.2.1.toNat ≤ 16 ∧ x.2.2.toNat ≤ 16)) && s.fab.mapOk i.devMap

/-- Status of a JOB_LOAD that is refused before its image is read (R350, R352); 0 when none is. -/
def State.loadRefused (s : State) (r : LoadReq) : Nat :=
  if !r.aligned then 0x10
  else if (s.part r.first).state ≠ .empty then 0x11
  else if s.coresTaken r.first r.size then 0x10
  else if r.length = 0 ∨ s.inLoadArea r.addr r.length = false then 0x13
  else 0

/-- Status of a JOB_LOAD before anything is placed (R350, R352). -/
def State.loadStatus (s : State) (r : LoadReq) (img : Option JobImage) : Nat :=
  if s.loadRefused r ≠ 0 then s.loadRefused r
  else if s.ms.badRange r.addr r.length ∨ sha256 (s.ms.bytes r.addr r.length) ≠ r.digest then 0x12
  else match img with
    | some i => if s.imageOk r i then 0 else 0x13
    | none => 0x13

/-- Core c of a partition as JOB_LOAD leaves it. -/
def Core.loaded (k : Core) (c first : Nat) (tag : BitVec 16) (j : JobCore) : Core :=
  { k with
    id := { k.id with partition := BitVec.ofNat 4 first, jobTag := tag, bcast := j.bcast, groupSize := j.groupSize,
                      bellwether := j.bellwether, rank := if j.bcast then BitVec.ofNat 3 (c % 2 ^ j.groupSize.toNat) else 0 }
    imem := j.words.foldl (fun t w => tabSet t w.1.toNat w.2) []
    entry := if j.used then some j.entry else none
    num := {}
    rowr := { k.rowr with dir := [] }
    attr := { k.attr with slots := Vector.replicate 16 {} }
    region := { k.region with table := [] } }

/-- QLM entry of a layer when its partition is loaded (R135); LAST_BP stays. -/
def QlmEntry.atLoad (e : QlmEntry) : QlmEntry := { lastBp := e.lastBp }

/-- A ring of the image in service, its pointers and doorbell granule zeroed (R203). -/
def State.openRing (s : State) (p : Nat) (r : JobRing) : State :=
  let s := (s.udWrite r.base.toNat (List.replicate 16 0)).1
  let s := (s.modUd r.ud.val (fun d => { d with rings := vmod d.rings p (fun _ => ⟨r.base, r.log2, true, 0, 0⟩) })).repin
  let l := s.ms.loc r.base.toNat
  match (s.ms.hc.getD l.die {}).find l.page with
  | some (i, _) => s.modMs (fun m => m.evict l.die i)
  | none => s

/-- Slot tables of the image (R331). -/
def TimeBlk.loadSlots (t : TimeBlk) (tag : BitVec 16) (x : JobSlots) : TimeBlk :=
  { t with frameM1 := x.frameM1, lateSlots := x.lateSlots, schedTag := tag, schedEn := true, schedEpoch := 0,
           slots := x.entries.foldl (fun l e => if e.2 = 0 then l else tabSet l e.1 e.2) [] }

/-- The image is placed. -/
def State.placeImage (s : State) (r : LoadReq) (i : JobImage) : State :=
  let p := r.first
  let tag : BitVec 16 := BitVec.ofNat 16 r.tag
  let s := (i.cores.zip (List.range r.size)).foldl (fun s x => s.modCore (p + x.2) (fun k => k.loaded (p + x.2) p tag x.1)) s
  let s := s.modMs (fun m =>
    { m with preg := (i.regions.zip (List.range 16)).foldl (fun v x =>
        vmod v (16 * p + x.2) (fun _ => ⟨x.1.base, x.1.size, true, x.1.scratch, x.1.nopf⟩)) m.preg })
  let s := (List.range 2).foldl (fun s u => s.modUd u (fun d =>
    { d with qlm := (d.qlm.map (fun e => if e.1 / 4096 = p then (e.1, e.2.atLoad) else e)).filter (fun e => e.2 != {}) })) s
  let s := i.shares.foldl (fun s x => s.modUd x.1.val (fun d => { d with shareP0 := x.2.1, shareP1 := x.2.2 })) s
  let s := i.rings.foldl (fun s x => s.openRing p x) s
  let s := match i.slots with
    | some x => s.modTime (fun t => t.loadSlots tag x)
    | none => s
  let first := !s.anyJob
  let s := s.modPart p (fun _ => { state := .loaded, size := r.size, jobTag := tag, devMap := i.devMap })
  let s := s.modSec (fun x => x.extend 5 (sha256
    (r.digest ++ leBytes 2 r.tag ++ [BitVec.ofNat 8 r.first, BitVec.ofNat 8 r.size])))
  if first then s.wakeAll.helloAll else s.wakeAll

/-- The image of a JOB_LOAD that is not refused before is read; an uncorrectable granule is recorded (R260). The
read has hint NORMAL (DESIGN CHOICE, log 146). -/
def State.imageRead (s : State) (r : LoadReq) : State := if s.loadRefused r = 0 then s.noteReads r.addr r.length 0 else s

def State.jobLoad (s : State) (r : LoadReq) (img : Option JobImage) : State × Nat :=
  let st := s.loadStatus r img
  match img with
  | some i => if st = 0 then (((s.imageRead r).placeImage r i).settle, 0) else (s.imageRead r, st)
  | none => (s.imageRead r, st)

/-! ## JOB_START -/

/-- CORE.MODE of core c is consistent within the partition (R22, R29). -/
def State.modeOk (s : State) (p c : Nat) : Bool :=
  let k := (s.core c).id
  let pt := s.part p
  if !k.bcast then true
  else
    let g := 2 ^ k.groupSize.toNat
    let g0 := c / g * g
    k.groupSize != 0 && decide (p ≤ g0 ∧ g0 + g ≤ p + pt.size) && decide (k.bellwether.toNat < g)
      && (List.range g).all (fun i =>
        let m := (s.core (g0 + i)).id
        m.bcast && m.groupSize == k.groupSize && m.bellwether == k.bellwether)

/-- The partition's job owns slot tables. -/
def State.ownsSlots (s : State) (p : Nat) : Bool := (s.part p).jobTag != 0 && s.time.schedTag == (s.part p).jobTag

/-- START_FT allowed, for a request received at `recv` and executed now. -/
def State.startTimeOk (s : State) (p : Nat) (start recv : BitVec 64) : Bool :=
  let n := start.toNat
  if n = 0 then !s.ownsSlots p
  else n % 128 == 0 && decide (recv.toNat + 1000000 ≤ n ∧ n ≤ recv.toNat + 1000000000 ∧ s.now.toNat + 100000 ≤ n)
    && (!s.ownsSlots p || s.time.aligned)

/-- A member of a broadcast group of which the image uses a core runs with it. -/
def State.coreRuns (s : State) (c : Nat) : Bool := (s.groupOf c).any (fun d => (s.core d).entry.isSome)

/-- The sequencer at program start (R51), numbers of operations going on. -/
def seqAtStart (c region0 : Nat) (k : Core) : SeqState :=
  let dev : Nat := 0x3FFF * 2 ^ 42
  let ar (i : Nat) : BitVec 56 :=
    BitVec.ofNat 56 (dev + (match i with | 0 => sramBase c | 1 => ctlBase c | 2 => region0 | _ => 0))
  { pc := (k.entry.getD 0).setWidth 18
    ar := (List.range 32).foldl (fun v i => vmod v i (fun _ => ar i)) (Vector.replicate 32 0)
    credits := if k.isBellwether then Vector.replicate 8 64 else Vector.replicate 8 0
    nextId := k.seq.nextId }

/-- Core c starts its program: planes EMPTY (R84), ACTIVE set. AR2 of a partition without an HBM region is 0 (DESIGN
CHOICE, log 103). -/
def State.startCore (s : State) (p c : Nat) : State :=
  let r0 := s.ms.preg.getD (16 * p) {}
  let base := if r0.valid then r0.base.toNat * 2 ^ 30 else 0
  s.modCore c (fun k =>
    { k with id := { k.id with active := true }, seq := seqAtStart c base k, ringHeld := false, ringIn := [], creditsBack := 0,
             planes := Vector.replicate 2 {} })

/-- Every core of the partition that runs starts. -/
def State.startPart (s : State) (p : Nat) : State :=
  let cs := ((s.part p).cores p).filter s.coreRuns
  let s := s.modEth (fun e => { e with armed := e.armed.filter (fun a => a.part != p) })
  (cs.foldl (fun s c => s.startCore p c) s).settle

/-- The plant rises to what the model predicts for the ceiling (R375). -/
def State.raisePlant (s : State) : State :=
  let x := s.heatCtx
  s.modPwr (fun p => { p with plantCmd := BitVec.ofNat 8 (p.leastCommand x p.ceilingW.toNat 0) })

def State.jobStart (s : State) (p : Nat) (start recv : BitVec 64) : State × Nat :=
  if 8 ≤ p then (s, 0x10)
  else if (s.part p).state ≠ .loaded then (s, 0x11)
  else if !s.startTimeOk p start recv then (s, 0x15)
  else if !((s.part p).cores p).all (s.modeOk p) then (s, 0x14)
  else
    let s := s.raisePlant
    let s := if s.ownsSlots p then s.modTime (fun t => { t with schedEpoch := start }) else s
    let s := s.modPart p (fun x => { x with state := .running })
    if start = 0 then (s.startPart p, 0)
    else (s.modEth (fun e => { e with armed := e.armed ++ [⟨p, start⟩] }), 0)

/-! ## ABORT and JOB_UNLOAD -/

/-- Partitions of the mask that an ABORT stops. -/
def State.abortable (s : State) (p : Nat) : Bool := (s.part p).state == .loaded || (s.part p).state == .running

/-- ABORT of every partition of a mask; a bit of a partition neither LOADED nor RUNNING, nor being loaded, gives JOB_STATE. -/
def State.jobAbort (s : State) (mask : BitVec 8) (loading : List Nat) : State × Nat :=
  let ps := (List.range 8).filter (fun p => mask.getLsbD p)
  let bad := ps.any (fun p => !s.abortable p && !loading.contains p)
  (((ps.filter s.abortable).foldl State.abortPart s).settle, if bad then 0x11 else 0)

/-- JOB_UNLOAD: regions, slot tables, sequence slots, QPs and windows released. What the cores' message queues hold stays
(DESIGN CHOICE, log 104). -/
def State.jobUnload (s : State) (p : Nat) : State × Nat :=
  if 8 ≤ p then (s, 0x10)
  else match (s.part p).state with
    | .loaded | .ended | .aborted =>
      let s := (s.closeRings p).releaseSlots p
      let s := ((s.part p).cores p).foldl (fun s c => s.modCore c (fun k =>
        { k with id := { k.id with partition := 0, jobTag := 0 }, imem := [], entry := none,
                 attr := { k.attr with slots := Vector.replicate 16 {} } })) s
      let s := s.modMs (fun m =>
        { m with preg := (List.range 16).foldl (fun v i => vmod v (16 * p + i) (fun _ => {})) m.preg })
      let s := s.modEth (fun e =>
        { e with qps := e.qps.filter (fun q => q.part != p), windows := e.windows.filter (fun w => w.part.toNat != p) })
      let s := s.modPart p (fun _ => {})
      (if s.anyJob then s else s.helloAll, 0)
    | _ => (s, 0x11)

/-! ## Row -/

/-- JOB_START_TIME (R352): FT reaches the START_FT of partition p. -/
def execJobStartTime (p : Fin 8) (s : State) : Out :=
  if s.stopped then .next s else
  match s.eth.armed.find? (fun a => a.part == p.val) with
  | some a => .next ((s.atFt a.ft).startPart p.val)
  | none => .next s

end Sys2Proof.Machine
end

