-- ==== Sys2Proof/Machine/Gmcp.lean ====
section
/-! DEFINITION. GMCP: messages, tags, sessions, the command queues and every operation (R345 to R355, R357, R412, R413,
R427, R444). Ports: 0 E0, 1 E1, 2 UART. -/

namespace Sys2Proof.Machine

/-! ## Messages (R346) -/

/-- The header of a message. -/
structure GmcpHdr where
  magic   : Nat
  version : Nat
  op      : Nat
  flags   : Nat
  status  : Nat
  session : Nat
  seq     : Nat
  len     : Nat
  res     : Nat
  deriving DecidableEq, Repr

def GmcpHdr.of (m : List Byte) : GmcpHdr :=
  ⟨leAt m 0 2, leAt m 2 1, leAt m 3 1, leAt m 4 2, leAt m 6 2, leAt m 8 8, leAt m 16 8, leAt m 24 4, leAt m 28 4⟩

/-- The tag is present. -/
def GmcpHdr.auth (h : GmcpHdr) : Bool := h.flags.testBit 1

/-- Header fields and sizes of a request are right. -/
def headerOk (m : List Byte) : Bool :=
  let h := GmcpHdr.of m
  h.magic == 0x4D47 && h.version == 1 && (h.flags == 0 || h.flags == 2) && h.status == 0 && h.res == 0
    && h.len % 8 == 0 && decide (h.len ≤ 8128) && m.length == 32 + h.len + (if h.auth then 32 else 0)

def gmcpBody (m : List Byte) : List Byte := slice m 32 (GmcpHdr.of m).len

/-- Operations of R349. -/
def gmcpOps : List Nat := [0x01, 0x02, 0x03, 0x10, 0x11, 0x12, 0x13, 0x14, 0x18, 0x19, 0x1A, 0x1B, 0x20, 0x28, 0x30, 0x38]

/-- The payload has the size, the reserved fields and the padding of its operation. -/
def payloadOk (op : Nat) (b : List Byte) : Bool :=
  let zero (o n : Nat) : Bool := allZero (slice b o n)
  let len (n : Nat) : Bool := b.length == n
  match op with
  | 0x01 | 0x14 => len 0
  | 0x02 => len 8
  | 0x03 => decide (8 ≤ b.length) && len (8 + 8 * leAt b 4 4)
  | 0x10 => len 56 && zero 4 4
  | 0x11 => len 16 && zero 1 7
  | 0x12 | 0x13 => len 8 && zero 1 7
  | 0x18 => len 32 && zero 2 2 && zero 12 4 && decide (leAt b 0 1 ≤ 1)
  | 0x19 | 0x1B => len 8 && zero 4 4
  | 0x1A => len 32 && zero 2 2 && zero 28 4 && decide (leAt b 1 1 ≤ 7)
  | 0x20 => len 8 && zero 2 6 && decide (leAt b 0 1 ≤ 1)
  | 0x28 => len 8 && zero 1 3 && decide (leAt b 0 1 ≤ 3)
  | 0x30 => len 32
  | 0x38 => len 8 && zero 1 7 && decide (leAt b 0 1 ≤ 1)
  | _ => true

/-- The operation needs a tag (R349, R427). -/
def needsTag (op : Nat) (b : List Byte) : Bool :=
  [0x03, 0x10, 0x11, 0x12, 0x13, 0x18, 0x19, 0x1A, 0x1B, 0x38].contains op || (op == 0x28 && decide (2 ≤ leAt b 0 1))

/-- Operations refused in restricted mode. -/
def notRestricted (op : Nat) : Bool := [0x10, 0x11, 0x18, 0x19, 0x1A, 0x1B].contains op

/-- The operator key; none when it is all zero. -/
def State.operatorKey (s : State) : Option (List Byte) :=
  let k := slice s.fl.sc 0x70 32
  if allZero k then none else some k

def padTo8 (b : List Byte) : List Byte := b ++ List.replicate ((8 - b.length % 8) % 8) 0

/-- A reply; tagged when a key is given. -/
def replyBytes (h : GmcpHdr) (status : Nat) (payload : List Byte) (key : Option (List Byte)) : List Byte :=
  let p := padTo8 payload
  let m := leBytes 2 0x4D47 ++ [1, BitVec.ofNat 8 h.op] ++ leBytes 2 (1 + 2 * b2n key.isSome) ++ leBytes 2 status
    ++ leBytes 8 h.session ++ leBytes 8 h.seq ++ leBytes 4 p.length ++ leBytes 4 0 ++ p
  match key with
  | some k => m ++ hmac256 k m
  | none => m

/-- A message in the frame of UART_TX (R444). -/
def uartFrame (m : List Byte) : List Byte :=
  let b := leBytes 2 m.length ++ m
  [0xA5, 0x5A] ++ b ++ leBytes 4 (crc32 b).toNat

/-- VLAN tag of the frames the module sends, from the standing configuration (R343, R390). -/
def State.vlanTag (s : State) : Option (BitVec 12) :=
  let v := s.fl.scAt 0x2C 2
  if v.testBit 12 then some (BitVec.ofNat 12 v) else none

/-- A reply leaves on its port, from the UDP port that the standing configuration names. -/
def State.sendReply (s : State) (port : Nat) (bytes : List Byte) : State :=
  if port = 2 then s.modPins (fun p => { p with uartTx := p.uartTx ++ [uartFrame bytes] })
  else
    let udp : BitVec 16 := BitVec.ofNat 16 (s.fl.scAt 0x24 2)
    s.modEth (fun e => { e with replies := e.replies ++ [⟨port, s.vlanTag, udp, bytes⟩] })

def State.refuse (s : State) (port : Nat) (m : List Byte) (status : Nat) : State :=
  s.sendReply port (replyBytes (GmcpHdr.of m) status [] none)

/-! ## Operations -/

/-- What an operation answers: status, payload, and the reset it asks for. -/
structure GmcpRes where
  st      : State
  status  : Nat := 0
  payload : List Byte := []
  reset   : Option Bool := none

def State.readRegs : Nat → State → Nat → State × List Reg × List Nat
  | 0, s, _ => (s, [], [])
  | n + 1, s, a =>
    let (v, st, s) := s.regRead a
    let r := State.readRegs n s (a + 8)
    (r.1, v :: r.2.1, st :: r.2.2)

def State.writeRegs (ok : Nat → Bool) : List Reg → State → Nat → State × List Nat
  | [], s, _ => (s, [])
  | v :: vs, s, a =>
    let (st, s) : Nat × State := if ok a then s.regWrite a v else (if (blkOf a).isNone then 2 else 1, s)
    let r := State.writeRegs ok vs s (a + 8)
    (r.1, st :: r.2)

/-- ADDR and COUNT of R351 are right. -/
def regRangeOk (a n : Nat) : Bool := a % 8 == 0 && decide (1 ≤ n ∧ n ≤ 256 ∧ a + 8 * n ≤ 2 ^ 32)

def statusBytes (l : List Nat) : List Byte := l.map (BitVec.ofNat 8)

def flagged (l : List Nat) : Nat := if l.any (· != 0) then 0x09 else 0

def State.opRegRead (s : State) (b : List Byte) : GmcpRes :=
  let a := leAt b 0 4
  let n := leAt b 4 4
  if regRangeOk a n then
    let r := State.readRegs n s a
    { st := r.1, status := flagged r.2.2, payload := r.2.1.flatMap (fun v => leBytes 8 v.toNat) ++ statusBytes r.2.2 }
  else { st := s, status := 0x0A }

/-- In ROM recovery only RST and OPT are written (R395). -/
def State.mayWrite (s : State) (a : Nat) : Bool := !s.rst.recovery || decide (0x10000 ≤ a ∧ a < 0x30000)

def State.opRegWrite (s : State) (b : List Byte) : GmcpRes :=
  let a := leAt b 0 4
  let n := leAt b 4 4
  if regRangeOk a n then
    let r := State.writeRegs s.mayWrite ((List.range n).map (fun i => BitVec.ofNat 64 (leAt b (8 + 8 * i) 8))) s a
    { st := r.1, status := flagged r.2, payload := statusBytes r.2 }
  else { st := s, status := 0x0A }

/-- QP_OPEN (R357); PART 0xFF serves the load area; the GID is read least significant byte first (log 155). -/
def State.opQpOpen (s : State) (b : List Byte) : GmcpRes :=
  let port := leAt b 0 1
  let part := leAt b 1 1
  if part ≠ 0xFF ∧ 8 ≤ part then { st := s, status := 0x10 }
  else if part ≠ 0xFF ∧ (s.part part).state = .empty then { st := s, status := 0x11 }
  else if !(s.eth.ports.getD port {}).roleBulk || decide (256 ≤ (s.eth.qps.filter (fun q => q.port == port)).length) then
    { st := s, status := 0x18 }
  else
    let n := s.eth.nextQpn
    let q : Qp := { qpn := n, port := port, part := part, remote := BitVec.ofNat 32 (leAt b 4 4), psn := BitVec.ofNat 24 (leAt b 8 4),
                    gid := BitVec.ofNat 128 (leAt b 16 16) }
    { st := s.modEth (fun e => { e with qps := e.qps ++ [q], nextQpn := n + 1 }), payload := leBytes 4 n }

/-- QP_CLOSE. -/
def State.opQpClose (s : State) (b : List Byte) : GmcpRes :=
  let n := leAt b 0 4
  if s.eth.qps.any (fun q => q.qpn == n) then { st := s.modEth (fun e => { e with qps := e.qps.filter (fun q => q.qpn != n) }) }
  else { st := s, status := 0x01 }

/-- Lowest BUFFER number that no ingest buffer holds. -/
def EthBlk.freeBuffer (e : EthBlk) : Nat :=
  ((List.range 64).find? (fun i => !e.windows.any (fun w => w.ingest && w.buffer == i))).getD 0

/-- A window may lie there (R357): 4 KiB multiples, in the partition's regions or the load area. -/
def State.windowOk (s : State) (part acc base len : Nat) : Bool :=
  base % 4096 == 0 && len % 4096 == 0 && len != 0 && (if part = 0xFF then acc == 2 && s.inLoadArea base len else s.hbmOk part base len)

/-- RDMA_REG (R357, R358). -/
def State.opRdmaReg (s : State) (b : List Byte) : GmcpRes :=
  let part := leAt b 0 1
  let acc := leAt b 1 1
  let ingest := acc.testBit 2
  let sb := leAt b 4 4
  let slots := leAt b 24 4
  let base := leAt b 8 8
  let len := leAt b 16 8
  if part ≠ 0xFF ∧ 8 ≤ part then { st := s, status := 0x10 }
  else if part ≠ 0xFF ∧ (s.part part).state = .empty then { st := s, status := 0x11 }
  else if 64 ≤ s.eth.windows.length then { st := s, status := 0x18 }
  else if !s.windowOk part acc base len
      || (ingest && !(sb % 4096 == 0 && decide (0 < sb ∧ sb ≤ 2 ^ 26 ∧ 0 < slots ∧ sb * slots ≤ len))) then { st := s, status := 0x19 }
  else
    let k := s.eth.nextKey
    let buf := if ingest then s.eth.freeBuffer else 0
    let w : Window := { rkey := BitVec.ofNat 32 k, part := BitVec.ofNat 8 part, read := acc.testBit 0, write := acc.testBit 1,
                        ingest := ingest, base := base, length := len, slotBytes := sb, slots := slots, buffer := buf }
    { st := s.modEth (fun e => { e with windows := e.windows ++ [w], nextKey := k + 1 }), payload := leBytes 4 k ++ leBytes 2 buf }

/-- RDMA_DEREG. -/
def State.opRdmaDereg (s : State) (b : List Byte) : GmcpRes :=
  let k := leAt b 0 4
  if s.eth.windows.any (fun w => w.rkey.toNat == k) then
    { st := s.modEth (fun e => { e with windows := e.windows.filter (fun w => w.rkey.toNat != k) }) }
  else { st := s, status := 0x19 }

def PartState.code : PartState → Nat
  | .empty => 0 | .loaded => 1 | .running => 2 | .ended => 3 | .aborted => 4

/-- Eight partition states, eight job tags. -/
def State.partBytes (s : State) : List Byte :=
  (List.range 8).map (fun p => BitVec.ofNat 8 (s.part p).state.code) ++ (List.range 8).flatMap (fun p => leBytes 2 (s.part p).jobTag.toNat)

/-- TELEMETRY record (R354, R369). -/
def State.record (s : State) : List Byte :=
  let p := s.pwr
  let flags := (List.range 8).foldl (fun a c => a ||| (s.core c).num.flagsReg.toNat % 2 ^ 28) 0
  leBytes 8 s.now.toNat ++ leBytes 2 (if p.measFailed then 0 else p.pinW.toNat) ++ leBytes 2 p.limitW.toNat
    ++ leBytes 2 (800 - 50 * p.opCur.toNat) ++ [p.tjMax, p.hbmMax] ++ s.partBytes ++ leBytes 4 p.asserted.toNat
    ++ leBytes 4 flags ++ leBytes 8 s.rst.cause.toNat ++ List.replicate 8 0

/-- Numerical counts of a partition since its job load (R354). -/
def State.numbers (s : State) (p : Nat) : List Byte :=
  let cores := (s.part p).cores p
  (List.range 64).flatMap (fun i =>
    leBytes 4 (min (2 ^ 32 - 1) (cores.map (fun c => ((s.core c).num.sinceLoad.getD i 0).toNat)).sum))

def State.opTelemetry (s : State) (b : List Byte) : GmcpRes :=
  let part := leAt b 1 1
  if leAt b 0 1 = 0 then { st := s, payload := s.record }
  else if 8 ≤ part then { st := s, status := 0x10 }
  else if (s.part part).state = .empty then { st := s, status := 0x11 }
  else { st := s, payload := s.numbers part }

/-- GOOSE (R427). -/
def State.opGoose (s : State) (b : List Byte) : GmcpRes :=
  let now := s.now
  let al := s.time.aligned
  match leAt b 0 1 with
  | 0 => { st := s, payload := s.goose.status now }
  | 1 =>
    let n : BitVec 32 := BitVec.ofNat 32 (leAt b 4 4)
    let s := s.modGoose (fun g => { g with cursor := if n = BitVec.allOnes 32 then g.oldestSeq else n })
    { st := s, payload := s.goose.status now ++ s.goose.window }
  | 2 =>
    let s := s.modGoose (fun g => g.freeze now)
    { st := s, payload := s.goose.status now }
  | _ =>
    let s := s.modGoose (fun g => g.thaw now al)
    { st := s, payload := s.goose.status now }

/-- An attestation report (R412). -/
def State.report (s : State) (nonce : List Byte) : List Byte :=
  let x := s.sec
  let flags := b2n x.debug + 2 * b2n s.fab.permit + 4 * b2n x.injUsed + 8 * b2n s.restrictedHere + 16 * b2n x.rngFail
    + 32 * b2n s.rst.stFallback + 64 * b2n s.rst.buFallback
  leBytes 4 0x52545441 ++ leBytes 2 1 ++ leBytes 2 flags ++ leBytes 4 (x.reportId + 1).toNat
    ++ [BitVec.ofNat 8 s.rst.stepping.toNat, BitVec.ofNat 8 (s.fl.opt 6 1)] ++ leBytes 2 0 ++ leBytes 8 s.now.toNat
    ++ leBytes 8 s.eth.session.toNat ++ nonce ++ slice s.fl.ob 0x20 16 ++ leBytes 4 x.stVersion.toNat ++ leBytes 4 x.buVersion.toNat
    ++ leBytes 2 x.stSvn.toNat ++ leBytes 2 x.buSvn.toNat ++ [BitVec.ofNat 8 x.floorSt.toNat, BitVec.ofNat 8 x.floorBu.toNat]
    ++ [BitVec.ofNat 8 x.revoked.toNat, BitVec.ofNat 8 (x.stKey.toNat + 4 * x.buKey.toNat)] ++ leBytes 8 s.rst.cause.toNat
    ++ List.replicate 8 0 ++ (List.range 6).flatMap (fun i => leBytes 32 (x.meas.getD i 0).toNat)
    ++ idPublic x.idSeeds ++ List.replicate 176 0

/-- ATTEST (R412, R413). -/
def State.opAttest (s : State) (b : List Byte) : GmcpRes :=
  let r := s.report (slice b 0 32)
  let s := s.modSec (fun x => { x with reportId := x.reportId + 1, attId := x.reportId + 1, attValid := true, attSig := some (x.idSeeds, r) })
  { st := s, payload := r ++ leBytes 4 17088 ++ leBytes 4 0 }

/-- An operation is executed; `r.image` is the decoded image of a JOB_LOAD, `loading` the partitions whose load it stops. -/
def State.gmcpOp (s : State) (r : GmcpReq) (loading : List Nat) : GmcpRes :=
  let b := gmcpBody r.msg
  let op := (GmcpHdr.of r.msg).op
  let of_ (x : State × Nat) : GmcpRes := { st := x.1, status := x.2 }
  if notRestricted op ∧ s.restrictedHere then { st := s, status := 0x08 }
  else match op with
  | 0x01 => { st := s, payload := leBytes 8 s.eth.session.toNat ++ leBytes 8 s.eth.lastSeq.toNat ++ leBytes 2 s.rst.stIflevel.toNat
                ++ [BitVec.ofNat 8 s.rst.restricted.toNat] }
  | 0x02 => s.opRegRead b
  | 0x03 => s.opRegWrite b
  | 0x10 => of_ (s.jobLoad (LoadReq.of b) r.image)
  | 0x11 => of_ (s.jobStart (leAt b 0 1) (BitVec.ofNat 64 (leAt b 8 8)) r.ft)
  | 0x12 => of_ (s.jobAbort (BitVec.ofNat 8 (leAt b 0 1)) loading)
  | 0x13 => of_ (s.jobUnload (leAt b 0 1))
  | 0x14 => { st := s, payload := s.partBytes }
  | 0x18 => s.opQpOpen b
  | 0x19 => s.opQpClose b
  | 0x1A => s.opRdmaReg b
  | 0x1B => s.opRdmaDereg b
  | 0x20 => s.opTelemetry b
  | 0x28 => s.opGoose b
  | 0x30 => s.opAttest b
  | _ => { st := s, reset := some (leAt b 0 1 == 1) }

/-! ## Sessions and execution (R347, R348) -/

/-- The request counts as authenticated: a verified tag, or the UART. -/
def GmcpReq.authed (r : GmcpReq) : Bool := r.port == 2 || (GmcpHdr.of r.msg).auth

/-- Key under which the reply is tagged. -/
def State.replyKey (s : State) (r : GmcpReq) : Option (List Byte) :=
  if r.port ≠ 2 ∧ (GmcpHdr.of r.msg).auth = true then s.operatorKey else none

/-- The reply of an executed request: sent, counted, and kept when the request was authenticated by a tag. -/
def State.answered (s : State) (r : GmcpReq) (status : Nat) (payload : List Byte) : State :=
  let h := GmcpHdr.of r.msg
  let key := s.replyKey r
  let bytes := replyBytes h status payload key
  let s := s.modEth (fun e =>
    { e with cmds := satInc e.cmds
             cache := if key.isSome then ((BitVec.ofNat 64 h.seq, bytes) :: e.cache).take 16 else e.cache })
  s.sendReply r.port bytes

/-- The request is executed and its reply sent and kept. -/
def State.execute (s : State) (r : GmcpReq) (loading : List Nat) : State :=
  let x := s.gmcpOp r loading
  let s := x.st.answered r x.status x.payload
  match x.reset with
  | some cold => s.requestReset cold (if cold then 3 else 4)
  | none => s

/-- What SESSION and SEQ of a tagged request say when it arrives (R348): it is accepted, or answered with what is kept or
with a status. -/
inductive SeqVerdict where
  | accept
  | again (reply : List Byte)
  | refuse (status : Nat)
  deriving DecidableEq, Repr

def State.verdict (s : State) (r : GmcpReq) : SeqVerdict :=
  let h := GmcpHdr.of r.msg
  if (s.replyKey r).isNone then .accept
  else if h.session ≠ s.eth.session.toNat then .refuse 0x05
  else if s.eth.lastSeq.toNat < h.seq then .accept
  else match s.eth.cache.find? (fun c => c.1.toNat == h.seq) with
    | some c => .again c.2
    | none => .refuse 0x06

/-- A reply that says only a status, tagged where the request was. -/
def State.plainReply (s : State) (r : GmcpReq) (st : Nat) : State :=
  s.sendReply r.port (replyBytes (GmcpHdr.of r.msg) st [] (s.replyKey r))

/-- An accepted request: LAST_SEQ follows a tagged one. -/
def State.noteSeq (s : State) (r : GmcpReq) : State :=
  if (s.replyKey r).isNone then s else s.modEth (fun e => { e with lastSeq := BitVec.ofNat 64 (GmcpHdr.of r.msg).seq })

/-- A bad tag is counted; at most one record a second (R347). -/
def State.badTag (s : State) : State :=
  let s := s.modEth (fun e => { e with badTag := satInc e.badTag, badTagNew := satInc e.badTagNew })
  let due := match s.eth.badTagFt with
    | some t => decide (1000000000 ≤ (s.now - t).toNat)
    | none => true
  if due then
    let now := s.now
    (s.modEth (fun e => { e with badTagFt := some now, badTagNew := 0 })).log
      { source := 0x05, code := 0x01, detail := [(s.eth.badTagNew.toNat, 4)] }
  else s

/-! ## The command queues (R353) -/

/-- An emergency stop holds a command back that needs what it stopped: one of an Ethernet port, whose optical engine stands
still, and one on jobs, queue pairs or windows, which reach HBM and the cores (R379; DESIGN CHOICE, log 127). -/
def State.cmdWaits (s : State) (r : GmcpReq) : Bool :=
  let op := (GmcpHdr.of r.msg).op
  s.stopped && (r.port != 2 || (decide (0x10 ≤ op ∧ op < 0x20) && op != 0x14))

/-- The oldest waiting command, while the steward runs and no emergency stop holds it back. -/
def State.nextCmd (s : State) : State :=
  match s.eth.queue with
  | r :: rest =>
    if s.stewardDown || s.cmdWaits r then s else (s.modEth (fun e => { e with queue := rest })).execute r []
  | [] => s

def State.drainCmds : Nat → State → State
  | 0, s => s
  | n + 1, s => if s.eth.queue.isEmpty then s else State.drainCmds n s.nextCmd

/-- An accepted ABORT: ahead of every queued command; a JOB_LOAD that runs, the oldest command, ends with JOB_STATE when
its partition is aborted. -/
def State.abortNow (s : State) (r : GmcpReq) : State :=
  let mask : BitVec 8 := BitVec.ofNat 8 (leAt (gmcpBody r.msg) 0 1)
  match s.eth.queue with
  | q :: rest =>
    let first := leAt (gmcpBody q.msg) 0 1
    if (GmcpHdr.of q.msg).op = 0x10 ∧ mask.getLsbD first = true then
      ((s.modEth (fun e => { e with queue := rest })).execute r [first]).answered q 0x11 []
    else s.execute r []
  | [] => s.execute r []

/-- The queue of a control port holds 16 entries (R353). -/
def State.queueFull (s : State) (port : Nat) : Bool := decide (16 ≤ (s.eth.queue.filter (fun q => q.port == port)).length)

/-- A checked command: SESSION and SEQ decide as it arrives (R348); an accepted one is executed in order, or queued while
the steward is busy. -/
def State.submit (s : State) (r : GmcpReq) (held : Bool) : State :=
  let ab := (GmcpHdr.of r.msg).op == 0x12
  match s.verdict r with
  | .again reply => (s.modEth (fun e => { e with replayed := satInc e.replayed })).sendReply r.port reply
  | .refuse st => (if st = 0x06 then s.modEth (fun e => { e with staleSeq := satInc e.staleSeq }) else s).plainReply r st
  | .accept =>
    let waits := held || s.cmdWaits r
    if !ab && waits && s.queueFull r.port then (s.modEth (fun e => { e with busy := satInc e.busy })).plainReply r 0x07
    else if ab then
      if s.cmdWaits r then (s.noteSeq r).modEth (fun e => { e with queue := r :: e.queue }) else (s.noteSeq r).abortNow r
    else if waits then (s.noteSeq r).modEth (fun e => { e with queue := e.queue ++ [r] })
    else
      let s := State.drainCmds 48 (s.noteSeq r)
      if s.eth.queue.isEmpty then s.execute r [] else s.modEth (fun e => { e with queue := e.queue ++ [r] })

/-- A message that reached the steward: format, operation and tag (R346, R347, R350). -/
def State.check (s : State) (r : GmcpReq) (held : Bool) : State :=
  let h := GmcpHdr.of r.msg
  let b := gmcpBody r.msg
  if !headerOk r.msg then s.refuse r.port r.msg 0x01
  else if !gmcpOps.contains h.op then s.refuse r.port r.msg 0x02
  else if !payloadOk h.op b then s.refuse r.port r.msg 0x01
  else if r.port ≠ 2 ∧ (needsTag h.op b || h.auth) = true then
    match s.operatorKey with
    | none => s.refuse r.port r.msg 0x03
    | some k =>
      if h.auth && hmac256 k (r.msg.take (32 + h.len)) == r.msg.drop (32 + h.len) then s.submit r held
      else s.badTag.refuse r.port r.msg 0x04
  else s.submit r held

/-- Operations of the UART in ROM recovery (R395). -/
def recoveryOps : List Nat := [0x01, 0x02, 0x03, 0x38]

/-- A message arrives on a port (R345): served at READY on a port with its link up and the control role. -/
def State.gmcpIn (s : State) (r : GmcpReq) (held : Bool) : State :=
  if s.stewardDown then s
  else if r.port = 2 then
    if s.rst.ready || (s.rst.recovery && recoveryOps.contains (GmcpHdr.of r.msg).op) then s.check r held else s
  else
    let p := s.eth.ports.getD r.port {}
    if !s.rst.ready || !s.portUp r.port then s
    else if !p.roleCtrl then
      s.modEth (fun e => { e with ports := vmod e.ports r.port (fun p => { p with dropOther := satInc p.dropOther }) })
    else s.check r held

/-- A message whose operation is `op`, with the first payload bytes given. -/
def asOp (op : Nat) (first : List Byte) (m : List Byte) : List Byte :=
  let m := m.take 3 ++ List.replicate (3 - m.length) 0 ++ [BitVec.ofNat 8 op] ++ m.drop 4
  if first.isEmpty then m else m.take 32 ++ List.replicate (32 - m.length) 0 ++ first ++ m.drop (32 + first.length)

/-- A request row: operation, fixed payload bytes, port, message, whether the steward is busy. -/
def State.request (s : State) (op : Nat) (first : List Byte) (port : Fin 3) (m : List Byte) (held : Bool) (img : Option JobImage) : State :=
  s.gmcpIn { port := port.val, msg := asOp op first m, ft := s.now, image := img } held

/-! ## Rows -/

/-- SESSION (R348). -/
def execSession (port : Fin 3) (m : List Byte) (held : Bool) (s : State) : Out := .next (s.request 0x01 [] port m held none)

/-- REG_READ (R351). -/
def execRegRead (port : Fin 3) (m : List Byte) (held : Bool) (s : State) : Out := .next (s.request 0x02 [] port m held none)

/-- REG_WRITE (R351). -/
def execRegWrite (port : Fin 3) (m : List Byte) (held : Bool) (s : State) : Out := .next (s.request 0x03 [] port m held none)

/-- JOB_LOAD (R352), with the image decoded, or none when its bytes are no image. -/
def execJobLoad (port : Fin 3) (m : List Byte) (held : Bool) (img : Option JobImage) (s : State) : Out :=
  .next (s.request 0x10 [] port m held img)

/-- JOB_START (R352). -/
def execJobStart (port : Fin 3) (m : List Byte) (held : Bool) (s : State) : Out := .next (s.request 0x11 [] port m held none)

/-- ABORT (R355). -/
def execAbort (port : Fin 3) (m : List Byte) (held : Bool) (s : State) : Out := .next (s.request 0x12 [] port m held none)

/-- JOB_UNLOAD (R352). -/
def execJobUnload (port : Fin 3) (m : List Byte) (held : Bool) (s : State) : Out := .next (s.request 0x13 [] port m held none)

/-- JOB_STATUS (R349). -/
def execJobStatus (port : Fin 3) (m : List Byte) (held : Bool) (s : State) : Out := .next (s.request 0x14 [] port m held none)

/-- QP_OPEN (R357). -/
def execQpOpen (port : Fin 3) (m : List Byte) (held : Bool) (s : State) : Out := .next (s.request 0x18 [] port m held none)

/-- QP_CLOSE (R349). -/
def execQpClose (port : Fin 3) (m : List Byte) (held : Bool) (s : State) : Out := .next (s.request 0x19 [] port m held none)

/-- RDMA_REG (R357). -/
def execRdmaReg (port : Fin 3) (m : List Byte) (held : Bool) (s : State) : Out := .next (s.request 0x1A [] port m held none)

/-- RDMA_DEREG (R349). -/
def execRdmaDereg (port : Fin 3) (m : List Byte) (held : Bool) (s : State) : Out := .next (s.request 0x1B [] port m held none)

/-- TELEMETRY_RECORD (R354). -/
def execTelemetryRecord (port : Fin 3) (m : List Byte) (held : Bool) (s : State) : Out := .next (s.request 0x20 [0] port m held none)

/-- TELEMETRY_NUMERIC (R354). -/
def execTelemetryNumeric (port : Fin 3) (m : List Byte) (held : Bool) (s : State) : Out := .next (s.request 0x20 [1] port m held none)

/-- GOOSE_STATUS (R427). -/
def execGooseStatus (port : Fin 3) (m : List Byte) (held : Bool) (s : State) : Out := .next (s.request 0x28 [0] port m held none)

/-- GOOSE_READ (R427). -/
def execGooseRead (port : Fin 3) (m : List Byte) (held : Bool) (s : State) : Out := .next (s.request 0x28 [1] port m held none)

/-- GOOSE_FREEZE (R425). -/
def execGooseFreeze (port : Fin 3) (m : List Byte) (held : Bool) (s : State) : Out := .next (s.request 0x28 [2] port m held none)

/-- GOOSE_THAW (R425). -/
def execGooseThaw (port : Fin 3) (m : List Byte) (held : Bool) (s : State) : Out := .next (s.request 0x28 [3] port m held none)

/-- ATTEST (R412). -/
def execAttest (port : Fin 3) (m : List Byte) (held : Bool) (s : State) : Out := .next (s.request 0x30 [] port m held none)

/-- RESET_WARM (R393). -/
def execResetWarm (port : Fin 3) (m : List Byte) (held : Bool) (s : State) : Out := .next (s.request 0x38 [0] port m held none)

/-- RESET_COLD (R391). -/
def execResetCold (port : Fin 3) (m : List Byte) (held : Bool) (s : State) : Out := .next (s.request 0x38 [1] port m held none)

/-- UNKNOWN_OP (R349): the row's operation is not assigned. -/
def execUnknownOp (port : Fin 3) (m : List Byte) (op : Byte) (s : State) : Out :=
  if gmcpOps.contains op.toNat then .next s else .next (s.request op.toNat [] port m false none)

end Sys2Proof.Machine
end

