-- ==== Sys2Proof/Machine/OxRows.lean ====
section
/-! DEFINITION. Meanings of the OX instructions and of the starts of the Ox array (R67, R86).
Each command offers the instruction word that core c's sequencer fetches at its pc; the row's ENGINE and OPCODE stand in the
word, whatever the word held there. A core that cannot take a word keeps its state. -/

namespace Sys2Proof.Machine

/-- LDW: opcode 0x01 of engine 0 (R67, R85). -/
def execLdw (c : CoreId) (w : IWord) (s : State) : Out := .next (s.fetch c (Word128.withOp w 0 0x01))

/-- MM: opcode 0x02 of engine 0 (R67, R87). -/
def execMm (c : CoreId) (w : IWord) (s : State) : Out := .next (s.fetch c (Word128.withOp w 0 0x02))

/-- DUAL: opcode 0x03 of engine 0 (R67, R93). -/
def execDual (c : CoreId) (w : IWord) (s : State) : Out := .next (s.fetch c (Word128.withOp w 0 0x03))

/-- WGRAD: opcode 0x04 of engine 0 (R67, R98). -/
def execWgrad (c : CoreId) (w : IWord) (s : State) : Out := .next (s.fetch c (Word128.withOp w 0 0x04))

/-- LDW_START: the load unit starts the LDW at the head of the queue (R86). -/
def execLdwStart (c : CoreId) (s : State) : Out :=
  if s.stopped then .next s else .next (s.startLdw c).settle

/-- STREAM_START: the stream unit starts the MM or DUAL at the head of the queue (R86). -/
def execStreamStart (c : CoreId) (s : State) : Out :=
  if s.stopped then .next s else .next (s.startStream c).settle

/-- WGRAD_START: the WGRAD at the head of the queue starts (R86). -/
def execWgradStart (c : CoreId) (s : State) : Out :=
  if s.stopped then .next s else .next (s.startWgrad c).settle

end Sys2Proof.Machine
end

