-- ==== Sys2Proof/Machine/Pins.lean ====
section
/-! DEFINITION. Pins of the management connector: SLOT_ID, the UART's framing and the SMBus target (R441 to R444). -/

namespace Sys2Proof.Machine

/-! ## SLOT_ID (R442) -/

/-- SLOT_ID_CHANGE: new levels held for 1 ms. -/
def execSlotIdChange (new : BitVec 6) (s : State) : Out :=
  let old := s.pins.slotPins
  if new = old then .next s
  else .next ((s.modPins (fun p => { p with slotPins := new, slotChanged := true })).log
    { source := 0x01, code := 0x80, detail := [(old.toNat, 1), (new.toNat, 1)] })

/-! ## UART (R444) -/

/-- A frame discarded for its length, its framing or a gap between bytes. -/
def State.uartFrameError (s : State) : State := s.modPins (fun p => { p with uartFrame := satInc p.uartFrame })

def State.uartCrcError (s : State) : State := s.modPins (fun p => { p with uartCrc := satInc p.uartCrc })

/-- The bytes from the first place where the sync bytes stand or could begin. -/
def hunt : List Byte → List Byte
  | [] => []
  | a :: rest => if a = 0xA5 ∧ (rest.head? = some 0x5A ∨ rest = []) then a :: rest else hunt rest

/-- Frames taken from the front of the received bytes; the bytes of an unfinished frame are kept. -/
def State.uartTake (held : Bool) (img : Option JobImage) : Nat → State → List Byte → State
  | 0, s, bs => s.modPins (fun p => { p with uartPart := bs })
  | n + 1, s, bs =>
    let b := hunt bs
    if b.length < 4 then s.modPins (fun p => { p with uartPart := b })
    else
      let len := leAt b 2 2
      if len < 32 ∨ 8192 < len then State.uartTake held img n s.uartFrameError (b.drop 4)
      else if b.length < len + 8 then s.modPins (fun p => { p with uartPart := b })
      else
        let frame := b.take (len + 8)
        let rest := b.drop (len + 8)
        if leAt frame (len + 4) 4 = (crc32 (slice frame 2 (len + 2))).toNat then
          State.uartTake held img n (s.gmcpIn { port := 2, msg := slice frame 4 len, ft := s.now, image := img } held) rest
        else State.uartTake held img n s.uartCrcError rest

/-- UART_FRAME_RECEIVED: bytes received on UART_RX, after those of a frame not yet complete; `bad`: the byte after them
fails framing. -/
def execUartFrameReceived (bs : List Byte) (bad : Bool) (img : Option JobImage) (held : Bool) (s : State) : Out :=
  let all := s.pins.uartPart ++ bs
  let s := s.uartTake held img (all.length + 1) all
  .next (if bad then s.uartFrameError.modPins (fun p => { p with uartPart := [] }) else s)

/-- UART_BYTE_TIMEOUT: more than 10 ms since the last byte of a frame that is not complete. -/
def execUartByteTimeout (s : State) : Out :=
  if s.pins.uartPart.isEmpty then .next s
  else .next (s.uartFrameError.modPins (fun p => { p with uartPart := [] }))

/-! ## SMBus (R443) -/

/-- The 7-bit address names this module's target: 0x58 + SLOT_ID[2:0]. -/
def State.smbusFor (s : State) (addr : BitVec 7) : Bool :=
  decide (addr.toNat = 0x58 + s.pins.slotId.toNat % 8)

/-- The 16 bytes of STATUS as they stand now. -/
def State.smbusStatus (s : State) : List Byte :=
  let flags := b2n s.rst.ready + 2 * b2n (s.rst.restricted != 0) + 4 * b2n s.pwr.plantFault + 8 * b2n s.time.aligned
  leBytes 2 s.pwr.pinW.toNat ++ leBytes 2 s.pwr.limitW.toNat ++ leBytes 1 s.pwr.tjMax.toNat ++ leBytes 1 s.pwr.hbmMax.toNat
    ++ leBytes 1 s.pwr.inlet.toNat ++ leBytes 1 s.pwr.opCur.toNat ++ leBytes 1 s.pwr.asserted.toNat ++ leBytes 1 flags
    ++ leBytes 2 s.rst.cause.toNat ++ leBytes 4 s.goose.hours.toNat

/-- Packet error code of SMBus 3.0: CRC-8 with polynomial x^8 + x^2 + x + 1 over every byte of the transfer (PRESUMED, log 130). -/
def pecOf (bs : List Byte) : Byte :=
  bs.foldl (fun c b => (List.range 8).foldl (fun (c : Byte) _ => if c.msb then (c <<< 1) ^^^ 0x07#8 else c <<< 1) (c ^^^ b)) 0

/-- A Block Read of 16 bytes is answered from the copy, with its packet error code when the reader asks for it. -/
def PinBlk.answerRead (p : PinBlk) (r : SmbRead) (code : Byte) (data : List Byte) : PinBlk :=
  let a : Byte := r.addr.setWidth 8 <<< 1
  { p with smbOut := some (data ++ if r.pec then [pecOf ([a, code, a + 1, 16] ++ data)] else []), smbNacked := false }

/-- SMBUS_STATUS: Block Read 0x00. -/
def execSmbusStatus (rd : SmbRead) (s : State) : Out :=
  if s.smbusFor rd.addr then .next (s.modPins (fun p => p.answerRead rd 0x00 p.smbStatus)) else .next s

/-- SMBUS_SERIAL: Block Read 0x01. -/
def execSmbusSerial (rd : SmbRead) (s : State) : Out :=
  if s.smbusFor rd.addr then .next (s.modPins (fun p => p.answerRead rd 0x01 p.smbSerial)) else .next s

/-- SMBUS_OTHER_COMMAND: any command code but 0x00 and 0x01. -/
def execSmbusOtherCommand (addr : BitVec 7) (code : Byte) (s : State) : Out :=
  if s.smbusFor addr && decide (2 ≤ code.toNat) then
    .next (s.modPins (fun p => { p with smbOut := none, smbNacked := true }))
  else .next s

/-- SMBUS_TIMEOUT: a line held low for 25 ms (R441). -/
def execSmbusTimeout (s : State) : Out :=
  .next (s.modPins (fun p => { p with smbTimeout := satInc p.smbTimeout, smbOut := none, smbNacked := false }))

/-- What the next step does when no command waits: one tick of the time clock (R318); HBM, prefetch, lanes and TIME packets
that are due go on; and the oldest queued GMCP command is executed (R353). -/
def State.idleTick (s : State) : State :=
  let s := s.modTime TimeBlk.tick
  (if s.stopped then s else ((List.range 8).foldl State.pfTick s.hbmTick).frameTick.timeTick.waitTick).nextCmd

/-- SMBUS_REFRESH: the copy of the data, every 100 ms. -/
def execSmbusRefresh (s : State) : Out :=
  let st := s.smbusStatus
  let ser := slice s.fl.ob 0x20 16
  .next (s.modPins (fun p => { p with smbStatus := st, smbSerial := ser }))

end Sys2Proof.Machine
end

