-- ==== Sys2Proof/Machine/Roce.lean ====
section
/-! DEFINITION. Bulk traffic and the Ethernet ports: RoCEv2 (R356 to R358), frames answered or dropped (R343, R344), links. -/

namespace Sys2Proof.Machine

def State.port (s : State) (p : Nat) : EthPort := s.eth.ports.getD p {}
def State.modPort (s : State) (p : Nat) (f : EthPort → EthPort) : State := s.modEth (fun e => { e with ports := vmod e.ports p f })

def State.modQp (s : State) (n : Nat) (f : Qp → Qp) : State :=
  s.modEth (fun e => { e with qps := e.qps.map (fun q => if q.qpn = n then f q else q) })

/-! ## What a QP sends -/

/-- Something leaves on the QP's port, or waits while its priority is paused. -/
def State.qpSend (s : State) (q : Qp) (o : RoceOut) : State :=
  if (s.port q.port).paused then s.modQp q.qpn (fun q => { q with held := q.held ++ [o] })
  else s.modQp q.qpn (fun q => { q with out := q.out ++ [o] })

/-- A NAK of any kind: counted, and every packet before it is answered by it. -/
def State.nak (s : State) (q : Qp) (o : RoceOut) : State :=
  ((s.modPort q.port (fun p => { p with nakSent := satInc p.nakSent })).qpSend q o).modQp q.qpn (fun q => { q with unacked := 0 })

/-- The QP enters the error state; what it was receiving is given up. -/
def State.qpError (s : State) (q : Qp) : State :=
  s.modQp q.qpn (fun q => { q with err := true, recv := none, wr := none, wrBad := false })

/-- NAK Invalid Request, with which the QP enters the error state (R356). -/
def State.invalid (s : State) (q : Qp) (psn : BitVec 24) : State := (s.nak q (.nakInvalid psn)).qpError q

/-- A packet is accepted: the next PSN is expected, and an ACK goes out with the sixteenth (R356). A WRITE that a bad merge
fails gets a NAK in place of its acknowledgement, with its last packet (R357). -/
def State.accepted (s : State) (q : Qp) (psn : BitVec 24) : State :=
  let n := if q.wrBad then 0 else q.unacked + 1
  let s := s.modQp q.qpn (fun q => { q with psn := psn + 1, lastPsn := psn, unacked := if 16 ≤ n then 0 else n })
  if 16 ≤ n then s.qpSend q (.ack psn) else s

/-- A CE-marked packet: one CNP at most every 50 µs (R356). -/
def State.congested (s : State) (q : Qp) : State :=
  let due := match q.cnpFt with
    | some t => decide (50000 ≤ (s.now - t).toNat)
    | none => true
  if due then
    let now := s.now
    ((s.modPort q.port (fun p => { p with cnpSent := satInc p.cnpSent })).qpSend q .cnp).modQp q.qpn (fun q => { q with cnpFt := some now })
  else s

/-- What every request packet carries. -/
structure RoceHdr where
  port : PortId
  qpn  : BitVec 24
  psn  : BitVec 24
  ce   : Bool
  deriving DecidableEq, Repr

/-- A request packet reaches its QP in order: link up, bulk role, QP open on the port and not in error. One whose PSN comes
again is answered by `again`; one too far on is out of sequence. -/
def State.onQp (s : State) (h : RoceHdr) (again f : State → Qp → State) : State :=
  if !s.portUp h.port.val then s
  else if !(s.port h.port.val).roleBulk then s.modPort h.port.val (fun p => { p with dropOther := satInc p.dropOther })
  else match s.eth.qps.find? (fun q => q.qpn == h.qpn.toNat && q.port == h.port.val) with
    | some q =>
      if q.err then s
      else
        let s := if h.ce then s.congested q else s
        if h.psn = q.psn then f s q
        else if (q.psn - h.psn).toNat < 2 ^ 23 then again s q
        else s.nak q (.nakSequence q.psn)
    | none => s

/-- A packet that came before is acknowledged again. -/
def ackAgain (s : State) (q : Qp) : State := s.qpSend q (.ack q.lastPsn)

/-- Place of a packet in its message: the first starts one when none is under way, the others go on with one. The packets
but the last are of one path MTU, 1,024, 2,048 or 4,096 bytes, and the last is no longer (R356). -/
def Qp.placeOk (q : Qp) (under first last : Bool) (n : Nat) : Bool :=
  let mtu := if first then n else q.mtu
  (q.wr.isSome || q.recv.isSome) == !first && under == !first
    && (if last then decide (n ≤ if first then 4096 else mtu) else [1024, 2048, 4096].contains n && n == mtu)

/-! ## Windows (R357) -/

def EthBlk.window (e : EthBlk) (k : BitVec 32) : Option Window := e.windows.find? (fun w => w.rkey == k)

/-- The access lies wholly in the window of its R_KEY, which grants it and belongs to the QP's partition. -/
def State.granted (s : State) (q : Qp) (k : BitVec 32) (a n : Nat) (write : Bool) : Bool :=
  match s.eth.window k with
  | some w => (if write then w.write else w.read) && w.part.toNat == q.part && decide (w.base ≤ a ∧ a + n ≤ w.base + w.length)
  | none => false

def State.accessError (s : State) (q : Qp) (psn : BitVec 24) : State :=
  (s.modPort q.port (fun p => { p with rejAddr := satInc p.rejAddr })).nak q (.nakAccess psn)

/-- Data of a packet stored; a merge that met an uncorrectable line fails the QP. -/
def State.storeData (s : State) (q : Qp) (psn : BitVec 24) (a : Nat) (data : List Byte) (next : State → State) : State :=
  let r := s.homeWrite none a data 0
  if r.2 then (r.1.nak q (.nakOperational psn)).qpError q else (next r.1).accepted q psn

/-- One packet of an RDMA WRITE at address a, `left` bytes of the request not yet stored. A merge that meets an
uncorrectable line lets the rest of the request be written, and fails it at its end (R357). -/
def State.writePart (s : State) (q : Qp) (psn : BitVec 24) (a left : Nat) (last : Bool) (data : List Byte) : State :=
  if left < data.length ∨ (last = true ∧ data.length ≠ left) then s.invalid q psn
  else
    let r := s.homeWrite none a data 0
    let bad := q.wrBad || r.2
    if last && bad then (r.1.nak q (.nakOperational psn)).qpError q
    else
      let q' : Qp := { q with wrBad := bad }
      (r.1.modQp q.qpn (fun q =>
        { q with wr := if last then none else some (a + data.length, left - data.length), wrBad := bad })).accepted q' psn

/-- RDMA WRITE First, Middle, Last or Only. -/
def State.rdmaWrite (s : State) (q : Qp) (psn : BitVec 24) (first last : Bool) (k : BitVec 32) (a n : Nat) (data : List Byte) : State :=
  if !q.placeOk q.wr.isSome first last data.length then s.invalid q psn
  else if first then
    if s.granted q k a n true then (s.modQp q.qpn (fun q => { q with mtu := data.length })).writePart q psn a n last data
    else s.accessError q psn
  else match q.wr with
    | some (a, left) => s.writePart q psn a left last data
    | none => s.invalid q psn

/-- RDMA READs whose data the QP still holds back (R356, R362). -/
def Qp.openReads (q : Qp) : Nat := (q.held.filter (fun o => match o with | .readResp _ _ => true | _ => false)).length

/-- The data of an RDMA READ, or what refuses it (R357). -/
def State.readData (s : State) (q : Qp) (psn : BitVec 24) (k : BitVec 32) (a n : Nat) (done : State → State) : State :=
  if !s.granted q k a n false then s.accessError q psn
  else if s.ms.badRange a n then ((s.noteReads a n 0).nak q (.nakOperational psn)).qpError q
  else done ((s.noteReads a n 0).qpSend q (.readResp psn (s.ms.bytes a n)))

/-- RDMA READ Request, not inside another message, and at most 16 whose data waits (log 122); its responses take one PSN for
each packet of the path MTU. -/
def State.rdmaRead (s : State) (q : Qp) (psn : BitVec 24) (k : BitVec 32) (a n mtu : Nat) : State :=
  if q.wr.isSome ∨ q.recv.isSome ∨ 16 ≤ q.openReads then s.invalid q psn
  else s.readData q psn k a n (fun s =>
    let step := max 1 (ceilDiv n mtu)
    s.modQp q.qpn (fun q => { q with psn := psn + BitVec.ofNat 24 step, lastPsn := psn + BitVec.ofNat 24 (step - 1), unacked := 0 }))

/-- A READ that came before: its data is sent again, in whatever message the QP is (log 88). -/
def State.readAgain (s : State) (q : Qp) (psn : BitVec 24) (k : BitVec 32) (a n : Nat) : State := s.readData q psn k a n id

/-! ## Ingest buffers (R358) -/

/-- A slot that neither holds a message nor receives one. -/
def State.slotFree (s : State) (w : Window) (i : Nat) : Bool :=
  !w.full.any (fun f => f.1 == i) && !s.eth.qps.any (fun q => match q.recv with
    | some (k, j, _) => k == w.rkey && j == i
    | none => false)

/-- Next free slot of an ingest buffer, in rising order from its last one. -/
def State.nextFree (s : State) (w : Window) : Option Nat :=
  ((List.range w.slots).map (fun i => (w.nextSlot + i) % max w.slots 1)).find? (s.slotFree w)

/-- Buffer and slot that take the next message of a partition: the lowest BUFFER with a free slot. -/
def State.ingestSlot (s : State) (part : Nat) : Option (Window × Nat) :=
  firstSome (fun b => match s.eth.windows.find? (fun w => w.ingest && w.buffer == b && w.part.toNat == part) with
    | some w => (s.nextFree w).map (fun i => (w, i))
    | none => none) (List.range 64)

def State.modWindow (s : State) (k : BitVec 32) (f : Window → Window) : State :=
  s.modEth (fun e => { e with windows := e.windows.map (fun w => if w.rkey = k then f w else w) })

/-- One packet of a SEND into slot i, after `got` bytes of its message. -/
def State.sendPart_ (s : State) (q : Qp) (psn : BitVec 24) (w : Window) (i got : Nat) (last : Bool) (data : List Byte) : State :=
  let n := got + data.length
  if w.slotBytes < n then s.invalid q psn
  else
    s.storeData q psn (w.base + i * w.slotBytes + got) data (fun s =>
      let s := s.modQp q.qpn (fun q => { q with recv := if last then none else some (w.rkey, i, n) })
      if last then (s.modWindow w.rkey (fun w => { w with full := w.full ++ [(i, n)] })).settle else s)

/-- SEND First, Middle, Last or Only. -/
def State.roceSend (s : State) (q : Qp) (psn : BitVec 24) (first last : Bool) (data : List Byte) : State :=
  if !q.placeOk q.recv.isSome first last data.length then s.invalid q psn
  else if first then
    let s := s.modQp q.qpn (fun q => { q with mtu := data.length })
    match s.ingestSlot q.part with
    | some (w, i) =>
      (s.modWindow w.rkey (fun w => { w with nextSlot := (i + 1) % max w.slots 1 })).sendPart_ q psn w i 0 last data
    | none => (s.modPort q.port (fun p => { p with rnrSent := satInc p.rnrSent })).nak q (.rnrNak psn)
  else match q.recv with
    | some (k, i, got) => match s.eth.window k with
      | some w => s.sendPart_ q psn w i got last data
      | none => s.invalid q psn
    | none => s.invalid q psn

/-! ## Rows: RoCEv2 -/

/-- ROCE_SEND (R358). -/
def execRoceSend (port : PortId) (qpn psn : BitVec 24) (ce first last : Bool) (data : List Byte) (s : State) : Out :=
  .next (s.onQp ⟨port, qpn, psn, ce⟩ ackAgain (fun s q => s.roceSend q psn first last data))

/-- ROCE_RDMA_WRITE (R357). -/
def execRoceRdmaWrite (port : PortId) (qpn psn : BitVec 24) (ce first last : Bool) (k : BitVec 32) (a : BitVec 64) (n : BitVec 32)
    (data : List Byte) (s : State) : Out :=
  .next (s.onQp ⟨port, qpn, psn, ce⟩ ackAgain (fun s q => s.rdmaWrite q psn first last k a.toNat n.toNat data))

/-- ROCE_RDMA_READ (R357), with the path MTU as a power of two from 1,024. -/
def execRoceRdmaRead (port : PortId) (qpn psn : BitVec 24) (ce : Bool) (k : BitVec 32) (a : BitVec 64) (n : BitVec 32) (mtu : Fin 3)
    (s : State) : Out :=
  .next (s.onQp ⟨port, qpn, psn, ce⟩ (fun s q => s.readAgain q psn k a.toNat n.toNat)
    (fun s q => s.rdmaRead q psn k a.toNat n.toNat (1024 * 2 ^ mtu.val)))

/-- ROCE_INVALID_REQUEST (R356). -/
def execRoceInvalidRequest (port : PortId) (qpn psn : BitVec 24) (ce : Bool) (s : State) : Out :=
  .next (s.onQp ⟨port, qpn, psn, ce⟩ ackAgain (fun s q => s.invalid q psn))

/-- ROCE_CNP_RECEIVED (R356). -/
def execRoceCnpReceived (qpn : BitVec 24) (s : State) : Out := .next (s.modQp qpn.toNat (fun q => { q with rate := q.rate / 2 }))

/-- CNP_RATE_RECOVERY (R356): 5 % of the full rate. -/
def execCnpRateRecovery (qpn : BitVec 24) (s : State) : Out :=
  .next (s.modQp qpn.toNat (fun q => { q with rate := min 1000000 (q.rate + 50000) }))

/-- ACK_COALESCE_TIMER (R356). -/
def execAckCoalesceTimer (qpn : BitVec 24) (s : State) : Out :=
  if s.stopped then .next s else
  match s.eth.qps.find? (fun q => q.qpn == qpn.toNat) with
  | some q => if q.unacked = 0 ∨ q.err = true then .next s
    else .next ((s.qpSend q (.ack q.lastPsn)).modQp q.qpn (fun q => { q with unacked := 0 }))
  | none => .next s

/-! ## Frames (R343, R344) -/

/-- A frame that arrives changes something only on a port whose link is up. -/
def State.onPort (s : State) (p : PortId) (f : EthPort → EthPort) : State := if s.portUp p.val then s.modPort p.val f else s

/-- Addresses of a port in the standing configuration, first byte most significant (log 155): IPv4, IPv6. -/
def State.ip4 (s : State) (p : Nat) : BitVec 32 := BitVec.ofNat 32 (beNat (slice s.fl.sc (0x38 + 32 * p) 4))
def State.ip6 (s : State) (p : Nat) : BitVec 128 := BitVec.ofNat 128 (beNat (slice s.fl.sc (0x3C + 32 * p) 16))

/-- MAC address of a port in the standing configuration, first byte most significant (log 155). -/
def State.macOf (s : State) (p : Nat) : BitVec 48 := BitVec.ofNat 48 (beNat (slice s.fl.sc (0x30 + 32 * p) 6))

/-- UDP ports that a port serves (R344, R345): GMCP, RoCEv2, IEEE 1588. -/
def State.udpServed (s : State) (p : Nat) (u : Nat) : Bool :=
  let e := s.port p
  (e.roleCtrl && u == s.fl.scAt 0x24 2) || (e.roleBulk && u == 4791) || (p == 0 && (u == 319 || u == 320))

/-- IPv4 and IPv6 groups that a service of the port uses: those of IEEE 1588 on E0, for its UDP ports (R359), and the
solicited-node group of the port's IPv6 address, for neighbour solicitation (R344; log 153). -/
def group4 (p : Nat) (d : BitVec 32) (udp : Option (BitVec 16)) : Bool :=
  p == 0 && (udp == some 319 || udp == some 320) && (d == 0xE0000181 || d == 0xE000006B)

def State.group6 (s : State) (p : Nat) (d : BitVec 128) (udp : Option (BitVec 16)) : Bool :=
  let time := d.toNat / 2 ^ 116 == 0xFF0 && d.toNat % 2 ^ 112 == 0x181 || d.toNat == 0xFF02 * 2 ^ 112 + 0x6B
  (p == 0 && (udp == some 319 || udp == some 320) && time)
    || (udp == none && d.toNat == 0xFF02 * 2 ^ 112 + 0x1FF000000 + (s.ip6 p).toNat % 2 ^ 24)

/-- MAC address of the group that the frame is sent to, where a service of the port uses one (R343, R344, R359; log 153). -/
def State.groupMacs (s : State) (p : Nat) (f : EthFrame) : List (BitVec 48) := match f.net with
  | .arp => [0xFFFFFFFFFFFF]
  | .ip4 d _ => if group4 p d f.udp then [BitVec.ofNat 48 (0x01005E000000 + d.toNat % 2 ^ 23)] else []
  | .ip6 d _ => if s.group6 p d f.udp then [BitVec.ofNat 48 (0x333300000000 + d.toNat % 2 ^ 32)] else []
  | .other t => if t = 0x8808 then [0x0180C2000001] else if t = 0x88F7 ∧ p = 0 then [0x011B19000000, 0x0180C200000E] else []

/-- The network address is the port's own or a group it uses, without options, fragments and extension headers (R344). -/
def State.netServed (s : State) (p : Nat) (f : EthFrame) : Bool := match f.net with
  | .arp => true
  | .ip4 d extra => !extra && (d == s.ip4 p || group4 p d f.udp)
  | .ip6 d extra => !extra && (d == s.ip6 p || s.group6 p d f.udp)
  | .other t => t == 0x8808 || (t == 0x88F7 && p == 0)

/-- The frame is for this port: its MAC address or that of a group it uses; at most one tag, with the configured VLAN ID; a
network address and a UDP port it serves (R344). -/
def State.frameServed (s : State) (p : Nat) (f : EthFrame) : Bool :=
  let vlan := s.fl.scAt 0x2C 2
  let mac := f.mac == s.macOf p || (s.groupMacs p f).contains f.mac
  let tags := decide (f.vlans.length ≤ 1) && f.vlans.all (fun v => vlan.testBit 12 && v.toNat == vlan % 4096)
  mac && tags && s.netServed p f && (match f.udp with
    | some u => s.udpServed p u.toNat
    | none => true)

/-- Bytes of a frame that the MAC takes and sends, FCS included (R343). -/
def frameSize (n : Nat) : Bool := decide (64 ≤ n ∧ n ≤ 9216)

/-- Bytes of the frame of an echo whose ICMP or ICMPv6 message holds `body` after its checksum, padded to the least frame. -/
def State.echoFrame (s : State) (v6 : Bool) (body : List Byte) : Nat :=
  max 64 (14 + 4 * b2n s.vlanTag.isSome + (if v6 then 40 else 20) + 4 + body.length + 4)

/-- ETH_FRAME_DISCARD (R343, R344): FEC codewords are counted; a frame with a bad FCS, or that the port does not serve, is
discarded and counted. One of a size the MAC does not take is discarded and counted nowhere (log 120). -/
def execEthFrameDiscard (p : PortId) (f : EthFrame) (s : State) : Out :=
  let served := s.frameServed p.val f
  .next (s.onPort p (fun e =>
    let e : EthPort := { e with fecCorr := satAdd e.fecCorr f.fecCorr, fecUncorr := satAdd e.fecUncorr f.fecUncorr }
    if f.badFcs then { e with fcsErr := satInc e.fcsErr }
    else if served || !frameSize f.bytes then e else { e with dropOther := satInc e.dropOther }))

/-- ARP_REQUEST (R344): answered with the port's MAC address when it asks for the port's IPv4 address. -/
def execArpRequest (p : PortId) (mac : BitVec 48) (ip target : BitVec 32) (s : State) : Out :=
  let own := s.ip4 p.val
  let hw := s.macOf p.val
  let tag := s.vlanTag
  .next (s.onPort p (fun e => if target = own then { e with answers := e.answers ++ [(tag, .arp hw mac ip)] } else e))

/-- NEIGHBOUR_SOLICITATION (R344). -/
def execNeighbourSolicitation (p : PortId) (mac : BitVec 48) (ip target : BitVec 128) (s : State) : Out :=
  let own := s.ip6 p.val
  let hw := s.macOf p.val
  let tag := s.vlanTag
  .next (s.onPort p (fun e => if target = own then { e with answers := e.answers ++ [(tag, .neighbour hw mac ip)] } else e))

/-- ICMP_ECHO (R343, R344): ICMP, whose addresses are the low 32 bits, or ICMPv6, in a frame the MAC takes (log 120). -/
def execIcmpEcho (p : PortId) (v6 : Bool) (mac : BitVec 48) (ip target : BitVec 128) (body : List Byte) (s : State) : Out :=
  let own : BitVec 128 := if v6 then s.ip6 p.val else (s.ip4 p.val).setWidth 128
  let hw := s.macOf p.val
  let tag := s.vlanTag
  if !frameSize (s.echoFrame v6 body) then .next s
  else .next (s.onPort p (fun e =>
    if target = own then { e with answers := e.answers ++ [(tag, .echo hw v6 mac ip body)] } else { e with dropOther := satInc e.dropOther }))

/-- PFC_FRAME_RECEIVED (R343): a pause or a resume of one priority. -/
def execPfcFrameReceived (p : PortId) (prio : BitVec 3) (pause : Bool) (s : State) : Out :=
  let e := s.port p.val
  if s.portUp p.val && e.pfcEn && prio == e.pfcPrio then
    let s := s.modPort p.val (fun e => { e with paused := pause })
    .next (if pause then s else s.release p.val)
  else .next s

/-- ETH_LINK_LOSS (R361). -/
def execEthLinkLoss (p : PortId) (s : State) : Out := .next ((s.modPort p.val EthPort.down).release p.val)

/-- ETH_LINK_UP (R360): not without a standing configuration (R390), in ROM recovery (R395) or while the port is held down. -/
def execEthLinkUp (p : PortId) (s : State) : Out :=
  if s.fl.scHeld && !s.rst.recovery && !s.stopped && !(s.port p.val).disable then
    .next (s.modPort p.val (fun e => { e with linkUp := true, lanes := 0xF, fecLock := true }))
  else .next s

end Sys2Proof.Machine
end

