-- ==== Sys2Proof/Machine/Ptp.lean ====
section
/-! DEFINITION. The IEEE 1588 clock of port E0 (R329, R359): master selection, Sync and Follow_Up, Delay_Req and Delay_Resp. -/

namespace Sys2Proof.Machine

def State.modPtp (s : State) (f : PtpClock → PtpClock) : State := s.modEth (fun e => { e with ptp := f e.ptp })

/-- Order of the best master clock algorithm: the first field that differs decides. -/
def PtpMaster.keys (m : PtpMaster) : List Nat :=
  [m.prio1, m.class_, m.accuracy, m.variance, m.prio2, m.identity, m.steps, m.sender]

def lexLt : List Nat → List Nat → Bool
  | a :: as, b :: bs => decide (a < b) || (a == b && lexLt as bs)
  | _, _ => false

/-- Interval between a master's Announces in ns. -/
def PtpMaster.interval (m : PtpMaster) : Nat :=
  if m.logInt.toInt < 0 then 1000000000 / 2 ^ m.logInt.toInt.natAbs else 1000000000 * 2 ^ m.logInt.toNat

/-- A foreign master takes part in the choice: two Announces within four of its intervals, the last within three, and
fewer than 255 steps from its grandmaster (IEEE 1588-2019; PRESUMED, log 121). -/
def ForeignMaster.qualified (f : ForeignMaster) (now : BitVec 64) : Bool :=
  let n := f.m.interval
  decide (f.m.steps < 255) && decide (2 ≤ (f.heard.filter (fun t => decide ((now - t).toNat ≤ 4 * n))).length)
    && f.heard.any (fun t => decide ((now - t).toNat ≤ 3 * n))

/-- The best of the masters that qualify. -/
def PtpClock.best (c : PtpClock) (now : BitVec 64) : Option PtpMaster :=
  (c.masters.filter (fun f => f.qualified now)).foldl (fun b f => match b with
    | none => some f.m
    | some x => if lexLt f.m.keys x.keys then some f.m else b) none

/-- The master in force at `now`; a new one starts its measurements afresh. -/
def PtpClock.elect (c : PtpClock) (now : BitVec 64) : PtpClock :=
  let b := (c.best now).map (fun m => m.sender)
  if b = c.master then c else { c with master := b, masterOk := false, sync := none, msDiff := none, req := none }

/-- The choice of a master brought up to date. -/
def State.ptpElect (s : State) : State :=
  let now := s.now
  s.modPtp (fun c => c.elect now)

/-- The message comes from the master in force, in the clock's domain, over a link that is up. -/
def State.ptpHears (s : State) (sender : BitVec 80) (domain : BitVec 7) : Bool :=
  s.portUp 0 && domain == s.eth.ptp.domain && s.eth.ptp.master == some sender.toNat

/-- An Announce is taken: of its sender's earlier ones, those of the last four intervals count. -/
def PtpClock.announce (c : PtpClock) (now : BitVec 64) (m : PtpMaster) : PtpClock :=
  let old := (c.masters.find? (fun f => f.m.sender == m.sender)).map (fun f => f.heard)
  let heard := now :: ((old.getD []).filter (fun t => decide ((now - t).toNat ≤ 4 * m.interval)))
  ({ c with masters := c.masters.filter (fun f => f.m.sender != m.sender) ++ [⟨m, heard⟩] } : PtpClock).elect now

/-- A timestamp of 48-bit seconds and 32-bit nanoseconds, in ns. -/
def stampNs (t : BitVec 80) : Int := fldN t 32 48 * 1000000000 + fldN t 0 32

/-- Whole ns of a correction in 2^-16 ns. -/
def corrNs (c : BitVec 64) : Int := c.toInt / 65536

/-- Time of day minus FT measured by the exchange that a Delay_Resp closes. -/
def State.todSample (s : State) (x : Int) : State :=
  let off := satInt 32 (s.time.todOffset.toInt - x)
  let s := s.modPtp (fun c => { c with masterOk := true, lastOffset := off, req := none })
  s.modTime (fun t =>
    let l := (x :: t.todSamples).take 16
    if t.roleSource then { t with todSamples := l, todOffset := BitVec.ofInt 64 (meanOf l), todValid := true } else { t with todSamples := l })

/-- PTP_ANNOUNCE (R359). -/
def execPtpAnnounce (domain : BitVec 7) (m : PtpMaster) (s : State) : Out :=
  let now := s.now
  if s.portUp 0 && domain == s.eth.ptp.domain then .next (s.modPtp (fun c => c.announce now m)) else .next s

/-- PTP_SYNC (R359): captured at FT `rx`; a one-step Sync carries its origin time. -/
def execPtpSync (domain : BitVec 7) (sender : BitVec 80) (seq : BitVec 16) (rx : BitVec 64) (origin : Option (BitVec 80))
    (corr : BitVec 64) (s : State) : Out :=
  let s := s.ptpElect
  if s.ptpHears sender domain then
    match origin with
    | some t => .next (s.modPtp (fun c => { c with sync := none, msDiff := some (stampNs t + corrNs corr - rx.toNat) }))
    | none => .next (s.modPtp (fun c => { c with sync := some (seq, rx, corr) }))
  else .next s

/-- PTP_FOLLOW_UP (R359). -/
def execPtpFollowUp (domain : BitVec 7) (sender : BitVec 80) (seq : BitVec 16) (origin : BitVec 80) (corr : BitVec 64) (s : State) : Out :=
  let s := s.ptpElect
  match s.eth.ptp.sync with
  | some (q, rx, c0) =>
    if s.ptpHears sender domain && q == seq then
      .next (s.modPtp (fun c => { c with sync := none, msDiff := some (stampNs origin + corrNs (corr + c0) - rx.toNat) }))
    else .next s
  | none => .next s

/-- PTP_DELAY_RESP (R359, R329): the master received the Delay_Req at `rx`; `logInt` is the interval it announces. -/
def execPtpDelayResp (domain : BitVec 7) (sender : BitVec 80) (seq : BitVec 16) (rx : BitVec 80) (corr : BitVec 64) (logInt : BitVec 8)
    (s : State) : Out :=
  let s := s.ptpElect
  match s.eth.ptp.req with
  | some (q, tx) =>
    if s.ptpHears sender domain && q == seq then
      let ns : Nat := if logInt.toInt < 0 then 1000000000 / 2 ^ logInt.toInt.natAbs else 1000000000
      let s := s.modPtp (fun c => { c with interval := ns })
      match s.eth.ptp.msDiff with
      | some d => .next (s.todSample ((d + (stampNs rx - corrNs corr - tx.toNat)) / 2))
      | none => .next (s.modPtp (fun c => { c with masterOk := true, req := none }))
    else .next s
  | none => .next s

/-- DELAY_REQ_TIMER (R359): the next Delay_Req leaves; a master that left the last one unanswered is not answering. -/
def execDelayReqTimer (s : State) : Out :=
  let s := s.ptpElect
  let now := s.now
  if s.portUp 0 && s.eth.ptp.master.isSome then
    .next (s.modPtp (fun c => { c with masterOk := c.masterOk && c.req.isNone, req := some (c.reqSeq, now), reqSeq := c.reqSeq + 1 }))
  else .next s

end Sys2Proof.Machine
end

