-- ==== Sys2Proof/Machine/SeqRows.lean ====
section
/-! DEFINITION. Meanings of the SEQ instructions (R60 to R66).
Each command offers the instruction word that core c's sequencer fetches at its pc; the row's ENGINE and OPCODE stand in the
word, whatever the word held there. A core that cannot take a word keeps its state. -/

namespace Sys2Proof.Machine

/-- NOP: opcode 0x00 of engine 6 (R60). -/
def execNop (c : CoreId) (w : IWord) (s : State) : Out := .next (s.fetch c (Word128.withOp w 6 0x00))

/-- END: opcode 0x01 of engine 6 (R63). -/
def execEnd (c : CoreId) (w : IWord) (s : State) : Out := .next (s.fetch c (Word128.withOp w 6 0x01))

/-- BR: opcode 0x02 of engine 6 (R61). -/
def execBr (c : CoreId) (w : IWord) (s : State) : Out := .next (s.fetch c (Word128.withOp w 6 0x02))

/-- LOOP: opcode 0x03 of engine 6 (R61). -/
def execLoop (c : CoreId) (w : IWord) (s : State) : Out := .next (s.fetch c (Word128.withOp w 6 0x03))

/-- CALL: opcode 0x04 of engine 6 (R61). -/
def execCall (c : CoreId) (w : IWord) (s : State) : Out := .next (s.fetch c (Word128.withOp w 6 0x04))

/-- RET: opcode 0x05 of engine 6 (R61). -/
def execRet (c : CoreId) (w : IWord) (s : State) : Out := .next (s.fetch c (Word128.withOp w 6 0x05))

/-- WAITCC: opcode 0x08 of engine 6 (R56). -/
def execWaitcc (c : CoreId) (w : IWord) (s : State) : Out := .next (s.fetch c (Word128.withOp w 6 0x08))

/-- WAITQ: opcode 0x09 of engine 6 (R72). -/
def execWaitq (c : CoreId) (w : IWord) (s : State) : Out := .next (s.fetch c (Word128.withOp w 6 0x09))

/-- DRAIN: opcode 0x0B of engine 6 (R63). -/
def execDrain (c : CoreId) (w : IWord) (s : State) : Out := .next (s.fetch c (Word128.withOp w 6 0x0B))

/-- CCSET: opcode 0x10 of engine 6 (R61). -/
def execCcset (c : CoreId) (w : IWord) (s : State) : Out := .next (s.fetch c (Word128.withOp w 6 0x10))

/-- CCADD: opcode 0x11 of engine 6 (R61). -/
def execCcadd (c : CoreId) (w : IWord) (s : State) : Out := .next (s.fetch c (Word128.withOp w 6 0x11))

/-- CCREAD: opcode 0x12 of engine 6 (R61). -/
def execCcread (c : CoreId) (w : IWord) (s : State) : Out := .next (s.fetch c (Word128.withOp w 6 0x12))

/-- SETAR: opcode 0x18 of engine 6 (R52, R60). -/
def execSetar (c : CoreId) (w : IWord) (s : State) : Out := .next (s.fetch c (Word128.withOp w 6 0x18))

/-- SETAS: opcode 0x19 of engine 6 (R60). -/
def execSetas (c : CoreId) (w : IWord) (s : State) : Out := .next (s.fetch c (Word128.withOp w 6 0x19))

/-- ADDAR: opcode 0x1A of engine 6 (R61). -/
def execAddar (c : CoreId) (w : IWord) (s : State) : Out := .next (s.fetch c (Word128.withOp w 6 0x1A))

/-- SETGR: opcode 0x1B of engine 6 (R52, R60). -/
def execSetgr (c : CoreId) (w : IWord) (s : State) : Out := .next (s.fetch c (Word128.withOp w 6 0x1B))

/-- ADDGR: opcode 0x1C of engine 6 (R61). -/
def execAddgr (c : CoreId) (w : IWord) (s : State) : Out := .next (s.fetch c (Word128.withOp w 6 0x1C))

/-- SLD: opcode 0x20 of engine 6 (R62). -/
def execSld (c : CoreId) (w : IWord) (s : State) : Out := .next (s.fetch c (Word128.withOp w 6 0x20))

/-- SST: opcode 0x21 of engine 6 (R62). -/
def execSst (c : CoreId) (w : IWord) (s : State) : Out := .next (s.fetch c (Word128.withOp w 6 0x21))

/-- ATOM: opcode 0x22 of engine 6 (R62, R280). -/
def execAtom (c : CoreId) (w : IWord) (s : State) : Out := .next (s.fetch c (Word128.withOp w 6 0x22))

/-- CFLUSH: opcode 0x24 of engine 6 (R62, R244). -/
def execCflush (c : CoreId) (w : IWord) (s : State) : Out := .next (s.fetch c (Word128.withOp w 6 0x24))

/-- CINV: opcode 0x25 of engine 6 (R62, R244). -/
def execCinv (c : CoreId) (w : IWord) (s : State) : Out := .next (s.fetch c (Word128.withOp w 6 0x25))

/-- CFLINV: opcode 0x26 of engine 6 (R62, R244). -/
def execCflinv (c : CoreId) (w : IWord) (s : State) : Out := .next (s.fetch c (Word128.withOp w 6 0x26))

/-- LAUNCH_AT: opcode 0x28 of engine 6 (R64, R65). -/
def execLaunchAt (c : CoreId) (w : IWord) (s : State) : Out := .next (s.fetch c (Word128.withOp w 6 0x28))

/-- KCGSET: opcode 0x2A of engine 6 (R52, R198). -/
def execKcgset (c : CoreId) (w : IWord) (s : State) : Out := .next (s.fetch c (Word128.withOp w 6 0x2A))

/-- REGION_BEGIN: opcode 0x2C of engine 6 (R66). -/
def execRegionBegin (c : CoreId) (w : IWord) (s : State) : Out := .next (s.fetch c (Word128.withOp w 6 0x2C))

/-- REGION_END: opcode 0x2D of engine 6 (R66, R429, R430). -/
def execRegionEnd (c : CoreId) (w : IWord) (s : State) : Out := .next (s.fetch c (Word128.withOp w 6 0x2D))

/-! ## Words that cannot be carried out, and the broadcast ring -/

/-- ILLEGAL_INSTRUCTION: the sequencer fetches a word that decoding finds illegal (R74 to R77). A legal word is another
command's. -/
def execIllegalInstruction (c : CoreId) (w : IWord) (s : State) : Out :=
  .next (if decodeCause w = 0 then s else s.fetch c w)

/-- FETCH_BEYOND_END: fetch past word 131,071 (R74, R75, R77). -/
def execFetchBeyondEnd (c : CoreId) (s : State) : Out := .next (s.fetchBeyond c)

/-- NULL_ENTRY_SIGNAL: a null entry of a unit signals once every earlier operation of the unit has (R76). -/
def execNullEntrySignal (c : CoreId) (u : EngUnit) (s : State) : Out :=
  if s.stopped then .next s else
  .next ((State.dropNulls c u 16 s).signalNull c u).settle

/-- BROADCAST_DELIVERY: the oldest word on the ring reaches a member's buffer (R25). -/
def execBroadcastDelivery (c : CoreId) (s : State) : Out :=
  if s.stopped then .next s else .next (s.deliver c)

/-- RING_CREDIT_RETURN: a credit of a member reaches its Bellwether (R25). -/
def execRingCreditReturn (c : CoreId) (s : State) : Out :=
  if s.stopped then .next s else .next (s.creditReturn c)

/-- WAIT_TIMEOUT: the timeout of the WAITCC or WAITQ in force expires (R56, R72). -/
def execWaitTimeout (c : CoreId) (s : State) : Out :=
  if s.stopped then .next s else .next (s.timeoutWait c).settle

end Sys2Proof.Machine
end

