-- ==== Sys2Proof/Machine/VecRows.lean ====
section
/-! DEFINITION. Meanings of the VEC instructions and of the vector engine's start (R68, R139 to R145).
Each command offers the instruction word that core c's sequencer fetches at its pc; the row's ENGINE and OPCODE stand in the
word, whatever the word held there. A core that cannot take a word keeps its state. -/

namespace Sys2Proof.Machine

/-- VEC_ADD: opcode 0x01 of engine 1 (R68, R139). -/
def execVecAdd (c : CoreId) (w : IWord) (s : State) : Out := .next (s.fetch c (Word128.withOp w 1 0x01))

/-- VEC_SUB: opcode 0x02 of engine 1 (R68, R139). -/
def execVecSub (c : CoreId) (w : IWord) (s : State) : Out := .next (s.fetch c (Word128.withOp w 1 0x02))

/-- VEC_MUL: opcode 0x03 of engine 1 (R68, R139). -/
def execVecMul (c : CoreId) (w : IWord) (s : State) : Out := .next (s.fetch c (Word128.withOp w 1 0x03))

/-- VEC_FMA: opcode 0x04 of engine 1 (R68, R139). -/
def execVecFma (c : CoreId) (w : IWord) (s : State) : Out := .next (s.fetch c (Word128.withOp w 1 0x04))

/-- VEC_DIV: opcode 0x05 of engine 1 (R68, R139). -/
def execVecDiv (c : CoreId) (w : IWord) (s : State) : Out := .next (s.fetch c (Word128.withOp w 1 0x05))

/-- VEC_MAX: opcode 0x06 of engine 1 (R68, R139). -/
def execVecMax (c : CoreId) (w : IWord) (s : State) : Out := .next (s.fetch c (Word128.withOp w 1 0x06))

/-- VEC_MIN: opcode 0x07 of engine 1 (R68, R139). -/
def execVecMin (c : CoreId) (w : IWord) (s : State) : Out := .next (s.fetch c (Word128.withOp w 1 0x07))

/-- VEC_ABS: opcode 0x08 of engine 1 (R68, R139). -/
def execVecAbs (c : CoreId) (w : IWord) (s : State) : Out := .next (s.fetch c (Word128.withOp w 1 0x08))

/-- VEC_NEG: opcode 0x09 of engine 1 (R68, R139). -/
def execVecNeg (c : CoreId) (w : IWord) (s : State) : Out := .next (s.fetch c (Word128.withOp w 1 0x09))

/-- VEC_COPY: opcode 0x0A of engine 1 (R68, R139). -/
def execVecCopy (c : CoreId) (w : IWord) (s : State) : Out := .next (s.fetch c (Word128.withOp w 1 0x0A))

/-- VEC_SQRT: opcode 0x0B of engine 1 (R68, R139). -/
def execVecSqrt (c : CoreId) (w : IWord) (s : State) : Out := .next (s.fetch c (Word128.withOp w 1 0x0B))

/-- VEC_RSQRT: opcode 0x0C of engine 1 (R68, R139). -/
def execVecRsqrt (c : CoreId) (w : IWord) (s : State) : Out := .next (s.fetch c (Word128.withOp w 1 0x0C))

/-- VEC_ADDS: opcode 0x10 of engine 1 (R68, R139). -/
def execVecAdds (c : CoreId) (w : IWord) (s : State) : Out := .next (s.fetch c (Word128.withOp w 1 0x10))

/-- VEC_MULS: opcode 0x11 of engine 1 (R68, R139). -/
def execVecMuls (c : CoreId) (w : IWord) (s : State) : Out := .next (s.fetch c (Word128.withOp w 1 0x11))

/-- VEC_MAXS: opcode 0x12 of engine 1 (R68, R139). -/
def execVecMaxs (c : CoreId) (w : IWord) (s : State) : Out := .next (s.fetch c (Word128.withOp w 1 0x12))

/-- VEC_MINS: opcode 0x13 of engine 1 (R68, R139). -/
def execVecMins (c : CoreId) (w : IWord) (s : State) : Out := .next (s.fetch c (Word128.withOp w 1 0x13))

/-- VEC_FMAS: opcode 0x14 of engine 1 (R68, R139). -/
def execVecFmas (c : CoreId) (w : IWord) (s : State) : Out := .next (s.fetch c (Word128.withOp w 1 0x14))

/-- VEC_EXP: opcode 0x20 of engine 1 (R68, R139). -/
def execVecExp (c : CoreId) (w : IWord) (s : State) : Out := .next (s.fetch c (Word128.withOp w 1 0x20))

/-- VEC_LOG: opcode 0x21 of engine 1 (R68, R139). -/
def execVecLog (c : CoreId) (w : IWord) (s : State) : Out := .next (s.fetch c (Word128.withOp w 1 0x21))

/-- VEC_SIGMOID: opcode 0x22 of engine 1 (R68, R139). -/
def execVecSigmoid (c : CoreId) (w : IWord) (s : State) : Out := .next (s.fetch c (Word128.withOp w 1 0x22))

/-- VEC_TANH: opcode 0x23 of engine 1 (R68, R139). -/
def execVecTanh (c : CoreId) (w : IWord) (s : State) : Out := .next (s.fetch c (Word128.withOp w 1 0x23))

/-- VEC_SILU: opcode 0x24 of engine 1 (R68, R139). -/
def execVecSilu (c : CoreId) (w : IWord) (s : State) : Out := .next (s.fetch c (Word128.withOp w 1 0x24))

/-- VEC_DSILU: opcode 0x25 of engine 1 (R68, R139). -/
def execVecDsilu (c : CoreId) (w : IWord) (s : State) : Out := .next (s.fetch c (Word128.withOp w 1 0x25))

/-- VEC_GELU: opcode 0x26 of engine 1 (R68, R139). -/
def execVecGelu (c : CoreId) (w : IWord) (s : State) : Out := .next (s.fetch c (Word128.withOp w 1 0x26))

/-- VEC_DGELU: opcode 0x27 of engine 1 (R68, R139). -/
def execVecDgelu (c : CoreId) (w : IWord) (s : State) : Out := .next (s.fetch c (Word128.withOp w 1 0x27))

/-- VEC_SUM: opcode 0x30 of engine 1 (R68, R139). -/
def execVecSum (c : CoreId) (w : IWord) (s : State) : Out := .next (s.fetch c (Word128.withOp w 1 0x30))

/-- VEC_SUMSQ: opcode 0x31 of engine 1 (R68, R139). -/
def execVecSumsq (c : CoreId) (w : IWord) (s : State) : Out := .next (s.fetch c (Word128.withOp w 1 0x31))

/-- VEC_RMAX: opcode 0x32 of engine 1 (R68, R139). -/
def execVecRmax (c : CoreId) (w : IWord) (s : State) : Out := .next (s.fetch c (Word128.withOp w 1 0x32))

/-- VEC_AMAX: opcode 0x33 of engine 1 (R68, R139). -/
def execVecAmax (c : CoreId) (w : IWord) (s : State) : Out := .next (s.fetch c (Word128.withOp w 1 0x33))

/-- VEC_RAND: opcode 0x40 of engine 1 (R68, R139). -/
def execVecRand (c : CoreId) (w : IWord) (s : State) : Out := .next (s.fetch c (Word128.withOp w 1 0x40))

/-- CRED: opcode 0x80 of engine 1 (R68, R144). -/
def execCred (c : CoreId) (w : IWord) (s : State) : Out := .next (s.fetch c (Word128.withOp w 1 0x80))

/-- CONV: opcode 0x81 of engine 1 (R68, R143). -/
def execConv (c : CoreId) (w : IWord) (s : State) : Out := .next (s.fetch c (Word128.withOp w 1 0x81))

/-- CONV_SR: opcode 0x82 of engine 1 (R68, R143). -/
def execConvSr (c : CoreId) (w : IWord) (s : State) : Out := .next (s.fetch c (Word128.withOp w 1 0x82))

/-- VEC_OP_START: the vector engine starts its next instruction (R145). -/
def execVecOpStart (c : CoreId) (s : State) : Out :=
  if s.stopped then .next s else .next (s.startVec c).settle

end Sys2Proof.Machine
end

