-- ==== Sys2Proof/Machine/Dispatch.lean ====
section
/-! DEFINITION. One arm per command: a direct call of its meaning. -/

namespace Sys2Proof.Machine

/-- The effect of a command on everything but the queue of commands. -/
def exec (i : Instr) (s : State) : Host.Outcome State Fault Refusal :=
  match i with
  | .nop c w => Sys2Proof.Machine.execNop c w s
  | .endProgram c w => Sys2Proof.Machine.execEnd c w s
  | .br c w => Sys2Proof.Machine.execBr c w s
  | .loop c w => Sys2Proof.Machine.execLoop c w s
  | .call c w => Sys2Proof.Machine.execCall c w s
  | .ret c w => Sys2Proof.Machine.execRet c w s
  | .waitcc c w => Sys2Proof.Machine.execWaitcc c w s
  | .waitq c w => Sys2Proof.Machine.execWaitq c w s
  | .drain c w => Sys2Proof.Machine.execDrain c w s
  | .ccset c w => Sys2Proof.Machine.execCcset c w s
  | .ccadd c w => Sys2Proof.Machine.execCcadd c w s
  | .ccread c w => Sys2Proof.Machine.execCcread c w s
  | .setar c w => Sys2Proof.Machine.execSetar c w s
  | .setas c w => Sys2Proof.Machine.execSetas c w s
  | .addar c w => Sys2Proof.Machine.execAddar c w s
  | .setgr c w => Sys2Proof.Machine.execSetgr c w s
  | .addgr c w => Sys2Proof.Machine.execAddgr c w s
  | .sld c w => Sys2Proof.Machine.execSld c w s
  | .sst c w => Sys2Proof.Machine.execSst c w s
  | .atom c w => Sys2Proof.Machine.execAtom c w s
  | .cflush c w => Sys2Proof.Machine.execCflush c w s
  | .cinv c w => Sys2Proof.Machine.execCinv c w s
  | .cflinv c w => Sys2Proof.Machine.execCflinv c w s
  | .launchAt c w => Sys2Proof.Machine.execLaunchAt c w s
  | .kcgset c w => Sys2Proof.Machine.execKcgset c w s
  | .regionBegin c w => Sys2Proof.Machine.execRegionBegin c w s
  | .regionEnd c w => Sys2Proof.Machine.execRegionEnd c w s
  | .illegalInstruction c w => Sys2Proof.Machine.execIllegalInstruction c w s
  | .fetchBeyondEnd c => Sys2Proof.Machine.execFetchBeyondEnd c s
  | .nullEntrySignal c u => Sys2Proof.Machine.execNullEntrySignal c u s
  | .broadcastDelivery c => Sys2Proof.Machine.execBroadcastDelivery c s
  | .ringCreditReturn c => Sys2Proof.Machine.execRingCreditReturn c s
  | .ldw c w => Sys2Proof.Machine.execLdw c w s
  | .mm c w => Sys2Proof.Machine.execMm c w s
  | .dual c w => Sys2Proof.Machine.execDual c w s
  | .wgrad c w => Sys2Proof.Machine.execWgrad c w s
  | .ldwStart c => Sys2Proof.Machine.execLdwStart c s
  | .streamStart c => Sys2Proof.Machine.execStreamStart c s
  | .wgradStart c => Sys2Proof.Machine.execWgradStart c s
  | .vecAdd c w => Sys2Proof.Machine.execVecAdd c w s
  | .vecSub c w => Sys2Proof.Machine.execVecSub c w s
  | .vecMul c w => Sys2Proof.Machine.execVecMul c w s
  | .vecFma c w => Sys2Proof.Machine.execVecFma c w s
  | .vecDiv c w => Sys2Proof.Machine.execVecDiv c w s
  | .vecMax c w => Sys2Proof.Machine.execVecMax c w s
  | .vecMin c w => Sys2Proof.Machine.execVecMin c w s
  | .vecAbs c w => Sys2Proof.Machine.execVecAbs c w s
  | .vecNeg c w => Sys2Proof.Machine.execVecNeg c w s
  | .vecCopy c w => Sys2Proof.Machine.execVecCopy c w s
  | .vecSqrt c w => Sys2Proof.Machine.execVecSqrt c w s
  | .vecRsqrt c w => Sys2Proof.Machine.execVecRsqrt c w s
  | .vecAdds c w => Sys2Proof.Machine.execVecAdds c w s
  | .vecMuls c w => Sys2Proof.Machine.execVecMuls c w s
  | .vecMaxs c w => Sys2Proof.Machine.execVecMaxs c w s
  | .vecMins c w => Sys2Proof.Machine.execVecMins c w s
  | .vecFmas c w => Sys2Proof.Machine.execVecFmas c w s
  | .vecExp c w => Sys2Proof.Machine.execVecExp c w s
  | .vecLog c w => Sys2Proof.Machine.execVecLog c w s
  | .vecSigmoid c w => Sys2Proof.Machine.execVecSigmoid c w s
  | .vecTanh c w => Sys2Proof.Machine.execVecTanh c w s
  | .vecSilu c w => Sys2Proof.Machine.execVecSilu c w s
  | .vecDsilu c w => Sys2Proof.Machine.execVecDsilu c w s
  | .vecGelu c w => Sys2Proof.Machine.execVecGelu c w s
  | .vecDgelu c w => Sys2Proof.Machine.execVecDgelu c w s
  | .vecSum c w => Sys2Proof.Machine.execVecSum c w s
  | .vecSumsq c w => Sys2Proof.Machine.execVecSumsq c w s
  | .vecRmax c w => Sys2Proof.Machine.execVecRmax c w s
  | .vecAmax c w => Sys2Proof.Machine.execVecAmax c w s
  | .vecRand c w => Sys2Proof.Machine.execVecRand c w s
  | .cred c w => Sys2Proof.Machine.execCred c w s
  | .conv c w => Sys2Proof.Machine.execConv c w s
  | .convSr c w => Sys2Proof.Machine.execConvSr c w s
  | .vecOpStart c => Sys2Proof.Machine.execVecOpStart c s
  | .rowFwd c w => Sys2Proof.Machine.execRowFwd c w s
  | .rowBwd c w => Sys2Proof.Machine.execRowBwd c w s
  | .statFree c w => Sys2Proof.Machine.execStatFree c w s
  | .rowOpStart c => Sys2Proof.Machine.execRowOpStart c s
  | .attFwd c w => Sys2Proof.Machine.execAttFwd c w s
  | .attBwd c w => Sys2Proof.Machine.execAttBwd c w s
  | .append c w => Sys2Proof.Machine.execAppend c w s
  | .bucket c w => Sys2Proof.Machine.execBucket c w s
  | .slotSet c w => Sys2Proof.Machine.execSlotSet c w s
  | .slotClr c w => Sys2Proof.Machine.execSlotClr c w s
  | .attOpStart c => Sys2Proof.Machine.execAttOpStart c s
  | .gather c w => Sys2Proof.Machine.execGather c w s
  | .walk c w => Sys2Proof.Machine.execWalk c w s
  | .copy1 c w => Sys2Proof.Machine.execCopy1 c w s
  | .copyd c w => Sys2Proof.Machine.execCopyd c w s
  | .muleCopyStart c m => Sys2Proof.Machine.execMuleCopyStart c m s
  | .send c w => Sys2Proof.Machine.execSend c w s
  | .sendWaitLimit c => Sys2Proof.Machine.execSendWaitLimit c s
  | .recv c w => Sys2Proof.Machine.execRecv c w s
  | .msgFlush c w => Sys2Proof.Machine.execMsgFlush c w s
  | .mark c w => Sys2Proof.Machine.execMark c w s
  | .rewind c w => Sys2Proof.Machine.execRewind c w s
  | .release c w => Sys2Proof.Machine.execRelease c w s
  | .localMessageArrival c q n => Sys2Proof.Machine.execLocalMessageArrival c q n s
  | .statusTimeout c id => Sys2Proof.Machine.execStatusTimeout c id s
  | .launchTimeReached c u => Sys2Proof.Machine.execLaunchTimeReached c u s
  | .operationComplete c u n => Sys2Proof.Machine.execOperationComplete c u n s
  | .waitTimeout c => Sys2Proof.Machine.execWaitTimeout c s
  | .coreModeWrite c v => Sys2Proof.Machine.execCoreModeWrite c v s
  | .msgqFlushWrite c q => Sys2Proof.Machine.execMsgqFlushWrite c q s
  | .msgqKt4Write c q kt4 => Sys2Proof.Machine.execMsgqKt4Write c q kt4 s
  | .qlmCtrlWrite u v => Sys2Proof.Machine.execQlmCtrlWrite u v s
  | .arbWrite u v => Sys2Proof.Machine.execArbWrite u v s
  | .hcCtrlWrite v => Sys2Proof.Machine.execHcCtrlWrite v s
  | .eccCtrlWrite v => Sys2Proof.Machine.execEccCtrlWrite v s
  | .scrubCtrlWrite v => Sys2Proof.Machine.execScrubCtrlWrite v s
  | .pcViewWrite v => Sys2Proof.Machine.execPcViewWrite v s
  | .fmapWrite n v => Sys2Proof.Machine.execFmapWrite n v s
  | .retrain k v => Sys2Proof.Machine.execRetrain k v s
  | .injCtrlWrite v => Sys2Proof.Machine.execInjCtrlWrite v s
  | .injSeedWrite v => Sys2Proof.Machine.execInjSeedWrite v s
  | .laneInjWrite k v => Sys2Proof.Machine.execLaneInjWrite k v s
  | .slotEntryWrite hi v => Sys2Proof.Machine.execSlotEntryWrite hi v s
  | .capWrite v => Sys2Proof.Machine.execCapWrite v s
  | .bootCtrlWrite v => Sys2Proof.Machine.execBootCtrlWrite v s
  | .flReadPage => Sys2Proof.Machine.execFlReadPage s
  | .flProgramPage => Sys2Proof.Machine.execFlProgramPage s
  | .flEraseSector => Sys2Proof.Machine.execFlEraseSector s
  | .flashCommandDone failed => Sys2Proof.Machine.execFlashCommandDone failed s
  | .commitSt => Sys2Proof.Machine.execCommitSt s
  | .commitBu => Sys2Proof.Machine.execCommitBu s
  | .revoke j => Sys2Proof.Machine.execRevoke j s
  | .fuseOperationDone => Sys2Proof.Machine.execFuseOperationDone s
  | .ctrlFreeze maxS => Sys2Proof.Machine.execCtrlFreeze maxS s
  | .ctrlThaw maxS => Sys2Proof.Machine.execCtrlThaw maxS s
  | .registerWrite a v => Sys2Proof.Machine.execRegisterWrite a v s
  | .doorbellWrite u p tail => Sys2Proof.Machine.execDoorbellWrite u p tail s
  | .update u => Sys2Proof.Machine.execUpdate u s
  | .root u => Sys2Proof.Machine.execRoot u s
  | .bullockRetire u => Sys2Proof.Machine.execBullockRetire u s
  | .hbmRequest a wr hint pins => Sys2Proof.Machine.execHbmRequest a wr hint pins s
  | .fillComplete d frame => Sys2Proof.Machine.execFillComplete d frame s
  | .epochBoundary => Sys2Proof.Machine.execEpochBoundary s
  | .scrubRead st pins => Sys2Proof.Machine.execScrubRead st pins s
  | .hbmTempSample st t => Sys2Proof.Machine.execHbmTempSample st t s
  | .lsuFault u removed => Sys2Proof.Machine.execLsuFault u removed s
  | .lsuReady u => Sys2Proof.Machine.execLsuReady u s
  | .laneBringUp k mask => Sys2Proof.Machine.execLaneBringUp k mask s
  | .bringUpTimeout k => Sys2Proof.Machine.execBringUpTimeout k s
  | .laneRetryTimer k => Sys2Proof.Machine.execLaneRetryTimer k s
  | .laneFrameReceived k seq alone first next others => Sys2Proof.Machine.execLaneFrameReceived k seq alone first next others s
  | .lossOfSignal k w => Sys2Proof.Machine.execLossOfSignal k w s
  | .laneWidthLoss k => Sys2Proof.Machine.execLaneWidthLoss k s
  | .listenEntry k => Sys2Proof.Machine.execListenEntry k s
  | .listenWake k => Sys2Proof.Machine.execListenWake k s
  | .helloReceived k payload => Sys2Proof.Machine.execHelloReceived k payload s
  | .helloTimer => Sys2Proof.Machine.execHelloTimer s
  | .packetHop k p => Sys2Proof.Machine.execPacketHop k p s
  | .abortBlockReceived k block => Sys2Proof.Machine.execAbortBlockReceived k block s
  | .writePacketReceived k p => Sys2Proof.Machine.execWritePacketReceived k p s
  | .readPacketReceived k p => Sys2Proof.Machine.execReadPacketReceived k p s
  | .readRespReceived k p => Sys2Proof.Machine.execReadRespReceived k p s
  | .signalPacketReceived k p => Sys2Proof.Machine.execSignalPacketReceived k p s
  | .msgPacketReceived k p => Sys2Proof.Machine.execMsgPacketReceived k p s
  | .ackReceived k p => Sys2Proof.Machine.execAckReceived k p s
  | .creditPacketReceived k p => Sys2Proof.Machine.execCreditPacketReceived k p s
  | .noticeReceived k p => Sys2Proof.Machine.execNoticeReceived k p s
  | .requestTimeout xid => Sys2Proof.Machine.execRequestTimeout xid s
  | .dupEntryExpiry dev xid => Sys2Proof.Machine.execDupEntryExpiry dev xid s
  | .reorderHoldExpiry k => Sys2Proof.Machine.execReorderHoldExpiry k s
  | .timePacketTimer => Sys2Proof.Machine.execTimePacketTimer s
  | .timePacketReceived k payload => Sys2Proof.Machine.execTimePacketReceived k payload s
  | .upstreamStale => Sys2Proof.Machine.execUpstreamStale s
  | .holdoverAlignExpiry => Sys2Proof.Machine.execHoldoverAlignExpiry s
  | .ppsEdge capt => Sys2Proof.Machine.execPpsEdge capt s
  | .ppsMissing => Sys2Proof.Machine.execPpsMissing s
  | .scheduledPacketSend xid => Sys2Proof.Machine.execScheduledPacketSend xid s
  | .ethFrameDiscard p f => Sys2Proof.Machine.execEthFrameDiscard p f s
  | .arpRequest p mac ip target => Sys2Proof.Machine.execArpRequest p mac ip target s
  | .neighbourSolicitation p mac ip target => Sys2Proof.Machine.execNeighbourSolicitation p mac ip target s
  | .icmpEcho p v6 mac ip target body => Sys2Proof.Machine.execIcmpEcho p v6 mac ip target body s
  | .session port m held => Sys2Proof.Machine.execSession port m held s
  | .regRead port m held => Sys2Proof.Machine.execRegRead port m held s
  | .regWrite port m held => Sys2Proof.Machine.execRegWrite port m held s
  | .jobLoad port m held img => Sys2Proof.Machine.execJobLoad port m held img s
  | .jobStart port m held => Sys2Proof.Machine.execJobStart port m held s
  | .jobStartTime p => Sys2Proof.Machine.execJobStartTime p s
  | .abort port m held => Sys2Proof.Machine.execAbort port m held s
  | .jobUnload port m held => Sys2Proof.Machine.execJobUnload port m held s
  | .jobStatus port m held => Sys2Proof.Machine.execJobStatus port m held s
  | .qpOpen port m held => Sys2Proof.Machine.execQpOpen port m held s
  | .qpClose port m held => Sys2Proof.Machine.execQpClose port m held s
  | .rdmaReg port m held => Sys2Proof.Machine.execRdmaReg port m held s
  | .rdmaDereg port m held => Sys2Proof.Machine.execRdmaDereg port m held s
  | .telemetryRecord port m held => Sys2Proof.Machine.execTelemetryRecord port m held s
  | .telemetryNumeric port m held => Sys2Proof.Machine.execTelemetryNumeric port m held s
  | .gooseStatus port m held => Sys2Proof.Machine.execGooseStatus port m held s
  | .gooseRead port m held => Sys2Proof.Machine.execGooseRead port m held s
  | .gooseFreeze port m held => Sys2Proof.Machine.execGooseFreeze port m held s
  | .gooseThaw port m held => Sys2Proof.Machine.execGooseThaw port m held s
  | .attest port m held => Sys2Proof.Machine.execAttest port m held s
  | .resetWarm port m held => Sys2Proof.Machine.execResetWarm port m held s
  | .resetCold port m held => Sys2Proof.Machine.execResetCold port m held s
  | .unknownOp port m op => Sys2Proof.Machine.execUnknownOp port m op s
  | .roceSend port qpn psn ce first last data => Sys2Proof.Machine.execRoceSend port qpn psn ce first last data s
  | .roceRdmaWrite port qpn psn ce first last k a n data => Sys2Proof.Machine.execRoceRdmaWrite port qpn psn ce first last k a n data s
  | .roceRdmaRead port qpn psn ce k a n mtu => Sys2Proof.Machine.execRoceRdmaRead port qpn psn ce k a n mtu s
  | .roceInvalidRequest port qpn psn ce => Sys2Proof.Machine.execRoceInvalidRequest port qpn psn ce s
  | .roceCnpReceived qpn => Sys2Proof.Machine.execRoceCnpReceived qpn s
  | .cnpRateRecovery qpn => Sys2Proof.Machine.execCnpRateRecovery qpn s
  | .ackCoalesceTimer qpn => Sys2Proof.Machine.execAckCoalesceTimer qpn s
  | .ptpAnnounce domain m => Sys2Proof.Machine.execPtpAnnounce domain m s
  | .ptpSync domain sender seq rx origin corr => Sys2Proof.Machine.execPtpSync domain sender seq rx origin corr s
  | .ptpFollowUp domain sender seq origin corr => Sys2Proof.Machine.execPtpFollowUp domain sender seq origin corr s
  | .ptpDelayResp domain sender seq rx corr logInt => Sys2Proof.Machine.execPtpDelayResp domain sender seq rx corr logInt s
  | .delayReqTimer => Sys2Proof.Machine.execDelayReqTimer s
  | .inputLow mv => Sys2Proof.Machine.execInputLow mv s
  | .brownOut dip => Sys2Proof.Machine.execBrownOut dip s
  | .overVoltage => Sys2Proof.Machine.execOverVoltage s
  | .powerEstimateTick raw sample => Sys2Proof.Machine.execPowerEstimateTick raw sample s
  | .calibrationWindow => Sys2Proof.Machine.execCalibrationWindow s
  | .measurementFail => Sys2Proof.Machine.execMeasurementFail s
  | .voltageStep => Sys2Proof.Machine.execVoltageStep s
  | .fastCurrentLimit => Sys2Proof.Machine.execFastCurrentLimit s
  | .overcurrentTrip => Sys2Proof.Machine.execOvercurrentTrip s
  | .temperatureSample compute dies optical plant => Sys2Proof.Machine.execTemperatureSample compute dies optical plant s
  | .allowanceStep r => Sys2Proof.Machine.execAllowanceStep r s
  | .thermalTrip cls ix t => Sys2Proof.Machine.execThermalTrip cls ix t s
  | .thermalTripClear => Sys2Proof.Machine.execThermalTripClear s
  | .tachFault k hz => Sys2Proof.Machine.execTachFault k hz s
  | .coolOkDeassert => Sys2Proof.Machine.execCoolOkDeassert s
  | .plantFaultClear => Sys2Proof.Machine.execPlantFaultClear s
  | .throttleNAssert => Sys2Proof.Machine.execThrottleNAssert s
  | .throttleNRelease secs => Sys2Proof.Machine.execThrottleNRelease secs s
  | .throttleNHour => Sys2Proof.Machine.execThrottleNHour s
  | .releaseHoldEnd => Sys2Proof.Machine.execReleaseHoldEnd s
  | .idleClockStop c => Sys2Proof.Machine.execIdleClockStop c s
  | .launchWake c => Sys2Proof.Machine.execLaunchWake c s
  | .powerOn pwrEn => Sys2Proof.Machine.execPowerOn pwrEn s
  | .pwrEnRise early => Sys2Proof.Machine.execPwrEnRise early s
  | .pwrEnFall => Sys2Proof.Machine.execPwrEnFall s
  | .resetPin => Sys2Proof.Machine.execResetPin s
  | .watchdog => Sys2Proof.Machine.execWatchdog s
  | .firmwareRequest cold => Sys2Proof.Machine.execFirmwareRequest cold s
  | .bullockFault => Sys2Proof.Machine.execBullockFault s
  | .rngHealthFail => Sys2Proof.Machine.execRngHealthFail s
  | .rngReseedTimer => Sys2Proof.Machine.execRngReseedTimer s
  | .debugUnlock answer => Sys2Proof.Machine.execDebugUnlock answer s
  | .gooseRecordWrite fails => Sys2Proof.Machine.execGooseRecordWrite fails s
  | .repeatUpdate => Sys2Proof.Machine.execRepeatUpdate s
  | .freezeTimeout => Sys2Proof.Machine.execFreezeTimeout s
  | .hoursTimer => Sys2Proof.Machine.execHoursTimer s
  | .slotIdChange new => Sys2Proof.Machine.execSlotIdChange new s
  | .uartFrameReceived bs bad img held => Sys2Proof.Machine.execUartFrameReceived bs bad img held s
  | .uartByteTimeout => Sys2Proof.Machine.execUartByteTimeout s
  | .smbusStatus rd => Sys2Proof.Machine.execSmbusStatus rd s
  | .smbusSerial rd => Sys2Proof.Machine.execSmbusSerial rd s
  | .smbusOtherCommand addr code => Sys2Proof.Machine.execSmbusOtherCommand addr code s
  | .smbusTimeout => Sys2Proof.Machine.execSmbusTimeout s
  | .smbusRefresh => Sys2Proof.Machine.execSmbusRefresh s
  | .resetNRelease => Sys2Proof.Machine.execResetNRelease s
  | .pwrEnHoldEnd => Sys2Proof.Machine.execPwrEnHoldEnd s
  | .coolOkAssert => Sys2Proof.Machine.execCoolOkAssert s
  | .pfcFrameReceived p prio pause => Sys2Proof.Machine.execPfcFrameReceived p prio pause s
  | .ethLinkLoss p => Sys2Proof.Machine.execEthLinkLoss p s
  | .ethLinkUp p => Sys2Proof.Machine.execEthLinkUp p s

end Sys2Proof.Machine
end

