-- ==== Sys2Proof/Machine/Step.lean ====
section
/-! DEFINITION. One step of the block: the command at the front of the queue, or one tick when none waits. -/

namespace Sys2Proof.Machine

/-- The queue of commands replaced. -/
def State.withPending (s : State) (l : List Instr) : State := { s with pending := l }

/-- The front command runs with the queue's rest; on an empty queue one tick of the 1 GHz clock passes. -/
def step (s : State) : Host.Outcome State Fault Refusal :=
  match s.pending with
  | [] => .next s.idleTick
  | c :: rest => exec c (s.withPending rest)

/-- The command that the word spells, put at the front of the queue. -/
def State.withFetchWord (s : State) (nbits w : Nat) : State :=
  match decodeTableWord nbits w with
  | some c => s.withPending (c :: s.pending)
  | none => s

end Sys2Proof.Machine
end

