-- ==== Sys2Proof/WellFormed.lean ====
section
/-! DEFINITION. Which commands are well formed: what the rules say of a command's operands before any state is looked at. -/

namespace Sys2Proof

open Sys2Proof.Machine

/-- The word's OPCODE [127:120] and ENGINE [119:116] are the row's (R47). -/
def wordIs (w : IWord) (engine opcode : Nat) : Bool :=
  (w.extractLsb' 116 4).toNat == engine && (w.extractLsb' 120 8).toNat == opcode

/-- A GMCP message: 32 bytes of header and at most 8,192 bytes in all (R346). -/
def msgOk (m : List Byte) : Bool := decide (32 ≤ m.length ∧ m.length ≤ 8192)

/-- Operations of R349. -/
def assignedOps : List Nat :=
  [0x01, 0x02, 0x03, 0x10, 0x11, 0x12, 0x13, 0x14, 0x18, 0x19, 0x1A, 0x1B, 0x20, 0x28, 0x30, 0x38]

/-- The payload has the length that LEN gives (R300). -/
def packetOk (p : Packet) : Bool :=
  let len := (p.w0.extractLsb' 10 7).toNat
  decide (len ≤ 64) && p.payload.length == 64 * len

/-- Cores, entries and lists of a job image lie in their ranges (R28, R331). -/
def imageOk (img : Option JobImage) : Bool :=
  match img with
  | none => true
  | some j =>
    decide (1 ≤ j.cores.length ∧ j.cores.length ≤ 8) && decide (j.regions.length ≤ 16)
      && (match j.slots with
          | some t => t.entries.all (fun e => decide (e.1 < 65536))
          | none => true)

/-- The numbers of an Announce fit their fields (R359). -/
def masterOk (m : PtpMaster) : Bool :=
  decide (m.prio1 < 256 ∧ m.class_ < 256 ∧ m.accuracy < 256 ∧ m.variance < 65536 ∧ m.prio2 < 256)
    && decide (m.identity < 2 ^ 64 ∧ m.steps < 65536 ∧ m.sender < 2 ^ 80)

/-- The operands of a command are of the form its row's rule gives. -/
def Instr.WellFormed (i : Instr) : Bool :=
  match i with
  | .nop _ w => wordIs w 6 0x00
  | .endProgram _ w => wordIs w 6 0x01
  | .br _ w => wordIs w 6 0x02
  | .loop _ w => wordIs w 6 0x03
  | .call _ w => wordIs w 6 0x04
  | .ret _ w => wordIs w 6 0x05
  | .waitcc _ w => wordIs w 6 0x08
  | .waitq _ w => wordIs w 6 0x09
  | .drain _ w => wordIs w 6 0x0B
  | .ccset _ w => wordIs w 6 0x10
  | .ccadd _ w => wordIs w 6 0x11
  | .ccread _ w => wordIs w 6 0x12
  | .setar _ w => wordIs w 6 0x18
  | .setas _ w => wordIs w 6 0x19
  | .addar _ w => wordIs w 6 0x1A
  | .setgr _ w => wordIs w 6 0x1B
  | .addgr _ w => wordIs w 6 0x1C
  | .sld _ w => wordIs w 6 0x20
  | .sst _ w => wordIs w 6 0x21
  | .atom _ w => wordIs w 6 0x22
  | .cflush _ w => wordIs w 6 0x24
  | .cinv _ w => wordIs w 6 0x25
  | .cflinv _ w => wordIs w 6 0x26
  | .launchAt _ w => wordIs w 6 0x28
  | .kcgset _ w => wordIs w 6 0x2A
  | .regionBegin _ w => wordIs w 6 0x2C
  | .regionEnd _ w => wordIs w 6 0x2D
  | .illegalInstruction _ _ => true
  | .fetchBeyondEnd _ => true
  | .nullEntrySignal _ _ => true
  | .broadcastDelivery _ => true
  | .ringCreditReturn _ => true
  | .ldw _ w => wordIs w 0 0x01
  | .mm _ w => wordIs w 0 0x02
  | .dual _ w => wordIs w 0 0x03
  | .wgrad _ w => wordIs w 0 0x04
  | .ldwStart _ => true
  | .streamStart _ => true
  | .wgradStart _ => true
  | .vecAdd _ w => wordIs w 1 0x01
  | .vecSub _ w => wordIs w 1 0x02
  | .vecMul _ w => wordIs w 1 0x03
  | .vecFma _ w => wordIs w 1 0x04
  | .vecDiv _ w => wordIs w 1 0x05
  | .vecMax _ w => wordIs w 1 0x06
  | .vecMin _ w => wordIs w 1 0x07
  | .vecAbs _ w => wordIs w 1 0x08
  | .vecNeg _ w => wordIs w 1 0x09
  | .vecCopy _ w => wordIs w 1 0x0A
  | .vecSqrt _ w => wordIs w 1 0x0B
  | .vecRsqrt _ w => wordIs w 1 0x0C
  | .vecAdds _ w => wordIs w 1 0x10
  | .vecMuls _ w => wordIs w 1 0x11
  | .vecMaxs _ w => wordIs w 1 0x12
  | .vecMins _ w => wordIs w 1 0x13
  | .vecFmas _ w => wordIs w 1 0x14
  | .vecExp _ w => wordIs w 1 0x20
  | .vecLog _ w => wordIs w 1 0x21
  | .vecSigmoid _ w => wordIs w 1 0x22
  | .vecTanh _ w => wordIs w 1 0x23
  | .vecSilu _ w => wordIs w 1 0x24
  | .vecDsilu _ w => wordIs w 1 0x25
  | .vecGelu _ w => wordIs w 1 0x26
  | .vecDgelu _ w => wordIs w 1 0x27
  | .vecSum _ w => wordIs w 1 0x30
  | .vecSumsq _ w => wordIs w 1 0x31
  | .vecRmax _ w => wordIs w 1 0x32
  | .vecAmax _ w => wordIs w 1 0x33
  | .vecRand _ w => wordIs w 1 0x40
  | .cred _ w => wordIs w 1 0x80
  | .conv _ w => wordIs w 1 0x81
  | .convSr _ w => wordIs w 1 0x82
  | .vecOpStart _ => true
  | .rowFwd _ w => wordIs w 2 0x01
  | .rowBwd _ w => wordIs w 2 0x02
  | .statFree _ w => wordIs w 2 0x03
  | .rowOpStart _ => true
  | .attFwd _ w => wordIs w 3 0x01
  | .attBwd _ w => wordIs w 3 0x02
  | .append _ w => wordIs w 3 0x03
  | .bucket _ w => wordIs w 3 0x04
  | .slotSet _ w => wordIs w 3 0x05
  | .slotClr _ w => wordIs w 3 0x06
  | .attOpStart _ => true
  | .gather _ w => wordIs w 4 0x01
  | .walk _ w => wordIs w 4 0x02
  | .copy1 _ w => wordIs w 5 0x01
  | .copyd _ w => wordIs w 5 0x02
  | .muleCopyStart _ _ => true
  | .send _ w => wordIs w 7 0x01
  | .sendWaitLimit _ => true
  | .recv _ w => wordIs w 7 0x02
  | .msgFlush _ w => wordIs w 7 0x03
  | .mark _ w => wordIs w 7 0x04
  | .rewind _ w => wordIs w 7 0x05
  | .release _ w => wordIs w 7 0x06
  | .localMessageArrival _ _ n => decide (1 ≤ n ∧ n ≤ 32)
  | .statusTimeout _ _ => true
  | .launchTimeReached _ _ => true
  | .operationComplete _ _ _ => true
  | .waitTimeout _ => true
  | .coreModeWrite _ _ => true
  | .msgqFlushWrite _ _ => true
  | .msgqKt4Write _ _ _ => true
  | .qlmCtrlWrite _ _ => true
  | .arbWrite _ _ => true
  | .hcCtrlWrite _ => true
  | .eccCtrlWrite _ => true
  | .scrubCtrlWrite _ => true
  | .pcViewWrite _ => true
  | .fmapWrite _ _ => true
  | .retrain _ _ => true
  | .injCtrlWrite _ => true
  | .injSeedWrite _ => true
  | .laneInjWrite _ _ => true
  | .slotEntryWrite _ _ => true
  | .capWrite _ => true
  | .bootCtrlWrite _ => true
  | .flReadPage => true
  | .flProgramPage => true
  | .flEraseSector => true
  | .flashCommandDone _ => true
  | .commitSt => true
  | .commitBu => true
  | .revoke _ => true
  | .fuseOperationDone => true
  | .ctrlFreeze _ => true
  | .ctrlThaw _ => true
  | .registerWrite a _ => a.toNat % 8 == 0
  | .doorbellWrite _ _ _ => true
  | .update _ => true
  | .root _ => true
  | .bullockRetire _ => true
  | .hbmRequest a wr _ pins => a.toNat % 64 == 0 && decide pins.Nodup && (match wr with | some bs => bs.length == 64 | none => true)
  | .fillComplete _ _ => true
  | .epochBoundary => true
  | .scrubRead _ pins => decide pins.Nodup
  | .hbmTempSample _ _ => true
  | .lsuFault _ _ => true
  | .lsuReady _ => true
  | .laneBringUp _ _ => true
  | .bringUpTimeout _ => true
  | .laneRetryTimer _ => true
  | .laneFrameReceived _ _ _ _ _ others => decide (others.length ≤ 4)
  | .lossOfSignal _ _ => true
  | .laneWidthLoss _ => true
  | .listenEntry _ => true
  | .listenWake _ => true
  | .helloReceived _ payload => payload.length == 64
  | .helloTimer => true
  | .packetHop _ p => packetOk p
  | .abortBlockReceived _ _ => true
  | .writePacketReceived _ p => packetOk p && p.w0.toNat % 16 == 1
  | .readPacketReceived _ p => packetOk p && p.w0.toNat % 16 == 2
  | .readRespReceived _ p => packetOk p && p.w0.toNat % 16 == 3
  | .signalPacketReceived _ p => packetOk p && p.w0.toNat % 16 == 4
  | .msgPacketReceived _ p => packetOk p && p.w0.toNat % 16 == 5
  | .ackReceived _ p => packetOk p && p.w0.toNat % 16 == 6
  | .creditPacketReceived _ p => packetOk p && p.w0.toNat % 16 == 7
  | .noticeReceived _ p => packetOk p && p.w0.toNat % 16 == 8
  | .requestTimeout _ => true
  | .dupEntryExpiry _ _ => true
  | .reorderHoldExpiry _ => true
  | .timePacketTimer => true
  | .timePacketReceived _ payload => payload.length == 64
  | .upstreamStale => true
  | .holdoverAlignExpiry => true
  | .ppsEdge _ => true
  | .ppsMissing => true
  | .scheduledPacketSend _ => true
  | .ethFrameDiscard _ _ => true
  | .arpRequest _ _ _ _ => true
  | .neighbourSolicitation _ _ _ _ => true
  | .icmpEcho _ v6 _ ip target _ => v6 || decide (ip.toNat < 2 ^ 32 ∧ target.toNat < 2 ^ 32)
  | .session _ m _ => msgOk m && m.getD 3 0 == 0x01
  | .regRead _ m _ => msgOk m && m.getD 3 0 == 0x02
  | .regWrite _ m _ => msgOk m && m.getD 3 0 == 0x03
  | .jobLoad _ m _ img => msgOk m && m.getD 3 0 == 0x10 && imageOk img
  | .jobStart _ m _ => msgOk m && m.getD 3 0 == 0x11
  | .jobStartTime _ => true
  | .abort _ m _ => msgOk m && m.getD 3 0 == 0x12
  | .jobUnload _ m _ => msgOk m && m.getD 3 0 == 0x13
  | .jobStatus _ m _ => msgOk m && m.getD 3 0 == 0x14
  | .qpOpen _ m _ => msgOk m && m.getD 3 0 == 0x18
  | .qpClose _ m _ => msgOk m && m.getD 3 0 == 0x19
  | .rdmaReg _ m _ => msgOk m && m.getD 3 0 == 0x1A
  | .rdmaDereg _ m _ => msgOk m && m.getD 3 0 == 0x1B
  | .telemetryRecord _ m _ => msgOk m && m.getD 3 0 == 0x20 && m.getD 32 0 == 0
  | .telemetryNumeric _ m _ => msgOk m && m.getD 3 0 == 0x20 && m.getD 32 0 == 1
  | .gooseStatus _ m _ => msgOk m && m.getD 3 0 == 0x28 && m.getD 32 0 == 0
  | .gooseRead _ m _ => msgOk m && m.getD 3 0 == 0x28 && m.getD 32 0 == 1
  | .gooseFreeze _ m _ => msgOk m && m.getD 3 0 == 0x28 && m.getD 32 0 == 2
  | .gooseThaw _ m _ => msgOk m && m.getD 3 0 == 0x28 && m.getD 32 0 == 3
  | .attest _ m _ => msgOk m && m.getD 3 0 == 0x30
  | .resetWarm _ m _ => msgOk m && m.getD 3 0 == 0x38 && m.getD 32 0 == 0
  | .resetCold _ m _ => msgOk m && m.getD 3 0 == 0x38 && m.getD 32 0 == 1
  | .unknownOp _ m op => msgOk m && !assignedOps.contains op.toNat
  | .roceSend _ _ _ _ _ _ data => decide (data.length ≤ 4096)
  | .roceRdmaWrite _ _ _ _ _ _ _ _ _ data => decide (data.length ≤ 4096)
  | .roceRdmaRead _ _ _ _ _ _ _ _ => true
  | .roceInvalidRequest _ _ _ _ => true
  | .roceCnpReceived _ => true
  | .cnpRateRecovery _ => true
  | .ackCoalesceTimer _ => true
  | .ptpAnnounce _ m => masterOk m
  | .ptpSync _ _ _ _ _ _ => true
  | .ptpFollowUp _ _ _ _ _ => true
  | .ptpDelayResp _ _ _ _ _ _ => true
  | .delayReqTimer => true
  | .inputLow _ => true
  | .brownOut _ => true
  | .overVoltage => true
  | .powerEstimateTick _ _ => true
  | .calibrationWindow => true
  | .measurementFail => true
  | .voltageStep => true
  | .fastCurrentLimit => true
  | .overcurrentTrip => true
  | .temperatureSample _ _ _ _ => true
  | .allowanceStep _ => true
  | .thermalTrip _ _ _ => true
  | .thermalTripClear => true
  | .tachFault _ _ => true
  | .coolOkDeassert => true
  | .plantFaultClear => true
  | .throttleNAssert => true
  | .throttleNRelease _ => true
  | .throttleNHour => true
  | .releaseHoldEnd => true
  | .idleClockStop _ => true
  | .launchWake _ => true
  | .powerOn _ => true
  | .pwrEnRise _ => true
  | .pwrEnFall => true
  | .resetPin => true
  | .watchdog => true
  | .firmwareRequest _ => true
  | .bullockFault => true
  | .rngHealthFail => true
  | .rngReseedTimer => true
  | .debugUnlock _ => true
  | .gooseRecordWrite _ => true
  | .repeatUpdate => true
  | .freezeTimeout => true
  | .hoursTimer => true
  | .slotIdChange _ => true
  | .uartFrameReceived _ _ img _ => imageOk img
  | .uartByteTimeout => true
  | .smbusStatus _ => true
  | .smbusSerial _ => true
  | .smbusOtherCommand _ code => decide (2 ≤ code.toNat)
  | .smbusTimeout => true
  | .smbusRefresh => true
  | .resetNRelease => true
  | .pwrEnHoldEnd => true
  | .coolOkAssert => true
  | .pfcFrameReceived _ _ _ => true
  | .ethLinkLoss _ => true
  | .ethLinkUp _ => true

end Sys2Proof
end

