-- ==== Sys2Proof/Safety.lean ====
section
/-! DEFINITION. What the statements suppose of a state and of the sender: settled states, a core that takes a word, memories
in canonical form, and which commands a faithful sender gives. -/

namespace Sys2Proof.Machine

/-- Both byte memories have their canonical form: HBM and core SRAM, and the flash. -/
def State.MemWf (s : State) : Prop := s.ms.mem.wf 0 = true ∧ s.fl.flash.wf 0xFF = true

/-- No core has a word, a wait or a queued operation. -/
def State.Quiet (s : State) : Prop := ∀ c, c < 8 → (s.core c).quiet = true

/-- No active core's program is over, and every RUNNING partition has an active core or waits for its start. -/
def State.Steady (s : State) : Prop :=
  (∀ c, c < 8 → (s.core c).id.active = true → s.programOver c = false) ∧
  (∀ p, p < 8 → (s.part p).state = .running →
    s.eth.armed.any (fun a => a.part == p) = true ∨ ∃ c ∈ (s.part p).cores p, (s.core c).id.active = true)

/-- Core c runs a program in independent mode, and is ready for its next word (R22, R47, R74, R398). -/
def State.Takes (s : State) (c : CoreId) : Prop :=
  s.noProgram c = false ∧ (s.core c).id.bcast = false ∧ (s.core c).seq.stopped = false ∧ (s.core c).seq.ended = false ∧
  (s.core c).seq.fetchEnded = false ∧ (s.core c).seq.launchHeld = none ∧ (s.core c).seq.pc.toNat < 131072

/-- The word a core's instruction memory holds at its pc; an unlisted word is zero (R47). -/
def State.fetched (s : State) (c : CoreId) : IWord := tabGet (s.core c).imem (s.core c).seq.pc.toNat 0

/-- The word that a command offers to a core's sequencer. -/
def wordOf (i : Instr) : Option (CoreId × IWord) :=
  match i with
  | .nop c w | .endProgram c w | .br c w | .loop c w | .call c w | .ret c w | .waitcc c w | .waitq c w | .drain c w
  | .ccset c w | .ccadd c w | .ccread c w | .setar c w | .setas c w | .addar c w | .setgr c w | .addgr c w | .sld c w
  | .sst c w | .atom c w | .cflush c w | .cinv c w | .cflinv c w | .launchAt c w | .kcgset c w | .regionBegin c w
  | .regionEnd c w | .illegalInstruction c w | .ldw c w | .mm c w | .dual c w | .wgrad c w | .vecAdd c w | .vecSub c w
  | .vecMul c w | .vecFma c w | .vecDiv c w | .vecMax c w | .vecMin c w | .vecAbs c w | .vecNeg c w | .vecCopy c w
  | .vecSqrt c w | .vecRsqrt c w | .vecAdds c w | .vecMuls c w | .vecMaxs c w | .vecMins c w | .vecFmas c w | .vecExp c w
  | .vecLog c w | .vecSigmoid c w | .vecTanh c w | .vecSilu c w | .vecDsilu c w | .vecGelu c w | .vecDgelu c w
  | .vecSum c w | .vecSumsq c w | .vecRmax c w | .vecAmax c w | .vecRand c w | .cred c w | .conv c w | .convSr c w
  | .rowFwd c w | .rowBwd c w | .statFree c w | .attFwd c w | .attBwd c w | .append c w | .bucket c w | .slotSet c w
  | .slotClr c w | .gather c w | .walk c w | .copy1 c w | .copyd c w | .send c w | .recv c w | .msgFlush c w | .mark c w
  | .rewind c w | .release c w => some (c, w)
  | _ => none

/-- Rows of what runs on the fast clocks: while an emergency stop holds them, nothing of it happens (R379). -/
def onFastClocks (i : Instr) : Bool :=
  (wordOf i).isSome || match i with
  | .fetchBeyondEnd .. | .nullEntrySignal .. | .broadcastDelivery .. | .ringCreditReturn .. | .waitTimeout .. | .launchTimeReached ..
  | .ldwStart .. | .streamStart .. | .wgradStart .. | .vecOpStart .. | .rowOpStart .. | .attOpStart .. | .muleCopyStart ..
  | .operationComplete .. | .sendWaitLimit .. | .localMessageArrival .. | .statusTimeout .. | .update .. | .root .. | .bullockRetire ..
  | .doorbellWrite .. | .hbmRequest .. | .fillComplete .. | .epochBoundary | .scrubRead .. | .laneBringUp .. | .bringUpTimeout ..
  | .laneRetryTimer .. | .lossOfSignal .. | .laneWidthLoss .. | .listenEntry .. | .listenWake .. | .helloReceived .. | .helloTimer
  | .abortBlockReceived .. | .packetHop .. | .writePacketReceived .. | .readPacketReceived .. | .readRespReceived ..
  | .signalPacketReceived .. | .msgPacketReceived .. | .ackReceived .. | .creditPacketReceived .. | .noticeReceived .. | .requestTimeout .. | .dupEntryExpiry .. | .reorderHoldExpiry .. | .timePacketTimer
  | .timePacketReceived .. | .scheduledPacketSend .. | .jobStartTime .. => true
  | _ => false

/-- A faithful sender gives well-formed commands, and offers to an active core only the word that it fetches. -/
def State.Faithful (s : State) (i : Instr) : Prop :=
  i.WellFormed = true ∧ ∀ c w, wordOf i = some (c, w) → (s.core c).id.active = true ∧ w = s.fetched c

/-- A run is safe when every command of its queue is faithful in the state that meets it; no command stops the machine. -/
def safeRun : Nat → State → Prop
  | 0, _ => True
  | n + 1, s =>
    (∀ i rest, s.pending = i :: rest → s.Faithful i) ∧
    ∃ t, step s = .next t ∧ safeRun n t

/-- Core c is ready for a word, every core is quiet and nothing is about to end. -/
def State.Ready (s : State) (c : CoreId) : Prop := s.Takes c ∧ s.Quiet ∧ s.Steady

/-- Core c is a member of a broadcast group and waits for the next word of the ring; every core is quiet and nothing is about to
end (R25, R77). -/
def State.Member (s : State) (c : CoreId) : Prop :=
  s.stopped = false ∧ (s.core c).id.bcast = true ∧ (s.core c).seq.stopped = false ∧ (s.core c).seq.ended = false ∧ s.Quiet ∧ s.Steady

/-- The sequencer of core c moves past a word with the effect f on its registers, and the word signals its counter. -/
def State.seqStep (s : State) (c : Nat) (f : SeqState → SeqState) (sg : BitVec 8) : State :=
  (s.modCore c (fun k => k.modSeq (fun q => { f { q with pc := q.pc + 1 } with stall := .none }))).signal c sg false

/-- The counters of core c after one signal: counter `g`, when it names one, counts up and takes ERR from an error. -/
def ccAfter (v : Vector (BitVec 32) 64) (g : BitVec 8) (err : Bool) : Vector (BitVec 32) 64 :=
  if g.toNat < 64 then vmod v g.toNat (fun x => ccBump x err) else v

/-- What a skip at issue leaves on core c (R74 to R77): counted, recorded in LAST_ERR with the pc and the cause, signalled
with ERR, past the word; STOP_ON_ERR stops the core; registers, flags, stacks and queues stay. -/
def State.Skipped (s t : State) (c : CoreId) (w : IWord) (cause : Nat) : Prop :=
  (t.core c).err.leCause = BitVec.ofNat 8 cause ∧ (t.core c).err.lePc = (s.core c).seq.pc.setWidth 17 ∧
  (t.core c).err.leEngine = Word128.engine w ∧ (t.core c).err.leOpcode = Word128.opcode w ∧
  (t.core c).err.leRank = (s.core c).id.rank ∧ (t.core c).err.leBcast = false ∧ (t.core c).err.leExec = false ∧
  (t.core c).err.leValid = true ∧ (t.core c).err.leFt = s.time.ft ∧
  (t.core c).err.illegal = (if cause < 0x10 then satInc (s.core c).err.illegal else (s.core c).err.illegal) ∧
  (t.core c).err.inconsistent = (if cause < 0x10 then (s.core c).err.inconsistent else satInc (s.core c).err.inconsistent) ∧
  (t.core c).seq.pc = (s.core c).seq.pc + 1 ∧ (t.core c).seq.stopped = (s.core c).err.stopOnErr ∧
  (t.core c).seq.ar = (s.core c).seq.ar ∧ (t.core c).seq.as_ = (s.core c).seq.as_ ∧ (t.core c).seq.gr = (s.core c).seq.gr ∧
  (t.core c).seq.kcg = (s.core c).seq.kcg ∧ (t.core c).seq.callStack = (s.core c).seq.callStack ∧
  (t.core c).seq.regions = (s.core c).seq.regions ∧ (t.core c).seq.fErr = (s.core c).seq.fErr ∧
  (t.core c).seq.fTmo = (s.core c).seq.fTmo ∧ (∀ d, d ≠ c.val → t.core d = s.core d) ∧
  t.ms = s.ms ∧ t.fab = s.fab ∧ t.time = s.time ∧ t.ud = s.ud ∧ t.parts = s.parts ∧ t.eth = s.eth ∧ t.pwr = s.pwr ∧
  t.rst = s.rst ∧ t.fl = s.fl ∧ t.sec = s.sec ∧ t.pins = s.pins ∧ t.pending = s.pending

/-- The state in which the decoded word d waits to issue on core c. -/
def State.offered (s : State) (c : Nat) (d : Decoded) : State :=
  s.modCore c (fun k => k.modSeq (fun q => { q with pc := q.pc + 1, launchHeld := none, buf := [d] }))

/-- The word w as core c decodes it at its pc. -/
def State.decodedAt (s : State) (c : Nat) (w : IWord) : Decoded := ⟨(s.core c).seq.pc.setWidth 17, w, decodeCause w⟩

/-- No resource outside core c and its memory changes: fabric, time, Ethernet, power, reset, flash, security, pins. -/
def State.sameRest (s t : State) : Prop :=
  t.fab = s.fab ∧ t.time = s.time ∧ t.eth = s.eth ∧ t.rst = s.rst ∧ t.fl = s.fl ∧ t.sec = s.sec ∧ t.pins = s.pins ∧
  t.parts = s.parts ∧ t.pending = s.pending

/-- An engine has read its descriptor at `d`: memory's bookkeeping changes only for a descriptor in HBM, and no byte changes while
no stored error waits to be written back. -/
def State.sameMemory (s t : State) (d : Nat) : Prop :=
  (isHbm d = false → t.ms = s.ms) ∧ (s.ms.soft = [] → ∀ x, t.ms.byte x = s.ms.byte x)

/-- The other cores are as they were. -/
def State.otherCores (s t : State) (c : CoreId) : Prop := ∀ d, d ≠ c.val → t.core d = s.core d

/-- The other cores are as they were but for their core caches and prefetch buffers, which observe writes (R243, R249). -/
def State.otherCoresButCache (s t : State) (c : CoreId) : Prop :=
  ∀ d, d ≠ c.val → { t.core d with cache := (s.core d).cache } = s.core d

/-- What queue n of core c tells its listed senders as its FULL flag falls, and only then: the list is cleared, each sender on
this module finds FULL = 0 in the queue's place of its credit mirror, and one on another module is sent a CREDIT packet (R38). -/
def State.Credits (s t : State) (c n : Nat) : Prop :=
  let q := (s.core c).queue n
  let r := (t.core c).queue n
  let falls : Prop := 24 < q.entries.length ∧ r.entries.length ≤ 24
  (¬ falls → r.senders = q.senders ∧ t.fab = s.fab ∧ ∀ d, d < 8 → (t.core d).msg.mirror = (s.core d).msg.mirror) ∧
  (falls → r.senders = [] ∧
    ((∀ e ∈ q.senders, s.isOwnDev e.1 = true) → t.fab = s.fab ∧ ∀ d, d < 8 → (t.core d).msg.mirror =
      if q.senders.any (fun e => e.2.toNat == d) then (s.core d).msg.mirror.map (fun m =>
        if m.dev = 0x3FFF ∧ m.core.toNat = c ∧ m.queue.toNat = n then { m with full := false } else m)
      else (s.core d).msg.mirror) ∧
    (∀ e, q.senders = [e] → s.isOwnDev e.1 = false → t.fab = (s.sendResp (PacketFields.build
      { ty := 0x7, dst := e.1, src := s.dev, srcCore := c, jobTag := (s.core c).id.jobTag, dstCore := e.2.toNat, queue := n })).fab))

/-- Rows whose words go to an engine that holds them until a start: constructor, ENGINE, OPCODE (R67 to R71). -/
def engineRows : List ((CoreId → IWord → Instr) × Nat × Nat) :=
  [(.ldw, 0, 1), (.mm, 0, 2), (.dual, 0, 3), (.wgrad, 0, 4),
   (.vecAdd, 1, 0x01), (.vecSub, 1, 0x02), (.vecMul, 1, 0x03), (.vecFma, 1, 0x04), (.vecDiv, 1, 0x05), (.vecMax, 1, 0x06),
   (.vecMin, 1, 0x07), (.vecAbs, 1, 0x08), (.vecNeg, 1, 0x09), (.vecCopy, 1, 0x0A), (.vecSqrt, 1, 0x0B), (.vecRsqrt, 1, 0x0C),
   (.vecAdds, 1, 0x10), (.vecMuls, 1, 0x11), (.vecMaxs, 1, 0x12), (.vecMins, 1, 0x13), (.vecFmas, 1, 0x14), (.vecExp, 1, 0x20),
   (.vecLog, 1, 0x21), (.vecSigmoid, 1, 0x22), (.vecTanh, 1, 0x23), (.vecSilu, 1, 0x24), (.vecDsilu, 1, 0x25),
   (.vecGelu, 1, 0x26), (.vecDgelu, 1, 0x27), (.vecSum, 1, 0x30), (.vecSumsq, 1, 0x31), (.vecRmax, 1, 0x32), (.vecAmax, 1, 0x33),
   (.vecRand, 1, 0x40), (.cred, 1, 0x80), (.conv, 1, 0x81), (.convSr, 1, 0x82),
   (.rowFwd, 2, 1), (.rowBwd, 2, 2), (.statFree, 2, 3),
   (.attFwd, 3, 1), (.attBwd, 3, 2), (.append, 3, 3), (.bucket, 3, 4), (.slotSet, 3, 5), (.slotClr, 3, 6),
   (.copy1, 5, 1), (.copyd, 5, 2)]

/-- q waits alone at the head of unit u of core c and may start now; no word, wait or other queue of any core waits, and no
active core has reached END. -/
def State.HeadAlone (s : State) (c : CoreId) (u : EngUnit) (q : QEntry) : Prop :=
  s.stopped = false ∧ s.Steady ∧ (∀ d, d < 8 → d ≠ c.val → (s.core d).quiet = true) ∧ (s.core c).seq.buf = [] ∧ (s.core c).seq.wait = .none ∧
  (∀ x ∈ engUnits, x ≠ u → ((s.core c).eng x).queue = []) ∧ ((s.core c).eng u).queue = [q] ∧ q.launchOk s.time.ft = true ∧
  (∀ d, d < 8 → (s.core d).id.active = true → (s.core d).seq.ended = false)

/-- q left the queue of unit u of core c and runs after the operations that ran; the sequencer, the other cores and memory
are as they were. -/
def State.Started (s t : State) (c : CoreId) (u : EngUnit) (q : QEntry) : Prop :=
  ((t.core c).eng u).queue = [] ∧
  ((t.core c).eng u).running.map (fun r => r.q) = ((s.core c).eng u).running.map (fun r => r.q) ++ [q] ∧
  (t.core c).seq = (s.core c).seq ∧ s.otherCores t c ∧ s.sameRest t ∧ t.pwr = s.pwr ∧ t.ud = s.ud

/-- The operation leaves unit u of core c: it runs no more, its scoreboard entries are released, its counter is signalled
with ERR as `err` says, and the sequencer's other registers stay. -/
def State.Finished (s t : State) (c : CoreId) (u : EngUnit) (q : QEntry) (err : Bool) : Prop :=
  ((t.core c).eng u).running = ((s.core c).eng u).running.filter (fun r => r.q.id != q.id) ∧
  ((t.core c).eng u).queue = ((s.core c).eng u).queue ∧
  (t.core c).seq.sb = (s.core c).seq.sb.filter (fun e => e.owner != q.id) ∧
  (t.core c).seq.cc = ccAfter (s.core c).seq.cc q.sigcc err ∧ (t.core c).seq.gr = (s.core c).seq.gr ∧
  (t.core c).seq.ar = (s.core c).seq.ar ∧ (t.core c).seq.pc = (s.core c).seq.pc ∧
  (t.core c).seq.fErr = (s.core c).seq.fErr ∧ (t.core c).seq.fTmo = (s.core c).seq.fTmo

/-- No byte of memory changes outside the given ranges. -/
def State.storesOnly (s t : State) (rs : List (Nat × Nat)) : Prop :=
  ∀ x, (∀ r ∈ rs, ¬ (r.1 ≤ x ∧ x < r.1 + r.2)) → t.ms.byte x = s.ms.byte x

/-- The 4 bytes at an address as an FP32 pattern. -/
def MemSys.word (ms : MemSys) (a : Nat) : BitVec 32 := BitVec.ofNat 32 (ms.le a 4)

/-- The bits of n elements of a format of whole bytes, in order. -/
def MemSys.codes (ms : MemSys) (f : Elem) (a n : Nat) : List Nat :=
  (List.range n).map (fun j => ms.le (a + j * (f.bits / 8)) (f.bits / 8))

/-- The values of n such elements (R109). -/
def MemSys.values (ms : MemSys) (f : Elem) (a n : Nat) : List FVal := (ms.codes f a n).map (fun x => (decodeElem f x).1)

/-- The same values as FP32 patterns. -/
def MemSys.f32s (ms : MemSys) (f : Elem) (a n : Nat) : List (BitVec 32) := (ms.values f a n).map f32bits

/-- How a result is rounded: nearest even, or under SR by the draw for the element's address (R89, R120, R121). -/
def modeAt (k : KcgSel) (sr : Bool) (f : Elem) (a : Nat) : RMode := if sr then srMode k.seed k.stream f (8 * a) else .rne

/-- The K-blocks of a dot of unscaled elements, in order (R115). -/
def plainBlocks (xs ys : List FVal) : List (BitVec 32 × Bool) :=
  let ps := List.zipWith prodOf xs ys
  (List.range (ceilDiv ps.length 64)).map (fun i =>
    kBlock ((ps.drop (64 * i)).take 32) ((ps.drop (64 * i + 32)).take 32) (some 0) (some 0) .one)

/-- A stream's input and output lie in the core's SRAM, unless it has no rows. -/
def Stream.inCore (x : Stream) (c : Nat) (p : OxPlane) : Prop :=
  x.rows = 0 ∨ (inSram c x.inp (x.spans (p.k, p.n)).1 = true ∧ inSram c x.out (x.spans (p.k, p.n)).2 = true)

/-- What a stream x through plane p leaves (R87, R88, R114 to R119): each output row as streamRow makes it; and for BF16 or FP16
operands, FP32 results and no stochastic rounding, each output word the chain, from the old word under ACC, over the
K-blocks of its input row and its column or row of the tile; with one term alone, the rounded product. -/
def State.StreamLeft (s t : State) (k : KcgSel) (p : OxPlane) (x : Stream) : Prop :=
  let l := (x.lens p.k p.n).1
  let n := (x.lens p.k p.n).2
  ∀ m, m < x.rows →
    t.ms.bytes (x.out + m * rowPitch x.outFmt n) (n * elemBytes x.outFmt) = (streamRow s.ms p k x m).1 ∧
    ∀ f, (x.inFmt = 0 ∧ f = Elem.bf16) ∨ (x.inFmt = 1 ∧ f = Elem.fp16) → p.fmt = x.inFmt → x.outFmt = 2 → x.sr = false → 1 ≤ l →
      ∀ o, o < n →
        let a := x.out + m * rowPitch 2 n + 4 * o
        let ins := s.ms.values f (x.inp + m * rowPitch x.inFmt l) l
        let ws := (List.range l).map (fun j => if x.dir then p.elem o j else p.elem j o)
        t.ms.word a = (chain32 (if x.acc then some (s.ms.word a) else none) (plainBlocks ins ws)).1 ∧
        (l = 1 → x.acc = false → ∀ u v, ins = [u] → ws = [v] → (u.mul v).isNaN = false → (u.mul v).isZero = false →
          t.ms.word a = (rne32 (u.mul v)).1)

/-- Nothing waits, nothing is about to end, fast clocks run. -/
def State.Calm (s : State) : Prop :=
  s.Quiet ∧ s.stopped = false ∧ (∀ d, d < 8 → (s.core d).id.active = true → (s.core d).seq.ended = false) ∧ s.Steady

/-- Lane k goes to state `x`: its light follows the state, what was under way on it is dropped, and nothing outside the lane
changes. -/
def State.LaneMoves (s t : State) (k : Nat) (x : LaneState) (light : BitVec 8) (retrains : BitVec 16) : Prop :=
  (t.lane k).state = x ∧ (t.lane k).txMask = light ∧ (t.lane k).retrains = retrains ∧ (t.lane k).retry = [] ∧
  (t.lane k).rxBytes = [] ∧ (t.lane k).helloOk = false ∧ (t.lane k).reorder = [] ∧ (∀ j, j ≠ k → t.lane j = s.lane j) ∧
  t = { s with fab := { s.fab with lanes := t.fab.lanes } }

/-- No Mule engine runs an operation and no remote signal waits, so nothing goes on sending packets. -/
def State.NoCopies (s : State) : Prop :=
  (∀ c u, c < 8 → u.isMule = true → ((s.core c).eng u).running = []) ∧ s.fab.rsigQ = []

/-- The best-effort packet p of type ty arrives for this module on lane k and passes every check of its header, its age and its
payload (R300 to R302, R308), and injection does not drop it (R314); no notice waits to be sent. -/
def State.Arrives (s : State) (k : LaneId) (ty : Nat) (p : Packet) : Prop :=
  s.Calm ∧ s.NoCopies ∧ s.fab.noticeQ = [] ∧ (s.lane k).state = .up ∧ s.fab.coordValid = true ∧ s.headerBad p = false ∧
  p.ty = ty ∧ p.dst = s.dev ∧ p.cls = false ∧ p.dropped = false ∧ p.expiredAt s.now = false ∧ p.pcrcOk = true

/-- The credits of p are owed to the lane it came on (R307). -/
def State.credited (s : State) (k : LaneId) (p : Packet) : State := s.returnCredits (some (k.val, p.vc)) p

/-- Nothing but the fabric, and what the caller names, changes. -/
def State.fabricOnly (s t : State) : Prop :=
  t.time = s.time ∧ t.eth = s.eth ∧ t.pwr = s.pwr ∧ t.rst = s.rst ∧ t.fl = s.fl ∧ t.sec = s.sec ∧ t.pins = s.pins ∧
  t.parts = s.parts ∧ t.pending = s.pending

/-- A request of operation `op`, with the payload bytes its row fixes, arrives over the UART of a ready module whose command queue is
empty; its header and payload have the right form. -/
def State.Asked (s : State) (op : Nat) (first m : List Byte) : Prop :=
  s.rst.ready = true ∧ s.stewardDown = false ∧ s.eth.queue = [] ∧ headerOk (asOp op first m) = true ∧ payloadOk op (gmcpBody (asOp op first m)) = true

/-- The module answers a request over the UART with a status and a payload, and counts it. -/
def State.uartAnswered (x : State) (msg : List Byte) (status : Nat) (payload : List Byte) : State :=
  { x with eth := { x.eth with cmds := satInc x.eth.cmds }
           pins := { x.pins with uartTx := x.pins.uartTx ++ [uartFrame (replyBytes (GmcpHdr.of msg) status payload none)] } }

/-- A reset of the given kind has run on s for the cause `bit`: the registers, queues and engines it reaches are at their reset
values; what the fuses, the Goose's counters, the caller's queue and the pins hold stays (R383 to R385, R407, R422). -/
def State.ResetDone (s t : State) (cold : Bool) (bit : Nat) : Prop :=
  t.cores = Vector.replicate 8 {} ∧ t.ud = Vector.replicate 2 {} ∧ t.parts = Vector.replicate 8 {} ∧ t.locals = [] ∧
  (∀ j, j < 64 → t.lane j = {} ∨ (t.lane j = { state := .train, txMask := 0xFF } ∧ s.fab.lsuLit.getLsbD (j / 16) = true)) ∧ t.fab.out = [] ∧ t.fab.dups = [] ∧ t.fab.fmap = [] ∧ t.eth.qps = [] ∧ t.eth.windows = [] ∧
  fld t.rst.cause 0 16 = fld (setBit s.rst.cause bit) 0 16 ∧ t.rst.resets = (if s.rst.powerUp then 0 else satInc s.rst.resets) ∧ t.rst.waiting = none ∧
  t.rst.held = s.rst.held ∧ t.pwr.opCur = 8 ∧ t.pwr.opTarget = 8 ∧ t.pwr.halved = false ∧ t.pins.pwrGood = true ∧
  t.sec.revoked = s.sec.fuseDone.revoked ∧ t.sec.floorSt = s.sec.fuseDone.floorSt ∧ t.sec.floorBu = s.sec.fuseDone.floorBu ∧
  t.goose.hours = s.goose.hours ∧ t.goose.pcycle = s.goose.pcycle ∧ t.goose.frozen = false ∧ t.pending = s.pending ∧
  (cold = true → t.ms.mem = [] ∧ t.ms.ue = []) ∧
  (cold = false → t.pwr.capW = s.pwr.capW ∧ t.pwr.gain = s.pwr.gain ∧ t.pwr.idleStopped = 0xFF ∧
    ∀ c a, c < 8 → ctlBase c ≤ a → a < ctlBase c + 0x400000 → t.ms.byte a = 0)

end Sys2Proof.Machine
end

