-- ==== Sys2Proof/Certificates/Slice0/Obligations.lean ====
section
/-! DEFINITION. Statements about the model for the provers. -/

open Sys2Proof Sys2Proof.Machine

/-- NOP, CCSET, CCADD, CCREAD, SETAS, ADDAR and ADDGR on a core that is ready (R60, R61): each writes the one register its
rule names with the value its rule gives, moves the pc past the word, signals the counter of SIGCC, and leaves everything
else. The word v is the row's: ENGINE 6 and its opcode. -/
def Obligations.SeqRegisterResults : Prop :=
  ∀ (c : CoreId) (w : IWord) (s : State), s.Ready c →
    (decodeCause (Word128.withOp w 6 0x00) = 0 →
      exec (.nop c w) s = .next (s.seqStep c (fun q => q) (Word128.sigcc w))) ∧
    (decodeCause (Word128.withOp w 6 0x10) = 0 →
      exec (.ccset c w) s = .next (s.seqStep c (fun q => { q with cc := vmod q.cc (fldN w 0 6) (fun _ => (fld w 6 31).setWidth 32) })
        (Word128.sigcc w))) ∧
    (decodeCause (Word128.withOp w 6 0x11) = 0 →
      exec (.ccadd c w) s = .next (s.seqStep c (fun q => { q with cc := vmod q.cc (fldN w 0 6) (fun v =>
        BitVec.ofNat 32 (fldN v 31 1 * 2 ^ 31 + (fldN v 0 31 + fldN w 6 31) % 2 ^ 31)) }) (Word128.sigcc w))) ∧
    (decodeCause (Word128.withOp w 6 0x12) = 0 →
      exec (.ccread c w) s = .next (s.seqStep c (fun q => { q with gr := vmod q.gr (fldN w 6 4) (fun _ =>
        (q.cc.getD (fldN w 0 6) 0).setWidth 64) }) (Word128.sigcc w))) ∧
    (decodeCause (Word128.withOp w 6 0x19) = 0 →
      exec (.setas c w) s = .next (s.seqStep c (fun q => { q with as_ := vmod q.as_ (fldN w 0 5) (fun _ => fld w 5 64) })
        (Word128.sigcc w))) ∧
    (decodeCause (Word128.withOp w 6 0x1A) = 0 →
      exec (.addar c w) s = .next (s.seqStep c (fun q => { q with ar := vmod q.ar (fldN w 0 5) (fun a =>
        let add : Int := if bitB w 45 then ((q.gr.getD (fldN w 46 4) 0).toNat : Int) else (fld w 5 40).toInt
        BitVec.ofNat 56 (fldN a 42 14 * 2 ^ 42 + (((fldN a 0 42 : Int) + add) % 2 ^ 42).toNat)) }) (Word128.sigcc w))) ∧
    (decodeCause (Word128.withOp w 6 0x1C) = 0 →
      exec (.addgr c w) s = .next (s.seqStep c (fun q => { q with gr := vmod q.gr (fldN w 0 4) (fun _ =>
        q.gr.getD (fldN w 4 4) 0 + fld w 8 64) }) (Word128.sigcc w)))

/-- SETAR, SETGR and KCGSET (R23, R52, R60). In independent mode the rank is 0 and the register takes the field of the word.
On a member of a broadcast group, to which the ring brings the word, PCS adds to the field the rank times AS_i (SETAR) or the
rank; a value outside the field skips the word there under cause 0x1D and leaves the register. -/
def Obligations.SeqSubstitutedResults : Prop :=
  ∀ (c : CoreId) (w : IWord) (s : State),
    let sg := Word128.sigcc w
    (s.Ready c →
      (decodeCause (Word128.withOp w 6 0x18) = 0 → exec (.setar c w) s = .next (s.seqStep c (fun q =>
        { q with ar := vmod q.ar (fldN w 0 5) (fun _ => fld w 5 56) }) sg)) ∧
      (decodeCause (Word128.withOp w 6 0x1B) = 0 → exec (.setgr c w) s = .next (s.seqStep c (fun q =>
        { q with gr := vmod q.gr (fldN w 0 4) (fun _ => fld w 4 64) }) sg)) ∧
      (decodeCause (Word128.withOp w 6 0x2A) = 0 → exec (.kcgset c w) s = .next (s.seqStep c (fun q =>
        { q with kcg := ⟨fld w 24 64, fld w 0 24⟩ }) sg))) ∧
    (∀ d rest, s.Member c → (s.core c).ringIn = d :: rest → d.cause = 0 →
      let rank : Nat := if bitB w 107 then (s.core c).id.rank.toNat else 0
      let va : Int := (fldN w 5 56 : Int) + rank * ((s.core c).seq.as_.getD (fldN w 0 5) 0).toInt
      let vg : Nat := fldN w 4 64 + rank
      let vk : Nat := fldN w 0 24 + rank
      let sets (f : SeqState → SeqState) : Prop := exec (.broadcastDelivery c) s = .next ((s.modCore c (fun k =>
        { k.modSeq (fun q => { f q with stall := .none }) with ringIn := rest, creditsBack := k.creditsBack + 1 })).signal c sg false)
      let skips : Prop := ∃ t, exec (.broadcastDelivery c) s = .next t ∧ (t.core c).err.leCause = 0x1D ∧
        (t.core c).err.leRank = (s.core c).id.rank ∧ (t.core c).err.inconsistent = satInc (s.core c).err.inconsistent ∧
        (t.core c).seq.ar = (s.core c).seq.ar ∧ (t.core c).seq.gr = (s.core c).seq.gr ∧ (t.core c).seq.kcg = (s.core c).seq.kcg ∧
        (t.core c).seq.cc = ccAfter (s.core c).seq.cc sg true ∧ (t.core c).ringIn = rest
      (d.word = Word128.withOp w 6 0x18 →
        (0 ≤ va → va < 2 ^ 56 → sets (fun q => { q with ar := vmod q.ar (fldN w 0 5) (fun _ => BitVec.ofInt 56 va) })) ∧
        (va < 0 ∨ 2 ^ 56 ≤ va → skips)) ∧
      (d.word = Word128.withOp w 6 0x1B →
        (vg < 2 ^ 64 → sets (fun q => { q with gr := vmod q.gr (fldN w 0 4) (fun _ => BitVec.ofNat 64 vg) })) ∧
        (2 ^ 64 ≤ vg → skips)) ∧
      (d.word = Word128.withOp w 6 0x2A →
        (vk < 2 ^ 24 → sets (fun q => { q with kcg := ⟨fld w 24 64, BitVec.ofNat 24 vk⟩ })) ∧
        (2 ^ 24 ≤ vk → skips)))

/-- BR, LOOP, CALL and RET on a ready core (R61, R75): the condition codes, where fetch goes on, the call stack of 16
addresses, and cause 0x19 of a CALL on a full stack and a RET on an empty one, after which fetch continues. -/
def Obligations.ControlFlow : Prop :=
  ∀ (c : CoreId) (w : IWord) (s : State), s.Ready c →
    let q0 := (s.core c).seq
    let target : BitVec 18 := (fld w 0 17).setWidth 18
    let g : BitVec 64 := q0.gr.getD (fldN w 21 4) 0
    let cc : BitVec 32 := q0.cc.getD (fldN w 25 6) 0
    let taken : Bool := match fldN w 17 4 with
      | 0 => true
      | 1 => decide (g = 0)
      | 2 => decide (g ≠ 0)
      | 3 => decide (g.toInt < 0)
      | 4 => q0.fErr
      | 5 => q0.fTmo
      | 6 => decide (((fldN cc 0 31 : Int) - fldN w 31 31) % 2 ^ 31 < 2 ^ 30)
      | _ => cc.msb
    let l : BitVec 64 := q0.gr.getD (fldN w 17 4) 0 - 1
    (8 ≤ fldN w 17 4 → decodeCause (Word128.withOp w 6 0x02) ≠ 0) ∧
    (decodeCause (Word128.withOp w 6 0x02) = 0 →
      exec (.br c w) s = .next (s.seqStep c (fun q => if taken then { q with pc := target } else q) (Word128.sigcc w))) ∧
    (decodeCause (Word128.withOp w 6 0x03) = 0 →
      exec (.loop c w) s = .next (s.seqStep c (fun q => { q with gr := vmod q.gr (fldN w 17 4) (fun _ => l)
                                                                 pc := if l = 0 then q.pc else target }) (Word128.sigcc w))) ∧
    (decodeCause (Word128.withOp w 6 0x04) = 0 →
      (q0.callStack.length < 16 → exec (.call c w) s = .next (s.seqStep c (fun q =>
        { q with callStack := (q0.pc + 1) :: q.callStack, pc := target }) (Word128.sigcc w))) ∧
      (16 ≤ q0.callStack.length → ∃ t, exec (.call c w) s = .next t ∧ s.Skipped t c (Word128.withOp w 6 0x04) 0x19 ∧
        (t.core c).seq.cc = ccAfter (s.core c).seq.cc (Word128.sigcc w) true)) ∧
    (decodeCause (Word128.withOp w 6 0x05) = 0 →
      (∀ a r, q0.callStack = a :: r → exec (.ret c w) s = .next (s.seqStep c (fun q => { q with callStack := r, pc := a })
        (Word128.sigcc w))) ∧
      (q0.callStack = [] → ∃ t, exec (.ret c w) s = .next t ∧ s.Skipped t c (Word128.withOp w 6 0x05) 0x19 ∧
        (t.core c).seq.cc = ccAfter (s.core c).seq.cc (Word128.sigcc w) true))

/-- END on a ready core (R63, R431): nothing more issues on the core, its open regions close without counting, its SIGCC is
signalled, ACTIVE falls exactly when every operation it issued has completed, and no other core changes.
ILLEGAL_INSTRUCTION (R74 to R76): a word that decoding finds illegal is skipped, counted in ILLEGAL and recorded. A SEQ
word, and a word of no engine or no unit, signals at once with ERR; any other leaves a null entry running in its unit. A
LAUNCH_AT under cause 0x07 waits for the word behind it, which decides between 0x06 and 0x07.
FETCH_BEYOND_END (R74, R75, R77): fetch past word 131,071 on a core in independent mode is recorded under cause 0x08,
and the core stops under STOP_ON_ERR and ends otherwise; what LAST_ERR names beside the cause is a free value. -/
def Obligations.ProgramEnds : Prop :=
  (∀ (c : CoreId) (w : IWord) (s : State), s.Ready c → decodeCause (Word128.withOp w 6 0x01) = 0 →
    (∀ d, d < 8 → d ≠ c.val → (s.core d).id.active = true → (s.core d).seq.ended = false) →
    ∃ t, exec (.endProgram c w) s = .next t ∧ (t.core c).seq.ended = true ∧ (t.core c).seq.regions = [] ∧
      (t.core c).region.abandoned = satAdd (s.core c).region.abandoned (s.core c).seq.regions.length ∧
      (t.core c).region.table = (s.core c).region.table ∧
      (t.core c).id.active = ((s.core c).id.active && !(s.core c).allIdle) ∧
      (t.core c).seq.cc = ccAfter (s.core c).seq.cc (Word128.sigcc w) false ∧
      (t.core c).seq.gr = (s.core c).seq.gr ∧ (t.core c).seq.ar = (s.core c).seq.ar ∧ (t.core c).err = (s.core c).err ∧
      (∀ d, d ≠ c.val → t.core d = s.core d) ∧ t.fab = s.fab ∧ t.eth = s.eth ∧ t.pwr = s.pwr ∧ t.rst = s.rst ∧ t.fl = s.fl ∧
      t.sec = s.sec ∧ t.pins = s.pins ∧ t.goose = s.goose ∧ t.pending = s.pending ∧ ∀ a, t.ms.byte a = s.ms.byte a) ∧
  ((∀ (c : CoreId) (w : IWord) (s : State), s.Ready c → decodeCause w ≠ 0 →
    let sg : BitVec 8 := if isLaunch w then 0xFF else Word128.sigcc w
    (decodeCause w = 7 → isLaunch w = true → exec (.illegalInstruction c w) s = .next (s.modCore c (fun k => k.modSeq (fun q =>
      { q with pc := q.pc + 1, launchHeld := some ⟨q.pc.setWidth 17, w, 7⟩ })))) ∧
    (decodeCause w ≠ 7 ∨ isLaunch w = false → ∃ t, exec (.illegalInstruction c w) s = .next t ∧ s.Skipped t c w (decodeCause w) ∧ decodeCause w < 0x10 ∧
      ((Word128.engine w = 6 ∨ decodeCause w = 1 ∨ (decodeCause w = 3 ∧ unitOk w = false)) →
        (t.core c).seq.cc = ccAfter (s.core c).seq.cc sg true) ∧
      (¬ (Word128.engine w = 6 ∨ decodeCause w = 1 ∨ (decodeCause w = 3 ∧ unitOk w = false)) →
        (t.core c).seq.cc = (s.core c).seq.cc ∧ ((t.core c).eng (unitOf w)).queue = [] ∧
        ∃ r, ((t.core c).eng (unitOf w)).running = ((s.core c).eng (unitOf w)).running ++ [r] ∧ r.q.op = none ∧
          r.q.sigcc = Word128.sigcc w ∧ r.q.id = (s.core c).seq.nextId))) ∧
  (∀ (c : CoreId) (s : State), s.noProgram c = false → s.Quiet → s.Steady → (s.core c).id.bcast = false →
    (s.core c).seq.stopped = false → (s.core c).seq.ended = false → (s.core c).seq.fetchEnded = false →
    (s.core c).seq.launchHeld = none → 131072 ≤ (s.core c).seq.pc.toNat →
    ∃ t, exec (.fetchBeyondEnd c) s = .next t ∧ (t.core c).err.leCause = 8 ∧ (t.core c).err.leValid = true ∧
      (t.core c).err.illegal = satInc (s.core c).err.illegal ∧ (t.core c).err.inconsistent = (s.core c).err.inconsistent ∧
      (t.core c).seq.stopped = (s.core c).err.stopOnErr ∧ (t.core c).seq.ended = !(s.core c).err.stopOnErr ∧
      (t.core c).seq.gr = (s.core c).seq.gr ∧ (t.core c).seq.ar = (s.core c).seq.ar ∧ (t.core c).seq.cc = (s.core c).seq.cc ∧
      s.otherCores t c ∧ t.fab = s.fab ∧ t.eth = s.eth ∧ t.rst = s.rst ∧ ∀ a, t.ms.byte a = s.ms.byte a))

/-- WAITCC, WAITQ and DRAIN on a ready core (R56, R63, R72): a wait whose condition holds ends at once, sets the flags its
rule gives and signals; any other stalls the sequencer and changes nothing else.
WAIT_TIMEOUT (R56, R72): the timed wait of a core ends. Without its condition F_TMO is set, F_ERR is the ERR of the counter
(0 for a queue) and WAIT_TIMEOUT counts; a wait whose condition holds ends as reached; SIGCC is signalled either way.
Without a timed wait nothing changes. That a timed-out WAITCC or WAITQ signals SIGCC without ERR is the model's choice (log 18). -/
def Obligations.Waits : Prop :=
  (∀ (c : CoreId) (w : IWord) (s : State), s.Ready c →
    let k := s.core c
    let v : BitVec 32 := k.seq.cc.getD (fldN w 0 6) 0
    let reached : Prop := ((fldN v 0 31 : Int) - fldN w 6 31) % 2 ^ 31 < 2 ^ 30
    let held (x : SeqWait) : State :=
      s.modCore c (fun k => k.modSeq (fun q => { q with pc := q.pc + 1, stall := .none, wait := x }))
    (decodeCause (Word128.withOp w 6 0x08) = 0 →
      (reached → exec (.waitcc c w) s = .next (s.seqStep c (fun q => { q with fErr := v.msb, fTmo := false }) (Word128.sigcc w))) ∧
      (¬ reached → exec (.waitcc c w) s = .next (held (.cc (fld w 0 6) (fld w 6 31) (fld w 37 16 != 0) (Word128.sigcc w))))) ∧
    (decodeCause (Word128.withOp w 6 0x09) = 0 →
      ((k.queue (fldN w 0 4)).head.isSome = true → exec (.waitq c w) s = .next
        (s.seqStep c (fun q => { q with fErr := false, fTmo := false }) (Word128.sigcc w))) ∧
      ((k.queue (fldN w 0 4)).head = none → exec (.waitq c w) s = .next
        (held (.queue (fld w 0 4) (fld w 4 16 != 0) (Word128.sigcc w))))) ∧
    (decodeCause (Word128.withOp w 6 0x0B) = 0 →
      ((∀ n, n < 8 → (fld w 0 8).getLsbD n = true → k.engIdle n = true) → exec (.drain c w) s = .next
        (s.seqStep c (fun q => q) (Word128.sigcc w))) ∧
      ((∃ n, n < 8 ∧ (fld w 0 8).getLsbD n = true ∧ k.engIdle n = false) → exec (.drain c w) s = .next
        (held (.drain (fld w 0 8) (Word128.sigcc w)))))) ∧
  (∀ (c : CoreId) (s : State), s.Steady → s.stopped = false → (∀ d, d < 8 → d ≠ c.val → (s.core d).quiet = true) →
    (s.core c).seq.buf = [] → (s.core c).seq.ended = false → (∀ u ∈ engUnits, ((s.core c).eng u).queue = []) →
    let ends (err : Bool) (sg : BitVec 8) (late : Bool) : State :=
      (s.modCore c (fun k => (k.modErr (fun r => { r with waitTimeout := if late then satInc r.waitTimeout else r.waitTimeout })).modSeq
        (fun q => { q with wait := .none, fErr := err, fTmo := late }))).signal c sg false
    (∀ i x sg, (s.core c).seq.wait = .cc i x true sg →
      let v := (s.core c).seq.cc.getD i.toNat 0
      let reached : Prop := ((fldN v 0 31 : Int) - x.toNat) % 2 ^ 31 < 2 ^ 30
      (¬ reached → exec (.waitTimeout c) s = .next (ends v.msb sg true)) ∧
      (reached → exec (.waitTimeout c) s = .next (ends v.msb sg false))) ∧
    (∀ q sg, (s.core c).seq.wait = .queue q true sg →
      (((s.core c).queue q.toNat).head = none → exec (.waitTimeout c) s = .next (ends false sg true)) ∧
      (((s.core c).queue q.toNat).head.isSome = true → exec (.waitTimeout c) s = .next (ends false sg false))) ∧
    ((s.core c).seq.wait = .none → exec (.waitTimeout c) s = .next s))

/-- SLD, SST and ATOM on a ready core, at an address that passes its checks and meets no scoreboard conflict (R62, R242,
R244, R280): the value an SLD puts into GR, with FRESH from the home; the bytes an SST stores in core SRAM, in the core cache for HBM, and with
THRU at their home too; the old value and the new bytes of an ATOM at their home, of which the cache keeps no copy; no byte of
memory changes but those stored and those of a dirty line of the core's cache, which a fill, a FRESH load or an ATOM may write
back. -/
def Obligations.ScalarAccesses : Prop :=
  ∀ (c : CoreId) (w : IWord) (s : State), s.Ready c →
    (decodeCause (Word128.withOp w 6 0x20) = 0 →
      let r := s.scalarOperand c (Word128.withOp w 6 0x20)
      let a := r.1
      let n := r.2.1
      r.2.2 = 0 → (s.core c).seq.sbStalls [.rd a n] = false → (isHbm a = true → s.ms.soft = []) →
      ∃ t, exec (.sld c w) s = .next t ∧ s.otherCoresButCache t c ∧ s.sameRest t ∧ (t.core c).seq.pc = (s.core c).seq.pc + 1 ∧
        (t.core c).seq.ar = (s.core c).seq.ar ∧ (t.core c).seq.fErr = (s.core c).seq.fErr ∧
        (t.core c).num = (s.core c).num ∧
        (∀ i, i < 16 → i ≠ fldN w 24 4 → (t.core c).seq.gr.getD i 0 = (s.core c).seq.gr.getD i 0) ∧
        (∀ x, (∀ l ∈ (s.core c).cache.lines, l.dirty = true → l.line ≠ x / 64) → t.ms.byte x = s.ms.byte x) ∧
        (isHbm a = false → (t.core c).seq.gr.getD (fldN w 24 4) 0 = BitVec.ofNat 64 (leNat (s.view a n)) ∧
          (t.core c).seq.cc = ccAfter (s.core c).seq.cc (Word128.sigcc w) false) ∧
        (isHbm a = true → ∀ l, (s.core c).cache.find (a / 64) = some l → bitB w 30 = false →
          (t.core c).seq.gr.getD (fldN w 24 4) 0 = BitVec.ofNat 64 (leNat (lineBytes l.data (a % 64) n)) ∧
          (t.core c).seq.cc = ccAfter (s.core c).seq.cc (Word128.sigcc w) false) ∧
        (isHbm a = true → (s.core c).cache.find (a / 64) = none → s.ms.badLine (a / 64) = false →
          (t.core c).seq.gr.getD (fldN w 24 4) 0 = BitVec.ofNat 64 (leNat (s.ms.bytes a n)) ∧
          (t.core c).seq.cc = ccAfter (s.core c).seq.cc (Word128.sigcc w) false) ∧
        (isHbm a = true → (s.core c).cache.find (a / 64) = none → s.ms.badLine (a / 64) = true →
          (t.core c).seq.gr.getD (fldN w 24 4) 0 = 0 ∧
          (t.core c).seq.cc = ccAfter (s.core c).seq.cc (Word128.sigcc w) true ∧ (t.core c).cache.find (a / 64) = none) ∧
        (isHbm a = true → bitB w 30 = true → s.ms.mem.wf 0 = true → s.ms.badLine (a / 64) = false →
          ∀ l, (s.core c).cache.find (a / 64) = some l →
          (t.core c).seq.gr.getD (fldN w 24 4) 0 =
            BitVec.ofNat 64 (leNat (if l.dirty then lineBytes l.data (a % 64) n else s.ms.bytes a n)) ∧
          (t.core c).seq.cc = ccAfter (s.core c).seq.cc (Word128.sigcc w) false ∧
          (∃ y, (t.core c).cache.find (a / 64) = some y ∧ y.dirty = false ∧ y.data = t.ms.line (a / 64)) ∧
          (l.dirty = true → t.ms.bytes (64 * (a / 64)) 64 = leBytes 64 l.data.toNat))) ∧
    (decodeCause (Word128.withOp w 6 0x21) = 0 →
      let r := s.scalarOperand c (Word128.withOp w 6 0x21)
      let a := r.1
      let n := r.2.1
      let bs := leBytes n ((s.core c).seq.gr.getD (fldN w 24 4) 0).toNat
      r.2.2 = 0 → (s.core c).seq.sbStalls [.wr a n] = false → (isHbm a = true → s.ms.soft = []) →
      ∃ t, exec (.sst c w) s = .next t ∧ (t.core c).seq.pc = (s.core c).seq.pc + 1 ∧ (t.core c).seq.gr = (s.core c).seq.gr ∧
        (t.core c).seq.ar = (s.core c).seq.ar ∧ (t.core c).seq.fErr = (s.core c).seq.fErr ∧
        (isHbm a = false → s.ms.mem.wf 0 = true → s.otherCores t c ∧ s.sameRest t ∧
          (t.core c).seq.cc = ccAfter (s.core c).seq.cc (Word128.sigcc w) false ∧
          ∀ x, t.ms.byte x = if a ≤ x ∧ x < a + n then bs.getD (x - a) 0 else s.ms.byte x) ∧
        (isHbm a = true → bitB w 30 = false → ((s.core c).cache.find (a / 64)).isSome = true ∨ s.ms.badLine (a / 64) = false →
          (∀ x, (∀ l ∈ (s.core c).cache.lines, l.dirty = true → l.line ≠ x / 64) → t.ms.byte x = s.ms.byte x) ∧
          ∃ l, (t.core c).cache.find (a / 64) = some l ∧ l.dirty = true ∧ lineBytes l.data (a % 64) n = bs) ∧
        (isHbm a = true → bitB w 30 = true → s.ms.mem.wf 0 = true → s.ms.badLine (a / 64) = false →
          t.ms.bytes a n = bs ∧
          (∀ x, ¬ (a ≤ x ∧ x < a + n) → (∀ l ∈ (s.core c).cache.lines, l.dirty = true → l.line ≠ x / 64) → t.ms.byte x = s.ms.byte x) ∧
          ∃ l, (t.core c).cache.find (a / 64) = some l ∧ lineBytes l.data (a % 64) n = bs ∧
            ((s.core c).cache.find (a / 64) = none → l.dirty = false) ∧
            ∀ y, (s.core c).cache.find (a / 64) = some y → l.dirty = y.dirty)) ∧
    (decodeCause (Word128.withOp w 6 0x22) = 0 →
      let r := s.scalarOperand c (Word128.withOp w 6 0x22)
      let a := r.1
      let n := r.2.1
      let cached := isHbm a && ((s.core c).cache.find (a / 64)).any (fun l => l.dirty)
      let old := match (s.core c).cache.find (a / 64) with
        | some l => if cached then leNat (lineBytes l.data (a % 64) n) else s.ms.le a n
        | none => s.ms.le a n
      let int (x : Nat) : Int := (BitVec.ofNat (8 * n) x).toInt
      let ga := ((s.core c).seq.gr.getD (fldN w 24 4) 0).toNat
      let gb := ((s.core c).seq.gr.getD (fldN w 28 4) 0).toNat
      r.2.2 = 0 → (s.core c).seq.sbStalls [.wr a n] = false → s.ms.mem.wf 0 = true →
      (isHbm a = true → s.ms.soft = [] ∧ s.ms.badLine (a / 64) = false) →
      ∃ t, exec (.atom c w) s = .next t ∧ s.otherCoresButCache t c ∧ s.sameRest t ∧ (t.core c).seq.pc = (s.core c).seq.pc + 1 ∧
        (t.core c).seq.ar = (s.core c).seq.ar ∧ (t.core c).seq.fErr = (s.core c).seq.fErr ∧
        (t.core c).seq.gr.getD (fldN w 24 4) 0 = BitVec.ofNat 64 old ∧
        (∀ i, i < 16 → i ≠ fldN w 24 4 → (t.core c).seq.gr.getD i 0 = (s.core c).seq.gr.getD i 0) ∧
        (t.core c).seq.cc = ccAfter (s.core c).seq.cc (Word128.sigcc w) false ∧
        (isHbm a = true → (t.core c).cache.find (a / 64) = none) ∧
        (∀ x, ¬ (a ≤ x ∧ x < a + n) → (cached = true → x / 64 ≠ a / 64) → t.ms.byte x = s.ms.byte x) ∧
        (fldN w 32 2 = 0 → t.ms.le a n = (old + ga) % 2 ^ (8 * n)) ∧
        (fldN w 32 2 = 1 → t.ms.le a n = if old = ga % 2 ^ (8 * n) then gb % 2 ^ (8 * n) else old) ∧
        (fldN w 32 2 = 2 → bitB w 35 = false → t.ms.le a n = max old (ga % 2 ^ (8 * n))) ∧
        (fldN w 32 2 = 3 → bitB w 35 = false → t.ms.le a n = min old (ga % 2 ^ (8 * n))) ∧
        (fldN w 32 2 = 2 → bitB w 35 = true → t.ms.le a n = if int old < int ga then ga % 2 ^ (8 * n) else old) ∧
        (fldN w 32 2 = 3 → bitB w 35 = true → t.ms.le a n = if int ga < int old then ga % 2 ^ (8 * n) else old))

/-- LAUNCH_AT on a ready core (R64): the word is held for the engine instruction that follows it; nothing else changes but
the pc.
LAUNCH_TIME_REACHED for an elementwise VEC operation alone in its queue (R64, R65): fabric time is at least the launch
time, the operation leaves the queue and runs; it is late, and counted, only when fabric time had passed the launch time by
more than 8 ns. That the row brings fabric time up to the launch time is the model's choice (log 154).
CFLUSH, CINV and CFLINV on a ready core whose range passes its checks (R62, R58): the operation enters the core-cache
controller with a write range in the scoreboard, and the sequencer goes on at once. -/
def Obligations.LaunchAndRanges : Prop :=
  ((∀ (c : CoreId) (w : IWord) (s : State), s.Ready c → decodeCause (Word128.withOp w 6 0x28) = 0 →
    exec (.launchAt c w) s = .next (s.modCore c (fun k => k.modSeq (fun q =>
      { q with pc := q.pc + 1, launchHeld := some ⟨q.pc.setWidth 17, Word128.withOp w 6 0x28, 0⟩ })))) ∧
  (∀ (c : CoreId) (s : State) (q : QEntry) (l : BitVec 64) (o : BitVec 8) (a b d n : Nat) (f : BitVec 4) (sr : Bool),
    s.Steady → s.stopped = false → (∀ x, x < 8 → x ≠ c.val → (s.core x).quiet = true) → (s.core c).seq.buf = [] → (s.core c).seq.wait = .none →
    (∀ u ∈ engUnits, u ≠ .vec → ((s.core c).eng u).queue = []) →
    (s.core c).vec.queue = [q] → q.launch = some l → q.op = some (.vec o a b d n f sr) →
    ∃ t, exec (.launchTimeReached c .vec) s = .next t ∧ t.time.ft = (if s.time.ft < l then l else s.time.ft) ∧
      (t.core c).vec.queue = [] ∧
      (∃ r, (t.core c).vec.running = (s.core c).vec.running ++ [r] ∧ r.q = q ∧ r.startFt = t.time.ft) ∧
      (t.core c).err.lateCount = (if l.toNat + 8 < s.time.ft.toNat then satInc (s.core c).err.lateCount else (s.core c).err.lateCount) ∧
      (t.core c).seq = (s.core c).seq ∧ s.otherCores t c ∧ t.ms = s.ms ∧ t.fab = s.fab ∧ t.eth = s.eth ∧ t.pwr = s.pwr)) ∧
  (∀ (c : CoreId) (w : IWord) (s : State), s.Ready c →
    ∀ row ∈ [((.cflush : CoreId → IWord → Instr), 0x24, true, false), (.cinv, 0x25, false, true), (.cflinv, 0x26, true, true)],
    let v := Word128.withOp w 6 row.2.1
    let a := (s.operand c v 0).nat
    let n := 64 * fldN w 24 32
    decodeCause v = 0 → (s.issueRange c v).cause = 0 → (s.core c).seq.sbStalls [.wr a n] = false →
    (s.core c).seq.sb.length < 64 →
    exec (row.1 c w) s = .next (s.modCore c (fun k =>
      { k.modSeq (fun q => { q with pc := q.pc + 1, stall := .none, nextId := q.nextId + 1, sb := q.sb ++ [Range.entry (.wr a n) q.nextId] })
        with cacheq := { k.cacheq with running := k.cacheq.running ++
          [{ q := entryOf k (k.seq.pc.setWidth 17) v false none (some (.cacheRange row.2.2.1 row.2.2.2 a n)), inRows := false }] } })))

/-- REGION_BEGIN and REGION_END on a ready core (R66, R429, R430): a region opens with fabric time; the innermost one closes
with its count, its last and total time, and under a plan its slip and the largest slip seen (from the first one on: log 27); a
wrong nesting is skipped under cause 0x1B.
BROADCAST_DELIVERY and RING_CREDIT_RETURN (R25): the oldest word on the ring enters the buffer of a member that waits, when
it has a free place of 64, and stays otherwise; a credit that a member gives back is one more that its Bellwether holds for
that rank.
NULL_ENTRY_SIGNAL (R76): a null entry with no earlier operation of its unit running leaves the unit and signals its
counter with ERR; nothing else changes. -/
def Obligations.RegionsRingsNulls : Prop :=
  (∀ (c : CoreId) (w : IWord) (s : State), s.Ready c →
    let rs := (s.core c).seq.regions
    let r : BitVec 12 := fld w 0 12
    (decodeCause (Word128.withOp w 6 0x2C) = 0 →
      (rs.length < 16 → (∀ x ∈ rs, x.1 ≠ r) →
        exec (.regionBegin c w) s = .next (s.seqStep c (fun q => { q with regions := (r, s.time.ft) :: q.regions }) (Word128.sigcc w))) ∧
      ((16 ≤ rs.length ∨ ∃ x ∈ rs, x.1 = r) → ∃ t, exec (.regionBegin c w) s = .next t ∧
        s.Skipped t c (Word128.withOp w 6 0x2C) 0x1B ∧ (t.core c).seq.cc = ccAfter (s.core c).seq.cc (Word128.sigcc w) true)) ∧
    (decodeCause (Word128.withOp w 6 0x2D) = 0 →
      ((∀ t0 rest, rs ≠ (r, t0) :: rest) → ∃ t, exec (.regionEnd c w) s = .next t ∧
        s.Skipped t c (Word128.withOp w 6 0x2D) 0x1B ∧ (t.core c).seq.cc = ccAfter (s.core c).seq.cc (Word128.sigcc w) true) ∧
      (∀ t0 rest, rs = (r, t0) :: rest →
        let e := tabGet (s.core c).region.table r.toNat {}
        let last := min (s.time.ft - t0).toNat (2 ^ 40 - 1)
        let plan := fldN w 12 40
        let slip : Int := (last : Int) - plan
        ∃ t e', exec (.regionEnd c w) s = .next t ∧ (t.core c).seq.regions = rest ∧
          (t.core c).region.table = tabSet (s.core c).region.table r.toNat e' ∧
          e'.count = satInc e.count ∧ e'.last.toNat = last ∧ e'.total = satAdd e.total last ∧
          (plan = 0 → e'.planned = false ∧ e'.late = e.late ∧ e'.lastSlip = e.lastSlip ∧ e'.maxSlip = e.maxSlip ∧ t.goose = s.goose) ∧
          (plan ≠ 0 → e'.planned = true ∧ e'.lastSlip = satInt 32 slip ∧
            e'.maxSlip = satInt 32 (if e.slipSeen then max e.maxSlip.toInt slip else slip) ∧
            e'.late = (if ((s.core c).region.lateNs.toNat : Int) < slip then satInc e.late else e.late)) ∧
          (t.core c).seq.pc = (s.core c).seq.pc + 1 ∧ (t.core c).seq.gr = (s.core c).seq.gr ∧
          (t.core c).seq.cc = ccAfter (s.core c).seq.cc (Word128.sigcc w) false ∧ s.otherCores t c ∧ t.ms = s.ms ∧ s.sameRest t))) ∧
  ((∀ (c : CoreId) (s : State), s.Steady → s.stopped = false →
    ((∀ d, d < 8 → d ≠ c.val → (s.core d).quiet = true) → (∀ u ∈ engUnits, ((s.core c).eng u).queue = []) →
      (s.core c).seq.wait ≠ .none → (s.core c).waitOver = none → ∀ d rest, (s.core c).ringIn = d :: rest →
      ((s.core c).seq.buf.length < 64 → exec (.broadcastDelivery c) s = .next (s.modCore c (fun k =>
        { k.modSeq (fun q => { q with buf := q.buf ++ [d] }) with ringIn := rest }))) ∧
      (64 ≤ (s.core c).seq.buf.length → exec (.broadcastDelivery c) s = .next s)) ∧
    (∀ b, b < 8 → (s.groupOf c).find? (fun d => (s.core d).isBellwether) = some b → 0 < (s.core c).creditsBack →
      exec (.ringCreditReturn c) s = .next ((s.modCore c (fun k => { k with creditsBack := k.creditsBack - 1, ringHeld := false })).modCore b
        (fun k => k.modSeq (fun q => { q with credits := vmod q.credits (s.core c).id.rank.toNat (fun n => n + 1) })))) ∧
    ((s.core c).creditsBack = 0 → exec (.ringCreditReturn c) s = .next s)) ∧
  (∀ (c : CoreId) (u : EngUnit) (s : State) (r : REntry) (rest : List REntry), s.Quiet → s.Steady → s.stopped = false →
    ((s.core c).eng u).queue = [] → ((s.core c).eng u).running = r :: rest → r.q.op = none →
    (∀ x ∈ rest, r.q.id < x.q.id) →
    (∀ d, d < 8 → (s.core d).id.active = true → (s.core d).seq.ended = false) → (∀ e ∈ (s.core c).seq.sb, e.owner ≠ r.q.id) →
    exec (.nullEntrySignal c u) s = .next (s.modCore c (fun k => (k.modEng u (fun e => { e with running := rest })).modSeq
      (fun q => { q with cc := ccAfter q.cc r.q.sigcc true })))))

/-- The rows of OX, VEC, ROW, ATT and MULE on a ready core (R19, R20, R58, R67 to R71): a legal word that passes its issue checks,
with room in its unit's queue and in the scoreboard and no conflict, enters the queue with the operation its fields name, claims
its ranges, and the pc moves past it; nothing else changes but the record of an LDW (R97) and stopped clocks (R380).
An engine word that fails an issue check (R75, R76): skipped and recorded under the lowest cause, with a null entry that
runs in its unit until it signals with ERR. -/
def Obligations.EngineWords : Prop :=
  (∀ row ∈ engineRows, ∀ (c : CoreId) (w : IWord) (s : State), s.Ready c →
    let v := Word128.withOp w row.2.1 row.2.2
    let r := (s.offered c (s.decodedAt c v)).resolve c v
    let u := unitOf v
    let q := entryOf (s.core c) ((s.core c).seq.pc.setWidth 17) v false none (some r.op)
    decodeCause v = 0 → r.cause = 0 → (s.core c).seq.sbStalls (liveRanges r.claims) = false →
    (s.core c).seq.sb.length + (liveRanges r.claims).length ≤ 64 →
    exec (row.1 c w) s = .next ((s.modCore c (fun k => (k.modEng u (fun e => { e with queue := [q] })).modSeq (fun x =>
      { x with pc := x.pc + 1, stall := .none, nextId := x.nextId + 1, sb := x.sb ++ (liveRanges r.claims).map (fun g => g.entry x.nextId),
               ldwRec := (match r.op with
                 | .ldw _ _ plane fmt k n => vmod x.ldwRec (b2n plane) (fun _ => some (k, n, fmt))
                 | _ => x.ldwRec) }))).wakeClocks c u q)) ∧
  (∀ row ∈ engineRows, ∀ (c : CoreId) (w : IWord) (s : State), s.Ready c →
    let v := Word128.withOp w row.2.1 row.2.2
    let r := (s.offered c (s.decodedAt c v)).resolve c v
    decodeCause v = 0 → r.cause ≠ 0 →
    ∃ t, exec (row.1 c w) s = .next t ∧ s.Skipped t c v r.cause ∧ (t.core c).seq.cc = (s.core c).seq.cc ∧
      (t.core c).seq.sb = (s.core c).seq.sb ∧ ((t.core c).eng (unitOf v)).queue = [] ∧
      ∃ x, ((t.core c).eng (unitOf v)).running = ((s.core c).eng (unitOf v)).running ++ [x] ∧ x.q.op = none ∧
        x.q.sigcc = Word128.sigcc w)

/-- LDW_START, STREAM_START and WGRAD_START (R84 to R86): an LDW starts while no LDW or WGRAD runs and its plane is LOADING
with the tile's shape; an MM starts on a READY plane of a format that pairs, and a DUAL whose descriptor passes its checks, while no WGRAD runs, so also
beside earlier streams and beside a load of the other plane under way; on a LOADING plane they wait, on an EMPTY one they are
skipped under cause 0x13. A WGRAD starts once no earlier operation of the array runs. What the planes show of a load or a
WGRAD under way is the model's choice (log 99), as is a stream's plane as captured at its start (log 19).
VEC_OP_START, ROW_OP_START and ATT_OP_START (R145, R152, R167): the operation at the head starts when its engine's order
lets it and its checks at start pass; VEC starts beside running operations, ROW only when none runs, an ATT FWD or BWD
beside any but an APPEND on its slot, another ATT operation only when none runs. -/
def Obligations.EngineStarts : Prop :=
  (∀ (c : CoreId) (s : State) (q : QEntry), s.HeadAlone c .ox q →
    (∀ src sc plane fmt k n, q.op = some (.ldw src sc plane fmt k n) →
      (∀ r ∈ (s.core c).ox.running, r.opIs EngOp.isLdw = false ∧ r.opIs EngOp.isWgrad = false) →
      ∃ t, exec (.ldwStart c) s = .next t ∧ s.Started t c .ox q ∧ t.ms = s.ms ∧
        (t.core c).plane plane = { state := .loading, fmt := fmt, k := k, n := n } ∧
        (t.core c).plane (!plane) = (s.core c).plane (!plane)) ∧
    (∀ i o rows plane dir fi fo acc sr kb, q.op = some (.mm i o rows plane dir fi fo acc sr kb) →
      (∀ r ∈ (s.core c).ox.running, r.opIs EngOp.isWgrad = false) → ((s.core c).plane plane).state = .ready →
      (rows = 0 ∨ oxPairs fi ((s.core c).plane plane).fmt = true) →
      ∃ t, exec (.streamStart c) s = .next t ∧ s.Started t c .ox q ∧ t.ms = s.ms ∧ (t.core c).planes = (s.core c).planes ∧
        ∃ r, (t.core c).ox.running.getLast? = some r ∧ r.plane = (s.core c).plane plane) ∧
    (∀ d plane shape, q.op = some (.dual d plane shape) → (∀ r ∈ (s.core c).ox.running, r.opIs EngOp.isWgrad = false) →
      ((s.core c).plane plane).state = .ready → s.checkDual c d ((s.core c).plane plane) (dualShape shape) = 0 →
      ∃ t, exec (.streamStart c) s = .next t ∧ s.Started t c .ox q ∧ s.sameMemory t d ∧ (t.core c).planes = (s.core c).planes ∧
        ∃ r, (t.core c).ox.running.getLast? = some r ∧ r.plane = (s.core c).plane plane ∧ r.desc = s.ms.bytes d 64) ∧
    (∀ plane, (q.op.map (fun o => match o with
          | .mm _ _ _ p _ _ _ _ _ _ => p == plane
          | .dual _ p _ => p == plane
          | _ => false)) = some true →
      ((∃ r ∈ (s.core c).ox.running, r.opIs EngOp.isWgrad = true) ∨ ((s.core c).plane plane).state = .loading →
        exec (.streamStart c) s = .next (s.modCore c (fun k =>
          k.modSeq (fun x => if x.stopped || x.ended then x else { x with stall := .none })))) ∧
      ((∀ r ∈ (s.core c).ox.running, r.opIs EngOp.isWgrad = false) → ((s.core c).plane plane).state = .empty →
        ∃ t, exec (.streamStart c) s = .next t ∧ (t.core c).ox.queue = [] ∧ (t.core c).err.leCause = 0x13 ∧
          (t.core c).err.leExec = true ∧ (t.core c).seq.cc = ccAfter (s.core c).seq.cc q.sigcc true ∧
          (t.core c).planes = (s.core c).planes ∧ s.otherCores t c)) ∧
    (∀ d, q.op = some (.wgrad d) → (s.core c).ox.ops = [] → s.checkWgrad c d = 0 →
      ∃ t, exec (.wgradStart c) s = .next t ∧ s.Started t c .ox q ∧ s.sameMemory t d ∧ (t.core c).planes = (s.core c).planes)) ∧
  (∀ (c : CoreId) (s : State) (q : QEntry),
    (∀ o a b d n f sr, s.HeadAlone c .vec q → q.op = some (.vec o a b d n f sr) →
      ∃ t, exec (.vecOpStart c) s = .next t ∧ s.Started t c .vec q ∧ t.ms = s.ms) ∧
    (∀ bwd desc layer mb kind, s.HeadAlone c .row q → q.op = some (.row bwd desc layer mb kind) → (s.core c).row.ops = [] →
      s.checkRow c bwd desc layer mb kind = 0 →
      ∃ t, exec (.rowOpStart c) s = .next t ∧ s.Started t c .row q ∧ s.sameMemory t desc ∧ (t.core c).rowr = (s.core c).rowr) ∧
    (∀ bwd desc layer mb kind, s.HeadAlone c .row q → q.op = some (.row bwd desc layer mb kind) → (s.core c).row.ops ≠ [] →
      exec (.rowOpStart c) s = .next (s.modCore c (fun k => k.modSeq (fun x => if x.stopped || x.ended then x else { x with stall := .none })))) ∧
    (∀ o desc slot, s.HeadAlone c .att q → q.op = some (.att o desc slot) →
      (s.core c).att.ops = [] ∨ ((o = 1 ∨ o = 2) ∧ ∀ r ∈ (s.core c).att.ops, r.opIs (EngOp.appendsTo slot) = false) →
      s.checkAtt c o desc slot = 0 →
      ∃ t, exec (.attOpStart c) s = .next t ∧ s.Started t c .att q ∧ s.sameMemory t desc ∧ (t.core c).attr = (s.core c).attr) ∧
    (∀ o desc slot, s.HeadAlone c .att q → q.op = some (.att o desc slot) →
      (if o = 1 ∨ o = 2 then ∃ r ∈ (s.core c).att.ops, r.opIs (EngOp.appendsTo slot) = true else (s.core c).att.ops ≠ []) →
      exec (.attOpStart c) s = .next (s.modCore c (fun k =>
        k.modSeq (fun x => if x.stopped || x.ended then x else { x with stall := .none })))))

/-- MULE_COPY_START of a COPY1 inside one core's SRAM (R70, R232): the copy leaves the queue once no earlier copy of its engine
still issues, the destination holds the source's bytes, and no other byte changes. That the bytes stand at the destination when
the copy starts is the model's choice (log 20).
MULE_COPY_START of a COPYD between places of one core's SRAM (R71, R232, R233): each row of the source stands at its row of
the destination, at the start of the copy, which is the model's choice (log 20); no other byte changes. -/
def Obligations.MuleCopies : Prop :=
  (∀ (c : CoreId) (m : Fin 4) (s : State) (q : QEntry) (src dst n : Nat) (sh dh : BitVec 2),
    s.HeadAlone c (muleUnit m) q → q.op = some (.copy1 src dst n sh dh) → s.ms.mem.wf 0 = true →
    (∀ r ∈ ((s.core c).eng (muleUnit m)).running, r.inRows = false ∧ r.q.id ≠ q.id) →
    inSram c src n = true → inSram c dst n = true → overlaps src n dst n = false → 0 < n →
    ∃ t, exec (.muleCopyStart c m) s = .next t ∧ s.Started t c (muleUnit m) q ∧
      (∀ i, i < n → t.ms.byte (dst + i) = s.ms.byte (src + i)) ∧
      ∀ x, ¬ (dst ≤ x ∧ x < dst + n) → t.ms.byte x = s.ms.byte x) ∧
  (∀ (c : CoreId) (m : Fin 4) (s : State) (q : QEntry) (desc : Nat),
    s.HeadAlone c (muleUnit m) q → q.op = some (.copyd desc) → s.ms.mem.wf 0 = true →
    (∀ r ∈ ((s.core c).eng (muleUnit m)).running, r.inRows = false ∧ r.q.id ≠ q.id) →
    let d := CopyDesc.of (s.ms.bytes desc 64)
    inSram c desc 64 = true → d.eth = false → s.isOwnDev d.srcDev = true → s.isOwnDev d.dstDev = true → s.checkCopyd c desc = 0 →
    (∀ k, k < d.rows → inSram c (d.srcRow k).toNat d.rowLen = true ∧ inSram c (d.dstRow k).toNat d.rowLen = true) →
    (∀ j k, j < k → k < d.rows → overlaps (d.dstRow j).toNat d.rowLen (d.dstRow k).toNat d.rowLen = false) →
    ∃ t, exec (.muleCopyStart c m) s = .next t ∧ s.Started t c (muleUnit m) q ∧
      s.storesOnly t ((List.range d.rows).map (fun k => ((d.dstRow k).toNat, d.rowLen))) ∧
      ∀ k x, k < d.rows → x < d.rowLen → t.ms.byte ((d.dstRow k).toNat + x) = s.ms.byte ((d.srcRow k).toNat + x))

/-- OPERATION_COMPLETE (R54, R58): the operation that is next to complete in a unit leaves it, releases its scoreboard entries
and signals its counter; for a STAT_FREE, a SLOT_CLR and a core-cache range without ERR. A STAT_FREE removes the entries it
names or counts FREE_MISS (R157), a SLOT_CLR makes the slot invalid (R165), an LDW makes its plane READY with the tile in
memory, or EMPTY after an uncorrectable read (R85, R97). A copy signals at the source, and a remote signal counts at the core it
names, or as rejected at one of another job (R71, R336). That an LDW reads its tile at completion (log 19), and that the other
engines compute and write at completion (log 20), are the model's choices. -/
def Obligations.OperationsComplete : Prop :=
  ∀ (c : CoreId) (u : EngUnit) (i : Nat) (s : State) (r : REntry), s.Calm → ((s.core c).eng u).mayComplete u i = some r →
    (∀ o a b d n f sr, r.q.op = some (.vec o a b d n f sr) → u = .vec →
      (∃ t err, exec (.operationComplete c u i) s = .next t ∧ s.Finished t c u r.q err) ∧
      (isHbm a = false → isHbm b = false → isHbm d = false → ∃ t, exec (.operationComplete c u i) s = .next t ∧
        s.Finished t c u r.q ((vecRun s.ms r.q.kcg o.toNat a b d n f sr).err ||
          (s.homeWrites (some c.val) (vecRun s.ms r.q.kcg o.toNat a b d n f sr).writes 0).2))) ∧
    (∀ layer mb kind, r.q.op = some (.statFree layer mb kind) → u = .row → kind ≠ 15 →
      ∃ t, exec (.operationComplete c u i) s = .next t ∧ s.Finished t c u r.q false ∧ t.ms = s.ms ∧ s.otherCores t c ∧
        (((s.core c).rowr.dir.any (fun e => e.tagged layer mb kind)) = true →
          (t.core c).rowr.dir = (s.core c).rowr.dir.filter (fun e => !e.tagged layer mb kind) ∧
          (t.core c).rowr.freeMiss = (s.core c).rowr.freeMiss) ∧
        (((s.core c).rowr.dir.any (fun e => e.tagged layer mb kind)) = false → (t.core c).rowr.dir = (s.core c).rowr.dir ∧
          (t.core c).rowr.freeMiss = satInc (s.core c).rowr.freeMiss)) ∧
    (∀ d slot, r.q.op = some (.att 6 d slot) → u = .att → slot < 16 →
      ∃ t, exec (.operationComplete c u i) s = .next t ∧ s.Finished t c u r.q false ∧ t.ms = s.ms ∧ s.otherCores t c ∧
        ((t.core c).attr.slots.getD slot {}).valid = false ∧
        ∀ j, j ≠ slot → (t.core c).attr.slots.getD j {} = (s.core c).attr.slots.getD j {}) ∧
    (∀ wb inv a n, r.q.op = some (.cacheRange wb inv a n) → u = .cache →
      ∃ t, exec (.operationComplete c u i) s = .next t ∧ s.Finished t c u r.q false ∧
        (inv = true → ∀ l ∈ (t.core c).cache.lines, ¬ (a / 64 ≤ l.line ∧ 64 * l.line < a + n)) ∧
        (wb = true → ∀ l ∈ (t.core c).cache.lines, a / 64 ≤ l.line → 64 * l.line < a + n → l.dirty = false) ∧
        (wb = false → t.ms = s.ms)) ∧
    (∀ src sc plane fmt k n, r.q.op = some (.ldw src sc plane fmt k n) → u = .ox →
      ∃ t err, exec (.operationComplete c u i) s = .next t ∧ s.Finished t c u r.q err ∧
        (isHbm src = false → isHbm sc = false → t.ms = s.ms) ∧ (s.ms.soft = [] → ∀ x, t.ms.byte x = s.ms.byte x) ∧
        (t.core c).plane plane = ldwPlane s.ms src sc fmt k n ∧ (err = false → ((t.core c).plane plane).state = .ready) ∧
        (err = true → (t.core c).plane plane = {}) ∧
        (t.core c).plane (!plane) = (s.core c).plane (!plane)) ∧
    (∀ src dst n sh dh, r.q.op = some (.copy1 src dst n sh dh) → u.isMule = true →
      ∃ t, exec (.operationComplete c u i) s = .next t ∧ s.Finished t c u r.q r.err ∧ t.ms = s.ms ∧ s.otherCores t c) ∧
    (∀ desc, r.q.op = some (.copyd desc) → u.isMule = true →
      let d := r.copyDesc
      let x := d.rsigCore
      (s.copyDone r = false → exec (.operationComplete c u i) s = .next s) ∧
      (s.copyDone r = true → d.cls = 0 → d.rsigEn = false → ∃ t, exec (.operationComplete c u i) s = .next t ∧
        s.Finished t c u r.q r.err ∧ t.ms = s.ms ∧ s.otherCores t c) ∧
      (s.copyDone r = true → d.cls = 0 → d.rsigEn = true → s.isOwnDev d.rsigDev = true → x ≠ c →
        ∃ t, exec (.operationComplete c u i) s = .next t ∧ s.Finished t c u r.q r.err ∧ t.ms = s.ms ∧
          ((s.core x).id.jobTag = (s.core c).id.jobTag → (t.core x).seq.cc = ccAfter (s.core x).seq.cc (BitVec.ofNat 8 d.rsigCc) r.err) ∧
          ((s.core x).id.jobTag ≠ (s.core c).id.jobTag → (t.core x).seq.cc = (s.core x).seq.cc ∧
            (t.core x).err.remoteSigRej = satInc (s.core x).err.remoteSigRej)))

/-- What elementwise VEC operations write (R139), in FP32 with A, B and D in the core's SRAM and every element finite: after the
operation completes, element j of D is the correctly rounded sum, difference or product of elements j, the larger or smaller
of the two, or A's element copied, negated or without its sign; no byte outside D changes. That operands are read and the result
written at OPERATION_COMPLETE is the model's choice (log 20). -/
def Obligations.VecElementResults : Prop :=
  ∀ (c : CoreId) (i : Nat) (s : State) (r : REntry) (o : BitVec 8) (a b d n : Nat), s.Calm → s.ms.mem.wf 0 = true →
    (s.core c).vec.mayComplete .vec i = some r → r.q.op = some (.vec o a b d n 2 false) →
    inSram c a (4 * n) = true → inSram c b (4 * n) = true → inSram c d (4 * n) = true →
    (∀ j, j < n → finite32 (BitVec.ofNat 32 (s.ms.le (a + 4 * j) 4)) = true ∧ finite32 (BitVec.ofNat 32 (s.ms.le (b + 4 * j) 4)) = true) →
    o ∈ [0x01#8, 0x02#8, 0x03#8, 0x06#8, 0x07#8, 0x08#8, 0x09#8, 0x0A#8] →
    ∃ t, exec (.operationComplete c .vec i) s = .next t ∧
      (∀ x, ¬ (d ≤ x ∧ x < d + 4 * n) → t.ms.byte x = s.ms.byte x) ∧
      ∀ j, j < n →
        let x : BitVec 32 := BitVec.ofNat 32 (s.ms.le (a + 4 * j) 4)
        let y : BitVec 32 := BitVec.ofNat 32 (s.ms.le (b + 4 * j) 4)
        let z : BitVec 32 := BitVec.ofNat 32 (t.ms.le (d + 4 * j) 4)
        (o = 0x01 → z = (rne32 ((f32val x).add (f32val y))).1) ∧ (o = 0x02 → z = (rne32 ((f32val x).sub (f32val y))).1) ∧
        (o = 0x03 → z = (rne32 ((f32val x).mul (f32val y))).1) ∧ (o = 0x0A → z = x) ∧ (o = 0x08 → z = x &&& 0x7FFFFFFF#32) ∧
        (o = 0x09 → z = x ^^^ 0x80000000#32) ∧ (x = y → o = 0x06 ∨ o = 0x07 → z = x) ∧
        ((f32val x).lt (f32val y) = true → (o = 0x06 → z = y) ∧ (o = 0x07 → z = x)) ∧
        ((f32val y).lt (f32val x) = true → (o = 0x06 → z = x) ∧ (o = 0x07 → z = y))

/-- What an MM, a DUAL and a WGRAD write when they complete (R87, R88, R93 to R101, R114 to R119), with their operands in the
core's SRAM: an MM the rows of its stream, a DUAL those of both; a WGRAD, for BF16 or FP16, each element of OUT that the mask
does not freeze as the chain over the tokens of X times dY, from OUT under ACC, while frozen ones stay; both planes are EMPTY
after a WGRAD. Nothing else in memory changes but its staging area. Operands read and results written at completion are the
model's choice (log 20), as is a stream's plane as captured at its start (log 19). -/
def Obligations.MatrixResults : Prop :=
  ∀ (c : CoreId) (i : Nat) (s : State) (r : REntry), s.Calm → s.ms.mem.wf 0 = true →
    (s.core c).ox.mayComplete .ox i = some r →
    (∀ inp out rows plane dir fi fo acc sr kb, r.q.op = some (.mm inp out rows plane dir fi fo acc sr kb) →
      let x : Stream := ⟨inp, out, rows, dir, fi, fo, acc, sr⟩
      x.inCore c r.plane →
      ∃ t, exec (.operationComplete c .ox i) s = .next t ∧ s.Finished t c .ox r.q false ∧ s.otherCores t c ∧
        (t.core c).planes = (s.core c).planes ∧ s.storesOnly t (x.places r.plane.k r.plane.n) ∧
        s.StreamLeft t r.q.kcg r.plane x) ∧
    (∀ d plane shape, r.q.op = some (.dual d plane shape) →
      let f := (dualStreams r.desc).1
      let b := (dualStreams r.desc).2
      f.inCore c r.plane → b.inCore c r.plane →
      (∀ p ∈ f.places r.plane.k r.plane.n, ∀ q ∈ b.places r.plane.k r.plane.n, overlaps p.1 p.2 q.1 q.2 = false) →
      ∃ t, exec (.operationComplete c .ox i) s = .next t ∧ s.Finished t c .ox r.q false ∧ s.otherCores t c ∧
        (t.core c).planes = (s.core c).planes ∧
        s.storesOnly t (f.places r.plane.k r.plane.n ++ b.places r.plane.k r.plane.n) ∧
        s.StreamLeft t r.q.kcg r.plane f ∧ s.StreamLeft t r.q.kcg r.plane b) ∧
    (∀ d, r.q.op = some (.wgrad d) →
      let x := WgradDesc.of r.desc
      ∀ f, (x.xf = 0 ∧ f = Elem.bf16) ∨ (x.xf = 1 ∧ f = Elem.fp16) → x.dyf = x.xf → 1 ≤ x.t →
      inSram c x.x x.xBytes = true → inSram c x.dy x.dyBytes = true → inSram c x.out (x.outBytes + x.stageBytes) = true →
      ∃ t, exec (.operationComplete c .ox i) s = .next t ∧ s.Finished t c .ox r.q false ∧ s.otherCores t c ∧
        (t.core c).plane false = {} ∧ (t.core c).plane true = {} ∧
        s.storesOnly t [(x.out, x.outBytes + x.stageBytes)] ∧
        ∀ k, k < x.k → ∀ n, n < x.n →
          let a := x.out + k * x.outPitch + 4 * n
          let xs := (List.range x.t).map (fun u => (s.ms.values f (x.x + u * x.xp) x.k).getD k .nan)
          let ys := (List.range x.t).map (fun u => (s.ms.values f (x.dy + u * x.dyp) x.n).getD n .nan)
          t.ms.word a = if x.frozen (r.desc.drop 64) k n then s.ms.word a
            else (chain32 (if x.acc then some (s.ms.word a) else none) (plainBlocks xs ys)).1)

/-- What a ROW FWD and BWD write when they complete (R147 to R156), in FP32 without SR, with rows one after the other and
operands in the core's SRAM. A FWD that makes its statistics writes them beside a new entry of the directory, open for a first
segment, and y from them; a segment that folds joins its statistics to the entry's and closes it when it is the last; APPLY
writes y from the entry's. A BWD writes dx of every row, and adds up dg and db over the rows, from their old words under ACC;
the entry is freed unless KEEP. Steps that R147 leaves to the reference vectors are free (log 29); operands read and results
written at completion are the model's choice (log 20). -/
def Obligations.RowResults : Prop :=
  ∀ (c : CoreId) (i : Nat) (s : State) (r : REntry) (desc layer mb kind : Nat), s.Calm → s.ms.mem.wf 0 = true →
    (s.core c).row.mayComplete .row i = some r → layer < 4096 → mb < 256 → kind ≤ 2 →
    let d := RowDesc.of r.desc
    d.xf = 2 → d.yf = 2 → d.layout = false → d.f 4 = false → 1 ≤ d.rows → 1 ≤ d.len → inSram c d.x (d.span 2) = true →
    (d.gbSpan kind ≠ 0 → inSram c d.gb (d.gbSpan kind) = true) →
    let at_ (a m j : Nat) : Nat := a + m * rowPitch 2 d.len + 4 * j
    let row (a m : Nat) : List (BitVec 32) := s.ms.f32s .fp32 (at_ a m 0) d.len
    let gain : Option (List (BitVec 32)) := if kind ≠ 2 ∧ d.f 0 then some (s.ms.f32s .fp32 d.gb d.len) else none
    let bias : Option (List (BitVec 32)) := if kind = 0 ∧ d.f 1 then some (s.ms.f32s .fp32 (d.gb + d.half 4) d.len) else none
    let clean (x : BitVec 32) : BitVec 32 := f32bits (f32val x)
    (r.q.op = some (.row false desc layer mb kind) → d.needsEntry kind = false → d.statMem = false →
      (s.core c).rowr.dir = [] → d.rows ≤ 524288 → (d.writesY kind = true → inSram c d.ydy (d.span 2) = true) →
      ∃ t y, exec (.operationComplete c .row i) s = .next t ∧ s.Finished t c .row r.q false ∧ s.otherCores t c ∧
        (t.core c).rowr.dir = [y] ∧ y.tagged layer mb kind = true ∧ y.backed = false ∧
        y.open_ = (kind == 2 && d.seg == 1) ∧ y.rows = BitVec.ofNat 32 d.rows ∧ y.addr.toNat = ctlBase c ∧
        s.storesOnly t ((ctlBase c, 8 * d.rows) :: (if d.writesY kind then [(d.ydy, d.span 2)] else [])) ∧
        ∀ m, m < d.rows →
          let st := rowStats kind d.eps (row d.x m)
          t.ms.word (ctlBase c + 8 * m) = st.1.1 ∧ t.ms.word (ctlBase c + 8 * m + 4) = st.2.1 ∧
          (d.writesY kind = true → ∀ j, j < d.len →
            t.ms.word (at_ d.ydy m j) = clean ((rowY kind (st.1.1, st.2.1) (row d.x m) gain bias).getD j (0, false)).1)) ∧
    (∀ e, r.q.op = some (.row false desc layer mb kind) → d.needsEntry kind = true →
      (s.core c).rowr.find layer mb kind = some e → isHbm e.addr.toNat = false →
      let old (m : Nat) : BitVec 32 × BitVec 32 := (s.ms.word (e.addr.toNat + 8 * m), s.ms.word (e.addr.toNat + 8 * m + 4))
      (d.f 2 = false → d.writesY kind = false → ∃ t, exec (.operationComplete c .row i) s = .next t ∧ s.Finished t c .row r.q false ∧
        s.otherCores t c ∧ s.storesOnly t [(e.addr.toNat, 8 * d.rows)] ∧
        (t.core c).rowr.dir = (s.core c).rowr.dir.map (fun x => if d.seg = 3 ∧ x.idx = e.idx then { x with open_ := false } else x) ∧
        ∀ m, m < d.rows →
          let st := rowFold (old m) (rowStats kind d.eps (row d.x m))
          t.ms.word (e.addr.toNat + 8 * m) = st.1.1 ∧ t.ms.word (e.addr.toNat + 8 * m + 4) = st.2.1) ∧
      (d.f 2 = true → d.writesY kind = true → inSram c d.ydy (d.span 2) = true →
        ∃ t, exec (.operationComplete c .row i) s = .next t ∧ s.Finished t c .row r.q false ∧ s.otherCores t c ∧
          (t.core c).rowr = (s.core c).rowr ∧ s.storesOnly t [(d.ydy, d.span 2)] ∧
          ∀ m, m < d.rows → ∀ j, j < d.len →
            t.ms.word (at_ d.ydy m j) = clean ((rowY kind (old m) (row d.x m) gain bias).getD j (0, false)).1)) ∧
    (∀ e, r.q.op = some (.row true desc layer mb kind) → (s.core c).rowr.find layer mb kind = some e → isHbm e.addr.toNat = false →
      inSram c d.ydy (d.ydySpan true kind) = true → inSram c d.dx (d.span 2) = true →
      (d.dgbSpan kind ≠ 0 → inSram c d.dgb (d.dgbSpan kind) = true) → overlaps d.dx (d.span 2) d.dgb (d.dgbSpan kind) = false →
      let st (m : Nat) : BitVec 32 × BitVec 32 := (s.ms.word (e.addr.toNat + 8 * m), s.ms.word (e.addr.toNat + 8 * m + 4))
      let back (m : Nat) : RowGrad := rowBack kind (st m) (row d.x m) (row d.ydy m) gain
      let sum (off j : Nat) (terms : List Sat32) : BitVec 32 :=
        clean (chain32 (if d.f 2 then some (s.ms.word (d.dgb + off + 4 * j)) else none) terms).1
      ∃ t, exec (.operationComplete c .row i) s = .next t ∧ s.Finished t c .row r.q false ∧ s.otherCores t c ∧
        (t.core c).rowr.dir = (if d.f 5 then (s.core c).rowr.dir else (s.core c).rowr.dir.filter (fun x => x.idx != e.idx)) ∧
        s.storesOnly t [(d.dx, d.span 2), (d.dgb, d.dgbSpan kind)] ∧
        (d.xent kind = false → ∀ m, m < d.rows → ∀ j, j < d.len →
          t.ms.word (at_ d.dx m j) = clean ((back m).dx.getD j (0, false)).1) ∧
        (d.xent kind = true → ∀ m, m < d.rows → ∀ j, j < d.len → t.ms.word (at_ d.dx m j) =
          clean ((rowXent (st m) (row d.x m) d.eps.toNat (s.ms.le (d.ydy + 4 * m) 4)).getD j (0, false)).1) ∧
        (kind ≤ 1 → ∀ j, j < d.len → t.ms.word (d.dgb + 4 * j) =
          sum 0 j ((List.range d.rows).map (fun m => (back m).dg.getD j (0, false)))) ∧
        (kind = 0 → ∀ j, j < d.len → t.ms.word (d.dgb + d.half 4 + 4 * j) =
          sum (d.half 4) j ((List.range d.rows).map (fun m => (back m).db.getD j (0, false)))))

/-- What BUCKET, SLOT_SET and APPEND write when they complete (R165, R168, R182). SLOT_SET: the slot's fields from its descriptor,
and no memory. BUCKET, with operands in the core's SRAM and its ranges apart: each sequence's pages and bucket, each bucket's
count, pages and first place, and the order by bucket. APPEND, from the core's SRAM into healthy pages: each element of K and V
rounded to the KV format under its page's scale, FILL of every page it touches, and LEN of the slot. Operands read and results
written at completion are the model's choice (log 20). -/
def Obligations.SequenceSlots : Prop :=
  ∀ (c : CoreId) (i : Nat) (s : State) (r : REntry), s.Calm → s.ms.mem.wf 0 = true → (s.core c).att.mayComplete .att i = some r →
    (∀ desc slot x, r.q.op = some (.att 5 desc slot) → slot < 16 → slotOf r.desc = some x →
      ∃ t, exec (.operationComplete c .att i) s = .next t ∧ s.Finished t c .att r.q false ∧ s.otherCores t c ∧ t.ms = s.ms ∧
        (t.core c).attr.slots.getD slot {} = x ∧ x.valid = true ∧ x.table.toNat = leAt r.desc 0 8 ∧ x.len.toNat = leAt r.desc 8 4 ∧
        x.entries.toNat = leAt r.desc 0xC 2 ∧ x.dcode.toNat = leAt r.desc 0xE 1 ∧ x.kvFmt.toNat = leAt r.desc 0xF 1 ∧
        x.pitch.toNat = leAt r.desc 0x10 4 ∧ x.kvHeads.toNat = leAt r.desc 0x14 1 ∧
        ∀ j, j ≠ slot → (t.core c).attr.slots.getD j {} = (s.core c).attr.slots.getD j {}) ∧
    (∀ desc slot, r.q.op = some (.att 4 desc slot) →
      let d := BucketDesc.of r.desc
      let bound (b : Nat) : Nat := s.ms.le (d.bnds + 4 * b) 4
      let pages (k : Nat) : Nat := ceilDiv (s.ms.le (d.lens + 4 * k) 4) 256
      let bucket (k : Nat) : Nat := ((List.range d.nb).filter (fun b => decide (bound b < 256 * pages k))).length
      let members (b : Nat) : List Nat := (List.range d.n).filter (fun k => bucket k == b)
      let first (b : Nat) : Nat := ((List.range b).map (fun u => (members u).length)).sum
      (∀ x ∈ d.ins ++ d.outs, inSram c x.1 x.2 = true) → d.outs.Pairwise (fun x y => overlaps x.1 x.2 y.1 y.2 = false) →
      (∀ b, b + 1 < d.nb → bound b < bound (b + 1)) → (∀ k, k < d.n → s.ms.le (d.lens + 4 * k) 4 ≤ 1048576) →
      d.n ≤ 65536 → d.nb ≤ 16 →
      ∃ t, exec (.operationComplete c .att i) s = .next t ∧ s.Finished t c .att r.q false ∧ s.otherCores t c ∧
        s.storesOnly t d.outs ∧ (∀ k, k < d.n → t.ms.le (d.out + 4 * k) 4 = pages k + 65536 * bucket k) ∧
        (∀ b, b ≤ d.nb → t.ms.le (d.summ + 16 * b) 4 = (members b).length ∧
          t.ms.le (d.summ + 16 * b + 4) 4 = ((members b).map pages).sum ∧ t.ms.le (d.summ + 16 * b + 8) 4 = first b ∧
          t.ms.le (d.summ + 16 * b + 12) 4 = 0) ∧
        (d.order ≠ 0 → ∀ k, k < d.n →
          t.ms.le (d.order + 4 * (first (bucket k) + ((members (bucket k)).filter (fun x => decide (x < k))).length)) 4 = k)) ∧
    (∀ desc slot, r.q.op = some (.att 3 desc slot) → slot < 16 →
      let d := AppendDesc.of r.desc
      let z := r.slot
      let n := z.len.toNat + d.t
      let page (p : Nat) : PageEntry := match s.pageEntry c z (p / 256) with
        | .inl e => e
        | .inr _ => ⟨0, 0, 0, 0⟩
      let src (v : Bool) (u j : Nat) : Nat := if v then d.at_ d.v z.d u (d.vh0 + j) else d.at_ d.k z.d u (d.kh0 + j)
      let dst (v : Bool) (u j : Nat) : Nat := (page (z.len.toNat + u)).at_ z v j (z.len.toNat + u)
      let rows : List (Bool × Nat × Nat) := (List.range d.t).flatMap (fun u => (List.range z.kvHeads.toNat).flatMap (fun j =>
        [(false, u, j), (true, u, j)]))
      ∀ f g, (d.fmt = 0 ∧ f = Elem.bf16) ∨ (d.fmt = 1 ∧ f = Elem.fp16) → elemOf z.fmt = some g → 8 ≤ g.bits → 1 ≤ d.t →
      n ≤ 256 * z.entries.toNat → n ≤ 1048576 → inSram c z.table.toNat (16 * z.entries.toNat) = true →
      (∀ k ∈ d.span z, ∃ e, s.pageEntry c z k = .inl e) → (∀ x ∈ rows, inSram c (src x.1 x.2.1 x.2.2) (2 * z.d) = true) →
      (∀ x ∈ rows, inHbm (dst x.1 x.2.1 x.2.2) (z.d * z.e) = true) →
      (rows.map (fun x => (dst x.1 x.2.1 x.2.2, z.d * z.e))).Pairwise (fun x y => overlaps x.1 x.2 y.1 y.2 = false) →
      s.ms.ue = [] → s.ms.soft = [] → (∀ l, s.ms.badLine l = false) →
      ∃ t, exec (.operationComplete c .att i) s = .next t ∧ s.Finished t c .att r.q false ∧ s.otherCoresButCache t c ∧
        s.storesOnly t ((z.table.toNat, 16 * z.entries.toNat) :: rows.map (fun x => (dst x.1 x.2.1 x.2.2, z.d * z.e))) ∧
        (∀ x ∈ rows, ∀ k, k < z.d →
          let a := dst x.1 x.2.1 x.2.2 + k * z.e
          let e := page (z.len.toNat + x.2.1)
          let u := (s.ms.values f (src x.1 x.2.1 x.2.2) z.d).getD k .nan
          let q := if perTensor z.fmt then convQuot u (decodeScale32 (s.ms.word (if x.1 then e.vScale else e.kScale))).1 else u
          t.ms.le a z.e = (roundTo g (modeAt r.q.kcg (d.flags.testBit 4) g a) q).bits) ∧
        (∀ k ∈ d.span z, t.ms.le (z.table.toNat + 16 * k) 8 =
          (setFld (BitVec.ofNat 64 (s.ms.le (z.table.toNat + 16 * k) 8)) 1 9 (min 256 (n - 256 * k))).toNat) ∧
        (t.core c).attr.slots.getD slot {} = { (s.core c).attr.slots.getD slot {} with len := BitVec.ofNat 21 n } ∧
        ∀ j, j ≠ slot → (t.core c).attr.slots.getD j {} = (s.core c).attr.slots.getD j {})

/-- What an ATT FWD and BWD write when they complete (R170 to R180), with Q, O, LSE, WS and the gradients in the core's SRAM, apart
from each other, and no faulty page-table entry. A FWD takes its rows through its spans in order (R172), from WS under CONT, and
writes O and LSE under FINAL and WS otherwise; a query that sees no key leaves O zero and LSE at the least number, one that
sees one key alone leaves that key's value. A BWD makes dq of each row over the spans, and adds to dk and dv of every key of
the spans (R177, R178, R180). Exponentials and logarithms are free but for e^0 (log 29), the byte of WS that BWD keeps is
log 131, and operands read and results written at completion are the model's choice (log 20). -/
def Obligations.AttentionResults : Prop :=
  ∀ (c : CoreId) (i : Nat) (s : State) (r : REntry) (desc slot : Nat) (f : Elem), s.Calm → s.ms.mem.wf 0 = true → s.ms.soft = [] →
    (s.core c).att.mayComplete .att i = some r →
    let d := AttDesc.of r.desc
    let z := r.slot
    let half := z.fmt == 1
    let ws (m : Nat) : Nat := d.ws + m * (4 * z.d + 64)
    let pos (m : Nat) : Nat := d.pos0 + m / d.g
    let q (m : Nat) : List FVal := s.ms.values f (d.rowAt z.d d.q m) z.d
    let live (m k : Nat) : Bool := d.live z.len.toNat (pos m) k
    let clean (x : BitVec 32) : BitVec 32 := f32bits (f32val x)
    let apart (xs : List (Nat × Nat)) : Prop :=
      (∀ x ∈ xs, inSram c x.1 x.2 = true) ∧ xs.Pairwise (fun x y => overlaps x.1 x.2 y.1 y.2 = false)
    (d.qf = 0 ∧ f = .bf16) ∨ (d.qf = 1 ∧ f = .fp16) → d.of_ = 2 → d.sr = false →
    (∀ m, m < d.rows → inSram c (d.rowAt z.d d.q m) (2 * z.d) = true) →
    (∀ n ∈ d.spans z, s.firstFault c z (d.entriesOf z n) = none) →
    (r.q.op = some (.att 1 desc slot) →
      let outs := if d.final then d.runs z.d d.o 2 ++ [(d.lse, d.lseBytes)] else [(d.ws, d.wsBytes z.d)]
      inSram c d.ws (d.wsBytes z.d) = true → apart outs →
      let start (m : Nat) : AttRow :=
        if d.cont then { o := (List.range z.d).map (fun j => s.ms.word (ws m + 4 * j)), m := s.ms.word (ws m + 4 * z.d),
                         l := s.ms.word (ws m + 4 * z.d + 4), started := (s.ms.byte (ws m + 4 * z.d + 8)).getLsbD 0,
                         sat := List.replicate z.d false }
        else { o := List.replicate z.d 0, sat := List.replicate z.d false }
      let row (m : Nat) : AttRow := (d.spans z).foldl (fun a n =>
        attRowStep d half z.d z.len.toNat (n * z.span) (pos m) (q m) (s.spanRead c z d n) a) (start m)
      let o (m k : Nat) : Nat := d.rowAt z.d d.o m + 4 * k
      ∃ t err, exec (.operationComplete c .att i) s = .next t ∧ s.Finished t c .att r.q err ∧ s.otherCores t c ∧
        (t.core c).attr = (s.core c).attr ∧ s.storesOnly t outs ∧
        (∀ m, m < d.rows → d.final = true →
          t.ms.word (d.lse + 4 * m) = (if (row m).started then
              clean (addS (plainS (row m).m) (refS .attLog [plainS (row m).l])).1 else 0xFF7FFFFF) ∧
          ∀ k, k < z.d → t.ms.word (o m k) =
            if (row m).started then (roundS ((f32val ((row m).o.getD k 0)).div (f32val (row m).l)) false).1 else 0) ∧
        (∀ m, m < d.rows → d.final = false → (∀ k, k < z.d → t.ms.word (ws m + 4 * k) = (row m).o.getD k 0) ∧
          t.ms.word (ws m + 4 * z.d) = (row m).m ∧ t.ms.word (ws m + 4 * z.d + 4) = (row m).l ∧
          (t.ms.byte (ws m + 4 * z.d + 8)).getLsbD 0 = (row m).started) ∧
        (∀ m, m < d.rows → d.final = true → d.cont = false →
          (∀ n ∈ d.spans z, ∀ j, j < z.span → live m (n * z.span + j) = false) →
          t.ms.word (d.lse + 4 * m) = 0xFF7FFFFF ∧ ∀ k, k < z.d → t.ms.word (o m k) = 0) ∧
        (∀ m p e, m < d.rows → d.final = true → d.cont = false → z.fmt = d.qf → (∀ l, s.ms.badLine l = false) →
          p / z.span ∈ d.spans z → live m p = true →
          (∀ n ∈ d.spans z, ∀ j, j < z.span → n * z.span + j ≠ p → live m (n * z.span + j) = false) →
          s.pageEntry c z (p / 256) = .inl e → (∀ x ∈ q m, x.isNaN = false) → isNaN32 d.scale = false →
          (∀ v ∈ [false, true], ∀ x ∈ s.ms.values f (e.at_ z v d.kvh p) z.d, x.isNaN = false) →
          ∀ k, k < z.d → t.ms.word (o m k) = f32bits (FVal.zero.add ((s.ms.values f (e.at_ z true d.kvh p) z.d).getD k .nan)))) ∧
    (r.q.op = some (.att 2 desc slot) →
      let outs := d.kvRuns z d.dk ++ d.kvRuns z d.dv ++ (if d.final then d.runs z.d d.dq d.qf else [(d.ws, d.wsBytes z.d)])
      let do_ (m : Nat) : List FVal := s.ms.values .fp32 (d.rowAt z.d d.do_ m) z.d
      let lse (m : Nat) : BitVec 32 := s.ms.word (d.lse + 4 * m)
      let dead (m : Nat) : Bool := lse m == 0x7FC00000 || lse m == 0xFF7FFFFF
      inSram c d.ws (d.wsBytes z.d) = true → inSram c d.lse d.lseBytes = true → apart outs →
      (∀ m, m < d.rows → inSram c (d.rowAt z.d d.do_ m) (4 * z.d) = true ∧ inSram c (d.rowAt z.d d.o m) (4 * z.d) = true) →
      let start (m : Nat) : BwdRow :=
        if d.cont then { dq := (List.range z.d).map (fun j => s.ms.word (ws m + 4 * j)), delta := s.ms.word (ws m + 4 * z.d),
                         begun := (s.ms.byte (ws m + 4 * z.d + 8)).getLsbD 0 }
        else { dq := List.replicate z.d 0,
               delta := (dotBits (do_ m) (s.ms.values .fp32 (d.rowAt z.d d.o m) z.d) .one).1 }
      let step (m n : Nat) (a : BwdRow) : BwdRow × List FVal × List FVal :=
        bwdRowStep d half z.d z.len.toNat (n * z.span) (pos m) (q m) (do_ m) (lse m) (s.spanRead c z d n) a
      let row (m : Nat) : BwdRow := (d.spans z).foldl (fun a n => (step m n a).1) (start m)
      let sees (p m : Nat) : Bool := !dead m && live m p
      let sum (a p : Nat) (w x : Nat → FVal) : BitVec 32 :=
        clean (rowsDot (s.ms.word a) ((List.range d.rows).map (sees p)) ((List.range d.rows).map w)
          ((List.range d.rows).map (fun m => if sees p m then x m else .zero))).1
      ∃ t err, exec (.operationComplete c .att i) s = .next t ∧ s.Finished t c .att r.q err ∧ s.otherCores t c ∧
        (t.core c).attr = (s.core c).attr ∧ s.storesOnly t outs ∧
        (∀ m, m < d.rows → d.final = true → ∀ k, k < z.d → t.ms.le (d.rowAt z.d d.dq m + 2 * k) 2 =
          (roundTo f .rne (if dead m then .zero else f32val ((row m).dq.getD k 0))).bits) ∧
        (∀ m, m < d.rows → d.final = false → (∀ k, k < z.d → t.ms.word (ws m + 4 * k) = (row m).dq.getD k 0) ∧
          t.ms.word (ws m + 4 * z.d) = (row m).delta) ∧
        ∀ n ∈ d.spans z, ∀ j, j < z.span → n * z.span + j < z.len.toNat → ∀ k, k < z.d →
          let p := n * z.span + j
          let a := p * (4 * z.d) + 4 * k
          t.ms.word (d.dk + a) = sum (d.dk + a) p (fun m => (step m n (start m)).2.2.getD j .zero) (fun m => (q m).getD k .nan) ∧
          t.ms.word (d.dv + a) = sum (d.dv + a) p (fun m => (step m n (start m)).2.1.getD j .zero) (fun m => (do_ m).getD k .nan))

/-- What VEC operations, reductions, RAND, CRED, CONV and CONV_SR write when they complete (R139 to R144), in every format and
rounding, with operands in the core's SRAM. An elementwise result is the sum, difference, product, quotient, fused product and
sum, extreme, magnitude, negation, copy or square root of its operands, or what vecElem makes of it, rounded once; a reduction
is taken in the order of R141; RAND truncates the draw; a CRED adds up its slots in order, after D under ACC; a CONV divides by
the tensor scale, or by the block scale it writes beside the elements. Functions that R139 leaves to the reference vectors are
free (log 29); operands read and results written at completion are the model's choice (log 20). -/
def Obligations.VectorResults : Prop :=
  ∀ (c : CoreId) (i : Nat) (s : State) (r : REntry), s.Calm → s.ms.mem.wf 0 = true → (s.core c).vec.mayComplete .vec i = some r →
    let unscaled (code : BitVec 4) (f : Elem) : Prop := (code = 0 ∧ f = .bf16) ∨ (code = 1 ∧ f = .fp16) ∨ (code = 2 ∧ f = .fp32)
    let clean (x : BitVec 32) : BitVec 32 := f32bits (f32val x)
    (∀ o a b d n fmt sr f, r.q.op = some (.vec o a b d n fmt sr) → unscaled fmt f →
      let e := elemBytes fmt
      (vecReadsA o.toNat = true → inSram c a (n * e) = true) → (vecReadsB o.toNat = true → inSram c b (n * e) = true) →
      (o.toNat ∈ [0x01, 0x02, 0x03, 0x04, 0x05, 0x06, 0x07, 0x08, 0x09, 0x0A, 0x0B, 0x0C, 0x10, 0x11, 0x12, 0x13, 0x14,
          0x20, 0x21, 0x22, 0x23, 0x24, 0x25, 0x26, 0x27] → inSram c d (n * e) = true →
        ∃ t, exec (.operationComplete c .vec i) s = .next t ∧ s.Finished t c .vec r.q false ∧ s.otherCores t c ∧
          s.storesOnly t [(d, n * e)] ∧ ∀ j, j < n →
            let x := (s.ms.values f a n).getD j .zero
            let y := if vecReadsB o.toNat then (s.ms.values f b n).getD (if vecScalar o.toNat then 0 else j) .zero else .zero
            let z := if vecReadsD o.toNat then (s.ms.values f d n).getD j .zero else .zero
            let v : FVal := match o.toNat with
              | 0x01 | 0x10 => x.add y
              | 0x02 => x.sub y
              | 0x03 | 0x11 => x.mul y
              | 0x04 | 0x14 => (x.mul y).add z
              | 0x05 => if y.isZero then (vecElem 0x05 x y z).1 else x.div y
              | 0x06 | 0x12 => x.max y
              | 0x07 | 0x13 => x.min y
              | 0x08 => x.abs
              | 0x09 => x.negate
              | 0x0A => x
              | 0x0B => x.sqrt
              | k => (vecElem k x y z).1
            t.ms.le (d + j * e) e = (roundTo f (modeAt r.q.kcg sr f (d + j * e)) v).bits) ∧
      (o.toNat ∈ [0x30, 0x31, 0x32, 0x33] → inSram c d 4 = true →
        ∃ t, exec (.operationComplete c .vec i) s = .next t ∧ s.Finished t c .vec r.q false ∧ s.otherCores t c ∧
          s.storesOnly t [(d, 4)] ∧
          let xs := s.ms.values f a n
          (o = 0x30 → t.ms.word d = clean (sum141 (xs.map f32bits)).1) ∧
          (o = 0x31 → t.ms.word d = clean (sumsq141 (xs.map f32bits)).1) ∧
          (o = 0x32 → t.ms.word d = f32bits (xs.tail.foldl FVal.max (xs.headD .nan))) ∧
          (o = 0x33 → t.ms.word d = f32bits ((xs.map FVal.abs).tail.foldl FVal.max ((xs.map FVal.abs).headD .nan)))) ∧
      (o = 0x40 → inSram c d (n * e) = true →
        ∃ t, exec (.operationComplete c .vec i) s = .next t ∧ s.Finished t c .vec r.q false ∧ s.otherCores t c ∧
          s.storesOnly t [(d, n * e)] ∧ ∀ j, j < n → t.ms.le (d + j * e) e =
            (roundTo f .trunc (.num false (kcgAt r.q.kcg.seed r.q.kcg.stream (d + j * e)).toNat 1 (-32))).bits)) ∧
    (∀ desc f g, r.q.op = some (.cred desc) →
      let d := CredDesc.of r.desc
      let e := elemBytes d.outF
      unscaled d.inF f → unscaled d.outF g → 1 ≤ d.slots → inSram c d.src d.srcBytes = true → inSram c d.d d.outBytes = true →
      ∃ t, exec (.operationComplete c .vec i) s = .next t ∧ s.Finished t c .vec r.q false ∧ s.otherCores t c ∧
        s.storesOnly t [(d.d, d.outBytes)] ∧ ∀ j, j < d.count →
          let old := if d.flags.testBit 0 then [(s.ms.f32s g d.d d.count).getD j 0] else []
          let terms := old ++ (List.range d.slots).map (fun k => (s.ms.f32s f (d.src + k * d.pitch) d.count).getD j 0)
          t.ms.le (d.d + j * e) e = (roundTo g (modeAt r.q.kcg (d.flags.testBit 1) g (d.d + j * e))
            (f32val (chain32 none (terms.map (fun x => (x, false)))).1)).bits) ∧
    (∀ sr a d scale n inF outF g, r.q.op = some (.conv sr a d scale n inF outF) → elemOf outF = some g → (elemOf inF).isSome = true → 1 ≤ n →
      inSram c a (matBytes inF 1 n) = true → inSram c d (matBytes outF 1 n) = true → (perTensor outF = true → inSram c scale 4 = true) →
      let xs := (List.range n).map ((s.ms.row inF a n 0).value inF)
      let base := d + hdrBytes outF
      let blk (k : Nat) : List FVal := (xs.drop (k * blockLen outF)).take (blockLen outF)
      let ts := (decodeScale32 (s.ms.word scale)).1
      ∃ t, exec (.operationComplete c .vec i) s = .next t ∧ s.Finished t c .vec r.q false ∧ s.otherCores t c ∧
        s.storesOnly t [(d, matBytes outF 1 n)] ∧
        (perTensor outF = true → t.ms.word d = if ts.isNaN then 0x3F800000 else s.ms.word scale) ∧
        (∀ k, k * blockLen outF < n →
          ((outF = 5 ∨ outF = 6) → t.ms.word (base + rowScaleOff outF n + 4 * k) = (blockScale32 outF (blk k)).1) ∧
          (isMx outF = true → t.ms.byte (base + rowScaleOff outF n + k) = blockScaleE8 outF (blk k))) ∧
        ∀ j, j < n →
          let x := xs.getD j .nan
          let e8 := blockScaleE8 outF (blk (j / blockLen outF))
          let v : FVal :=
            if perTensor outF then convQuot x ts
            else if outF = 5 ∨ outF = 6 then convQuot x (f32val (blockScale32 outF (blk (j / blockLen outF))).1)
            else if isMx outF then x.div (.num false 1 1 ((e8.toNat : Int) - 127))
            else x
          let mode := if sr then srMode r.q.kcg.seed r.q.kcg.stream g (8 * base + j * g.bits) else .rne
          t.ms.le base (rowElemBytes outF n) / 2 ^ (j * g.bits) % 2 ^ g.bits =
            if isMx outF = true ∧ e8 = 0xFF then 0 else (roundTo g mode v).bits)

/-- GATHER and WALK on a ready core (R69, R245, R246): a word that passes its issue checks, with no operation of the gather engine
running and a descriptor that passes its checks, starts at once, its ranges claimed. That the two start at issue and run one at
a time is the model's choice (log 21).
What a GATHER and a WALK write when they complete (R245, R246), with their operands in the core's SRAM: each row of the table
that an index names, or zeros for the index of ZERO; the address of each position's row. The first index or position beyond the
table stops the operation under cause 0x16, the first page-table entry that does not hold its position under 0x15: the rows
before it stay written, BAD_INDEX takes it, and the signal carries ERR. Reading and writing at completion is the model's
choice (log 20). -/
def Obligations.GatherWalk : Prop :=
  (∀ row ∈ [((.gather : CoreId → IWord → Instr), 1), (.walk, 2)], ∀ (c : CoreId) (w : IWord) (s : State), s.Ready c →
    let v := Word128.withOp w 4 row.2
    let r := (s.offered c (s.decodedAt c v)).resolve c v
    decodeCause v = 0 → r.cause = 0 → (s.core c).seq.sbStalls (liveRanges r.claims) = false →
    (s.core c).seq.sb.length + (liveRanges r.claims).length ≤ 64 → (s.core c).gath.ops = [] →
    (row.2 = 1 → s.checkGather c (s.operand c v 0).nat = 0) → (row.2 = 2 → s.checkWalk c (s.operand c v 0).nat = 0) →
    ∃ t, exec (row.1 c w) s = .next t ∧ (t.core c).gath.queue = [] ∧
      (∃ x, (t.core c).gath.running = (s.core c).gath.running ++ [x] ∧ x.q.op = some r.op ∧ x.q.sigcc = Word128.sigcc w) ∧
      (t.core c).seq.sb = (s.core c).seq.sb ++ (liveRanges r.claims).map (fun g => g.entry (s.core c).seq.nextId) ∧
      (t.core c).seq.pc = (s.core c).seq.pc + 1 ∧ (t.core c).seq.gr = (s.core c).seq.gr ∧ (t.core c).seq.cc = (s.core c).seq.cc ∧
      s.otherCores t c ∧ s.sameRest t ∧ s.sameMemory t (s.operand c v 0).nat ∧ t.ud = s.ud ∧ t.pwr = s.pwr) ∧
  (∀ (c : CoreId) (i : Nat) (s : State) (r : REntry), s.Calm → s.ms.mem.wf 0 = true → (s.core c).gath.mayComplete .gath i = some r →
    let stops (t : State) (cause x : Nat) : Prop := (t.core c).err.leCause = BitVec.ofNat 8 cause ∧ (t.core c).err.leExec = true ∧
      (t.core c).cache.badIndex = BitVec.ofNat 32 x ∧ (t.core c).seq.cc = ccAfter (s.core c).seq.cc r.q.sigcc true ∧
      (t.core c).gath.running = (s.core c).gath.running.filter (fun y => y.q.id != r.q.id) ∧ s.otherCores t c
    (∀ desc, r.q.op = some (.gather desc) →
      let d := GatherDesc.of r.desc
      let ix (k : Nat) : Nat := s.ms.le (d.index + 4 * k) 4
      let zero (k : Nat) : Bool := ix k == 0xFFFFFFFF && d.flags.testBit 2
      let good (k : Nat) : Prop := zero k = true ∨ ix k < d.rows
      let dst (k : Nat) : Nat := d.dst + k * d.dp
      let placed (t : State) (n : Nat) : Prop := s.storesOnly t ((List.range n).map (fun k => (dst k, d.rowBytes))) ∧
        ∀ k x, k < n → x < d.rowBytes → t.ms.byte (dst k + x) = if zero k then 0 else s.ms.byte (d.table + ix k * d.tp + x)
      let span := (d.rows - 1) * d.tp + d.rowBytes
      inSram c d.index (4 * d.count) = true → inSram c d.table span = true → inSram c d.dst d.dstBytes = true → d.rowBytes ≤ d.dp →
      (∀ k, k < d.count → overlaps (dst k) d.rowBytes d.table span = false ∧ overlaps (dst k) d.rowBytes d.index (4 * d.count) = false) →
      ((∀ k, k < d.count → good k) → ∃ t, exec (.operationComplete c .gath i) s = .next t ∧ s.Finished t c .gath r.q false ∧
        s.otherCores t c ∧ placed t d.count) ∧
      ∀ n, n < d.count → (∀ k, k < n → good k) → ¬ good n →
        ∃ t, exec (.operationComplete c .gath i) s = .next t ∧ stops t 0x16 (ix n) ∧ placed t n) ∧
    (∀ desc, r.q.op = some (.walk desc) →
      let d := WalkDesc.of r.desc
      let p (k : Nat) : Nat := s.ms.le (d.pos + 4 * k) 4
      let w (k : Nat) : Nat := s.ms.le (d.table + 16 * (p k / 256)) 8
      let base (k : Nat) : Nat := w k % 2 ^ 42 / 4096 * 4096
      let inside (k : Nat) : Prop := p k < 256 * d.entries
      let holds (k : Nat) : Prop := w k % 2 = 1 ∧ p k % 256 < w k / 2 % 512 ∧ s.placeOk c .hbm (base k) 1 = true ∧
        w k / 1024 % 4 = 0 ∧ w k / 2 ^ 42 = 0
      let placed (t : State) (n : Nat) : Prop := s.storesOnly t [(d.dst, 8 * n)] ∧ ∀ k, k < n → t.ms.le (d.dst + 8 * k) 8 =
        base k + d.head * d.pitch + (if d.flags.testBit 0 then 256 * d.rowBytes else 0) + p k % 256 * d.rowBytes
      inSram c d.pos (4 * d.count) = true → inSram c d.table (16 * d.entries) = true → inSram c d.dst (8 * d.count) = true →
      overlaps d.dst (8 * d.count) d.pos (4 * d.count) = false → overlaps d.dst (8 * d.count) d.table (16 * d.entries) = false →
      ((∀ k, k < d.count → inside k ∧ holds k) → ∃ t, exec (.operationComplete c .gath i) s = .next t ∧
        s.Finished t c .gath r.q false ∧ s.otherCores t c ∧ placed t d.count) ∧
      ∀ n, n < d.count → (∀ k, k < n → inside k ∧ holds k) →
        (¬ inside n → ∃ t, exec (.operationComplete c .gath i) s = .next t ∧ stops t 0x16 (p n) ∧ placed t n) ∧
        (inside n → ¬ holds n → ∃ t, exec (.operationComplete c .gath i) s = .next t ∧ stops t 0x15 (p n) ∧ placed t n)))

/-- MSG_FLUSH, MARK, REWIND and RELEASE on a ready core (R38, R41, R42, R72): a flush of a queue with no message partly arrived empties
it; in KT4 mode MARK keeps the read position, REWIND returns to a valid mark, RELEASE frees the entries before the read
position and moves a mark that fell among them to it; a queue whose FULL flag falls tells its listed senders; outside KT4 mode, and a REWIND without a valid mark, is skipped at execution under cause 0x18. That they complete when
they reach the head of the MSG queue is the model's choice (log 24). -/
def Obligations.QueueOperations : Prop :=
  ∀ (c : CoreId) (w : IWord) (s : State), s.Ready c → (s.core c).msgq.running = [] → (s.core c).msg.sends = [] →
    let n := fldN w 0 4
    let q := (s.core c).queue n
    let sg := Word128.sigcc w
    let ok (t : State) : Prop := (t.core c).seq.pc = (s.core c).seq.pc + 1 ∧ (t.core c).seq.gr = (s.core c).seq.gr ∧
      (t.core c).msgq.queue = [] ∧ (t.core c).msgq.running = [] ∧ t.ms = s.ms ∧ t.time = s.time ∧ t.pwr = s.pwr ∧
      ∀ j, j < 16 → j ≠ n → (t.core c).queue j = (s.core c).queue j
    let bad (t : State) : Prop := ok t ∧ (t.core c).queue n = q ∧ (t.core c).err.leCause = 0x18 ∧ (t.core c).err.leExec = true ∧
      (t.core c).err.inconsistent = satInc (s.core c).err.inconsistent ∧
      (t.core c).seq.cc = ccAfter (s.core c).seq.cc sg true
    let near : Prop := ∀ e ∈ q.senders, s.isOwnDev e.1 = true
    (decodeCause (Word128.withOp w 7 3) = 0 → q.locked = false →
      ∃ t, exec (.msgFlush c w) s = .next t ∧ (near → ok t) ∧ s.Credits t c n ∧ ((t.core c).queue n).entries = [] ∧
        ((t.core c).queue n).rdPos = 0 ∧ ((t.core c).queue n).markValid = false ∧
        (t.core c).seq.cc = ccAfter (s.core c).seq.cc sg false) ∧
    (decodeCause (Word128.withOp w 7 4) = 0 →
      (q.kt4 = true → ∃ t, exec (.mark c w) s = .next t ∧ ok t ∧
        (t.core c).queue n = { q with mark := q.rdPos, markValid := true } ∧
        (t.core c).seq.cc = ccAfter (s.core c).seq.cc sg false) ∧
      (q.kt4 = false → ∃ t, exec (.mark c w) s = .next t ∧ bad t)) ∧
    (decodeCause (Word128.withOp w 7 5) = 0 →
      (q.kt4 = true → q.markValid = true → ∃ t, exec (.rewind c w) s = .next t ∧ ok t ∧
        (t.core c).queue n = { q with rdPos := q.mark } ∧ (t.core c).seq.cc = ccAfter (s.core c).seq.cc sg false) ∧
      (q.kt4 = false ∨ q.markValid = false → ∃ t, exec (.rewind c w) s = .next t ∧ bad t)) ∧
    (decodeCause (Word128.withOp w 7 6) = 0 →
      (q.kt4 = true → ∃ t, exec (.release c w) s = .next t ∧ (near → ok t) ∧ s.Credits t c n ∧
        ((t.core c).queue n).entries = q.entries.drop q.rdPos ∧ ((t.core c).queue n).rdPos = 0 ∧
        ((t.core c).queue n).mark = (if q.mark < q.rdPos then 0 else q.mark - q.rdPos) ∧
        ((t.core c).queue n).markValid = q.markValid ∧
        (t.core c).seq.cc = ccAfter (s.core c).seq.cc sg false) ∧
      (q.kt4 = false → ∃ t, exec (.release c w) s = .next t ∧ bad t))

/-- RECV on a ready core (R38, R40, R42): the complete head message of a queue with no flush pending is written to core SRAM, its
payload at DST and its sideband from DST + 512, and its entries are freed, or passed by the read position in KT4 mode; a queue
whose FULL flag falls tells its listed senders. That it
completes at the head of the MSG queue is the model's choice (log 24).
LOCAL_MESSAGE_ARRIVAL (R33, R34, R36, R38): the one message on its way to a queue. A foreign job tag discards it and counts
TAG_REJECT; a full queue ignores it, sets OVERRUN and counts; otherwise its entries enter the queue, which stays locked until the
last. A core that sent it gets the status: its counter is signalled, with ERR on reject, its credit mirror takes FULL, 0 for a
foreign tag, and with FULL = 1 the queue lists it. That the status is decided at the last entry is the model's choice (log 24), as is
what a Bullock counts for a message of another job (log 158). -/
def Obligations.MessagesInAndOut : Prop :=
  (∀ (c : CoreId) (w : IWord) (s : State) (m : List MsgEntry), s.Ready c → (s.core c).msgq.running = [] → s.ms.mem.wf 0 = true →
    let v := Word128.withOp w 7 2
    let n := fldN w 24 4
    let q := (s.core c).queue n
    let dst := (s.operand c v 0).nat
    decodeCause v = 0 → (s.issueRecv c v).cause = 0 → (s.core c).seq.sb = [] → q.flushPending = false → q.head = some m →
    (∀ k, k < m.length → (m.map (fun e => e.pos.toNat)).getD k 0 = k) →
    ∃ t, exec (.recv c w) s = .next t ∧ s.Credits t c n ∧ (t.core c).seq.pc = (s.core c).seq.pc + 1 ∧ (t.core c).seq.gr = (s.core c).seq.gr ∧
      (t.core c).seq.cc = ccAfter (s.core c).seq.cc (Word128.sigcc w) false ∧ (t.core c).msgq.running = [] ∧
      (q.kt4 = false → ((t.core c).queue n).entries = q.entries.drop m.length) ∧
      (q.kt4 = true → ((t.core c).queue n).entries = q.entries ∧ ((t.core c).queue n).rdPos = q.rdPos + m.length) ∧
      (∀ k e, m[k]? = some e → t.ms.bytes (dst + 64 * k) 64 = leBytes 64 e.payload.toNat ∧
        t.ms.bytes (dst + 512 + 8 * k) 8 = leBytes 8 e.sideband) ∧
      (∀ x, ¬ (dst ≤ x ∧ x < dst + 576) → t.ms.byte x = s.ms.byte x) ∧ (q.senders = [] → s.otherCores t c ∧ s.sameRest t)) ∧
  (∀ (c : CoreId) (q : Fin 16) (n : Nat) (s : State) (m : LocalMsg), s.Calm → s.locals = [m] → m.core = c.val →
    m.queue = q.val → m.started = false → 0 < n →
    let x := (s.core c).queue q
    let row : Instr := .localMessageArrival c q n
    (∀ d id p, m.src = .core d id → d < 8 → (s.core d).msg.sends.find? (fun p => p.id == id) = some p → p.sched = false →
      let listed (y : MsgQueue) : Prop := (y.senders, y.creditOvf) =
        (if x.senders.contains (s.dev, BitVec.ofNat 3 d) then (x.senders, x.creditOvf)
         else if x.senders.length < 8 then (x.senders ++ [(s.dev, BitVec.ofNat 3 d)], x.creditOvf) else (x.senders, true))
      let told (t : State) (reject full : Bool) : Prop := t.locals = [] ∧ t.ms = s.ms ∧ t.fab = s.fab ∧
        (t.core d).msg.sends = (s.core d).msg.sends.filter (fun p => p.id != id) ∧
        (t.core d).seq.cc = ccAfter (s.core d).seq.cc p.sigcc reject ∧
        (t.core d).msg.mirror = (s.core d).msg.mirror.map (fun e =>
          if e.dev = s.mirrorDev p.dev ∧ e.core.toNat = p.core.toNat ∧ e.queue.toNat = p.queue.toNat then { e with full := full } else e)
      (m.jobTag ≠ (s.core c).id.jobTag → ∃ t, exec row s = .next t ∧ told t true false ∧ (t.core c).queue q = x ∧
        (t.core c).msg.tagReject = satInc (s.core c).msg.tagReject) ∧
      (m.jobTag = (s.core c).id.jobTag → 24 < x.entries.length → ∃ t, exec row s = .next t ∧ told t true true ∧
        listed ((t.core c).queue q) ∧ ((t.core c).queue q).entries = x.entries ∧ ((t.core c).queue q).overrun = true ∧
        ((t.core c).queue q).rejectCount = satInc x.rejectCount) ∧
      (m.jobTag = (s.core c).id.jobTag → x.entries.length ≤ 24 → m.entries.length ≤ n → x.flushPending = false →
        ∃ t, exec row s = .next t ∧ told t false (decide (24 < x.entries.length + m.entries.length)) ∧
          ((t.core c).queue q).entries = x.entries ++ m.entries ∧ ((t.core c).queue q).locked = false ∧
          (24 < x.entries.length + m.entries.length → listed ((t.core c).queue q)) ∧
          (x.entries.length + m.entries.length ≤ 24 → ((t.core c).queue q).senders = x.senders))) ∧
    ∀ u, m.src = .ud u →
    (m.jobTag ≠ (s.core c).id.jobTag → ∃ t, exec (.localMessageArrival c q n) s = .next t ∧ t.locals = [] ∧
      (t.core c).msg.tagReject = satInc (s.core c).msg.tagReject ∧ (t.core c).queue q = (s.core c).queue q ∧
      (t.udOf u).evtRej = (if u < 2 then satInc (s.udOf u).evtRej else (s.udOf u).evtRej) ∧ t.ms = s.ms) ∧
    (m.jobTag = (s.core c).id.jobTag → 24 < ((s.core c).queue q).entries.length →
      ∃ t, exec (.localMessageArrival c q n) s = .next t ∧ t.locals = [] ∧
        (t.core c).queue q = { (s.core c).queue q with overrun := true, rejectCount := satInc ((s.core c).queue q).rejectCount } ∧
        t.ms = s.ms) ∧
    (m.jobTag = (s.core c).id.jobTag → ((s.core c).queue q).entries.length ≤ 24 → n < m.entries.length →
      exec (.localMessageArrival c q n) s = .next { s.modCore c (fun k => k.modQueue q (fun x =>
        { x with entries := x.entries ++ m.entries.take n, locked := true })) with locals := [{ m with entries := m.entries.drop n, started := true }] }) ∧
    (m.jobTag = (s.core c).id.jobTag → ((s.core c).queue q).entries.length ≤ 24 → m.entries.length ≤ n →
      ((s.core c).queue q).flushPending = false →
      ∃ t, exec (.localMessageArrival c q n) s = .next t ∧ t.locals = [] ∧
        ((t.core c).queue q).entries = ((s.core c).queue q).entries ++ m.entries ∧ ((t.core c).queue q).locked = false ∧
        (t.udOf u).evtSent = (if u < 2 then satInc (s.udOf u).evtSent else (s.udOf u).evtSent) ∧ t.ms = s.ms))

/-- SEND of a TRY message to a core of this module on a ready core (R32, R36, R37): the payload leaves core SRAM as a message of
LEN + 1 entries under the sender's job tag, the SEND waits for its status, and the destination becomes the most recently used
entry of the credit mirror; nothing is stored in memory.
SEND_WAIT_LIMIT and STATUS_TIMEOUT (R37, R39): a WAIT-form SEND held at the head of its queue leaves as a TRY would; a SEND
without a status within 1 ms is counted and signals with ERR, and one whose status has come changes nothing.
SEND in its other forms on a ready core (R36, R37, R308, R334): a WAIT message to a queue that the mirror shows full is held,
and leaves as a TRY does where it does not; a message to another module leaves as a request under the next XID, kept until its
answer; with SCHED it is ready in the scheduled class for its planned trunk, with its late limit. -/
def Obligations.SendsLeave : Prop :=
  ((∀ (c : CoreId) (w : IWord) (s : State), s.Ready c → (s.core c).msgq.running = [] → (s.core c).msgq.queue = [] →
    let v := Word128.withOp w 7 1
    let src := (s.operand c v 0).nat
    let n := fldN w 45 3 + 1
    let dev : DevId := fld w 24 14
    decodeCause v = 0 → (s.issueSend c v).cause = 0 → bitB w 48 = false → bitB w 49 = false → s.isOwnDev dev = true →
    (s.core c).seq.sb = [] →
    ∃ t m p, exec (.send c w) s = .next t ∧ t.locals = s.locals ++ [m] ∧ m.src = .core c (s.core c).seq.nextId ∧
      m.queue = fldN w 41 4 ∧ m.jobTag = (s.core c).id.jobTag ∧ m.entries = entriesOf s.dev c (s.ms.bytes src (64 * n)) ∧
      m.started = false ∧ (t.core c).msg.sends = (s.core c).msg.sends ++ [p] ∧ p.id = (s.core c).seq.nextId ∧
      p.sigcc = Word128.sigcc w ∧ ((t.core c).msg.mirror.head?.map (fun e => e.queue.toNat)) = some (fldN w 41 4) ∧
      (t.core c).seq.pc = (s.core c).seq.pc + 1 ∧ (t.core c).seq.cc = (s.core c).seq.cc ∧ t.ms = s.ms ∧ s.otherCores t c ∧ s.sameRest t) ∧
  (∀ (c : CoreId) (s : State),
    (∀ q src dev core queue len sched tag, s.HeadAlone c .msg q → q.op = some (.send src dev core queue len true sched tag) →
      (s.core c).msg.holding = true → s.isOwnDev dev = true → s.ms.badRange src (64 * len) = false →
      ∃ t m, exec (.sendWaitLimit c) s = .next t ∧ (t.core c).msgq.queue = [] ∧ (t.core c).msg.holding = false ∧
        t.locals = s.locals ++ [m] ∧ m.src = .core c q.id ∧ m.entries = entriesOf s.dev c (s.ms.bytes src (64 * len)) ∧ t.ms = s.ms) ∧
    (∀ id p, s.Calm → (s.core c).msg.sends.find? (fun x => x.id == id) = some p → p.sched = false →
      ∃ t, exec (.statusTimeout c id) s = .next t ∧
        (t.core c).msg.statusTimeout = satInc (s.core c).msg.statusTimeout ∧
        (t.core c).msg.sends = (s.core c).msg.sends.filter (fun x => x.id != id) ∧
        (t.core c).seq.cc = ccAfter (s.core c).seq.cc p.sigcc true ∧ t.ms = s.ms ∧ s.otherCores t c ∧ s.sameRest t) ∧
    (∀ id, s.Calm → (s.core c).msg.sends.find? (fun x => x.id == id) = none → exec (.statusTimeout c id) s = .next s))) ∧
  (∀ (c : CoreId) (w : IWord) (s : State), s.Ready c → (s.core c).msgq.running = [] → (s.core c).msgq.queue = [] →
    let v := Word128.withOp w 7 1
    let src := (s.operand c v 0).nat
    let n := fldN w 45 3 + 1
    let dev : DevId := fld w 24 14
    let core := fldN w 38 3 + (if Word128.pcs v then (s.core c).subRank else 0)
    let full := (s.core c).msg.mirrorFull (s.mirrorDev dev) core (fldN w 41 4)
    let goes : Prop := bitB w 48 = false ∨ full = false
    let id := (s.core c).seq.nextId
    let f : PacketFields := { ty := 0x5, dst := dev, src := s.dev, srcCore := c, jobTag := (s.core c).id.jobTag, dstCore := core,
                              queue := fldN w 41 4, payload := s.ms.bytes src (64 * n), xid := s.fab.nextXid }
    let kept (t : State) (cls : Bool) : Prop := t.fab.nextXid = s.fab.nextXid + 1 ∧ (∃ r ∈ t.fab.out, r.xid = s.fab.nextXid ∧
      r.owner = .msg c id ∧ r.src = some (src, 64 * n) ∧ r.pkt.ty = 0x5 ∧ r.pkt.dst = dev ∧ r.pkt.cls = cls ∧
      r.pkt.jobTag = f.jobTag ∧ r.pkt.payload = f.payload) ∧ t.locals = s.locals
    let sent (t : State) : Prop := (t.core c).msgq.queue = [] ∧ (∃ p, (t.core c).msg.sends = (s.core c).msg.sends ++ [p] ∧ p.id = id ∧
        p.dev = dev ∧ p.core.toNat = core ∧ p.queue.toNat = fldN w 41 4 ∧ p.sigcc = Word128.sigcc w) ∧
      ((t.core c).msg.mirror.head?.map (fun e => (e.dev, e.core.toNat, e.queue.toNat))) = some (s.mirrorDev dev, core, fldN w 41 4) ∧
      (t.core c).seq.pc = (s.core c).seq.pc + 1 ∧ (t.core c).seq.cc = (s.core c).seq.cc ∧ t.ms = s.ms ∧ s.otherCores t c
    decodeCause v = 0 → (s.issueSend c v).cause = 0 → (s.core c).seq.sb = [] →
    (bitB w 48 = true → full = true → ∃ t q, exec (.send c w) s = .next t ∧ (t.core c).msgq.queue = [q] ∧
      q.op = some (.send src dev (BitVec.ofNat 3 core) (fld w 41 4) n true (bitB w 49) (fld w 50 16)) ∧
      (t.core c).msg = { (s.core c).msg with holding := true } ∧ t.locals = s.locals ∧ (t.core c).seq.pc = (s.core c).seq.pc + 1 ∧
      (t.core c).seq.cc = (s.core c).seq.cc ∧ t.ms = s.ms ∧ s.otherCores t c ∧ s.sameRest t) ∧
    (goes → s.isOwnDev dev = true → ∃ t m, exec (.send c w) s = .next t ∧ sent t ∧ t.locals = s.locals ++ [m] ∧
      m.src = .core c id ∧ m.core = core ∧ m.queue = fldN w 41 4 ∧ m.entries = entriesOf s.dev c f.payload ∧ s.sameRest t) ∧
    (∀ d tr, goes → s.isOwnDev dev = false → s.outstanding < 8192 → bitB w 49 = false → s.fab.route s.dev.toNat dev.toNat = some d →
      nextTrunk s.dev.toNat (f.build.withDir d) = some tr → s.trunkUp tr = true →
      ∃ t, exec (.send c w) s = .next t ∧ sent t ∧ kept t false) ∧
    (∀ tr, goes → s.isOwnDev dev = false → s.outstanding < 8192 → bitB w 49 = true →
      s.fab.plannedTrunk s.dev.toNat dev.toNat = some tr →
      ∃ t y, exec (.send c w) s = .next t ∧ sent t ∧ kept t true ∧ t.fab.sched = s.fab.sched ++ [y] ∧ y.xid = s.fab.nextXid ∧ y.trunk = tr ∧
        y.core = c.val ∧ y.unit_ = 4 ∧ y.id = id ∧ y.limit = s.lateLimit s.now ∧ y.ready = s.now))

/-- CORE_MODE_WRITE, MSGQ_KT4_WRITE and MSGQ_FLUSH_WRITE (R29, R30, R41, R43): MODE of an active core keeps its value and sets
WRITE_REJ; of another core it is written, and the rank follows the group size, the model's choice (log 79). KT4 changes on an empty,
unlocked queue; that it then clears the read position and the mark is the model's choice (log 145); else it is refused with OVERRUN.
A flush of a locked queue waits; else the queue is empty. -/
def Obligations.CoreRegisterWrites : Prop :=
  ∀ (c : CoreId) (v : Reg) (q : Fin 16) (b : Bool) (s : State),
    let k := s.core c
    let x := k.queue q
    (k.id.active = true → exec (.coreModeWrite c v) s =
      .next (s.modCore c (fun k => { k with id := { k.id with writeRej := true } }))) ∧
    (k.id.active = false → exec (.coreModeWrite c v) s = .next (s.modCore c (fun k =>
      { k with id := { k.id with bcast := bitB v 0, groupSize := fld v 1 2, bellwether := fld v 4 3,
                                 writeRej := k.id.writeRej && !bitB v 16,
                                 rank := if bitB v 0 then BitVec.ofNat 3 (c.val % 2 ^ fldN v 1 2) else 0 } }))) ∧
    (x.kt4 = b → exec (.msgqKt4Write c q b) s = .next s) ∧
    (x.kt4 ≠ b → x.entries = [] → x.locked = false → exec (.msgqKt4Write c q b) s = .next (s.modCore c (fun k =>
      k.modQueue q (fun x => { x with kt4 := b, rdPos := 0, mark := 0, markValid := false })))) ∧
    (x.kt4 ≠ b → x.entries ≠ [] ∨ x.locked = true → exec (.msgqKt4Write c q b) s = .next (s.modCore c (fun k =>
      k.modQueue q (fun x => { x with overrun := true })))) ∧
    (s.Calm → x.locked = true → exec (.msgqFlushWrite c q) s = .next (s.modCore c (fun k =>
      k.modQueue q (fun x => { x with flushPending := true })))) ∧
    (s.Calm → x.locked = false → x.senders = [] → k.msgq.running = [] → exec (.msgqFlushWrite c q) s = .next (s.modCore c (fun k =>
      k.modQueue q (fun x => { x with entries := [], rdPos := 0, mark := 0, markValid := false, flushPending := false }))))

/-- QLM_CTRL_WRITE and ARB_WRITE (R135, R202, R225): a value outside its limits changes nothing but BAD_WRITE; any other is
written whole.
HC_CTRL_WRITE, ECC_CTRL_WRITE, SCRUB_CTRL_WRITE and PC_VIEW_WRITE (R240, R251, R267): values outside the limits set
BAD_WRITE and change nothing else; a die whose EN bit falls writes its frames back and frees them; RET0 and RET1 take a pin
or 63. No byte that a reader sees changes. -/
def Obligations.DieRegisterWrites : Prop :=
  (∀ (u : UdId) (v : Reg) (s : State),
    let badQ : Prop := fldN v 32 16 = 0 ∨ 10000 < fldN v 16 16
    let badA : Prop := 16 < fldN v 0 5 ∨ 16 < fldN v 8 5
    (badQ → exec (.qlmCtrlWrite u v) s = .next (s.modUd u (fun d => { d with qlmBad := true }))) ∧
    (¬ badQ → exec (.qlmCtrlWrite u v) s = .next (s.modUd u (fun d =>
      { d with qlmEn := bitB v 0, qlmEvtEn := bitB v 1, qlmDest := fld v 4 4, qlmThresh := fld v 16 16, qlmSteps := fld v 32 16,
               qlmBad := d.qlmBad && !bitB v 48 }))) ∧
    (badA → exec (.arbWrite u v) s = .next (s.modUd u (fun d => { d with arbBad := true }))) ∧
    (¬ badA → exec (.arbWrite u v) s = .next (s.modUd u (fun d =>
      { d with shareP0 := fld v 0 5, shareP1 := fld v 8 5, arbBad := d.arbBad && !bitB v 16 })))) ∧
  (∀ (v : Reg) (s : State),
    let h := s.ms.hbm
    let badH : Prop := fldN v 8 12 < 64 ∨ fldN v 24 16 = 0 ∨ fldN v 40 4 = 0
    let put (m : MemSys) : Out := .next { s with ms := m }
    (badH → exec (.hcCtrlWrite v) s = put { s.ms with hcCtrl := { s.ms.hcCtrl with badWrite := true } }) ∧
    (¬ badH → ∃ t, exec (.hcCtrlWrite v) s = .next t ∧
      t.ms.hcCtrl = { s.ms.hcCtrl with en := fld v 0 4, thresh := fld v 8 12, epoch := fld v 24 16, keepDiv := fld v 40 4,
                                       badWrite := s.ms.hcCtrl.badWrite && !bitB v 48 } ∧
      (∀ d, d < 4 → (bitB s.ms.hcCtrl.en d = true ∧ bitB v d = false) → (t.ms.hc.getD d {}).frames = []) ∧
      (∀ d, d < 4 → (bitB s.ms.hcCtrl.en d = false ∨ bitB v d = true) → t.ms.hc.getD d {} = s.ms.hc.getD d {}) ∧
      t.ms.mem = s.ms.mem ∧ t.ms.hbm = s.ms.hbm ∧ t.ms.preg = s.ms.preg ∧ t = { s with ms := t.ms }) ∧
    (fldN v 0 16 = 0 → exec (.eccCtrlWrite v) s = put { s.ms with hbm := { h with eccBad := true } }) ∧
    (fldN v 0 16 ≠ 0 → exec (.eccCtrlWrite v) s = put { s.ms with hbm :=
      { h with retThresh := fld v 0 16, retEn := bitB v 16, demandWb := bitB v 17, eccBad := h.eccBad && !bitB v 24 } }) ∧
    ((fldN v 8 8 = 0 ∨ 168 < fldN v 8 8) → exec (.scrubCtrlWrite v) s = put { s.ms with hbm := { h with scrubBad := true } }) ∧
    (0 < fldN v 8 8 → fldN v 8 8 ≤ 168 → exec (.scrubCtrlWrite v) s = put { s.ms with hbm :=
      { h with scrubEn := bitB v 0, periodH := fld v 8 8, scrubBad := h.scrubBad && !bitB v 16 } }) ∧
    (let old := s.ms.pcState h.pcSelStack.toNat h.pcSelPc.toNat
     let ret (x : BitVec 6) (n : Nat) : BitVec 6 := if n < 36 ∨ n = 63 then BitVec.ofNat 6 n else x
     ∃ t, exec (.pcViewWrite v) s = .next t ∧
       t.ms.pcState h.pcSelStack.toNat h.pcSelPc.toNat =
         { old with ret0 := ret old.ret0 (fldN v 0 6), ret1 := ret old.ret1 (fldN v 8 6) } ∧
       t.ms.mem = s.ms.mem ∧ t.ms.hc = s.ms.hc ∧ t.ms.ue = s.ms.ue ∧ t = { s with ms := t.ms }))

/-- FMAP_WRITE, INJ_CTRL_WRITE, INJ_SEED_WRITE and LANE_INJ_WRITE (R306, R315): a link enters its entry unless another entry
holds it, and a cleared VALID removes it; injection registers without permission set BAD_WRITE and change nothing else; a
rise of EN starts every lane's draws afresh and is recorded, as is a change of a lane's rates. That a rise of EN alone is
recorded, and that BAD_WRITE alone is set without permission, are the model's choices (log 52).
REGISTER_WRITE (R5, R7): an address that is no multiple of 8, or lies in no block, changes nothing; the writes of six
registers: their R/W fields take the value, a 1 clears a sticky bit, and nothing else changes. What an unaligned address does is
the model's choice (log 79). -/
def Obligations.FabricAndSystemWrites : Prop :=
  (∀ (i : Fin 64) (k : LaneId) (v : Reg) (s : State),
    let f := s.fab
    let dev : DevId := fld v 0 14
    let tr := fldN v 14 3
    (bitB v 31 = true → (∀ e ∈ f.fmap, e.2.dev = dev → e.2.trunk.toNat = tr → e.1 = i.val) → exec (.fmapWrite i v) s =
      .next { s with fab := { f with fmap := tabSet f.fmap i.val ⟨dev, fld v 14 3, 2⟩ } }) ∧
    (bitB v 31 = true → (∃ e ∈ f.fmap, e.2.dev = dev ∧ e.2.trunk.toNat = tr) →
      (∀ e ∈ f.fmap, e.2.dev = dev → e.2.trunk.toNat = tr → e.1 ≠ i.val) → exec (.fmapWrite i v) s = .next s) ∧
    (bitB v 31 = false → exec (.fmapWrite i v) s = .next { s with fab := { f with fmap := tabErase f.fmap i.val } }) ∧
    (f.permit = false → exec (.injCtrlWrite v) s = .next { s with fab := { f with injBad := true } } ∧
      exec (.injSeedWrite v) s = .next { s with fab := { f with injBad := true } } ∧
      exec (.laneInjWrite k v) s = .next { s with fab := { f with injBad := true } }) ∧
    (f.permit = true → exec (.injSeedWrite v) s = .next { s with fab := { f with injSeed := v } } ∧
      (bitB v 0 = false ∨ f.injEn = true → exec (.injCtrlWrite v) s =
        .next { s with fab := { f with injEn := bitB v 0, injBad := f.injBad && !bitB v 2 } }) ∧
      (bitB v 0 = true → f.injEn = false → ∃ t, exec (.injCtrlWrite v) s = .next t ∧ t.fab.injEn = true ∧
        t.sec.injUsed = true ∧ (∀ j, j < 64 → t.lane j = { s.lane j with injCount := 0 }) ∧ t.ms = s.ms ∧ t.cores = s.cores ∧
        t.time = s.time ∧ t.eth = s.eth ∧ t.pwr = s.pwr) ∧
      (∃ t, exec (.laneInjWrite k v) s = .next t ∧
        t.lane k = { s.lane k with injDrop := fld v 0 20, injCorrupt := fld v 20 20, injReorder := fld v 40 20, corruptKind := bitB v 60 } ∧
        (∀ j, j ≠ k.val → t.lane j = s.lane j) ∧ t.ms = s.ms ∧ t.cores = s.cores ∧ t.time = s.time ∧ t.eth = s.eth ∧
        ((s.lane k).injDrop = fld v 0 20 → (s.lane k).injCorrupt = fld v 20 20 → (s.lane k).injReorder = fld v 40 20 → t.goose = s.goose)))) ∧
  (∀ (v : Reg) (s : State),
    (∀ a : BitVec 32, a.toNat % 8 ≠ 0 → exec (.registerWrite a v) s = .next s) ∧
    (∀ a : BitVec 32, blkOf a.toNat = none → exec (.registerWrite a v) s = .next s) ∧
    exec (.registerWrite 0x00010000 v) s = .next { s with rst := { s.rst with cause := s.rst.cause &&& ~~~(v.setWidth 17) } } ∧
    exec (.registerWrite 0x00020200 v) s = .next { s with fl := { s.fl with addr := fld v 0 26 } } ∧
    exec (.registerWrite 0x00030028 v) s = .next { s with pwr := { s.pwr with alertMask := fld v 8 8, seen := s.pwr.seen &&& ~~~(fld v 16 8) } } ∧
    exec (.registerWrite 0x00040008 v) s = .next { s with time := { s.time with ppsEn := bitB v 2, ppsComp := fld v 32 32 } } ∧
    exec (.registerWrite 0x00050018 v) s = .next { s with goose := { s.goose with cursor := fld v 0 32 } } ∧
    exec (.registerWrite 0x00100010 v) s = .next { s with fab := { s.fab with downEvt := s.fab.downEvt &&& ~~~(fld v 24 8) } } ∧
    (∀ c : CoreId, exec (.registerWrite (BitVec.ofNat 32 (0x01000208 + 0x100000 * c.val)) v) s =
      .next (s.modCore c (fun k => { k with err := { k.err with stopOnErr := bitB v 0 } }))))

/-- UPDATE and ROOT on an idle Bullock die (R205, R206, R221): the command at the head of the ring served next is taken by the row of
its KIND; it runs under the cause that its checks give, a failed one counted and recorded, and a signal is kept for its
retirement only when it is enabled; until then no result is in memory. A KIND that is not assigned fails under cause 0x01. Cause
0x01 of a KIND that is not assigned and the signals that are suppressed (log 39), the one read of command, program and schedule
at the start (log 37) and the results kept until retirement (log 44) are the model's choices. -/
def Obligations.BullockTakesCommands : Prop :=
  ∀ (u : UdId) (p : Nat) (s : State), s.stopped = false → (s.udOf u).running = none → (s.udOf u).nextRing = some p →
    let r := (s.udOf u).rings.getD p {}
    let e := r.head.toNat % 2 ^ r.log2.toNat
    let a := r.base.toNat + 64 + 128 * e
    let b := s.ms.bytes a 128
    let kind := leAt b 0 1
    let s1 := s.noteReads a 128 1
    let took (t : State) (cause : Nat) : Prop :=
      (∃ c, (t.udOf u).running = some c ∧ c.part = p ∧ c.entry = e ∧ c.bytes = b ∧ c.cause = cause ∧
        (cause ≠ 0 → c.writes = [] ∧ c.ue = false ∧ c.borrow = 0) ∧
        (bitB (BitVec.ofNat 32 (leAt b 0x64 4)) 9 = false → c.signal = 0)) ∧
      (t.udOf u).lastRing = p ∧ (t.udOf u).rings = (s.udOf u).rings ∧ (t.udOf u).done = (s.udOf u).done ∧
      (t.udOf u).failed = (if cause = 0 then (s.udOf u).failed else satInc (s.udOf u).failed) ∧
      (cause ≠ 0 → (t.udOf u).ceCause = BitVec.ofNat 8 cause ∧ (t.udOf u).cePart = BitVec.ofNat 3 p ∧
        (t.udOf u).ceEntry = BitVec.ofNat 12 e ∧ (t.udOf u).ceValid = true) ∧
      t.ms.mem = s.ms.mem ∧ t.cores = s.cores ∧ t.fab = s.fab ∧ t.time = s.time ∧ t.eth = s.eth ∧ t.pwr = s.pwr ∧
      t.parts = s.parts ∧ t.pending = s.pending ∧ ∀ v, v ≠ u.val → t.udOf v = s.udOf v
    (s.ms.badRange a 128 = false → s.ms.soft = [] →
      (kind ≠ 2 → exec (.root u) s = .next s) ∧ (kind = 2 → exec (.update u) s = .next s) ∧
      (kind = 1 → ∃ t, exec (.update u) s = .next t ∧ took t (s1.checkUpdate u p b)) ∧
      (kind = 1 → leAt b 0x1C 4 = 0 → ∃ t, exec (.update u) s = .next t ∧ took t 2) ∧
      (kind = 2 → ∃ t, exec (.root u) s = .next t ∧ took t (s1.checkRoot u p b)) ∧
      (kind = 2 → leAt b 4 4 = 0 → ∃ t, exec (.root u) s = .next t ∧ took t 2) ∧
      (kind ≠ 1 → kind ≠ 2 → ∃ t, exec (.update u) s = .next t ∧ took t 1))

/-- BULLOCK_RETIRE (R205): the results of the command become memory, HEAD counts up in its register and in the doorbell granule,
DONE counts a command that succeeded, and the counter of its signal is signalled, with ERR after a failure or an
uncorrectable chunk; an idle die retires nothing. That all stores of a command take effect at BULLOCK_RETIRE is the model's
choice (log 44).
DOORBELL_WRITE (R204): TAIL stands in the doorbell granule; the ring takes it when it is at most the ring's length ahead of
HEAD and no smaller a count than the one it holds, and otherwise keeps its TAIL, sets TAIL_REJ and counts. -/
def Obligations.BullockRings : Prop :=
  (∀ (u : UdId) (s : State), s.Calm →
    ((s.udOf u).running = none → exec (.bullockRetire u) s = .next s) ∧
    (∀ c, (s.udOf u).running = some c → s.ms.ue = [] → s.ms.soft = [] → s.ms.mem.wf 0 = true → c.part < 8 →
      let r := (s.udOf u).rings.getD c.part {}
      ∃ t, exec (.bullockRetire u) s = .next t ∧ (t.udOf u).running = none ∧
        (t.udOf u).rings = vmod (s.udOf u).rings c.part (fun r => { r with head := r.head + 1 }) ∧
        (t.udOf u).done = (if c.cause = 0 then satInc (s.udOf u).done else (s.udOf u).done) ∧
        (t.udOf u).failed = (s.udOf u).failed ∧
        t.ms.mem = (c.writes.foldl (fun (m : Mem) w => m.writeN 0 w.1 w.2) s.ms.mem).writeN 0 (r.base.toNat + 8) (leBytes 8 (r.head + 1).toNat) ∧
        (bitB c.signal 9 = true → (t.core (fldN c.signal 0 3)).seq.cc =
          ccAfter (s.core (fldN c.signal 0 3)).seq.cc (fld c.signal 3 6 |>.setWidth 8) (c.cause != 0 || c.ue)) ∧
        (∀ d, (bitB c.signal 9 = false ∨ d ≠ fldN c.signal 0 3) → { t.core d with cache := (s.core d).cache } = s.core d) ∧
        t.fab = s.fab ∧ t.time = s.time ∧ t.eth = s.eth ∧ t.pwr = s.pwr ∧ t.parts = s.parts)) ∧
  (∀ (u : UdId) (p : Fin 8) (tail : BitVec 64) (s : State), s.stopped = false →
    let r := (s.udOf u).rings.getD p {}
    r.enable = true → r.base.toNat % 64 = 0 → r.base.toNat < 2 ^ 40 → s.ms.ue = [] → s.ms.soft = [] → s.ms.mem.wf 0 = true →
    (∀ v q, v < 2 → q < 8 → (v ≠ u.val ∨ q ≠ p.val) → ((s.udOf v).rings.getD q {}).enable = true →
      ((s.udOf v).rings.getD q {}).base.toNat / 64 ≠ r.base.toNat / 64) →
    ∃ t, exec (.doorbellWrite u p tail) s = .next t ∧ t.ms.mem = s.ms.mem.writeN 0 r.base.toNat (leBytes 8 tail.toNat) ∧
      ((r.tail - r.head).toNat ≤ (tail - r.head).toNat → (tail - r.head).toNat ≤ 2 ^ r.log2.toNat →
        t.udOf u = { s.udOf u with rings := vmod (s.udOf u).rings p (fun r => { r with tail := tail }) } ∧ t.goose = s.goose) ∧
      (2 ^ r.log2.toNat < (tail - r.head).toNat ∨ (tail - r.head).toNat < (r.tail - r.head).toNat →
        t.udOf u = { s.udOf u with tailRej := setBit (s.udOf u).tailRej p, tailRejCount := satInc (s.udOf u).tailRejCount }) ∧
      (∀ v, v ≠ u.val → t.udOf v = s.udOf v) ∧ (∀ d, { t.core d with cache := (s.core d).cache } = s.core d) ∧
      t.fab = s.fab ∧ t.time = s.time ∧ t.eth = s.eth ∧ t.pwr = s.pwr ∧ t.parts = s.parts)

/-- HBM_REQUEST (R234, R256, R260): a read with any hint but LAST answers the line at its home with its codeword, poisoned when
the home reports it uncorrectable, and leaves memory; a write places its bytes within the line and answers the line after it.
The answer is kept in ms.resp (log 47) and is settled when the controller accepts the request (log 109): the model's choices.
FILL_COMPLETE, EPOCH_BOUNDARY and SCRUB_READ (R235 to R238, R262): a fill makes its frame VALID, with every line it had still
to read valid but those that LAST invalidated; an epoch halves every count and ages an untouched VALID frame, a KEEP
frame only in every KEEP_DIV-th epoch; the scrub reads the next line of its stack while it is enabled. None changes a byte
of memory. That KEEP_DIV counts epochs from reset is the model's choice (log 45). -/
def Obligations.HbmAndMemoryEvents : Prop :=
  (∀ (a : BitVec 40) (hint : Fin 4) (bs : List Byte) (s : State), s.stopped = false → s.ms.soft = [] →
    let ln := a.toNat / 64
    let d := s.ms.hc.getD (s.ms.loc (64 * ln)).die {}
    let bad := s.ms.badLine ln
    (hint.val ≠ 3 → ((s.ms.residentFrame (s.ms.loc (64 * ln))).isSome = true ∨ d.stackOld.find? (fun e => e.1 == ln) = none) →
      ∃ t, exec (.hbmRequest a none hint []) s = .next t ∧
        t.ms.resp = some ⟨64 * ln, s.ms.line ln, bad, if bad then [] else codeword (s.ms.line ln)⟩ ∧
        t.ms.mem = s.ms.mem ∧ t.cores = s.cores ∧ t.ud = s.ud ∧
        t.fab = s.fab ∧ t.time = s.time ∧ t.eth = s.eth ∧ t.pwr = s.pwr ∧ t.parts = s.parts) ∧
    (s.ms.ue = [] → s.ms.mem.wf 0 = true → bs.length ≤ 64 - a.toNat % 64 → bs ≠ [] →
      ∃ t, exec (.hbmRequest a (some bs) hint []) s = .next t ∧ t.ms.mem = s.ms.mem.writeN 0 a.toNat bs ∧
        t.ms.resp = some ⟨64 * ln, t.ms.line ln, false, codeword (t.ms.line ln)⟩ ∧
        (∀ x, { t.core x with cache := (s.core x).cache } = s.core x) ∧ t.fab = s.fab ∧ t.time = s.time ∧ t.eth = s.eth ∧
        t.pwr = s.pwr ∧ t.parts = s.parts)) ∧
  (∀ (d : DieId) (i : Fin 1024) (st : StackId) (s : State), s.stopped = false →
    (∀ f, (s.ms.hc.getD d {}).frames.find? (fun e => e.1 == i.val) = some (i.val, f) → f.state = .filling → s.ms.ue = [] →
      s.ms.soft = [] →
      ∃ t g, exec (.fillComplete d i) s = .next t ∧ (t.ms.hc.getD d {}).frames.find? (fun e => e.1 == i.val) = some (i.val, g) ∧
        g.state = .valid ∧ g.page = f.page ∧ g.dirty = f.dirty ∧ g.age = f.age ∧
        (∀ k, k < 1024 → g.valid.getLsbD k = (f.valid.getLsbD k || (decide (f.fillAt ≤ k) && !f.gone.getLsbD k))) ∧
        t.ms.mem = s.ms.mem ∧ t.ms.hbm = s.ms.hbm ∧ t = { s with ms := t.ms }) ∧
    ((s.ms.hc.getD d {}).frames.find? (fun e => e.1 == i.val) = none → exec (.fillComplete d i) s = .next s) ∧
    (∃ t, exec .epochBoundary s = .next t ∧ t = { s with ms := t.ms } ∧ t.ms.mem = s.ms.mem ∧ t.ms.ue = s.ms.ue ∧
      t.ms.hcCtrl = { s.ms.hcCtrl with epochNo := s.ms.hcCtrl.epochNo + 1 } ∧
      ∀ x, x < 4 → (t.ms.hc.getD x {}).counts = (s.ms.hc.getD x {}).counts.map (fun e => (e.1, ⟨e.2.page, e.2.count >>> 1⟩)) ∧
        ∀ k f, (k, f) ∈ (s.ms.hc.getD x {}).frames → ∃ g, (k, g) ∈ (t.ms.hc.getD x {}).frames ∧ g.page = f.page ∧
          g.valid = f.valid ∧ g.dirty = f.dirty ∧ g.state = f.state ∧ g.touched = false ∧
          g.age = (if f.state = .valid ∧ f.touched = false ∧
            (f.keep = false ∨ (s.ms.hcCtrl.epochNo + 1) % max s.ms.hcCtrl.keepDiv.toNat 1 = 0) then satInc f.age else f.age)) ∧
    (s.ms.hbm.scrubEn = false → exec (.scrubRead st []) s = .next s) ∧
    (s.ms.hbm.scrubEn = true → s.ms.soft = [] → ∃ t, exec (.scrubRead st []) s = .next t ∧ t.ms.mem = s.ms.mem ∧ t.ms.hc = s.ms.hc ∧
      (t.ms.hbm.stackRegs.getD st {}).scrubLine = (s.ms.hbm.stackRegs.getD st {}).scrubLine + 1 ∧
      (t.ms.hbm.stackRegs.getD st {}).passes = (if (s.ms.hbm.stackRegs.getD st {}).scrubLine = BitVec.allOnes 31
        then satInc (s.ms.hbm.stackRegs.getD st {}).passes else (s.ms.hbm.stackRegs.getD st {}).passes) ∧
      t.cores = s.cores ∧ t.ud = s.ud ∧ t.fab = s.fab ∧ t.time = s.time ∧ t.eth = s.eth ∧ t.pwr = s.pwr))

/-- RETRAIN, BRING_UP_TIMEOUT, LANE_RETRY_TIMER, LANE_WIDTH_LOSS, LANE_BRING_UP and LOSS_OF_SIGNAL on a lane that is neither UP nor
LISTEN and forwards no packet (R289, R294, R295, R297): DISABLE sends it to OFF; RETRAIN, the end of a DISABLE and the retry of a
failed lane to TRAIN with all eight wavelengths; the timeout to FAILED; frame lock on four wavelengths or more to HELLO with a hello; a lane held by
RESTRICTED stays; a lane in HELLO that keeps four wavelengths sends a hello with its new mask; a signal lost on a wavelength
that was not received well is only counted. -/
def Obligations.LaneStates : Prop :=
  ∀ (k : LaneId) (v : Reg) (mask : BitVec 8) (w : Fin 8) (s : State), s.Calm →
    let l := s.lane k
    let c := bitB v 0
    let s0 := s.modLane k (fun l => { l with disable := bitB v 0, listenEn := bitB v 1 })
    let held : Prop := l.helloOk = true ∧ (l.farRestricted = true ∨ s.rst.restricted ≠ 0)
    l.state ≠ .up → l.state ≠ .listen → l.cut = none → l.cutFrom = none →
    (c = true → ∃ t, exec (.retrain k v) s = .next t ∧ s0.LaneMoves t k .off 0 l.retrains) ∧
    (c = false → bitB v 2 = true → s0.laneUsable k = true →
      ∃ t, exec (.retrain k v) s = .next t ∧ s0.LaneMoves t k .train 0xFF (satInc l.retrains)) ∧
    (c = false → bitB v 2 = false → l.disable = false → exec (.retrain k v) s = .next s0) ∧
    (c = false → bitB v 2 = false → l.disable = true → s0.laneUsable k = true →
      ∃ t, exec (.retrain k v) s = .next t ∧ s0.LaneMoves t k .train 0xFF l.retrains) ∧
    (l.state = .train ∨ (l.state = .hello ∧ ¬ held) →
      ∃ t, exec (.bringUpTimeout k) s = .next t ∧ s.LaneMoves t k .failed 0 (satInc l.retrains)) ∧
    (l.state ≠ .train → (l.state ≠ .hello ∨ held) → exec (.bringUpTimeout k) s = .next s) ∧
    (l.state = .failed → s.laneUsable k = true →
      ∃ t, exec (.laneRetryTimer k) s = .next t ∧ s.LaneMoves t k .train 0xFF l.retrains) ∧
    (l.state = .failed → s.laneUsable k = false →
      ∃ t, exec (.laneRetryTimer k) s = .next t ∧ s.LaneMoves t k .off 0 l.retrains) ∧
    (l.state ≠ .failed → exec (.laneRetryTimer k) s = .next s) ∧
    exec (.laneWidthLoss k) s = .next s ∧ exec (.listenEntry k) s = .next s ∧ exec (.listenWake k) s = .next s ∧
    (l.state = .train → popcount mask < 4 → exec (.laneBringUp k mask) s = .next s) ∧
    (l.state = .train → 4 ≤ popcount mask → ∃ t, exec (.laneBringUp k mask) s = .next t ∧ (t.lane k).state = .hello ∧ (t.lane k).rxMask = mask ∧
      (t.lane k).helloOk = false ∧ (t.lane k).hellos = l.hellos + 1 ∧ (∀ j, j ≠ k.val → t.lane j = s.lane j) ∧
      t = { s with fab := { s.fab with lanes := t.fab.lanes } }) ∧
    (l.state = .hello → (l.helloOk = false ∨ held) → exec (.laneBringUp k mask) s = .next s) ∧
    (l.rxMask.getLsbD w = false → exec (.lossOfSignal k w) s = .next (s.modLane k (fun l => { l with los := satInc l.los }))) ∧
    (l.state = .miswired → l.rxMask.getLsbD w = true → s.laneUsable k = true →
      ∃ t, exec (.lossOfSignal k w) s = .next t ∧ (t.lane k).state = .train ∧ (t.lane k).txMask = 0xFF ∧
        (t.lane k).los = satInc l.los ∧ (t.lane k).retrains = satInc l.retrains ∧ (∀ j, j ≠ k.val → t.lane j = s.lane j) ∧
        t = { s with fab := { s.fab with lanes := t.fab.lanes } }) ∧
    (l.state = .hello → l.rxMask.getLsbD w = true → 4 ≤ popcount (clrBit l.rxMask w) → ∃ t, exec (.lossOfSignal k w) s = .next t ∧ (t.lane k).state = .hello ∧
      (t.lane k).los = satInc l.los ∧ (t.lane k).rxMask = clrBit l.rxMask w ∧ (t.lane k).hellos = l.hellos + 1 ∧
      (∀ j, j ≠ k.val → t.lane j = s.lane j) ∧ t = { s with fab := { s.fab with lanes := t.fab.lanes } }) ∧
    (l.state = .off ∨ l.state = .train ∨ l.state = .failed → exec (.lossOfSignal k w) s = .next (s.modLane k (fun l =>
      { l with los := satInc l.los, rxMask := clrBit l.rxMask w })))

/-- The rows of lanes that carry packets (R294 to R296, R306): a lane that passed its checks comes UP with full credits; an UP lane
goes to HELLO with a hello on a loss of signal that leaves four wavelengths, or when it gains one, and retrains on any other loss,
or when its width is lost; a listening lane wakes to UP at the mask of the far end, and sends a hello that became due; an UP lane of a module without a job, whose
far end has none and which neither end follows, may listen with one wavelength. That an UP lane goes to HELLO when its RX_MASK
changes (log 50), and sends on the set that it receives until the far end's hello comes (log 115), are the model's choices. -/
def Obligations.CarryingLanes : Prop :=
  ∀ (k : LaneId) (mask : BitVec 8) (w : Fin 8) (s : State), s.Calm →
    let l := s.lane k
    let still (t : State) : Prop := t.ms = s.ms ∧ t.cores = s.cores ∧ t.ud = s.ud ∧ t.parts = s.parts ∧ t.eth = s.eth ∧ t.pwr = s.pwr ∧
      t.rst = s.rst ∧ t.fl = s.fl ∧ t.sec = s.sec ∧ t.pins = s.pins ∧ t.pending = s.pending
    l.cut = none → l.cutFrom = none →
    let other : Prop := ∃ j, j < 64 ∧ j ≠ k.val ∧ j / 8 = k.val / 8 ∧ (s.lane j).state = .up
    (l.state = .hello → l.helloOk = true → 4 ≤ popcount l.rxMask → l.farRestricted = false → s.rst.restricted = 0 → s.fab.waiting = [] →
      s.fab.noticeQ = [] → s.fab.lossNoticed.getLsbD (k.val / 8) = false → s.NoCopies →
      ∃ t, exec (.laneBringUp k mask) s = .next t ∧ (t.lane k).state = .up ∧ (t.lane k).txMask = l.farMask ∧
        (t.lane k).credits = #v[1536, 512, 1536, 512] ∧ (∀ j, j ≠ k.val → t.lane j = s.lane j) ∧ still t) ∧
    (l.rxMask.getLsbD w = false → exec (.lossOfSignal k w) s = .next (s.modLane k (fun l => { l with los := satInc l.los }))) ∧
    (l.state = .up → other → l.rxMask.getLsbD w = true → 4 ≤ popcount (clrBit l.rxMask w) → ∃ t, exec (.lossOfSignal k w) s = .next t ∧
      (t.lane k).state = .hello ∧ (t.lane k).los = satInc l.los ∧ (t.lane k).rxMask = clrBit l.rxMask w ∧
      (t.lane k).retrains = satInc l.retrains ∧ (t.lane k).hellos = l.hellos + 1 ∧ (∀ j, j ≠ k.val → t.lane j = s.lane j) ∧ still t) ∧
    (l.state = .up → other → mask ≠ l.rxMask → 4 ≤ popcount mask → ∃ t, exec (.laneBringUp k mask) s = .next t ∧
      (t.lane k).state = .hello ∧ (t.lane k).rxMask = mask ∧ (t.lane k).txMask = mask ∧ (t.lane k).retrains = satInc l.retrains ∧
      (t.lane k).hellos = l.hellos + 1 ∧ (∀ j, j ≠ k.val → t.lane j = s.lane j) ∧ still t) ∧
    (l.state = .up → mask = l.rxMask → exec (.laneBringUp k mask) s = .next s) ∧
    (l.state = .up → other → l.rxMask.getLsbD w = true → popcount (clrBit l.rxMask w) < 4 → s.laneUsable k = true →
      ∃ t, exec (.lossOfSignal k w) s = .next t ∧ (t.lane k).state = .train ∧ (t.lane k).txMask = 0xFF ∧
        (∀ j, j ≠ k.val → t.lane j = s.lane j) ∧ still t) ∧
    (l.state = .up → other → s.laneUsable k = true → ∃ t, exec (.laneWidthLoss k) s = .next t ∧ (t.lane k).state = .train ∧
      (t.lane k).retrains = satInc l.retrains ∧ (∀ j, j ≠ k.val → t.lane j = s.lane j) ∧ still t) ∧
    (l.state = .listen → s.fab.waiting = [] → l.helloDue = false → exec (.listenWake k) s = .next (s.modLane k (fun l =>
      { l with state := .up, txMask := l.farMask, wakeTx := false }))) ∧
    (l.state = .listen → s.fab.waiting = [] → l.helloDue = true → ∃ t, exec (.listenWake k) s = .next t ∧ (t.lane k).state = .up ∧
      (t.lane k).txMask = l.farMask ∧ (t.lane k).wakeTx = false ∧ (t.lane k).helloDue = false ∧ (t.lane k).hellos = l.hellos + 1 ∧
      (∀ j, j ≠ k.val → t.lane j = s.lane j) ∧ still t) ∧
    (l.state = .up → l.listenEn = true → s.anyJob = false → l.farJob = false → l.far.upstream = false → s.fab.waiting = [] →
      ¬ (s.time.hasUp = true ∧ 8 * s.time.upTrunk.toNat + s.time.upLane.toNat = k.val) →
      exec (.listenEntry k) s = .next (s.modLane k (fun l => { l with state := .listen, txMask := 1 })))

/-- LSU_FAULT and LSU_READY (R289): the bits of the unit; with a fault every lane of its two trunks is OFF and dark, and when it is
ready again each of them that is OFF, enabled and in a dimension of more than one module trains; other lanes stay.
HELLO_RECEIVED and HELLO_TIMER (R297, R298): a lane in HELLO whose hello passes every check takes the far end's device and mask; the
first check that fails, of causes 1 to 5, makes it MISWIRED under its cause and is recorded, cause 5 being a conflict where
coordinates are derived; a mask of fewer than four wavelengths makes it FAILED; the first good one with coordinates gives a
module that derives them its own, whatever its mask; another IFLEVEL is counted. The timer sends a hello on every lane in HELLO
while coordinates are derived or a restriction holds here or at its far end. -/
def Obligations.LightAndHellos : Prop :=
  (∀ (u : Fin 4) (removed : Bool) (s : State), s.Calm →
    let mine (k : Nat) : Prop := k / 16 = u.val
    (∀ k, k < 64 → mine k → (s.lane k).state ≠ .up ∧ (s.lane k).state ≠ .listen ∧ (s.lane k).cut = none ∧ (s.lane k).cutFrom = none) →
    (∃ t, exec (.lsuFault u removed) s = .next t ∧ t.fab.lsuOk = clrBit s.fab.lsuOk u ∧
      t.fab.lsuPresent = (if removed then clrBit s.fab.lsuPresent u else s.fab.lsuPresent) ∧
      (∀ k, k < 64 → mine k → (t.lane k).state = .off ∧ (t.lane k).txMask = 0) ∧ (∀ k, ¬ mine k → t.lane k = s.lane k) ∧
      t = { s with fab := t.fab }) ∧
    (∃ t, exec (.lsuReady u) s = .next t ∧ t.fab.lsuOk = setBit s.fab.lsuOk u ∧ t.fab.lsuPresent = setBit s.fab.lsuPresent u ∧
      (∀ k, k < 64 → mine k → (s.lane k).state = .off → 1 < s.fab.size u → (s.lane k).disable = false →
        (t.lane k).state = .train ∧ (t.lane k).txMask = 0xFF) ∧
      (∀ k, k < 64 → mine k → (s.lane k).state = .off → (s.fab.size u ≤ 1 ∨ (s.lane k).disable = true) → (t.lane k).state = .off) ∧
      (∀ k, (¬ mine k ∨ (s.lane k).state ≠ .off) → t.lane k = s.lane k) ∧ t = { s with fab := t.fab })) ∧
  (∀ (k : LaneId) (p : List Byte) (s : State), s.Calm → (s.lane k).state = .hello → (s.lane k).cut = none → (s.lane k).cutFrom = none →
    let t0 := k.val / 8
    let mask : BitVec 8 := p.getD 0x11 0
    let flags : BitVec 8 := p.getD 0x10 0
    let due (j : Nat) : Prop := (s.lane j).state = .hello ∧
      ((s.fab.coordMode = 2 ∧ s.fab.coordValid = false) ∨ s.rst.restricted ≠ 0 ∨ (s.lane j).farRestricted = true)
    let agree : Prop := leAt p 0 4 = s.fab.systemId.toNat ∧ leAt p 6 1 = (t0 ^^^ 1) ∧ leAt p 7 1 = k.val % 8 ∧
      (∀ d, d < 4 → leAt p (0xC + d) 1 = s.fab.size d) ∧ (s.fab.coordValid = false ∨ flags.getLsbD 0 = false)
    let own (d : Nat) : Nat := (s.fab.coord.getD d 0).toNat
    let passes (c : Nat) : Prop := match c with
      | 1 => leAt p 0 4 = s.fab.systemId.toNat
      | 2 => leAt p 6 1 = (t0 ^^^ 1)
      | 3 => leAt p 7 1 = k.val % 8
      | 4 => ∀ d, d < 4 → leAt p (0xC + d) 1 = s.fab.size d
      | _ => s.fab.coordValid = true → flags.getLsbD 0 = true → ∀ d, d < 4 →
          leAt p (8 + d) 1 = (if d = t0 / 2 then stepCoord (s.fab.size d) (own d) (t0 % 2 == 1) else own d)
    (∀ c, 1 ≤ c → c ≤ 5 → ¬ passes c → (∀ b, 1 ≤ b → b < c → passes b) → ∃ t, exec (.helloReceived k p) s = .next t ∧
      (t.lane k).state = .miswired ∧ (t.lane k).misCause.toNat = c ∧ (∀ j, j ≠ k.val → t.lane j = s.lane j) ∧
      t.fab.conflict = (s.fab.conflict || (c == 5 && s.fab.coordMode == 2)) ∧ t.fab.coord = s.fab.coord ∧
      t.fab.iflDiff = (if leAt p 0x12 2 = s.rst.stIflevel.toNat then s.fab.iflDiff else satInc s.fab.iflDiff) ∧
      t.goose = (s.log { source := 0x04, code := 0x01, detail := [(t0, 1), (k.val % 8, 1), (c, 1)] }).goose ∧ t.ms = s.ms ∧ t.cores = s.cores) ∧
    (s.fab.coordMode = 2 → s.fab.coordValid = false → flags.getLsbD 0 = true → agree → ∃ t, exec (.helloReceived k p) s = .next t ∧
      t.fab.coordValid = true ∧ t.ms = s.ms ∧ ∀ d : Fin 4, (t.fab.coord.getD d 0).toNat =
        (if d.val = t0 / 2 then stepCoord (s.fab.size d) (leAt p (8 + d) 1) (t0 % 2 == 0) else leAt p (8 + d) 1) % 256) ∧
    (agree → popcount mask < 4 → s.fab.coordMode ≠ 2 → ∃ t, exec (.helloReceived k p) s = .next t ∧ (t.lane k).state = .failed ∧
      (t.lane k).retrains = satInc (s.lane k).retrains ∧ (∀ j, j ≠ k.val → t.lane j = s.lane j) ∧ t.ms = s.ms ∧ t.cores = s.cores) ∧
    (agree → 4 ≤ popcount mask → s.fab.coordMode ≠ 2 → ∃ t, exec (.helloReceived k p) s = .next t ∧
      (t.lane k).state = .hello ∧ (t.lane k).helloOk = true ∧ (t.lane k).farMask = mask ∧ (t.lane k).txMask = mask ∧
      (t.lane k).farDev = BitVec.ofNat 14 (leAt p 4 2) ∧ (t.lane k).farRestricted = flags.getLsbD 2 ∧
      (t.lane k).farJob = flags.getLsbD 3 ∧ (∀ j, j ≠ k.val → t.lane j = s.lane j) ∧
      t.fab.iflDiff = (if leAt p 0x12 2 = s.rst.stIflevel.toNat then s.fab.iflDiff else satInc s.fab.iflDiff) ∧
      t = { s with fab := t.fab }) ∧
    (∃ t, exec .helloTimer s = .next t ∧
      (∀ j, j < 64 → due j → (t.lane j).hellos = (s.lane j).hellos + 1 ∧ (t.lane j).state = .hello) ∧
      (∀ j, ¬ due j → t.lane j = s.lane j) ∧ t = { s with fab := { s.fab with lanes := t.fab.lanes } }))

/-- WRITE_PACKET_RECEIVED, READ_PACKET_RECEIVED and READ_RESP_RECEIVED (R300, R309, R311, R312): the data of a WRITE, and of the answer to
an own READ, are placed in memory; memory that the job may not name is refused with status 1, and a poisoned WRITE counts; a
READ is answered with the bytes at its source, or refused. The ACK and the answer leave as sendAck and sendResp say. That a READ
whose lead and length exceed 4,096 bytes has status 1 is the model's choice (log 23). -/
def Obligations.DataPackets : Prop :=
  ∀ (k : LaneId) (p : Packet) (s : State),
    let s1 := s.credited k p
    let a := p.placed.1
    let bs := p.placed.2
    let others (t : State) : Prop := s.fabricOnly t ∧ ∀ d, { t.core d with cache := (s.core d).cache } = s.core d
    (s.Arrives k 0x1 p →
      (s.fabricOk p.jobTag a bs.length = false → ∃ t, exec (.writePacketReceived k p) s = .next t ∧ t.ms = s.ms ∧
        t.fab = (s1.sendAck p 1 false).fab ∧ others t ∧ t.ud = s.ud) ∧
      (s.fabricOk p.jobTag a bs.length = true → p.poison = false → s.ms.ue = [] → s.ms.soft = [] → s.ms.mem.wf 0 = true →
        ∃ t, exec (.writePacketReceived k p) s = .next t ∧ t.ms.mem = s.ms.mem.writeN 0 a bs ∧
          t.fab = (s1.sendAck p 0 false).fab ∧ others t) ∧
      (s.fabricOk p.jobTag a bs.length = true → p.poison = true → ∃ t, exec (.writePacketReceived k p) s = .next t ∧
        t.fab.poisonRx = satInc s.fab.poisonRx ∧ others t)) ∧
    (s.Arrives k 0x2 p →
      let dst := leAt p.payload 0 8 % 2 ^ 42
      let n := leAt p.payload 8 4
      (n = 0 ∨ 4096 < dst % 64 + n ∨ s.fabricOk p.jobTag p.addr n = false → ∃ t, exec (.readPacketReceived k p) s = .next t ∧
        t.ms = s.ms ∧ t.fab = (s1.sendAck p 1 false).fab ∧ others t ∧ t.ud = s.ud) ∧
      (0 < n → dst % 64 + n ≤ 4096 → s.fabricOk p.jobTag p.addr n = true → s.ms.soft = [] → ∃ t, exec (.readPacketReceived k p) s = .next t ∧
        t.ms.mem = s.ms.mem ∧ others t ∧ t.ud = s.ud ∧
        t.fab = (s1.sendResp (PacketFields.build
          { ty := 0x3, dst := p.srcDev, src := s.dev, srcCore := p.srcCore.toNat, jobTag := p.jobTag, addr := dst,
            tail := (dst % 64 + n) % 64, xid := p.xid, poison := s.ms.badRange p.addr n,
            payload := slice (List.replicate (dst % 64) 0 ++ s.view p.addr n) 0 (64 * ceilDiv (dst % 64 + n) 64) })).fab)) ∧
    (s.Arrives k 0x3 p →
      (s.fab.out.find? (fun r => r.xid == p.xid) = none → exec (.readRespReceived k p) s = .next s1) ∧
      (∀ r c m id, s.fab.out.find? (fun r => r.xid == p.xid) = some r → r.owner = .copy c m id → p.poison = false → s.ms.ue = [] → s.ms.soft = [] →
        s.ms.mem.wf 0 = true → ∃ t, exec (.readRespReceived k p) s = .next t ∧ t.ms.mem = s.ms.mem.writeN 0 a bs ∧ others t ∧
          t.fab = { s1.fab with out := s.fab.out.filter (fun x => x.xid != p.xid) }))

/-- SIGNAL_PACKET_RECEIVED, MSG_PACKET_RECEIVED and CREDIT_PACKET_RECEIVED (R38, R53, R309, R310): a SIGNAL of the core's job counts its
counter up, one of another job is counted as rejected; the first MSG for a queue with room enters it whole; both enter the
duplicate table and are acknowledged. One that was applied before is only acknowledged again, and counted. CREDIT writes
the mirror. -/
def Obligations.PacketsToCores : Prop :=
  ∀ (k : LaneId) (p : Packet) (s : State),
    let s1 := s.credited k p
    let c := p.dstCore
    let kept : Prop := s.fab.dupOf p = none ∧ s.locals = [] ∧ s.fab.dups.length < 4096
    let still (t : State) : Prop := s.fabricOnly t ∧ t.ms = s.ms ∧ t.ud = s.ud ∧ t.goose = s.goose
    (∀ d, (s.Arrives k 0x4 p ∨ s.Arrives k 0x5 p) → s.fab.dupOf p = some d →
      let i : Instr := if p.ty = 0x4 then .signalPacketReceived k p else .msgPacketReceived k p
      ∃ t, exec i s = .next t ∧ t.cores = s.cores ∧ t.locals = s.locals ∧ still t ∧
        t.fab = ((s1.modFab (fun f => { f with dupCount := satInc f.dupCount })).sendAck p d.status.toNat d.full).fab) ∧
    (s.Arrives k 0x4 p → kept → (s.core c).id.jobTag = p.jobTag → ∃ t, exec (.signalPacketReceived k p) s = .next t ∧
      t.core c = (s.core c).modSeq (fun q => { q with cc := ccAfter q.cc (BitVec.ofNat 8 p.counter) p.err }) ∧
      (∀ d, d ≠ c → t.core d = s.core d) ∧ still t ∧
      t.fab = ((s1.modFab (fun f => { f with dups := f.dups ++ [⟨p.srcDev, p.xid, 0, false⟩] })).sendAck p 0 false).fab) ∧
    (s.Arrives k 0x4 p → kept → (s.core c).id.jobTag ≠ p.jobTag → ∃ t, exec (.signalPacketReceived k p) s = .next t ∧
      t.core c = (s.core c).modErr (fun e => { e with remoteSigRej := satInc e.remoteSigRej }) ∧
      (∀ d, d ≠ c → t.core d = s.core d) ∧ still t) ∧
    (s.Arrives k 0x5 p → kept → (s.core c).id.jobTag = p.jobTag → p.payload.length = 64 * p.len →
      ((s.core c).queue p.queue).entries.length ≤ 24 → ((s.core c).queue p.queue).flushPending = false →
      ∃ t, exec (.msgPacketReceived k p) s = .next t ∧
        ((t.core c).queue p.queue).entries = ((s.core c).queue p.queue).entries ++ entriesOf p.srcDev p.srcCore.toNat p.payload ∧
        ((t.core c).queue p.queue).locked = false ∧ t.locals = [] ∧
        (∃ full, (p.srcDev, p.xid, full) ∈ t.fab.dups.map (fun d => (d.srcDev, d.xid, d.full)) ∧
          (full = true ↔ 24 < ((t.core c).queue p.queue).entries.length)) ∧
        (∀ d, d ≠ c → t.core d = s.core d) ∧ still t) ∧
    (s.Arrives k 0x7 p → ∃ t, exec (.creditPacketReceived k p) s = .next t ∧ t = { s1 with cores := t.cores } ∧
      (t.core c).msg.mirror = (s.core c).msg.mirror.map (fun m =>
        if m.dev = p.srcDev ∧ m.core.toNat = p.srcCore.toNat ∧ m.queue.toNat = p.queue then { m with full := p.full } else m) ∧
      (∀ d, d ≠ c → t.core d = s.core d))

/-- ACK_RECEIVED, NOTICE_RECEIVED, REQUEST_TIMEOUT and DUP_ENTRY_EXPIRY (R38, R306, R308 to R310): an ACK ends the request of its
XID, and a SEND signals, with ERR under any status but 0; an ACK of no request changes nothing, but that UNREACH enters its link
and the status of a SEND that has timed out counts as late; a request that times out, or whose ACK is UNREACH or BUSY, is resent under
its XID as a best-effort packet whose data is read again, with a new expiry and route, and counted, and one resent seven times fails, and is counted; a
notice enters or removes its link; an expired entry leaves the duplicate table.
The remembered failed message whose late status counts, and the UNREACH without a request that enters its link, are the model's
choice (log 117). -/
def Obligations.Answers : Prop :=
  ∀ (k : LaneId) (p : Packet) (xid : BitVec 32) (dev : DevId) (s : State),
    let s1 := s.credited k p
    let none_ (x : BitVec 32) : Prop := s.fab.out.find? (fun r => r.xid == x) = none
    let resent (v : State) (i : Instr) (r : OutReq) : Prop := ∀ (d : BitVec 4) (o : Nat),
      let z := ((v.modFab (fun f => { f with retx := satInc f.retx })).markResent r.owner).noteReload r
      let p := (((z.reload r).withClass false).withDir d).withExpiry s.time.ft
      let q := p.withVc (v.fab.vcFor s.dev.toNat p)
      let w := z.keepReq { r with resends := r.resends + 1, pkt := q }
      r.resends < 7 → v.fab.route s.dev.toNat r.pkt.dst.toNat = some d → nextTrunk s.dev.toNat p = some o → s.trunkUp o = true →
      q.xid = r.pkt.xid ∧ q.cls = false ∧ q.expire = (s.time.ft.toNat / 1024 + 48) % 65536 ∧
      (v.pickLane o q = none → s.trunkListens o = false → exec i s =
        .next { w with fab := { w.fab with waiting := s.fab.waiting ++ [⟨o, q, none, none⟩] } }) ∧
      (∀ j, v.pickLane o q = some j → s.fab.injEn = false → (s.lane j).reorder = [] → exec i s =
        .next (w.laneSend j q .bestEffort (some s.instant)))
    (s.Arrives k 0x6 p → none_ p.xid → p.status ≠ 4 → s.fab.failedMsgs.find? (fun f => f.1 == p.xid) = none →
      exec (.ackReceived k p) s = .next s1) ∧
    (s.Arrives k 0x6 p → none_ p.xid → p.status = 4 → s.fab.failedMsgs = [] → exec (.ackReceived k p) s =
      .next (s1.modFab (fun f => f.enterLink (BitVec.ofNat 14 p.addr) (p.addr / 16384 % 8) 1))) ∧
    (∀ c id, s.Arrives k 0x6 p → none_ p.xid → p.status ≤ 3 → c < 8 → s.fab.failedMsgs = [(p.xid, c, id)] →
      (s.core c).msg.sends.find? (fun x => x.id == id) = none → ∃ t, exec (.ackReceived k p) s = .next t ∧ t.fab.failedMsgs = [] ∧
        t.core c = (s.core c).modMsg (fun m => { m with lateStatus := satInc m.lateStatus }) ∧ (∀ d, d ≠ c → t.core d = s.core d) ∧
        t.ms = s.ms ∧ s.fabricOnly t) ∧
    (∀ r c id q, s.Arrives k 0x6 p → s.fab.out.find? (fun r => r.xid == p.xid) = some r → r.owner = .msg c id → c < 8 →
      p.status ≤ 3 → (s.core c).msg.sends.find? (fun x => x.id == id) = some q → q.sched = false →
      ∃ t, exec (.ackReceived k p) s = .next t ∧ t.fab = { s1.fab with out := s.fab.out.filter (fun x => x.xid != p.xid) } ∧
        (t.core c).msg.sends = (s.core c).msg.sends.filter (fun x => x.id != id) ∧
        (t.core c).seq.cc = ccAfter (s.core c).seq.cc q.sigcc (p.status != 0) ∧ (∀ d, d ≠ c → t.core d = s.core d) ∧
        t.ms = s.ms ∧ s.fabricOnly t) ∧
    (∀ r, s.Arrives k 0x6 p → s.fab.out.find? (fun r => r.xid == p.xid) = some r → r.owner = .signal → r.resends = 7 →
      p.status = 5 → ∃ t, exec (.ackReceived k p) s = .next t ∧
        t.fab = { s1.fab with out := s.fab.out.filter (fun x => x.xid != p.xid), failed := satInc s.fab.failed } ∧
        t.cores = s.cores ∧ t.ms = s.ms ∧ s.fabricOnly t) ∧
    (∀ r, s.Arrives k 0x6 p → s.fab.out.find? (fun r => r.xid == p.xid) = some r → p.status = 4 ∨ p.status = 5 →
      resent (if p.status = 4 then s1.modFab (fun f => f.enterLink (BitVec.ofNat 14 p.addr) (p.addr / 16384 % 8) 1) else s1)
        (.ackReceived k p) r) ∧
    (let w := leAt p.payload 0 4
     let link : DevId := BitVec.ofNat 14 w
     let trunk := w / 16384 % 8
     s.Arrives k 0x8 p → ∃ t, exec (.noticeReceived k p) s = .next t ∧ t.fab.noticesRecv = satInc s.fab.noticesRecv ∧
       (p.payload.getD 4 0 = 0 → t.fab.fmap = s.fab.fmap.filter (fun e => !(e.2.dev == link && e.2.trunk.toNat == trunk))) ∧
       (p.payload.getD 4 0 ≠ 0 → (∃ e ∈ t.fab.fmap, e.2.dev = link ∧ e.2.trunk.toNat = trunk) ∨ t.fab.fmapOvf = true) ∧
       t.cores = s.cores ∧ t.ms = s.ms ∧ s.fabricOnly t) ∧
    (none_ xid → s.fab.sched.any (fun x => x.xid == xid) = false → exec (.requestTimeout xid) s = .next s) ∧
    (∀ r, s.Calm → s.NoCopies → s.fab.noticeQ = [] → s.fab.sched = [] → s.fab.waiting = [] →
      s.fab.out.find? (fun r => r.xid == xid) = some r → resent s (.requestTimeout xid) r) ∧
    (∀ r, s.Calm → s.NoCopies → s.fab.noticeQ = [] → s.fab.sched = [] → s.fab.waiting = [] →
      s.fab.out.find? (fun r => r.xid == xid) = some r → r.resends = 7 → r.owner = .notice →
      exec (.requestTimeout xid) s = .next { s with fab := { s.fab with
        out := s.fab.out.filter (fun x => x.xid != r.xid), failed := satInc s.fab.failed } }) ∧
    (s.stopped = false → exec (.dupEntryExpiry dev xid) s = .next { s with fab := { s.fab with
      dups := s.fab.dups.filter (fun d => !(d.srcDev == dev && d.xid == xid)) } })

/-- PACKET_HOP (R302, R304, R306, R314): a header that fails its checks is discarded and counted, as is an expired packet, their
credits returned; a packet for another module leaves on the trunk of the first dimension in which its coordinate differs, with
HOPS counted up and its header sealed again, or waits for that trunk; on a trunk without an UP or listening lane it is
counted and its source told by an ACK UNREACH. A lane that is not UP takes no packet but hellos, and counts a bad header when it
has frame lock; a stopped module takes none. One that fault injection drops (R314) only gives its credits back. That a listening
lane counts as carrying its trunk (log 48), that a bad header gives back the credits its own LEN and VC name (log 49) and the mark
under which a packet to be dropped travels (log 150) are the model's choices. -/
def Obligations.PacketHops : Prop :=
  ∀ (k : LaneId) (p : Packet) (s : State),
    let s1 := s.credited k p
    let live : Prop := (s.lane k).state = .up ∧ s.stopped = false ∧ s.fab.coordValid = true ∧ p.ty ≠ 0xB ∧ p.cls = false
    ((s.lane k).state.locked = false ∨ s.stopped = true → exec (.packetHop k p) s = .next s) ∧
    ((s.lane k).state ≠ .up → s.headerBad p = false → p.ty ≠ 0xB → exec (.packetHop k p) s = .next s) ∧
    ((s.lane k).state ≠ .up → (s.lane k).state.locked = true → s.stopped = false → s.headerBad p = true → exec (.packetHop k p) s =
      .next (s.modFab (fun f => { f with hdrErr := satInc f.hdrErr }))) ∧
    (live → s.headerBad p = true → exec (.packetHop k p) s =
      .next (s1.modFab (fun f => { f with hdrErr := satInc f.hdrErr }))) ∧
    (live → s.headerBad p = false → p.ty ≠ 0 → p.ty ≠ 0xF → p.dropped = true → exec (.packetHop k p) s = .next s1) ∧
    (live → s.headerBad p = false → p.ty ≠ 0 → p.ty ≠ 0xF → p.dropped = false → p.expiredAt s.now = true → exec (.packetHop k p) s =
      .next (s1.modFab (fun f => { f with expired := satInc f.expired }))) ∧
    (∀ t, live → s.headerBad p = false → p.dropped = false → p.ty ≠ 0 → p.ty ≠ 0xA → p.ty ≠ 0xF → p.expiredAt s.now = false → p.dst ≠ s.dev →
      p.pcrcOk = true → nextTrunk s.dev.toNat p = some t →
      let q : Packet := { p with w3 := setFld p.w3 32 6 (p.hops + 1) }.sealed
      let v := q.withVc (s.fab.vcFor s.dev.toNat q)
      ((s.trunkUp t = true ∨ s.trunkListens t = true) → exec (.packetHop k p) s = .next (s.queueTrunk t v (some (k.val, p.vc)) none)) ∧
      (s.trunkUp t = false → s.trunkListens t = false → exec (.packetHop k p) s =
        .next (((s.returnCredits (some (k.val, p.vc)) q).modFab (fun f => { f with unreach := satInc f.unreach })).sendUnreach q t)))

/-- LANE_FRAME_RECEIVED, ABORT_BLOCK_RECEIVED and REORDER_HOLD_EXPIRY (R290 to R294, R296, R314, R339): a lane frame with an uncorrectable
wavelength asks for a replay and is counted; a frame in order gives its credits, its acknowledgement and its bytes, IDLE blocks and
the start of one block here, and becomes the last one received; one out of order gives no bytes; NAK replays the frames that
are not acknowledged, once for each acknowledgement and again when it still shows after 832 ns, and the lane is busy meanwhile. An ABORT discards the partial packet, and ends it on the lane that forwards it; a packet held for reordering
leaves once its lane may take it. A frame of λ0 alone gives its number only, and one of full width gives a listening lane its number and data, but no
credits. A lane in any other state takes no frame, and a block that is no ABORT block changes nothing.
The numbers of frames (log 112), the pattern of fill and ABORT blocks (log 113), the moment at which a cut packet leaves (log
51), when a held packet that is due may leave (log 144), how often a NAK is answered and what a listening lane takes of a full
frame (log 151) are the model's choices. -/
def Obligations.LaneFrames : Prop :=
  ∀ (k : LaneId) (seq : BitVec 16) (alone : Bool) (first : BitVec 2048) (next : Vector (BitVec 2048) 3) (others : List (BitVec 2048))
      (block : Vector Byte 32) (s : State), s.Calm →
    let frames := waveFrames alone first next others
    let frame : Instr := .laneFrameReceived k seq alone first next others
    let aborts : Prop := block.toList = abortBlock
    let l := s.lane k
    let ws := readWaves frames
    let ctl := controlOf ws
    let good : Prop := ws.any (·.bad) = false
    let raw := l.rxRaw ++ ws.flatMap (·.data)
    let acked := l.retry.filter (fun f => decide (32768 ≤ (fld ctl 44 16 - f.seq).toNat))
    let again : Prop := ∀ x a, l.replayed = some (x, a) → x ≠ fld ctl 44 16 ∨ a + 832 * laneUnit ≤ s.instant
    (l.state.locked = false → l.state ≠ .listen → exec frame s = .next s) ∧
    (l.state = .up → alone = true → l.badFrames.length = 0 → ∃ t, exec frame s = .next t ∧
      t = s.modLane k (fun l => { l with corr := satAdd l.corr (ws.filter (·.fixed)).length, uncorr := satAdd l.uncorr (ws.filter (·.bad)).length,
                                         rxSync := !ws.any (·.bad), rxSeq := if ws.any (·.bad) then l.rxSeq else seq,
                                         badFrames := if ws.any (·.bad) then [(0, s.time.ft)] else [] })) ∧
    (l.state = .up → alone = false → ¬ good → l.badFrames.length + frames.length < 16 → ∃ t, exec frame s = .next t ∧
      (t.lane k).nak = true ∧ (t.lane k).corr = satAdd l.corr (ws.filter (·.fixed)).length ∧
      (t.lane k).uncorr = satAdd l.uncorr (ws.filter (·.bad)).length ∧ (t.lane k).rxSeq = (if l.rxSync then l.rxSeq else seq - 1) ∧
      (t.lane k).rxSync = true ∧ (t.lane k).rxRaw = l.rxRaw ∧ (t.lane k).rxBytes = l.rxBytes ∧ (t.lane k).retry = l.retry ∧ (t.lane k).credits = l.credits ∧ (∀ j, j ≠ k.val → t.lane j = s.lane j) ∧
      t = { s with fab := { s.fab with lanes := t.fab.lanes } }) ∧
    (l.state = .up → alone = false → good → bitB ctl 60 = false → s.fab.waiting = [] → seq = l.rxSeq + 1 →
      (∀ b ∈ blocksOf (raw.length / 32) raw, b = idleBlock) → ∃ t, exec frame s = .next t ∧
        (t.lane k).rxSeq = seq ∧ (t.lane k).rxRaw = raw.drop (32 * (raw.length / 32)) ∧ (t.lane k).rxBytes = l.rxBytes ∧
        (t.lane k).nak = false ∧ (t.lane k).corr = satAdd l.corr (ws.filter (·.fixed)).length ∧ (t.lane k).uncorr = satAdd l.uncorr 0 ∧
        (t.lane k).crSeen = #v[fld ctl 0 11, fld ctl 11 11, fld ctl 22 11, fld ctl 33 11] ∧
        (∀ i, i < 4 → (t.lane k).credits.getD i 0 = l.credits.getD i 0 + (fld ctl (11 * i) 11 - l.crSeen.getD i 0).toNat) ∧
        (t.lane k).retry = acked ∧ (∀ j, j ≠ k.val → t.lane j = s.lane j) ∧ t = { s with fab := { s.fab with lanes := t.fab.lanes } }) ∧
    (l.state = .up → alone = false → good → bitB ctl 60 = false → s.fab.waiting = [] → l.rxSync = true → seq ≠ l.rxSeq + 1 → l.rxRaw.length < 32 →
      ∃ t, exec frame s = .next t ∧ (t.lane k).rxSeq = l.rxSeq ∧ (t.lane k).rxRaw = l.rxRaw ∧
        (t.lane k).rxBytes = l.rxBytes ∧ (t.lane k).retry = acked ∧ t = { s with fab := { s.fab with lanes := t.fab.lanes } }) ∧
    (l.state = .up → alone = false → good → bitB ctl 60 = true → again → (∀ f ∈ l.retry, f.replays < 8) → s.fab.waiting = [] → l.rxSync = true →
      seq ≠ l.rxSeq + 1 → l.rxRaw.length < 32 → ∃ t, exec frame s = .next t ∧
        (t.lane k).replays = satAdd l.replays acked.length ∧
        (t.lane k).retry = acked.map (fun f => { f with replays := f.replays + 1, flips := none }) ∧ (t.lane k).state = .up ∧
        (t.lane k).busyUntil = max s.instant l.busyUntil + 64 * laneUnit * acked.length / 5 ∧
        (t.lane k).replayed = some (fld ctl 44 16, s.instant) ∧
        t = { s with fab := { s.fab with lanes := t.fab.lanes } }) ∧
    (l.state = .up → alone = false → good → bitB ctl 60 = true → ¬ again → s.fab.waiting = [] → l.rxSync = true →
      seq ≠ l.rxSeq + 1 → l.rxRaw.length < 32 → ∃ t, exec frame s = .next t ∧ (t.lane k).replays = l.replays ∧
        (t.lane k).retry = acked ∧ (t.lane k).busyUntil = l.busyUntil ∧ (t.lane k).state = .up ∧
        t = { s with fab := { s.fab with lanes := t.fab.lanes } }) ∧
    (l.state = .listen → alone = false → good → bitB ctl 61 = false → l.rxRaw = [] → seq = l.rxSeq + 1 →
      (∀ b ∈ blocksOf (raw.length / 32) raw, b = idleBlock) → ∃ t, exec frame s = .next t ∧ (t.lane k).state = .listen ∧
        (t.lane k).rxSeq = seq ∧ (t.lane k).rxRaw = raw.drop (32 * (raw.length / 32)) ∧ (t.lane k).retry = l.retry ∧
        (t.lane k).credits = l.credits ∧ (∀ j, j ≠ k.val → t.lane j = s.lane j) ∧
        t = { s with fab := { s.fab with lanes := t.fab.lanes } }) ∧
    (l.state ≠ .up ∨ ¬ aborts → exec (.abortBlockReceived k block) s = .next s) ∧
    (l.state = .up → aborts → l.rxBytes = [] → exec (.abortBlockReceived k block) s = .next (s.modLane k (fun l => { l with cut := none }))) ∧
    (let p := Packet.ofBytes l.rxBytes
     l.state = .up → aborts → l.rxBytes ≠ [] → l.cut = none → exec (.abortBlockReceived k block) s =
       .next ((s.modLane k (fun l => { l with rxBytes := [] })).returnCredits (p.inLane k) p)) ∧
    (∀ j, l.state = .up → aborts → l.rxBytes ≠ [] → l.cut = some (.onto j) → j < 64 → j ≠ k.val → (s.lane j).state = .up →
      (s.lane j).cutFrom = some k.val → s.fab.waiting = [] → ∃ t, exec (.abortBlockReceived k block) s = .next t ∧
        (t.lane k).rxBytes = [] ∧ (t.lane k).cut = none ∧ (t.lane j).cutFrom = none ∧ (t.lane j).aborts = (s.lane j).aborts + 1 ∧
        (t.lane j).sent = (s.lane j).sent ∧ (∀ i, i ≠ k.val → i ≠ j → t.lane i = s.lane i) ∧
        t = { s with fab := { s.fab with lanes := t.fab.lanes } }) ∧
    (l.reorder = [] → exec (.reorderHoldExpiry k) s = .next s) ∧
    (∀ h, l.reorder = [h] → h.from_ = .bestEffort → h.sp.pkt.cls = false → l.cutFrom ≠ none ∨ s.laneOpen k h.sp.pkt = false →
      exec (.reorderHoldExpiry k) s = .next (s.modLane k (fun l => { l with reorder := [{ h with due := true }] }))) ∧
    (∀ h, l.reorder = [h] → h.from_ = .bestEffort → h.sp.pkt.cls = false → h.sp.pkt.ty ≠ 0xA → l.cutFrom = none →
      s.laneOpen k h.sp.pkt = true → ∃ t, exec (.reorderHoldExpiry k) s = .next t ∧
      (t.lane k).reorder = [] ∧ (t.lane k).sent = l.sent ++ [h.sp] ∧ (t.lane k).credits = l.credits ∧
      (∀ j, j ≠ k.val → t.lane j = s.lane j) ∧ t = { s with fab := { s.fab with lanes := t.fab.lanes } })

/-- TIME_PACKET_TIMER, TIME_PACKET_RECEIVED, UPSTREAM_STALE and HOLDOVER_ALIGN_EXPIRY (R318, R325, R326, R328): an UP lane with credits
sends its next TIME packet at fabric time, one without waits for them; a received one is what the lane knows of its far end, and
on the upstream lane of a follower it gives DIST, SOURCE_DEV, the time of day and, when it answers one of this module's packets of
the last 500 µs, the offset and the rate word of the servo; a stale upstream means holdover at HOLD_RATE; the expiry takes
ALIGNED away. That TIME packets need valid coordinates, that steps are truncated and that a stale upstream ends the run of good
measurements (log 56), and that an echo of any packet of the last 500 µs measures (log 118), are the model's choices. -/
def Obligations.FabricTime : Prop :=
  ∀ (k : LaneId) (p : List Byte) (s : State), s.Calm →
    let l := s.lane k
    let t := s.time
    let far : FarTime :=
      { seen := true, seq := BitVec.ofNat 16 (leAt p 0xA 2), rxFt := t.ft, rxFrac := t.frac,
        sourceDev := BitVec.ofNat 14 (leAt p 0x18 2), dist := p.getD 0x1A 0, locked := (p.getD 0x1B 0).getLsbD 0,
        source := (p.getD 0x1B 0).getLsbD 1, todValid := (p.getD 0x1B 0).getLsbD 2, tod := BitVec.ofNat 64 (leAt p 0x20 8),
        upstream := (p.getD 0x1B 0).getLsbD 3 }
    let echo (m : TimeMark) : Bool := m.seq.toNat == leAt p 0xC 2 && decide ((t.ft - m.ft).toNat ≤ 500000)
    let mark := l.marks.find? echo
    let at_ (ft : BitVec 64) (frac : BitVec 16) : Int := ft.toInt * 65536 + frac.toNat
    let a1 (m : TimeMark) := at_ m.ft m.frac
    let b1 := at_ (BitVec.ofNat 64 (leAt p 0x10 8)) (BitVec.ofNat 16 (leAt p 0xE 2))
    let b2 := at_ (BitVec.ofNat 64 (leAt p 0 8)) (BitVec.ofNat 16 (leAt p 8 2))
    let a2 := at_ t.ft t.frac
    let off (m : TimeMark) := ((a1 m - b1) + (a2 - b2)).tdiv 2
    let clamp (r : Int) : Int := max (-100000) (min 100000 r)
    let integ (o : Int) := clamp (t.integ + (o * 125).tdiv 65536)
    let due (j : Nat) : Lane := { s.lane j with timeDue := (s.lane j).state == .up }
    (s.fab.coordValid = false → ∃ u, exec .timePacketTimer s = .next u ∧ (∀ j, j < 64 → u.lane j = due j) ∧
      u = { s with fab := { s.fab with lanes := u.fab.lanes } }) ∧
    (s.fab.coordValid = true → t.schedEn = false → (∀ j, j < 64 → (s.lane j).reorder = []) → ∃ u, exec .timePacketTimer s = .next u ∧
      (∀ j, j < 64 → (s.lane j).state = .up → (s.lane j).freeAt s.instant = true → (∀ i, i < 4 → 2 ≤ (s.lane j).credits.getD i 0) →
        (u.lane j).timeSeq = (s.lane j).timeSeq + 1 ∧ (u.lane j).marks.head? = some ⟨(s.lane j).timeSeq + 1, t.ft, t.frac⟩ ∧
        (u.lane j).timeDue = false ∧ (u.lane j).state = .up) ∧
      (∀ j, j < 64 → (s.lane j).state = .up → (∀ i, i < 4 → (s.lane j).credits.getD i 0 < 2) → u.lane j = due j) ∧
      (∀ j, j < 64 → (s.lane j).state ≠ .up → u.lane j = due j) ∧ u = { s with fab := { s.fab with lanes := u.fab.lanes } }) ∧
    (l.state ≠ .up ∨ s.fab.coordValid = false → exec (.timePacketReceived k p) s = .next s) ∧
    (l.state = .up → s.fab.coordValid = true → t.mayFollow = false → t.hasUp = false → t.roleSource = true → t.aligned = true →
      exec (.timePacketReceived k p) s = .next (s.modLane k (fun l =>
        { l with far := far, measFt := if mark.isSome then t.ft else l.measFt }))) ∧
    (l.state = .up → s.fab.coordValid = true → (∀ j, j < 64 → j ≠ k.val → (s.lane j).state ≠ .up) → t.srcMode = 1 → t.hasUp = true →
      8 * t.upTrunk.toNat + t.upLane.toNat = k.val → far.dist.toNat < 31 →
      ∃ u, exec (.timePacketReceived k p) s = .next u ∧ (u.lane k).far = far ∧ (∀ j, j ≠ k.val → u.lane j = s.lane j) ∧
        u.time.dist = BitVec.ofNat 5 (far.dist.toNat + 1) ∧ u.time.sourceDev = far.sourceDev ∧ u.time.todOffset = far.tod ∧
        u.time.todValid = far.todValid ∧ u.ms = s.ms ∧ u.cores = s.cores ∧ u.eth = s.eth ∧
        (mark = none → u.time.ft = t.ft ∧ u.time.rateAdj = t.rateAdj ∧ u.time.locked = t.locked) ∧
        (∀ m, mark = some m → let o := off m; u.time.linkOffset = satInt 32 (o.tdiv 4096) ∧
          (o.natAbs < 1000 * 65536 → u.time.ft = t.ft ∧
            u.time.rateAdj = BitVec.ofInt 32 (-(clamp ((o * 1000).tdiv 65536 + integ o))) ∧
            u.time.good = (if o.natAbs ≤ 65536 then t.good + 1 else 0) ∧ u.time.holdover = false) ∧
          (1000 * 65536 ≤ o.natAbs → u.time.steps = satInc t.steps ∧ u.time.locked = false ∧
            (o < 0 → at_ u.time.ft u.time.frac % 2 ^ 80 = (at_ t.ft t.frac - o) % 2 ^ 80) ∧
            (0 < o → u.time.ft = t.ft ∧ u.time.hold = t.hold + o.toNat)))) ∧
    (t.hasUp = false → exec .upstreamStale s = .next s) ∧
    (t.hasUp = true → t.roleSource = false → exec .upstreamStale s = .next { s with time :=
      { t with locked := false, good := 0, holdover := true, rateAdj := BitVec.ofInt 32 (clamp t.holdRate.toInt) } }) ∧
    (t.holdover = false ∨ t.roleSource = true ∨ t.aligned = false → exec .holdoverAlignExpiry s = .next s) ∧
    (t.holdover = true → t.roleSource = false → t.aligned = true → ∃ u, exec .holdoverAlignExpiry s = .next u ∧
      u = { s with time := { t with aligned := false }, goose := u.goose })

/-- PPS_EDGE and PPS_MISSING (R319, R321 to R324): a module that is no pulse source, or has the input disabled, ignores edges; an
edge less than 0.9 s after the last is counted as rejected; an error below 1 ms is taken up by the rate word, a larger one
by a step of FT, in whose new scale the edge is kept, and which waits while a job is loaded. Each accepted edge makes the module an aligned source. A pulse that stays
away is counted, and takes PPS_LOCK. That a deferred edge gives LAST_ERR and takes PPS_LOCK, and that LAST_EDGE follows the
step, are the model's choice (log 119). -/
def Obligations.Pulse : Prop :=
  ∀ (capt : BitVec 64) (s : State), s.Calm →
    let t := s.time
    let e : Int := ((capt.toNat : Int) - t.ppsComp.toInt + 500000000) % 1000000000 - 500000000
    let early : Prop := t.edgeSeen = true ∧ (capt - t.lastEdge).toNat < 900000000
    let waits : Prop := t.stepDeferred = true ∧ s.anyJob = true
    let still (u : State) : Prop := u.ms = s.ms ∧ u.cores = s.cores ∧ u.fab = s.fab ∧ u.eth = s.eth ∧ u.pwr = s.pwr ∧ u.parts = s.parts
    let taken (u : State) (last : BitVec 64) : Prop := u.time.lastEdge = last ∧ u.time.edgeSeen = true ∧ u.time.lastErr = BitVec.ofInt 32 e ∧
      u.time.ppsMissing = false ∧ u.time.holdover = false ∧ u.time.roleSource = true ∧ u.time.dist = 0 ∧ u.time.sourceDev = s.dev ∧
      u.time.aligned = true ∧ u.time.stepDeferred = false ∧ u.time.goodEdges = (if e.natAbs ≤ 20 then t.goodEdges + 1 else 0)
    let edge : State := { s with pins := { s.pins with pps := true } }
    (t.srcMode ≠ 0 ∨ t.ppsEn = false → exec (.ppsEdge capt) s = .next edge) ∧
    (t.srcMode = 0 → t.ppsEn = true →
      (waits → exec (.ppsEdge capt) s = .next edge) ∧
      (¬ waits → early → exec (.ppsEdge capt) s = .next { edge with time := { t with reject := satInc t.reject } }) ∧
      (¬ waits → ¬ early → e.natAbs < 1000000 → ∃ u, exec (.ppsEdge capt) s = .next u ∧ taken u capt ∧ u.time.ft = t.ft ∧
        u.time.steps = t.steps ∧ still u) ∧
      (¬ waits → ¬ early → 1000000 ≤ e.natAbs → s.anyJob = true → exec (.ppsEdge capt) s =
        .next ({ edge with time := { t with stepDeferred := true, lastErr := BitVec.ofInt 32 e, ppsLock := false, goodEdges := 0 } }.log
          { source := 0x03, code := 0x02, detail := [((BitVec.ofInt 32 e).toNat, 4)] })) ∧
      (¬ early → 1000000 ≤ e.natAbs → s.anyJob = false → ∃ u, exec (.ppsEdge capt) s = .next u ∧ taken u (capt - BitVec.ofInt 64 e) ∧ still u ∧
        u.time.steps = satInc t.steps ∧ (e < 0 → u.time.ft = t.ft + BitVec.ofNat 64 (-e).toNat) ∧
        (0 < e → u.time.ft = t.ft ∧ u.time.hold = t.hold + 65536 * e.toNat))) ∧
    (t.srcMode ≠ 0 ∨ t.ppsMissing = true → exec .ppsMissing s = .next s) ∧
    (t.srcMode = 0 → t.ppsMissing = false → ∃ u, exec .ppsMissing s = .next u ∧ u.time.ppsMissing = true ∧
      u.time.missing = satInc t.missing ∧ u.time.ppsLock = false ∧ u.time.goodEdges = 0 ∧ 
      u.time.rateAdj = BitVec.ofInt 32 (max (-100000) (min 100000 t.holdRate.toInt)) ∧
      u.time.ft = t.ft ∧ still u)

/-- SLOT_ENTRY_WRITE and SCHEDULED_PACKET_SEND (R331, R334, R337, R338, R341): an entry is written while the tables are not enabled,
and otherwise sets BAD_WRITE alone; a ready scheduled packet leaves on the lane that carries its tag earliest, when no packet
of its tag and trunk goes before it and its limit has not passed; one that finds its module not aligned, its table not in force, no
lane that carries its tag or no start before its limit falls back under causes 3, 4, 1 and 2: it is counted and recorded, its operation
keeps the first cause and the number, and its open request goes on as a best-effort packet with CLASS 0, a new VC, EXPIRE and
HCRC, on a lane or behind those that wait for its trunk; an XID that is not ready changes nothing. That cause 1 means that no lane
carries the tag now or later is the model's choice (log 53), as is the instant from which a lane is busy (log 144). -/
def Obligations.ScheduledClass : Prop :=
  ∀ (hi : Bool) (v : Reg) (xid : BitVec 32) (s : State),
    let t := s.time
    let key := 8192 * t.selTrunk.toNat + t.selSlot.toNat
    let row : Instr := .scheduledPacketSend xid
    (t.schedEn = true → exec (.slotEntryWrite hi v) s = .next { s with time := { t with slotBad := true } }) ∧
    (t.schedEn = false → ∃ u, exec (.slotEntryWrite hi v) s = .next u ∧ u = { s with time := { t with slots := u.time.slots } } ∧
      fld (tabGet u.time.slots key 0) (if hi then 64 else 0) 64 = v ∧
      fld (tabGet u.time.slots key 0) (if hi then 0 else 64) 64 = fld (tabGet t.slots key 0) (if hi then 0 else 64) 64 ∧
      ∀ j, j ≠ key → tabGet u.time.slots j 0 = tabGet t.slots j 0) ∧
    (s.stopped = true ∨ s.fab.sched.find? (fun x => x.xid == xid) = none → exec row s = .next s) ∧
    (∀ x, s.stopped = false → s.fab.sched = [x] → x.xid = xid →
      let g := x.pkt.tag.toNat
      let ok := t.aligned && s.tableOk x.pkt.jobTag
      let now := s.schedLane x.trunk g x.pkt.size
      let held (k : Nat) : Prop := k ∈ trunkLanes x.trunk ∧ (s.lane k).state = .up ∧ t.carries k g = true
      let never : Prop := (now = none ∨ x.limit ≤ t.ft) ∧ s.schedLater x.trunk g x.pkt.size x.limit.toNat = false
      (∀ k, ok = true → now = some k → t.ft < x.limit → x.pkt.cls = true → s.fab.injEn = false →
        (s.lane k).reorder = [] → ∃ u, exec row s = .next u ∧ u.fab.sched = [] ∧
          (u.lane k).sent = (s.lane k).sent ++ [⟨x.pkt, {}⟩] ∧ (u.lane k).credits = (s.lane k).credits ∧
          (u.lane k).busyUntil = max s.instant (s.lane k).busyUntil + laneTime x.pkt.size (popcount (s.lane k).txMask) ∧
          (∀ j, j ≠ k → u.lane j = s.lane j) ∧ u.fab.out = s.fab.out ∧ u = { s with fab := u.fab }) ∧
      (∀ cause, (t.aligned = false ∧ cause = 3) ∨ (t.aligned = true ∧ s.tableOk x.pkt.jobTag = false ∧ cause = 4) ∨
          (ok = true ∧ never ∧ (∀ k, ¬ held k) ∧ cause = 1) ∨ (ok = true ∧ never ∧ (∃ k, held k) ∧ cause = 2) →
        let noted : State := { s with
          fab := { s.fab with sched := [] }
          time := { t with fallback := satInc t.fallback, slTag := x.pkt.tag, slTrunk := BitVec.ofNat 3 x.trunk,
                           slCore := BitVec.ofNat 3 x.core, slCause := BitVec.ofNat 3 cause, slTransit := false,
                           slOverwritten := t.slValid || t.slOverwritten, slValid := true } }
        ∀ (r : OutReq) (d : BitVec 4) (o : Nat) (y : State), s.fab.out.find? (fun r => r.xid == xid) = some r →
          (∀ c m id, r.owner = .copy c m id → y = noted.modRun c (muleUnit m) id (fun e =>
            { e with fellBack := e.fellBack + 1, fbCause := if e.fellBack = 0 then cause else e.fbCause })) →
          (∀ c id, r.owner = .msg c id → y = noted.modCore c (fun k => k.modMsg (fun m => { m with sends := m.sends.map (fun e =>
            if e.id = id then { e with fellBack := e.fellBack + 1, fbCause := if e.fellBack = 0 then cause else e.fbCause } else e) }))) →
          ((∃ c m id, r.owner = .copy c m id) ∨ (∃ c id, r.owner = .msg c id)) →
          s.fab.route s.dev.toNat r.pkt.dst.toNat = some d →
          let p := (((y.reload r).withClass false).withDir d).withExpiry t.ft
          let q := p.withVc (s.fab.vcFor s.dev.toNat p)
          let w := y.keepReq { r with pkt := q }
          nextTrunk s.dev.toNat p = some o → s.trunkUp o = true →
          q.cls = false ∧ q.expire = (t.ft.toNat / 1024 + 48) % 65536 ∧ q.vc = s.fab.vcFor s.dev.toNat p % 2 ∧ q.hcrcOk = true ∧
          (∀ k, s.pickLane o q = some k → exec row s = .next (w.laneSend k q .bestEffort (some s.instant))) ∧
          (s.pickLane o q = none → s.trunkListens o = false → exec row s = .next
            { w with fab := { w.fab with waiting := s.fab.waiting ++ [⟨o, q, none, none⟩] } })))

/-- ETH_FRAME_DISCARD, ARP_REQUEST, NEIGHBOUR_SOLICITATION, ICMP_ECHO, PFC_FRAME_RECEIVED, ETH_LINK_LOSS and ETH_LINK_UP (R343, R344, R360,
R361, R379): counts and answers, with the port's own MAC address and the configured VLAN tag, to frames of 64 to 9,216 bytes of a port whose
link is up, nothing on one that is down or
during a stop; a pause of the configured priority holds what its QPs send, and its end releases it; a lost link clears what it
locked, and one comes up only with a standing configuration, outside recovery and while it is not held down. The checks made on
the row's operands and the frame that changes FEC counts alone (log 120), the groups that a port's services use (log 153), the
rows that a stop leaves without effect (log 127) and the sends that a paused port holds (log 89) are the model's choices. -/
def Obligations.EthernetPorts : Prop :=
  ∀ (p : PortId) (f : EthFrame) (v6 pause : Bool) (mac : BitVec 48) (i4 t4 : BitVec 32) (i6 t6 : BitVec 128) (body : List Byte)
    (prio : BitVec 3) (s : State),
    let e := s.eth.ports.getD p {}
    let with_ (f : EthPort → EthPort) : State := { s with eth := { s.eth with ports := vmod s.eth.ports p f } }
    let own4 := s.ip4 p
    let own6 := s.ip6 p
    let hw := s.macOf p
    let tag := s.vlanTag
    let echo := 22 + 4 * b2n tag.isSome + (if v6 then 40 else 20) + body.length
    let fec (e : EthPort) : EthPort := { e with fecCorr := satAdd e.fecCorr f.fecCorr, fecUncorr := satAdd e.fecUncorr f.fecUncorr }
    let freed (x : State) : State := { x with eth := { x.eth with qps := x.eth.qps.map (fun q =>
      if q.port = p.val then { q with out := q.out ++ q.held, held := [] } else q) } }
    (e.linkUp = false ∨ s.stopped = true → ∀ i ∈ [Instr.ethFrameDiscard p f, .arpRequest p mac i4 t4, .neighbourSolicitation p mac i6 t6,
      .icmpEcho p v6 mac i6 t6 body, .pfcFrameReceived p prio pause], exec i s = .next s) ∧
    (e.linkUp = true → s.stopped = false →
      (f.badFcs = true → exec (.ethFrameDiscard p f) s = .next (with_ (fun e => { fec e with fcsErr := satInc e.fcsErr }))) ∧
      (f.badFcs = false → f.bytes < 64 ∨ 9216 < f.bytes → exec (.ethFrameDiscard p f) s = .next (with_ fec)) ∧
      (f.badFcs = false → 64 ≤ f.bytes → f.bytes ≤ 9216 → ((f.mac ≠ hw ∧ f.mac ∉ s.groupMacs p f) ∨ 2 ≤ f.vlans.length ∨
          (∃ d, f.net = .ip4 d true) ∨ (∃ d, f.net = .ip6 d true) ∨
          (∃ d, f.net = .ip4 d false ∧ d ≠ own4 ∧ (p.val ≠ 0 ∨ d ∉ [(0xE0000181 : BitVec 32), 0xE000006B])) ∨
          (∃ d, f.net = .ip6 d false ∧ d ≠ own6 ∧ d.toNat / 2 ^ 120 ≠ 0xFF)) →
        exec (.ethFrameDiscard p f) s = .next (with_ (fun e => { fec e with dropOther := satInc e.dropOther }))) ∧
      (f.badFcs = false → f.mac = hw → f.vlans = [] → (f.net = .ip4 own4 false ∨ f.net = .ip6 own6 false) → f.udp = none →
        exec (.ethFrameDiscard p f) s = .next (with_ fec)) ∧
      exec (.arpRequest p mac i4 t4) s = .next (if t4 = own4 then with_ (fun e => { e with answers := e.answers ++ [(tag, .arp hw mac i4)] }) else s) ∧
      exec (.neighbourSolicitation p mac i6 t6) s =
        .next (if t6 = own6 then with_ (fun e => { e with answers := e.answers ++ [(tag, .neighbour hw mac i6)] }) else s) ∧
      (9216 < echo → exec (.icmpEcho p v6 mac i6 t6 body) s = .next s) ∧
      (echo ≤ 9216 → exec (.icmpEcho p v6 mac i6 t6 body) s = .next (if t6 = (if v6 then own6 else own4.setWidth 128)
        then with_ (fun e => { e with answers := e.answers ++ [(tag, .echo hw v6 mac i6 body)] })
        else with_ (fun e => { e with dropOther := satInc e.dropOther }))) ∧
      (e.pfcEn = false ∨ prio ≠ e.pfcPrio → exec (.pfcFrameReceived p prio pause) s = .next s) ∧
      (e.pfcEn = true → prio = e.pfcPrio →
        exec (.pfcFrameReceived p prio true) s = .next (with_ (fun e => { e with paused := true })) ∧
        exec (.pfcFrameReceived p prio false) s = .next (freed (with_ (fun e => { e with paused := false }))))) ∧
    exec (.ethLinkLoss p) s = .next (freed (with_ (fun e => { e with linkUp := false, lanes := 0, fecLock := false, paused := false }))) ∧
    (s.fl.sc ≠ [] → s.rst.recovery = false → s.stopped = false → e.disable = false → exec (.ethLinkUp p) s =
      .next (with_ (fun e => { e with linkUp := true, lanes := 0xF, fecLock := true }))) ∧
    (s.fl.sc = [] ∨ s.rst.recovery = true ∨ s.stopped = true ∨ e.disable = true → exec (.ethLinkUp p) s = .next s)

/-- The RoCE request rows on an open QP of a bulk port, in order and not marked CE (R356 to R358): an RDMA WRITE Only and a SEND Only place
their data in the window, or in the slot of the lowest ingest buffer with a free one, and count towards the next ACK; a READ
answers the bytes and takes one PSN for each path-MTU packet, and one that comes again is answered again; an access that no window grants is refused, a SEND without a
slot is told to come again, and an invalid request ends the QP. The handling of PSNs, the RNR counts and the path MTU of a READ
are PRESUMED (log 88), the path MTU of a message kept from its First packet is the model's choice (log 122), as is the buffer
that takes a SEND (log 89).
Messages of several packets on an open QP of a bulk port, and packets that are marked CE, too early or out of place (R356 to
R358): the packets of an RDMA WRITE are placed one behind the other in the window, those of a SEND in its slot, which is full with the
Last; all but the Last have one path MTU; one that starts inside another message, or goes on with none, ends the QP; a READ that
comes again is answered inside a message too; a packet ahead of the expected PSN is answered with it; a CE mark sends a CNP,
at most one in 50 µs, and the packet counts as it does without the mark. The handling of PSNs is PRESUMED (log 88), the path MTU
kept from the First packet the model's choice (log 122), as is the buffer that takes a SEND (log 89).
ROCE_CNP_RECEIVED, CNP_RATE_RECOVERY and ACK_COALESCE_TIMER (R356): a CNP halves the rate of its QP, the recovery adds 5 % of the
full rate up to it, and the timer acknowledges what has come in since the last ACK. The step of the recovery is the model's
choice (log 89). -/
def Obligations.RoceRequests : Prop :=
  ((∀ (port : PortId) (qpn : BitVec 24) (s : State) (q : Qp) (k : BitVec 32) (a : BitVec 64) (n : BitVec 32) (mtu : Fin 3) (data : List Byte),
    let e := s.eth.ports.getD port {}
    s.Calm → e.linkUp = true → e.roleBulk = true → e.paused = false → q.err = false → q.port = port.val → q.wr = none → q.recv = none →
    q.wrBad = false → q.held = [] → data.length ≤ 4096 → s.eth.qps = [q] → q.qpn = qpn.toNat → s.ms.ue = [] → s.ms.soft = [] →
    s.ms.mem.wf 0 = true →
    let psn := q.psn
    let ok (w : Window) (write : Bool) : Prop := (if write then w.write else w.read) = true ∧ w.part.toNat = q.part ∧
      w.base ≤ a.toNat ∧ a.toNat + n.toNat ≤ w.base + w.length
    let next (q : Qp) : Qp := { q with psn := psn + 1, lastPsn := psn, unacked := if 16 ≤ q.unacked + 1 then 0 else q.unacked + 1,
                                       out := if 16 ≤ q.unacked + 1 then q.out ++ [.ack psn] else q.out }
    let still (t : State) : Prop := t.fab = s.fab ∧ t.time = s.time ∧ t.pwr = s.pwr ∧ t.parts = s.parts ∧
      ∀ d, { t.core d with cache := (s.core d).cache } = s.core d
    (∀ w, s.eth.windows.find? (fun w => w.rkey == k) = some w → ok w true → data.length = n.toNat →
      ∃ t, exec (.roceRdmaWrite port qpn psn false true true k a n data) s = .next t ∧
        t.ms.mem = s.ms.mem.writeN 0 a.toNat data ∧ t.eth.qps = [{ next q with mtu := data.length }] ∧ t.eth.windows = s.eth.windows ∧ still t) ∧
    ((∀ w, s.eth.windows.find? (fun w => w.rkey == k) = some w → ¬ ok w true) →
      ∃ t, exec (.roceRdmaWrite port qpn psn false true true k a n data) s = .next t ∧ t.ms = s.ms ∧ still t ∧
        t.eth.qps = [{ q with out := q.out ++ [.nakAccess psn], unacked := 0 }] ∧
        t.eth.ports.getD port {} = { e with rejAddr := satInc e.rejAddr, nakSent := satInc e.nakSent }) ∧
    (∀ w, s.eth.windows.find? (fun w => w.rkey == k) = some w → ok w false →
      ∃ t, exec (.roceRdmaRead port qpn psn false k a n mtu) s = .next t ∧ t.ms.mem = s.ms.mem ∧ still t ∧
        t.eth.qps = [{ q with out := q.out ++ [.readResp psn (s.ms.bytes a.toNat n.toNat)]
                              psn := psn + BitVec.ofNat 24 (max 1 (ceilDiv n.toNat (1024 * 2 ^ mtu.val)))
                              lastPsn := psn + BitVec.ofNat 24 (max 1 (ceilDiv n.toNat (1024 * 2 ^ mtu.val)) - 1), unacked := 0 }]) ∧
    (∀ (w : Window) (old : BitVec 24), s.eth.windows.find? (fun w => w.rkey == k) = some w → ok w false → old ≠ psn → (psn - old).toNat < 2 ^ 23 →
      ∃ t, exec (.roceRdmaRead port qpn old false k a n mtu) s = .next t ∧ t.ms.mem = s.ms.mem ∧ still t ∧
        t.eth.qps = [{ q with out := q.out ++ [.readResp old (s.ms.bytes a.toNat n.toNat)] }]) ∧
    (∀ (old : BitVec 24), old ≠ psn → (psn - old).toNat < 2 ^ 23 → exec (.roceRdmaWrite port qpn old false true true k a n data) s =
      .next { s with eth := { s.eth with qps := [{ q with out := q.out ++ [.ack q.lastPsn] }] } }) ∧
    (∀ w i, s.eth.windows = [w] → s.ingestSlot q.part = some (w, i) → data.length ≤ w.slotBytes →
      ∃ t, exec (.roceSend port qpn psn false true true data) s = .next t ∧
        t.ms.mem = s.ms.mem.writeN 0 (w.base + i * w.slotBytes) data ∧ t.eth.qps = [{ next q with mtu := data.length }] ∧
        t.eth.windows = [{ w with nextSlot := (i + 1) % max w.slots 1, full := w.full ++ [(i, data.length)] }] ∧ still t) ∧
    (s.ingestSlot q.part = none → ∃ t, exec (.roceSend port qpn psn false true true data) s = .next t ∧ t.ms = s.ms ∧ still t ∧
      t.eth.qps = [{ q with out := q.out ++ [.rnrNak psn], unacked := 0, mtu := data.length }] ∧
      t.eth.ports.getD port {} = { e with rnrSent := satInc e.rnrSent, nakSent := satInc e.nakSent }) ∧
    (∃ t, exec (.roceInvalidRequest port qpn psn false) s = .next t ∧ t.ms = s.ms ∧ still t ∧
      t.eth.qps = [{ q with out := q.out ++ [.nakInvalid psn], unacked := 0, err := true }])) ∧
  (∀ (port : PortId) (qpn : BitVec 24) (s : State) (q : Qp) (k : BitVec 32) (a : BitVec 64) (n : BitVec 32) (mtu : Fin 3) (data : List Byte),
    let e := s.eth.ports.getD port {}
    s.Calm → e.linkUp = true → e.roleBulk = true → e.paused = false → q.err = false → q.port = port.val →
    q.wrBad = false → q.held = [] → s.eth.qps = [q] → q.qpn = qpn.toNat → s.ms.ue = [] → s.ms.soft = [] → s.ms.mem.wf 0 = true →
    let psn := q.psn
    let len := data.length
    let grants (w : Window) (write : Bool) : Prop := (if write then w.write else w.read) = true ∧ w.part.toNat = q.part ∧
      w.base ≤ a.toNat ∧ a.toNat + n.toNat ≤ w.base + w.length
    let whole : Prop := len = 1024 ∨ len = 2048 ∨ len = 4096
    let next (q : Qp) : Qp := { q with psn := psn + 1, lastPsn := psn, unacked := if 16 ≤ q.unacked + 1 then 0 else q.unacked + 1,
                                       out := if 16 ≤ q.unacked + 1 then q.out ++ [.ack psn] else q.out }
    let still (t : State) : Prop := t.fab = s.fab ∧ t.time = s.time ∧ t.pwr = s.pwr ∧ t.parts = s.parts ∧
      ∀ d, { t.core d with cache := (s.core d).cache } = s.core d
    let placed (t : State) (at_ : Nat) (q' : Qp) : Prop := t.ms.mem = s.ms.mem.writeN 0 at_ data ∧ t.eth.qps = [q'] ∧ still t
    let invalid : State := { s with eth := { s.eth with
      qps := [{ q with out := q.out ++ [.nakInvalid psn], unacked := 0, err := true, recv := none, wr := none }]
      ports := vmod s.eth.ports port.val (fun e => { e with nakSent := satInc e.nakSent }) } }
    (∀ w, q.wr = none → q.recv = none → whole → len ≤ n.toNat → s.eth.windows.find? (fun w => w.rkey == k) = some w → grants w true →
      ∃ t, exec (.roceRdmaWrite port qpn psn false true false k a n data) s = .next t ∧ t.eth.windows = s.eth.windows ∧
        placed t a.toNat { next q with mtu := len, wr := some (a.toNat + len, n.toNat - len) }) ∧
    (∀ b left, q.wr = some (b, left) →
      (whole → len = q.mtu → len ≤ left → ∃ t, exec (.roceRdmaWrite port qpn psn false false false k a n data) s = .next t ∧
        t.eth.windows = s.eth.windows ∧ placed t b { next q with wr := some (b + len, left - len) }) ∧
      (len ≤ q.mtu → len = left → ∃ t, exec (.roceRdmaWrite port qpn psn false false true k a n data) s = .next t ∧
        t.eth.windows = s.eth.windows ∧ placed t b { next q with wr := none }) ∧
      (len ≤ q.mtu → len ≠ left → exec (.roceRdmaWrite port qpn psn false false true k a n data) s = .next invalid)) ∧
    (∀ w i, q.wr = none → q.recv = none → whole → len ≤ w.slotBytes → s.eth.windows = [w] → s.ingestSlot q.part = some (w, i) →
      ∃ t, exec (.roceSend port qpn psn false true false data) s = .next t ∧
        t.eth.windows = [{ w with nextSlot := (i + 1) % max w.slots 1 }] ∧
        placed t (w.base + i * w.slotBytes) { next q with mtu := len, recv := some (w.rkey, i, len) }) ∧
    (∀ w i got, q.wr = none → q.recv = some (w.rkey, i, got) → got + len ≤ w.slotBytes → s.eth.windows = [w] →
      (whole → len = q.mtu → ∃ t, exec (.roceSend port qpn psn false false false data) s = .next t ∧ t.eth.windows = [w] ∧
        placed t (w.base + i * w.slotBytes + got) { next q with recv := some (w.rkey, i, got + len) }) ∧
      (len ≤ q.mtu → ∃ t, exec (.roceSend port qpn psn false false true data) s = .next t ∧
        t.eth.windows = [{ w with full := w.full ++ [(i, got + len)] }] ∧
        placed t (w.base + i * w.slotBytes + got) { next q with recv := none })) ∧
    (∀ last, (q.wr.isSome = true ∨ q.recv.isSome = true → exec (.roceRdmaWrite port qpn psn false true last k a n data) s = .next invalid ∧
        exec (.roceSend port qpn psn false true last data) s = .next invalid ∧ exec (.roceRdmaRead port qpn psn false k a n mtu) s = .next invalid) ∧
      (q.wr = none → exec (.roceRdmaWrite port qpn psn false false last k a n data) s = .next invalid) ∧
      (q.recv = none → exec (.roceSend port qpn psn false false last data) s = .next invalid)) ∧
    (∀ w (old : BitVec 24), s.eth.windows.find? (fun w => w.rkey == k) = some w → grants w false → old ≠ psn → (psn - old).toNat < 2 ^ 23 →
      ∃ t, exec (.roceRdmaRead port qpn old false k a n mtu) s = .next t ∧ t.ms.mem = s.ms.mem ∧ still t ∧
        t.eth.qps = [{ q with out := q.out ++ [.readResp old (s.ms.bytes a.toNat n.toNat)] }]) ∧
    (∀ (x : BitVec 24) first last, 2 ^ 23 ≤ (psn - x).toNat → exec (.roceRdmaWrite port qpn x false first last k a n data) s = .next { s with
      eth := { s.eth with qps := [{ q with out := q.out ++ [.nakSequence psn], unacked := 0 }]
                          ports := vmod s.eth.ports port.val (fun e => { e with nakSent := satInc e.nakSent }) } }) ∧
    (∀ (x : BitVec 24) first last,
      let due : Prop := ∀ f, q.cnpFt = some f → 50000 ≤ (s.now - f).toNat
      let u : State := { s with eth := { s.eth with qps := [{ q with out := q.out ++ [.cnp], cnpFt := some s.now }]
                                                    ports := vmod s.eth.ports port.val (fun e => { e with cnpSent := satInc e.cnpSent }) } }
      let r (v : State) : Prop :=
        exec (.roceRdmaWrite port qpn x true first last k a n data) s = exec (.roceRdmaWrite port qpn x false first last k a n data) v ∧
        exec (.roceSend port qpn x true first last data) s = exec (.roceSend port qpn x false first last data) v ∧
        exec (.roceRdmaRead port qpn x true k a n mtu) s = exec (.roceRdmaRead port qpn x false k a n mtu) v ∧
        exec (.roceInvalidRequest port qpn x true) s = exec (.roceInvalidRequest port qpn x false) v
      (due → r u) ∧ (¬ due → r s)))) ∧
  (∀ (qpn : BitVec 24) (s : State),
    let each (f : Qp → Qp) : State := { s with eth := { s.eth with qps := s.eth.qps.map (fun q => if q.qpn = qpn.toNat then f q else q) } }
    exec (.roceCnpReceived qpn) s = .next (each (fun q => { q with rate := q.rate / 2 })) ∧
    exec (.cnpRateRecovery qpn) s = .next (each (fun q => { q with rate := min 1000000 (q.rate + 50000) })) ∧
    (s.stopped = true ∨ s.eth.qps.find? (fun q => q.qpn == qpn.toNat) = none → exec (.ackCoalesceTimer qpn) s = .next s) ∧
    (∀ q, s.stopped = false → s.eth.qps.find? (fun q => q.qpn == qpn.toNat) = some q → (q.unacked = 0 ∨ q.err = true → exec (.ackCoalesceTimer qpn) s = .next s) ∧
      (q.unacked ≠ 0 → q.err = false → (s.eth.ports.getD q.port {}).paused = false → exec (.ackCoalesceTimer qpn) s =
        .next (each (fun x => { x with out := x.out ++ [.ack q.lastPsn], unacked := 0 })))))

/-- PTP_ANNOUNCE, PTP_SYNC, PTP_FOLLOW_UP, PTP_DELAY_RESP and DELAY_REQ_TIMER (R329, R359): messages of another domain, or over a link that
is down, change nothing; an Announce lists its master; a Sync and its Follow_Up give the first half of the offset, the
Delay_Resp that answers the last Delay_Req closes it; a source then holds the mean of the last 16 samples as TOD_OFFSET. A master is
in force once it qualifies, and a new one starts its measurements afresh (how the standard qualifies masters is PRESUMED, log
121). LAST_OFFSET, MASTER_OK and the mean truncated towards zero are the model's choices (log 91). -/
def Obligations.WallClock : Prop :=
  ∀ (dom : BitVec 7) (m : PtpMaster) (snd : BitVec 80) (seq : BitVec 16) (rx : BitVec 64) (org : BitVec 80) (corr : BitVec 64)
    (li : BitVec 8) (s : State),
    let c := s.eth.ptp
    let up : Prop := (s.eth.ports.getD 0 {}).linkUp = true ∧ s.stopped = false
    let now := s.time.ft
    let ptp (x : PtpClock) : State := { s with eth := { s.eth with ptp := x } }
    let ns (t : BitVec 80) : Int := fldN t 32 48 * 1000000000 + fldN t 0 32
    let settled : Prop := (c.best now).map (fun m => m.sender) = c.master
    let hears : Prop := up ∧ dom = c.domain ∧ settled ∧ c.master = some snd.toNat
    (settled → ¬ (up ∧ dom = c.domain) → exec (.ptpAnnounce dom m) s = .next s ∧ exec (.ptpSync dom snd seq rx (some org) corr) s = .next s ∧
      exec (.ptpFollowUp dom snd seq org corr) s = .next s ∧ exec (.ptpDelayResp dom snd seq org corr li) s = .next s) ∧
    (up → dom = c.domain → ∃ t, exec (.ptpAnnounce dom m) s = .next t ∧
      (∃ x ∈ t.eth.ptp.masters, x.m = m ∧ x.heard.head? = some now) ∧ (∀ x ∈ t.eth.ptp.masters, x.m.sender = m.sender → x.m = m) ∧
      (c.masters = [] → c.master = none → t.eth.ptp.master = none) ∧
      (∀ t0, c.masters = [⟨m, [t0]⟩] → (now - t0).toNat ≤ 4 * m.interval → m.steps < 255 → t.eth.ptp.master = some m.sender) ∧ t = { s with eth := { s.eth with ptp := t.eth.ptp } }) ∧
    (hears →
      exec (.ptpSync dom snd seq rx (some org) corr) s = .next (ptp { c with sync := none, msDiff := some (ns org + corr.toInt / 65536 - rx.toNat) }) ∧
      exec (.ptpSync dom snd seq rx none corr) s = .next (ptp { c with sync := some (seq, rx, corr) }) ∧
      (∀ r0 c0, c.sync = some (seq, r0, c0) → exec (.ptpFollowUp dom snd seq org corr) s =
        .next (ptp { c with sync := none, msDiff := some (ns org + (corr + c0).toInt / 65536 - r0.toNat) })) ∧
      (∀ q r0 c0, c.sync = some (q, r0, c0) → q ≠ seq → exec (.ptpFollowUp dom snd seq org corr) s = .next s) ∧
      (∀ tx d, c.req = some (seq, tx) → c.msDiff = some d →
        let x := (d + (ns org - corr.toInt / 65536 - tx.toNat)) / 2
        let l := (x :: s.time.todSamples).take 16
        ∃ t, exec (.ptpDelayResp dom snd seq org corr li) s = .next t ∧ t.eth.ptp.masterOk = true ∧ t.eth.ptp.req = none ∧
          t.eth.ptp.lastOffset = satInt 32 (s.time.todOffset.toInt - x) ∧ t.time.todSamples = l ∧ t.time.ft = s.time.ft ∧
          (s.time.roleSource = true → t.time.todOffset = BitVec.ofInt 64 ((l.foldl (· + ·) 0).tdiv l.length) ∧ t.time.todValid = true) ∧
          (s.time.roleSource = false → t.time.todOffset = s.time.todOffset ∧ t.time.todValid = s.time.todValid) ∧
          t.ms = s.ms ∧ t.cores = s.cores ∧ t.fab = s.fab) ∧
      exec .delayReqTimer s = .next (ptp { c with masterOk := c.masterOk && c.req.isNone, req := some (c.reqSeq, s.time.ft), reqSeq := c.reqSeq + 1 })) ∧
    (settled → c.master = none → exec .delayReqTimer s = .next s) ∧
    (∀ b, up → c.best now = some b → c.master ≠ some b.sender → exec .delayReqTimer s = .next (ptp { c with
      master := some b.sender, masterOk := false, sync := none, msDiff := none, req := some (c.reqSeq, now), reqSeq := c.reqSeq + 1 }))

/-- The reading rows over the UART (R346, R349, R351, R354, R427): SESSION, REG_READ, JOB_STATUS, TELEMETRY_RECORD, TELEMETRY_NUMERIC,
GOOSE_STATUS, GOOSE_READ and ATTEST answer as their rules say; a register read gives its value and status, and clears what a
read clears. The UART as control port 2 without a tag and the telemetry numbers (log 86), the status of a partition without a
job (log 83) and the OP byte of a row (log 87) are the model's choices. -/
def Obligations.GmcpReads : Prop :=
  ∀ (m : List Byte) (s : State),
    (s.Asked 0x01 [] m → exec (.session 2 m false) s = .next (s.uartAnswered (asOp 0x01 [] m) 0
      (leBytes 8 s.eth.session.toNat ++ leBytes 8 s.eth.lastSeq.toNat ++ leBytes 2 s.rst.stIflevel.toNat ++ [BitVec.ofNat 8 s.rst.restricted.toNat]))) ∧
    (let msg := asOp 0x02 [] m
     let a := leAt (gmcpBody msg) 0 4
     let n := leAt (gmcpBody msg) 4 4
     s.Asked 0x02 [] m →
      (a % 8 ≠ 0 ∨ n = 0 ∨ 256 < n → exec (.regRead 2 m false) s = .next (s.uartAnswered msg 0x0A [])) ∧
      (a % 8 = 0 → n = 1 → a + 8 ≤ 2 ^ 32 → exec (.regRead 2 m false) s = .next ((s.regRead a).2.2.uartAnswered msg
        (if (s.regRead a).2.1 = 0 then 0 else 0x09) (leBytes 8 (s.regRead a).1.toNat ++ [BitVec.ofNat 8 (s.regRead a).2.1])))) ∧
    (s.Asked 0x14 [] m → exec (.jobStatus 2 m false) s = .next (s.uartAnswered (asOp 0x14 [] m) 0
      ((List.range 8).map (fun p => BitVec.ofNat 8 (match (s.part p).state with | .empty => 0 | .loaded => 1 | .running => 2 | .ended => 3 | .aborted => 4))
        ++ (List.range 8).flatMap (fun p => leBytes 2 (s.part p).jobTag.toNat)))) ∧
    (s.Asked 0x20 [0] m → exec (.telemetryRecord 2 m false) s = .next (s.uartAnswered (asOp 0x20 [0] m) 0 s.record)) ∧
    (let msg := asOp 0x20 [1] m
     let p := leAt (gmcpBody msg) 1 1
     s.Asked 0x20 [1] m →
      (8 ≤ p → exec (.telemetryNumeric 2 m false) s = .next (s.uartAnswered msg 0x10 [])) ∧
      (p < 8 → (s.part p).state = .empty → exec (.telemetryNumeric 2 m false) s = .next (s.uartAnswered msg 0x11 [])) ∧
      (p < 8 → (s.part p).state ≠ .empty → exec (.telemetryNumeric 2 m false) s = .next (s.uartAnswered msg 0 (s.numbers p)))) ∧
    (s.Asked 0x28 [0] m → exec (.gooseStatus 2 m false) s = .next (s.uartAnswered (asOp 0x28 [0] m) 0 (s.goose.status s.time.ft))) ∧
    (let msg := asOp 0x28 [1] m
     let n : BitVec 32 := BitVec.ofNat 32 (leAt (gmcpBody msg) 4 4)
     let g : Goose := { s.goose with cursor := if n = BitVec.allOnes 32 then s.goose.oldestSeq else n }
     s.Asked 0x28 [1] m → exec (.gooseRead 2 m false) s =
      .next ({ s with goose := g }.uartAnswered msg 0 (g.status s.time.ft ++ (List.range 64).flatMap g.windowRecord))) ∧
    (let msg := asOp 0x30 [] m
     let r := s.report (slice (gmcpBody msg) 0 32)
     s.Asked 0x30 [] m → exec (.attest 2 m false) s = .next ({ s with sec := { s.sec with
       reportId := s.sec.reportId + 1, attId := s.sec.reportId + 1, attValid := true, attSig := some (s.sec.idSeeds, r) } }.uartAnswered msg 0
         (r ++ leBytes 4 17088 ++ leBytes 4 0)))

/-- The writing rows over the UART (R349, R350, R351, R393, R425, R427): REG_WRITE of one register, GOOSE_FREEZE, GOOSE_THAW, RESET_WARM and
RESET_COLD, and an operation that is not assigned, which is refused with status 2 and not counted as a command. Which requests
CMDS counts (log 81) and the OP byte of a row (log 87) are the model's choices. -/
def Obligations.GmcpWrites : Prop :=
  ∀ (m : List Byte) (op : Byte) (s : State),
    (let msg := asOp 0x03 [] m
     let a := leAt (gmcpBody msg) 0 4
     let v : Reg := BitVec.ofNat 64 (leAt (gmcpBody msg) 8 8)
     s.Asked 0x03 [] m → s.rst.recovery = false →
      (a % 8 ≠ 0 → exec (.regWrite 2 m false) s = .next (s.uartAnswered msg 0x0A [])) ∧
      (a % 8 = 0 → leAt (gmcpBody msg) 4 4 = 1 → a + 8 ≤ 2 ^ 32 → exec (.regWrite 2 m false) s = .next ((s.regWrite a v).2.uartAnswered msg
        (if (s.regWrite a v).1 = 0 then 0 else 0x09) [BitVec.ofNat 8 (s.regWrite a v).1]))) ∧
    (let g := s.goose.freeze s.time.ft
     s.Asked 0x28 [2] m → exec (.gooseFreeze 2 m false) s =
      .next ({ s with goose := g }.uartAnswered (asOp 0x28 [2] m) 0 (g.status s.time.ft))) ∧
    (let g := s.goose.thaw s.time.ft s.time.aligned
     s.Asked 0x28 [3] m → exec (.gooseThaw 2 m false) s =
      .next ({ s with goose := g }.uartAnswered (asOp 0x28 [3] m) 0 (g.status s.time.ft))) ∧
    (s.Asked 0x38 [0] m → exec (.resetWarm 2 m false) s = .next ((s.uartAnswered (asOp 0x38 [0] m) 0 []).requestReset false 4)) ∧
    (s.Asked 0x38 [1] m → exec (.resetCold 2 m false) s = .next ((s.uartAnswered (asOp 0x38 [1] m) 0 []).requestReset true 3)) ∧
    (let msg := asOp op.toNat [] m
     gmcpOps.contains op.toNat = false → s.rst.ready = true → s.stewardDown = false → headerOk msg = true → exec (.unknownOp 2 m op) s =
      .next (s.modPins (fun p => { p with uartTx := p.uartTx ++ [uartFrame (replyBytes (GmcpHdr.of msg) 0x02 [] none)] })))

/-- JOB_LOAD, JOB_START, JOB_START_TIME, ABORT and JOB_UNLOAD over the UART of a module that is not restricted (R51, R350, R352, R355,
R449): the status of every refusal, which changes nothing else but the record of an
uncorrectable image; a loaded partition with its tag, cores and programs; a
start now, at which each used core, and each member of a broadcast group with one, is active at its entry with the credits of its rank,
or armed for its START_FT; the refusal of a group that the modes of its cores contradict; the abort of every loaded or running
partition of the mask; and a partition empty again. The order of
START_TIME and the window of START_FT (log 83), the statuses of JOB_LOAD (log 85), the decoded image as an operand (log 11) and
its read after the other checks (log 146), the members that start with their group (log 147) and that JOB_START_TIME brings
fabric time up to START_FT (log 154) are the model's choices. -/
def Obligations.GmcpJobs : Prop :=
  ∀ (m : List Byte) (img : JobImage) (q : Fin 8) (s : State), s.rst.restricted = 0 → s.Calm →
    (let msg := asOp 0x10 [] m
     let r := LoadReq.of (gmcpBody msg)
     let st := s.loadStatus r (some img)
     s.Asked 0x10 [] m →
      (exec (.jobLoad 2 m false none) s = .next ((s.imageRead r).uartAnswered msg (s.loadStatus r none) [])) ∧
      (st ≠ 0 → exec (.jobLoad 2 m false (some img)) s = .next ((s.imageRead r).uartAnswered msg st [])) ∧
      (s.ms.soft = [] → ∀ a, (s.imageRead r).ms.byte a = s.ms.byte a) ∧
      (st = 0 → ∃ t, exec (.jobLoad 2 m false (some img)) s = .next t ∧
        t.part r.first = { state := .loaded, size := r.size, jobTag := BitVec.ofNat 16 r.tag, devMap := img.devMap } ∧
        (∀ p, p ≠ r.first → t.part p = s.part p) ∧
        (∀ i j, img.cores[i]? = some j → i < r.size →
          (t.core (r.first + i)).id.partition = BitVec.ofNat 4 r.first ∧ (t.core (r.first + i)).id.jobTag = BitVec.ofNat 16 r.tag ∧
          (t.core (r.first + i)).entry = (if j.used then some j.entry else none)) ∧
        (∀ c, (c < r.first ∨ r.first + r.size ≤ c) → { t.core c with cache := (s.core c).cache } = s.core c) ∧
        (∀ i x, img.regions[i]? = some x → t.ms.preg.getD (16 * r.first + i) {} = ⟨x.base, x.size, true, x.scratch, x.nopf⟩))) ∧
    (let msg := asOp 0x11 [] m
     let p := leAt (gmcpBody msg) 0 1
     let at_ : BitVec 64 := BitVec.ofNat 64 (leAt (gmcpBody msg) 8 8)
     let now := s.time.ft.toNat
     let own : Prop := (s.part p).jobTag ≠ 0 ∧ s.time.schedTag = (s.part p).jobTag
     let starts (c : Nat) : Prop := ∃ d ∈ s.groupOf c, (s.core d).entry.isSome = true
     s.Asked 0x11 [] m →
      (8 ≤ p → exec (.jobStart 2 m false) s = .next (s.uartAnswered msg 0x10 [])) ∧
      (p < 8 → (s.part p).state ≠ .loaded → exec (.jobStart 2 m false) s = .next (s.uartAnswered msg 0x11 [])) ∧
      (p < 8 → (s.part p).state = .loaded → at_ ≠ 0 → at_.toNat % 128 ≠ 0 → exec (.jobStart 2 m false) s = .next (s.uartAnswered msg 0x15 [])) ∧
      (p + (s.part p).size ≤ 8 → (s.part p).state = .loaded → at_ = 0 → ¬ own → (∃ c ∈ (s.part p).cores p, s.modeOk p c = false) →
        exec (.jobStart 2 m false) s = .next (s.uartAnswered msg 0x14 [])) ∧
      (p + (s.part p).size ≤ 8 → (s.part p).state = .loaded → (∀ c ∈ (s.part p).cores p, s.modeOk p c = true) →
        (at_ = 0 → ¬ own → (∃ c ∈ (s.part p).cores p, (s.core c).entry.isSome = true) →
          ∃ t, exec (.jobStart 2 m false) s = .next t ∧ (t.part p).state = .running ∧ (t.part p).jobTag = (s.part p).jobTag ∧
            (∀ c e, c ∈ (s.part p).cores p → (s.core c).entry = some e → (t.core c).seq.pc.toNat = e.toNat) ∧
            (∀ c, c ∈ (s.part p).cores p → starts c → (t.core c).id = { (s.core c).id with active := true } ∧
              (t.core c).seq.callStack = [] ∧ (t.core c).seq.gr = Vector.replicate 16 0 ∧ (t.core c).seq.fErr = false ∧
              (t.core c).seq.credits = Vector.replicate 8 (if (s.core c).isBellwether then 64 else 0) ∧ (t.core c).ringIn = []) ∧
            (∀ c, c ∉ (s.part p).cores p ∨ ¬ starts c → t.core c = s.core c) ∧ t.ms = s.ms) ∧
        (at_ ≠ 0 → at_.toNat % 128 = 0 → now + 1000000 ≤ at_.toNat → at_.toNat ≤ now + 1000000000 → (own → s.time.aligned = true) →
          now + 1000000000 < 2 ^ 64 → ∃ t, exec (.jobStart 2 m false) s = .next t ∧ (t.part p).state = .running ∧
            t.eth.armed = s.eth.armed ++ [⟨p, at_⟩] ∧ t.cores = s.cores ∧ t.ms = s.ms))) ∧
    (s.eth.armed.find? (fun a => a.part == q.val) = none → exec (.jobStartTime q) s = .next s) ∧
    (∀ a, s.eth.armed.find? (fun a => a.part == q.val) = some a → q.val + (s.part q).size ≤ 8 →
      (∀ c ∈ (s.part q).cores q, s.modeOk q c = true) → (∃ c ∈ (s.part q).cores q, (s.core c).entry.isSome = true) →
      ∃ t, exec (.jobStartTime q) s = .next t ∧ t.time.ft = (if s.time.ft < a.ft then a.ft else s.time.ft) ∧
        t.eth.armed = s.eth.armed.filter (fun x => x.part != q.val) ∧
        (∀ c e, c ∈ (s.part q).cores q → (s.core c).entry = some e → (t.core c).id.active = true ∧ (t.core c).seq.pc.toNat = e.toNat) ∧
        (∀ c d, c ∈ (s.part q).cores q → d ∈ s.groupOf c → (s.core d).entry.isSome = true → (t.core c).id.active = true ∧
          (t.core c).seq.credits = Vector.replicate 8 (if (s.core c).isBellwether then 64 else 0)) ∧
        (∀ c, c ∉ (s.part q).cores q → t.core c = s.core c) ∧ t.ms = s.ms) ∧
    (let msg := asOp 0x12 [] m
     let mask : BitVec 8 := BitVec.ofNat 8 (leAt (gmcpBody msg) 0 1)
     let live (p : Nat) : Prop := (s.part p).state = .loaded ∨ (s.part p).state = .running
     s.Asked 0x12 [] m →
      (mask = 0 → exec (.abort 2 m false) s = .next (s.uartAnswered msg 0 [])) ∧
      ∃ t st, exec (.abort 2 m false) s = .next t ∧ t.pins.uartTx = s.pins.uartTx ++ [uartFrame (replyBytes (GmcpHdr.of msg) st [] none)] ∧
        (st = 0 ↔ ∀ p, p < 8 → mask.getLsbD p = true → live p) ∧ (st = 0 ∨ st = 0x11) ∧
        ∀ p, p < 8 → mask.getLsbD p = true → live p → (t.part p).state = .aborted ∧
          ∀ c, c < 8 → c ∈ (s.part p).cores p → (t.core c).id.active = false ∧ (t.core c).seq.ended = true) ∧
    (let msg := asOp 0x13 [] m
     let p := leAt (gmcpBody msg) 0 1
     s.Asked 0x13 [] m →
      (8 ≤ p → exec (.jobUnload 2 m false) s = .next (s.uartAnswered msg 0x10 [])) ∧
      (p < 8 → (s.part p).state = .empty ∨ (s.part p).state = .running → exec (.jobUnload 2 m false) s = .next (s.uartAnswered msg 0x11 [])) ∧
      (p < 8 → (s.part p).state ≠ .empty → (s.part p).state ≠ .running → ∃ t, exec (.jobUnload 2 m false) s = .next t ∧
        t.part p = {} ∧ (∀ c, c < 8 → c ∈ (s.part p).cores p → (t.core c).id.partition = 0 ∧ (t.core c).id.jobTag = 0 ∧
          (t.core c).imem = [] ∧ (t.core c).entry = none) ∧ (∀ x, x ≠ p → t.part x = s.part x) ∧ t.ms.mem = s.ms.mem ∧
        t.eth.qps = s.eth.qps.filter (fun x => x.part != p) ∧
        t.eth.windows = s.eth.windows.filter (fun w => w.part.toNat != p)))

/-- Tags and sessions on a control port (R347, R348, R350, R353): an operation that needs a tag is refused with status 3 without an operator
key and with status 4, counted, under a wrong tag; a right one with another session has status 5, with a SEQ not above the last
one status 6 and counted, or the reply that is kept; one that is accepted raises LAST_SEQ and, with the steward busy, is queued
behind at most 15 others, or is executed, and its reply kept. The order of the statuses (log 80), the busy steward and its queue
(log 82) are the model's choices.
QP_OPEN, QP_CLOSE, RDMA_REG and RDMA_DEREG over the UART of a module that is not restricted (R349, R350, R357, R358): the refusals by
partition, port role and table size; a queue pair and a window under the next number; a closed one is gone. PART 0xFF and the
statuses of these operations are the model's choices (log 84). -/
def Obligations.GmcpTagsAndRdma : Prop :=
  (∀ (port : Fin 3) (m : List Byte) (held : Bool) (s : State),
    let msg := asOp 0x03 [] m
    let h := GmcpHdr.of msg
    let p := s.eth.ports.getD port {}
    let udp : BitVec 16 := BitVec.ofNat 16 (s.fl.scAt 0x24 2)
    let reply (x : State) (st : Nat) (key : Option (List Byte)) : State :=
      { x with eth := { x.eth with replies := x.eth.replies ++ [⟨port, s.vlanTag, udp, replyBytes h st [] key⟩] } }
    port.val < 2 → s.rst.ready = true → s.stewardDown = false → s.stopped = false → p.linkUp = true → p.roleCtrl = true → headerOk msg = true →
    payloadOk 0x03 (gmcpBody msg) = true →
    (s.operatorKey = none → exec (.regWrite port m false) s = .next (reply s 0x03 none)) ∧
    (∀ k, s.operatorKey = some k → h.auth = false ∨ hmac256 k (msg.take (32 + h.len)) ≠ msg.drop (32 + h.len) →
      ∃ t, exec (.regWrite port m false) s = .next t ∧ t.eth.badTag = satInc s.eth.badTag ∧
        t.eth.replies = s.eth.replies ++ [⟨port, s.vlanTag, udp, replyBytes h 0x04 [] none⟩] ∧ t.cores = s.cores ∧ t.ms = s.ms ∧ t.fab = s.fab ∧
        t.eth.lastSeq = s.eth.lastSeq) ∧
    (∀ k, s.operatorKey = some k → h.auth = true → hmac256 k (msg.take (32 + h.len)) = msg.drop (32 + h.len) →
      (h.session ≠ s.eth.session.toNat → exec (.regWrite port m held) s = .next (reply s 0x05 (some k))) ∧
      (h.session = s.eth.session.toNat → h.seq ≤ s.eth.lastSeq.toNat →
        (∀ c, s.eth.cache.find? (fun c => c.1.toNat == h.seq) = some c → exec (.regWrite port m held) s = .next
          { s with eth := { s.eth with replayed := satInc s.eth.replayed, replies := s.eth.replies ++ [⟨port, s.vlanTag, udp, c.2⟩] } }) ∧
        (s.eth.cache.find? (fun c => c.1.toNat == h.seq) = none → exec (.regWrite port m held) s = .next
          (reply { s with eth := { s.eth with staleSeq := satInc s.eth.staleSeq } } 0x06 (some k)))) ∧
      (h.session = s.eth.session.toNat → s.eth.lastSeq.toNat < h.seq →
        (16 ≤ (s.eth.queue.filter (fun q => q.port == port.val)).length → exec (.regWrite port m true) s = .next
          (reply { s with eth := { s.eth with busy := satInc s.eth.busy } } 0x07 (some k))) ∧
        ((s.eth.queue.filter (fun q => q.port == port.val)).length < 16 → exec (.regWrite port m true) s = .next
          { s with eth := { s.eth with lastSeq := BitVec.ofNat 64 h.seq
                                       queue := s.eth.queue ++ [{ port := port.val, msg := msg, ft := s.time.ft, image := none }] } }) ∧
        (s.eth.queue = [] → s.rst.recovery = false → leAt (gmcpBody msg) 0 4 % 8 ≠ 0 → exec (.regWrite port m false) s = .next
          (reply { s with eth := { s.eth with lastSeq := BitVec.ofNat 64 h.seq, cmds := satInc s.eth.cmds,
                                              cache := ((BitVec.ofNat 64 h.seq, replyBytes h 0x0A [] (some k)) :: s.eth.cache).take 16 } }
            0x0A (some k)))))) ∧
  (∀ (m : List Byte) (s : State), s.rst.restricted = 0 → s.stopped = false →
    (let msg := asOp 0x18 [] m
     let b := gmcpBody msg
     let port := leAt b 0 1
     let part := leAt b 1 1
     let bulk : Bool := (s.eth.ports.getD port {}).roleBulk
     let mine := s.eth.qps.filter (fun q => q.port == port)
     let known : Prop := part = 0xFF ∨ (part < 8 ∧ (s.part part).state ≠ .empty)
     s.Asked 0x18 [] m →
      (8 ≤ part → part ≠ 0xFF → exec (.qpOpen 2 m false) s = .next (s.uartAnswered msg 0x10 [])) ∧
      (part < 8 → (s.part part).state = .empty → exec (.qpOpen 2 m false) s = .next (s.uartAnswered msg 0x11 [])) ∧
      (known → bulk = false ∨ 256 ≤ mine.length → exec (.qpOpen 2 m false) s = .next (s.uartAnswered msg 0x18 [])) ∧
      (known → bulk = true → mine.length < 256 → exec (.qpOpen 2 m false) s = .next ({ s with eth := { s.eth with
        qps := s.eth.qps ++ [({
          qpn := s.eth.nextQpn, port := port, part := part, remote := BitVec.ofNat 32 (leAt b 4 4)
          psn := BitVec.ofNat 24 (leAt b 8 4), gid := BitVec.ofNat 128 (leAt b 16 16) } : Qp)]
        nextQpn := s.eth.nextQpn + 1 } }.uartAnswered msg 0 (leBytes 4 s.eth.nextQpn)))) ∧
    (let msg := asOp 0x19 [] m
     let n := leAt (gmcpBody msg) 0 4
     s.Asked 0x19 [] m →
      ((∀ q ∈ s.eth.qps, q.qpn ≠ n) → exec (.qpClose 2 m false) s = .next (s.uartAnswered msg 0x01 [])) ∧
      ((∃ q ∈ s.eth.qps, q.qpn = n) → exec (.qpClose 2 m false) s = .next
        ({ s with eth := { s.eth with qps := s.eth.qps.filter (fun q => q.qpn != n) } }.uartAnswered msg 0 []))) ∧
    (let msg := asOp 0x1A [] m
     let b := gmcpBody msg
     let part := leAt b 0 1
     let acc := leAt b 1 1
     let base := leAt b 8 8
     let len := leAt b 16 8
     s.Asked 0x1A [] m →
      (8 ≤ part → part ≠ 0xFF → exec (.rdmaReg 2 m false) s = .next (s.uartAnswered msg 0x10 [])) ∧
      (part < 8 → (s.part part).state = .empty → exec (.rdmaReg 2 m false) s = .next (s.uartAnswered msg 0x11 [])) ∧
      (part < 8 → (s.part part).state ≠ .empty →
        (64 ≤ s.eth.windows.length → exec (.rdmaReg 2 m false) s = .next (s.uartAnswered msg 0x18 [])) ∧
        (s.eth.windows.length < 64 → (base % 4096 ≠ 0 ∨ len % 4096 ≠ 0 ∨ len = 0 ∨ s.hbmOk part base len = false) →
          exec (.rdmaReg 2 m false) s = .next (s.uartAnswered msg 0x19 [])) ∧
        (s.eth.windows.length < 64 → base % 4096 = 0 → len % 4096 = 0 → len ≠ 0 → s.hbmOk part base len = true → acc < 4 →
          exec (.rdmaReg 2 m false) s = .next ({ s with eth := { s.eth with
            windows := s.eth.windows ++ [(⟨BitVec.ofNat 32 s.eth.nextKey, BitVec.ofNat 8 part, acc % 2 == 1, acc / 2 == 1, false, base,
              len, leAt b 4 4, leAt b 24 4, 0, 0, []⟩ : Window)]
            nextKey := s.eth.nextKey + 1 } }.uartAnswered msg 0 (leBytes 4 s.eth.nextKey ++ leBytes 2 0))))) ∧
    (let msg := asOp 0x1B [] m
     let n := leAt (gmcpBody msg) 0 4
     s.Asked 0x1B [] m →
      ((∀ w ∈ s.eth.windows, w.rkey.toNat ≠ n) → exec (.rdmaDereg 2 m false) s = .next (s.uartAnswered msg 0x19 [])) ∧
      ((∃ w ∈ s.eth.windows, w.rkey.toNat = n) → exec (.rdmaDereg 2 m false) s = .next
        ({ s with eth := { s.eth with windows := s.eth.windows.filter (fun w => w.rkey.toNat != n) } }.uartAnswered msg 0 []))))

/-- CAP_WRITE, INPUT_LOW, OVER_VOLTAGE, VOLTAGE_STEP, FAST_CURRENT_LIMIT, MEASUREMENT_FAIL, CALIBRATION_WINDOW and POWER_ESTIMATE_TICK
(R363, R364, R366 to R372, R378): a cap outside 600 W to the ceiling is refused and marked; any other is in force, at once or
when THROTTLE_N is released, and the limit is the lowest of ceiling, configuration and cap; a low input is recorded and an
over-voltage opens the switch and stops as a loss of input does, with a cold reset that waits; the voltage goes one step at a time,
before the frequency on the way up; the fast limit halves the clocks; a failed measurement stops calibration; a calibration
stays within its clamps; the tenth window that disagrees takes the trust away; a tick takes its samples in, and without a trusted
view allows index 8 alone. That the reset after an over-voltage waits for POWER_ON or PWR_EN is the model's choice (log 126). -/
def Obligations.PowerControl : Prop :=
  ∀ (v : Reg) (mv raw : BitVec 16) (sample : Option (BitVec 16 × BitVec 16)) (s : State),
    let p := s.pwr
    let w := fldN v 0 16
    let win := p.ticks.take p.winTicks
    let meas (l : List PowerTick) : List Nat := l.filterMap (fun t => t.meas.map (·.1))
    let m := meanNat (meas win)
    let e := meanNat (win.map (·.est))
    let powerOnly (t : State) : Prop := t = { s with pwr := t.pwr }
    (w < 600 ∨ p.ceilingW.toNat < w → exec (.capWrite v) s = .next { s with pwr := { p with capBad := true } }) ∧
    (600 ≤ w → w ≤ p.ceilingW.toNat → ∃ t, exec (.capWrite v) s = .next t ∧ powerOnly t ∧ t.pwr.capW = fld v 0 16 ∧
      t.pwr.capBad = (p.capBad && !bitB v 16) ∧ t.pwr.opCur = p.opCur ∧
      t.pwr.capInForce = (if s.pins.throttleN then fld v 0 16 else p.capInForce) ∧
      (s.pins.throttleN = true → p.plantFault = false → p.inlet.toNat ≤ 35 → s.fl.sc ≠ [] →
        t.pwr.limitW.toNat = min p.ceilingW.toNat (min p.scLimitW.toNat w))) ∧
    exec (.inputLow mv) s = .next (s.log { source := 0x02, code := 0x01, detail := [(mv.toNat, 2)] }) ∧
    (∃ t, exec .overVoltage s = .next t ∧ t.pins = { s.pins with pwrGood := false } ∧
      t.pwr = { p with switchOn := false, stopBrown := true } ∧
      t.rst = { s.rst with ready := false, cause := setBit s.rst.cause 1, waiting := some true } ∧
      t = { s with pins := t.pins, pwr := t.pwr, rst := t.rst, goose := t.goose, free := t.free }) ∧
    (∃ t, exec .voltageStep s = .next t ∧ powerOnly t ∧
      (p.vIdx = p.opCur.toNat → p.opTarget = p.opCur → t = s) ∧
      (p.vIdx < p.opCur.toNat → p.vIdx ≤ p.opTarget.toNat → p.pair = none → t.pwr = { p with vIdx := p.vIdx + 1 }) ∧
      (p.opTarget.toNat + 1 < p.vIdx → p.opTarget.toNat < p.opCur.toNat → t.pwr = { p with vIdx := p.vIdx - 1 }) ∧
      (p.opTarget.toNat + 1 = p.vIdx → p.opTarget.toNat < p.opCur.toNat →
        t.pwr = { p with vIdx := p.opTarget.toNat, opCur := p.opTarget, upTicks := 0 })) ∧
    (∃ t, exec .fastCurrentLimit s = .next t ∧ powerOnly t ∧ t.pwr.halved = true ∧ t.pwr.halvings = satInc p.halvings ∧
      t.pwr.asserted.getLsbD 1 = true ∧ t.pwr.seen.getLsbD 1 = true ∧ t.pwr.opCur = p.opCur) ∧
    (p.measFailed = true → exec .measurementFail s = .next s) ∧
    (p.measFailed = true ∨ meas win = [] → exec .calibrationWindow s = .next { s with pwr := { p with winTicks := 0 } }) ∧
    (p.measFailed = false → exec .measurementFail s = .next (State.log
      { s with pwr := { p with measFailed := true, measValid := false, failEvt := true } }
      { source := 0x02, code := 0x04, detail := [(1, 1)] })) ∧
    (p.measFailed = false → meas win ≠ [] → ∃ t, exec .calibrationWindow s = .next t ∧
      13926 ≤ t.pwr.gain.toNat ∧ t.pwr.gain.toNat ≤ 18841 ∧ -100 ≤ t.pwr.offset.toInt ∧ t.pwr.offset.toInt ≤ 100 ∧
      t = { s with pwr := t.pwr, goose := t.goose } ∧ t.pwr.winTicks = 0 ∧
      (p.estTrusted = true → 100 * (m - e) ≤ 15 * m → 100 * (e - m) ≤ 15 * m → t.pwr.disagree = 0 ∧ t.pwr.estTrusted = true ∧
        t.pwr.untrusted = p.untrusted ∧ t.goose = s.goose) ∧
      (p.estTrusted = true → 9 ≤ p.disagree.toNat → (15 * m < 100 * (m - e) ∨ 15 * m < 100 * (e - m)) →
        t.pwr.estTrusted = false ∧ t.pwr.untrusted = satInc p.untrusted ∧ t.pwr.asserted.getLsbD 6 = true ∧
        t.goose = (s.log { source := 0x02, code := 0x03, detail := [(0, 1), (m, 2), (e, 2)] }).goose)) ∧
    (∃ t, exec (.powerEstimateTick raw sample) s = .next t ∧ t = { s with pwr := t.pwr, goose := t.goose } ∧
      t.pwr.ticks = (⟨raw.toNat, p.calibrate raw.toNat, sample.map (fun x => (x.1.toNat * x.2.toNat / 100000, x.2.toNat))⟩ :: p.ticks).take 10000 ∧
      t.pwr.estW = BitVec.ofNat 16 (meanNat (t.pwr.ticks.map (·.est))) ∧ t.pwr.pinW = BitVec.ofNat 16 (meanNat (meas t.pwr.ticks)) ∧
      (∀ r, r < 8 → t.pwr.thrTime.getD r 0 = if p.asserted.getLsbD r then satAdd (p.thrTime.getD r 0) 10 else p.thrTime.getD r 0) ∧
      (p.measFailed = true → p.estTrusted = false → sample = none → t.pwr.allow.getD 0 0 = 8) ∧
      (sample = none → t.pwr.vinMv = p.vinMv ∧ t.pwr.iinCa = p.iinCa ∧ t.pwr.measFailed = p.measFailed ∧ t.goose = s.goose) ∧
      (∀ mv ca, sample = some (mv, ca) → t.pwr.vinMv = mv ∧ t.pwr.iinCa = ca ∧ t.pwr.measFailed = false))

/-- TEMPERATURE_SAMPLE, HBM_TEMP_SAMPLE, ALLOWANCE_STEP, TACH_FAULT, COOL_OK_DEASSERT, COOL_OK_ASSERT and PLANT_FAULT_CLEAR (R266, R373
to R377, R379, R381, R441): the hottest sensors become the registers, and one at its trip level stops the fast clocks; an input in
use shows the rate of its pulses; a stack is HOT from 85 °C until it is below 83; an allowance moves one index, the junction's
for the sensors and the thermal model together; a tach or a flow below its minimum rate, or over-fast, is a plant fault, which is
counted when it is new, commands full duty, lowers the limit to PLANT_FAULT_W (60 % of the ceiling without a standing
configuration) and is recorded; it ends, and the limit returns, when no condition is left. That tach k belongs to output k and
the quotient of RATE (log 128), the pins that the sample brings (log 143), the one junction allowance (log 152) and the limit
without a standing configuration (log 111) are the model's choices. -/
def Obligations.HeatAndPlant : Prop :=
  ∀ (h : HeatSample) (x : BitVec 8) (st : StackId) (k : Fin 4) (hz : BitVec 16) (r : Fin 8) (s : State),
    let sample : Instr := .temperatureSample h.compute h.others h.optical h.toPlantSample
    let p := s.pwr
    let two : Nat := min p.ceilingW.toNat p.capInForce.toNat
    let three : Nat := min two p.scLimitW.toNat
    let limited (t : State) (w : Nat) : Prop := p.inlet.toNat ≤ 35 → t.pwr.limitW.toNat = w
    let faulted (t : State) (cond k : Nat) : Prop :=
      t.pwr.plantFault = true ∧ t.pwr.plantFaults = (if p.plantFault then p.plantFaults else satInc p.plantFaults) ∧
      t.pwr.plantCmd = 255 ∧ t.pwr.asserted.getLsbD 4 = true ∧ t.pwr.opCur = p.opCur ∧ t.pwr.conds = (cond, k) :: p.conds ∧
      limited t (if s.fl.sc = [] then min two (p.ceilingW.toNat * 60 / 100) else min three p.plantFaultW.toNat) ∧
      t.goose = (s.log { source := 0x02, code := 0x05, detail := [(1, 1), (cond, 1), (k, 1)] }).goose
    let stk := s.ms.hbm.stackRegs.getD st.val {}
    let top : Nat := if r.val = 3 then 95 else 75
    let temp : Nat := if r.val = 3 then p.hbmMax.toNat else p.optMax.toNat
    let hot : Prop := if r.val = 2 then 103 ≤ p.tjMax.toNat ∨ p.allow.getD 2 0 < p.modelGoal else top ≤ temp
    let cooled : Prop := ¬ hot ∧ (if r.val = 2 then p.tjMax.toNat ≤ 100 ∧ p.modelPred ≤ 97000 else temp + 3 ≤ top)
    let atOrOver (l : List (BitVec 8)) (n : Nat) : Bool := l.any (fun t => decide (n ≤ t.toNat))
    let trips : Bool := atOrOver h.compute.toList 115 || atOrOver h.others.toList 115 || atOrOver h.optical.toList 90
    let i := p.ins.getD k.val {}
    let slow : Prop := (i.role = 1 ∧ hz.toNat * 60 < i.minimum.toNat * i.pulses.toNat ∧ 255 ≤ 4 * p.duty k) ∨
      (i.role = 2 ∧ hz.toNat * 60000 < i.minimum.toNat * i.pulses.toNat)
    let bad : Prop := slow ∨ ((i.role = 1 ∨ i.role = 2) ∧ 20000 < hz.toNat)
    (∃ t, exec sample s = .next t ∧ t.pwr.tjMax.toNat = hottest (h.compute.toList ++ h.others.toList) ∧
      t.pwr.optMax.toNat = hottest h.optical.toList ∧ t.pwr.inlet = (if h.inletOk then h.inlet else p.inlet) ∧
      t.pwr.inletFail = !h.inletOk ∧ t.pwr.opCur = p.opCur ∧ t.pwr.stopThermal = (p.stopThermal || trips) ∧
      (∀ j : Fin 4, (p.ins.getD j.val {}).role = 1 ∨ (p.ins.getD j.val {}).role = 2 →
        (t.pwr.ins.getD j.val {}).rate = (p.ins.getD j.val {}).rateAt (h.pulseHz.getD j.val 0).toNat) ∧
      (h.inletOk = true → t.pwr.plantFault = p.plantFault ∧ (trips = false → t.goose = s.goose)) ∧
      (h.inletOk = false → (4, 0) ∉ p.conds → t.pwr.plantFault = true ∧ (4, 0) ∈ t.pwr.conds) ∧
      t = { s with pwr := t.pwr, goose := t.goose, free := t.free,
                   pins := { s.pins with pps := h.ppsIn, uartRx := h.uartRx, glitch := satAdd s.pins.glitch h.glitches } }) ∧
    (∃ t, exec (.hbmTempSample st x) s = .next t ∧ (t.ms.hbm.stackRegs.getD st.val {}).tempC = x ∧
      (t.ms.hbm.stackRegs.getD st.val {}).hot = (if stk.hot then decide (83 ≤ x.toNat) else decide (85 ≤ x.toNat)) ∧
      (∀ j, j < 8 → j ≠ st.val → t.ms.hbm.stackRegs.getD j {} = s.ms.hbm.stackRegs.getD j {}) ∧ t.ms.mem = s.ms.mem ∧
      t.pwr.opCur = p.opCur ∧ t.pwr.stopThermal = (p.stopThermal || decide (105 ≤ x.toNat)) ∧
      t = { s with ms := t.ms, pwr := t.pwr, goose := t.goose }) ∧
    (r.val ≠ 2 → r.val ≠ 3 → r.val ≠ 7 → exec (.allowanceStep r) s = .next s) ∧
    (r.val = 2 ∨ r.val = 3 ∨ r.val = 7 → ∃ t, exec (.allowanceStep r) s = .next t ∧ t = { s with pwr := t.pwr } ∧
      (∀ j, j ≠ r.val → t.pwr.allow.getD j 0 = p.allow.getD j 0) ∧
      (hot → t.pwr.allow.getD r.val 0 = min 8 (p.allow.getD r.val 0 + 1)) ∧
      (cooled → t.pwr.allow.getD r.val 0 = p.allow.getD r.val 0 - 1 ∧ t.pwr.opCur = p.opCur) ∧
      (¬ hot → ¬ cooled → t.pwr = { p with asserted := t.pwr.asserted, seen := t.pwr.seen, limiting := t.pwr.limiting })) ∧
    (¬ bad → exec (.tachFault k hz) s = .next s) ∧
    (bad → (i.role.toNat, k.val) ∉ p.conds → ∃ t, exec (.tachFault k hz) s = .next t ∧ (t.pwr.ins.getD k.val {}).fault = true ∧
      faulted t i.role.toNat k.val ∧ t = { s with pwr := t.pwr, goose := t.goose }) ∧
    ((3, 0) ∉ p.conds → ∃ t, exec .coolOkDeassert s = .next t ∧ t.pins.coolOk = false ∧ faulted t 3 0 ∧
      t = { s with pwr := t.pwr, goose := t.goose, pins := { s.pins with coolOk := false } }) ∧
    ((3, 0) ∉ p.conds → exec .coolOkAssert s = .next { s with pins := { s.pins with coolOk := true } }) ∧
    ((3, 0) ∈ p.conds → exec .coolOkAssert s = .next { s with pins := { s.pins with coolOk := true }, pwr := { p with
      conds := p.conds.filter (fun c => c != (3, 0)), lastCond := (3, 0) } }) ∧
    (p.plantFault = false ∨ p.conds ≠ [] → exec .plantFaultClear s = .next s) ∧
    (p.plantFault = true → p.conds = [] → ∃ t, exec .plantFaultClear s = .next t ∧ t.pwr.plantFault = false ∧
      t.pwr.plantFaults = p.plantFaults ∧ limited t (if s.fl.sc = [] then two else three) ∧
      t.goose = (s.log { source := 0x02, code := 0x05, detail := [(0, 1), (p.lastCond.1, 1), (p.lastCond.2, 1)] }).goose ∧
      t = { s with pwr := t.pwr, goose := t.goose })

/-- THERMAL_TRIP, the four rows of THROTTLE_N, IDLE_CLOCK_STOP and LAUNCH_WAKE (R374, R378 to R380): a sensor at its trip level stops the
fast clocks and is recorded (its class number is the model's free value), and while a stop holds no row of what runs on them does
anything; THROTTLE_N puts the module at index 8 in hardware, counts, and is recorded each hour and at its release, when a cap
written meanwhile comes in force; the hold after it ends on its row; clocks stop only on an idle core that may. Which rows a
stop holds is the model's choice (log 127). -/
def Obligations.ThrottleAndClocks : Prop :=
  ∀ (cls : Fin 4) (ix x : BitVec 8) (secs : BitVec 32) (c : CoreId) (s : State),
    let p := s.pwr
    let k := s.core c.val
    let idle : Prop := k.ox.idle = true ∧ k.vec.idle = true ∧ k.row.idle = true ∧ k.att.idle = true
    let level : Nat := if cls.val ≤ 1 then 115 else if cls.val = 2 then 105 else 90
    (level ≤ x.toNat → ∃ t, exec (.thermalTrip cls ix x) s = .next t ∧ t.pwr.stopThermal = true ∧ t.stopped = true ∧ t.pwr.opCur = p.opCur ∧
      t.goose = (s.log { source := 0x02, code := 0x08, detail := [((Config.sensorClass cls).toNat, 1), (ix.toNat, 1), (x.toNat, 1)] }).goose ∧
      t = { s with pwr := t.pwr, goose := t.goose }) ∧
    (x.toNat < level → exec (.thermalTrip cls ix x) s = .next s) ∧
    (∀ i : Instr, onFastClocks i = true → s.stopped = true → exec i s = .next s) ∧
    (s.pins.throttleN = false → exec .throttleNAssert s = .next s) ∧
    (s.pins.throttleN = true → ∃ t, exec .throttleNAssert s = .next t ∧ t.pins = { s.pins with throttleN := false } ∧
      t.pwr.opCur = 8 ∧ t.pwr.opTarget = 8 ∧ t.pwr.allow.getD 5 0 = 8 ∧ t.pwr.extAsserts = satInc p.extAsserts ∧
      t.pwr.asserted.getLsbD 5 = true ∧ t.pwr.throttleHold = false ∧ t.pwr.capInForce = p.capInForce ∧
      t.goose = (s.log { source := 0x02, code := 0x06, detail := [(1, 1), (0, 4)] }).goose ∧
      t = { s with pwr := t.pwr, goose := t.goose, pins := t.pins }) ∧
    (s.pins.throttleN = true → exec (.throttleNRelease secs) s = .next s ∧ exec .throttleNHour s = .next s) ∧
    (s.pins.throttleN = false → ∃ t, exec (.throttleNRelease secs) s = .next t ∧ t.pins = { s.pins with throttleN := true } ∧
      t.pwr.throttleHold = true ∧ t.pwr.capInForce = p.capW ∧ t.pwr.asserted.getLsbD 5 = true ∧ t.pwr.opCur = p.opCur ∧
      t.pwr.allow = p.allow ∧ t.goose = (s.log { source := 0x02, code := 0x06, detail := [(3, 1), (secs.toNat, 4)] }).goose ∧
      t = { s with pwr := t.pwr, goose := t.goose, pins := t.pins }) ∧
    (s.pins.throttleN = false → exec .throttleNHour s = .next (State.log
      { s with pwr := { p with throttleHours := p.throttleHours + 1 } }
      { source := 0x02, code := 0x06, detail := [(2, 1), (3600 * (p.throttleHours + 1), 4)] })) ∧
    (p.throttleHold = false → exec .releaseHoldEnd s = .next s) ∧
    (p.throttleHold = true → ∃ t, exec .releaseHoldEnd s = .next t ∧ t.pwr.throttleHold = false ∧ t.pwr.allow.getD 5 0 = 0 ∧
      t.pwr.opCur = p.opCur ∧ (s.pins.throttleN = true → t.pwr.asserted.getLsbD 5 = false) ∧ t = { s with pwr := t.pwr }) ∧
    (p.idleEn.getLsbD c.val = true → idle → exec (.idleClockStop c) s = .next
      { s with pwr := { p with idleStopped := p.idleStopped ||| BitVec.twoPow 8 c.val } }) ∧
    ((p.idleEn.getLsbD c.val = false ∨ ¬ idle) → exec (.idleClockStop c) s = .next s) ∧
    exec (.launchWake c) s = .next { s with pwr := { p with idleStopped := p.idleStopped &&& ~~~BitVec.twoPow 8 c.val } }

/-- BOOT_CTRL_WRITE, the three flash commands and FLASH_COMMAND_DONE (R399, R400): the boot record follows the preferred slots; a command on a
busy flash sets ERR, one on a protected target PROT, neither has an effect; a read fills the page buffer, a program writes the
buffer to its page, an erase leaves its sector at 0xFF, and no other byte changes. That a program replaces the whole page, that
reads are never refused and that the sector of the boot record is protected are the model's choices (log 66). -/
def Obligations.FlashCommands : Prop :=
  ∀ (v : Reg) (s : State),
    let page := s.fl.addr.toNat / 256 * 256
    let sector := s.fl.addr.toNat / 65536 * 65536
    let byte (t : State) (a : Nat) : Byte := t.fl.flash.read 0xFF a
    (s.fl.flash.wf 0xFF = true → ∃ t, exec (.bootCtrlWrite v) s = .next t ∧ t.fl.bootRecord = (bitB v 0, bitB v 1) ∧
      (∀ a, ¬ (0x20000 ≤ a ∧ a < 0x30000) → byte t a = byte s a) ∧
      t = { s with fl := { s.fl with flash := t.fl.flash }, rst := { s.rst with stPref := bitB v 0, buPref := bitB v 1 } }) ∧
    (∀ row ∈ [((.flReadPage : Instr), FlashOp.readPage page, false), (.flProgramPage, .program page, s.flashProtected page),
        (.flEraseSector, .erase sector, s.flashProtected sector)],
      (s.fl.op.isSome = true → exec row.1 s = .next { s with fl := { s.fl with err := true } }) ∧
      (s.fl.op = none → row.2.2 = true → exec row.1 s = .next { s with fl := { s.fl with prot := true } }) ∧
      (s.fl.op = none → row.2.2 = false → exec row.1 s = .next { s with fl := { s.fl with op := some row.2.1 } })) ∧
    (s.fl.addr.toNat < 0x30000 → s.flashProtected page = true ∧ s.flashProtected sector = true) ∧
    (s.fl.op = none → exec (.flashCommandDone false) s = .next s) ∧
    (∀ a, s.fl.op = some (.readPage a) → ∃ t, exec (.flashCommandDone false) s = .next t ∧
      (∀ w, w < 32 → t.fl.buf.getD w 0 = BitVec.ofNat 64 (leNat (s.fl.flash.readN 0xFF (a + 8 * w) 8))) ∧
      t = { s with fl := { s.fl with op := none, done := true, buf := t.fl.buf } }) ∧
    (∀ a, s.fl.op = some (.program a) → s.fl.flash.wf 0xFF = true → ∃ t, exec (.flashCommandDone false) s = .next t ∧
      t.fl.flash.readN 0xFF a 256 = s.fl.bufBytes ∧ (∀ x, ¬ (a ≤ x ∧ x < a + 256) → byte t x = byte s x) ∧
      t = { s with fl := { s.fl with op := none, done := true, flash := t.fl.flash } }) ∧
    (∀ a, s.fl.op = some (.erase a) → ∃ t, exec (.flashCommandDone false) s = .next t ∧
      (∀ x, byte t x = if a ≤ x ∧ x < a + 65536 then 0xFF else byte s x) ∧
      t = { s with fl := { s.fl with op := none, done := true, flash := t.fl.flash } }) ∧
    (∀ o, s.fl.op = some o → ∃ t, exec (.flashCommandDone true) s = .next t ∧ t.fl.op = none ∧ t.fl.done = true ∧ t.fl.err = true)

/-- COMMIT_ST, COMMIT_BU, REVOKE, FUSE_OPERATION_DONE, RNG_HEALTH_FAIL, RNG_RESEED_TIMER and DEBUG_UNLOCK (R407, R411, R415): a floor goes up to the
running image's SVN and never down; only a key that neither running image needs is revoked; a write while fuses are being
programmed is refused and marked; a debug unlock needs its permit and a valid answer to the challenge. What a reseed draws is
the model's own free value (assumption 71). -/
def Obligations.FusesAndKeys : Prop :=
  ∀ (j : Fin 4) (sig : List Byte) (s : State),
    let x := s.sec
    let may : Prop := j.val < x.stKey.toNat ∧ j.val < x.buKey.toNat
    let permit := (BitVec.ofNat 8 (s.fl.opt 0x10 1)).getLsbD 1
    let good := sigOk .debugUnlock Config.debugKey (x.challenge ++ slice s.fl.ob 0x20 16) sig
    (x.fuses ≠ [] → ∀ i ∈ [(.commitSt : Instr), .commitBu, .revoke j], exec i s = .next { s with sec := { x with badWrite := true } }) ∧
    (x.fuses = [] → exec .commitSt s = .next { s with sec :=
      { x with fuses := if x.floorSt.toNat < x.stSvn.toNat then [.commitSt] else [], fuseBits := 1 } }) ∧
    (x.fuses = [] → exec .commitBu s = .next { s with sec :=
      { x with fuses := if x.floorBu.toNat < x.buSvn.toNat then [.commitBu] else [], fuseBits := 2 } }) ∧
    (x.fuses = [] → may → exec (.revoke j) s = .next { s with sec :=
      { x with fuses := [.revoke j.val], fuseBits := BitVec.twoPow 8 (4 + j.val) } }) ∧
    (x.fuses = [] → ¬ may → exec (.revoke j) s = .next { s with sec :=
      { x with fuses := [], badWrite := true, fuseBits := BitVec.twoPow 8 (4 + j.val) } }) ∧
    (x.fuses = [] → exec .fuseOperationDone s = .next s) ∧
    (∀ o r, x.fuses = o :: r → x.stSvn.toNat ≤ 64 → x.buSvn.toNat ≤ 64 → ∃ t, exec .fuseOperationDone s = .next t ∧ t.sec.fuses = r ∧
      t.sec.floorSt.toNat = (if o = .commitSt then max x.floorSt.toNat x.stSvn.toNat else x.floorSt.toNat) ∧
      t.sec.floorBu.toNat = (if o = .commitBu then max x.floorBu.toNat x.buSvn.toNat else x.floorBu.toNat) ∧
      (∀ k, t.sec.revoked.getLsbD k = (x.revoked.getLsbD k || (decide (o = .revoke k) && decide (k < 4)))) ∧
      t.goose = (s.log { source := 0x07, code := 0x01,
                         detail := [(x.fuseBits.toNat, 1), (t.sec.floorSt.toNat, 1), (t.sec.floorBu.toNat, 1)] }).goose ∧
      t = { s with sec := t.sec, goose := t.goose }) ∧
    exec .rngHealthFail s = .next (State.log { s with sec := { x with rngFail := true } } { source := 0x07, code := 0x02 }) ∧
    (x.rngFail = false ∨ x.drbg = none → exec .rngReseedTimer s = .next s) ∧
    (∀ d, x.rngFail = true → x.drbg = some d → exec .rngReseedTimer s = .next { s with sec :=
      { x with drawn := x.drawn + 1, drbg := if Config.entropySound x.drawn then some (d.reseed (Config.entropy x.drawn)) else some d } }) ∧
    (permit = false → exec (.debugUnlock none) s = .next s ∧ exec (.debugUnlock (some sig)) s = .next s) ∧
    (permit = true → exec (.debugUnlock none) s = .next { s with sec :=
      { x.draw.2 with challenge := leBytes 32 x.draw.1.toNat } }) ∧
    (∀ d, x.drbg = some d → d.count ≤ 2 ^ 20 → x.draw = (BitVec.ofNat 256 (leNat (sha256 (bigBytes 55 d.v.toNat))),
      { x with drbg := some d.request.2 })) ∧
    (permit = true → x.challenge ≠ [] → good = true → exec (.debugUnlock (some sig)) s = .next
      { s with sec := { x with unlockNext := true, challenge := [] } }) ∧
    (x.challenge = [] ∨ good = false → exec (.debugUnlock (some sig)) s = .next s)

/-- BROWN_OUT, OVERCURRENT_TRIP, WATCHDOG, FIRMWARE_REQUEST, BULLOCK_FAULT, THERMAL_TRIP_CLEAR, RESET_PIN, RESET_N_RELEASE, PWR_EN_RISE,
PWR_EN_FALL, PWR_EN_HOLD_END and POWER_ON (R364, R379, R383 to R385, R391, R395, R422, R441): each source sets its bit of CAUSE and runs its kind
of reset, or, while an emergency stop, PWR_EN, the input or RESET_N holds it back, the reset waits and the module is not
ready; an input that does not come back stops the module until a reset can start; the stop of a trip ends once every sensor is
cool; power-on clears all but what is non-volatile. RESETS and BOOT_FAIL at 0 after PWR_EN and the pin reset at its assertion
(log 63), the resets that wait (log 64), the brown-out that waits (log 126) and the cleared core SRAM (log 3) are the model's
choices. -/
def Obligations.Resets : Prop :=
  ∀ (mv : BitVec 16) (cold : Bool) (s : State),
    let waits (t : State) (cold : Bool) (bit : Nat) : Prop :=
      t.rst.cause = setBit s.rst.cause bit ∧ t.rst.waiting = some (cold || s.rst.waiting == some true) ∧ t.rst.ready = false ∧
      t.cores = s.cores ∧ t.ms = s.ms ∧ t.fab = s.fab ∧ t.sec = s.sec ∧ t.pins = s.pins
    let cool : Prop := s.pwr.tjMax.toNat ≤ 95 ∧ s.pwr.hbmMax.toNat ≤ 85 ∧ s.pwr.optMax.toNat ≤ 70
    let kind (cold : Bool) : Bool := cold || s.rst.waiting == some true
    (∀ row ∈ [((.overcurrentTrip : Instr), true, 7), (.firmwareRequest cold, cold, 7), (.bullockFault, false, 8)],
      ∃ t, exec row.1 s = .next t ∧ (s.resetBlocked = false → s.ResetDone t (kind row.2.1) row.2.2) ∧
        (s.resetBlocked = true → waits t row.2.1 row.2.2)) ∧
    (∃ t, exec (.brownOut ⟨mv, true⟩) s = .next t ∧ (s.resetBlocked = false → s.ResetDone t true 1) ∧
      (s.resetBlocked = true → t.rst.cause = setBit s.rst.cause 1 ∧ t.rst.waiting = some true ∧ t.rst.ready = false ∧ t.cores = s.cores ∧
        t.ms = s.ms ∧ t.fab = s.fab ∧ t.sec = s.sec ∧ t.pins = { s.pins with pwrGood := false } ∧ t.pwr = s.pwr)) ∧
    (∃ t, exec (.brownOut ⟨mv, false⟩) s = .next t ∧ t.pins = { s.pins with pwrGood := false } ∧
      t.pwr = { s.pwr with switchOn := false, stopBrown := true } ∧
      t.rst = { s.rst with ready := false, cause := setBit s.rst.cause 1, waiting := some true } ∧
      t = { s with pins := t.pins, pwr := t.pwr, rst := t.rst, goose := t.goose }) ∧
    (s.rst.recovery = true ∨ s.stewardDown = true → exec .watchdog s = .next s) ∧
    (s.rst.recovery = false → s.stewardDown = false → ∃ t, exec .watchdog s = .next t ∧ (s.resetBlocked = false → s.ResetDone t (kind false) 5) ∧
      (s.resetBlocked = true → waits t false 5 ∧ t.rst.bootFail = if s.rst.ready then s.rst.bootFail else satInc s.rst.bootFail)) ∧
    (s.pwr.stopThermal = false ∨ ¬ cool → exec .thermalTripClear s = .next s) ∧
    (s.pwr.stopThermal = true → cool → ∃ t, exec .thermalTripClear s = .next t ∧ t.pwr.stopThermal = false ∧
      (s.pwr.stopBrown = false → s.pins.pwrEn = true → s.rst.held = false → s.ResetDone t (kind false) 6)) ∧
    (s.pins.resetN = false → exec .resetPin s = .next s) ∧
    (s.pins.resetN = true → ∃ t, exec .resetPin s = .next t ∧ t.pins.resetN = false ∧ t.rst.held = true ∧ t.rst.ready = false ∧
      t.rst.waiting = some true ∧ t.rst.cause = setBit s.rst.cause 2 ∧ t.rst.resets = s.rst.resets ∧
      t.cores = Vector.replicate 8 {} ∧ t.ms.mem = [] ∧ t.time = s.time ∧ t.sec.revoked = s.sec.fuseDone.revoked) ∧
    (s.rst.waiting = none → exec .resetNRelease s = .next
      { s with pins := { s.pins with resetN := true }, rst := { s.rst with held := false } }) ∧
    (∀ c, s.rst.waiting = some c → s.pwr.stopThermal = false → s.pwr.stopBrown = false → s.pins.pwrEn = true → ∃ t, exec .resetNRelease s = .next t ∧
      t.pins.resetN = true ∧ t.rst.held = false ∧ t.rst.waiting = none ∧
      t.rst.resets = (if s.rst.powerUp then 0 else satInc s.rst.resets) ∧
      t.cores = Vector.replicate 8 {} ∧ (c = true → t.ms.mem = [])) ∧
    exec .pwrEnFall s = .next
      { s with pins := { s.pins with pwrEn := false, pwrEnHeld := false, pwrGood := false }, rst := { s.rst with ready := false },
               pwr := { s.pwr with switchOn := false, stopEn := true } } ∧
    (s.pins.pwrEn = true → exec (.pwrEnRise cold) s = .next s) ∧
    (s.pins.pwrEn = false → exec (.pwrEnRise true) s = .next { s with pins := { s.pins with pwrEnHeld := true } }) ∧
    (s.pins.pwrEnHeld = false → exec .pwrEnHoldEnd s = .next s) ∧
    (∀ i, (s.pins.pwrEn = false ∧ i = .pwrEnRise false) ∨ (s.pins.pwrEnHeld = true ∧ i = .pwrEnHoldEnd) →
      ∃ t, exec i s = .next t ∧ t.pins.pwrEn = true ∧ t.pins.pwrEnHeld = false ∧ t.pwr.stopBrown = false ∧ t.pwr.stopEn = false ∧
        (s.pwr.stopThermal = true ∨ s.rst.held = true → t.rst.waiting = some true ∧ t.rst.ready = false ∧
          t.rst.cause = setBit s.rst.cause 0 ∧ t.cores = s.cores) ∧
        (s.pwr.stopThermal = false → s.rst.held = false → t.pwr.switchOn = true ∧ t.rst.waiting = none ∧ t.rst.resets = 0 ∧
          t.cores = Vector.replicate 8 {} ∧ t.ms.mem = [])) ∧
    (∃ t, exec (.powerOn cold) s = .next t ∧ t.cores = Vector.replicate 8 {} ∧ t.ms.mem = [] ∧ t.time.ft = 0 ∧ t.eth.qps = [] ∧
      t.rst.cause.getLsbD 0 = true ∧ t.rst.resets = 0 ∧ t.goose.hours = s.goose.hours ∧ t.goose.pcycle = satInc s.goose.pcycle ∧
      t.sec.revoked = s.sec.revoked ∧ t.sec.floorSt = s.sec.floorSt ∧ t.sec.floorBu = s.sec.floorBu ∧ t.pending = s.pending ∧
      t.pins.pwrEn = cold ∧ t.pins.pwrGood = (cold && s.pins.resetN) ∧ t.rst.held = !s.pins.resetN ∧
      (cold = false ∨ s.pins.resetN = false → t.fl.flash = s.fl.flash ∧ t.rst.waiting = some true ∧ t.rst.ready = false ∧
        t.pwr.stopEn = !cold))

/-- R389 on POWER_ON without PWR_EN: when neither option-byte sector is valid the safe defaults are in force, and the module is
restricted. -/
def Obligations.SafeDefaults : Prop :=
  ∀ s : State, optionGood (s.fl.bytes 0 256) = false → optionGood (s.fl.bytes 0x10000 256) = false →
    ∃ t, exec (.powerOn false) s = .next t ∧ t.fl.opt 6 1 = 0xFF ∧ t.fl.opt 7 1 = 1 ∧ t.fl.opt 8 2 = 1300 ∧ t.pwr.ceilingW = 1300 ∧
      t.fl.opt 0xA 2 = 240 ∧ t.fl.opt 0xC 2 = 270 ∧ t.fl.opt 0xE 2 = 300 ∧ t.fl.opt 0x10 1 = 0 ∧ t.fab.permit = false ∧
      slice t.fl.ob 0x20 16 = List.replicate 16 0 ∧ t.rst.restricted.getLsbD 0 = true ∧ t.rst.cause.getLsbD 16 = true

/-- R377 on TEMPERATURE_SAMPLE: above the inlet limit of the thermal hardware the limit in force falls by 50 W or 40 W per °C, down to
600 W, and the coolant reason is asserted; a failed inlet sensor is a plant fault. -/
def Obligations.InletLimit : Prop :=
  ∀ (h : HeatSample) (s : State),
    let sample : Instr := .temperatureSample h.compute h.others h.optical h.toPlantSample
    let inlet := h.inlet
    let air : Bool := s.fl.opt 7 1 == 1
    let top : Nat := if air then 35 else 40
    let perDegree : Nat := if air then 40 else 50
    let usual : Nat := State.limitNow { s with pwr := { s.pwr with inlet := 0 } }
    (h.inletOk = true → top < inlet.toNat → ∃ t, exec sample s = .next t ∧ t.pwr.asserted.getLsbD 4 = true ∧
      t.pwr.limitW.toNat = max (min 600 usual) (usual - (inlet.toNat - top) * perDegree)) ∧
    (h.inletOk = true → inlet.toNat ≤ top → ∃ t, exec sample s = .next t ∧ t.pwr.limitW.toNat = usual) ∧
    (h.inletOk = false → (4, 0) ∉ s.pwr.conds → ∃ t, exec sample s = .next t ∧ t.pwr.plantFault = true ∧
      t.pwr.plantFaults = if s.pwr.plantFault then s.pwr.plantFaults else satInc s.pwr.plantFaults)

/-- CTRL_FREEZE, CTRL_THAW, GOOSE_RECORD_WRITE, REPEAT_UPDATE, FREEZE_TIMEOUT and HOURS_TIMER (R419 to R425), and the coalescing of an event that
repeats (R423): a freeze stops writes and marks what waits, and restarts its timeout while frozen; a thaw and a timeout write
what waits; a record takes the next SEQ and its slot, after the sequence numbers of attempts that failed; held repeats reach
their records. How often a write fails, at most 15 times for each record, is the model's free value (log 141). -/
def Obligations.GooseCommands : Prop :=
  ∀ (n : BitVec 8) (fails : Fin 16) (mv : BitVec 16) (s : State),
    let g := s.goose
    let maxS : BitVec 8 := if n = 0 then g.freezeMaxS else n
    let gooseOnly (t : State) : Prop := t = { s with goose := t.goose }
    let e : GEvent := { source := 0x02, code := 0x01, detail := [(mv.toNat, 2)] }
    (g.frozen = true → exec (.ctrlFreeze n) s = .next { s with goose := { g with freezeMaxS := maxS, freezeFt := s.now } }) ∧
    (g.frozen = false → ∃ t, exec (.ctrlFreeze n) s = .next t ∧ gooseOnly t ∧ t.goose.frozen = true ∧ t.goose.freezeFt = s.now ∧
      t.goose.frozenSince = s.now ∧ t.goose.freezeMaxS = maxS ∧ t.goose.held = [] ∧ t.goose.nextSeq = g.nextSeq ∧
      t.goose.queue = g.queue.map (fun r => { r with lateWrite := true })) ∧
    (g.frozen = false → exec (.ctrlThaw n) s = .next { s with goose := { g with freezeMaxS := maxS } }) ∧
    (g.frozen = true → g.lost = 0 → ∃ t, exec (.ctrlThaw n) s = .next t ∧ gooseOnly t ∧ t.goose.frozen = false ∧ t.goose.queue = [] ∧
      (∃ k : Fin (15 * g.queue.length + 1), t.goose.nextSeq = g.nextSeq + BitVec.ofNat 32 (g.queue.length + k.val)) ∧ t.goose.freezeMaxS = maxS) ∧
    (g.frozen = true ∨ g.queue = [] → exec (.gooseRecordWrite fails) s = .next s) ∧
    (∀ r rest, g.frozen = false → g.queue = r :: rest → g.lost = 0 → ∃ t, exec (.gooseRecordWrite fails) s = .next t ∧ gooseOnly t ∧
      t.goose.queue = rest ∧ t.goose.nextSeq = g.nextSeq + BitVec.ofNat 32 fails.val + 1 ∧
      t.goose.bySeq (g.nextSeq + BitVec.ofNat 32 fails.val) = some { r with seq := g.nextSeq + BitVec.ofNat 32 fails.val } ∧
      t.goose.nvmFail = (g.nvmFail || decide (0 < fails.val)) ∧ t.goose.held = g.held) ∧
    (g.frozen = true → exec .repeatUpdate s = .next s) ∧
    (g.frozen = false → ∃ t, exec .repeatUpdate s = .next t ∧ gooseOnly t ∧ t.goose.held = [] ∧ t.goose.queue = g.queue ∧
      t.goose.nextSeq = g.nextSeq ∧
      (∀ q r, g.bySeq q = some r → t.goose.bySeq q = some { r with repeats := (g.word7 r).1, lastMs := (g.word7 r).2 })) ∧
    (g.frozen = false → exec .freezeTimeout s = .next s) ∧
    (g.frozen = true → g.lost = 0 → g.queue.length < 256 → ∃ t, exec .freezeTimeout s = .next t ∧ gooseOnly t ∧
      t.goose.frozen = false ∧ t.goose.queue = [] ∧
      let q := g.nextSeq + BitVec.ofNat 32 (Config.failedWrites g.nextSeq).val
      (g.queue = [] → findWritten g { source := 0, code := 2, detail := [(g.secondsFrozen, 4)] } = none → ∃ r, t.goose.bySeq q = some r ∧ r.source = 0 ∧ r.code = 2 ∧
        fldN r.detail 0 32 = ((g.freezeFt - g.frozenSince).toNat / 1000000000 + g.freezeMaxS.toNat) % 2 ^ 32)) ∧
    (s.pins.pwrGood = false → exec .hoursTimer s = .next s) ∧
    (s.pins.pwrGood = true → exec .hoursTimer s = .next { s with goose := { g with hours := satInc g.hours } }) ∧
    (g.queue.length < 256 → findQueued g.queue e = none → findWritten g e = none → ∃ t u, exec (.inputLow mv) s = .next t ∧
      exec (.inputLow mv) t = .next u ∧ u.goose.nextSeq = g.nextSeq ∧
      ∃ r, t.goose.queue = g.queue ++ [r] ∧ u.goose.queue = g.queue ++ [{ r with repeats := 1, lastMs := 0 }] ∧ r.ft = s.now ∧
        r.hours = g.hours ∧ r.source = 0x02 ∧ r.code = 0x01 ∧ r.repeats = 0)

/-- SLOT_ID_CHANGE, UART_FRAME_RECEIVED, UART_BYTE_TIMEOUT and the five rows of the SMBus (R441 to R444): a changed level is recorded and waits
for the next reset; a good UART frame gives its message to the steward, a wrong CRC-32, a wrong length, a broken byte or a
gap is counted; the target answers its own address only, from its copy of STATUS and SERIAL, and refuses any other
command. The SMBus address, the hunt after a wrong LEN and the old value that SLOT_ID_CHANGE records (log 92) and the packet
error code of an answer (log 130) are the model's choices. -/
def Obligations.PinsAndSerial : Prop :=
  ∀ (lv : BitVec 6) (m : List Byte) (img : Option JobImage) (held : Bool) (bs : List Byte) (addr : BitVec 7) (pec : Bool) (code : Byte) (s : State),
    let p := s.pins
    let rd : SmbRead := ⟨addr, pec⟩
    let wr : Byte := addr.setWidth 8 <<< 1
    let answer (code : Byte) (data : List Byte) : List Byte :=
      data ++ if pec then [pecOf ([wr, code, wr + 1, 16] ++ data)] else []
    let mine : Prop := addr.toNat = 0x58 + p.slotId.toNat % 8
    let frame := uartFrame m
    let crc := leBytes 4 (crc32 (leBytes 2 m.length ++ m)).toNat
    (lv = p.slotPins → exec (.slotIdChange lv) s = .next s) ∧
    (lv ≠ p.slotPins → exec (.slotIdChange lv) s = .next (State.log
      { s with pins := { p with slotPins := lv, slotChanged := true } }
      { source := 0x01, code := 0x80, detail := [(p.slotPins.toNat, 1), (lv.toNat, 1)] })) ∧
    (32 ≤ m.length → m.length ≤ 8192 → p.uartPart = [] → ∃ t, exec (.uartFrameReceived frame false img held) s = .next t ∧
      t = (s.gmcpIn { port := 2, msg := m, ft := s.now, image := img } held).modPins (fun p => { p with uartPart := [] })) ∧
    (32 ≤ m.length → m.length ≤ 8192 → p.uartPart = [] → bs.length = 4 → bs ≠ crc →
      exec (.uartFrameReceived ([0xA5, 0x5A] ++ leBytes 2 m.length ++ m ++ bs) false img held) s =
        .next { s with pins := { p with uartCrc := satInc p.uartCrc } }) ∧
    (∀ n, n < 65536 → (n < 32 ∨ 8192 < n) → p.uartPart = [] →
      exec (.uartFrameReceived ([0xA5, 0x5A] ++ leBytes 2 n) false img held) s =
        .next { s with pins := { p with uartFrame := satInc p.uartFrame } }) ∧
    (p.uartPart = [] → exec (.uartFrameReceived [] true img held) s = .next { s with pins := { p with uartFrame := satInc p.uartFrame } }) ∧
    (p.uartPart = [] → exec .uartByteTimeout s = .next s) ∧
    (p.uartPart ≠ [] → exec .uartByteTimeout s = .next { s with pins := { p with uartFrame := satInc p.uartFrame, uartPart := [] } }) ∧
    (¬ mine → ∀ i ∈ [(.smbusStatus rd : Instr), .smbusSerial rd, .smbusOtherCommand addr code], exec i s = .next s) ∧
    (mine → exec (.smbusStatus rd) s = .next { s with pins := { p with smbOut := some (answer 0 p.smbStatus), smbNacked := false } }) ∧
    (mine → exec (.smbusSerial rd) s = .next { s with pins := { p with smbOut := some (answer 1 p.smbSerial), smbNacked := false } }) ∧
    (mine → 2 ≤ code.toNat → exec (.smbusOtherCommand addr code) s = .next { s with pins := { p with smbOut := none, smbNacked := true } }) ∧
    exec .smbusTimeout s = .next { s with pins := { p with smbTimeout := satInc p.smbTimeout, smbOut := none, smbNacked := false } } ∧
    (∃ t, exec .smbusRefresh s = .next t ∧ t = { s with pins := { p with smbStatus := t.pins.smbStatus, smbSerial := t.pins.smbSerial } } ∧
      t.pins.smbSerial = slice s.fl.ob 0x20 16 ∧
      t.pins.smbStatus = leBytes 2 s.pwr.pinW.toNat ++ leBytes 2 s.pwr.limitW.toNat ++
        [s.pwr.tjMax, s.pwr.hbmMax, s.pwr.inlet, BitVec.ofNat 8 s.pwr.opCur.toNat, s.pwr.asserted,
          BitVec.ofNat 8 (b2n s.rst.ready + 2 * b2n (s.rst.restricted != 0) + 4 * b2n s.pwr.plantFault + 8 * b2n s.time.aligned)] ++
        leBytes 2 s.rst.cause.toNat ++ leBytes 4 s.goose.hours.toNat)

/-- A step runs the command at the front of the queue on the state whose queue is the rest; on an empty queue one tick of the block's
clock passes, which is the model's choice (assumption 1). -/
def Obligations.StepRunsFront : Prop :=
  ∀ (i : Instr) (rest : List Instr) (s : State),
    (s.pending = i :: rest → step s = exec i { s with pending := rest }) ∧ (s.pending = [] → step s = .next s.idleTick)

/-- The state after reset: empty queues, no core active, fabric time 0, canonical memories, and what its registers read: the values that
the field maps give (R44, R78, R126, R136, R159, R225, R251, R267, R316, R341, R361, R381, R400, R417, R432, R446), and zero for a register or
field without a stated value (log 2); the pins' levels and slot identity 63 (log 5), the option bytes not loaded (log 6), the fuses
clear (log 7) and 0 in the fields that the option bytes and the standing configuration load (log 8) are the model's choices. -/
def Obligations.ResetState : Prop :=
  let reads (a v : Nat) : Prop := (State.reset.regRead a).1 = BitVec.ofNat 64 v ∧ (State.reset.regRead a).2.1 = 0
  State.reset.MemWf ∧ State.reset.Calm ∧ State.reset.pending = [] ∧ State.reset.eth.queue = [] ∧
  (∀ c, c < 8 → (State.reset.core c).id.active = false ∧ (State.reset.core c).seq.callStack = []) ∧
  (∀ x ∈ [(0x100, 0x22A3F), (0x30000, 0xF288), (0x30020, 0x40000000), (0x30028, 0xFE00), (0x30038, 0xFFFF), (0x30200, 0xFF),
      (0x30210, 0xFF), (0x30220, 0xFF), (0x30230, 0xFF), (0x40008, 4), (0x40010, 0x3FFF001F0000), (0x50008, 0xA00),
      (0x100000, 0x3FFF), (0x200000, 0x30040), (0x200008, 0x1801), (0x200208, 0x3F3F3F), (0x204000, 4399724757007)], reads x.1 x.2) ∧
  (∀ a ∈ [0x108, 0x1000, 0x1008, 0x1010, 0x10000, 0x10008, 0x10010, 0x10018, 0x20100, 0x20200, 0x20208, 0x20210, 0x30008, 0x30010,
      0x30018, 0x30030, 0x30040, 0x30208, 0x30218, 0x30228, 0x30238, 0x40000, 0x40018, 0x40020, 0x40028, 0x40030, 0x40100, 0x40108,
      0x40110, 0x40118, 0x50000, 0x50010, 0x50018, 0x50020, 0x100008, 0x100010, 0x100018, 0x100020, 0x100028, 0x100030, 0x100038,
      0x180000, 0x180008, 0x180010, 0x180018, 0x180040, 0x180048, 0x180050, 0x180058, 0x180100, 0x180108], reads a 0) ∧
  (∀ w, w < 24 → reads (0x1100 + 8 * w) 0) ∧ (∀ w, w < 32 → reads (0x20000 + 8 * w) 0) ∧ (∀ r, r < 8 → reads (0x30100 + 8 * r) 0) ∧
  (∀ i, i < 64 → reads (0x100100 + 8 * i) 0) ∧
  (∀ k, k < 64 → reads (0x101000 + 32 * k) 0 ∧ reads (0x101008 + 32 * k) 0 ∧ reads (0x101010 + 32 * k) 0 ∧ reads (0x101018 + 32 * k) 2) ∧
  (∀ c, c < 8 → let reg (o : Nat) : Nat := 0x1000000 + 0x100000 * c + o
    reads (reg 0) (c + 16 * (c / 2)) ∧ reads (reg 0xA08) (2 ^ 56) ∧ reads (reg 0xF00) 1000 ∧
    (∀ q, q < 16 → reads (reg (0x100 + 8 * q)) 0x200 ∧ reads (reg (0x180 + 8 * q)) 0) ∧ (∀ k, k < 64 → reads (reg (0x400 + 8 * k)) 0) ∧
    ∀ o ∈ [0x8, 0x10, 0x18, 0x200, 0x208, 0x210, 0x218, 0x220, 0x228, 0x800, 0x900, 0x910, 0x918, 0x920, 0x928], reads (reg o) 0) ∧
  (∀ u, u < 2 → let reg (o : Nat) : Nat := 0x2000000 + 0x100000 * u + o
    reads (reg 0x8) 0x404 ∧ reads (reg 0x400) 0x40006400F3 ∧ reads (reg 0x410) 1 ∧ ∀ o ∈ [0x0, 0x10, 0x18, 0x20, 0x28, 0x408, 0x418], reads (reg o) 0)

/-- Every step keeps both byte memories in their canonical form, from every state that has it. -/
def Obligations.MemoriesStayCanonical : Prop :=
  ∀ s t : State, s.MemWf → step s = .next t → t.MemWf

/-- No command lowers a rollback floor or gives a revoked key back (R407): fuses are only programmed. -/
def Obligations.FusesOnlyRise : Prop :=
  ∀ s t : State, step s = .next t → s.sec.floorSt.toNat ≤ t.sec.floorSt.toNat ∧ s.sec.floorBu.toNat ≤ t.sec.floorBu.toNat ∧
    ∀ k, s.sec.revoked.getLsbD k = true → t.sec.revoked.getLsbD k = true
end

