-- ==== Sys2Proof/Laws/State.lean ====
section
/-! SUPPORT. One lemma per field and update of the state, so that no proof unfolds a record update. -/

namespace Sys2Proof.Machine

/-! ## modFab -/

@[simp] theorem State.modFab_pending (s : State) (f : FabBlk → FabBlk) : (s.modFab f).pending = s.pending := rfl
@[simp] theorem State.modFab_cores (s : State) (f : FabBlk → FabBlk) : (s.modFab f).cores = s.cores := rfl
@[simp] theorem State.modFab_ms (s : State) (f : FabBlk → FabBlk) : (s.modFab f).ms = s.ms := rfl
@[simp] theorem State.modFab_goose (s : State) (f : FabBlk → FabBlk) : (s.modFab f).goose = s.goose := rfl
@[simp] theorem State.modFab_fab (s : State) (f : FabBlk → FabBlk) : (s.modFab f).fab = f s.fab := rfl
@[simp] theorem State.modFab_time (s : State) (f : FabBlk → FabBlk) : (s.modFab f).time = s.time := rfl
@[simp] theorem State.modFab_ud (s : State) (f : FabBlk → FabBlk) : (s.modFab f).ud = s.ud := rfl
@[simp] theorem State.modFab_parts (s : State) (f : FabBlk → FabBlk) : (s.modFab f).parts = s.parts := rfl
@[simp] theorem State.modFab_eth (s : State) (f : FabBlk → FabBlk) : (s.modFab f).eth = s.eth := rfl
@[simp] theorem State.modFab_locals (s : State) (f : FabBlk → FabBlk) : (s.modFab f).locals = s.locals := rfl
@[simp] theorem State.modFab_pwr (s : State) (f : FabBlk → FabBlk) : (s.modFab f).pwr = s.pwr := rfl
@[simp] theorem State.modFab_rst (s : State) (f : FabBlk → FabBlk) : (s.modFab f).rst = s.rst := rfl
@[simp] theorem State.modFab_fl (s : State) (f : FabBlk → FabBlk) : (s.modFab f).fl = s.fl := rfl
@[simp] theorem State.modFab_sec (s : State) (f : FabBlk → FabBlk) : (s.modFab f).sec = s.sec := rfl
@[simp] theorem State.modFab_pins (s : State) (f : FabBlk → FabBlk) : (s.modFab f).pins = s.pins := rfl
@[simp] theorem State.modFab_free (s : State) (f : FabBlk → FabBlk) : (s.modFab f).free = s.free := rfl

/-! ## modTime -/

@[simp] theorem State.modTime_pending (s : State) (f : TimeBlk → TimeBlk) : (s.modTime f).pending = s.pending := rfl
@[simp] theorem State.modTime_cores (s : State) (f : TimeBlk → TimeBlk) : (s.modTime f).cores = s.cores := rfl
@[simp] theorem State.modTime_ms (s : State) (f : TimeBlk → TimeBlk) : (s.modTime f).ms = s.ms := rfl
@[simp] theorem State.modTime_goose (s : State) (f : TimeBlk → TimeBlk) : (s.modTime f).goose = s.goose := rfl
@[simp] theorem State.modTime_fab (s : State) (f : TimeBlk → TimeBlk) : (s.modTime f).fab = s.fab := rfl
@[simp] theorem State.modTime_time (s : State) (f : TimeBlk → TimeBlk) : (s.modTime f).time = f s.time := rfl
@[simp] theorem State.modTime_ud (s : State) (f : TimeBlk → TimeBlk) : (s.modTime f).ud = s.ud := rfl
@[simp] theorem State.modTime_parts (s : State) (f : TimeBlk → TimeBlk) : (s.modTime f).parts = s.parts := rfl
@[simp] theorem State.modTime_eth (s : State) (f : TimeBlk → TimeBlk) : (s.modTime f).eth = s.eth := rfl
@[simp] theorem State.modTime_locals (s : State) (f : TimeBlk → TimeBlk) : (s.modTime f).locals = s.locals := rfl
@[simp] theorem State.modTime_pwr (s : State) (f : TimeBlk → TimeBlk) : (s.modTime f).pwr = s.pwr := rfl
@[simp] theorem State.modTime_rst (s : State) (f : TimeBlk → TimeBlk) : (s.modTime f).rst = s.rst := rfl
@[simp] theorem State.modTime_fl (s : State) (f : TimeBlk → TimeBlk) : (s.modTime f).fl = s.fl := rfl
@[simp] theorem State.modTime_sec (s : State) (f : TimeBlk → TimeBlk) : (s.modTime f).sec = s.sec := rfl
@[simp] theorem State.modTime_pins (s : State) (f : TimeBlk → TimeBlk) : (s.modTime f).pins = s.pins := rfl
@[simp] theorem State.modTime_free (s : State) (f : TimeBlk → TimeBlk) : (s.modTime f).free = s.free := rfl

/-! ## modEth -/

@[simp] theorem State.modEth_pending (s : State) (f : EthBlk → EthBlk) : (s.modEth f).pending = s.pending := rfl
@[simp] theorem State.modEth_cores (s : State) (f : EthBlk → EthBlk) : (s.modEth f).cores = s.cores := rfl
@[simp] theorem State.modEth_ms (s : State) (f : EthBlk → EthBlk) : (s.modEth f).ms = s.ms := rfl
@[simp] theorem State.modEth_goose (s : State) (f : EthBlk → EthBlk) : (s.modEth f).goose = s.goose := rfl
@[simp] theorem State.modEth_fab (s : State) (f : EthBlk → EthBlk) : (s.modEth f).fab = s.fab := rfl
@[simp] theorem State.modEth_time (s : State) (f : EthBlk → EthBlk) : (s.modEth f).time = s.time := rfl
@[simp] theorem State.modEth_ud (s : State) (f : EthBlk → EthBlk) : (s.modEth f).ud = s.ud := rfl
@[simp] theorem State.modEth_parts (s : State) (f : EthBlk → EthBlk) : (s.modEth f).parts = s.parts := rfl
@[simp] theorem State.modEth_eth (s : State) (f : EthBlk → EthBlk) : (s.modEth f).eth = f s.eth := rfl
@[simp] theorem State.modEth_locals (s : State) (f : EthBlk → EthBlk) : (s.modEth f).locals = s.locals := rfl
@[simp] theorem State.modEth_pwr (s : State) (f : EthBlk → EthBlk) : (s.modEth f).pwr = s.pwr := rfl
@[simp] theorem State.modEth_rst (s : State) (f : EthBlk → EthBlk) : (s.modEth f).rst = s.rst := rfl
@[simp] theorem State.modEth_fl (s : State) (f : EthBlk → EthBlk) : (s.modEth f).fl = s.fl := rfl
@[simp] theorem State.modEth_sec (s : State) (f : EthBlk → EthBlk) : (s.modEth f).sec = s.sec := rfl
@[simp] theorem State.modEth_pins (s : State) (f : EthBlk → EthBlk) : (s.modEth f).pins = s.pins := rfl
@[simp] theorem State.modEth_free (s : State) (f : EthBlk → EthBlk) : (s.modEth f).free = s.free := rfl

/-! ## modPwr -/

@[simp] theorem State.modPwr_pending (s : State) (f : PwrBlk → PwrBlk) : (s.modPwr f).pending = s.pending := rfl
@[simp] theorem State.modPwr_cores (s : State) (f : PwrBlk → PwrBlk) : (s.modPwr f).cores = s.cores := rfl
@[simp] theorem State.modPwr_ms (s : State) (f : PwrBlk → PwrBlk) : (s.modPwr f).ms = s.ms := rfl
@[simp] theorem State.modPwr_goose (s : State) (f : PwrBlk → PwrBlk) : (s.modPwr f).goose = s.goose := rfl
@[simp] theorem State.modPwr_fab (s : State) (f : PwrBlk → PwrBlk) : (s.modPwr f).fab = s.fab := rfl
@[simp] theorem State.modPwr_time (s : State) (f : PwrBlk → PwrBlk) : (s.modPwr f).time = s.time := rfl
@[simp] theorem State.modPwr_ud (s : State) (f : PwrBlk → PwrBlk) : (s.modPwr f).ud = s.ud := rfl
@[simp] theorem State.modPwr_parts (s : State) (f : PwrBlk → PwrBlk) : (s.modPwr f).parts = s.parts := rfl
@[simp] theorem State.modPwr_eth (s : State) (f : PwrBlk → PwrBlk) : (s.modPwr f).eth = s.eth := rfl
@[simp] theorem State.modPwr_locals (s : State) (f : PwrBlk → PwrBlk) : (s.modPwr f).locals = s.locals := rfl
@[simp] theorem State.modPwr_pwr (s : State) (f : PwrBlk → PwrBlk) : (s.modPwr f).pwr = f s.pwr := rfl
@[simp] theorem State.modPwr_rst (s : State) (f : PwrBlk → PwrBlk) : (s.modPwr f).rst = s.rst := rfl
@[simp] theorem State.modPwr_fl (s : State) (f : PwrBlk → PwrBlk) : (s.modPwr f).fl = s.fl := rfl
@[simp] theorem State.modPwr_sec (s : State) (f : PwrBlk → PwrBlk) : (s.modPwr f).sec = s.sec := rfl
@[simp] theorem State.modPwr_pins (s : State) (f : PwrBlk → PwrBlk) : (s.modPwr f).pins = s.pins := rfl
@[simp] theorem State.modPwr_free (s : State) (f : PwrBlk → PwrBlk) : (s.modPwr f).free = s.free := rfl

/-! ## modRst -/

@[simp] theorem State.modRst_pending (s : State) (f : RstBlk → RstBlk) : (s.modRst f).pending = s.pending := rfl
@[simp] theorem State.modRst_cores (s : State) (f : RstBlk → RstBlk) : (s.modRst f).cores = s.cores := rfl
@[simp] theorem State.modRst_ms (s : State) (f : RstBlk → RstBlk) : (s.modRst f).ms = s.ms := rfl
@[simp] theorem State.modRst_goose (s : State) (f : RstBlk → RstBlk) : (s.modRst f).goose = s.goose := rfl
@[simp] theorem State.modRst_fab (s : State) (f : RstBlk → RstBlk) : (s.modRst f).fab = s.fab := rfl
@[simp] theorem State.modRst_time (s : State) (f : RstBlk → RstBlk) : (s.modRst f).time = s.time := rfl
@[simp] theorem State.modRst_ud (s : State) (f : RstBlk → RstBlk) : (s.modRst f).ud = s.ud := rfl
@[simp] theorem State.modRst_parts (s : State) (f : RstBlk → RstBlk) : (s.modRst f).parts = s.parts := rfl
@[simp] theorem State.modRst_eth (s : State) (f : RstBlk → RstBlk) : (s.modRst f).eth = s.eth := rfl
@[simp] theorem State.modRst_locals (s : State) (f : RstBlk → RstBlk) : (s.modRst f).locals = s.locals := rfl
@[simp] theorem State.modRst_pwr (s : State) (f : RstBlk → RstBlk) : (s.modRst f).pwr = s.pwr := rfl
@[simp] theorem State.modRst_rst (s : State) (f : RstBlk → RstBlk) : (s.modRst f).rst = f s.rst := rfl
@[simp] theorem State.modRst_fl (s : State) (f : RstBlk → RstBlk) : (s.modRst f).fl = s.fl := rfl
@[simp] theorem State.modRst_sec (s : State) (f : RstBlk → RstBlk) : (s.modRst f).sec = s.sec := rfl
@[simp] theorem State.modRst_pins (s : State) (f : RstBlk → RstBlk) : (s.modRst f).pins = s.pins := rfl
@[simp] theorem State.modRst_free (s : State) (f : RstBlk → RstBlk) : (s.modRst f).free = s.free := rfl

/-! ## modFl -/

@[simp] theorem State.modFl_pending (s : State) (f : FlashBlk → FlashBlk) : (s.modFl f).pending = s.pending := rfl
@[simp] theorem State.modFl_cores (s : State) (f : FlashBlk → FlashBlk) : (s.modFl f).cores = s.cores := rfl
@[simp] theorem State.modFl_ms (s : State) (f : FlashBlk → FlashBlk) : (s.modFl f).ms = s.ms := rfl
@[simp] theorem State.modFl_goose (s : State) (f : FlashBlk → FlashBlk) : (s.modFl f).goose = s.goose := rfl
@[simp] theorem State.modFl_fab (s : State) (f : FlashBlk → FlashBlk) : (s.modFl f).fab = s.fab := rfl
@[simp] theorem State.modFl_time (s : State) (f : FlashBlk → FlashBlk) : (s.modFl f).time = s.time := rfl
@[simp] theorem State.modFl_ud (s : State) (f : FlashBlk → FlashBlk) : (s.modFl f).ud = s.ud := rfl
@[simp] theorem State.modFl_parts (s : State) (f : FlashBlk → FlashBlk) : (s.modFl f).parts = s.parts := rfl
@[simp] theorem State.modFl_eth (s : State) (f : FlashBlk → FlashBlk) : (s.modFl f).eth = s.eth := rfl
@[simp] theorem State.modFl_locals (s : State) (f : FlashBlk → FlashBlk) : (s.modFl f).locals = s.locals := rfl
@[simp] theorem State.modFl_pwr (s : State) (f : FlashBlk → FlashBlk) : (s.modFl f).pwr = s.pwr := rfl
@[simp] theorem State.modFl_rst (s : State) (f : FlashBlk → FlashBlk) : (s.modFl f).rst = s.rst := rfl
@[simp] theorem State.modFl_fl (s : State) (f : FlashBlk → FlashBlk) : (s.modFl f).fl = f s.fl := rfl
@[simp] theorem State.modFl_sec (s : State) (f : FlashBlk → FlashBlk) : (s.modFl f).sec = s.sec := rfl
@[simp] theorem State.modFl_pins (s : State) (f : FlashBlk → FlashBlk) : (s.modFl f).pins = s.pins := rfl
@[simp] theorem State.modFl_free (s : State) (f : FlashBlk → FlashBlk) : (s.modFl f).free = s.free := rfl

/-! ## modSec -/

@[simp] theorem State.modSec_pending (s : State) (f : SecBlk → SecBlk) : (s.modSec f).pending = s.pending := rfl
@[simp] theorem State.modSec_cores (s : State) (f : SecBlk → SecBlk) : (s.modSec f).cores = s.cores := rfl
@[simp] theorem State.modSec_ms (s : State) (f : SecBlk → SecBlk) : (s.modSec f).ms = s.ms := rfl
@[simp] theorem State.modSec_goose (s : State) (f : SecBlk → SecBlk) : (s.modSec f).goose = s.goose := rfl
@[simp] theorem State.modSec_fab (s : State) (f : SecBlk → SecBlk) : (s.modSec f).fab = s.fab := rfl
@[simp] theorem State.modSec_time (s : State) (f : SecBlk → SecBlk) : (s.modSec f).time = s.time := rfl
@[simp] theorem State.modSec_ud (s : State) (f : SecBlk → SecBlk) : (s.modSec f).ud = s.ud := rfl
@[simp] theorem State.modSec_parts (s : State) (f : SecBlk → SecBlk) : (s.modSec f).parts = s.parts := rfl
@[simp] theorem State.modSec_eth (s : State) (f : SecBlk → SecBlk) : (s.modSec f).eth = s.eth := rfl
@[simp] theorem State.modSec_locals (s : State) (f : SecBlk → SecBlk) : (s.modSec f).locals = s.locals := rfl
@[simp] theorem State.modSec_pwr (s : State) (f : SecBlk → SecBlk) : (s.modSec f).pwr = s.pwr := rfl
@[simp] theorem State.modSec_rst (s : State) (f : SecBlk → SecBlk) : (s.modSec f).rst = s.rst := rfl
@[simp] theorem State.modSec_fl (s : State) (f : SecBlk → SecBlk) : (s.modSec f).fl = s.fl := rfl
@[simp] theorem State.modSec_sec (s : State) (f : SecBlk → SecBlk) : (s.modSec f).sec = f s.sec := rfl
@[simp] theorem State.modSec_pins (s : State) (f : SecBlk → SecBlk) : (s.modSec f).pins = s.pins := rfl
@[simp] theorem State.modSec_free (s : State) (f : SecBlk → SecBlk) : (s.modSec f).free = s.free := rfl

/-! ## modPins -/

@[simp] theorem State.modPins_pending (s : State) (f : PinBlk → PinBlk) : (s.modPins f).pending = s.pending := rfl
@[simp] theorem State.modPins_cores (s : State) (f : PinBlk → PinBlk) : (s.modPins f).cores = s.cores := rfl
@[simp] theorem State.modPins_ms (s : State) (f : PinBlk → PinBlk) : (s.modPins f).ms = s.ms := rfl
@[simp] theorem State.modPins_goose (s : State) (f : PinBlk → PinBlk) : (s.modPins f).goose = s.goose := rfl
@[simp] theorem State.modPins_fab (s : State) (f : PinBlk → PinBlk) : (s.modPins f).fab = s.fab := rfl
@[simp] theorem State.modPins_time (s : State) (f : PinBlk → PinBlk) : (s.modPins f).time = s.time := rfl
@[simp] theorem State.modPins_ud (s : State) (f : PinBlk → PinBlk) : (s.modPins f).ud = s.ud := rfl
@[simp] theorem State.modPins_parts (s : State) (f : PinBlk → PinBlk) : (s.modPins f).parts = s.parts := rfl
@[simp] theorem State.modPins_eth (s : State) (f : PinBlk → PinBlk) : (s.modPins f).eth = s.eth := rfl
@[simp] theorem State.modPins_locals (s : State) (f : PinBlk → PinBlk) : (s.modPins f).locals = s.locals := rfl
@[simp] theorem State.modPins_pwr (s : State) (f : PinBlk → PinBlk) : (s.modPins f).pwr = s.pwr := rfl
@[simp] theorem State.modPins_rst (s : State) (f : PinBlk → PinBlk) : (s.modPins f).rst = s.rst := rfl
@[simp] theorem State.modPins_fl (s : State) (f : PinBlk → PinBlk) : (s.modPins f).fl = s.fl := rfl
@[simp] theorem State.modPins_sec (s : State) (f : PinBlk → PinBlk) : (s.modPins f).sec = s.sec := rfl
@[simp] theorem State.modPins_pins (s : State) (f : PinBlk → PinBlk) : (s.modPins f).pins = f s.pins := rfl
@[simp] theorem State.modPins_free (s : State) (f : PinBlk → PinBlk) : (s.modPins f).free = s.free := rfl

/-! ## modMs -/

@[simp] theorem State.modMs_pending (s : State) (f : MemSys → MemSys) : (s.modMs f).pending = s.pending := rfl
@[simp] theorem State.modMs_cores (s : State) (f : MemSys → MemSys) : (s.modMs f).cores = s.cores := rfl
@[simp] theorem State.modMs_ms (s : State) (f : MemSys → MemSys) : (s.modMs f).ms = f s.ms := rfl
@[simp] theorem State.modMs_goose (s : State) (f : MemSys → MemSys) : (s.modMs f).goose = s.goose := rfl
@[simp] theorem State.modMs_fab (s : State) (f : MemSys → MemSys) : (s.modMs f).fab = s.fab := rfl
@[simp] theorem State.modMs_time (s : State) (f : MemSys → MemSys) : (s.modMs f).time = s.time := rfl
@[simp] theorem State.modMs_ud (s : State) (f : MemSys → MemSys) : (s.modMs f).ud = s.ud := rfl
@[simp] theorem State.modMs_parts (s : State) (f : MemSys → MemSys) : (s.modMs f).parts = s.parts := rfl
@[simp] theorem State.modMs_eth (s : State) (f : MemSys → MemSys) : (s.modMs f).eth = s.eth := rfl
@[simp] theorem State.modMs_locals (s : State) (f : MemSys → MemSys) : (s.modMs f).locals = s.locals := rfl
@[simp] theorem State.modMs_pwr (s : State) (f : MemSys → MemSys) : (s.modMs f).pwr = s.pwr := rfl
@[simp] theorem State.modMs_rst (s : State) (f : MemSys → MemSys) : (s.modMs f).rst = s.rst := rfl
@[simp] theorem State.modMs_fl (s : State) (f : MemSys → MemSys) : (s.modMs f).fl = s.fl := rfl
@[simp] theorem State.modMs_sec (s : State) (f : MemSys → MemSys) : (s.modMs f).sec = s.sec := rfl
@[simp] theorem State.modMs_pins (s : State) (f : MemSys → MemSys) : (s.modMs f).pins = s.pins := rfl
@[simp] theorem State.modMs_free (s : State) (f : MemSys → MemSys) : (s.modMs f).free = s.free := rfl

/-! ## modGoose -/

@[simp] theorem State.modGoose_pending (s : State) (f : Goose → Goose) : (s.modGoose f).pending = s.pending := rfl
@[simp] theorem State.modGoose_cores (s : State) (f : Goose → Goose) : (s.modGoose f).cores = s.cores := rfl
@[simp] theorem State.modGoose_ms (s : State) (f : Goose → Goose) : (s.modGoose f).ms = s.ms := rfl
@[simp] theorem State.modGoose_goose (s : State) (f : Goose → Goose) : (s.modGoose f).goose = f s.goose := rfl
@[simp] theorem State.modGoose_fab (s : State) (f : Goose → Goose) : (s.modGoose f).fab = s.fab := rfl
@[simp] theorem State.modGoose_time (s : State) (f : Goose → Goose) : (s.modGoose f).time = s.time := rfl
@[simp] theorem State.modGoose_ud (s : State) (f : Goose → Goose) : (s.modGoose f).ud = s.ud := rfl
@[simp] theorem State.modGoose_parts (s : State) (f : Goose → Goose) : (s.modGoose f).parts = s.parts := rfl
@[simp] theorem State.modGoose_eth (s : State) (f : Goose → Goose) : (s.modGoose f).eth = s.eth := rfl
@[simp] theorem State.modGoose_locals (s : State) (f : Goose → Goose) : (s.modGoose f).locals = s.locals := rfl
@[simp] theorem State.modGoose_pwr (s : State) (f : Goose → Goose) : (s.modGoose f).pwr = s.pwr := rfl
@[simp] theorem State.modGoose_rst (s : State) (f : Goose → Goose) : (s.modGoose f).rst = s.rst := rfl
@[simp] theorem State.modGoose_fl (s : State) (f : Goose → Goose) : (s.modGoose f).fl = s.fl := rfl
@[simp] theorem State.modGoose_sec (s : State) (f : Goose → Goose) : (s.modGoose f).sec = s.sec := rfl
@[simp] theorem State.modGoose_pins (s : State) (f : Goose → Goose) : (s.modGoose f).pins = s.pins := rfl
@[simp] theorem State.modGoose_free (s : State) (f : Goose → Goose) : (s.modGoose f).free = s.free := rfl

/-! ## modCore -/

@[simp] theorem State.modCore_pending (s : State) (k : Nat) (f : Core → Core) : (s.modCore k f).pending = s.pending := rfl
@[simp] theorem State.modCore_cores (s : State) (k : Nat) (f : Core → Core) : (s.modCore k f).cores = vmod s.cores k f := rfl
@[simp] theorem State.modCore_ms (s : State) (k : Nat) (f : Core → Core) : (s.modCore k f).ms = s.ms := rfl
@[simp] theorem State.modCore_goose (s : State) (k : Nat) (f : Core → Core) : (s.modCore k f).goose = s.goose := rfl
@[simp] theorem State.modCore_fab (s : State) (k : Nat) (f : Core → Core) : (s.modCore k f).fab = s.fab := rfl
@[simp] theorem State.modCore_time (s : State) (k : Nat) (f : Core → Core) : (s.modCore k f).time = s.time := rfl
@[simp] theorem State.modCore_ud (s : State) (k : Nat) (f : Core → Core) : (s.modCore k f).ud = s.ud := rfl
@[simp] theorem State.modCore_parts (s : State) (k : Nat) (f : Core → Core) : (s.modCore k f).parts = s.parts := rfl
@[simp] theorem State.modCore_eth (s : State) (k : Nat) (f : Core → Core) : (s.modCore k f).eth = s.eth := rfl
@[simp] theorem State.modCore_locals (s : State) (k : Nat) (f : Core → Core) : (s.modCore k f).locals = s.locals := rfl
@[simp] theorem State.modCore_pwr (s : State) (k : Nat) (f : Core → Core) : (s.modCore k f).pwr = s.pwr := rfl
@[simp] theorem State.modCore_rst (s : State) (k : Nat) (f : Core → Core) : (s.modCore k f).rst = s.rst := rfl
@[simp] theorem State.modCore_fl (s : State) (k : Nat) (f : Core → Core) : (s.modCore k f).fl = s.fl := rfl
@[simp] theorem State.modCore_sec (s : State) (k : Nat) (f : Core → Core) : (s.modCore k f).sec = s.sec := rfl
@[simp] theorem State.modCore_pins (s : State) (k : Nat) (f : Core → Core) : (s.modCore k f).pins = s.pins := rfl
@[simp] theorem State.modCore_free (s : State) (k : Nat) (f : Core → Core) : (s.modCore k f).free = s.free := rfl

/-! ## modUd -/

@[simp] theorem State.modUd_pending (s : State) (k : Nat) (f : Ud → Ud) : (s.modUd k f).pending = s.pending := rfl
@[simp] theorem State.modUd_cores (s : State) (k : Nat) (f : Ud → Ud) : (s.modUd k f).cores = s.cores := rfl
@[simp] theorem State.modUd_ms (s : State) (k : Nat) (f : Ud → Ud) : (s.modUd k f).ms = s.ms := rfl
@[simp] theorem State.modUd_goose (s : State) (k : Nat) (f : Ud → Ud) : (s.modUd k f).goose = s.goose := rfl
@[simp] theorem State.modUd_fab (s : State) (k : Nat) (f : Ud → Ud) : (s.modUd k f).fab = s.fab := rfl
@[simp] theorem State.modUd_time (s : State) (k : Nat) (f : Ud → Ud) : (s.modUd k f).time = s.time := rfl
@[simp] theorem State.modUd_ud (s : State) (k : Nat) (f : Ud → Ud) : (s.modUd k f).ud = vmod s.ud k f := rfl
@[simp] theorem State.modUd_parts (s : State) (k : Nat) (f : Ud → Ud) : (s.modUd k f).parts = s.parts := rfl
@[simp] theorem State.modUd_eth (s : State) (k : Nat) (f : Ud → Ud) : (s.modUd k f).eth = s.eth := rfl
@[simp] theorem State.modUd_locals (s : State) (k : Nat) (f : Ud → Ud) : (s.modUd k f).locals = s.locals := rfl
@[simp] theorem State.modUd_pwr (s : State) (k : Nat) (f : Ud → Ud) : (s.modUd k f).pwr = s.pwr := rfl
@[simp] theorem State.modUd_rst (s : State) (k : Nat) (f : Ud → Ud) : (s.modUd k f).rst = s.rst := rfl
@[simp] theorem State.modUd_fl (s : State) (k : Nat) (f : Ud → Ud) : (s.modUd k f).fl = s.fl := rfl
@[simp] theorem State.modUd_sec (s : State) (k : Nat) (f : Ud → Ud) : (s.modUd k f).sec = s.sec := rfl
@[simp] theorem State.modUd_pins (s : State) (k : Nat) (f : Ud → Ud) : (s.modUd k f).pins = s.pins := rfl
@[simp] theorem State.modUd_free (s : State) (k : Nat) (f : Ud → Ud) : (s.modUd k f).free = s.free := rfl

/-! ## modPart -/

@[simp] theorem State.modPart_pending (s : State) (k : Nat) (f : Part → Part) : (s.modPart k f).pending = s.pending := rfl
@[simp] theorem State.modPart_cores (s : State) (k : Nat) (f : Part → Part) : (s.modPart k f).cores = s.cores := rfl
@[simp] theorem State.modPart_ms (s : State) (k : Nat) (f : Part → Part) : (s.modPart k f).ms = s.ms := rfl
@[simp] theorem State.modPart_goose (s : State) (k : Nat) (f : Part → Part) : (s.modPart k f).goose = s.goose := rfl
@[simp] theorem State.modPart_fab (s : State) (k : Nat) (f : Part → Part) : (s.modPart k f).fab = s.fab := rfl
@[simp] theorem State.modPart_time (s : State) (k : Nat) (f : Part → Part) : (s.modPart k f).time = s.time := rfl
@[simp] theorem State.modPart_ud (s : State) (k : Nat) (f : Part → Part) : (s.modPart k f).ud = s.ud := rfl
@[simp] theorem State.modPart_parts (s : State) (k : Nat) (f : Part → Part) : (s.modPart k f).parts = vmod s.parts k f := rfl
@[simp] theorem State.modPart_eth (s : State) (k : Nat) (f : Part → Part) : (s.modPart k f).eth = s.eth := rfl
@[simp] theorem State.modPart_locals (s : State) (k : Nat) (f : Part → Part) : (s.modPart k f).locals = s.locals := rfl
@[simp] theorem State.modPart_pwr (s : State) (k : Nat) (f : Part → Part) : (s.modPart k f).pwr = s.pwr := rfl
@[simp] theorem State.modPart_rst (s : State) (k : Nat) (f : Part → Part) : (s.modPart k f).rst = s.rst := rfl
@[simp] theorem State.modPart_fl (s : State) (k : Nat) (f : Part → Part) : (s.modPart k f).fl = s.fl := rfl
@[simp] theorem State.modPart_sec (s : State) (k : Nat) (f : Part → Part) : (s.modPart k f).sec = s.sec := rfl
@[simp] theorem State.modPart_pins (s : State) (k : Nat) (f : Part → Part) : (s.modPart k f).pins = s.pins := rfl
@[simp] theorem State.modPart_free (s : State) (k : Nat) (f : Part → Part) : (s.modPart k f).free = s.free := rfl

/-! ## modLane, withPending -/

@[simp] theorem State.modLane_pending (s : State) (k : Nat) (f : Lane → Lane) : (s.modLane k f).pending = s.pending := rfl
@[simp] theorem State.modLane_cores (s : State) (k : Nat) (f : Lane → Lane) : (s.modLane k f).cores = s.cores := rfl
@[simp] theorem State.modLane_ms (s : State) (k : Nat) (f : Lane → Lane) : (s.modLane k f).ms = s.ms := rfl
@[simp] theorem State.modLane_goose (s : State) (k : Nat) (f : Lane → Lane) : (s.modLane k f).goose = s.goose := rfl
@[simp] theorem State.modLane_fab (s : State) (k : Nat) (f : Lane → Lane) : (s.modLane k f).fab = { s.fab with lanes := vmod s.fab.lanes k f } := rfl
@[simp] theorem State.modLane_time (s : State) (k : Nat) (f : Lane → Lane) : (s.modLane k f).time = s.time := rfl
@[simp] theorem State.modLane_ud (s : State) (k : Nat) (f : Lane → Lane) : (s.modLane k f).ud = s.ud := rfl
@[simp] theorem State.modLane_parts (s : State) (k : Nat) (f : Lane → Lane) : (s.modLane k f).parts = s.parts := rfl
@[simp] theorem State.modLane_eth (s : State) (k : Nat) (f : Lane → Lane) : (s.modLane k f).eth = s.eth := rfl
@[simp] theorem State.modLane_locals (s : State) (k : Nat) (f : Lane → Lane) : (s.modLane k f).locals = s.locals := rfl
@[simp] theorem State.modLane_pwr (s : State) (k : Nat) (f : Lane → Lane) : (s.modLane k f).pwr = s.pwr := rfl
@[simp] theorem State.modLane_rst (s : State) (k : Nat) (f : Lane → Lane) : (s.modLane k f).rst = s.rst := rfl
@[simp] theorem State.modLane_fl (s : State) (k : Nat) (f : Lane → Lane) : (s.modLane k f).fl = s.fl := rfl
@[simp] theorem State.modLane_sec (s : State) (k : Nat) (f : Lane → Lane) : (s.modLane k f).sec = s.sec := rfl
@[simp] theorem State.modLane_pins (s : State) (k : Nat) (f : Lane → Lane) : (s.modLane k f).pins = s.pins := rfl
@[simp] theorem State.modLane_free (s : State) (k : Nat) (f : Lane → Lane) : (s.modLane k f).free = s.free := rfl

@[simp] theorem State.withPending_pending (s : State) (l : List Instr) : (s.withPending l).pending = l := rfl
@[simp] theorem State.withPending_cores (s : State) (l : List Instr) : (s.withPending l).cores = s.cores := rfl
@[simp] theorem State.withPending_ms (s : State) (l : List Instr) : (s.withPending l).ms = s.ms := rfl
@[simp] theorem State.withPending_goose (s : State) (l : List Instr) : (s.withPending l).goose = s.goose := rfl
@[simp] theorem State.withPending_fab (s : State) (l : List Instr) : (s.withPending l).fab = s.fab := rfl
@[simp] theorem State.withPending_time (s : State) (l : List Instr) : (s.withPending l).time = s.time := rfl
@[simp] theorem State.withPending_ud (s : State) (l : List Instr) : (s.withPending l).ud = s.ud := rfl
@[simp] theorem State.withPending_parts (s : State) (l : List Instr) : (s.withPending l).parts = s.parts := rfl
@[simp] theorem State.withPending_eth (s : State) (l : List Instr) : (s.withPending l).eth = s.eth := rfl
@[simp] theorem State.withPending_locals (s : State) (l : List Instr) : (s.withPending l).locals = s.locals := rfl
@[simp] theorem State.withPending_pwr (s : State) (l : List Instr) : (s.withPending l).pwr = s.pwr := rfl
@[simp] theorem State.withPending_rst (s : State) (l : List Instr) : (s.withPending l).rst = s.rst := rfl
@[simp] theorem State.withPending_fl (s : State) (l : List Instr) : (s.withPending l).fl = s.fl := rfl
@[simp] theorem State.withPending_sec (s : State) (l : List Instr) : (s.withPending l).sec = s.sec := rfl
@[simp] theorem State.withPending_pins (s : State) (l : List Instr) : (s.withPending l).pins = s.pins := rfl
@[simp] theorem State.withPending_free (s : State) (l : List Instr) : (s.withPending l).free = s.free := rfl

/-! ## Reading back a changed element -/

@[simp] theorem getD_vmod {α : Type} {n : Nat} (v : Vector α n) (k i : Nat) (f : α → α) (d : α) :
    (vmod v k f).getD i d = if i = k ∧ k < n then f (v.getD k d) else v.getD i d := by
  unfold vmod
  by_cases h : k < n
  · by_cases e : i = k
    · subst e; simp [h, Vector.getD]
    · simp [h, e, Vector.getD, Ne.symm e]
  · simp [h]

@[simp] theorem State.core_modCore (s : State) (k i : Nat) (f : Core → Core) :
    (s.modCore k f).core i = if i = k ∧ k < 8 then f (s.core k) else s.core i := by
  simp [State.core, State.modCore]

@[simp] theorem State.udOf_modUd (s : State) (k i : Nat) (f : Ud → Ud) :
    (s.modUd k f).udOf i = if i = k ∧ k < 2 then f (s.udOf k) else s.udOf i := by
  simp [State.udOf, State.modUd]

@[simp] theorem State.part_modPart (s : State) (k i : Nat) (f : Part → Part) :
    (s.modPart k f).part i = if i = k ∧ k < 8 then f (s.part k) else s.part i := by
  simp [State.part, State.modPart]

@[simp] theorem State.lane_modLane (s : State) (k i : Nat) (f : Lane → Lane) :
    (s.modLane k f).lane i = if i = k ∧ k < 64 then f (s.lane k) else s.lane i := by
  simp [State.lane, State.modLane]

end Sys2Proof.Machine
end

