-- ==== Sys2Proof/Laws/Settle.lean ====
section
/-! SUPPORT. What settling does: nothing in a quiet, steady state; one issue when one word waits on one core. -/

namespace Sys2Proof.Machine

theorem State.checkEnd_steady (s : State) (h : s.Steady) : s.checkEnd = s := by
  have h1 : (List.range 8).filter (fun c => (s.core c).id.active && s.programOver c) = [] := by
    simp only [List.filter_eq_nil_iff, List.mem_range, Bool.and_eq_true, not_and, Bool.not_eq_true]
    exact fun c hc ha => h.1 c hc ha
  have h2 : (List.range 8).filter (fun p => (s.part p).state == .running && !s.eth.armed.any (fun a => a.part == p)
      && ((s.part p).cores p).all (fun c => !(s.core c).id.active)) = [] := by
    simp only [List.filter_eq_nil_iff, List.mem_range, Bool.and_eq_true, not_and, Bool.not_eq_true, beq_iff_eq]
    intro p hp hr
    rcases h.2 p hp hr.1 with ha | ⟨c, hc, ha⟩
    · simp [ha] at hr
    · rw [List.all_eq_false]
      exact ⟨c, hc, by simp [ha]⟩
  unfold State.checkEnd
  rw [h1]
  simp only [List.foldl_nil]
  rw [h2]
  rfl

theorem State.noneLoud (s : State) (h : s.Quiet) : (List.range 8).filter (fun c => !(s.core c).quiet) = [] := by
  simp only [List.filter_eq_nil_iff, List.mem_range, Bool.not_eq_true']
  intro c hc; simp [h c hc]

/-- Settling changes nothing in a quiet, steady state. -/
theorem State.settle_quiet (s : State) (hq : s.Quiet) (hs : s.Steady) : s.settle = s := by
  simp only [State.settle, State.noneLoud s hq, List.foldl_nil, State.checkEnd_steady s hs, ite_self]

theorem State.loudOne (s : State) (c : Nat) (hc : c < 8) (hl : (s.core c).quiet = false)
    (ho : ∀ d, d < 8 → d ≠ c → (s.core d).quiet = true) : (List.range 8).filter (fun d => !(s.core d).quiet) = [c] := by
  have key : ∀ d, d < 8 → ((s.core d).quiet = !decide (d = c)) := by
    intro d hd
    by_cases e : d = c
    · subst e; simp [hl]
    · simp [e, ho d hd e]
  have e8 : List.range 8 = [0, 1, 2, 3, 4, 5, 6, 7] := rfl
  rw [e8]
  have hc' : c = 0 ∨ c = 1 ∨ c = 2 ∨ c = 3 ∨ c = 4 ∨ c = 5 ∨ c = 6 ∨ c = 7 := by omega
  rcases hc' with rfl | rfl | rfl | rfl | rfl | rfl | rfl | rfl <;>
    simp [List.filter, key]

theorem State.settleCore_quiet (c n : Nat) (s : State) (h : (s.core c).quiet = true) : State.settleCore c n s = s := by
  cases n with
  | zero => rfl
  | succ n => simp [State.settleCore, h]

/-- One core has one word; it issues, and the state it leaves is quiet and steady. -/
theorem State.settle_issue (s t : State) (c : Nat) (hc : c < 8) (hl : (s.core c).quiet = false)
    (ho : ∀ d, d < 8 → d ≠ c → (s.core d).quiet = true) (hn : s.stopped = false) (hi : (s.engineSide c).issueOne c = (t, true))
    (hq : t.Quiet) (hs : t.Steady) : s.settle = t := by
  have h1 : State.settleCore c 160 s = t := by
    rw [show (160 : Nat) = 159 + 1 from rfl, State.settleCore]
    simp only [hl, Bool.false_eq_true, if_false, hi, if_true]
    exact State.settleCore_quiet c 159 t (hq c hc)
  simp only [State.settle, hn, Bool.false_eq_true, if_false, State.loudOne s c hc hl ho, List.foldl_cons, List.foldl_nil, h1, State.noneLoud t hq,
    State.checkEnd_steady t hs]

/-- The engines of a core with empty queues do nothing by themselves. -/
theorem State.engineSide_idle (s : State) (c : Nat) (h : ∀ u ∈ engUnits, ((s.core c).eng u).queue = []) : s.engineSide c = s := by
  have h1 : (engUnits.filter (fun u => !((s.core c).eng u).queue.isEmpty)) = [] := by
    simp only [List.filter_eq_nil_iff, Bool.not_eq_true']
    intro u hu; simp [h u hu]
  have hm : (s.core c).msgq.queue = [] := h .msg (by simp [engUnits])
  have hg : (s.core c).gath.queue = [] := h .gath (by simp [engUnits])
  simp only [State.engineSide, h1, List.foldl_nil, hm, hg, List.isEmpty_nil, if_true]

end Sys2Proof.Machine
end

