-- ==== Sys2Proof/Laws/Fetch.lean ====
section
/-! SUPPORT. The fetch of one word on a core in independent mode: what it comes to when the word issues at once. -/

namespace Sys2Proof.Machine

@[ext] theorem State.ext_cores {s t : State} (h : s.cores = t.cores) (h' : { s with cores := t.cores } = t) : s = t := by
  rw [← h', ← h]

/-- Two updates of one core are one. -/
theorem State.modCore_modCore (s : State) (c : Nat) (f g : Core → Core) :
    (s.modCore c f).modCore c g = s.modCore c (fun k => g (f k)) := by
  by_cases hc : c < 8
  · simp [State.modCore, vmod, hc]
  · simp [State.modCore, vmod, hc]

/-- An update depends only on what it makes of the core. -/
theorem State.modCore_congr (s : State) (c : Nat) (f g : Core → Core) (h : f (s.core c) = g (s.core c)) :
    s.modCore c f = s.modCore c g := by
  by_cases hc : c < 8
  · simp only [State.modCore, vmod, hc, dif_pos]
    have : s.core c = s.cores[c] := by simp [State.core, Vector.getD, hc]
    rw [this] at h
    rw [h]
  · simp [State.modCore, vmod, hc]

theorem State.modCore_id (s : State) (c : Nat) : s.modCore c (fun k => k) = s := by
  by_cases hc : c < 8
  · simp [State.modCore, vmod, hc]
  · simp [State.modCore, vmod, hc]

/-- A word on a core that takes it is offered and the core settles. -/
theorem State.fetch_takes (s : State) (c : CoreId) (w : IWord) (h : s.Takes c) (hq : s.Quiet)
    (hl : decodeCause w = 0 ∨ decodeCause w = 7 → isLaunch w = false) :
    s.fetch c w = (s.offered c ⟨(s.core c).seq.pc.setWidth 17, w, decodeCause w⟩).settle := by
  obtain ⟨h1, h2, h3, h4, h5, h6, h7⟩ := h
  have hqc := hq c.val c.isLt
  simp only [Core.quiet, Bool.and_eq_true] at hqc
  have hb : (s.core c).seq.buf.isEmpty = true := hqc.1.1
  have hw : ((s.core c).seq.wait == SeqWait.none) = true := hqc.1.2
  have hp : ¬ (131072 ≤ (s.core c).seq.pc.toNat) := by omega
  have hpair : pairUp none (⟨(s.core c).seq.pc.setWidth 17, w, decodeCause w⟩ : Decoded)
      = ([⟨(s.core c).seq.pc.setWidth 17, w, decodeCause w⟩], none) := by
    by_cases hd : decodeCause w = 0 ∨ decodeCause w = 7
    · simp [pairUp, hl hd]
    · rw [not_or] at hd; simp [pairUp, hd.1, hd.2]
  unfold State.fetch
  simp only [h1, h3, h4, h5, h6, Bool.false_or, decide_eq_true_eq, hp, if_false, hpair, Core.isBellwether, h2, Bool.false_and,
    Bool.false_eq_true, hb, Bool.not_true, bne, hw, Bool.or_false]
  congr 1
  simp only [State.setPc, State.modCore_modCore, State.offered]
  apply State.modCore_congr
  rfl

/-- The other cores do not see the offer. -/
theorem State.core_offered_ne (s : State) (c i : Nat) (d : Decoded) (h : i ≠ c) : (s.offered c d).core i = s.core i := by
  simp [State.offered, h]

/-- A core that takes a word is not stopped, runs a program and is not restricted. -/
theorem State.noProgram_stopped (s : State) (c : Nat) (h : s.noProgram c = false) : s.stopped = false := by
  simp only [State.noProgram, Bool.or_eq_false_iff] at h
  exact h.1.1

/-- A word issues at once: the state after its fetch is the state its issue leaves. -/
theorem State.fetch_issues (s t : State) (c : CoreId) (w : IWord) (h : s.Takes c) (hq : s.Quiet)
    (hl : decodeCause w = 0 ∨ decodeCause w = 7 → isLaunch w = false)
    (hi : ((s.offered c ⟨(s.core c).seq.pc.setWidth 17, w, decodeCause w⟩)).issueOne c = (t, true))
    (htq : t.Quiet) (hts : t.Steady) : s.fetch c w = t := by
  rw [State.fetch_takes s c w h hq hl]
  refine State.settle_issue _ t c c.isLt ?_ ?_ (s.noProgram_stopped c h.1) ?_ htq hts
  · simp [State.offered, Core.quiet, Core.modSeq]
  · intro d hd hne
    rw [State.core_offered_ne s c d _ hne]
    exact hq d hd
  · rw [State.engineSide_idle _ _ ?_]
    · exact hi
    · intro u hu
      have hqc := hq c.val c.isLt
      simp only [Core.quiet, Bool.and_eq_true, List.all_eq_true] at hqc
      have := hqc.2 u hu
      simp only [State.offered, State.core_modCore, c.isLt, and_self, if_true, List.isEmpty_iff] at this ⊢
      cases u <;> exact this

end Sys2Proof.Machine
end

