-- ==== Sys2Proof/Laws/Issue.lean ====
section
/-! SUPPORT. Words as rows give them, what keeps a state quiet and steady, and the issue of one SEQ word. -/

namespace Sys2Proof.Machine

/-! ## Fields of a word whose ENGINE and OPCODE a row writes -/

theorem fld_setFld_same {n : Nat} (w : BitVec n) (lo len v : Nat) (h : lo + len ≤ n) :
    fld (setFld w lo len v) lo len = BitVec.ofNat len v := by
  apply BitVec.eq_of_getLsbD_eq
  intro i hi
  have h1 : lo + i < n := by omega
  simp only [fld, setFld, BitVec.getLsbD_extractLsb', hi, decide_true, Bool.true_and, BitVec.getLsbD_or, BitVec.getLsbD_and,
    BitVec.getLsbD_not, h1, BitVec.getLsbD_ofNat]
  have m1 : ((2 ^ len - 1) * 2 ^ lo).testBit (lo + i) = true := by
    rw [Nat.testBit_mul_two_pow]
    simp [hi]
  have m2 : (v % 2 ^ len * 2 ^ lo).testBit (lo + i) = v.testBit i := by
    rw [Nat.testBit_mul_two_pow]
    simp [hi]
  simp [m1, m2]

theorem getLsbD_setFld_out {n : Nat} (w : BitVec n) (lo len v i : Nat) (h : i < lo ∨ lo + len ≤ i) :
    (setFld w lo len v).getLsbD i = w.getLsbD i := by
  by_cases hn : i < n
  · simp only [setFld, BitVec.getLsbD_or, BitVec.getLsbD_and, BitVec.getLsbD_not, hn, decide_true, Bool.true_and,
      BitVec.getLsbD_ofNat]
    have m1 : ((2 ^ len - 1) * 2 ^ lo).testBit i = false := by
      rw [Nat.testBit_mul_two_pow]
      rcases h with h | h
      · simp [Nat.not_le.mpr h]
      · simp only [Nat.testBit_two_pow_sub_one, Bool.and_eq_false_iff, decide_eq_false_iff_not, not_lt]
        right; omega
    have m2 : (v % 2 ^ len * 2 ^ lo).testBit i = false := by
      rw [Nat.testBit_mul_two_pow]
      rcases h with h | h
      · simp [Nat.not_le.mpr h]
      · have : ¬ (i - lo < len) := by omega
        simp [Nat.testBit_mod_two_pow, this]
    simp [m1, m2]
  · simp [BitVec.getLsbD_of_ge _ _ (Nat.le_of_not_lt hn)]

theorem fld_setFld_out {n : Nat} (w : BitVec n) (lo len v a b : Nat) (h : a + b ≤ lo ∨ lo + len ≤ a) :
    fld (setFld w lo len v) a b = fld w a b := by
  apply BitVec.eq_of_getLsbD_eq
  intro i hi
  simp only [fld, BitVec.getLsbD_extractLsb', hi, decide_true, Bool.true_and]
  exact getLsbD_setFld_out w lo len v (a + i) (by omega)

@[simp] theorem withOp_engine (w : IWord) (e o : Nat) : Word128.engine (Word128.withOp w e o) = BitVec.ofNat 4 e := by
  unfold Word128.engine Word128.withOp
  rw [fld_setFld_out _ _ _ _ _ _ (by omega), fld_setFld_same _ _ _ _ (by omega)]

@[simp] theorem withOp_opcode (w : IWord) (e o : Nat) : Word128.opcode (Word128.withOp w e o) = BitVec.ofNat 8 o := by
  unfold Word128.opcode Word128.withOp
  rw [fld_setFld_same _ _ _ _ (by omega)]

@[simp] theorem withOp_sigcc (w : IWord) (e o : Nat) : Word128.sigcc (Word128.withOp w e o) = Word128.sigcc w := by
  unfold Word128.sigcc Word128.withOp
  rw [fld_setFld_out _ _ _ _ _ _ (by omega), fld_setFld_out _ _ _ _ _ _ (by omega)]

@[simp] theorem withOp_pcs (w : IWord) (e o : Nat) : Word128.pcs (Word128.withOp w e o) = Word128.pcs w := by
  unfold Word128.pcs Word128.withOp bitB
  rw [getLsbD_setFld_out _ _ _ _ _ (by omega), getLsbD_setFld_out _ _ _ _ _ (by omega)]

/-- Body fields do not see ENGINE and OPCODE. -/
theorem withOp_body (w : IWord) (e o lo len : Nat) (h : lo + len ≤ 116) :
    Word128.body (Word128.withOp w e o) lo len = Word128.body w lo len := by
  have := congrArg BitVec.toNat ((fld_setFld_out (setFld w 116 4 e) 120 8 o lo len (by omega)).trans
    (fld_setFld_out w 116 4 e lo len (by omega)))
  exact this

theorem withOp_bit (w : IWord) (e o i : Nat) (h : i < 116) : bitB (Word128.withOp w e o) i = bitB w i := by
  unfold bitB Word128.withOp
  rw [getLsbD_setFld_out _ _ _ _ _ (by omega), getLsbD_setFld_out _ _ _ _ _ (by omega)]

/-- A word that already is the row's is not changed. -/
theorem withOp_self (w : IWord) (e o : Nat) (h : Sys2Proof.wordIs w e o = true) : Word128.withOp w e o = w := by
  simp only [Sys2Proof.wordIs, Bool.and_eq_true, beq_iff_eq] at h
  apply BitVec.eq_of_getLsbD_eq
  intro i hi
  by_cases h1 : 120 ≤ i
  · have a := fld_setFld_same (setFld w 116 4 e) 120 8 o (by omega)
    have b := congrArg (fun x => x.getLsbD (i - 120)) a
    simp only [fld, BitVec.getLsbD_extractLsb'] at b
    have c : i - 120 < 8 := by omega
    have d : 120 + (i - 120) = i := by omega
    simp only [c, decide_true, Bool.true_and, d] at b
    have e' := congrArg (BitVec.ofNat 8) h.2
    rw [BitVec.ofNat_toNat, BitVec.setWidth_eq] at e'
    rw [← e'] at b
    simp only [BitVec.getLsbD_extractLsb', c, decide_true, Bool.true_and, d] at b
    exact b
  · by_cases h2 : 116 ≤ i
    · unfold Word128.withOp
      rw [getLsbD_setFld_out _ _ _ _ _ (by omega)]
      have a := fld_setFld_same w 116 4 e (by omega)
      have b := congrArg (fun x => x.getLsbD (i - 116)) a
      simp only [fld, BitVec.getLsbD_extractLsb'] at b
      have c : i - 116 < 4 := by omega
      have d : 116 + (i - 116) = i := by omega
      simp only [c, decide_true, Bool.true_and, d] at b
      have e' := congrArg (BitVec.ofNat 4) h.1
      rw [BitVec.ofNat_toNat, BitVec.setWidth_eq] at e'
      rw [← e'] at b
      simp only [BitVec.getLsbD_extractLsb', c, decide_true, Bool.true_and, d] at b
      exact b
    · exact withOp_bit w e o i (by omega)

/-! ## Quiet and steady states -/

theorem State.Steady.congr {s t : State} (h : s.Steady) (hid : ∀ d, d < 8 → (t.core d).id = (s.core d).id)
    (ho : ∀ d, d < 8 → t.programOver d = s.programOver d) (hp : t.parts = s.parts) (ha : t.eth.armed = s.eth.armed)
    (hc : ∀ d, 8 ≤ d → t.core d = s.core d) : t.Steady := by
  refine ⟨fun c hc ha => ?_, fun p hp' hr => ?_⟩
  · rw [ho c hc]; rw [hid c hc] at ha; exact h.1 c hc ha
  · have e : t.part p = s.part p := by simp [State.part, hp]
    rw [e] at hr ⊢
    rw [ha]
    rcases h.2 p hp' hr with h1 | ⟨c, hc', hA⟩
    · exact Or.inl h1
    · refine Or.inr ⟨c, hc', ?_⟩
      by_cases l : c < 8
      · rw [hid c l]; exact hA
      · rw [hc c (Nat.le_of_not_lt l)]; exact hA

/-- An update of one core's sequencer that leaves END, the waiting words and the wait alone. -/
theorem State.modSeq_quiet (s : State) (c : Nat) (f : SeqState → SeqState) (h : s.Quiet)
    (hb : (f (s.core c).seq).buf = (s.core c).seq.buf) (hw : (f (s.core c).seq).wait = (s.core c).seq.wait) :
    (s.modCore c (fun k => k.modSeq f)).Quiet := by
  intro d hd
  have hq := h d hd
  rw [State.core_modCore]
  split
  · next e =>
    obtain ⟨rfl, -⟩ := e
    simp only [Core.quiet, Core.modSeq, Bool.and_eq_true] at hq ⊢
    refine ⟨⟨by rw [hb]; exact hq.1.1, by rw [hw]; exact hq.1.2⟩, ?_⟩
    have := hq.2
    simp only [List.all_eq_true] at this ⊢
    intro u hu
    have h' := this u hu
    cases u <;> exact h'
  · exact hq

theorem State.modSeq_steady (s : State) (c : Nat) (f : SeqState → SeqState) (h : s.Steady)
    (he : (f (s.core c).seq).ended = (s.core c).seq.ended) (hp : (f (s.core c).seq).stopped = (s.core c).seq.stopped) :
    (s.modCore c (fun k => k.modSeq f)).Steady := by
  have key : ∀ d, ((s.modCore c (fun k => k.modSeq f)).core d).id = (s.core d).id ∧
      ((s.modCore c (fun k => k.modSeq f)).core d).seq.ended = (s.core d).seq.ended ∧
      ((s.modCore c (fun k => k.modSeq f)).core d).seq.stopped = (s.core d).seq.stopped ∧
      ((s.modCore c (fun k => k.modSeq f)).core d).allIdle = (s.core d).allIdle := by
    intro d
    rw [State.core_modCore]
    split
    · next e => obtain ⟨rfl, -⟩ := e; exact ⟨rfl, he, hp, rfl⟩
    · exact ⟨rfl, rfl, rfl, rfl⟩
  refine h.congr (fun d _ => (key d).1) (fun d _ => ?_) rfl rfl (fun d hd => ?_)
  · unfold State.programOver
    have hg : (s.modCore c (fun k => k.modSeq f)).groupOf d = s.groupOf d := by
      simp only [State.groupOf, (key d).1]
    rw [hg]
    congr 1
    funext x
    rw [(key x).2.1, (key x).2.2.1, (key x).2.2.2]
  · rw [State.core_modCore]; split
    · next e => omega
    · rfl

theorem State.signal_eq (s : State) (c : Nat) (g : BitVec 8) (e : Bool) :
    s.signal c g e = s.modCore c (fun k => k.modSeq (fun q =>
      { q with cc := if g.toNat < 64 then vmod q.cc g.toNat (fun v => ccBump v e) else q.cc })) := by
  unfold State.signal
  split
  · next h => rfl
  · next h => exact (State.modCore_id s c).symm

/-! ## A SEQ word issues -/

theorem State.offered_core (s : State) (c : Nat) (d : Decoded) (hc : c < 8) :
    (s.offered c d).core c = (s.core c).modSeq (fun q => { q with pc := q.pc + 1, launchHeld := none, buf := [d] }) := by
  simp [State.offered, hc]

theorem State.issueOne_seq (s s' : State) (c : CoreId) (d : Decoded) (h : s.Takes c) (hq : s.Quiet) (hd : d.cause = 0)
    (hl : isLaunch d.word = false) (he : d.word.engine.toNat = engSEQ) (hi : (s.offered c d).issueSeq c d false = .done_ s') :
    (s.offered c d).issueOne c = (s'.tookWords c 1 false, true) := by
  obtain ⟨h1, h2, h3, h4, h5, h6, h7⟩ := h
  have hqc := hq c.val c.isLt
  simp only [Core.quiet, Bool.and_eq_true, beq_iff_eq] at hqc
  have hw : (s.core c).seq.wait = SeqWait.none := hqc.1.2
  unfold State.issueOne
  simp only [State.offered_core s c d c.isLt, Core.modSeq, Core.waitOver, h2, h3, h4, hw, Bool.or_self, Bool.false_eq_true,
    if_false, hd, ne_eq, not_true_eq_false, hl, he, if_true, hi, bne, beq_self_eq_true, Bool.not_true]

theorem seq_clear (r : SeqState) (h1 : r.buf = []) (h2 : r.launchHeld = none) :
    ({ r with buf := [], launchHeld := none } : SeqState) = r := by rw [← h1, ← h2]

theorem seqStep_core (k : Core) (f : SeqState → SeqState) (g : Vector (BitVec 32) 64 → Vector (BitVec 32) 64) (d : Decoded)
    (h1 : k.seq.buf = []) (h2 : k.seq.launchHeld = none)
    (hc : ∀ (q : SeqState) b l, f { q with buf := b, launchHeld := l } = { f q with buf := b, launchHeld := l }) :
    ({ (((k.modSeq (fun q => { q with pc := q.pc + 1, launchHeld := none, buf := [d] })).modSeq f).modSeq
        (fun q => { q with cc := g q.cc })).modSeq (fun q => { q with buf := q.buf.drop 1, stall := .none }) with
        creditsBack := k.creditsBack } : Core)
      = k.modSeq (fun q => let r := f { q with pc := q.pc + 1 }; { r with stall := .none, cc := g r.cc }) := by
  have e := hc { k.seq with pc := k.seq.pc + 1 } [d] none
  have e' := hc { k.seq with pc := k.seq.pc + 1 } [] none
  have h3 : ({ ({ k.seq with pc := k.seq.pc + 1 } : SeqState) with buf := [], launchHeld := none } : SeqState)
      = { k.seq with pc := k.seq.pc + 1 } := seq_clear _ h1 h2
  rw [h3] at e'
  simp only [Core.modSeq]
  rw [show ({ k.seq with pc := k.seq.pc + 1, launchHeld := none, buf := [d] } : SeqState)
    = { ({ k.seq with pc := k.seq.pc + 1 } : SeqState) with buf := [d], launchHeld := none } from rfl, e]
  generalize f { k.seq with pc := k.seq.pc + 1 } = r at e' ⊢
  rw [e']
  rfl

theorem State.seqStep_eq (s : State) (c : Nat) (f : SeqState → SeqState) (sg : BitVec 8) :
    s.seqStep c f sg = s.modCore c (fun k => k.modSeq (fun q => let r := f { q with pc := q.pc + 1 }
      { r with stall := .none, cc := if sg.toNat < 64 then vmod r.cc sg.toNat (fun v => ccBump v false) else r.cc })) := by
  rw [State.seqStep, State.signal_eq, State.modCore_modCore]; rfl

theorem State.fetch_seqStep (s : State) (c : CoreId) (v : IWord) (f : SeqState → SeqState) (sg : BitVec 8)
    (hr : s.Ready c) (hd : decodeCause v = 0) (he : (Word128.engine v).toNat = engSEQ) (hl : isLaunch v = false)
    (hi : ∀ d : Decoded, d.word = v → (s.offered c d).issueSeq c d false =
      .done_ (((s.offered c d).modCore c (fun k => k.modSeq f)).signal c sg false))
    (hf : ∀ q : SeqState, (f q).wait = q.wait ∧ (f q).ended = q.ended ∧ (f q).stopped = q.stopped)
    (hc : ∀ (q : SeqState) b l, f { q with buf := b, launchHeld := l } = { f q with buf := b, launchHeld := l }) :
    s.fetch c v = s.seqStep c f sg := by
  obtain ⟨ht, hq, hs⟩ := hr
  have hqc := hq c.val c.isLt
  simp only [Core.quiet, Bool.and_eq_true, beq_iff_eq, List.isEmpty_iff] at hqc
  have hbuf := hqc.1.1
  have hlh : (s.core c).seq.launchHeld = none := ht.2.2.2.2.2.1
  have hfb : ∀ q : SeqState, (f q).buf = q.buf := fun q => by
    have e := hc q q.buf q.launchHeld
    have e2 := congrArg SeqState.buf e
    exact e2
  have hi1 := hi ⟨(s.core c).seq.pc.setWidth 17, v, decodeCause v⟩ rfl
  have hi2 := State.issueOne_seq s _ c ⟨(s.core c).seq.pc.setWidth 17, v, decodeCause v⟩ ht hq hd hl he hi1
  refine State.fetch_issues s _ c v ht hq (fun _ => hl) ?_ ?_ ?_
  · rw [hi2, State.seqStep_eq, State.signal_eq, State.tookWords, State.offered,
      State.modCore_modCore, State.modCore_modCore, State.modCore_modCore]
    refine congrArg (fun x => (x, true)) ?_
    apply State.modCore_congr
    exact seqStep_core (s.core c) f (fun v => if sg.toNat < 64 then vmod v sg.toNat (fun v => ccBump v false) else v) _ hbuf hlh hc
  · rw [State.seqStep_eq]
    have e1 := hfb { (s.core c).seq with pc := (s.core c).seq.pc + 1 }
    have e2 := (hf { (s.core c).seq with pc := (s.core c).seq.pc + 1 }).1
    exact State.modSeq_quiet s c _ hq e1 e2
  · rw [State.seqStep_eq]
    have e2 := (hf { (s.core c).seq with pc := (s.core c).seq.pc + 1 }).2
    exact State.modSeq_steady s c _ hs e2.1 e2.2


theorem isLaunch_withOp (w : IWord) (o : Nat) : isLaunch (Word128.withOp w 6 o) = (o % 256 == 0x28) := by
  simp [isLaunch, engSEQ]

/-- A register instruction whose effect is f. -/
theorem State.issue_regOp (s : State) (c : CoreId) (v : IWord) (d : Decoded) (hv : d.word = v)
    (ho : (Word128.opcode v).toNat ∈ [0x10, 0x11, 0x12, 0x18, 0x19, 0x1A, 0x1B, 0x1C, 0x2A])
    (f : SeqState → SeqState)
    (hreg : ((s.offered c d).core c).seq.regOp ((s.offered c d).core c).subRank v = (f ((s.offered c d).core c).seq, 0)) :
    (s.offered c d).issueSeq c d false =
      .done_ (((s.offered c d).modCore c (fun k => k.modSeq f)).signal c (Word128.sigcc v) false) := by
  have key : (s.offered c d).issueSeq c d false =
      (let r := ((s.offered c d).core c).seq.regOp ((s.offered c d).core c).subRank d.word
       if r.2 ≠ 0 then .done_ ((s.offered c d).skipWord c (entryOf ((s.offered c d).core c) d.pc d.word false none none) (entryOf ((s.offered c d).core c) d.pc d.word false none none) .cache r.2 true)
        else .done_ (((s.offered c d).modCore c (fun k => { k with seq := r.1 })).signal c (Word128.sigcc d.word) false)) := by
    rw [← hv] at ho
    simp only [List.mem_cons, List.not_mem_nil, or_false] at ho
    unfold State.issueSeq
    rcases ho with h | h | h | h | h | h | h | h | h <;> simp only [h]
  rw [key, hv, hreg]
  simp only [ne_eq, not_true_eq_false, if_false]
  congr 2
  apply State.modCore_congr
  rfl

end Sys2Proof.Machine
end

