-- ==== Sys2Proof/Laws/Mem.lean ====
section
/-! SUPPORT. Laws of the sparse memory: what a read gives after a write, and that every operation keeps the canonical
form. -/

namespace Sys2Proof.Machine

@[simp] theorem Mem.read_nil (d : Byte) (a : Nat) : Mem.read [] d a = d := rfl

/-- Below the first listed address a canonical memory reads as its default. -/
theorem Mem.read_below (m : Mem) (d : Byte) (k a : Nat) (h : m.wfFrom d k = true) (hk : a < k) : m.read d a = d := by
  induction m generalizing k with
  | nil => rfl
  | cons e r ih =>
    obtain ⟨x, b⟩ := e
    simp only [Mem.wfFrom, Bool.and_eq_true, decide_eq_true_eq] at h
    have hx : x ≠ a := by omega
    simp only [Mem.read, hx, if_false]
    exact ih (x + 1) h.2 (by omega)

theorem Mem.wfFrom_mono (m : Mem) (d : Byte) (k j : Nat) (h : m.wfFrom d k = true) (hj : j ≤ k) : m.wfFrom d j = true := by
  cases m with
  | nil => rfl
  | cons e r =>
    obtain ⟨x, b⟩ := e
    simp only [Mem.wfFrom, Bool.and_eq_true, decide_eq_true_eq] at h ⊢
    exact ⟨⟨by omega, h.1.2⟩, h.2⟩

theorem Mem.write_wfFrom (m : Mem) (d : Byte) (k a : Nat) (b : Byte) (h : m.wfFrom d k = true) (hk : k ≤ a) :
    (m.write d a b).wfFrom d k = true := by
  induction m generalizing k with
  | nil =>
    simp only [Mem.write]
    split
    · rfl
    · next hb => simp [Mem.wfFrom, hk, hb]
  | cons e r ih =>
    obtain ⟨x, c⟩ := e
    have h' := h
    simp only [Mem.wfFrom, Bool.and_eq_true, decide_eq_true_eq, bne_iff_ne, ne_eq] at h'
    obtain ⟨⟨h1, h2⟩, h3⟩ := h'
    simp only [Mem.write]
    split
    · next hlt =>
      split
      · exact h
      · next hb =>
        simp only [Mem.wfFrom, Bool.and_eq_true, decide_eq_true_eq, bne_iff_ne, ne_eq]
        exact ⟨⟨hk, hb⟩, ⟨⟨by omega, h2⟩, h3⟩⟩
    · split
      · next he =>
        split
        · exact Mem.wfFrom_mono _ _ _ _ h3 (by omega)
        · next hb =>
          simp only [Mem.wfFrom, Bool.and_eq_true, decide_eq_true_eq, bne_iff_ne, ne_eq]
          exact ⟨⟨hk, hb⟩, by rw [he]; exact h3⟩
      · simp only [Mem.wfFrom, Bool.and_eq_true, decide_eq_true_eq, bne_iff_ne, ne_eq]
        exact ⟨⟨h1, h2⟩, ih (x + 1) h3 (by omega)⟩

/-- A write keeps the canonical form. -/
theorem Mem.write_wf (m : Mem) (d : Byte) (a : Nat) (b : Byte) (h : m.wf d = true) : (m.write d a b).wf d = true :=
  Mem.write_wfFrom m d 0 a b h (Nat.zero_le a)

theorem Mem.writeN_wf (bs : List Byte) (m : Mem) (d : Byte) (a : Nat) (h : m.wf d = true) : (m.writeN d a bs).wf d = true := by
  induction bs generalizing m a with
  | nil => exact h
  | cons b bs ih => exact ih _ _ (Mem.write_wf m d a b h)

theorem Mem.clearRange_wfFrom (m : Mem) (d : Byte) (k lo hi : Nat) (h : m.wfFrom d k = true) :
    (m.clearRange lo hi).wfFrom d k = true := by
  induction m generalizing k with
  | nil => rfl
  | cons e r ih =>
    obtain ⟨x, b⟩ := e
    simp only [Mem.wfFrom, Bool.and_eq_true, decide_eq_true_eq] at h
    have hr := ih (x + 1) h.2
    unfold Mem.clearRange at hr ⊢
    rw [List.filter_cons]
    split
    · simp only [Mem.wfFrom, Bool.and_eq_true, decide_eq_true_eq]
      exact ⟨h.1, hr⟩
    · exact Mem.wfFrom_mono _ _ _ _ hr (by omega)

theorem Mem.clearRange_wf (m : Mem) (d : Byte) (lo hi : Nat) (h : m.wf d = true) : (m.clearRange lo hi).wf d = true :=
  Mem.clearRange_wfFrom m d 0 lo hi h

theorem Mem.read_write_from (m : Mem) (d : Byte) (k a x : Nat) (b : Byte) (h : m.wfFrom d k = true) :
    (m.write d a b).read d x = if x = a then b else m.read d x := by
  induction m generalizing k with
  | nil =>
    simp only [Mem.write]
    by_cases hb : b = d
    · by_cases hx : x = a <;> simp [hb, hx]
    · by_cases hx : x = a
      · simp [hb, Mem.read, hx]
      · simp [hb, Mem.read, hx, Ne.symm hx]
  | cons e r ih =>
    obtain ⟨y, c⟩ := e
    simp only [Mem.wfFrom, Bool.and_eq_true, decide_eq_true_eq, bne_iff_ne, ne_eq] at h
    obtain ⟨⟨h1, h2⟩, h3⟩ := h
    simp only [Mem.write]
    by_cases hlt : a < y
    · simp only [hlt, if_true]
      by_cases hx : x = a
      · subst hx
        by_cases hb : b = d
        · have hy : y ≠ x := by omega
          simp only [hb, if_true, Mem.read, hy, if_false]
          exact Mem.read_below r d (y + 1) x h3 (by omega)
        · simp [hb, Mem.read]
      · by_cases hb : b = d
        · simp [hb, hx]
        · have hxa : a ≠ x := fun q => hx q.symm
          simp [hb, Mem.read, hx, hxa]
    · by_cases heq : a = y
      · subst heq
        simp only [Nat.lt_irrefl, if_false, if_true]
        by_cases hx : x = a
        · subst hx
          by_cases hb : b = d
          · simp only [hb, if_true]
            exact Mem.read_below r d (x + 1) x h3 (by omega)
          · simp [hb, Mem.read]
        · have hxa : a ≠ x := fun q => hx q.symm
          by_cases hb : b = d
          · simp [hb, Mem.read, hx, hxa]
          · simp [hb, Mem.read, hx, hxa]
      · simp only [hlt, heq, if_false, Mem.read]
        by_cases hyx : y = x
        · have hx : x ≠ a := by omega
          simp [hyx, hx]
        · simp only [hyx, if_false]
          exact ih (y + 1) h3

/-- Reading after a write of one byte. -/
theorem Mem.read_write (m : Mem) (d : Byte) (a x : Nat) (b : Byte) (h : m.wf d = true) :
    (m.write d a b).read d x = if x = a then b else m.read d x :=
  Mem.read_write_from m d 0 a x b h

/-- Reading after a write of several bytes. -/
theorem Mem.read_writeN (bs : List Byte) (m : Mem) (d : Byte) (a x : Nat) (h : m.wf d = true) :
    (m.writeN d a bs).read d x = if a ≤ x ∧ x < a + bs.length then bs.getD (x - a) d else m.read d x := by
  induction bs generalizing m a with
  | nil => simp [Mem.writeN]
  | cons b bs ih =>
    simp only [Mem.writeN, List.length_cons]
    rw [ih _ _ (Mem.write_wf m d a b h), Mem.read_write m d a x b h]
    by_cases h1 : a + 1 ≤ x ∧ x < a + 1 + bs.length
    · have h2 : a ≤ x ∧ x < a + (bs.length + 1) := by omega
      simp only [h1, h2, and_self, if_true]
      obtain ⟨n, hn⟩ : ∃ n, x - a = n + 1 := ⟨x - a - 1, by omega⟩
      have hn' : x - (a + 1) = n := by omega
      rw [hn, hn']
      simp
    · by_cases hx : x = a
      · subst hx
        have h2 : x ≤ x ∧ x < x + (bs.length + 1) := by omega
        rw [if_neg h1, if_pos rfl, if_pos h2]
        simp
      · have h2 : ¬ (a ≤ x ∧ x < a + (bs.length + 1)) := by omega
        rw [if_neg h1, if_neg hx, if_neg h2]

theorem Mem.readN_length (m : Mem) (d : Byte) (a n : Nat) : (m.readN d a n).length = n := by
  induction n generalizing a with
  | zero => rfl
  | succ n ih => simp [Mem.readN, ih]

end Sys2Proof.Machine
end

