-- ==== Sys2Proof/Tests/Slice0.lean ====
section
/-! SUPPORT. Named tests: an ill-formed term for each well-formedness check, a witness for the premises of every statement of
Certificates/Slice0 (witness_<Name>), the worked examples of the manual, and single steps. -/

set_option Elab.async false

open Sys2Proof Sys2Proof.Machine

namespace Sys2Proof.Tests

/-! ## States and words -/

/-- The state after reset. -/
abbrev s0 : State := State.reset

/-- The state after reset, but every core runs a program. -/
abbrev sOn : State := { s0 with cores := Vector.replicate 8 { id := { active := true } } }

/-- A SEQ word of an opcode and a body. -/
def wd (op body : Nat) : IWord := Word128.withOp (BitVec.ofNat 128 body) 6 op

/-- Bit 107: per-core substitution. -/
def pcsBit : Nat := 0x800000000000000000000000000

/-- The state that a command answers. -/
def after (i : Instr) (s : State) : State :=
  match exec i s with
  | .next t => t
  | _ => s

set_option maxRecDepth 20000 in
theorem ready0 : ∀ c, sOn.Ready c := by
  unfold State.Ready State.Takes State.Quiet State.Steady; decide +kernel

set_option maxRecDepth 20000 in
theorem calm0 : s0.Calm := by
  unfold State.Calm State.Quiet State.Steady; decide +kernel

theorem witness_ResetState : s0.MemWf ∧ s0.Calm := ⟨by unfold State.MemWf; decide +kernel, calm0⟩

/-! ## WellFormed: an ill-formed term for each check -/

/-- A GMCP message of an operation whose first payload byte is b. -/
def gmsg (op b : Nat) : List Byte := [0, 0, 0, BitVec.ofNat 8 op] ++ List.replicate 28 0 ++ [BitVec.ofNat 8 b, 0, 0, 0]

/-- A packet of a type with LEN units, and n bytes of payload. -/
def pkt (ty len n : Nat) : Packet := { w0 := BitVec.ofNat 64 (ty + 1024 * len), w1 := 0, w2 := 0, w3 := 0, payload := List.replicate n 0 }

theorem test_wellformed_word : (Instr.nop 0 (wd 0 0)).WellFormed = true ∧ (Instr.nop 0 (wd 1 0)).WellFormed = false := by decide +kernel

theorem test_wellformed_message : (Instr.session 2 (gmsg 1 0) false).WellFormed = true ∧
    (Instr.session 2 (gmsg 2 0) false).WellFormed = false ∧ (Instr.session 2 [0, 0, 0, 1] false).WellFormed = false := by decide +kernel

theorem test_wellformed_op : (Instr.unknownOp 2 (gmsg 4 0) 0x04).WellFormed = true ∧
    (Instr.unknownOp 2 (gmsg 4 0) 0x10).WellFormed = false := by decide +kernel

theorem test_wellformed_kind : (Instr.gooseThaw 2 (gmsg 0x28 3) false).WellFormed = true ∧
    (Instr.gooseThaw 2 (gmsg 0x28 2) false).WellFormed = false := by decide +kernel

theorem test_wellformed_image : (Instr.jobLoad 2 (gmsg 0x10 0) false none).WellFormed = true ∧
    (Instr.jobLoad 2 (gmsg 0x10 0) false (some ⟨[], [], 0, [], none, [], [], 0, 0⟩)).WellFormed = false := by decide +kernel

theorem test_wellformed_packet : (Instr.ackReceived 0 (pkt 6 0 0)).WellFormed = true ∧ (Instr.ackReceived 0 (pkt 5 0 0)).WellFormed = false ∧
    (Instr.ackReceived 0 (pkt 6 1 0)).WellFormed = false := by decide +kernel

theorem test_wellformed_master : (Instr.ptpAnnounce 0 { prio1 := 255, class_ := 0, accuracy := 0, variance := 0, prio2 := 0, identity := 0, steps := 0, sender := 0, logInt := 0 }).WellFormed = true ∧
    (Instr.ptpAnnounce 0 { prio1 := 256, class_ := 0, accuracy := 0, variance := 0, prio2 := 0, identity := 0, steps := 0, sender := 0, logInt := 0 }).WellFormed = false := by
  decide +kernel

theorem test_wellformed_line : (Instr.hbmRequest 64 none 0 []).WellFormed = true ∧ (Instr.hbmRequest 65 none 0 []).WellFormed = false ∧
    (Instr.hbmRequest 64 none 0 [3, 3]).WellFormed = false ∧ (Instr.hbmRequest 64 (some [1]) 0 []).WellFormed = false ∧
    (Instr.scrubRead 0 [3, 3]).WellFormed = false := by decide +kernel

theorem test_wellformed_ranges : (Instr.smbusOtherCommand 0 2).WellFormed = true ∧ (Instr.smbusOtherCommand 0 1).WellFormed = false ∧
    (Instr.localMessageArrival 0 0 0).WellFormed = false ∧
    (Instr.laneFrameReceived 0 0 false 0 (Vector.replicate 3 0) (List.replicate 5 0)).WellFormed = false ∧
    (Instr.roceSend 0 0 0 false true true (List.replicate 4097 0)).WellFormed = false := by decide +kernel

/-! ## Steps -/

theorem test_step_front : step { s0 with pending := [.coolOkAssert] } = exec .coolOkAssert s0 := rfl

theorem test_step_idle : (match step s0 with | .next t => t.time.ft | _ => 0) = 1 := by decide +kernel

/-! ## Sequencer: witnesses -/

theorem witness_SeqRegisterResults : sOn.Ready 7 ∧
    ∀ o ∈ [0x00, 0x10, 0x11, 0x12, 0x19, 0x1A, 0x1C], decodeCause (Word128.withOp 0 6 o) = 0 := ⟨ready0 7, by decide +kernel⟩

/-- Core 1 is the member of rank 1 in the group of core 0, with AS0 = 1, AS1 = -1 and the word w on the ring. -/
def sMember (w : IWord) : State :=
  let mode (k : Core) (r : BitVec 3) : Core := { k with id := { k.id with bcast := true, groupSize := 1, rank := r } }
  (sOn.modCore 0 (fun k => mode k 0)).modCore 1 (fun k => { mode k 1 with
    ringIn := [⟨0, w, 0⟩]
    seq := { k.seq with as_ := vmod (vmod k.seq.as_ 0 (fun _ => 1)) 1 (fun _ => BitVec.allOnes 64) } })

def va (w : IWord) : Int :=
  let k := (sMember w).core 1
  (fldN w 5 56 : Int) + ((if bitB w 107 then k.id.rank.toNat else 0 : Nat) : Int) * (k.seq.as_.getD (fldN w 0 5) 0).toInt

set_option maxRecDepth 20000 in
theorem witness_SeqSubstitutedResults : sOn.Ready 1 ∧ (sMember (wd 0x18 pcsBit)).Member 1 ∧
    decodeCause (wd 0x18 0) = 0 ∧ decodeCause (wd 0x1B 0) = 0 ∧ decodeCause (wd 0x2A 0) = 0 := by
  refine ⟨ready0 1, ?_, by decide +kernel⟩
  unfold State.Member State.Quiet State.Steady; decide +kernel

theorem witness_SeqSubstitutedResults_setar :
    va (wd 0x18 0) = 0 ∧ va (wd 0x18 (pcsBit + 1)) = -1 ∧ va (wd 0x18 (pcsBit + 0x1FFFFFFFFFFFFFE0)) = 0x100000000000000 := by decide +kernel

theorem witness_SeqSubstitutedResults_setgr :
    fldN (wd 0x1B (pcsBit + 0xFFFFFFFFFFFFFFFE0)) 4 64 + 1 = 0xFFFFFFFFFFFFFFFF ∧
    fldN (wd 0x1B (pcsBit + 0xFFFFFFFFFFFFFFFF0)) 4 64 + 1 = 0x10000000000000000 := by decide +kernel

theorem witness_SeqSubstitutedResults_kcgset :
    fldN (wd 0x2A (pcsBit + 0xFFFFFE)) 0 24 + 1 = 0xFFFFFF ∧ fldN (wd 0x2A (pcsBit + 0xFFFFFF)) 0 24 + 1 = 0x1000000 := by
  decide +kernel

/-- Core 2 with n addresses on its call stack. -/
def sCalls (n : Nat) : State := sOn.modCore 2 (fun k => k.modSeq (fun q => { q with callStack := List.replicate n 5 }))

set_option maxRecDepth 20000 in
theorem witness_ControlFlow : (sCalls 16).Ready 2 ∧ (sCalls 15).Ready 2 ∧ (sCalls 0).Ready 2 ∧
    (∀ o ∈ [0x02, 0x03, 0x04, 0x05], decodeCause (wd o 0) = 0) ∧ decodeCause (wd 0x02 (7 * 2 ^ 17)) = 0 ∧
    8 ≤ fldN (wd 0x02 (8 * 2 ^ 17)) 17 4 ∧ decodeCause (wd 0x02 (8 * 2 ^ 17)) = 5 := by
  refine ⟨?_, ?_, ?_, by decide +kernel⟩ <;>
  · unfold State.Ready State.Takes State.Quiet State.Steady; decide +kernel

theorem witness_ProgramEnds_end : sOn.Ready 3 ∧ decodeCause (wd 0x01 0) = 0 ∧
    ∀ d, d < 8 → d ≠ 3 → (sOn.core d).id.active = true → (sOn.core d).seq.ended = false :=
  ⟨ready0 3, by decide +kernel, by decide +kernel⟩

/-- One whole message of one entry in queue 0 of core 0; an OX operation runs; counter 1 at the target 5. -/
def sWait : State := sOn.modCore 0 (fun k =>
  { k with msg := { k.msg with queues := vmod k.msg.queues 0 (fun q => { q with entries := [⟨7, 0, 0, 0, true⟩] }) }
           ox := { running := [{ q := ⟨0, 0, 0, 1, 0xFF, false, none, none, {}⟩ }] }
           seq := { k.seq with cc := vmod k.seq.cc 1 (fun _ => 5) } })

set_option maxRecDepth 20000 in
theorem witness_Waits : sWait.Ready 0 ∧ (∀ o ∈ [0x08, 0x09, 0x0B], decodeCause (wd o 0) = 0) ∧
    decodeCause (wd 0x08 (1 + 64 * 5)) = 0 ∧ ((fldN ((sWait.core 0).seq.cc.getD 1 0) 0 31 : Int) - fldN (wd 0x08 (1 + 64 * 5)) 6 31) % 2 ^ 31 < 2 ^ 30 ∧
    ¬ ((fldN ((sWait.core 0).seq.cc.getD 1 0) 0 31 : Int) - fldN (wd 0x08 (1 + 64 * 6)) 6 31) % 2 ^ 31 < 2 ^ 30 ∧
    ((sWait.core 0).queue 0).head.isSome = true ∧ ((sWait.core 0).queue 1).head = none ∧ (sWait.core 0).engIdle 0 = false ∧
    (sWait.core 0).engIdle 1 = true := by
  refine ⟨by unfold State.Ready State.Takes State.Quiet State.Steady; decide +kernel, ?_⟩
  decide +kernel

/-- Core 4 waits, with a timeout, for what `w` says; it has a message in queue 3, and counter 63 stands at 1. -/
def sTimed (w : SeqWait) : State := sOn.modCore 4 (fun k =>
  { k with msg := { k.msg with queues := vmod k.msg.queues 3 (fun q => { q with entries := [⟨7, 0, 0, 0, true⟩] }) }
           seq := { k.seq with cc := vmod k.seq.cc 63 (fun _ => 1), wait := w } })

set_option maxRecDepth 20000 in
theorem witness_Waits_timeout : ∀ w ∈ [SeqWait.cc 63 1 true 0xFF, .cc 63 2 true 0xFF, .queue 15 true 0, .queue 3 true 0, .none],
    (sTimed w).Steady ∧ (sTimed w).stopped = false ∧ (∀ d, d < 8 → d ≠ 4 → ((sTimed w).core d).quiet = true) ∧
    ((sTimed w).core 4).seq.buf = [] ∧ ((sTimed w).core 4).seq.ended = false ∧ (∀ u ∈ engUnits, (((sTimed w).core 4).eng u).queue = []) ∧
    ((sTimed w).core 4).seq.wait = w ∧ (((sTimed w).core 4).queue 3).head.isSome = true ∧ (((sTimed w).core 4).queue 15).head = none := by
  unfold State.Steady; decide +kernel

/-- A scalar operand at the first line of core 0's SRAM, and one in HBM, with and without a cached line. -/
def sScalar : State := sOn.modCore 0 (fun k =>
  { k with seq := { k.seq with ar := vmod k.seq.ar 1 (fun _ => BitVec.ofNat 56 (sramBase 0)) }
           cache := { k.cache with lines := [⟨0, 9, true⟩] } })

/-! ## Engines: witnesses -/

/-- Every address register of core 0 names its SRAM; AR1 names HBM. Partition 0 has core 0 and one region of HBM. -/
def sA : State :=
  let s := sOn.modCore 0 (fun k => k.modSeq (fun q =>
    { q with ar := vmod (Vector.replicate 32 (BitVec.ofNat 56 (0xFFFC0000000000 + sramBase 0))) 1 (fun _ => 0xFFFC0000000000) }))
  let s := s.modPart 0 (fun p => { p with state := .loaded, size := 1, jobTag := 5 })
  s.modMs (fun m => { m with preg := vmod m.preg 0 (fun _ => ⟨0, 1, true, false, false⟩) })

/-- A body that an engine row accepts at its addresses. -/
def bodyOf (e o : Nat) : Nat :=
  match e, o with
  | 0, 1 => 0x8020000000000000
  | 0, 2 => 0x40000000 + 0x400000000000000000000
  | 1, o =>
    if o < 0x80 then 0x2000001000000000000000000 + 0x40000000000000 + (if vecReadsB o then 0x80000000 else 0)
    else if o = 0x80 then 0 else 0x1000000000000000000 + 0x40000000
  | 5, 1 => 0x1000040000000
  | _, _ => 0

def wordFor (e o : Nat) : IWord := BitVec.ofNat 128 (bodyOf e o)

set_option maxRecDepth 20000 in
theorem readyA : sA.Ready 0 := by unfold State.Ready State.Takes State.Quiet State.Steady; decide +kernel

set_option maxRecDepth 20000 in
theorem witness_EngineWords : sA.Ready 0 ∧ engineRows.all (fun row =>
    let v := Word128.withOp (wordFor row.2.1 row.2.2) row.2.1 row.2.2
    let r := (sA.offered 0 (sA.decodedAt 0 v)).resolve 0 v
    decodeCause v == 0 && r.cause == 0 && !(sA.core 0).seq.sbStalls (liveRanges r.claims)
      && decide ((sA.core 0).seq.sb.length + (liveRanges r.claims).length ≤ 64)) = true := ⟨readyA, by decide +kernel⟩

theorem witness_EngineWords_skipped : (ready0 0 : sOn.Ready 0) = ready0 0 ∧ engineRows.all (fun row =>
    let v := Word128.withOp (wordFor row.2.1 row.2.2) row.2.1 row.2.2
    decodeCause v == 0 && (((sOn.offered 0 (sOn.decodedAt 0 v)).resolve 0 v).cause != 0
      || row.2.1 == 2 && row.2.2 == 3 || row.2.1 == 3 && row.2.2 == 6)) = true := ⟨rfl, by decide +kernel⟩

set_option maxRecDepth 20000 in
theorem witness_ScalarAccesses : [wd 0x20 0x80000, wd 0x20 0, wd 0x21 0x80000, wd 0x21 0, wd 0x22 0].all (fun w =>
      decodeCause w == 0 && (sA.scalarOperand 0 w).2.2 == 0 &&
        !(sA.core 0).seq.sbStalls [.wr (sA.scalarOperand 0 w).1 (sA.scalarOperand 0 w).2.1]) = true ∧
    isHbm (sA.scalarOperand 0 (wd 0x20 0x80000)).1 = true ∧ isHbm (sA.scalarOperand 0 (wd 0x20 0)).1 = false ∧
    (sA.core 0).cache.find 0 = none ∧ sA.ms.badLine 0 = false ∧ sA.ms.soft = [] ∧ sA.ms.mem.wf 0 = true := by decide +kernel

set_option maxRecDepth 20000 in
theorem witness_LaunchAndRanges_issue : ∀ o ∈ [0x24, 0x25, 0x26], decodeCause (wd o 0x1080000) = 0 ∧ (sA.issueRange 0 (wd o 0x1080000)).cause = 0 ∧
    (sA.core 0).seq.sbStalls [.wr (sA.operand 0 (wd o 0x1080000) 0).nat 64] = false ∧ (sA.core 0).seq.sb.length < 64 := by decide +kernel

/-- One operation waits alone in a queue of core 0; the plane 1 is READY with one row. -/
def sHead (u : EngUnit) (op : EngOp) (l : Option (BitVec 64)) : State := sA.modCore 0 (fun k =>
  { k.modEng u (fun e => { e with queue := [⟨3, 0, 0, 0, 0xFF, false, l, some op, {}⟩] }) with
    planes := vmod k.planes 1 (fun p => { p with state := .ready, fmt := 0, k := 1, n := 1 }) })

theorem witness_LaunchAndRanges : sOn.Ready 0 ∧ decodeCause (wd 0x28 (0xFF * 0x1000000000000000000000000000)) = 0 := ⟨ready0 0, by decide +kernel⟩

set_option maxRecDepth 20000 in
theorem witness_LaunchAndRanges_held : ∀ l ∈ [0, 8, 9],
    let s := sHead .vec (.vec 1 0 0 0 1 2 false) (some (BitVec.ofNat 64 l))
    s.Steady ∧ s.stopped = false ∧ (∀ x, x < 8 → x ≠ 0 → (s.core x).quiet = true) ∧ (s.core 0).seq.buf = [] ∧ (s.core 0).seq.wait = .none ∧
    (∀ u ∈ engUnits, u ≠ .vec → ((s.core 0).eng u).queue = []) ∧ (s.core 0).vec.queue.length = 1 := by
  unfold State.Steady; decide +kernel

/-- Sixteen open regions on core 0. -/
def sRegions : State := sOn.modCore 0 (fun k => k.modSeq (fun q => { q with regions := (List.range 16).map (fun i => (BitVec.ofNat 12 i, 0)) }))

set_option maxRecDepth 20000 in
theorem witness_RegionsRingsNulls : sRegions.Ready 0 ∧ sOn.Ready 0 ∧ decodeCause (wd 0x2C 17) = 0 ∧ decodeCause (wd 0x2D 0) = 0 ∧
    (sRegions.core 0).seq.regions.length = 16 ∧ ((sRegions.core 0).seq.regions.head?.map (fun x => x.1)) = some 0 := by
  refine ⟨by unfold State.Ready State.Takes State.Quiet State.Steady; decide +kernel, ready0 0, ?_⟩
  decide +kernel

/-- The sequencer of core 5 has run past the last word. -/
def sBeyond : State := sOn.modCore 5 (fun k => k.modSeq (fun q => { q with pc := 131072 }))

theorem witness_ProgramEnds : sOn.Ready 0 ∧ decodeCause (wd 0xFF 0) = 2 ∧ decodeCause (Word128.withOp 0 8 0) = 1 ∧
    decodeCause (Word128.withOp (BitVec.ofNat 128 0x100000000000000000000000000) 0 1) ≠ 0 := ⟨ready0 0, by decide +kernel⟩

set_option maxRecDepth 20000 in
theorem witness_ProgramEnds_beyond : sBeyond.stopped = false ∧ sBeyond.Quiet ∧ sBeyond.Steady ∧ (sBeyond.core 5).id.bcast = false ∧
    (sBeyond.core 5).seq.stopped = false ∧ (sBeyond.core 5).seq.ended = false ∧ (sBeyond.core 5).seq.fetchEnded = false ∧
    (sBeyond.core 5).seq.launchHeld = none ∧ 131072 ≤ (sBeyond.core 5).seq.pc.toNat := by
  unfold State.Quiet State.Steady; decide +kernel

/-- Core 1 is a member of the group of Bellwether 0, waits, and has n words in its buffer and one on the ring. -/
def sRing (n : Nat) : State :=
  let d : Decoded := ⟨0, wd 0 0, 0⟩
  let mode (k : Core) (r : BitVec 3) : Core := { k with id := { k.id with bcast := true, groupSize := 1, rank := r } }
  (sOn.modCore 0 (fun k => mode k 0)).modCore 1 (fun k => { (mode k 1).modSeq (fun q =>
    { q with wait := .cc 0 1 false 0xFF, buf := List.replicate n d }) with ringIn := [d], creditsBack := 1 })

set_option maxRecDepth 20000 in
theorem witness_RegionsRingsNulls_ring : ∀ n ∈ [63, 64],
    let s := sRing n
    s.Steady ∧ (∀ d, d < 8 → d ≠ 1 → (s.core d).quiet = true) ∧ (∀ u ∈ engUnits, ((s.core 1).eng u).queue = []) ∧
    (s.core 1).seq.wait ≠ .none ∧ (s.core 1).waitOver = none ∧ (s.core 1).seq.buf.length = n ∧
    (s.groupOf 1).find? (fun d => (s.core d).isBellwether) = some 0 ∧ 0 < (s.core 1).creditsBack := by
  unfold State.Steady; decide +kernel

/-- A running entry of core 0. -/
def run (id : Nat) (op : Option EngOp) : REntry := { q := ⟨id, 0, 0, 0, 0xFF, false, none, op, {}⟩, inRows := false }

/-- Operations run in a unit of core 0. -/
def sRun (u : EngUnit) (rs : List REntry) : State := sA.modCore 0 (fun k => k.modEng u (fun e => { e with running := rs }))

set_option maxRecDepth 20000 in
theorem witness_RegionsRingsNulls_null :
    let s := sRun .vec [run 4 none, run 5 none]
    s.Quiet ∧ s.Steady ∧ ((s.core 0).eng .vec).queue = [] ∧ (∀ x ∈ [run 5 none], (run 4 none).q.id < x.q.id) ∧
    (∀ d, d < 8 → (s.core d).id.active = true → (s.core d).seq.ended = false) ∧ (∀ e ∈ (s.core 0).seq.sb, e.owner ≠ 4) := by
  unfold State.Quiet State.Steady; decide +kernel

/-- What sHead puts at the head. -/
def headOf (op : EngOp) : QEntry := ⟨3, 0, 0, 0, 0xFF, false, none, some op, {}⟩

set_option maxRecDepth 20000 in
theorem witness_EngineStarts : ∀ x ∈ [(EngUnit.ox, EngOp.ldw (sramBase 0) 0 false 0 1 1), (.ox, .mm (sramBase 0) (sramBase 0 + 4096) 1 true false 0 0 false false 0),
      (.vec, .vec 1 (sramBase 0) (sramBase 0) (sramBase 0) 1 2 false), (.row, .row false (sramBase 0) 0 0 0), (.att, .att 6 0 15),
      (.m0, .copy1 (sramBase 0) (sramBase 0 + 64) 64 0 0)],
    (sHead x.1 x.2 none).HeadAlone 0 x.1 (headOf x.2) ∧ ((sHead x.1 x.2 none).core 0).ox.running = [] ∧
      (((sHead x.1 x.2 none).core 0).plane true).state = .ready ∧ ((sHead x.1 x.2 none).core 0).row.ops = [] ∧
      ((sHead x.1 x.2 none).core 0).att.ops = [] := by
  unfold State.HeadAlone State.Steady; decide +kernel

/-! ## Descriptors and results: witnesses -/

/-- Byte x of the SRAM of core 0. -/
def sr (x : Nat) : Nat := sramBase 0 + x

/-- sA with bytes at 0x10000 in the SRAM of core 0. -/
def sDesc (bs : List Byte) : State := sA.modMs (fun m => m.put (sr 0x10000) bs)

def gatherBytes : List Byte :=
  leBytes 8 (sr 0) ++ leBytes 8 (sr 64) ++ leBytes 8 (sr 128) ++ leBytes 4 64 ++ leBytes 4 64 ++ leBytes 4 1 ++ leBytes 4 1 ++ leBytes 4 64
def walkBytes : List Byte :=
  leBytes 8 (sr 0) ++ leBytes 8 (sr 64) ++ leBytes 8 (sr 128) ++ leBytes 2 1 ++ [0, 0] ++ leBytes 4 65536 ++ leBytes 4 1
def wgradBytes : List Byte :=
  leBytes 8 (sr 0) ++ leBytes 8 (sr 64) ++ leBytes 8 (sr 0x20000) ++ leBytes 4 64 ++ leBytes 4 64 ++ leBytes 4 1 ++ leBytes 2 1 ++ leBytes 2 1
def rowBytesFwd : List Byte :=
  leBytes 8 (sr 0) ++ leBytes 8 (sr 64) ++ leBytes 8 0 ++ leBytes 8 (sr 128) ++ leBytes 16 0 ++ leBytes 4 1 ++ leBytes 4 1

set_option maxRecDepth 20000 in
theorem witness_EngineStarts_checks : (sDesc wgradBytes).checkWgrad 0 (sr 0x10000) = 0 ∧
    (sDesc rowBytesFwd).checkRow 0 false (sr 0x10000) 0 0 1 = 0 ∧ sA.checkAtt 0 6 0 15 = 0 := by decide +kernel

/-- OFF 0x400 of AR0: the descriptor at 0x10000. -/
def gw (o : Nat) : IWord := Word128.withOp (BitVec.ofNat 128 0x400) 4 o

set_option maxRecDepth 20000 in
theorem witness_GatherWalk : decodeCause (gw 1) = 0 ∧ decodeCause (gw 2) = 0 ∧
    (((sDesc gatherBytes).offered 0 ((sDesc gatherBytes).decodedAt 0 (gw 1))).resolve 0 (gw 1)).cause = 0 ∧
    (((sDesc walkBytes).offered 0 ((sDesc walkBytes).decodedAt 0 (gw 2))).resolve 0 (gw 2)).cause = 0 ∧
    (sA.core 0).seq.sb = [] ∧ (sA.core 0).gath.ops = [] ∧
    (sDesc gatherBytes).checkGather 0 ((sDesc gatherBytes).operand 0 (gw 1) 0).nat = 0 ∧
    (sDesc walkBytes).checkWalk 0 ((sDesc walkBytes).operand 0 (gw 2) 0).nat = 0 := by decide +kernel

set_option maxRecDepth 20000 in
theorem witness_MuleCopies : inSram 0 (sr 0) 64 = true ∧ inSram 0 (sr 64) 64 = true ∧ overlaps (sr 0) 64 (sr 64) 64 = false ∧
    sA.ms.mem.wf 0 = true := by decide +kernel

set_option maxRecDepth 20000 in
theorem witness_OperationsComplete : ∀ x ∈ [(EngUnit.vec, EngOp.vec 1 (sr 0) (sr 64) (sr 128) 1 2 false), (.row, .statFree 0 0 0), (.att, .att 6 0 15),
      (.cache, .cacheRange true true 0 64), (.ox, .ldw (sr 0) 0 true 0 1 1)],
    let s := sRun x.1 [run 4 (some x.2)]
    s.Calm ∧ ((s.core 0).eng x.1).mayComplete x.1 0 = some (run 4 (some x.2)) := by
  unfold State.Calm State.Quiet State.Steady; decide +kernel

set_option maxRecDepth 20000 in
theorem witness_VecElementResults : sA.ms.mem.wf 0 = true ∧ inSram 0 (sr 0) 4 = true ∧ inSram 0 (sr 0x17FFFC) 4 = true ∧
    finite32 (BitVec.ofNat 32 (sA.ms.le (sr 0) 4)) = true := by decide +kernel

/-- Queue 3 of core 0 with one whole message, in KT4 mode or not, read position p. -/
def sQueue (kt4 mark : Bool) (p : Nat) : State := sA.modCore 0 (fun k => k.modQueue 3 (fun q =>
  { q with entries := [⟨7, 0, 0, 0, true⟩, ⟨8, 0, 0, 0, true⟩], kt4 := kt4, markValid := mark, rdPos := p }))

def mw (o : Nat) (b : Nat) : IWord := Word128.withOp (BitVec.ofNat 128 b) 7 o

set_option maxRecDepth 20000 in
theorem witness_QueueOperations : ∀ b ∈ [true, false], ((sQueue true false 1).core 0).queue 3 ≠ ((sQueue false false 1).core 0).queue 3 ∧ (sQueue b b 1).Ready 0 ∧ ((sQueue b b 1).core 0).msgq.running = [] ∧
    ((sQueue b b 1).core 0).msg.sends = [] ∧ (((sQueue b b 1).core 0).queue 3).locked = false ∧ (((sQueue b b 1).core 0).queue 3).senders = [] ∧
    (∀ o ∈ [3, 4, 5, 6], decodeCause (mw o 3) = 0) ∧ (((sQueue b b 1).core 0).queue 3).kt4 = b := by
  unfold State.Ready State.Takes State.Quiet State.Steady; decide +kernel

/-- A full queue 3 of core 0 of 25 messages that lists a sender: core 1 of this module, or core 2 of another. -/
def sFull (far : Bool) : State := sA.modCore 0 (fun k => k.modQueue 3 (fun q =>
  { q with entries := List.replicate 25 ⟨7, 0, 0, 0, true⟩, kt4 := true, markValid := true, mark := 2, rdPos := 5,
           senders := if far then [(9, 2)] else [(0x3FFF, 1)] }))

set_option maxRecDepth 20000 in
theorem witness_QueueOperations_credits : ∀ f ∈ [true, false], (sFull f).Ready 0 ∧ 24 < (((sFull f).core 0).queue 3).entries.length ∧
    ((((sFull f).core 0).queue 3).senders.map (fun e => (sFull f).isOwnDev e.1)) = [!f] ∧ (((sFull f).core 0).queue 3).mark < 5 := by
  unfold State.Ready State.Takes State.Quiet State.Steady; decide +kernel

set_option maxRecDepth 20000 in
theorem witness_MessagesInAndOut : ∀ b ∈ [true, false],
    decodeCause (mw 2 0x3000000) = 0 ∧ ((sQueue b b 0).issueRecv 0 (mw 2 0x3000000)).cause = 0 ∧ ((sQueue b b 0).core 0).seq.sb = [] ∧
    (((sQueue b b 0).core 0).queue 3).flushPending = false ∧ (((sQueue b b 0).core 0).queue 3).head = some [⟨7, 0, 0, 0, true⟩] ∧
    (sQueue b b 0).ms.mem.wf 0 = true := by decide +kernel

/-- A message of n entries of a Bullock under way to queue 3 of core 0, where k entries stand; its job tag. -/
def sArr (tag : BitVec 16) (n k : Nat) : State :=
  { sOn.modCore 0 (fun c => c.modQueue 3 (fun q => { q with entries := List.replicate k ⟨7, 0, 0, 0, true⟩ })) with
    locals := [⟨.ud 0, 0, 3, tag, List.replicate n ⟨7, 0, 0, 0, true⟩, 0, false⟩] }

set_option maxRecDepth 20000 in
theorem witness_MessagesInAndOut_arrival : ∀ x ∈ [(1, 1, 24), (0, 1, 25), (0, 2, 24), (0, 1, 24)],
    let s := sArr (BitVec.ofNat 16 x.1) x.2.1 x.2.2
    s.Calm ∧ s.locals.length = 1 ∧ (((s.core 0).queue 3).entries.length = x.2.2) ∧ (s.core 0).id.jobTag = 0 ∧
      ((s.core 0).queue 3).flushPending = false := by
  unfold State.Calm State.Quiet State.Steady; decide +kernel

/-- The same message sent by core 1, whose SEND 9 waits for its status; `list`: the senders that the queue lists. -/
def sArrCore (tag : BitVec 16) (n k : Nat) (list : List (BitVec 14 × BitVec 3)) : State :=
  let s := (sArr tag n k).modCore 1 (fun c => c.modMsg (fun r =>
    { r with sends := [{ id := 9, sigcc := 4, dev := 0x3FFF, core := 0, queue := 3 }], mirror := [⟨0x3FFF, 0, 3, false⟩] }))
  { s.modCore 0 (fun c => c.modQueue 3 (fun q => { q with senders := list })) with locals := s.locals.map (fun m => { m with src := .core 1 9 }) }

set_option maxRecDepth 20000 in
theorem witness_MessagesInAndOut_status : ∀ x ∈ [(1, 1, 24), (0, 1, 25), (0, 1, 24), (0, 1, 23)], ∀ l ∈ [[], [(0, 1)], List.replicate 8 (9, 2)],
    let s := sArrCore (BitVec.ofNat 16 x.1) x.2.1 x.2.2 l
    s.Calm ∧ s.locals.map (fun m => m.src) = [.core 1 9] ∧ (s.core 1).msg.sends.map (fun p => (p.id, p.sched)) = [(9, false)] ∧
    ((s.core 0).queue 3).entries.length = x.2.2 ∧ ((s.core 0).queue 3).flushPending = false := by
  unfold State.Calm State.Quiet State.Steady; decide +kernel

/-- SEND of one entry from AR0 to queue 3 of core 1 of this module: DEV 0x3FFF. -/
def sendWord : IWord := mw 1 (0x3FFF * 0x1000000 + 0x4000000000 + 3 * 0x20000000000)

set_option maxRecDepth 20000 in
theorem witness_SendsLeave : decodeCause sendWord = 0 ∧ (sA.issueSend 0 sendWord).cause = 0 ∧ bitB sendWord 48 = false ∧ bitB sendWord 49 = false ∧
    sA.isOwnDev (fld sendWord 24 14) = true ∧ sA.ms.badRange (sr 0) 64 = false ∧ (sA.core 0).seq.sb = [] ∧ sA.outstanding < 8192 ∧
    (sA.core 0).msgq.running = [] ∧ (sA.core 0).msgq.queue = [] := by decide +kernel

/-- A WAIT-form SEND held at the head; a SEND without its status. -/
def sHeld : State := (sHead .msg (.send (sr 0) 0x3FFF 1 3 1 true false 0) none).modCore 0 (fun k => { k with msg := { k.msg with holding := true } })
def sSent : State := sOn.modCore 0 (fun k => { k with msg := { k.msg with sends := [{ id := 9, sigcc := 63, dev := 0x3FFF, core := 1, queue := 3 }] } })

set_option maxRecDepth 20000 in
theorem witness_SendsLeave_held : sHeld.HeadAlone 0 .msg (headOf (.send (sr 0) 0x3FFF 1 3 1 true false 0)) ∧ (sHeld.core 0).msg.holding = true ∧
    sHeld.isOwnDev 0x3FFF = true ∧ sHeld.ms.badRange (sr 0) 64 = false := by
  unfold State.HeadAlone State.Steady; decide +kernel

set_option maxRecDepth 20000 in
theorem witness_SendsLeave_status : sSent.Calm ∧
    ((sSent.core 0).msg.sends.find? (fun x => x.id == 9)).isSome = true ∧ (sSent.core 0).msg.sends.find? (fun x => x.id == 8) = none := by
  unfold State.Calm State.Quiet State.Steady; decide +kernel

/-! ## Registers, Bullocks, memories: witnesses -/

/-- Core 2 is active; queue 3 of core 0 is locked, holds an entry, or neither. -/
def sActive : State := s0.modCore 2 (fun k => { k with id := { k.id with active := true } })
def sLocked : State := s0.modCore 0 (fun k => k.modQueue 3 (fun q => { q with locked := true }))

set_option maxRecDepth 20000 in
theorem witness_CoreRegisterWrites : (sActive.core 2).id.active = true ∧ (s0.core 2).id.active = false ∧ sLocked.Calm ∧ s0.Calm ∧
    ((sLocked.core 0).queue 3).locked = true ∧ ((s0.core 0).queue 3).locked = false ∧ ((s0.core 0).queue 3).entries = [] ∧
    ((s0.core 0).queue 3).kt4 = false ∧ ((s0.core 0).queue 3).senders = [] ∧ (s0.core 0).msgq.running = [] := by
  unfold State.Calm State.Quiet State.Steady; decide +kernel

theorem witness_DieRegisterWrites : fldN (0x0000000127100000 : Reg) 16 16 = 10000 ∧ fldN (0x0000000127100000 : Reg) 32 16 = 1 ∧
    10000 < fldN (0x0000000127110000 : Reg) 16 16 ∧ fldN (0x1010 : Reg) 0 5 = 16 ∧ fldN (0x1010 : Reg) 8 5 = 16 ∧ 16 < fldN (0x1011 : Reg) 0 5 ∧
    fldN (0x10001004000 : Reg) 8 12 = 64 ∧ fldN (0x10001004000 : Reg) 24 16 = 1 ∧ fldN (0x10001004000 : Reg) 40 4 = 1 ∧
    fldN (0x10001003F00 : Reg) 8 12 < 64 ∧ fldN (0xA800 : Reg) 8 8 = 168 ∧ 168 < fldN (0xA900 : Reg) 8 8 ∧
    bitB s0.ms.hcCtrl.en 0 = true ∧ bitB (0x10001004000 : Reg) 0 = false := by decide +kernel

/-- Injection is permitted; link (5, 1) stands in entry 2 of the fault map. -/
def sInj : State := { s0 with fab := { s0.fab with permit := true, fmap := [(2, ⟨5, 1, 2⟩)] } }

theorem witness_FabricAndSystemWrites : sInj.fab.permit = true ∧ s0.fab.permit = false ∧ sInj.fab.injEn = false ∧
    (∀ e ∈ sInj.fab.fmap, e.2.dev = 5 → e.2.trunk.toNat = 1 → e.1 = 2) ∧ (∃ e ∈ sInj.fab.fmap, e.2.dev = 5 ∧ e.2.trunk.toNat = 1) ∧
    bitB (0x80004005 : Reg) 31 = true ∧ fld (0x80004005 : Reg) 0 14 = (5 : DevId) ∧ fldN (0x80004005 : Reg) 14 3 = 1 := by decide +kernel

theorem witness_FabricAndSystemWrites_registers : (0x00010001 : BitVec 32).toNat % 8 ≠ 0 ∧ blkOf (0x00060000 : BitVec 32).toNat = none ∧
    blkOf (0x01800000 : BitVec 32).toNat = none := by decide +kernel

/-- Bullock 0 has one accepted command of a KIND at the head of ring 0, of partition 0. -/
def sRing0 (kind : Byte) : State :=
  let s := s0.modUd 0 (fun d => { d with rings := vmod d.rings 0 (fun _ => ⟨0x10000, 4, true, 15, 16⟩) })
  s.modMs (fun m => m.put (0x10000 + 64 + 128 * 15) [kind])

set_option maxRecDepth 20000 in
theorem witness_BullockTakesCommands : ∀ k ∈ [0, 1, 2], (sRing0 (BitVec.ofNat 8 k)).stopped = false ∧ (sRing0 (BitVec.ofNat 8 k)).ms.soft = [] ∧
    ((sRing0 (BitVec.ofNat 8 k)).udOf 0).running = none ∧ ((sRing0 (BitVec.ofNat 8 k)).udOf 0).nextRing = some 0 ∧
    (sRing0 (BitVec.ofNat 8 k)).ms.badRange 0x107C0 128 = false ∧ leAt ((sRing0 (BitVec.ofNat 8 k)).ms.bytes 0x107C0 128) 0 1 = k ∧
    leAt ((sRing0 (BitVec.ofNat 8 k)).ms.bytes 0x107C0 128) 0x1C 4 = 0 ∧ leAt ((sRing0 (BitVec.ofNat 8 k)).ms.bytes 0x107C0 128) 4 4 = 0 := by
  decide +kernel

/-- A command runs on Bullock 1 with a signal to core 7. -/
def sRunning : State := s0.modUd 1 (fun d => { d with running := some ⟨7, 0, [], 0, [(0x2000, [1, 2])], 0x207, false, 0, 0, 0⟩ })

set_option maxRecDepth 20000 in
theorem witness_BullockRings : sRunning.Calm ∧ (sRunning.udOf 1).running.isSome = true ∧ (sRunning.udOf 0).running = none ∧ sRunning.ms.ue = [] ∧ sRunning.ms.soft = [] ∧
    sRunning.ms.mem.wf 0 = true := by
  unfold State.Calm State.Quiet State.Steady; decide +kernel

set_option maxRecDepth 20000 in
theorem witness_BullockRings_doorbell :
    let r := ((sRing0 1).udOf 0).rings.getD 0 {}
    r.enable = true ∧ r.base.toNat % 64 = 0 ∧ r.base.toNat < 0x10000000000 ∧ (sRing0 1).ms.ue = [] ∧ (sRing0 1).ms.soft = [] ∧ (sRing0 1).stopped = false ∧ (sRing0 1).ms.mem.wf 0 = true ∧
    (∀ v, v < 2 → ∀ q, q < 8 → (v ≠ 0 ∨ q ≠ 0) → (((sRing0 1).udOf v).rings.getD q {}).enable = false) ∧
    ((31 : BitVec 64) - r.head).toNat = 16 ∧ ((32 : BitVec 64) - r.head).toNat = 17 := by decide +kernel

theorem witness_HbmAndMemoryEvents : s0.stopped = false ∧ s0.ms.soft = [] ∧ (s0.ms.hc.getD (s0.ms.loc 0).die {}).stackOld.find? (fun e => e.1 == 0) = none ∧ s0.ms.ue = [] ∧
    s0.ms.mem.wf 0 = true ∧ (List.replicate 64 (0 : Byte)).length ≤ 64 - (0 : BitVec 40).toNat % 64 := by decide +kernel

/-- Frame 1,023 of die 3 is being filled. -/
def sFill : State := { s0 with ms := s0.ms.modDie 3 (fun x => { x with frames := [(1023, { page := 9, state := .filling, keep := true, age := 0, touched := false, valid := 0, dirty := 0, fillAt := 5, gone := 0x80 })] }) }

theorem witness_HbmAndMemoryEvents_events : ((sFill.ms.hc.getD 3 {}).frames.find? (fun e => e.1 == 1023)).isSome = true ∧ sFill.ms.ue = [] ∧
    (sFill.ms.hc.getD 3 {}).frames.find? (fun e => e.1 == 0) = none ∧ s0.ms.hbm.scrubEn = true ∧ sFill.ms.soft = [] ∧ s0.stopped = false ∧
    ({ s0.ms.hbm with scrubEn := false } : HbmRegs).scrubEn = false := by decide +kernel

/-! ## Fabric and time: witnesses -/

/-- A module at (0, 0, 0, 0) of a 4 x 2 x 1 x 1 system with light; lane k in a state. -/
def sLane (k : Nat) (st : LaneState) : State :=
  { s0 with fab := { s0.fab with
      sizes := #v[4, 2, 1, 1], coordValid := true, lsuOk := 0xF, lsuPresent := 0xF
      lanes := vmod s0.fab.lanes k (fun l => { l with state := st, rxMask := 0x1F, txMask := 0xFF, farMask := 0xF, credits := #v[1536, 512, 1536, 512] }) } }

theorem calmLane (k : Nat) (st : LaneState) : (sLane k st).Calm := calm0

theorem noCopies0 : s0.NoCopies := by
  refine ⟨?_, rfl⟩
  intro c u hc hu
  interval_cases c <;> cases u <;> rfl

theorem witness_LaneStates : (sLane 0 .train).laneUsable 0 = true ∧ (sLane 63 .failed).laneUsable 63 = false ∧
    ((sLane 0 .hello).lane 0).state ≠ .up ∧ ((sLane 0 .hello).lane 0).state ≠ .listen ∧ ((sLane 0 .hello).lane 0).helloOk = false ∧
    ((sLane 0 .failed).lane 0).state = .failed ∧ ((sLane 0 .miswired).lane 0).state = .miswired ∧ ((sLane 0 .off).lane 0).cut = none ∧ ((sLane 0 .off).lane 0).cutFrom = none ∧
    popcount (clrBit ((sLane 0 .hello).lane 0).rxMask 0) = 4 ∧ ((sLane 0 .hello).lane 0).rxMask.getLsbD 0 = true ∧
    ((sLane 0 .hello).lane 0).rxMask.getLsbD 7 = false ∧ bitB (5 : Reg) 2 = true := by decide +kernel

/-- Lanes 0 and 1 of trunk 0 are UP with n wavelengths received on lane 0. -/
def sTwo (mask : BitVec 8) : State :=
  (sLane 0 .up).modFab (fun f => { f with lanes := vmod (vmod f.lanes 0 (fun l => { l with rxMask := mask })) 1 (fun l => { l with state := .up }) })

theorem witness_CarryingLanes : (∃ j, j < 64 ∧ j ≠ 0 ∧ j / 8 = 0 ∧ ((sTwo 0x1F).lane j).state = .up) ∧
    popcount (clrBit (0x1F : BitVec 8) 4) = 4 ∧ popcount (clrBit (0x0F : BitVec 8) 3) = 3 ∧ (0x1F : BitVec 8).getLsbD 4 = true ∧ (0x0F : BitVec 8).getLsbD 3 = true ∧ (sTwo 0x1F).laneUsable 0 = true ∧
    ((sLane 0 .listen).lane 0).state = .listen ∧ (sTwo 0x1F).anyJob = false ∧ ((sTwo 0x1F).lane 0).listenEn = true ∧
    (sTwo 0x1F).fab.waiting = [] ∧ (sTwo 0x1F).time.hasUp = false ∧
    ((sTwo 0x1F).lane 0).cut = none ∧ ((sTwo 0x1F).lane 0).cutFrom = none ∧ ((sTwo 0x1F).lane 0).far.upstream = false ∧
    (0x3F : BitVec 8) ≠ ((sTwo 0x1F).lane 0).rxMask ∧ 4 ≤ popcount (0x3F : BitVec 8) := by decide +kernel

theorem witness_LightAndHellos : (∀ k, k < 64 → k / 16 = 0 → ((sLane 0 .off).lane k).state ≠ .up ∧ ((sLane 0 .off).lane k).state ≠ .listen ∧
    ((sLane 0 .off).lane k).cut = none ∧ ((sLane 0 .off).lane k).cutFrom = none) ∧
    1 < (sLane 0 .off).fab.size 0 ∧ (sLane 0 .off).fab.size 3 ≤ 1 := by decide +kernel

/-- A hello that trunk 1, lane 0 of a neighbour with n wavelengths sends to trunk 0. -/
def hello (sys : Nat) (mask : Byte) : List Byte :=
  leBytes 4 sys ++ [7, 0, 1, 0, 0, 0, 0, 0, 4, 2, 1, 1, 0, mask] ++ List.replicate 46 0

theorem witness_LightAndHellos_hello :
    let s := sLane 0 .hello
    (s.lane 0).state = .hello ∧ (s.lane 0).cut = none ∧ (s.lane 0).cutFrom = none ∧ leAt (hello 0 0xF) 0 4 = s.fab.systemId.toNat ∧ leAt (hello 0 0xF) 6 1 = (0 / 8 ^^^ 1) ∧
    leAt (hello 0 0xF) 7 1 = 0 ∧ (∀ d, d < 4 → leAt (hello 0 0xF) (0xC + d) 1 = s.fab.size d) ∧ popcount ((hello 0 0xF).getD 0x11 0) = 4 ∧
    popcount ((hello 0 7).getD 0x11 0) = 3 ∧ s.fab.coordMode ≠ 2 ∧ ((hello 0 0xF).getD 0x10 0).getLsbD 0 = false ∧
    leAt (hello 1 0xF) 0 4 ≠ s.fab.systemId.toNat := by decide +kernel

/-- The hello with one byte changed, so that its first failing check is the c-th (check 5: coordinates sent as valid). -/
def badHello (c : Nat) : List Byte := match c with
  | 1 => hello 1 0xF
  | 2 => (hello 0 0xF).set 6 0
  | 3 => (hello 0 0xF).set 7 1
  | 4 => (hello 0 0xF).set 0xD 1
  | _ => (hello 0 0xF).set 0x10 1

theorem witness_LightAndHellos_causes : ∀ c ∈ [1, 2, 3, 4, 5],
    let s := sLane 0 .hello
    s.helloCause 0 (Hello.of (badHello c)) = c ∧ s.fab.coordValid = true ∧ s.fab.coordMode ≠ 2 ∧
    ∀ r ∈ [true, false], let u := if r then { s with rst := { s.rst with restricted := 2 } } else s.modLane 0 (fun l => { l with farRestricted := true })
      (u.rst.restricted ≠ 0 ∨ (u.lane 0).farRestricted = true) ∧ (u.lane 0).state = .hello := by decide +kernel

/-- A best-effort packet of a type with one unit for core 0, queue 3, counter 1 of the module at (0, 0, 0, 0). -/
def pk (ty : Nat) (n : Nat) : Packet :=
  PacketFields.build { ty := ty, dst := 0, src := 1, jobTag := 0, addr := sr 0, queue := 3, counter := 1, xid := 9,
                       payload := if ty = 2 then leBytes 8 (sr 0) ++ leBytes 4 n ++ List.replicate 52 0 else List.replicate (64 * n) 3 }

def arrives (k : LaneId) (p : Packet) (s : State) : Bool :=
  s.fab.noticeQ.isEmpty && (s.lane k).state == .up && s.fab.coordValid && !s.headerBad p && p.dst == s.dev && !p.cls && !p.dropped && !p.expiredAt s.now && p.pcrcOk

set_option maxRecDepth 40000 in
theorem witness_DataPackets : ∀ x ∈ [(1, 1), (2, 1), (3, 1), (5, 1), (8, 1)],
    arrives 0 (pk x.1 x.2) (sLane 0 .up) = true ∧ (pk x.1 x.2).ty = x.1 := by decide +kernel

set_option maxRecDepth 40000 in
theorem witness_PacketsToCores : ∀ x ∈ [4, 6, 7], arrives 0 (pk x 0) (sLane 0 .up) = true ∧ (pk x 0).ty = x := by decide +kernel

theorem witness_arrives : ∀ p, arrives 0 p (sLane 0 .up) = true → (sLane 0 .up).Arrives 0 p.ty p := by
  intro p h
  simp only [arrives, Bool.and_eq_true, Bool.not_eq_true', beq_iff_eq, List.isEmpty_iff] at h
  exact ⟨calmLane 0 .up, noCopies0, h.1.1.1.1.1.1.1.1, h.1.1.1.1.1.1.1.2, h.1.1.1.1.1.1.2, h.1.1.1.1.1.2, rfl, h.1.1.1.1.2, h.1.1.1.2,
    h.1.1.2, h.1.2, h.2⟩

/-- The job of tag 5 owns core 0 and one region of HBM, and lane 0 is UP. -/
def sJobUp : State := { sA with fab := (sLane 0 .up).fab }

theorem witness_DataPackets_memory : sJobUp.fabricOk 5 (sr 0) 64 = true ∧ sJobUp.fabricOk 6 (sr 0) 64 = false ∧
    sJobUp.ms.ue = [] ∧ sJobUp.ms.soft = [] ∧ sJobUp.ms.mem.wf 0 = true ∧ sr 0 % 64 + 4096 ≤ 4096 := by decide +kernel

theorem witness_PacketsToCores_kept : (sLane 0 .up).fab.dups.length < 4096 ∧ (sLane 0 .up).locals = [] ∧ ((sLane 0 .up).core 0).id.jobTag = 0 ∧
    (((sLane 0 .up).core 0).queue 3).entries.length ≤ 24 ∧ (((sLane 0 .up).core 0).queue 3).flushPending = false := by decide +kernel

/-- A request of each owner is open under XID 9. -/
def sOut (o : ReqOwner) (n : Nat) : State :=
  { sLane 0 .up with
    fab := { (sLane 0 .up).fab with out := [⟨9, pkt 4 0 0, o, none, n⟩] }
    cores := sSent.cores }

set_option maxRecDepth 20000 in
theorem witness_Answers : ∀ o ∈ [(ReqOwner.msg 0 9, 0), (.signal, 7), (.notice, 7), (.copy 0 0 9, 0)],
    ((sOut o.1 o.2).fab.out.find? (fun r => r.xid == 9)).isSome = true ∧ ((sOut o.1 o.2).core 0).msg.sends.length = 1 ∧
    (sOut o.1 o.2).Calm ∧ (sOut o.1 o.2).fab.sched = [] ∧ (sOut o.1 o.2).fab.waiting = [] ∧
    (sOut o.1 o.2).fab.out.find? (fun r => r.xid == 8) = none ∧ (sOut o.1 o.2).fab.failedMsgs = [] := by
  unfold State.Calm State.Quiet State.Steady; decide +kernel

/-- A request for the next module in dimension 0, resent three times, is open; lane 0 has credits for it or not. -/
def sResend (full : Bool) : State :=
  let f := (sLane 0 .up).fab
  { sLane 0 .up with fab := { f with
      out := [⟨9, PacketFields.build { ty := 4, dst := 1, src := 0, xid := 9 }, .signal, none, 3⟩]
      lanes := vmod f.lanes 0 (fun l => { l with credits := if full then #v[0, 0, 0, 0] else l.credits }) } }

set_option maxRecDepth 40000 in
theorem witness_Answers_resent : ∀ full ∈ [true, false],
    let s := sResend full
    let r := s.fab.out.headD ⟨0, pkt 0 0 0, .signal, none, 0⟩
    let p := (((s.reload r).withClass false).withDir 0).withExpiry s.time.ft
    s.fab.out.find? (fun r => r.xid == 9) = some r ∧ r.resends < 7 ∧ s.fab.route s.dev.toNat r.pkt.dst.toNat = some 0 ∧
    nextTrunk s.dev.toNat p = some 0 ∧ s.trunkUp 0 = true ∧ s.trunkListens 0 = false ∧ s.fab.injEn = false ∧ (s.lane 0).reorder = [] ∧
    s.pickLane 0 (p.withVc (s.fab.vcFor s.dev.toNat p)) = (if full then none else some 0) ∧ s.fab.noticeQ = [] ∧ s.fab.sched = [] ∧
    s.fab.waiting = [] := by decide +kernel

/-- The packet for the module one step on in dimension 1, and one whose header's CRC is wrong. -/
def pkOn : Packet := (PacketFields.build { ty := 4, dst := 8, src := 1, xid := 9 })

set_option maxRecDepth 40000 in
theorem witness_PacketHops : (sLane 0 .up).headerBad pkOn = false ∧ pkOn.ty = 4 ∧ pkOn.cls = false ∧ pkOn.dst ≠ (sLane 0 .up).dev ∧
    nextTrunk 0 pkOn = some 2 ∧ pkOn.expiredAt 0 = false ∧ pkOn.pcrcOk = true ∧ (sLane 0 .up).headerBad (pkt 4 0 0) = true ∧
    (sLane 16 .up).trunkUp 2 = true ∧ (sLane 0 .up).trunkUp 2 = false ∧ (sLane 0 .up).trunkListens 2 = false ∧
    pkOn.expiredAt 1024 = true ∧ pkOn.dropped = false ∧ pkOn.withDrop.dropped = true ∧ (sLane 0 .up).headerBad pkOn.withDrop = false := by
  decide +kernel

/-- A SEND of core 0 failed under XID 9 and has timed out: its ACK is late. -/
def sFailed : State := { sLane 0 .up with fab := { (sLane 0 .up).fab with failedMsgs := [(9, 0, 9)] } }

theorem witness_Answers_late : sFailed.fab.out = [] ∧ sFailed.fab.failedMsgs = [(9, 0, 9)] ∧ (sFailed.core 0).msg.sends = [] ∧
    (pk 6 0).status = 0 ∧ arrives 0 (pk 6 0) sFailed = true := by decide +kernel

/-- The frames of four wavelengths of a lane frame of IDLE blocks and a lane control word. -/
def fourWaves (seq : BitVec 16) (w : BitVec 64) : List (BitVec 2048) :=
  let data := ((List.replicate 32 idleBlock).flatten).take 1008
  (List.range 4).map (fun i => encodeWave (slice data (252 * i) 252) ⟨seq.setWidth 4, fld w (16 * i) 16⟩)

/-- Lane 0 of sLane forwards the packet that lane 1 sends, and has kept a frame. -/
def sCut : State := (sTwo 0x1F).modFab (fun f => { f with lanes := vmod (vmod f.lanes 0 (fun l =>
  { l with cut := some (.onto 1), rxBytes := List.replicate 32 4, retry := [⟨7, [1], 0, none⟩], rxSync := true })) 1 (fun l => { l with cutFrom := some 0 }) })

set_option maxRecDepth 20000 in
theorem witness_LaneFrames : (readWaves (fourWaves 1 0)).any (·.bad) = false ∧ bitB (controlOf (readWaves (fourWaves 1 0))) 60 = false ∧
    bitB (controlOf (readWaves (fourWaves 1 0x1000000000000000))) 60 = true ∧ (readWaves [3]).any (·.bad) = true := by decide +kernel

set_option maxRecDepth 20000 in
theorem witness_LaneFrames_idle : (let raw := (readWaves (fourWaves 1 0)).flatMap (·.data)
    (blocksOf (raw.length / 32) raw).all (fun b => b == idleBlock)) = true := by decide +kernel

set_option maxRecDepth 20000 in
/-- The frames above and one on the lowest wavelength alone as operands of the row, and an ABORT block. -/
theorem witness_LaneFrames_operands : waveFrames false ((fourWaves 1 0).getD 0 0)
      #v[(fourWaves 1 0).getD 1 0, (fourWaves 1 0).getD 2 0, (fourWaves 1 0).getD 3 0] [] = fourWaves 1 0 ∧
    waveFrames true 3 (Vector.replicate 3 0) [] = [3] ∧
    (Vector.ofFn (fun i : Fin 32 => abortBlock.getD i.val 0)).toList = abortBlock := by decide +kernel

theorem witness_LaneFrames_state : ((sLane 0 .up).lane 0).state = .up ∧ ((sLane 0 .off).lane 0).state.locked = false ∧
    ((sLane 0 .up).lane 0).rxSeq + 1 = 1 ∧ ((sLane 0 .up).lane 0).rxBytes = [] ∧ ((sLane 0 .up).lane 0).badFrames = [] ∧
    (sLane 0 .up).fab.waiting = [] ∧ ((sLane 0 .up).lane 0).reorder = [] ∧ (sCut.lane 0).cut = some (.onto 1) ∧ (sCut.lane 1).state = .up ∧
    (sCut.lane 1).cutFrom = some 0 ∧ (sCut.lane 0).rxBytes ≠ [] ∧ (∀ f ∈ (sCut.lane 0).retry, f.replays < 8) ∧
    (sCut.lane 0).rxSync = true ∧ (sCut.lane 0).rxRaw.length < 32 ∧ (sCut.lane 0).replayed = none ∧
    ((sLane 0 .listen).lane 0).state = .listen ∧ ((sLane 0 .listen).lane 0).rxRaw = [] ∧
    bitB (controlOf (readWaves (fourWaves 1 0))) 61 = false := by decide +kernel

/-- A replay of acknowledgement 0 that began at once is under way for 832 ns. -/
theorem witness_LaneFrames_again : fld (controlOf (readWaves (fourWaves 1 0x1000000000000000))) 44 16 = 0 ∧
    ¬ (0 + 832 * laneUnit ≤ sCut.instant) ∧ 832 * laneUnit ≤ ({ sCut with time := { sCut.time with ft := 832 } } : State).instant := by
  decide +kernel

/-- A follower whose upstream is lane 0; a source; a module in holdover. -/
def sFollow : State := { sLane 0 .up with time := { s0.time with srcMode := 1, hasUp := true } }
def sSource : State := { sLane 0 .up with time := { s0.time with srcMode := 0, roleSource := true, aligned := true } }
def sHold : State := { sLane 0 .up with time := { s0.time with srcMode := 1, holdover := true, aligned := true } }

theorem witness_FabricTime : sFollow.Calm ∧ (∀ j, j < 64 → j ≠ 0 → (sFollow.lane j).state ≠ .up) ∧ (sFollow.lane 0).state = .up ∧
    sFollow.time.srcMode = 1 ∧ sFollow.time.hasUp = true ∧ 8 * sFollow.time.upTrunk.toNat + sFollow.time.upLane.toNat = 0 ∧
    sSource.time.mayFollow = false ∧ sSource.time.hasUp = false ∧ sHold.time.holdover = true ∧ sHold.time.roleSource = false ∧
    sHold.time.aligned = true ∧ sFollow.fab.coordValid = true ∧ s0.fab.coordValid = false ∧ sFollow.time.schedEn = false ∧
    (∀ j, j < 64 → (sFollow.lane j).reorder = []) ∧ (sFollow.lane 0).cutFrom = none := by
  refine ⟨calm0, ?_⟩
  decide +kernel

/-- A pulse source with its last edge at FT 0, with and without a loaded job, with a deferred step. -/
def sPulse (job defer : Bool) : State :=
  let s := { s0 with time := { s0.time with edgeSeen := true, stepDeferred := defer } }
  if job then s.modPart 0 (fun p => { p with state := .loaded, size := 1, jobTag := 5 }) else s

set_option maxRecDepth 20000 in
theorem witness_Pulse : ∀ j ∈ [true, false], (sPulse j j).Calm ∧ (sPulse j j).anyJob = j ∧ (sPulse j j).time.srcMode = 0 ∧ (sPulse j j).time.ppsEn = true ∧
    (sPulse j j).time.ppsMissing = false := by
  unfold State.Calm State.Quiet State.Steady; decide +kernel

/-- Distance of a capture from the whole second: within and at 1 ms. -/
theorem witness_Pulse_errors : ((1000999999 : Int) + 500000000) % 1000000000 - 500000000 = 999999 ∧
    ((1001000000 : Int) + 500000000) % 1000000000 - 500000000 = 1000000 ∧ ((999000000 : Int) + 500000000) % 1000000000 - 500000000 = -1000000 ∧
    ((899999999 : BitVec 64) - s0.time.lastEdge).toNat < 900000000 ∧ ¬ ((900000000 : BitVec 64) - s0.time.lastEdge).toNat < 900000000 := by decide +kernel

/-- Lane 0 carries tag 7 in every slot; one scheduled packet of a tag is ready, and its request is open. -/
def sSched (g : Nat) : State :=
  { sLane 0 .up with
    fab := { (sLane 0 .up).fab with
      sched := [⟨9, ⟨16, 0, BitVec.ofNat 64 (9 + g * 0x100000000), 0, []⟩, 0, 0, 0, 1, 500, 0⟩]
      out := [⟨9, ⟨16 + 5 + 131072, 0, BitVec.ofNat 64 (9 + g * 0x100000000), 0, []⟩, .copy 0 0 1, none, 0⟩] }
    time := { s0.time with aligned := true, schedEn := true, schedEpoch := 1, ft := 129, slots := [(0, 7), (1, 7), (2, 7), (3, 7), (4, 7)], frameM1 := 4 } }

/-- The same with a reason to fall back under a cause. -/
def sFall (cause : Nat) : State :=
  let s := sSched (if cause = 1 then 8 else 7)
  { s with
    fab := if cause = 2 then { s.fab with sched := s.fab.sched.map (fun x => { x with limit := 0 }) } else s.fab
    time := { s.time with aligned := cause != 3, schedEn := cause != 4 } }

set_option maxRecDepth 20000 in
theorem witness_ScheduledClass :
    let s := sSched 7
    let x := s.fab.sched.headD ⟨0, pkt 0 0 0, 0, 0, 0, 0, 0, 0⟩
    s.fab.sched.length = 1 ∧ x.pkt.cls = true ∧ s.tableOk x.pkt.jobTag = true ∧ x.pkt.tag.toNat = 7 ∧ s.stopped = false ∧
    s.schedLane x.trunk 7 x.pkt.size = some 0 ∧ s.time.ft < x.limit ∧ (s.lane 0).reorder = [] ∧ s.fab.injEn = false := by decide +kernel

set_option maxRecDepth 20000 in
/-- One state for each cause; the request goes on to trunk 0, which has an UP lane that takes it, or not. -/
theorem witness_ScheduledClass_fallback : ∀ c ∈ [1, 2, 3, 4], ∀ full ∈ [true, false],
    let s0 := sFall c
    let s := if full then { s0 with fab := { s0.fab with lanes := vmod s0.fab.lanes 0 (fun l => { l with credits := #v[0, 0, 0, 0] }) } } else s0
    let x := s.fab.sched.headD ⟨0, pkt 0 0 0, 0, 0, 0, 0, 0, 0⟩
    let r := s.fab.out.headD ⟨0, pkt 0 0 0, .signal, none, 0⟩
    let g := x.pkt.tag.toNat
    let never : Prop := (s.schedLane x.trunk g x.pkt.size = none ∨ x.limit ≤ s.time.ft) ∧ s.schedLater x.trunk g x.pkt.size x.limit.toNat = false
    let p := (((s.reload r).withClass false).withDir 0).withExpiry s.time.ft
    let q := p.withVc (s.fab.vcFor s.dev.toNat p)
    s.stopped = false ∧ s.time.aligned = (c != 3) ∧ s.tableOk x.pkt.jobTag = (c != 4) ∧ (c ≤ 2 → never) ∧
    (trunkLanes x.trunk).any (fun k => (s.lane k).state == .up && s.time.carries k g) = (c != 1) ∧ r.xid = x.xid ∧
    s.fab.route s.dev.toNat r.pkt.dst.toNat = some 0 ∧ nextTrunk s.dev.toNat p = some 0 ∧ s.trunkUp 0 = true ∧ s.trunkListens 0 = false ∧
    s.pickLane 0 q = (if full = false ∧ c = 4 then some 0 else none) := by decide +kernel

/-! ## Ethernet, RoCE, wall clock, GMCP: witnesses -/

def zs (n : Nat) : List Byte := List.replicate n 0

/-- Port 0 with its link up, bulk and control roles, and flow control of priority 3. -/
def sEth : State := { s0 with eth := { s0.eth with ports := vmod s0.eth.ports 0 (fun e =>
  { e with linkUp := true, roleBulk := true, roleCtrl := true, pfcEn := true, pfcPrio := 3 }) } }

/-- A standing configuration with the MAC address 2 in port 0; a frame for it. -/
def sMac : State := { sEth with fl := { sEth.fl with sc := zs 0x35 ++ [2] } }
def frameFor (m : BitVec 48) (v : List (BitVec 12)) (extra : Bool) : EthFrame :=
  { mac := m, bytes := 64, vlans := v, net := .ip4 0 extra, udp := none, badFcs := false, fecCorr := 1, fecUncorr := 0 }

theorem witness_EthernetPorts_frames : sMac.macOf 0 = 2 ∧ sMac.ip4 0 = 0 ∧ (frameFor 2 [] false).mac = sMac.macOf 0 ∧
    (frameFor 2 [] false).net = .ip4 (sMac.ip4 0) false ∧ (frameFor 3 [] false).mac ≠ sMac.macOf 0 ∧
    (frameFor 0x01005E010203 [] false).mac ∉ sMac.groupMacs 0 { frameFor 0x01005E010203 [] false with net := .ip4 0xEF010203 false } ∧
    (frameFor 2 [1, 2] false).vlans.length = 2 ∧ (∃ d, (frameFor 2 [] true).net = .ip4 d true) ∧ sMac.stopped = false  ∧
    (0xEF010203 : BitVec 32) ≠ sMac.ip4 0 ∧ (0xEF010203 : BitVec 32) ∉ [(0xE0000181 : BitVec 32), 0xE000006B] := by
  refine ⟨by decide +kernel, by decide +kernel, by decide +kernel, by decide +kernel, by decide +kernel, by decide +kernel, by decide +kernel, ⟨0, rfl⟩, by decide +kernel⟩

theorem witness_EthernetPorts : s0.stopped = false ∧ (s0.eth.ports.getD 0 {}).linkUp = false ∧ (sEth.eth.ports.getD 0 {}).linkUp = true ∧
    (sEth.eth.ports.getD 0 {}).pfcEn = true ∧ (sEth.eth.ports.getD 0 {}).pfcPrio = 3 ∧ s0.fl.sc = [] ∧
    (let s := { s0 with fl := { s0.fl with sc := [1] } }
     s.fl.sc ≠ [] ∧ s.rst.recovery = false ∧ (s.eth.ports.getD 0 {}).disable = false) := by decide +kernel

/-- A queue pair with n packets to acknowledge, and a window of partition 2 with one slot of 64 bytes. -/
def qp5 (n : Nat) : Qp := { qpn := 5, port := 0, part := 2, remote := 0, gid := 0, psn := 7, unacked := n }
def win (ingest : Bool) : Window := ⟨0x99, 2, true, true, ingest, 4096, 4096, 64, 1, 0, 0, []⟩
def sQp (n : Nat) (i : Bool) : State := { sEth with eth := { sEth.eth with qps := [qp5 n], windows := [win i] } }

set_option maxRecDepth 20000 in
theorem witness_RoceRequests : ∀ i ∈ [true, false], ∀ n ∈ [0, 15], (sQp n i).Calm ∧ (sQp n i).ms.ue = [] ∧ (sQp n i).ms.soft = [] ∧ (sQp n i).ms.mem.wf 0 = true ∧
    ((sQp n i).eth.ports.getD 0 {}).paused = false ∧ (qp5 n).err = false ∧ (qp5 n).port = 0 ∧ (qp5 n).qpn = (5 : BitVec 24).toNat ∧
    (qp5 n).wr = none ∧ (qp5 n).recv = none ∧ (qp5 n).wrBad = false ∧ (qp5 n).held = [] ∧ (6 : BitVec 24) ≠ (qp5 n).psn ∧
    ((qp5 n).psn - 6).toNat < 2 ^ 23 := by
  unfold State.Calm State.Quiet State.Steady; decide +kernel

theorem witness_RoceRequests_windows :
    (sQp 15 true).eth.windows.find? (fun w => w.rkey == 0x99) = some (win true) ∧ (win true).write = true ∧ (win true).part.toNat = (qp5 0).part ∧
    (win true).base ≤ (8128 : BitVec 64).toNat ∧ (8128 : BitVec 64).toNat + (64 : BitVec 32).toNat = (win true).base + (win true).length ∧
    (sQp 0 true).eth.windows.find? (fun w => w.rkey == 0x98) = none ∧
    (sQp 0 true).ingestSlot 2 = some (win true, 0) ∧ (sQp 0 false).ingestSlot 2 = none ∧
    (sQp 0 true).eth.qps.find? (fun q => q.qpn == (5 : BitVec 24).toNat) = some (qp5 0) ∧
    (sQp 0 true).eth.qps.find? (fun q => q.qpn == (6 : BitVec 24).toNat) = none := by decide +kernel

/-- A clock that follows the sender 9, with a Sync and a Delay_Req under way, and one that follows nobody. -/
def mst : PtpMaster := { prio1 := 1, class_ := 0, accuracy := 0, variance := 0, prio2 := 0, identity := 0, steps := 0, sender := 9, logInt := 0 }
def sPtp (src : Bool) : State := { sEth with
  eth := { sEth.eth with ptp := { sEth.eth.ptp with
    masters := [⟨mst, [0, 0]⟩], master := some 9, sync := some (3, 0, 0), req := some (3, 0), msDiff := some 5 } }
  time := { sEth.time with roleSource := src } }
def sHeard : State := { sEth with eth := { sEth.eth with ptp := { sEth.eth.ptp with masters := [⟨mst, [0]⟩] } } }

theorem witness_WallClock : ∀ b ∈ [true, false], ((sPtp b).eth.ports.getD 0 {}).linkUp = true ∧ (sPtp b).stopped = false ∧
    ((sPtp b).eth.ptp.best (sPtp b).time.ft).map (fun m => m.sender) = (sPtp b).eth.ptp.master ∧
    (sPtp b).eth.ptp.master = some (9 : BitVec 80).toNat ∧ (sPtp b).eth.ptp.sync = some (3, 0, 0) ∧ (sPtp b).eth.ptp.req = some (3, 0) ∧
    (sPtp b).eth.ptp.msDiff = some 5 ∧ (sPtp b).time.roleSource = b ∧ sEth.eth.ptp.best 0 = none ∧ sEth.eth.ptp.master = none ∧
    (s0.eth.ports.getD 0 {}).linkUp = false ∧ sHeard.eth.ptp.masters = [⟨mst, [0]⟩] ∧ (sHeard.time.ft - 0).toNat ≤ 4 * mst.interval ∧
    mst.steps < 255 := by
  decide +kernel

theorem witness_WallClock_new :
    let s : State := { sPtp true with eth := { (sPtp true).eth with ptp := { (sPtp true).eth.ptp with master := none } } }
    s.eth.ptp.best s.time.ft = some mst ∧ s.eth.ptp.master ≠ some mst.sender := by decide +kernel

/-- A GMCP request of an operation with a session, a SEQ, flags and a payload. -/
def req (op flags session seq : Nat) (body : List Byte) : List Byte :=
  leBytes 2 0x4D47 ++ [1, BitVec.ofNat 8 op] ++ leBytes 2 flags ++ leBytes 2 0 ++ leBytes 8 session ++ leBytes 8 seq ++
    leBytes 4 body.length ++ leBytes 4 0 ++ body

/-- READY. -/
def sReady : State := { s0 with rst := { s0.rst with ready := true, waiting := none, stepping := 0 }, pins := { s0.pins with pwrEn := true } }

theorem witness_GmcpReads : sReady.Asked 0x01 [] (req 1 0 0 0 []) ∧ sReady.Asked 0x02 [] (req 2 0 0 0 (leBytes 4 0xFFFFFFF8 ++ leBytes 4 1)) ∧
    sReady.Asked 0x02 [] (req 2 0 0 0 (leBytes 4 0 ++ leBytes 4 257)) ∧ sReady.Asked 0x14 [] (req 0x14 0 0 0 []) ∧
    sReady.Asked 0x20 [0] (req 0x20 0 0 0 (zs 8)) ∧ sReady.Asked 0x20 [1] (req 0x20 0 0 0 ([1, 8] ++ zs 6)) ∧
    sReady.Asked 0x20 [1] (req 0x20 0 0 0 ([1, 7] ++ zs 6)) ∧ (sReady.part 7).state = .empty ∧
    sReady.Asked 0x28 [0] (req 0x28 0 0 0 (zs 8)) ∧ sReady.Asked 0x28 [1] (req 0x28 0 0 0 ([1, 0, 0, 0] ++ leBytes 4 0xFFFFFFFF)) ∧
    sReady.Asked 0x30 [] (req 0x30 0 0 0 (zs 32)) := by unfold State.Asked; decide +kernel

theorem witness_GmcpWrites : sReady.rst.recovery = false ∧ sReady.Asked 0x03 [] (req 3 0 0 0 (leBytes 4 8 ++ leBytes 4 1 ++ zs 8)) ∧
    sReady.Asked 0x03 [] (req 3 0 0 0 (leBytes 4 12 ++ leBytes 4 1 ++ zs 8)) ∧
    sReady.Asked 0x28 [2] (req 0x28 0 0 0 ([2] ++ zs 7)) ∧ sReady.Asked 0x28 [3] (req 0x28 0 0 0 ([3] ++ zs 7)) ∧
    sReady.Asked 0x38 [0] (req 0x38 0 0 0 (zs 8)) ∧ sReady.Asked 0x38 [1] (req 0x38 0 0 0 ([1] ++ zs 7)) ∧
    gmcpOps.contains (0x04 : Byte).toNat = false ∧ headerOk (asOp 4 [] (req 4 0 0 0 [])) = true := by unfold State.Asked; decide +kernel

/-- A load area of 1 GiB at 0, and an image of one core for partition 7. -/
def sLoad : State := { sReady with fl := { sReady.fl with sc := zs 0x28 ++ [1] ++ zs 0x100 } }
def image : JobImage := ⟨[⟨false, 0, 0, 0, true, [(0, 0)]⟩], [⟨1, 0, false, false⟩], 0, [], none, [], [], 0, 0xFFFF⟩
def loadBody (size : Nat) : List Byte := [7, BitVec.ofNat 8 size, 5, 0] ++ zs 4 ++ leBytes 8 0 ++ leBytes 8 8 ++ sha256 (zs 8)

set_option maxRecDepth 20000 in
theorem witness_GmcpJobs_load : sLoad.rst.restricted = 0 ∧ sLoad.Asked 0x10 [] (req 0x10 0 0 0 (loadBody 1)) ∧
    sLoad.loadStatus (LoadReq.of (gmcpBody (asOp 0x10 [] (req 0x10 0 0 0 (loadBody 1))))) (some image) = 0 ∧
    sLoad.loadStatus (LoadReq.of (gmcpBody (asOp 0x10 [] (req 0x10 0 0 0 (loadBody 2))))) (some image) ≠ 0 := by
  unfold State.Asked; decide +kernel

/-- Partition 7 of one core, in a state, with an entry; started or armed. -/
def sJob (x : PartState) (armed : List ArmedStart) : State :=
  let s := (sReady.modPart 7 (fun p => { p with state := x, size := 1, jobTag := 5 })).modCore 7 (fun k => { k with entry := some 0 })
  { s with eth := { s.eth with armed := armed } }

/-- Partition 0 of four cores holds a job: cores 0 and 1 form a broadcast group whose Bellwether has rank b, with one program;
core 2 has its own program and core 3 none. -/
def sBc (g b : Nat) (x : PartState) (armed : List ArmedStart) : State :=
  let s := sReady.modPart 0 (fun p => { p with state := x, size := 4, jobTag := 5 })
  let m (c r : Nat) (s : State) : State := s.modCore c (fun k =>
    { k with id := { k.id with bcast := true, groupSize := BitVec.ofNat 2 g, bellwether := BitVec.ofNat 3 b, rank := BitVec.ofNat 3 r } })
  let s := ((m 0 0 (m 1 1 s)).modCore 0 (fun k => { k with entry := some 7 })).modCore 2 (fun k => { k with entry := some 9 })
  { s with eth := { s.eth with armed := armed } }

set_option maxRecDepth 20000 in
theorem witness_GmcpJobs_calm : sLoad.Calm := by
  unfold State.Calm State.Quiet State.Steady; decide +kernel

set_option maxRecDepth 20000 in
theorem witness_GmcpJobs_calm_start : (sJob .loaded []).Calm := by
  unfold State.Calm State.Quiet State.Steady; decide +kernel

set_option maxRecDepth 20000 in
theorem witness_GmcpJobs_calm_armed : (sJob .running [⟨7, 1000064⟩]).Calm := by
  unfold State.Calm State.Quiet State.Steady; decide +kernel

theorem witness_GmcpJobs_start :
    (∀ a ∈ [0, 1, 1000064, 1000000000 - 1000000000 % 128], (sJob .loaded []).Asked 0x11 [] (req 0x11 0 0 0 ([7] ++ zs 7 ++ leBytes 8 a))) ∧
    (sJob .loaded []).Asked 0x11 [] (req 0x11 0 0 0 ([8] ++ zs 15)) ∧
    ((sJob .loaded []).part 7).state = .loaded ∧ ((sJob .loaded []).part 6).state ≠ .loaded ∧ 7 + ((sJob .loaded []).part 7).size ≤ 8 ∧
    (∀ c ∈ ((sJob .loaded []).part 7).cores 7, ((sJob .loaded []).core c).id.bcast = false ∧ ((sJob .loaded []).core c).entry.isSome = true) ∧
    ((sJob .loaded []).part 7).cores 7 = [7] ∧ (sJob .loaded []).time.schedTag ≠ ((sJob .loaded []).part 7).jobTag ∧
    (1000000000 - 1000000000 % 128) % 128 = 0 ∧ 1000064 % 128 = 0 ∧
    (sJob .running [⟨7, 1000064⟩]).eth.armed.find? (fun a => a.part == 7) = some ⟨7, 1000064⟩ ∧
    (sJob .loaded []).eth.armed.find? (fun a => a.part == 7) = none := by unfold State.Asked; decide +kernel

theorem witness_GmcpJobs_abort : (sJob .loaded []).Asked 0x12 [] (req 0x12 0 0 0 ([0x80] ++ zs 7)) ∧
    (sJob .loaded []).Asked 0x12 [] (req 0x12 0 0 0 (zs 8)) ∧ (sJob .loaded []).Asked 0x13 [] (req 0x13 0 0 0 ([7] ++ zs 7)) ∧
    (sJob .loaded []).Asked 0x13 [] (req 0x13 0 0 0 ([8] ++ zs 7)) ∧ (sJob .aborted []).Asked 0x13 [] (req 0x13 0 0 0 ([7] ++ zs 7)) ∧
    ((sJob .aborted []).part 7).state ≠ .empty ∧ ((sJob .aborted []).part 7).state ≠ .running ∧ ((sJob .running []).part 7).state = .running := by
  unfold State.Asked; decide +kernel

/-- A control port with an operator key. -/
def key : List Byte := 1 :: zs 31
def sKey : State := { sEth with rst := { sEth.rst with ready := true }, fl := { sEth.fl with sc := zs 0x70 ++ key } }
def wr (flags session seq : Nat) : List Byte := req 3 flags session seq (leBytes 4 8 ++ leBytes 4 1 ++ zs 8)
def tagged (session seq : Nat) : List Byte := wr 2 session seq ++ hmac256 key (wr 2 session seq)

set_option maxRecDepth 20000 in
theorem witness_GmcpTagsAndRdma_tags : sKey.operatorKey = some key ∧ sEth.operatorKey = none ∧
    (sKey.eth.ports.getD (0 : Fin 3) {}).linkUp = true ∧ (sKey.eth.ports.getD (0 : Fin 3) {}).roleCtrl = true ∧
    (GmcpHdr.of (asOp 3 [] (wr 0 0 0))).auth = false ∧ headerOk (asOp 3 [] (wr 0 0 0)) = true ∧
    (∀ n, n < 2 → let msg := asOp 3 [] (tagged n 0)
      let h := GmcpHdr.of msg
      headerOk msg = true ∧ payloadOk 3 (gmcpBody msg) = true ∧ h.auth = true ∧
      hmac256 key (msg.take (32 + h.len)) = msg.drop (32 + h.len) ∧ h.session = n ∧ h.seq ≤ sKey.eth.lastSeq.toNat) ∧
    (let h := GmcpHdr.of (asOp 3 [] (tagged 0 1)); h.session = 0 ∧ sKey.eth.lastSeq.toNat < h.seq ∧ h.auth = true) ∧
    leAt (gmcpBody (asOp 3 [] (req 3 2 0 1 (leBytes 4 12 ++ leBytes 4 1 ++ zs 8)))) 0 4 % 8 ≠ 0 ∧ sKey.rst.recovery = false ∧
    sKey.stopped = false ∧ sKey.eth.session.toNat = 0 ∧ sKey.eth.queue = [] ∧ sKey.eth.cache.find? (fun c => c.1.toNat == 0) = none := by decide +kernel

theorem witness_GmcpTagsAndRdma_queue : (∀ n ∈ [15, 16],
    let s : State := { sKey with eth := { sKey.eth with queue := List.replicate n { port := 0, msg := [], ft := 0, image := none } } }
    (s.eth.queue.filter (fun q => q.port == 0)).length = n) ∧
    (let s : State := { sKey with eth := { sKey.eth with cache := [(0, [])] } }
     s.eth.cache.find? (fun c => c.1.toNat == 0) = some (0, [])) := by decide +kernel

/-- Partition 7 loaded, with one HBM region; port 0 has the bulk role. -/
def sPart : State :=
  let s := sJob .loaded []
  { s with eth := { s.eth with ports := sEth.eth.ports, qps := [qp5 0], windows := [win false] }
           ms := { s.ms with preg := vmod s.ms.preg 112 (fun _ => ⟨0, 0, true, false, false⟩) } }

def openBody (port part : Nat) : List Byte := [BitVec.ofNat 8 port, BitVec.ofNat 8 part] ++ zs 30
def regBody (part base len : Nat) : List Byte := [BitVec.ofNat 8 part, 3] ++ zs 6 ++ leBytes 8 base ++ leBytes 8 len ++ zs 8

theorem witness_GmcpTagsAndRdma_qp :
    (∀ p ∈ [(0, 0xFF), (0, 8), (0, 6), (0, 7), (1, 7)], sPart.Asked 0x18 [] (req 0x18 0 0 0 (openBody p.1 p.2))) ∧
    (sPart.part 6).state = .empty ∧ (sPart.part 7).state ≠ .empty ∧ (sPart.eth.ports.getD 0 {}).roleBulk = true ∧ (sPart.eth.ports.getD 1 {}).roleBulk = false ∧
    (∀ n, n < 2 → sPart.Asked 0x19 [] (req 0x19 0 0 0 (leBytes 4 (n + 5) ++ zs 4))) := by unfold State.Asked; decide +kernel

theorem witness_GmcpTagsAndRdma_windows :
    (∀ n, n < 2 → sPart.Asked 0x1B [] (req 0x1B 0 0 0 (leBytes 4 (0x99 + n) ++ zs 4))) ∧
    (∀ p ∈ [8, 6, 7], sPart.Asked 0x1A [] (req 0x1A 0 0 0 (regBody p 0 4096))) ∧ sPart.Asked 0x1A [] (req 0x1A 0 0 0 (regBody 7 0 0)) ∧
    sPart.hbmOk 7 (1073741824 - 4096) 4096 = true ∧ sPart.hbmOk 7 (1073741824 - 4096) 8192 = false := by unfold State.Asked; decide +kernel

/-! ## Power, resets, flash, security, Goose, pins: witnesses -/

/-- A power state after f. -/
def sPw (f : PwrBlk → PwrBlk) : State := { s0 with pwr := f s0.pwr }

theorem witness_PowerControl :
    (∀ n ∈ [599, 600, 1300, 1301], ∃ v : Reg, fldN v 0 16 = n) ∧
    (sPw (fun p => { p with ceilingW := 1300 })).pwr.ceilingW.toNat = 1300 ∧ s0.pins.throttleN = true ∧ s0.pwr.plantFault = false ∧
    s0.pwr.inlet.toNat ≤ 35 ∧ s0.pwr.measFailed = false ∧
    (let p := (sPw (fun p => { p with vIdx := 8, opTarget := 8 })).pwr
     p.vIdx = p.opCur.toNat ∧ p.opTarget = p.opCur) ∧
    (let p := (sPw (fun p => { p with vIdx := 7, opTarget := 8 })).pwr
     p.vIdx < p.opCur.toNat ∧ p.vIdx ≤ p.opTarget.toNat) ∧
    (let p := (sPw (fun p => { p with vIdx := 8, opTarget := 6 })).pwr
     p.opTarget.toNat + 1 < p.vIdx ∧ p.opTarget.toNat < p.opCur.toNat) ∧
    (let p := (sPw (fun p => { p with vIdx := 8, opTarget := 7 })).pwr
     p.opTarget.toNat + 1 = p.vIdx ∧ p.opTarget.toNat < p.opCur.toNat) ∧
    (let p := (sPw (fun p => { p with measFailed := true })).pwr
     p.measFailed = true) ∧
    (∀ e ∈ [115, 116], let p := (sPw (fun p => { p with
       ticks := [⟨100, e, some (100, 1)⟩, ⟨5, 5, none⟩], winTicks := 1, estTrusted := true, disagree := 9 })).pwr
     let w := p.ticks.take p.winTicks
     w.filterMap (fun t => t.meas.map (·.1)) ≠ [] ∧ p.estTrusted = true ∧ p.disagree.toNat = 9 ∧
       meanNat (w.filterMap (fun t => t.meas.map (·.1))) = 100 ∧ meanNat (w.map (·.est)) = e) ∧
    s0.pwr.ticks = [] ∧ (sPw (fun p => { p with measFailed := true, estTrusted := false })).pwr.estTrusted = false ∧
    100 * ((115 : Int) - 100) ≤ 15 * 100 ∧ 15 * (100 : Int) < 100 * (116 - 100) ∧ (zs 1 : List Byte) ≠ [] := by
  refine ⟨?_, by decide +kernel⟩
  intro n hn
  refine ⟨BitVec.ofNat 64 n, ?_⟩
  revert hn; revert n; decide +kernel

/-- Input 1 in a role, with 4 pulses per turn or litre and a minimum rate of 60 per minute; output 1 overridden to a duty. -/
def sPlant (role : BitVec 2) (duty : BitVec 8) (conds : List (Nat × Nat)) : State := sPw (fun p =>
  { p with stewardPlant := true, plantCmd := 0, conds := conds, plantFault := !conds.isEmpty,
           ins := vmod p.ins 1 (fun i => { i with role := role, pulses := 4, minimum := 60 })
           outs := vmod p.outs 1 (fun o => { o with role := 1, override := true, ovrDuty := duty }) })

/-- A sample of temperatures: the hottest compute sensor, the inlet, whether its sensor works. -/
def heat (t inlet : BitVec 8) (ok : Bool) : HeatSample :=
  { compute := vmod (Vector.replicate 64 30) 63 (fun _ => t), others := Vector.replicate 16 40, optical := Vector.replicate 10 50,
    inlet := inlet, inletOk := ok, pulseHz := Vector.replicate 4 0, glitches := 0, ppsIn := false, uartRx := false }

theorem witness_HeatAndPlant : (s0.pwr.ins.getD 0 {}).role = 0 ∧ s0.pwr.plantFault = false ∧ s0.pwr.conds = [] ∧
    (let p := (sPlant 1 64 []).pwr
     let i := p.ins.getD 1 {}
     i.role = 1 ∧ 3 * 60 < i.minimum.toNat * i.pulses.toNat ∧ ¬ 4 * 60 < i.minimum.toNat * i.pulses.toNat ∧ 255 ≤ 4 * p.duty 1 ∧ (1, 1) ∉ p.conds) ∧
    ¬ 255 ≤ 4 * (sPlant 1 63 []).pwr.duty 1 ∧
    (let i := (sPlant 2 0 []).pwr.ins.getD 1 {}
     i.role = 2 ∧ 0 * 60000 < i.minimum.toNat * i.pulses.toNat ∧ ¬ 1 * 60000 < i.minimum.toNat * i.pulses.toNat) ∧
    20000 < (20001 : BitVec 16).toNat ∧ (3, 0) ∈ (sPlant 1 0 [(3, 0)]).pwr.conds ∧
    (let p := (sPw (fun p => { p with plantFault := true, lastCond := (4, 0) })).pwr
     p.plantFault = true ∧ p.conds = []) ∧
    (let p := (sPw (fun p => { p with tjMax := 103, hbmMax := 92, optMax := 73 })).pwr
     103 ≤ p.tjMax.toNat ∧ p.hbmMax.toNat + 3 ≤ 95 ∧ p.optMax.toNat < 75 ∧ 75 < p.optMax.toNat + 3 ∧ p.inlet.toNat ≤ 35) ∧
    (let p := (sPw (fun p => { p with tjMax := 100, modelPred := 97000 })).pwr
     ¬ (103 ≤ p.tjMax.toNat ∨ p.allow.getD 2 0 < p.modelGoal) ∧ p.tjMax.toNat ≤ 100 ∧ p.modelPred ≤ 97000) ∧
    (sPw (fun p => { p with modelGoal := 1 })).pwr.allow.getD 2 0 < 1 ∧ s0.fl.sc = [] := by decide +kernel

theorem witness_HeatAndPlant_sample : (heat 115 36 true).compute.toList.any (fun t => decide (115 ≤ t.toNat)) = true ∧
    (heat 114 36 true).compute.toList.any (fun t => decide (115 ≤ t.toNat)) = false ∧ (heat 30 30 false).inletOk = false ∧
    (heat 30 30 true).others.toList.any (fun t => decide (115 ≤ t.toNat)) = false ∧
    (heat 30 30 true).optical.toList.any (fun t => decide (90 ≤ t.toNat)) = false := by decide +kernel

theorem witness_ThrottleAndClocks_stop : (sPw (fun p => { p with stopThermal := true })).stopped = true ∧ onFastClocks (.nop 0 0) = true ∧
    onFastClocks .epochBoundary = true ∧ onFastClocks (.capWrite 0) = false ∧ ¬ 115 ≤ (114 : BitVec 8).toNat ∧ 90 ≤ (90 : BitVec 8).toNat := by
  decide +kernel

theorem witness_ThrottleAndClocks : s0.pins.throttleN = true ∧ s0.pwr.throttleHold = false ∧ s0.pwr.idleEn.getLsbD 7 = true ∧
    (s0.core 7).ox.idle = true ∧ (s0.core 7).vec.idle = true ∧ (s0.core 7).row.idle = true ∧ (s0.core 7).att.idle = true ∧
    (let s := { sPw (fun p => { p with throttleHold := true, idleEn := 0 }) with pins := { s0.pins with throttleN := false } }
     s.pins.throttleN = false ∧ s.pwr.throttleHold = true ∧ s.pwr.idleEn.getLsbD 7 = false) := by decide +kernel

/-- A flash with an operation under way and an address. -/
def sFl (a : Nat) (o : Option FlashOp) : State := { s0 with fl := { s0.fl with addr := BitVec.ofNat _ a, op := o } }

theorem witness_FlashCommands : s0.fl.flash.wf 0xFF = true ∧ (sFl 0x2FFFF none).fl.op = none ∧ (sFl 0x2FFFF none).fl.addr.toNat < 0x30000 ∧
    (∃ a, (sFl a none).flashProtected (a / 256 * 256) = false ∧ (sFl a none).flashProtected (a / 65536 * 65536) = false) ∧
    (sFl 0 (some (.readPage 0))).fl.op.isSome = true ∧ (sFl 0 (some (.program 256))).fl.op = some (.program 256) ∧
    (sFl 0 (some (.erase 65536))).fl.op = some (.erase 65536) := by
  refine ⟨by decide +kernel, by decide +kernel, by decide +kernel, ⟨0x30000, by decide +kernel⟩, by decide +kernel⟩

/-- Keys, floors and SVNs: key 3 may be revoked; fuses under way. -/
def sSec (f : SecBlk → SecBlk) : State := { s0 with sec := f s0.sec }

theorem witness_FusesAndKeys : s0.sec.fuses = [] ∧ (sSec (fun x => { x with fuses := [.commitSt] })).sec.fuses ≠ [] ∧
    (let x := (sSec (fun x => { x with stKey := 3, buKey := 3 })).sec
     (2 : Fin 4).val < x.stKey.toNat ∧ (2 : Fin 4).val < x.buKey.toNat ∧ ¬ ((3 : Fin 4).val < x.stKey.toNat)) ∧
    (∀ o ∈ [FuseOp.commitSt, .commitBu, .revoke 3], let x := (sSec (fun x => { x with fuses := [o], stSvn := 64, buSvn := 64 })).sec
     x.fuses = o :: [] ∧ x.stSvn.toNat ≤ 64 ∧ x.buSvn.toNat ≤ 64) ∧
    (∀ p, p < 4 → (BitVec.ofNat 8 (({ s0.fl with ob := zs 0x10 ++ [BitVec.ofNat 8 p] } : FlashBlk).opt 0x10 1)).getLsbD 1 = p.testBit 1) ∧
    s0.sec.challenge = [] := by decide +kernel

theorem witness_Resets :
    ({ s0 with pins := { s0.pins with pwrEn := true } } : State).resetBlocked = false ∧ s0.resetBlocked = true ∧
    (sPw (fun p => { p with stopThermal := true })).resetBlocked = true ∧
    (let p := (sPw (fun p => { p with stopThermal := true, tjMax := 95, hbmMax := 85, optMax := 70 })).pwr
     p.stopThermal = true ∧ p.tjMax.toNat ≤ 95 ∧ p.hbmMax.toNat ≤ 85 ∧ p.optMax.toNat ≤ 70 ∧ ¬ (96 : BitVec 8).toNat ≤ 95) ∧ s0.rst.recovery = false ∧ s0.pwr.stopBrown = false ∧
    s0.rst.held = false ∧ s0.pins.resetN = true ∧ s0.rst.waiting = none ∧ (s0.pins.pwrEn = true ∨ s0.pins.pwrEn = false) ∧ s0.pins.pwrEnHeld = false ∧
    (∀ p ∈ [true, false], let s := { s0 with pins := { s0.pins with pwrEn := p, pwrEnHeld := !p, resetN := p },
                                             rst := { s0.rst with waiting := some p, recovery := p } }
     s.pins.pwrEn = p ∧ s.pins.resetN = p ∧ s.pins.pwrEnHeld = !p ∧ s.rst.waiting = some p ∧ s.rst.recovery = p) := by decide +kernel

theorem witness_SafeDefaults : optionGood (s0.fl.bytes 0 256) = false ∧ optionGood (s0.fl.bytes 0x10000 256) = false := by decide +kernel

theorem witness_InletLimit : (35 : Nat) < (36 : BitVec 8).toNat ∧ (40 : Nat) < (41 : BitVec 8).toNat ∧ (35 : BitVec 8).toNat ≤ 35 ∧
    (heat 30 36 true).inletOk = true ∧ (heat 30 36 false).inletOk = false ∧ (4, 0) ∉ s0.pwr.conds ∧
    (sPw (fun p => { p with plantFault := true })).pwr.plantFault = true := by decide +kernel

/-- A record; a Goose, frozen or not, with n of them waiting. -/
def rec0 : GRecord := { ft := 0, hours := 0, pcycle := 0, source := 9, aligned := false, code := 0, jobTag := 0, part := 0, detail := 0 }
def sGoose (fr : Bool) (n : Nat) : State := { s0 with goose := { s0.goose with frozen := fr, queue := List.replicate n rec0 } }

theorem witness_GooseCommands : (∀ n ∈ [0, 1, 255], ∀ b ∈ [true, false],
    (sGoose b n).goose.frozen = b ∧ (sGoose b n).goose.lost = 0 ∧ (sGoose b n).goose.queue.length = n ∧ (sGoose b n).goose.queue.length < 256) ∧
    findQueued (sGoose false 1).goose.queue { source := 0x02, code := 0x01, detail := [(9, 2)] } = none ∧
    findWritten (sGoose false 1).goose { source := 0x02, code := 0x01, detail := [(9, 2)] } = none ∧
    (sGoose false 1).goose.queue = rec0 :: [] ∧ s0.pins.pwrGood = false ∧ ({ s0.pins with pwrGood := true } : PinBlk).pwrGood = true ∧
    ({ s0.goose with ring := [(0, rec0)], nextSeq := 1 } : Goose).bySeq 0 = some rec0 := by decide +kernel

theorem witness_PinsAndSerial : s0.pins.uartPart = [] ∧ s0.pins.slotPins ≠ (0 : BitVec 6) ∧ (0x5F : BitVec 7).toNat = 0x58 + s0.pins.slotId.toNat % 8 ∧
    ¬ ((0x58 : BitVec 7).toNat = 0x58 + s0.pins.slotId.toNat % 8) ∧ ({ s0.pins with uartPart := [0xA5] } : PinBlk).uartPart ≠ [] ∧
    (zs 32).length = 32 ∧ (zs 8192).length = 8192 ∧ (zs 4) ≠ leBytes 4 (crc32 (leBytes 2 (zs 32).length ++ zs 32)).toNat ∧ 31 < 32 ∧ 8192 < 8193 := by
  decide +kernel

theorem witness_MemoriesStayCanonical : s0.MemWf := by unfold State.MemWf; decide +kernel

theorem witness_FusesOnlyRise : step s0 = .next s0.idleTick ∧ (sSec (fun x => { x with revoked := 8 })).sec.revoked.getLsbD 3 = true := by
  refine ⟨rfl, by decide +kernel⟩

/-! ## Worked examples of the manual, and steps -/

/-- The CRC-16 check value after R300, the CRC-32 check value, and the digest of "abc" (FIPS 180-4). -/
theorem test_codes : crc16 [0x31, 0x32, 0x33, 0x34, 0x35, 0x36, 0x37, 0x38, 0x39] = 0x29B1 ∧
    crc32 [0x31, 0x32, 0x33, 0x34, 0x35, 0x36, 0x37, 0x38, 0x39] = 0xCBF43926 ∧
    (sha256 [0x61, 0x62, 0x63]).take 4 = [0xBA, 0x78, 0x16, 0xBF] := by decide +kernel

/-- The address example of R229 in modes 0, 1 and 2, and its place in the stack (R255). -/
theorem test_interleave : stackOf 0 0x004000013040 = (3, 0x800002040) ∧ stackOf 0x100 0x004000013040 = (3, 0x800004040) ∧
    stackOf 0x200 0x004000013040 = (1, 0x800009040) ∧ pcOf 0x800002040 = 0 ∧ bankRowOf 0x800002040 = (0, 16384) := by decide +kernel

/-- The K-blocks of the worked example under R117. -/
theorem test_window : (kBlock (some (false, 1, 10) :: some (true, 1, 10) :: List.replicate 62 (some (false, 1, -60))) [] (some 0) (some 0) .one).1 = 0 ∧
    (kBlock [some (false, 3288334336, 0), some (true, 3288334336, 0), some (false, 1, -32)] [] (some 0) (some 0) .one).1 = 0x2F800000 := by
  decide +kernel

/-- The example after R213: 0.1 in BF16 and an extension byte; MXFP4 5.0 rounds to 4 (R146). -/
theorem test_rounding : (masterEncode (f32val 0x3DCCCCCD)).1 = 0x3DCD ∧ (masterEncode (f32val 0x3DCCCCCD)).2.1 = 0x4D ∧
    (roundTo .e2m1 .rne (.num false 5 1 0)).bits = 6 := by decide +kernel

/-- The route of the worked example on Field-3072, before and after the loss of (86, T5). -/
def field : FabBlk := { s0.fab with sizes := #v[8, 8, 12, 4] }

theorem test_route : field.route 209 2902 = some 0xD ∧
    ({ field with fmap := [(0, ⟨86, 5, 0⟩)] } : FabBlk).route 209 2902 = some 9 := by decide +kernel

/-- The bucket example: six lengths, three bounds; pages and buckets, and the first record of the summary. -/
def bucketMem : MemSys := ((s0.ms.put 0 (leBytes 8 64 ++ leBytes 8 128 ++ leBytes 8 192 ++ leBytes 8 256 ++ leBytes 8 0 ++ leBytes 4 6 ++ [3])).put 64
  ([300, 8192, 1000, 5000, 256, 7000].flatMap (leBytes 4))).put 128 ([1024, 4096, 8192].flatMap (leBytes 4))

theorem test_bucket : (bucketRun bucketMem (bucketMem.bytes 0 64)).writes.map (fun w => (w.1, w.2.take 16)) =
    [(192, leBytes 4 2 ++ leBytes 4 (32 + 131072) ++ leBytes 4 4 ++ leBytes 4 (20 + 131072)),
     (256, leBytes 4 3 ++ leBytes 4 7 ++ leBytes 4 0 ++ leBytes 4 0)] := by decide +kernel

/-- The worked example "one member out of range": the group C4 to C7 with its region, before the copy at 0x200. -/
def sGroup : State :=
  let s := { s0 with ms := { s0.ms with preg := vmod s0.ms.preg 64 (fun _ => ⟨256, 47, true, false, false⟩) } }
  let s := s.modPart 4 (fun p => { p with state := .running, size := 4, jobTag := 5 })
  [4, 5, 6, 7].foldl (fun s c => s.modCore c (fun k =>
    { k with id := { k.id with bcast := true, groupSize := 2, bellwether := 0, rank := BitVec.ofNat 3 (c - 4), partition := 4, jobTag := 5, active := true }
             seq := { k.seq with
               pc := 0x200
               credits := Vector.replicate 8 64
               ar := vmod (vmod k.seq.ar 2 (fun _ => BitVec.ofNat 56 (0x3FFF * 2 ^ 42 + 2 ^ 38))) 0 (fun _ => BitVec.ofNat 56 (0x3FFF * 2 ^ 42 + sramBase c))
               as_ := vmod k.seq.as_ 2 (fun _ => 0x400000000) } })) s

/-- COPY1: AR2 + 0 to AR0 + 0x1_0000, 64 MiB, CC10, substituted. -/
def copyWord : IWord := BitVec.ofNat 128 (2 * 2 ^ 19 + 1024 * 2 ^ 24 + 0x3FFFFFF * 2 ^ 48 + 10 * 2 ^ 108 + pcsBit)

theorem test_member_out_of_range :
    let t := after (.nullEntrySignal 7 .m0) ([6, 7].foldl (fun s c => after (.broadcastDelivery c) s) (after (.copy1 4 copyWord) sGroup))
    (t.core 7).seq.cc.getD 10 0 = 0x80000001 ∧ (t.core 7).err.inconsistent = 1 ∧ (t.core 7).err.lePc = 0x200 ∧
    (t.core 7).err.leCause = 0x11 ∧ (t.core 7).err.leRank = 3 ∧ (t.core 7).err.leBcast = true ∧ (t.core 7).err.leExec = false ∧
    (t.core 6).seq.cc.getD 10 0 = 0 ∧ (t.core 6).err.inconsistent = 0 := by decide +kernel

theorem test_setgr : ((after (.setgr 0 (wd 0x1B (3 + 16 * 0x1234))) sOn).core 0).seq.gr.getD 3 0 = 0x1234 := by decide +kernel

theorem test_cap : (after (.capWrite 599) s0).pwr.capBad = true ∧ (after (.capWrite 700) (sPw (fun p => { p with ceilingW := 1300 }))).pwr.capW = 700 := by
  decide +kernel

theorem test_revoke_waits : (after (.revoke 0) (sSec (fun x => { x with fuses := [.commitSt] }))).sec.badWrite = true := by decide +kernel

theorem test_flash_busy : (after .flReadPage (sFl 0 (some (.erase 0)))).fl.err = true := by decide +kernel

theorem test_uart_break : (after (.uartFrameReceived [] true none false) s0).pins.uartFrame = 1 := by decide +kernel

theorem test_session : (after (.session 2 (req 1 0 0 0 []) false) sReady).pins.uartTx.length = 1 ∧
    (after (.session 2 (req 1 0 0 0 []) false) s0).pins.uartTx = [] := by decide +kernel

/-- An operation that ran with its descriptor. -/
def done (op : EngOp) (desc : List Byte) (slot : AttSlot) (plane : OxPlane) : REntry :=
  { run 4 (some op) with desc := desc, slot := slot, plane := plane }

/-- It runs alone in its unit, with bytes in memory. -/
def sDone (u : EngUnit) (r : REntry) (ws : List (Nat × List Byte)) : State :=
  ws.foldl (fun s w => s.modMs (fun m => m.put w.1 w.2)) (sRun u [r])

/-- A DUAL and a WGRAD in core SRAM. -/
def dualDesc : List Byte := leBytes 8 (sr 0) ++ leBytes 8 (sr 0x4000) ++ leBytes 8 (sr 0x1000) ++ leBytes 8 (sr 0x6000) ++
  leBytes 4 2 ++ leBytes 4 1 ++ zs 4 ++ [0x20, 0x20] ++ zs 18
def wgradDesc : List Byte := leBytes 8 (sr 0) ++ leBytes 8 (sr 0x4000) ++ leBytes 8 (sr 0x10000) ++ leBytes 4 64 ++ leBytes 4 128 ++
  leBytes 4 1 ++ leBytes 2 3 ++ leBytes 2 4 ++ zs 2 ++ [0x11, 0x10] ++ zs 20 ++ [5, 1]
def plane57 : OxPlane := { state := .ready, fmt := 0, k := 5, n := 7 }

set_option maxRecDepth 20000 in
theorem witness_MatrixResults :
    (∀ r ∈ [done (.mm (sr 0) (sr 0x4000) 2 true false 0 2 false false 5) [] {} plane57, done (.dual 0 true none) dualDesc {} plane57,
        done (.wgrad 0) wgradDesc {} {}], (sDone .ox r []).Calm ∧ (sDone .ox r []).ms.mem.wf 0 = true ∧
      ((sDone .ox r []).core 0).ox.mayComplete .ox 0 = some r) ∧
    (⟨sr 0, sr 0x4000, 2, false, 0, 2, false, false⟩ : Stream).inCore 0 plane57 ∧
    (dualStreams dualDesc).1.inCore 0 plane57 ∧ (dualStreams dualDesc).2.inCore 0 plane57 ∧
    (∀ p ∈ (dualStreams dualDesc).1.places 5 7, ∀ q ∈ (dualStreams dualDesc).2.places 5 7, overlaps p.1 p.2 q.1 q.2 = false) ∧
    (let x := WgradDesc.of wgradDesc
     x.xf = 1 ∧ x.dyf = x.xf ∧ x.t = 1 ∧ x.k = 3 ∧ x.n = 4 ∧ inSram 0 x.x x.xBytes = true ∧ inSram 0 x.dy x.dyBytes = true ∧
     inSram 0 x.out (x.outBytes + x.stageBytes) = true) := by
  unfold Stream.inCore State.Calm State.Quiet State.Steady; decide +kernel

/-- A ROW operation, and the entry of its statistics. -/
def rowDesc (bwd : Bool) (flags : Nat) : List Byte :=
  leBytes 8 (sr 0) ++ leBytes 8 (sr 0x1000) ++ leBytes 8 (if bwd then sr 0x2000 else 0) ++ leBytes 8 (sr 0x3000) ++
  leBytes 8 (if bwd then sr 0x4000 else 0) ++ zs 8 ++ leBytes 4 1 ++ leBytes 4 1 ++ leBytes 4 0x3727C5AC ++ [0x22, BitVec.ofNat 8 flags, 0, 0]
def entry (kind : BitVec 4) : StatEntry :=
  { idx := 3, layer := 4095, mb := 255, kind := kind, backed := false, open_ := true, rows := 1, addr := BitVec.ofNat 42 (ctlBase 0 + 128) }
def sRow (r : REntry) (dir : List StatEntry) : State := (sDone .row r []).modRow 0 (fun q => { q with dir := dir })

/-- Own statistics, a last segment that folds, APPLY, and the BWD of every kind; with and without cross-entropy. -/
def rowCases : List (Bool × Nat × Nat × Bool) :=
  [(false, 3, 0, false), (false, 0, 1, false), (false, 3, 2, true), (false, 4, 2, true), (true, 5, 0, true), (true, 1, 1, true),
   (true, 0, 2, true), (true, 8, 2, true)]

set_option maxRecDepth 20000 in
theorem witness_RowResults : ∀ x ∈ rowCases,
    let r := done (.row x.1 0 4095 255 x.2.2.1) (rowDesc x.1 x.2.1) {} {}
    let s := sRow r (if x.2.2.2 then [entry (BitVec.ofNat 4 x.2.2.1)] else [])
    let d := RowDesc.of r.desc
    s.Calm ∧ s.ms.mem.wf 0 = true ∧ (s.core 0).row.mayComplete .row 0 = some r ∧ d.xf = 2 ∧ d.yf = 2 ∧ d.layout = false ∧ d.f 4 = false ∧
    d.rows = 1 ∧ d.len = 1 ∧ inSram 0 d.x (d.span 2) = true ∧ inSram 0 d.gb (d.gbSpan 0) = true ∧ inSram 0 d.ydy (d.span 2) = true ∧
    (x.1 = false → d.needsEntry x.2.2.1 = x.2.2.2 ∧ d.statMem = false) ∧
    (x.2.2.2 = true → (s.core 0).rowr.find 4095 255 x.2.2.1 = some (entry (BitVec.ofNat 4 x.2.2.1)) ∧
      isHbm (entry 0).addr.toNat = false) ∧
    (x.1 = true → inSram 0 d.ydy (d.ydySpan true x.2.2.1) = true ∧ inSram 0 d.dx (d.span 2) = true ∧
      (d.dgbSpan x.2.2.1 ≠ 0 → inSram 0 d.dgb (d.dgbSpan x.2.2.1) = true) ∧ overlaps d.dx (d.span 2) d.dgb (d.dgbSpan x.2.2.1) = false) := by
  unfold State.Calm State.Quiet State.Steady; decide +kernel

/-- A slot of 255 positions over two page sets, for 2 KV heads of 64 BF16 elements. -/
def slot255 : AttSlot := { valid := true, table := BitVec.ofNat 42 (sr 0x8000), len := 255, entries := 2, dcode := 0, kvFmt := 0, pitch := 0x20000,
                           kvHeads := 2 }
def pages2 : List (Nat × List Byte) := [(sr 0x8000, leBytes 8 (1 + 2 * 255 + 0x10000000)), (sr 0x8010, leBytes 8 (1 + 0x10100000))]
def slotDesc : List Byte := leBytes 8 (sr 0x100) ++ leBytes 4 512 ++ leBytes 2 2 ++ [1, 3] ++ leBytes 4 0x10000 ++ [2] ++ zs 43
def bucketDesc : List Byte := leBytes 8 (sr 0x100) ++ leBytes 8 (sr 0x400) ++ leBytes 8 (sr 0x800) ++ leBytes 8 (sr 0x1000) ++
  leBytes 8 (sr 0x2000) ++ leBytes 4 3 ++ [2] ++ zs 19
def appendDesc : List Byte := leBytes 8 (sr 0) ++ leBytes 8 (sr 0x4000) ++ leBytes 4 512 ++ leBytes 4 64 ++ leBytes 4 2 ++ [2, 0, 0, 0] ++ zs 32
def bound1 : List (Nat × List Byte) := [(sr 0x404, leBytes 4 256)]
def sAppend : State := (sDone .att (done (.att 3 0 7) appendDesc slot255 {}) pages2).modMs
  (fun m => { m with preg := vmod m.preg 0 (fun _ => { valid := true, base := 0, size := 0 }) })

set_option maxRecDepth 20000 in
theorem witness_SequenceSlots :
    (∀ x ∈ [(done (.att 5 0 15) slotDesc {} {}, []), (done (.att 4 0 0) bucketDesc {} {}, bound1)],
      (sDone .att x.1 x.2).Calm ∧ (sDone .att x.1 x.2).ms.mem.wf 0 = true ∧ ((sDone .att x.1 x.2).core 0).att.mayComplete .att 0 = some x.1) ∧
    (slotOf slotDesc).isSome = true ∧
    (let s := sDone .att (done (.att 4 0 0) bucketDesc {} {}) bound1
     let d := BucketDesc.of bucketDesc
     (∀ x ∈ d.ins ++ d.outs, inSram 0 x.1 x.2 = true) ∧ d.outs.Pairwise (fun x y => overlaps x.1 x.2 y.1 y.2 = false) ∧ d.n = 3 ∧ d.nb = 2 ∧
     s.ms.le d.bnds 4 < s.ms.le (d.bnds + 4) 4 ∧ ∀ k, k < 3 → s.ms.le (d.lens + 4 * k) 4 ≤ 1048576) := by
  unfold State.Calm State.Quiet State.Steady; decide +kernel

set_option maxRecDepth 20000 in
theorem witness_SequenceSlots_append :
    let s := sAppend
    let d := AppendDesc.of appendDesc
    let z := slot255
    s.Calm ∧ s.ms.mem.wf 0 = true ∧ (s.core 0).att.mayComplete .att 0 = some (done (.att 3 0 7) appendDesc slot255 {}) ∧ d.fmt = 0 ∧
    elemOf z.fmt = some .bf16 ∧ d.t = 2 ∧ z.len.toNat + d.t ≤ 512 ∧ inSram 0 z.table.toNat (16 * z.entries.toNat) = true ∧
    (∀ k ∈ d.span z, (s.pageEntry 0 z k).isLeft = true) ∧ s.ms.ue = [] ∧ s.ms.soft = [] ∧
    (∀ u ∈ [0, 1], ∀ j ∈ [0, 1], inSram 0 (d.at_ d.k z.d u (d.kh0 + j)) 128 = true ∧ inSram 0 (d.at_ d.v z.d u (d.vh0 + j)) 128 = true ∧
      ∀ v ∈ [false, true], ∀ e ∈ (s.pageEntry 0 z ((255 + u) / 256)).getLeft?, inHbm (e.at_ z v j (255 + u)) 128 = true) := by
  unfold State.Calm State.Quiet State.Steady; decide +kernel

theorem append_healthy (l : Nat) : sAppend.ms.badLine l = false := by
  have hc : ∀ d, sAppend.ms.hc.getD d {} = {} := by
    intro d
    by_cases h : d < 4
    · exact (by decide +kernel : ∀ d, d < 4 → sAppend.ms.hc.getD d {} = {}) d h
    · simp [Vector.getD, h]
  have hu : sAppend.ms.ue = [] := by decide +kernel
  have hs : sAppend.ms.soft = [] := by decide +kernel
  have hr : ∀ x, sAppend.ms.residentFrame x = none := by
    intro x
    unfold MemSys.residentFrame
    rw [hc x.die]
    rfl
  simp [MemSys.badLine, MemSys.softBad, hr, hu, hs]

/-- An ATT FWD or BWD of one query row: at position 0 it sees key 0 alone, at 300 under a window of 1 the 301st, which is none. -/
def attDesc (bwd : Bool) (flags pos window : Nat) : List Byte :=
  leBytes 8 (sr 0) ++ leBytes 8 (sr 0x4000) ++ leBytes 8 (sr 0x6000) ++ leBytes 8 (sr 0xA000) ++ leBytes 4 1024 ++ leBytes 4 0x2000 ++
  leBytes 4 (1 + 2 * 2 ^ 24) ++ leBytes 4 pos ++ leBytes 4 0x3E000000 ++ leBytes 4 window ++ zs 4 ++ [4, 0, 0, BitVec.ofNat 8 flags] ++
  (if bwd then leBytes 8 (sr 0x10000) ++ leBytes 8 (sr 0x14000) ++ leBytes 8 (sr 0x100000) ++ leBytes 8 (sr 0x200000) ++ zs 32 else [])
def slot1 : AttSlot := { slot255 with len := 1, kvHeads := 1 }
def page1 : List (Nat × List Byte) := [(sr 0x8000, leBytes 8 (3 + 0x10000000))]
def sAtt (op : BitVec 8) (desc : List Byte) : State := (sDone .att (done (.att op 0 7) desc slot1 {}) page1).modMs
  (fun m => { m with preg := vmod m.preg 0 (fun _ => { valid := true, base := 0, size := 0 }) })

set_option maxRecDepth 20000 in
theorem witness_AttentionResults : ∀ x ∈ [(1, false, 5), (1, false, 1), (1, false, 7), (2, true, 5), (2, true, 1), (2, true, 7)],
    let r := done (.att x.1 0 7) (attDesc x.2.1 x.2.2 0 0) slot1 {}
    let s := sAtt x.1 (attDesc x.2.1 x.2.2 0 0)
    let d := AttDesc.of r.desc
    let z := r.slot
    let places := (if x.2.1 then d.kvRuns z d.dk ++ d.kvRuns z d.dv else []) ++
      (if x.2.1 then (if d.final then d.runs z.d d.dq d.qf else [(d.ws, d.wsBytes z.d)])
       else if d.final then d.runs z.d d.o 2 ++ [(d.lse, d.lseBytes)] else [(d.ws, d.wsBytes z.d)])
    s.Calm ∧ s.ms.mem.wf 0 = true ∧ s.ms.soft = [] ∧ (s.core 0).att.mayComplete .att 0 = some r ∧ d.qf = 0 ∧ d.of_ = 2 ∧ d.sr = false ∧
    d.rows = 1 ∧ z.d = 64 ∧ d.spans z = [0] ∧ inSram 0 (d.rowAt 64 d.q 0) 128 = true ∧ s.firstFault 0 z (d.entriesOf z 0) = none ∧
    inSram 0 d.ws (d.wsBytes z.d) = true ∧ (∀ p ∈ places, inSram 0 p.1 p.2 = true) ∧
    places.Pairwise (fun p q => overlaps p.1 p.2 q.1 q.2 = false) ∧ inSram 0 d.lse d.lseBytes = true ∧
    (x.2.1 = true → inSram 0 (d.rowAt 64 d.do_ 0) 256 = true) ∧ inSram 0 (d.rowAt 64 d.o 0) 256 = true := by
  unfold State.Calm State.Quiet State.Steady; decide +kernel

set_option maxRecDepth 20000 in
theorem witness_AttentionResults_keys :
    let d := AttDesc.of (attDesc false 5 0 0)
    let e := AttDesc.of (attDesc false 5 300 1)
    let s := sAtt 1 (attDesc false 5 0 0)
    d.final = true ∧ d.cont = false ∧ slot1.fmt = d.qf ∧ d.live 1 0 0 = true ∧ 0 / slot1.span ∈ d.spans slot1 ∧
    (∀ j, j < slot1.span → j ≠ 0 → d.live 1 0 j = false) ∧ (s.pageEntry 0 slot1 0).isLeft = true ∧ isNaN32 d.scale = false ∧
    (∀ v ∈ s.ms.values .bf16 (d.rowAt 64 d.q 0) 64, v.isNaN = false) ∧
    (∀ v ∈ s.ms.values .bf16 0x10000000 64, v.isNaN = false) ∧ (∀ j, j < 256 → e.live 1 300 j = false) := by decide +kernel

/-- A CRED of two slots and the code of a CONV. -/
def credDesc : List Byte := leBytes 8 (sr 0) ++ leBytes 8 (sr 0x2000) ++ leBytes 4 128 ++ leBytes 4 3 ++ leBytes 2 2 ++ [0x02, 1] ++ zs 36
def vecCases : List (EngOp × List Byte) :=
  [(.vec 0x05 (sr 0) (sr 64) (sr 0) 3 1 true, []), (.vec 0x14 (sr 0) (sr 64) (sr 128) 3 2 false, []), (.vec 0x33 (sr 0) 0 (sr 128) 3 0 false, []),
   (.vec 0x40 0 0 (sr 2) 3 2 false, []), (.cred 0, credDesc), (.conv false (sr 0) (sr 0x4000) 0 33 0 5, []),
   (.conv true (sr 0) (sr 0x4000) (sr 0x100) 33 2 3, []), (.conv false (sr 0) (sr 0x4000) 0 33 5 8, []), (.conv false (sr 0) (sr 0x4000) 0 33 9 1, [])]

set_option maxRecDepth 20000 in
theorem witness_VectorResults : ∀ x ∈ vecCases,
    let r := done x.1 x.2 {} {}
    let s := sDone .vec r []
    s.Calm ∧ s.ms.mem.wf 0 = true ∧ (s.core 0).vec.mayComplete .vec 0 = some r ∧ inSram 0 (sr 0) 64 = true ∧ inSram 0 (sr 128) 12 = true ∧
    (let d := CredDesc.of credDesc
     d.slots = 2 ∧ d.inF = 2 ∧ d.outF = 0 ∧ inSram 0 d.src d.srcBytes = true ∧ inSram 0 d.d d.outBytes = true) ∧
    ∀ k ∈ [(0 : BitVec 4), 1, 2, 3, 5, 8, 9], (elemOf k).isSome = true ∧ inSram 0 (sr 0) (matBytes k 1 33) = true ∧
      inSram 0 (sr 0x4000) (matBytes k 1 33) = true := by
  unfold State.Calm State.Quiet State.Steady; decide +kernel

/-- A GATHER of rows 0 and 1 of two, with a third index; a WALK of two positions with a third. -/
def gatherDesc : List Byte := leBytes 8 (sr 0x1000) ++ leBytes 8 (sr 0x800) ++ leBytes 8 (sr 0x4000) ++ leBytes 4 64 ++ leBytes 4 64 ++ leBytes 4 2 ++
  leBytes 4 3 ++ leBytes 4 64 ++ [4] ++ zs 19
def walkDesc : List Byte := leBytes 8 (sr 0x8000) ++ leBytes 8 (sr 0x800) ++ leBytes 8 (sr 0x4000) ++ leBytes 2 2 ++ [0, 0] ++ leBytes 4 0x20000 ++
  leBytes 4 3 ++ [3, 0] ++ zs 26
def sGath (r : REntry) (i : Nat) : State :=
  (sDone .gath r ((sr 0x8000, leBytes 8 (1 + 2 * 3 + 0x10000000)) :: [(sr 0x804, leBytes 4 1), (sr 0x808, leBytes 4 i)])).modMs
    (fun m => { m with preg := vmod m.preg 0 (fun _ => { valid := true, base := 0, size := 0 }) })

set_option maxRecDepth 20000 in
theorem witness_GatherWalk_gather : ∀ i ∈ [1, 2, 0xFFFFFFFF],
    let r := done (.gather 0) gatherDesc {} {}
    let s := sGath r i
    let d := GatherDesc.of gatherDesc
    s.Calm ∧ s.ms.mem.wf 0 = true ∧ (s.core 0).gath.mayComplete .gath 0 = some r ∧ inSram 0 d.index (4 * d.count) = true ∧ d.count = 3 ∧ d.rows = 2 ∧
    inSram 0 d.table 128 = true ∧ inSram 0 d.dst d.dstBytes = true ∧ d.rowBytes ≤ d.dp ∧ s.ms.le d.index 4 = 0 ∧
    s.ms.le (d.index + 4) 4 = 1 ∧ s.ms.le (d.index + 8) 4 = i ∧
    ∀ k, k < 3 → overlaps (d.dst + k * d.dp) d.rowBytes d.table 128 = false ∧ overlaps (d.dst + k * d.dp) d.rowBytes d.index 12 = false := by
  unfold State.Calm State.Quiet State.Steady; decide +kernel

set_option maxRecDepth 20000 in
theorem witness_GatherWalk_walk : ∀ i ∈ [2, 3, 256, 511, 512],
    let r := done (.walk 0) walkDesc {} {}
    let s := sGath r i
    let d := WalkDesc.of walkDesc
    let w (p : Nat) : Nat := s.ms.le (d.table + 16 * (p / 256)) 8
    let holds (p : Nat) : Bool := w p % 2 == 1 && decide (p % 256 < w p / 2 % 512)
    s.Calm ∧ s.ms.mem.wf 0 = true ∧ (s.core 0).gath.mayComplete .gath 0 = some r ∧ inSram 0 d.pos (4 * d.count) = true ∧ d.count = 3 ∧
    d.entries = 2 ∧ inSram 0 d.table 32 = true ∧ inSram 0 d.dst 24 = true ∧ overlaps d.dst 24 d.pos 12 = false ∧ overlaps d.dst 24 d.table 32 = false ∧
    s.ms.le d.pos 4 = 0 ∧ s.ms.le (d.pos + 4) 4 = 1 ∧ s.ms.le (d.pos + 8) 4 = i ∧ holds 0 = true ∧ holds 1 = true ∧ holds 2 = true ∧ holds 3 = false ∧
    holds 256 = false ∧ s.placeOk 0 .hbm 0x10000000 1 = true ∧ w 0 / 1024 % 4 = 0 ∧ w 0 / 2 ^ 42 = 0 := by
  unfold State.Calm State.Quiet State.Steady; decide +kernel

/-- A COPYD of two rows, at a rising and a falling pitch. -/
def copyDesc : List Byte := leBytes 8 (0x3FFF * 2 ^ 42 + sr 0x100) ++ leBytes 8 (0x3FFF * 2 ^ 42 + sr 0x4800) ++ leBytes 4 100 ++ leBytes 4 2 ++
  leBytes 4 130 ++ leBytes 4 0xFFFFFF38 ++ zs 32
def sCopy : State := (sHead .m1 (.copyd (sr 0x2000)) none).modMs (fun m => m.put (sr 0x2000) copyDesc)

set_option maxRecDepth 20000 in
theorem witness_MuleCopies_rows :
    let s := sCopy
    let d := CopyDesc.of (s.ms.bytes (sr 0x2000) 64)
    s.HeadAlone 0 (muleUnit 1) (headOf (.copyd (sr 0x2000))) ∧ s.ms.mem.wf 0 = true ∧ ((s.core 0).eng .m1).running = [] ∧ inSram 0 (sr 0x2000) 64 = true ∧
    d.eth = false ∧ s.isOwnDev d.srcDev = true ∧ s.isOwnDev d.dstDev = true ∧ s.checkCopyd 0 (sr 0x2000) = 0 ∧ d.rows = 2 ∧
    (∀ k, k < 2 → inSram 0 (d.srcRow k).toNat d.rowLen = true ∧ inSram 0 (d.dstRow k).toNat d.rowLen = true) ∧
    overlaps (d.dstRow 0).toNat d.rowLen (d.dstRow 1).toNat d.rowLen = false := by
  unfold State.HeadAlone State.Steady; decide +kernel

/-- A unit of core 0 with an operation at its head, others running, and plane 1 in a state; the DUAL's descriptor lies at 0x10000. -/
def sBeside (u : EngUnit) (op : EngOp) (rs : List REntry) (p : PlaneState) : State :=
  ((sHead u op none).modMs (fun m => m.put (sr 0x10000) dualDesc)).modCore 0 (fun k =>
    { k.modEng u (fun e => { e with running := rs }) with planes := vmod k.planes 1 (fun _ => { plane57 with state := p }) })
def dualOp : EngOp := .dual (sr 0x10000) true (some (5, 7, 0))
def mmOp : EngOp := .mm (sr 0) (sr 0x4000) 2 true false 0 2 false false 0
def otherLoad : REntry := run 90 (some (.ldw (sr 0) 0 false 0 5 7))
def wgradOn : REntry := run 90 (some (.wgrad 0))

set_option maxRecDepth 20000 in
theorem witness_EngineStarts_beside : ∀ op ∈ [dualOp, mmOp], ∀ x ∈ [([otherLoad], PlaneState.ready), ([otherLoad], .loading), ([wgradOn], .ready), ([], .empty)],
    let s := sBeside .ox op x.1 x.2
    s.HeadAlone 0 .ox (headOf op) ∧ (s.core 0).ox.running = x.1 ∧ ((s.core 0).plane true).state = x.2 ∧
    oxPairs 0 ((s.core 0).plane true).fmt = true ∧
    (x.2 = .ready → s.checkDual 0 (sr 0x10000) ((s.core 0).plane true) (dualShape (some (5, 7, 0))) = 0) := by
  unfold State.HeadAlone State.Steady; decide +kernel

def append3 : REntry := run 90 (some (.att 3 0 3))
def sForward : State := ((sHead .att (.att 1 (sr 0x10000) 3) none).modAtt 0 (fun a =>
    { a with slots := vmod a.slots 3 (fun _ => slot1) })).modMs (fun m => m.put (sr 0x10000) (attDesc false 5 0 0))

set_option maxRecDepth 20000 in
theorem witness_EngineStarts_att : ∀ rs ∈ [[run 8 (some (.att 2 0 3)), run 9 (some (.att 3 0 4))], [append3]],
    let s := sForward.modCore 0 (fun k => k.modEng .att (fun e => { e with running := rs }))
    s.HeadAlone 0 .att (headOf (.att 1 (sr 0x10000) 3)) ∧ (s.core 0).att.ops = rs ∧ s.checkAtt 0 1 (sr 0x10000) 3 = 0 ∧
    append3.opIs (EngOp.appendsTo 3) = true ∧ (run 9 (some (.att 3 0 4))).opIs (EngOp.appendsTo 3) = false ∧
    (run 8 (some (.att 2 0 3))).opIs (EngOp.appendsTo 3) = false := by
  unfold State.HeadAlone State.Steady; decide +kernel

/-- Copies that run, without and with a remote signal. -/
def copyRun (flags : Nat) : REntry := done (.copyd 0) (copyDesc.take 32 ++ leBytes 4 flags ++ leBytes 4 (0x3FFF + 5 * 2 ^ 14 + 63 * 2 ^ 17) ++ zs 24) {} {}

set_option maxRecDepth 20000 in
theorem witness_OperationsComplete_copy : ∀ r ∈ [done (.copy1 (sr 0) (sr 64) 64 0 0) [] {} {}, copyRun 0, copyRun 0x100],
    let s := sDone .m0 r []
    s.Calm ∧ ((s.core 0).eng .m0).mayComplete .m0 0 = some r ∧ s.copyDone r = true ∧ (copyRun 0x100).copyDesc.cls = 0 ∧
    (copyRun 0x100).copyDesc.rsigEn = true ∧ (copyRun 0).copyDesc.rsigEn = false ∧ s.isOwnDev (copyRun 0x100).copyDesc.rsigDev = true ∧
    (copyRun 0x100).copyDesc.rsigCore = 5 ∧ (s.core 5).id.jobTag = (s.core 0).id.jobTag := by
  unfold State.Calm State.Quiet State.Steady; decide +kernel

/-- A job on core 0 that may send to module 9, with the mirror of a queue empty or full. -/
def sSend (dev : DevId) (full : Bool) : State :=
  (sA.modFab (fun f => { f with coordValid := true, sizes := #v[4, 4, 4, 4], lanes := f.lanes.map (fun l => { l with state := .up, rxMask := 0xFF }) })
    |>.modPart 0 (fun p => { p with devMap := setBit p.devMap 9 })).modCore 0 (fun k =>
      { k with msg := { k.msg with mirror := if full then [⟨dev, 0, 3, true⟩] else [] } })
def wordTo (dev flags : Nat) : IWord := mw 1 (dev * 2 ^ 24 + 3 * 2 ^ 41 + flags * 2 ^ 48)

set_option maxRecDepth 20000 in
theorem witness_SendsLeave_forms : ∀ x ∈ [(0x3FFF, 0, false), (0x3FFF, 1, false), (0x3FFF, 1, true), (9, 0, false), (9, 1, true), (9, 2, false)],
    let s := sSend (BitVec.ofNat 14 x.1) x.2.2
    let v := wordTo x.1 x.2.1
    decodeCause v = 0 ∧ (s.issueSend 0 v).cause = 0 ∧ (s.core 0).seq.sb = [] ∧ (s.core 0).msgq.running = [] ∧ (s.core 0).msgq.queue = [] ∧
    bitB v 48 = x.2.1.testBit 0 ∧ bitB v 49 = x.2.1.testBit 1 ∧ (s.core 0).msg.mirrorFull (s.mirrorDev (BitVec.ofNat 14 x.1)) 0 3 = x.2.2 ∧
    s.isOwnDev (BitVec.ofNat 14 x.1) = (x.1 == 0x3FFF) ∧ s.outstanding < 8192 ∧
    (x.1 = 9 → (s.fab.plannedTrunk s.dev.toNat 9).isSome = true ∧
      ∃ d ∈ s.fab.route s.dev.toNat 9, ∃ tr ∈ nextTrunk s.dev.toNat ((PacketFields.build { ty := 0x5, dst := 9, src := s.dev }).withDir d),
        s.trunkUp tr = true) := by decide +kernel

set_option maxRecDepth 20000 in
theorem witness_SendsLeave_ready : ∀ d ∈ [(0x3FFF : DevId), 9], ∀ b ∈ [true, false], (sSend d b).Ready 0 := by
  unfold State.Ready State.Takes State.Quiet State.Steady; decide +kernel

set_option maxRecDepth 20000 in
theorem witness_GmcpJobs_group : ∀ x ∈ [(1, 0), (1, 2)], ∀ a ∈ [(PartState.loaded, []), (.running, [⟨0, 1000064⟩])],
    let s := sBc x.1 x.2 a.1 a.2
    s.Calm ∧ s.rst.restricted = 0 ∧ (s.part 0).cores 0 = [0, 1, 2, 3] ∧ s.Asked 0x11 [] (req 0x11 0 0 0 (zs 16)) ∧
    ((x.2 = 0) ↔ ∀ c ∈ (s.part 0).cores 0, s.modeOk 0 c = true) ∧ s.groupOf 1 = [0, 1] ∧ (s.core 0).entry = some 7 ∧ (s.core 1).entry = none ∧
    (s.core 3).entry = none ∧ (s.core 0).isBellwether = (x.2 == 0) ∧ (s.core 1).isBellwether = false := by
  unfold State.Asked State.Calm State.Quiet State.Steady; decide +kernel

/-- A queue pair inside an RDMA WRITE, and inside a SEND, of a path MTU of 1,024 bytes. -/
def qpIn (wr : Option (Nat × Nat)) (recv : Option (BitVec 32 × Nat × Nat)) : Qp := { qp5 15 with mtu := 1024, wr := wr, recv := recv, cnpFt := some 0 }
def sIn (q : Qp) : State :=
  { sQp 0 true with eth := { (sQp 0 true).eth with qps := [q], windows := [{ win true with slotBytes := 2048 }] } }

set_option maxRecDepth 20000 in
theorem witness_RoceRequests_messages : ∀ q ∈ [qpIn none none, qpIn (some (4096, 1024)) none, qpIn none (some (0x99, 0, 1024)), qpIn (some (4096, 1025)) none],
    let s := sIn q
    s.Calm ∧ (s.eth.ports.getD 0 {}).linkUp = true ∧ (s.eth.ports.getD 0 {}).roleBulk = true ∧ (s.eth.ports.getD 0 {}).paused = false ∧
    q.err = false ∧ q.port = 0 ∧ q.wrBad = false ∧ q.held = [] ∧ q.qpn = (5 : BitVec 24).toNat ∧ s.ms.ue = [] ∧ s.ms.soft = [] ∧
    s.ms.mem.wf 0 = true ∧ 1024 + 1024 ≤ 2048 ∧ s.ingestSlot (qpIn none none).part = (if q.recv.isSome then none else s.eth.windows.head?.map (fun w => (w, 0))) ∧
    2 ^ 23 ≤ (q.psn - 8).toNat ∧ (q.psn - 6).toNat < 2 ^ 23 ∧ 50000 ≤ ((50000 : BitVec 64) - 0).toNat ∧ ¬ 50000 ≤ (s.now - 0).toNat := by
  unfold State.Calm State.Quiet State.Steady; decide +kernel

/-- The line at HBM address 0 is in the core cache, or uncorrectable at its home. -/
def sLine (dirty : Bool) : State := sA.modCore 0 (fun k => { k with cache := { k.cache with lines := [⟨0, 7, dirty⟩] } })
def sBadLine : State := { sA with ms := { sA.ms with ue := [0] } }

set_option maxRecDepth 20000 in
theorem witness_ScalarAccesses_hbm :
    [wd 0x20 0x40080000, wd 0x21 0x40080000, wd 0x22 0x80000, wd 0x22 0xA00080000, wd 0x22 0xB00080000].all (fun w =>
      [sLine true, sLine false, sA].all (fun s => decodeCause w == 0 && (s.scalarOperand 0 w).2.2 == 0 && isHbm (s.scalarOperand 0 w).1 &&
        !(s.core 0).seq.sbStalls [.wr (s.scalarOperand 0 w).1 (s.scalarOperand 0 w).2.1])) = true ∧
    (∀ d ∈ [true, false], (sLine d).ms.mem.wf 0 = true ∧ (sLine d).ms.soft = [] ∧ (sLine d).ms.badLine 0 = false ∧
      ((sLine d).core 0).cache.find 0 = some ⟨0, 7, d⟩) ∧
    sBadLine.ms.badLine 0 = true ∧ sBadLine.ms.soft = [] ∧ (sBadLine.core 0).cache.find 0 = none ∧ bitB (wd 0x20 0x40080000) 30 = true ∧
    bitB (wd 0x22 0xA00080000) 35 = true ∧ fldN (wd 0x22 0xA00080000) 32 2 = 2 ∧ fldN (wd 0x22 0xB00080000) 32 2 = 3 := by decide +kernel

set_option maxRecDepth 20000 in
theorem witness_ScalarAccesses_ready : ∀ d ∈ [true, false], (sLine d).Ready 0 ∧ sBadLine.Ready 0 := by
  unfold State.Ready State.Takes State.Quiet State.Steady; decide +kernel

end Sys2Proof.Tests
end

section
/-! PROOFS. Register writes of a core: CORE.MODE, and KT4 and FLUSH of a message queue (R29, R30, R41, R43). -/

namespace Sys2Proof.Machine

/-! ## Updates of one core, of one queue -/

/-- What an update of a core keeps of that core, it keeps of every core. -/
theorem State.core_modCore_keeps {α : Type} (p : Core → α) (s : State) (c : Nat) (f : Core → Core)
    (h : p (f (s.core c)) = p (s.core c)) (d : Nat) : p ((s.modCore c f).core d) = p (s.core d) := by
  rw [State.core_modCore]
  split
  · next e => rw [h, e.1]
  · rfl

theorem State.Steady.modCore {s : State} (hs : s.Steady) (c : Nat) (f : Core → Core)
    (hid : (f (s.core c)).id = (s.core c).id) (hseq : (f (s.core c)).seq = (s.core c).seq)
    (hidle : (f (s.core c)).allIdle = (s.core c).allIdle) : (s.modCore c f).Steady := by
  have id_eq := s.core_modCore_keeps Core.id c f hid
  have seq_eq := s.core_modCore_keeps Core.seq c f hseq
  have idle_eq := s.core_modCore_keeps Core.allIdle c f hidle
  refine hs.congr (fun d _ => id_eq d) (fun d _ => ?_) rfl rfl (fun d hd => ?_)
  · simp only [State.programOver, State.groupOf, id_eq, seq_eq, idle_eq]
  · rw [State.core_modCore, if_neg (by omega)]

/-- Two functions that agree on a queue update it alike. -/
theorem Core.modQueue_congr (k : Core) (q : Nat) (f g : MsgQueue → MsgQueue) (h : f (k.queue q) = g (k.queue q)) :
    k.modQueue q f = k.modQueue q g := by
  by_cases hq : q < 16
  · have e : k.queue q = k.msg.queues[q] := by simp [Core.queue, Vector.getD, hq]
    rw [e] at h
    simp only [Core.modQueue, vmod, hq, dif_pos, h]
  · simp [Core.modQueue, vmod, hq]

theorem Core.modQueue_id (k : Core) (q : Nat) : k.modQueue q (fun x => x) = k := by
  by_cases hq : q < 16
  · simp [Core.modQueue, vmod, hq]
  · simp [Core.modQueue, vmod, hq]

theorem Core.modQueue_modQueue (k : Core) (q : Nat) (f g : MsgQueue → MsgQueue) :
    (k.modQueue q f).modQueue q g = k.modQueue q (fun x => g (f x)) := by
  by_cases hq : q < 16
  · simp [Core.modQueue, vmod, hq]
  · simp [Core.modQueue, vmod, hq]

@[simp] theorem Core.quiet_modQueue (k : Core) (q : Nat) (f : MsgQueue → MsgQueue) : (k.modQueue q f).quiet = k.quiet := rfl

/-- Queue q of core c replaced by f of it. -/
def State.modQueue (s : State) (c q : Nat) (f : MsgQueue → MsgQueue) : State := s.modCore c (fun k => k.modQueue q f)

theorem State.modQueue_congr (s : State) (c q : Nat) (f g : MsgQueue → MsgQueue)
    (h : f ((s.core c).queue q) = g ((s.core c).queue q)) : s.modQueue c q f = s.modQueue c q g :=
  s.modCore_congr c _ _ ((s.core c).modQueue_congr q f g h)

theorem State.modQueue_id (s : State) (c q : Nat) : s.modQueue c q (fun x => x) = s := by
  simp only [State.modQueue, Core.modQueue_id, State.modCore_id]

theorem State.modQueue_modQueue (s : State) (c q : Nat) (f g : MsgQueue → MsgQueue) :
    (s.modQueue c q f).modQueue c q g = s.modQueue c q (fun x => g (f x)) := by
  simp only [State.modQueue, State.modCore_modCore, Core.modQueue_modQueue]

/-- Message queues take no part in what keeps a core going or ends its program. -/
theorem State.settle_modQueue (s : State) (c q : Nat) (f : MsgQueue → MsgQueue) (hq : s.Quiet) (hs : s.Steady) :
    (s.modQueue c q f).settle = s.modQueue c q f := by
  have hq' : (s.modQueue c q f).Quiet := fun d hd =>
    (s.core_modCore_keeps Core.quiet c _ (Core.quiet_modQueue _ q f) d).trans (hq d hd)
  exact State.settle_quiet _ hq' (hs.modCore c _ rfl rfl rfl)

/-! ## CORE.MODE (R29, R30) -/

theorem CoreIdent.writeMode_active (k : CoreIdent) (c : Nat) (v : Reg) (h : k.active = true) :
    k.writeMode c v = { k with writeRej := true } := by
  rw [CoreIdent.writeMode, if_pos h]

theorem CoreIdent.writeMode_inactive (k : CoreIdent) (c : Nat) (v : Reg) (h : k.active = false) :
    k.writeMode c v = { k with bcast := bitB v 0, groupSize := fld v 1 2, bellwether := fld v 4 3,
                               writeRej := k.writeRej && !bitB v 16,
                               rank := if bitB v 0 then BitVec.ofNat 3 (c % 2 ^ fldN v 1 2) else 0 } := by
  rw [CoreIdent.writeMode, if_neg (by simp [h])]

/-- A write of CORE.MODE is what it makes of the core's identity. -/
theorem exec_coreModeWrite_of_id (c : CoreId) (v : Reg) (s : State) (f : CoreIdent → CoreIdent)
    (h : (s.core c).id.writeMode c v = f (s.core c).id) :
    exec (.coreModeWrite c v) s = .next (s.modCore c (fun k => { k with id := f k.id })) := by
  have e : exec (.coreModeWrite c v) s = .next (s.writeMode c v) := rfl
  rw [e, State.writeMode, s.modCore_congr c _ (fun k => { k with id := f k.id })]
  simp only [h]

/-! ## KT4 (R43) -/

theorem MsgQueue.writeKt4_same (x : MsgQueue) (b : Bool) (h : x.kt4 = b) : x.writeKt4 b = x := by
  rw [MsgQueue.writeKt4, if_pos h]

theorem MsgQueue.writeKt4_change (x : MsgQueue) (b : Bool) (h : x.kt4 ≠ b) (he : x.entries = []) (hl : x.locked = false) :
    x.writeKt4 b = { x with kt4 := b, rdPos := 0, mark := 0, markValid := false } := by
  rw [MsgQueue.writeKt4, if_neg h, if_pos (by simp [he, hl])]

theorem MsgQueue.writeKt4_refused (x : MsgQueue) (b : Bool) (h : x.kt4 ≠ b) (hr : x.entries ≠ [] ∨ x.locked = true) :
    x.writeKt4 b = { x with overrun := true } := by
  have hb : ¬ (x.entries.isEmpty && !x.locked) = true := by
    rcases hr with he | hl
    · simp [he]
    · simp [hl]
  rw [MsgQueue.writeKt4, if_neg h, if_neg hb]

/-- A write of KT4 is what it makes of the queue. -/
theorem exec_msgqKt4Write_of_queue (c : CoreId) (q : Fin 16) (b : Bool) (s : State) (f : MsgQueue → MsgQueue)
    (h : ((s.core c).queue q).writeKt4 b = f ((s.core c).queue q)) :
    exec (.msgqKt4Write c q b) s = .next (s.modQueue c q f) :=
  congrArg Host.Outcome.next (s.modQueue_congr c q _ f h)

/-! ## FLUSH (R41) -/

/-- What a flush leaves of a queue: OVERRUN, the credit state and the sender list stay. -/
def MsgQueue.flushed (x : MsgQueue) : MsgQueue :=
  { x with entries := [], rdPos := 0, mark := 0, markValid := false, flushPending := false }

/-- A queue that lists no sender has nobody to tell when FULL falls. -/
theorem State.changeQueue_of_no_senders (s : State) (c q : Nat) (f : MsgQueue → MsgQueue)
    (h : ((s.core c).queue q).senders = []) (hf : (f ((s.core c).queue q)).senders = []) :
    s.changeQueue c q f = s.modQueue c q f := by
  have clear : (s.modQueue c q f).modQueue c q (fun x => { x with senders := [] }) = s.modQueue c q f := by
    rw [State.modQueue_modQueue]
    refine s.modQueue_congr c q _ f ?_
    rw [← hf]
  unfold State.changeQueue
  simp only [h, List.foldl_nil]
  split
  · exact clear
  · rfl

/-- With no sender listed and no MSG FLUSH under way, a flush only empties its queue. -/
theorem State.flushNow_eq (s : State) (c q : Nat) (h : ((s.core c).queue q).senders = [])
    (hr : (s.core c).msgq.running = []) : s.flushNow c q = s.modQueue c q MsgQueue.flushed := by
  have hc : s.changeQueue c q MsgQueue.flushed = s.modQueue c q MsgQueue.flushed :=
    s.changeQueue_of_no_senders c q _ h h
  have hr' : ((s.modQueue c q MsgQueue.flushed).core c).msgq.running = [] :=
    (s.core_modCore_keeps (fun k => k.msgq.running) c _ rfl c).trans hr
  change List.foldl _ (s.changeQueue c q MsgQueue.flushed) ((s.changeQueue c q MsgQueue.flushed).core c).msgq.running = _
  rw [hc, hr', List.foldl_nil]

theorem State.requestFlush_locked (s : State) (c q : Nat) (h : ((s.core c).queue q).locked = true) :
    s.requestFlush c q = s.modQueue c q (fun x => { x with flushPending := true }) := by
  rw [State.requestFlush, if_pos h, State.modQueue]

theorem State.requestFlush_unlocked (s : State) (c q : Nat) (h : ((s.core c).queue q).locked = false) :
    s.requestFlush c q = s.flushNow c q := by
  rw [State.requestFlush, if_neg (by simp [h])]

/-- In a calm state a flush request that only updates its queue is all that happens. -/
theorem exec_msgqFlushWrite_of_queue (c : CoreId) (q : Fin 16) (s : State) (f : MsgQueue → MsgQueue) (hc : s.Calm)
    (h : s.requestFlush c q = s.modQueue c q f) : exec (.msgqFlushWrite c q) s = .next (s.modQueue c q f) := by
  obtain ⟨hq, -, -, hs⟩ := hc
  have e : exec (.msgqFlushWrite c q) s = .next (s.requestFlush c q).settle := rfl
  rw [e, h, State.settle_modQueue s c q f hq hs]

/-- Settles O23: MODE and KT4 by the cases of their writes, FLUSH by the lock; in a calm state the update of a message queue
sets nothing else going. -/
theorem coreRegisterWrites : Obligations.CoreRegisterWrites := by
  unfold Obligations.CoreRegisterWrites
  intro c v q b s k x
  refine ⟨fun ha => ?_, fun ha => ?_, fun hb => ?_, fun hb he hl => ?_, fun hb hr => ?_, fun hc hl => ?_, fun hc hl hn hr => ?_⟩
  · exact exec_coreModeWrite_of_id c v s (fun i => { i with writeRej := true }) (k.id.writeMode_active c v ha)
  · exact exec_coreModeWrite_of_id c v s
      (fun i => { i with bcast := bitB v 0, groupSize := fld v 1 2, bellwether := fld v 4 3, writeRej := i.writeRej && !bitB v 16,
                         rank := if bitB v 0 then BitVec.ofNat 3 (c.val % 2 ^ fldN v 1 2) else 0 })
      (k.id.writeMode_inactive c v ha)
  · rw [exec_msgqKt4Write_of_queue c q b s (fun x => x) (x.writeKt4_same b hb), State.modQueue_id]
  · exact exec_msgqKt4Write_of_queue c q b s _ (x.writeKt4_change b hb he hl)
  · exact exec_msgqKt4Write_of_queue c q b s (fun x => { x with overrun := true }) (x.writeKt4_refused b hb hr)
  · exact exec_msgqFlushWrite_of_queue c q s _ hc (s.requestFlush_locked c q hl)
  · exact exec_msgqFlushWrite_of_queue c q s MsgQueue.flushed hc ((s.requestFlush_unlocked c q hl).trans (s.flushNow_eq c q hn hr))

end Sys2Proof.Machine
end

section
/-! PROOFS. The inlet's part in a temperature sample: the limit in force, the coolant reason and the plant fault of a failed
inlet sensor (R373, R376, R377). -/

namespace Sys2Proof.Machine

/-! ## The limit in force and the inlet (R377) -/

/-- What of the power block the limit in force follows from, and the count of plant faults beside it. -/
structure LimitTerms where
  ceiling     : BitVec 16
  standing    : BitVec 16
  cap         : BitVec 16
  faultW      : BitVec 16
  plantFault  : Bool
  plantFaults : BitVec 16
  inlet       : BitVec 8

def PwrBlk.limitTerms (p : PwrBlk) : LimitTerms :=
  { ceiling := p.ceilingW, standing := p.scLimitW, cap := p.capInForce, faultW := p.plantFaultW, plantFault := p.plantFault,
    plantFaults := p.plantFaults, inlet := p.inlet }

section
variable {p q : PwrBlk} (h : q.limitTerms = p.limitTerms)
include h

theorem PwrBlk.plantFault_eq_of_limitTerms : q.plantFault = p.plantFault := congrArg LimitTerms.plantFault h
theorem PwrBlk.plantFaults_eq_of_limitTerms : q.plantFaults = p.plantFaults := congrArg LimitTerms.plantFaults h
theorem PwrBlk.inlet_eq_of_limitTerms : q.inlet = p.inlet := congrArg LimitTerms.inlet h

end

/-- The limit before the inlet lowers it. -/
def LimitTerms.base (x : LimitTerms) (f : FlashBlk) : Nat :=
  let least := min x.ceiling.toNat (min (if f.scHeld then x.standing.toNat else x.ceiling.toNat) x.cap.toNat)
  if x.plantFault ∧ f.scHeld = true then min least x.faultW.toNat
  else if x.plantFault then min least (x.ceiling.toNat * 60 / 100) else least

/-- The inlet's whole °C above its limit. -/
def LimitTerms.excess (x : LimitTerms) (f : FlashBlk) : Nat := x.inlet.toNat - (if f.heatsink then 35 else 40)

theorem State.limitTerms_excess (s : State) : s.pwr.limitTerms.excess s.fl = s.pwr.inlet.toNat - s.inletTop := rfl

theorem State.limitNow_eq (s : State) :
    s.limitNow =
      if s.pwr.limitTerms.excess s.fl = 0 then s.pwr.limitTerms.base s.fl
      else max (min 600 (s.pwr.limitTerms.base s.fl))
        (s.pwr.limitTerms.base s.fl - s.pwr.limitTerms.excess s.fl * (if s.fl.heatsink then 40 else 50)) := rfl

theorem State.limitNow_congr {s t : State} (hf : t.fl = s.fl) (ht : t.pwr.limitTerms = s.pwr.limitTerms) :
    t.limitNow = s.limitNow := by
  rw [State.limitNow_eq, State.limitNow_eq, hf, ht]

/-- The same state with an inlet at `x` °C. -/
def State.withInlet (s : State) (x : BitVec 8) : State := { s with pwr := { s.pwr with inlet := x } }

theorem State.limitNow_of_inlet_le (s : State) (h : s.pwr.inlet.toNat ≤ s.inletTop) :
    s.limitNow = s.pwr.limitTerms.base s.fl := by
  rw [State.limitNow_eq, State.limitTerms_excess, if_pos (Nat.sub_eq_zero_of_le h)]

theorem State.limitNow_of_inlet_gt (s : State) (h : s.inletTop < s.pwr.inlet.toNat) :
    s.limitNow = max (min 600 (s.pwr.limitTerms.base s.fl))
      (s.pwr.limitTerms.base s.fl - (s.pwr.inlet.toNat - s.inletTop) * (if s.fl.heatsink then 40 else 50)) := by
  rw [State.limitNow_eq, State.limitTerms_excess, if_neg (Nat.sub_ne_zero_of_lt h)]

/-- At the coldest inlet the limit is what the inlet has not lowered. -/
theorem State.limitNow_withInlet_zero (s : State) : (s.withInlet 0).limitNow = s.pwr.limitTerms.base s.fl :=
  (s.withInlet 0).limitNow_of_inlet_le (Nat.zero_le _)

theorem LimitTerms.base_le_ceiling (x : LimitTerms) (f : FlashBlk) : x.base f ≤ x.ceiling.toNat := by
  unfold LimitTerms.base
  dsimp only
  split_ifs <;> omega

theorem State.limitNow_le_ceiling (s : State) : s.limitNow ≤ s.pwr.ceilingW.toNat := by
  have hb : s.pwr.limitTerms.base s.fl ≤ s.pwr.ceilingW.toNat := LimitTerms.base_le_ceiling _ _
  rcases Nat.lt_or_ge s.inletTop s.pwr.inlet.toNat with h | h
  · rw [s.limitNow_of_inlet_gt h]; omega
  · rw [s.limitNow_of_inlet_le h]; exact hb

@[simp] theorem State.setLimit_limitW (s : State) : s.setLimit.pwr.limitW.toNat = s.limitNow := by
  have h16 : s.limitNow < 2 ^ 16 := s.limitNow_le_ceiling.trans_lt s.pwr.ceilingW.isLt
  change (BitVec.ofNat 16 s.limitNow).toNat = s.limitNow
  rw [BitVec.toNat_ofNat, Nat.mod_eq_of_lt h16]

@[simp] theorem State.setLimit_limitTerms (s : State) : s.setLimit.pwr.limitTerms = s.pwr.limitTerms := rfl
@[simp] theorem State.reassess_limitW (s : State) : s.reassess.pwr.limitW = s.pwr.limitW := rfl

/-! ## The coolant reason (R373, R377) -/

/-- Bit 4 of a sum of eight flags at their places. -/
theorem getLsbD_flags_four : ∀ a b c d e f g h : Bool,
    (BitVec.ofNat 8 (b2n a + 2 * b2n b + 4 * b2n c + 8 * b2n d + 16 * b2n e + 32 * b2n f + 64 * b2n g + 128 * b2n h)).getLsbD 4 = e := by
  decide

theorem PwrBlk.reasons_coolant (p : PwrBlk) (throttleN hot : Bool) :
    (p.reasons throttleN hot).getLsbD 4 = (p.plantFault || hot) :=
  getLsbD_flags_four _ _ _ _ _ _ _ _

theorem State.reassess_coolant (s : State) : s.reassess.pwr.asserted.getLsbD 4 = (s.pwr.plantFault || s.inletHot) :=
  s.pwr.reasons_coolant s.pins.throttleN s.inletHot

theorem State.inletHot_congr {s t : State} (hf : t.fl = s.fl) (ht : t.pwr.limitTerms = s.pwr.limitTerms) :
    t.inletHot = s.inletHot := by
  have hin : t.pwr.inlet = s.pwr.inlet := PwrBlk.inlet_eq_of_limitTerms ht
  rw [State.inletHot, State.inletHot, State.inletTop, State.inletTop, hf, hin]

/-! ## What a sample reads -/

@[simp] theorem PwrBlk.goneFault_limitTerms (p : PwrBlk) (cond k : Nat) : (p.goneFault cond k).limitTerms = p.limitTerms := by
  unfold PwrBlk.goneFault
  split <;> rfl

theorem PwrBlk.goneFault_conds_subset (p : PwrBlk) (cond k : Nat) : (p.goneFault cond k).conds ⊆ p.conds := by
  unfold PwrBlk.goneFault
  split
  · exact List.filter_subset_self _
  · exact List.Subset.refl _

/-- Plant input k as a sample reads it. -/
def PwrBlk.readInput (h : HeatSample) (p : PwrBlk) (k : Nat) : PwrBlk :=
  let i := p.ins.getD k {}
  let hz := (h.pulseHz.getD k 0).toNat
  if i.role = 1 ∨ i.role = 2 then
    let bad := i.fault && p.inputBad k hz
    let p : PwrBlk := { p with ins := vmod p.ins k (fun (x : PlantIn) => { x with rate := x.rateAt hz, fault := bad }) }
    if bad then p else p.goneFault i.role.toNat k
  else p

/-- The inlet as a sample reads it: a failed sensor leaves what stood. -/
def PwrBlk.sampledInlet (p : PwrBlk) (h : HeatSample) : PwrBlk := { p with inlet := if h.inletOk then h.inlet else p.inlet }

/-- The temperature registers as a sample reads them. -/
def PwrBlk.readSensors (p : PwrBlk) (h : HeatSample) (hbm : BitVec 8) : PwrBlk :=
  let p : PwrBlk :=
    { p.sampledInlet h with
      tjMax := BitVec.ofNat 8 (hottest (h.compute.toList ++ h.others.toList)), optMax := BitVec.ofNat 8 (hottest h.optical.toList),
      hbmMax := hbm, inletFail := !h.inletOk }
  if h.inletOk then p.goneFault 4 0 else p

theorem PwrBlk.read_eq (p : PwrBlk) (h : HeatSample) (hbm : BitVec 8) :
    p.read h hbm = (List.range 4).foldl (PwrBlk.readInput h) (p.readSensors h hbm) := rfl

@[simp] theorem PwrBlk.readInput_limitTerms (h : HeatSample) (p : PwrBlk) (k : Nat) : (p.readInput h k).limitTerms = p.limitTerms := by
  unfold PwrBlk.readInput
  dsimp only
  split_ifs
  · rfl
  · exact PwrBlk.goneFault_limitTerms _ _ _
  · rfl

theorem PwrBlk.readInput_conds_subset (h : HeatSample) (p : PwrBlk) (k : Nat) : (p.readInput h k).conds ⊆ p.conds := by
  unfold PwrBlk.readInput
  dsimp only
  split_ifs
  · exact List.Subset.refl _
  · exact PwrBlk.goneFault_conds_subset _ _ _
  · exact List.Subset.refl _

theorem PwrBlk.readSensors_limitTerms (p : PwrBlk) (h : HeatSample) (hbm : BitVec 8) :
    (p.readSensors h hbm).limitTerms = (p.sampledInlet h).limitTerms := by
  unfold PwrBlk.readSensors
  dsimp only
  split
  · exact PwrBlk.goneFault_limitTerms _ _ _
  · rfl

theorem PwrBlk.readSensors_conds_subset (p : PwrBlk) (h : HeatSample) (hbm : BitVec 8) : (p.readSensors h hbm).conds ⊆ p.conds := by
  unfold PwrBlk.readSensors
  dsimp only
  split
  · exact PwrBlk.goneFault_conds_subset _ _ _
  · exact List.Subset.refl _

/-- Of what the limit follows from, a sample reads the inlet only. -/
theorem PwrBlk.read_limitTerms (p : PwrBlk) (h : HeatSample) (hbm : BitVec 8) :
    (p.read h hbm).limitTerms = (p.sampledInlet h).limitTerms := by
  rw [PwrBlk.read_eq, ← p.readSensors_limitTerms h hbm]
  exact List.foldlRecOn (motive := fun (q : PwrBlk) => q.limitTerms = (p.readSensors h hbm).limitTerms) _ _ rfl
    (fun q hq k _ => (q.readInput_limitTerms h k).trans hq)

/-- A sample ends conditions of a plant fault and begins none. -/
theorem PwrBlk.read_conds_subset (p : PwrBlk) (h : HeatSample) (hbm : BitVec 8) : (p.read h hbm).conds ⊆ p.conds := by
  rw [PwrBlk.read_eq]
  exact List.foldlRecOn (motive := fun (q : PwrBlk) => q.conds ⊆ p.conds) _ _ (p.readSensors_conds_subset h hbm)
    (fun q hq k _ => List.Subset.trans (q.readInput_conds_subset h k) hq)

/-! ## Trips -/

theorem State.tripsOf_keeps (s : State) (cls : Fin 4) (l : List (BitVec 8)) :
    (s.tripsOf cls l).fl = s.fl ∧ (s.tripsOf cls l).pwr.limitTerms = s.pwr.limitTerms := by
  refine List.foldlRecOn (motive := fun (t : State) => t.fl = s.fl ∧ t.pwr.limitTerms = s.pwr.limitTerms) _ _ ⟨rfl, rfl⟩ (fun t ht i _ => ?_)
  dsimp only
  split
  · exact ht
  · exact ht

@[simp] theorem State.tripsOf_fl (s : State) (cls : Fin 4) (l : List (BitVec 8)) : (s.tripsOf cls l).fl = s.fl :=
  (s.tripsOf_keeps cls l).1

@[simp] theorem State.tripsOf_limitTerms (s : State) (cls : Fin 4) (l : List (BitVec 8)) :
    (s.tripsOf cls l).pwr.limitTerms = s.pwr.limitTerms :=
  (s.tripsOf_keeps cls l).2

/-! ## The stages of a sample (R374 to R377) -/

@[simp] theorem PwrBlk.modelStep_limitTerms (p : PwrBlk) (x : HeatCtx) (h : HeatSample) (power : Nat) :
    (p.modelStep x h power).limitTerms = p.limitTerms := by
  simp only [PwrBlk.modelStep, PwrBlk.limitTerms]

@[simp] theorem PwrBlk.modelStep_conds (p : PwrBlk) (x : HeatCtx) (h : HeatSample) (power : Nat) :
    (p.modelStep x h power).conds = p.conds := by
  simp only [PwrBlk.modelStep]

@[simp] theorem PwrBlk.steer_limitTerms (p : PwrBlk) (x : HeatCtx) (power : Nat) (low : BitVec 8) :
    (p.steer x power low).limitTerms = p.limitTerms := by
  simp only [PwrBlk.steer, PwrBlk.limitTerms]

@[simp] theorem PwrBlk.steer_conds (p : PwrBlk) (x : HeatCtx) (power : Nat) (low : BitVec 8) :
    (p.steer x power low).conds = p.conds := by
  simp only [PwrBlk.steer]

@[simp] theorem PwrBlk.modelAllow_limitTerms (p : PwrBlk) (x : HeatCtx) (power : Nat) :
    (p.modelAllow x power).limitTerms = p.limitTerms := by
  simp only [PwrBlk.modelAllow, PwrBlk.limitTerms]

@[simp] theorem PwrBlk.modelAllow_conds (p : PwrBlk) (x : HeatCtx) (power : Nat) : (p.modelAllow x power).conds = p.conds := by
  simp only [PwrBlk.modelAllow]

/-- Pins, sensors and inputs are read. -/
def State.sensed (s : State) (h : HeatSample) : State :=
  { s.modPins (fun p => p.read h.toPlantSample) with free := s.free + 1 }.modPwr (fun p => p.read h s.hbmHottest)

@[simp] theorem State.sensed_fl (s : State) (h : HeatSample) : (s.sensed h).fl = s.fl := by
  simp only [State.sensed, State.modPwr_fl, State.modPins_fl]

@[simp] theorem State.sensed_pwr (s : State) (h : HeatSample) : (s.sensed h).pwr = s.pwr.read h s.hbmHottest := by
  simp only [State.sensed, State.modPwr_pwr, State.modPins_pwr]

/-- The thermal model has then steered the plant. -/
def State.steered (s : State) (h : HeatSample) : State :=
  let t := s.sensed h
  let power := (t.pwr.ticks.headD { raw := 0, est := 0 }).est
  t.modPwr (fun p =>
    ((p.modelStep t.heatCtx h power).steer t.heatCtx power (Config.plantLowered s.free)).modelAllow t.heatCtx power)

/-- Every sensor at its trip level trips. -/
def State.trips (s : State) (h : HeatSample) : State :=
  ((s.tripsOf 0 h.compute.toList).tripsOf 1 h.others.toList).tripsOf 3 h.optical.toList

/-- A sample reads, raises the fault of a failed inlet sensor, trips, and settles limit and reasons. -/
theorem exec_temperatureSample (h : HeatSample) (s : State) :
    exec (.temperatureSample h.compute h.others h.optical h.toPlantSample) s =
      .next (((if h.inletOk then s.steered h else (s.steered h).raiseFault 4 0).trips h).setLimit.reassess) := rfl

@[simp] theorem State.steered_fl (s : State) (h : HeatSample) : (s.steered h).fl = s.fl := by
  simp only [State.steered, State.modPwr_fl, State.sensed_fl]

theorem State.steered_limitTerms (s : State) (h : HeatSample) :
    (s.steered h).pwr.limitTerms = (s.pwr.sampledInlet h).limitTerms := by
  simp only [State.steered, State.modPwr_pwr, PwrBlk.modelAllow_limitTerms, PwrBlk.steer_limitTerms, PwrBlk.modelStep_limitTerms,
    State.sensed_pwr]
  exact s.pwr.read_limitTerms h s.hbmHottest

theorem State.steered_conds_subset (s : State) (h : HeatSample) : (s.steered h).pwr.conds ⊆ s.pwr.conds := by
  simp only [State.steered, State.modPwr_pwr, PwrBlk.modelAllow_conds, PwrBlk.steer_conds, PwrBlk.modelStep_conds, State.sensed_pwr]
  exact s.pwr.read_conds_subset h s.hbmHottest

@[simp] theorem State.trips_fl (s : State) (h : HeatSample) : (s.trips h).fl = s.fl := by
  simp [State.trips]

@[simp] theorem State.trips_limitTerms (s : State) (h : HeatSample) : (s.trips h).pwr.limitTerms = s.pwr.limitTerms := by
  simp [State.trips]

/-! ## The inlet of a sample -/

/-- What the limit follows from, of the state in which a sample with a working inlet sensor settles it. -/
theorem State.sampled_limitTerms (s : State) (h : HeatSample) (hok : h.inletOk = true) :
    ((s.steered h).trips h).pwr.limitTerms = (s.withInlet h.inlet).pwr.limitTerms := by
  rw [State.trips_limitTerms, State.steered_limitTerms, PwrBlk.sampledInlet, if_pos hok, State.withInlet]

theorem State.sampled_fl (s : State) (h : HeatSample) : ((s.steered h).trips h).fl = s.fl := by
  rw [State.trips_fl, State.steered_fl]

/-- With a working inlet sensor nothing but its reading enters the limit in force. -/
theorem State.settled_limitW (s : State) (h : HeatSample) (hok : h.inletOk = true) :
    (((s.steered h).trips h).setLimit.reassess).pwr.limitW.toNat = (s.withInlet h.inlet).limitNow := by
  rw [State.reassess_limitW, State.setLimit_limitW]
  exact State.limitNow_congr (s.sampled_fl h) (s.sampled_limitTerms h hok)

/-- A reading above the inlet's limit asserts the coolant reason. -/
theorem State.settled_coolant (s : State) (h : HeatSample) (hok : h.inletOk = true) (hot : s.inletTop < h.inlet.toNat) :
    (((s.steered h).trips h).setLimit.reassess).pwr.asserted.getLsbD 4 = true := by
  have terms := ((s.steered h).trips h).setLimit_limitTerms.trans (s.sampled_limitTerms h hok)
  have hhot : ((s.steered h).trips h).setLimit.inletHot = true :=
    (State.inletHot_congr (s := s.withInlet h.inlet) (s.sampled_fl h) terms).trans (decide_eq_true hot)
  rw [State.reassess_coolant, hhot, Bool.or_true]

/-- A condition that is new makes the plant fault, which is counted if there was none. -/
theorem State.raiseFault_of_new (s : State) (cond k : Nat) (h : (cond, k) ∉ s.pwr.conds) :
    (s.raiseFault cond k).pwr.plantFault = true ∧
    (s.raiseFault cond k).pwr.plantFaults = if s.pwr.plantFault then s.pwr.plantFaults else satInc s.pwr.plantFaults := by
  have hc : ¬ s.pwr.conds.contains (cond, k) = true := by simpa using h
  rw [State.raiseFault, if_neg hc]
  exact ⟨rfl, rfl⟩

/-- Settles O54: a sample with a working inlet sensor settles the limit that its reading gives; a failed sensor raises a
plant fault before limit and reasons are settled. -/
theorem inletLimit : Obligations.InletLimit := by
  unfold Obligations.InletLimit
  intro h s sample inlet air top perDegree usual
  have husual : usual = s.pwr.limitTerms.base s.fl := s.limitNow_withInlet_zero
  have hexec : exec sample s = _ := exec_temperatureSample h s
  refine ⟨fun hok hot => ?_, fun hok hle => ?_, fun hfail hnew => ?_⟩
  · rw [if_pos hok] at hexec
    refine ⟨_, hexec, s.settled_coolant h hok hot, ?_⟩
    rw [s.settled_limitW h hok, (s.withInlet h.inlet).limitNow_of_inlet_gt hot, husual]
    rfl
  · rw [if_pos hok] at hexec
    refine ⟨_, hexec, ?_⟩
    rw [s.settled_limitW h hok, (s.withInlet h.inlet).limitNow_of_inlet_le hle, husual]
    rfl
  · rw [if_neg (by simp [hfail])] at hexec
    have old := s.steered_limitTerms h
    have hpf : (s.steered h).pwr.plantFault = s.pwr.plantFault := PwrBlk.plantFault_eq_of_limitTerms (p := s.pwr.sampledInlet h) old
    have hcount : (s.steered h).pwr.plantFaults = s.pwr.plantFaults := PwrBlk.plantFaults_eq_of_limitTerms (p := s.pwr.sampledInlet h) old
    obtain ⟨fault, count⟩ := (s.steered h).raiseFault_of_new 4 0 (fun hm => hnew (s.steered_conds_subset h hm))
    rw [hpf, hcount] at count
    have kept := ((s.steered h).raiseFault 4 0).trips_limitTerms h
    exact ⟨_, hexec, (PwrBlk.plantFault_eq_of_limitTerms kept).trans fault, (PwrBlk.plantFaults_eq_of_limitTerms kept).trans count⟩

end Sys2Proof.Machine
end

section
/-! PROOFS. A start on the safe defaults: the option-byte loader and a power-on without PWR_EN (R387 to R389, R391). -/

namespace Sys2Proof.Machine

/-! ## A record of the Goose leaves these blocks alone -/

@[simp] theorem State.log_fl (s : State) (e : GEvent) : (s.log e).fl = s.fl := rfl
@[simp] theorem State.log_fab (s : State) (e : GEvent) : (s.log e).fab = s.fab := rfl
@[simp] theorem State.log_pwr (s : State) (e : GEvent) : (s.log e).pwr = s.pwr := rfl
@[simp] theorem State.log_rst (s : State) (e : GEvent) : (s.log e).rst = s.rst := rfl

theorem getLsbD_setBit_self {n : Nat} (x : BitVec n) (i : Nat) (h : i < n) : (setBit x i).getLsbD i = true := by
  simp [setBit, h]

/-! ## The option-byte loader (R387) -/

/-- Neither copy is good. -/
def FlashBlk.NoOptions (f : FlashBlk) : Prop := optionGood (f.bytes 0 256) = false ∧ optionGood (f.bytes 0x10000 256) = false

theorem FlashBlk.loadOptions_of_noOptions (f : FlashBlk) (h : f.NoOptions) :
    f.loadOptions = { f with ob := optionDefaults, aOk := false, bOk := false, used := 2, differ := false } := by
  obtain ⟨ha, hb⟩ := h
  simp [FlashBlk.loadOptions, ha, hb]

theorem FlashBlk.loadOptions_ob (f : FlashBlk) (h : f.NoOptions) : f.loadOptions.ob = optionDefaults := by
  rw [f.loadOptions_of_noOptions h]

theorem FlashBlk.loadOptions_used (f : FlashBlk) (h : f.NoOptions) : f.loadOptions.used = 2 := by
  rw [f.loadOptions_of_noOptions h]

/-! ## What the module takes from the option bytes it loaded -/

@[simp] theorem State.loadOptions_fl (s : State) (cold : Bool) : (s.loadOptions cold).fl = s.fl.loadOptions := by
  simp only [State.loadOptions]
  split <;> split <;> rfl

theorem State.loadOptions_ceilingW (s : State) (cold : Bool) :
    (s.loadOptions cold).pwr.ceilingW = BitVec.ofNat 16 (s.fl.loadOptions.opt 8 2) := by
  simp only [State.loadOptions]
  split <;> split <;> rfl

theorem State.loadOptions_permit (s : State) (cold : Bool) :
    (s.loadOptions cold).fab.permit = (BitVec.ofNat 8 (s.fl.loadOptions.opt 0x10 1)).getLsbD 0 := by
  simp only [State.loadOptions]
  split <;> split <;> rfl

theorem State.loadOptions_rst_of_defaults (s : State) (cold : Bool) (h : s.fl.loadOptions.used = 2) :
    (s.loadOptions cold).rst = { s.rst with cause := setBit s.rst.cause 16, restricted := setBit s.rst.restricted 0 } := by
  simp [State.loadOptions, h]

/-! ## The safe defaults (R389) -/

/-- The fields of the safe defaults in the layout of R388. -/
theorem FlashBlk.opt_of_defaults (f : FlashBlk) (h : f.ob = optionDefaults) :
    f.opt 6 1 = 0xFF ∧ f.opt 7 1 = 1 ∧ f.opt 8 2 = 1300 ∧ f.opt 0xA 2 = 240 ∧ f.opt 0xC 2 = 270 ∧ f.opt 0xE 2 = 300 ∧
      f.opt 0x10 1 = 0 ∧ slice f.ob 0x20 16 = List.replicate 16 0 := by
  unfold FlashBlk.opt
  rw [h]
  decide +kernel

/-! ## Power-on without PWR_EN (R391) -/

/-- The island is up on a power-on without PWR_EN, and its record is made. -/
def State.islandDark (s : State) : State := (s.islandUp false).log { source := 0x01, code := 0x01, detail := [(1, 8), (1, 1)] }

@[simp] theorem State.islandDark_noOptions (s : State) : s.islandDark.fl.NoOptions ↔ s.fl.NoOptions := Iff.rfl

theorem State.islandDark_resetBlocked (s : State) : s.islandDark.resetBlocked = true := by
  simp [State.resetBlocked, State.islandDark, State.log, State.islandUp]

/-- The start waits with its option bytes loaded. -/
theorem State.powerOn_without_pwrEn (s : State) :
    s.powerOn false = ((s.islandDark.loadOptions true).modPwr (fun p => { p with stopEn := true })).modRst
      (fun r => { r with waiting := some true, powerUp := true }) :=
  if_pos s.islandDark_resetBlocked

theorem exec_powerOn (pwrEn : Bool) (s : State) : exec (.powerOn pwrEn) s = .next (s.powerOn pwrEn) := rfl

/-- Settles O53: a power-on without PWR_EN waits with what the option-byte loader left, and a loader that finds no good copy
leaves the safe defaults. -/
theorem safeDefaults : Obligations.SafeDefaults := by
  unfold Obligations.SafeDefaults
  intro s ha hb
  have neither : s.islandDark.fl.NoOptions := s.islandDark_noOptions.mpr ⟨ha, hb⟩
  obtain ⟨part, thermal, ceiling, limit, fast, trip, permit, serial⟩ :=
    s.islandDark.fl.loadOptions.opt_of_defaults (s.islandDark.fl.loadOptions_ob neither)
  have ceilingW : BitVec.ofNat 16 (s.islandDark.fl.loadOptions.opt 8 2) = 1300 := by rw [ceiling]; rfl
  have permitOff : (BitVec.ofNat 8 (s.islandDark.fl.loadOptions.opt 0x10 1)).getLsbD 0 = false := by rw [permit]; rfl
  have restricted := s.islandDark.loadOptions_rst_of_defaults true (s.islandDark.fl.loadOptions_used neither)
  refine ⟨_, exec_powerOn false s, ?_⟩
  rw [s.powerOn_without_pwrEn]
  simp only [State.modRst_fl, State.modPwr_fl, State.loadOptions_fl, State.modRst_fab, State.modPwr_fab, State.loadOptions_permit,
    State.modRst_pwr, State.modPwr_pwr, State.loadOptions_ceilingW, State.modRst_rst, State.modPwr_rst, restricted]
  exact ⟨part, thermal, ceiling, ceilingW, limit, fast, trip, permit, permitOff, serial, getLsbD_setBit_self _ _ (by decide),
    getLsbD_setBit_self _ _ (by decide)⟩

end Sys2Proof.Machine
end

section
/-! PROOFS. What every step keeps: canonical memories and the fuses. One relation between two states, one lemma per
function of the model that answers with a state, then the dispatcher and the step. -/

namespace Sys2Proof.Machine

theorem Mem.wf_foldl_clearRange {d : Byte} (cs : List Nat) (lo hi : Nat → Nat) (m : Mem) (h : m.wf d = true) :
    (cs.foldl (fun x c => Mem.clearRange x (lo c) (hi c)) m).wf d = true := by
  induction cs generalizing m with
  | nil => exact h
  | cons c cs ih => exact ih _ (Mem.clearRange_wf m d _ _ h)

/-- The home memory is in its canonical form. -/
def MemSys.Wf (m : MemSys) : Prop := m.mem.wf 0 = true

namespace MemSys.Wf

/-- Only a change of the listed bytes bears on the canonical form. -/
theorem of_mem_eq {m n : MemSys} (h : m.Wf) (e : n.mem = m.mem := by rfl) : n.Wf := by rw [MemSys.Wf, e]; exact h

variable {m : MemSys}

theorem ite {p : Prop} [Decidable p] {n : MemSys} (hm : m.Wf) (hn : n.Wf) : (if p then m else n).Wf := by
  split <;> assumption
theorem ite_fst {α : Type} {p : Prop} [Decidable p] {x y : MemSys × α} (hx : x.1.Wf) (hy : y.1.Wf) :
    (if p then x else y).1.Wf := by
  split <;> assumption
theorem foldl {α : Type} {f : MemSys → α → MemSys} (hf : ∀ n a, n.Wf → (f n a).Wf) (l : List α) (h : m.Wf) :
    (l.foldl f m).Wf := by
  induction l generalizing m with
  | nil => exact h
  | cons a l ih => exact ih (hf m a h)
theorem foldl_fst {α β : Type} {f : MemSys × β → α → MemSys × β} (hf : ∀ p a, p.1.Wf → (f p a).1.Wf) (l : List α)
    {p : MemSys × β} (h : p.1.Wf) : (l.foldl f p).1.Wf := by
  induction l generalizing p with
  | nil => exact h
  | cons a l ih => exact ih (hf p a h)

theorem put (h : m.Wf) (a : Nat) (bs : List Byte) : (m.put a bs).Wf := Mem.writeN_wf bs m.mem 0 a h
theorem modDie (h : m.Wf) (d : Nat) (f : HcDie → HcDie) : (m.modDie d f).Wf := h
theorem modStack (h : m.Wf) (st : Nat) (f : StackRegs → StackRegs) : (m.modStack st f).Wf := h
theorem cleaned (h : m.Wf) (ln : Nat) : (m.cleaned ln).Wf := h
theorem dropBack (h : m.Wf) (ln : Nat) : (m.dropBack ln).Wf := h
theorem fresh (h : m.Wf) (ln : Nat) : (m.fresh ln).Wf := h
theorem poisoned (h : m.Wf) (ln : Nat) : (m.poisoned ln).Wf := h
/-- An update of other fields of a memory system. -/
theorem mk (h : m.Wf) (ue soft queues hc hcCtrl preg hbm pinned resp freeNo) :
    (MemSys.mk m.mem ue soft queues hc hcCtrl preg hbm pinned resp freeNo).Wf := h


theorem setPc (h : m.Wf) (st pc : Nat) (p : PcState) : (m.setPc st pc p).Wf := h
theorem setSoft (h : m.Wf) (ln : Nat) (pins : List Nat) : (m.setSoft ln pins).Wf := h
theorem putFrame (h : m.Wf) (die i : Nat) (f : Frame) : (m.putFrame die i f).Wf := h
theorem servePc (h : m.Wf) (key : Nat) : (m.servePc key).Wf := by
  grind [MemSys.servePc, cleaned, mk]

theorem arrive (h : m.Wf) (ln : Nat) (write back : Bool) : (m.arrive ln write back).Wf := by
  grind [MemSys.arrive, servePc, mk]

theorem serveAll (h : m.Wf) : m.serveAll.Wf := foldl (fun _ e hn => hn.servePc e.1) _ h

theorem lineBack (h : m.Wf) (ln : Nat) (poison : Bool) : (m.lineBack ln poison).Wf := by
  grind [MemSys.lineBack, poisoned, fresh, arrive]
theorem unframe (h : m.Wf) (e : Nat × BitVec 512) : (m.unframe e).Wf := by
  grind [MemSys.unframe, lineBack, put]

theorem dropOld (h : m.Wf) (die page : Nat) : (m.dropOld die page).Wf :=
  (foldl (fun _ e hn => hn.unframe e) _ h).modDie die _

theorem evict (h : m.Wf) (die i : Nat) : (m.evict die i).Wf := by
  grind [MemSys.evict, dropOld, modDie]

theorem promote (h : m.Wf) (die page : Nat) : (m.promote die page).Wf := by
  grind [MemSys.promote, evict, modDie]
theorem countPage (h : m.Wf) (die page w : Nat) : (m.countPage die page w).Wf := by
  grind [MemSys.countPage, promote, modDie]

theorem touchRead (h : m.Wf) (ln hint : Nat) : (m.touchRead ln hint).Wf := by
  grind [MemSys.touchRead, countPage, lineBack, put, modDie, putFrame]

theorem writeLine (h : m.Wf) (a : Nat) (bs : List Byte) (hint : Nat) : (m.writeLine a bs hint).1.Wf := by
  grind [MemSys.writeLine, arrive, fresh, put, modStack, poisoned, countPage, modDie, putFrame, dropBack]

theorem writeBytesL (h : m.Wf) (a : Nat) (bs : List Byte) (hint : Nat) : (m.writeBytesL a bs hint).1.Wf :=
  foldl_fst (fun _ c hp => hp.writeLine c.1 c.2 hint) _ (p := (m, [])) h

theorem poisonLine (h : m.Wf) (a hint : Nat) : (m.poisonLine a hint).Wf := by
  grind [MemSys.poisonLine, writeLine, putFrame, poisoned]

theorem noteUe (h : m.Wf) (ft : BitVec 64) (a : Nat) (scrub : Bool) : (m.noteUe ft a scrub).1.Wf := h

theorem correctPin (h : m.Wf) (st pc pin : Nat) : (m.correctPin st pc pin).1.Wf := by
  grind [MemSys.correctPin, setPc, modStack]

theorem corrected (h : m.Wf) (st pc : Nat) (pins : List Nat) : (m.corrected st pc pins).1.Wf := by
  unfold MemSys.corrected
  refine foldl_fst ?_ pins (h.modStack st _)
  exact fun _ pin hp => hp.correctPin st pc pin

theorem setStackLine (h : m.Wf) (ln : Nat) (x : BitVec 512) : (m.setStackLine ln x).Wf := by
  grind [MemSys.setStackLine, modDie, put]

theorem correctLine (h : m.Wf) (ln : Nat) (pins : List Nat) (wb : Bool) : (m.correctLine ln pins wb).1.Wf := by
  grind [MemSys.correctLine, corrected, arrive]

theorem stackRead (h : m.Wf) (ft : BitVec 64) (a : Nat) (hits : List Nat) (scrub : Bool) :
    (m.stackRead ft a hits scrub).1.Wf := by
  grind [MemSys.stackRead, arrive, mk, noteUe, setSoft, correctLine, setStackLine]

theorem noteMerges (h : m.Wf) (ft : BitVec 64) (lines : List Nat) : (m.noteMerges ft lines).1.Wf := by
  refine foldl_fst ?_ lines h
  exact fun _ ln hp => hp.noteUe ft (64 * ln) false

theorem storeBytes (h : m.Wf) (ft : BitVec 64) (a : Nat) (bs : List Byte) (hint : Nat) :
    (m.storeBytes ft a bs hint).1.Wf := by
  refine ((foldl_fst ?_ _ h).writeBytesL a bs hint).noteMerges ft _
  exact fun _ x hp => hp.stackRead ft x [] false

theorem touchReads (h : m.Wf) (ft : BitVec 64) (lines : List Nat) (hint : Nat) :
    (m.touchReads ft lines hint).1.Wf :=
  foldl_fst (fun _ ln hp => by grind [noteMerges, touchRead, stackRead]) lines (p := (m, [])) h

theorem fillTo (h : m.Wf) (ft : BitVec 64) (die i stop : Nat) : (m.fillTo ft die i stop).1.Wf := by
  unfold MemSys.fillTo
  split
  · split
    · refine (foldl_fst ?_ _ h).putFrame die i _
      exact fun _ k hp => hp.stackRead ft _ [] false
    · exact h
  · exact h

theorem fillNext (h : m.Wf) (ft : BitVec 64) (die i : Nat) : (m.fillNext ft die i).1.Wf := by
  grind [MemSys.fillNext, fillTo]

theorem scrub (h : m.Wf) (ft : BitVec 64) (st : Nat) (errs : List Nat) : (m.scrub ft st errs).1.Wf :=
  (h.stackRead ft _ errs true).modStack st _

theorem freeFrames (h : m.Wf) (die : Nat) : (m.freeFrames die).Wf :=
  (foldl (fun _ e hn => hn.unframe e) _ h).modDie die _

theorem borrow (h : m.Wf) (die n : Nat) : (m.borrow die n).Wf :=
  (foldl (fun _ i hn => hn.evict die (1023 - i)) _ h).modDie die _

theorem writeHcCtrl (h : m.Wf) (v : Reg) : (m.writeHcCtrl v).Wf := by
  unfold MemSys.writeHcCtrl
  dsimp only
  split
  · exact h
  · exact foldl (fun n d hn => by grind [freeFrames]) _ h

theorem hcClear (h : m.Wf) (o : Nat) : (m.hcClear o).Wf := by
  grind [MemSys.hcClear, modDie]

theorem onReset (h : m.Wf) (cold : Bool) : (m.onReset cold).Wf := by
  unfold MemSys.onReset
  split
  · rfl
  · have freed : ((List.range 4).foldl MemSys.freeFrames m).Wf := foldl (fun _ d hn => hn.freeFrames d) _ h
    unfold MemSys.Wf at freed ⊢
    generalize (List.range 4).foldl MemSys.freeFrames m = n at freed
    exact Mem.wf_foldl_clearRange (List.range 8) (fun c => ctlBase c) (fun c => ctlBase c + 0x400000) n.mem freed

end MemSys.Wf

/-- The flash is in its canonical form. -/
def FlashBlk.Wf (f : FlashBlk) : Prop := f.flash.wf 0xFF = true

namespace FlashBlk.Wf

variable {f : FlashBlk}

theorem put (h : f.Wf) (a : Nat) (bs : List Byte) : (f.put a bs).Wf := Mem.writeN_wf bs f.flash 0xFF a h

theorem clearRange (h : f.Wf) (a b : Nat) : ({ f with flash := f.flash.clearRange a b } : FlashBlk).Wf :=
  Mem.clearRange_wf f.flash 0xFF a b h

theorem writeBoot (h : f.Wf) (st bu : Bool) : (f.writeBoot st bu).Wf := (h.clearRange _ _).put _ _

theorem finishOp (h : f.Wf) (failed : Bool) : (f.finishOp failed).Wf := by
  unfold FlashBlk.finishOp
  dsimp only
  split
  · exact h
  · split <;> exact h
  · exact put h _ _
  · split
    · exact put h _ _
    · exact clearRange h _ _

theorem loadOptions (h : f.Wf) : f.loadOptions.Wf := by
  have same : f.loadOptions.flash = f.flash := by simp [FlashBlk.loadOptions]
  rw [FlashBlk.Wf, same]
  exact h

end FlashBlk.Wf

/-- The fuses of x are those of r or more of them: no floor is lower and no revoked key is back (R407). -/
structure SecBlk.FusesWithin (r x : SecBlk) : Prop where
  floorSt : r.floorSt.toNat ≤ x.floorSt.toNat
  floorBu : r.floorBu.toNat ≤ x.floorBu.toNat
  revoked : ∀ k, r.revoked.getLsbD k = true → x.revoked.getLsbD k = true

namespace SecBlk.FusesWithin

theorem of_eq {r x : SecBlk} (hst : x.floorSt = r.floorSt := by rfl) (hbu : x.floorBu = r.floorBu := by rfl)
    (hr : x.revoked = r.revoked := by rfl) : r.FusesWithin x :=
  ⟨by rw [hst], by rw [hbu], fun k h => by rw [hr]; exact h⟩

theorem trans {r x y : SecBlk} (h : r.FusesWithin x) (k : x.FusesWithin y) : r.FusesWithin y :=
  ⟨h.1.trans k.1, h.2.trans k.2, fun j hj => k.3 j (h.3 j hj)⟩

theorem extend (x : SecBlk) (i : Nat) (d : List Byte) : x.FusesWithin (x.extend i d) := of_eq

/-- A floor of 7 bits goes up to at most 64. -/
theorem floor_le (a : BitVec 7) (n : Nat) : a.toNat ≤ (BitVec.ofNat 7 (max a.toNat (min 64 n))).toNat := by
  rw [BitVec.toNat_ofNat]
  omega

theorem fuseDone (x : SecBlk) : x.FusesWithin x.fuseDone := by
  unfold SecBlk.fuseDone
  split
  · exact ⟨floor_le _ _, le_rfl, fun _ h => h⟩
  · exact ⟨le_rfl, floor_le _ _, fun _ h => h⟩
  · refine ⟨le_rfl, le_rfl, fun k h => ?_⟩
    simp [setBit, h]
  · exact of_eq

theorem writeCtrl (x : SecBlk) (v : Reg) : x.FusesWithin (x.writeCtrl v) := by
  unfold SecBlk.writeCtrl
  split <;> exact of_eq

theorem retrySeed (x : SecBlk) : x.FusesWithin x.retrySeed := by
  unfold SecBlk.retrySeed
  split <;> exact of_eq

theorem onReset (x : SecBlk) (cold : Bool) : x.FusesWithin (x.onReset cold) := by
  unfold SecBlk.onReset
  split <;> exact of_eq

end SecBlk.FusesWithin

end Sys2Proof.Machine
end

section
/-! PROOFS. The relation between the states before and after, and its rules. -/

namespace Sys2Proof.Machine

/-- A record leaves the counts of hours and power cycles. -/
theorem Goose.log_counts (g : Goose) (now : BitVec 64) (aligned : Bool) (e : GEvent) :
    (g.log now aligned e).hours = g.hours ∧ (g.log now aligned e).pcycle = g.pcycle := by
  have fresh : (g.newRecord now aligned e).hours = g.hours ∧ (g.newRecord now aligned e).pcycle = g.pcycle := by
    unfold Goose.newRecord
    split <;> exact ⟨rfl, rfl⟩
  unfold Goose.log
  grind

/-- A link that enters the table leaves the light-source units. -/
theorem FabBlk.enterLink_lsuLit (f : FabBlk) (dev : DevId) (trunk src : Nat) : (f.enterLink dev trunk src).lsuLit = f.lsuLit := by
  unfold FabBlk.enterLink
  split
  · rfl
  · split <;> rfl

/-- What no running core, engine or packet touches: the caller's queue, the fuses and keys, the reset record, the pins, cap,
gain and thermal stop, the fitted light-source units, the Goose's hours and power cycles. -/
def State.sheltered (s : State) : List Instr × SecBlk × RstBlk × PinBlk × (BitVec 16 × BitVec 16 × Bool) × BitVec 4 × BitVec 32 × BitVec 32 :=
  ⟨s.pending, s.sec, s.rst, s.pins, (s.pwr.capW, s.pwr.gain, s.pwr.stopThermal), s.fab.lsuLit, s.goose.hours, s.goose.pcycle⟩

/-- From s to t what is sheltered stays, where `still` asks for it. -/
def State.Shelters (s t : State) (still : Bool) : Prop := match still with
  | true => t.sheltered = s.sheltered
  | false => True

/-- From s to t canonical memories stay canonical and no fuse goes back; with `still`, what is sheltered stays too. -/
def State.Keeps (s t : State) (still : Bool := false) : Prop :=
  (s.ms.Wf → t.ms.Wf) ∧ (s.fl.Wf → t.fl.Wf) ∧ s.sec.FusesWithin t.sec ∧ s.Shelters t still

namespace State.Keeps

theorem refl (s : State) (still : Bool := false) : s.Keeps s still :=
  ⟨id, id, ⟨le_rfl, le_rfl, fun _ h => h⟩, by cases still <;> trivial⟩

section
variable {s t : State} {still : Bool} (h : s.Keeps t still)
include h

/-- What is sheltered stays. -/
theorem shelter : s.Shelters t still := h.2.2.2

/-- An update of blocks that hold nothing sheltered. -/
theorem mkStill (cores time ud parts eth locals free) :
    s.Keeps ⟨t.pending, cores, t.ms, t.goose, t.fab, time, ud, parts, eth, locals, t.pwr, t.rst, t.fl, t.sec, t.pins, free⟩ still := h

theorem withMs {m : MemSys} (hm : t.ms.Wf → m.Wf) : s.Keeps { t with ms := m } still := ⟨fun hs => hm (h.1 hs), h.2⟩

theorem touchReads (ft : BitVec 64) (lines : List Nat) (hint : Nat) : s.Keeps { t with ms := (t.ms.touchReads ft lines hint).1 } still :=
  h.withMs (fun hm => hm.touchReads ft lines hint)

theorem storeBytes (ft : BitVec 64) (a : Nat) (bs : List Byte) (hint : Nat) :
    s.Keeps { t with ms := (t.ms.storeBytes ft a bs hint).1 } still :=
  h.withMs (fun hm => hm.storeBytes ft a bs hint)

theorem modMs {f : MemSys → MemSys} (hm : t.ms.Wf → (f t.ms).Wf) : s.Keeps (t.modMs f) still := h.withMs hm

/-- An update of the fabric that leaves the fitted light-source units. -/
theorem modFabStill (f : FabBlk → FabBlk) (lit : (f t.fab).lsuLit = t.fab.lsuLit := by rfl) : s.Keeps (t.modFab f) still := by
  refine ⟨h.1, h.2.1, h.2.2.1, ?_⟩
  have before := h.shelter
  cases still with
  | true =>
    refine Eq.trans ?_ before
    simp only [State.sheltered, State.modFab, lit]
  | false => trivial

theorem foldl {α : Type} {f : State → α → State} (hf : ∀ u a, s.Keeps u still → s.Keeps (f u a) still) (l : List α) :
    s.Keeps (l.foldl f t) still := by
  induction l generalizing t with
  | nil => exact h
  | cons a l ih => exact ih (hf t a h)

/-- Less is asked for. -/
theorem loose : s.Keeps t := ⟨h.1, h.2.1, h.2.2.1, trivial⟩

end

section
variable {s t : State} (h : s.Keeps t)
include h

/-- An update of the blocks other than memories, flash and security. -/
theorem mk (pending cores goose fab time ud parts eth locals pwr rst pins free) :
    s.Keeps ⟨pending, cores, t.ms, goose, fab, time, ud, parts, eth, locals, pwr, rst, t.fl, t.sec, pins, free⟩ := h

theorem modFl {f : FlashBlk → FlashBlk} (hf : t.fl.Wf → (f t.fl).Wf) :
    s.Keeps (t.modFl f) := ⟨h.1, fun hs => hf (h.2.1 hs), h.2.2⟩

theorem modSec {f : SecBlk → SecBlk} (hf : t.sec.FusesWithin (f t.sec)) : s.Keeps (t.modSec f) :=
  ⟨h.1, h.2.1, h.2.2.1.trans hf, trivial⟩

theorem extend (i : Nat) (d : List Byte) : s.Keeps (t.modSec (fun x => x.extend i d)) := h.modSec (.extend _ i d)

end

theorem foldl_fst {s : State} {still : Bool} {α β : Type} {f : State × β → α → State × β} {x : State × β} (h : s.Keeps x.1 still)
    (hf : ∀ y a, s.Keeps y.1 still → s.Keeps (f y a).1 still) (l : List α) : s.Keeps (l.foldl f x).1 still := by
  induction l generalizing x with
  | nil => exact h
  | cons a l ih => exact ih (hf x a h)

/-- What a command answers, where it answers with a state, keeps what s has. -/
def Out (s : State) (o : Machine.Out) : Prop := ∀ t, o = .next t → s.Keeps t

/-- The state after a register read, where there is one, keeps what s has. -/
def Read (s : State) (o : Option RegRead) : Prop := ∀ r, o = some r → s.Keeps r.2

/-- The state that an issued word leaves keeps what s has. -/
def Issued (s : State) (i : Machine.Issued) (still : Bool := false) : Prop := ∀ t, i = .done_ t → s.Keeps t still

section
variable {s t : State}

theorem next (h : s.Keeps t) : Keeps.Out s (.next t) := fun _ e => Host.Outcome.next.inj e ▸ h

theorem read (h : s.Keeps t) (v : Reg) : Keeps.Read s (some (v, t)) := fun _ e => Option.some.inj e ▸ h

theorem read_none (s : State) : Keeps.Read s none := fun _ e => nomatch e

theorem read_map (h : s.Keeps t) (o : Option Reg) : Keeps.Read s (o.map (fun v => (v, t))) := by
  cases o with
  | none => exact read_none s
  | some v => exact read h v

theorem issued {still : Bool} (h : s.Keeps t still) : Keeps.Issued s (.done_ t) still := fun _ e => Issued.done_.inj e ▸ h

theorem issued_stalled (s : State) (why : SeqStall) {still : Bool} : Keeps.Issued s (.stalled why) still := fun _ e => nomatch e

end

end State.Keeps
end Sys2Proof.Machine
end

section
/-! PROOFS. What the functions of Ops, Flags, Row, FabricOps, Att, CoreCache, Gath, Mule keep. -/

namespace Sys2Proof.Machine.State.Keeps

set_option Elab.async false -- in turn: each proof waits for lemmas before it, and many waiting threads need much memory

variable {s t : State} {still : Bool}

/-! ## Ops -/

theorem modCore (h : s.Keeps t still) (c f) : s.Keeps (t.modCore c f) still := h

theorem modUd (h : s.Keeps t still) (u f) : s.Keeps (t.modUd u f) still := h

theorem modPart (h : s.Keeps t still) (p f) : s.Keeps (t.modPart p f) still := h

theorem modFab (h : s.Keeps t) (f) : s.Keeps (t.modFab f) := h

theorem modLane (h : s.Keeps t still) (k f) : s.Keeps (t.modLane k f) still := h

theorem modTime (h : s.Keeps t still) (f) : s.Keeps (t.modTime f) still := h

theorem modEth (h : s.Keeps t still) (f) : s.Keeps (t.modEth f) still := h

theorem modPwr (h : s.Keeps t) (f) : s.Keeps (t.modPwr f) := h

theorem modRst (h : s.Keeps t) (f) : s.Keeps (t.modRst f) := h

theorem modPins (h : s.Keeps t) (f) : s.Keeps (t.modPins f) := h

theorem modGoose (h : s.Keeps t) (f) : s.Keeps (t.modGoose f) := h

theorem log (h : s.Keeps t still) (e) : s.Keeps (t.log e) still := by
  obtain ⟨hours, cycles⟩ := Goose.log_counts t.goose t.now t.time.aligned e
  refine ⟨h.1, h.2.1, h.2.2.1, ?_⟩
  have before := h.shelter
  cases still with
  | true =>
    refine Eq.trans ?_ before
    simp only [State.sheltered, State.log, hours, cycles]
  | false => trivial

theorem logs (h : s.Keeps t still) (es) : s.Keeps (t.logs es) still :=
  h.foldl (fun _ e hu => hu.log e) es

theorem logBudget (h : s.Keeps t still) (c e) : s.Keeps (t.logBudget c e) still := by
  unfold State.logBudget
  grind [log, modCore]

theorem bumpCc (h : s.Keeps t still) (c k err) : s.Keeps (t.bumpCc c k err) still := h

theorem signal (h : s.Keeps t still) (c sigcc err) : s.Keeps (t.signal c sigcc err) still := by
  unfold State.signal
  grind [bumpCc]

theorem dropPrefetch (h : s.Keeps t still) (lines) : s.Keeps (t.dropPrefetch lines) still := h

theorem noteReads (h : s.Keeps t still) (a n hint) : s.Keeps (t.noteReads a n hint) still := by
  unfold State.noteReads
  grind [MemSys.Wf.touchReads, logs, mkStill, touchReads]

theorem doorbell (h : s.Keeps t still) (u p) : s.Keeps (t.doorbell u p) still := by
  unfold State.doorbell
  grind [log, modUd, noteReads]

theorem doorbells (h : s.Keeps t still) (lines) : s.Keeps (t.doorbells lines) still :=
  h.foldl (fun _ i hu => by grind [doorbell]) _

theorem homeWrite (h : s.Keeps t still) (own a bs hint) : s.Keeps (t.homeWrite own a bs hint).1 still := by
  unfold State.homeWrite
  grind [MemSys.Wf.storeBytes, doorbells, dropPrefetch, logs, mkStill, modCore, storeBytes]

theorem homeWrites (h : s.Keeps t still) (own ws hint) : s.Keeps (t.homeWrites own ws hint).1 still := by
  refine foldl_fst (x := (t, false)) h ?_ _
  exact fun _ w hy => hy.homeWrite own w.1 w.2 hint

theorem noteHinted (h : s.Keeps t still) (rs) : s.Keeps (t.noteHinted rs) still :=
  h.foldl (fun _ r hu => hu.noteReads r.1 r.2.1 r.2.2) rs

theorem noteReadsOf (h : s.Keeps t still) (rs hint) : s.Keeps (t.noteReadsOf rs hint) still :=
  h.foldl (fun _ r hu => hu.noteReads r.1 r.2 hint) rs

theorem poisonAt (h : s.Keeps t still) (own a hint) : s.Keeps (t.poisonAt own a hint) still := by
  have hp : s.Keeps { t with ms := t.ms.poisonLine a hint } still := h.withMs (fun hm => hm.poisonLine a hint)
  unfold State.poisonAt
  grind [modCore, dropPrefetch, doorbells]

theorem placeGranule (h : s.Keeps t still) (own hint e) : s.Keeps (t.placeGranule own hint e).1 still := by
  unfold State.placeGranule
  split
  · exact h.poisonAt own _ hint
  · refine foldl_fst (x := (t, false)) h ?_ _
    exact fun _ w hy => hy.homeWrite own w.1 w.2 hint

theorem placeMarked (h : s.Keeps t still) (own hint ws) : s.Keeps (t.placeMarked own hint ws).1 still := by
  refine foldl_fst (x := (t, false)) h ?_ _
  exact fun _ e hy => hy.placeGranule own hint e

/-! ## Flags -/

theorem countNum (h : s.Keeps t still) (c e ev) : s.Keeps (t.countNum c e ev) still := h

/-! ## Row -/

theorem modRow (h : s.Keeps t still) (c f) : s.Keeps (t.modRow c f) still := h

theorem rowCreate (h : s.Keeps t still) (c d layer mb kind open_) : s.Keeps (t.rowCreate c d layer mb kind open_).1 still := by
  unfold State.rowCreate
  extract_lets u r addr
  have hu : s.Keeps u still := by grind [modRow]
  clear_value u addr
  dsimp only
  split
  · exact hu.modRow c _
  · exact (hu.modRow c _).log _

theorem runRowFwd (h : s.Keeps t still) (c k raw layer mb kind) : s.Keeps (t.runRowFwd c k raw layer mb kind).1 still := by
  unfold State.runRowFwd
  grind [modRow, rowCreate]

theorem runRowBwd (h : s.Keeps t still) (c k raw layer mb kind) : s.Keeps (t.runRowBwd c k raw layer mb kind).1 still := by
  unfold State.runRowBwd
  grind [modRow]

theorem runStatFree (h : s.Keeps t still) (c layer mb kind) : s.Keeps (t.runStatFree c layer mb kind) still := h

/-! ## FabricOps -/

theorem transitFalls (h : s.Keeps t still) (k x2 cause p) : s.Keeps (t.transitFalls k x2 cause p) still := by
  unfold State.transitFalls
  grind [modFabStill, modTime]

theorem occupyAt (h : s.Keeps t still) (k a w size) : s.Keeps (t.occupyAt k a w size) still := h

theorem occupy (h : s.Keeps t still) (k a size) : s.Keeps (t.occupy k a size) still := h

theorem putOn (h : s.Keeps t still) (k sp start) : s.Keeps (t.putOn k sp start) still := by
  unfold State.putOn
  grind [modLane, occupy]

theorem stamp (h : s.Keeps t still) (k sp) : s.Keeps (t.stamp k sp).1 still := by
  unfold State.stamp
  grind [modLane]

theorem sendReordered (h : s.Keeps t still) (k x2) : s.Keeps (t.sendReordered k x2) still := by
  unfold State.sendReordered
  grind [modFabStill, modLane, putOn, stamp, transitFalls]

theorem releaseHeld (h : s.Keeps t still) (k which) : s.Keeps (t.releaseHeld k which) still :=
  (h.modLane k _).foldl (fun _ p hu => hu.sendReordered k p) _

theorem laneSend (h : s.Keeps t still) (k p from_ start) : s.Keeps (t.laneSend k p from_ start) still := by
  unfold State.laneSend
  grind [modLane, putOn, releaseHeld]

theorem returnCredits (h : s.Keeps t still) (inLane p) : s.Keeps (t.returnCredits inLane p) still := by
  unfold State.returnCredits
  grind [modLane]

theorem queueTrunk (h : s.Keeps t still) (x1 p inLane fb) : s.Keeps (t.queueTrunk x1 p inLane fb) still := by
  unfold State.queueTrunk
  split
  · exact (h.laneSend _ p _ _).returnCredits inLane p
  · have lanes {f : State → Nat → State} (hf : ∀ u k, s.Keeps u still → s.Keeps (f u k) still) (ks : List Nat) :
        s.Keeps ((ks.foldl f t).modFab (fun b => { b with waiting := b.waiting ++ [⟨x1, p, inLane, fb⟩] })) still :=
      (h.foldl hf ks).modFabStill _
    exact lanes (fun _ k hu => by grind [modLane]) _

theorem pumpTrunk (h : s.Keeps t still) (x1) : s.Keeps (t.pumpTrunk x1) still :=
  (h.modFabStill _).foldl (fun _ w hu => hu.queueTrunk _ w.pkt w.inLane w.fallback) _

theorem ownerDone (h : s.Keeps t still) (o err) : s.Keeps (t.ownerDone o err) still := by
  unfold State.ownerDone
  grind [modCore]

theorem failReq (h : s.Keeps t still) (r) : s.Keeps (t.failReq r) still := by
  unfold State.failReq
  grind [modFabStill, ownerDone]

theorem keepReq (h : s.Keeps t still) (r) : s.Keeps (t.keepReq r) still := h

theorem markResent (h : s.Keeps t still) (o) : s.Keeps (t.markResent o) still := by
  unfold State.markResent
  grind [modCore]

theorem noteReload (h : s.Keeps t still) (r) : s.Keeps (t.noteReload r) still := by
  unfold State.noteReload
  grind [noteReads]

theorem sendReq (h : s.Keeps t still) (n) (r) : s.Keeps (State.sendReq n t r) still := by
  induction n generalizing t r with
  | zero => exact h.failReq r
  | succ n ih =>
    unfold State.sendReq
    split
    · exact (h.modFabStill _).failReq r
    · dsimp only
      split
      · exact h.failReq r
      · split
        · exact (h.keepReq _).queueTrunk _ _ none none
        · split
          · exact (h.modFabStill _ (FabBlk.enterLink_lsuLit _ _ _ _)).failReq _
          · exact ih ((((h.modFabStill _ (FabBlk.enterLink_lsuLit _ _ _ _)).modFabStill _).markResent _).noteReload _) _

theorem resend (h : s.Keeps t still) (r) : s.Keeps (t.resend r) still := by
  unfold State.resend
  grind [failReq, markResent, modFabStill, noteReload, sendReq]

theorem newReq (h : s.Keeps t still) (f owner src) : s.Keeps (t.newReq f owner src) still := by
  unfold State.newReq
  grind [modFabStill, sendReq]

theorem sendResp (h : s.Keeps t still) (p) : s.Keeps (t.sendResp p) still := by
  unfold State.sendResp
  grind [modFabStill, queueTrunk, FabBlk.enterLink_lsuLit]

theorem sendAck (h : s.Keeps t still) (p status full) : s.Keeps (t.sendAck p status full) still := by
  unfold State.sendAck
  grind [sendResp]

theorem sendUnreach (h : s.Keeps t still) (p x2) : s.Keeps (t.sendUnreach p x2) still := by
  unfold State.sendUnreach
  grind [sendResp]

theorem noteLateOp (h : s.Keeps t still) (c tag trunk cause packets) : s.Keeps (t.noteLateOp c tag trunk cause packets) still := by
  unfold State.noteLateOp
  grind [logBudget, modTime]

/-! ## Att -/

theorem modAtt (h : s.Keeps t still) (c f) : s.Keeps (t.modAtt c f) still := h

theorem attAppend (h : s.Keeps t still) (c k raw x4 slot) : s.Keeps (t.attAppend c k raw x4 slot).1 still := by
  unfold State.attAppend
  grind [modAtt]

theorem runAtt (h : s.Keeps t still) (c k opc raw x5 slot) : s.Keeps (t.runAtt c k opc raw x5 slot).1 still := by
  unfold State.runAtt
  grind [attAppend, modAtt]

/-! ## CoreCache -/

theorem modCache (h : s.Keeps t still) (c f) : s.Keeps (t.modCache c f) still := h

theorem writeBack (h : s.Keeps t still) (l) : s.Keeps (t.writeBack l) still := by
  unfold State.writeBack
  grind [homeWrite]

theorem cacheAlloc (h : s.Keeps t still) (c l) : s.Keeps (t.cacheAlloc c l) still := by
  unfold State.cacheAlloc
  grind [modCache, writeBack]

theorem homeLine (h : s.Keeps t still) (ln hint) : s.Keeps (t.homeLine ln hint).1 still := by
  unfold State.homeLine
  grind [noteReads]

theorem cacheRead (h : s.Keeps t still) (c ln hint alloc) : s.Keeps (t.cacheRead c ln hint alloc).1 still := by
  unfold State.cacheRead
  grind [cacheAlloc, homeLine, modCache]

theorem gathRead (h : s.Keeps t still) (c hint alloc n a m) : s.Keeps (State.gathRead c hint alloc n t a m).1 still := by
  induction n generalizing t a m with
  | zero => exact h
  | succ n ih =>
    unfold State.gathRead
    dsimp only
    split
    · exact h
    · split <;> exact ih (by first | exact h.cacheRead c _ hint alloc | exact h) _ _

theorem loadHbm (h : s.Keeps t still) (c a n fresh) : s.Keeps (t.loadHbm c a n fresh).1 still := by
  unfold State.loadHbm
  grind [cacheRead, homeLine, modCache, writeBack]

theorem storeHbm (h : s.Keeps t still) (c a bs thru) : s.Keeps (t.storeHbm c a bs thru).1 still := by
  unfold State.storeHbm
  grind [cacheAlloc, homeLine, homeWrite, modCache]

theorem atomAt (h : s.Keeps t still) (c a n op signed ga gb) : s.Keeps (t.atomAt c a n op signed ga gb).1 still := by
  unfold State.atomAt
  grind [homeWrite, modCache, writeBack]

theorem cacheRange (h : s.Keeps t still) (c wb inv a n) : s.Keeps (t.cacheRange c wb inv a n) still := by
  unfold State.cacheRange
  refine modCache ?_ c _
  split
  · exact h.foldl (fun _ l hu => hu.writeBack l) _
  · exact h

/-! ## Gath -/

theorem gathLines (h : s.Keeps t still) (c hint alloc n a m) : s.Keeps (State.gathLines c hint alloc n t a m).1 still := by
  induction n generalizing t a m with
  | zero => exact h
  | succ n ih =>
    unfold State.gathLines
    split
    · exact h
    · exact ih (h.gathRead c hint alloc 3 a _) _ _

theorem modCacheBad (h : s.Keeps t still) (c x) : s.Keeps (t.modCacheBad c x) still := h

theorem gatherRows (h : s.Keeps t still) (c d n i) : s.Keeps (State.gatherRows c d n t i).1 still := by
  induction n generalizing t i with
  | zero => exact h
  | succ n ih =>
    unfold State.gatherRows
    have index := h.gathRead c 0 true 3 (d.index + 4 * i) 4
    dsimp only
    split
    · exact ih index _
    · split
      · exact ih index _
      · split
        · exact index.modCacheBad c _
        · exact ih (index.gathLines c _ _ _ _ _) _

theorem gathWrite {r : State × List (Nat × List (Byte × Bool)) × Nat} (h : s.Keeps r.1 still) (c) : s.Keeps (State.gathWrite c r).1 still :=
  h.placeMarked (some c) 0 r.2.1

theorem runGather (h : s.Keeps t still) (c raw) : s.Keeps (t.runGather c raw).1 still :=
  (h.gatherRows c _ _ 0).gathWrite c

theorem walkRows (h : s.Keeps t still) (c d n i) : s.Keeps (State.walkRows c d n t i).1 still := by
  induction n generalizing t i with
  | zero => exact h
  | succ n ih =>
    have position := h.gathRead c 0 true 3 (d.pos + 4 * i) 4
    unfold State.walkRows
    generalize State.gathRead c 0 true 3 t (d.pos + 4 * i) 4 = r at position ⊢
    obtain ⟨u, pb, bad⟩ := r
    dsimp only
    split
    · exact ih position _
    · split
      · exact position.modCacheBad c _
      · have entry := position.gathRead c 0 true 3 (d.table + 16 * (leNat pb / 256)) 8
        generalize State.gathRead c 0 true 3 u (d.table + 16 * (leNat pb / 256)) 8 = q at entry ⊢
        obtain ⟨v, eb, ebad⟩ := q
        dsimp only
        split
        · exact entry.modCacheBad c _
        · exact ih entry _

theorem runWalk (h : s.Keeps t still) (c raw) : s.Keeps (t.runWalk c raw).1 still :=
  (h.walkRows c _ _ 0).gathWrite c

/-! ## Mule -/

theorem remoteSignal (h : s.Keeps t still) (tag core cc err) : s.Keeps (t.remoteSignal tag core cc err) still := by
  unfold State.remoteSignal
  grind [bumpCc, modCore]

theorem sendRsig (h : s.Keeps t still) (c d err) : s.Keeps (t.sendRsig c d err) still := by
  unfold State.sendRsig
  grind [modFabStill, newReq, remoteSignal]

theorem pumpRsigs (h : s.Keeps t still) (fs) : s.Keeps (State.pumpRsigs fs t) still := by
  induction fs generalizing t with
  | nil => exact h.modFabStill _
  | cons f r ih =>
    unfold State.pumpRsigs
    split
    · exact ih (h.newReq f _ _)
    · exact h.modFabStill _

theorem skipRsig (h : s.Keeps t still) (c desc) : s.Keeps (t.skipRsig c desc) still := by
  unfold State.skipRsig
  grind [sendRsig]

theorem copyRead (h : s.Keeps t still) (sh held a n) : s.Keeps (t.copyRead sh held a n).1 still := by
  unfold State.copyRead
  grind [noteReads]

theorem copyRows (h : s.Keeps t still) (sh srcAt dstAt rowLen n i held) :
    s.Keeps (State.copyRows sh srcAt dstAt rowLen n t i held).1 still := by
  induction n generalizing t i held with
  | zero => exact h
  | succ n ih => exact ih (h.copyRead sh held _ rowLen) _ _

theorem runCopy1 (h : s.Keeps t still) (c src dst len sh dh) : s.Keeps (t.runCopy1 c src dst len sh dh).1 still := by
  unfold State.runCopy1
  grind [copyRead, placeMarked]

theorem freeSlot (h : s.Keeps t still) (buffer) : s.Keeps (t.freeSlot buffer) still := h

theorem runCopyLocal (h : s.Keeps t still) (c d) : s.Keeps (t.runCopyLocal c d).1 still := by
  unfold State.runCopyLocal
  grind [copyRows, freeSlot, placeMarked]

theorem modRun (h : s.Keeps t still) (c u id f) : s.Keeps (t.modRun c u id f) still := h

theorem readySched (h : s.Keeps t still) (f tag owner core unit_ id limit src) :
    s.Keeps (t.readySched f tag owner core unit_ id limit src) still := by
  unfold State.readySched
  grind [keepReq, modFabStill, newReq]

theorem sendPart (h : s.Keeps t still) (c m r d p) : s.Keeps (t.sendPart c m r d p) still := by
  unfold State.sendPart
  grind [copyRead, modRun, newReq, readySched]

theorem sendParts (h : s.Keeps t still) (c m r d ps) : s.Keeps (State.sendParts c m r d t ps) still := by
  induction ps generalizing t with
  | nil => exact h
  | cons p ps ih =>
    unfold State.sendParts
    split
    · exact ih (h.sendPart c m r d p)
    · exact h

theorem pumpCopies (h : s.Keeps t still) : s.Keeps (t.pumpCopies) still := by
  unfold State.pumpCopies
  refine foldl ?_ (fun _ i hu => hu.foldl (fun _ r hv => ?_) _) _
  · split
    · exact h
    · exact h.pumpRsigs _
  · grind [sendParts, modRun]

theorem reportLate (h : s.Keeps t still) (c r) : s.Keeps (t.reportLate c r) still := by
  unfold State.reportLate
  grind [noteLateOp]

end Sys2Proof.Machine.State.Keeps
end

section
/-! PROOFS. What the functions of Retire, MsgEng, Engines, Seq, Bullock keep. -/

namespace Sys2Proof.Machine.State.Keeps

set_option Elab.async false -- in turn: each proof waits for lemmas before it, and many waiting threads need much memory

variable {s t : State} {still : Bool}

/-! ## Retire -/

theorem recordSkip (h : s.Keeps t still) (c q cause exec) : s.Keeps (t.recordSkip c q cause exec) still := by
  unfold State.recordSkip
  grind [logBudget, modCore]

theorem finish (h : s.Keeps t still) (c u id sigcc err) : s.Keeps (t.finish c u id sigcc err) still := by
  unfold State.finish
  grind [modCore, signal]

theorem skipExec (h : s.Keeps t still) (c u q cause) : s.Keeps (t.skipExec c u q cause) still := by
  unfold State.skipExec
  grind [finish, recordSkip]

theorem run (h : s.Keeps t still) (c u r) : s.Keeps (t.run c u r) still := h

theorem popHead (h : s.Keeps t still) (c u) : s.Keeps (t.popHead c u) still := h

theorem noteLaunch (h : s.Keeps t still) (c q) : s.Keeps (t.noteLaunch c q) still := by
  unfold State.noteLaunch
  grind [logBudget, modCore]

theorem start (h : s.Keeps t still) (c u r) : s.Keeps (t.start c u r) still := by
  unfold State.start
  grind [noteLaunch, popHead, run]

theorem dropNulls (h : s.Keeps t still) (c u n) : s.Keeps (State.dropNulls c u n t) still := by
  induction n generalizing t with
  | zero => exact h
  | succ n ih =>
    unfold State.dropNulls
    grind [popHead, run]

theorem signalNull (h : s.Keeps t still) (c u) : s.Keeps (t.signalNull c u) still := by
  unfold State.signalNull
  grind [finish]

/-! ## MsgEng -/

theorem creditTo (h : s.Keeps t still) (c q dest) : s.Keeps (t.creditTo c q dest) still := by
  unfold State.creditTo
  grind [modCore, sendResp]

theorem changeQueue (h : s.Keeps t still) (c q f) : s.Keeps (t.changeQueue c q f) still := by
  unfold State.changeQueue
  dsimp only
  split
  · exact ((h.modCore c _).modCore c _).foldl (fun _ d hu => hu.creditTo c q d) _
  · exact h.modCore c _

theorem reportLateSend (h : s.Keeps t still) (c p) : s.Keeps (t.reportLateSend c p) still := by
  unfold State.reportLateSend
  grind [noteLateOp]

theorem sendStatus (h : s.Keeps t still) (c id reject full) : s.Keeps (t.sendStatus c id reject full) still := by
  unfold State.sendStatus
  grind [finish, modCore, reportLateSend]

theorem sendTimeout (h : s.Keeps t still) (c id) : s.Keeps (t.sendTimeout c id) still := by
  unfold State.sendTimeout
  grind [finish, modCore, reportLateSend]

theorem addDup (h : s.Keeps t still) (p status full) : s.Keeps (t.addDup p status full) still := h

theorem msgStatus (h : s.Keeps t still) (src status full) : s.Keeps (t.msgStatus src status full) still := by
  unfold State.msgStatus
  grind [addDup, modUd, sendAck, sendStatus]

theorem listSender (h : s.Keeps t still) (c q src) : s.Keeps (t.listSender c q src) still := by
  unfold State.listSender
  grind [modCore]

theorem flushNow (h : s.Keeps t still) (c q) : s.Keeps (t.flushNow c q) still :=
  (h.changeQueue c q _).foldl (fun _ r hu => by grind [finish]) _

theorem requestFlush (h : s.Keeps t still) (c q) : s.Keeps (t.requestFlush c q) still := by
  unfold State.requestFlush
  grind [flushNow, modCore]

theorem dropLocal (h : s.Keeps t still) (m) : s.Keeps (t.dropLocal m) still := h

theorem offer (h : s.Keeps t still) (m) : s.Keeps (t.offer m).1 still := by
  unfold State.offer
  grind [listSender, modCore, msgStatus]

theorem enter (h : s.Keeps t still) (m n) : s.Keeps (t.enter m n) still := by
  unfold State.enter
  grind [flushNow, listSender, mkStill, modCore, msgStatus]

theorem arrive (h : s.Keeps t still) (c q n) : s.Keeps (t.arrive c q n) still := by
  unfold State.arrive
  grind [dropLocal, enter, offer]

theorem sendNow (h : s.Keeps t still) (c q src dev core queue len sched tag) : s.Keeps (t.sendNow c q src dev core queue len sched tag) still := by
  unfold State.sendNow
  grind [finish, mkStill, modCore, newReq, readySched, reportLateSend, start]

theorem msgHead (h : s.Keeps t still) (c) : ∀ t', t.msgHead c = some t' → s.Keeps t' still := by
  have received (q a b ws n k f id sg) :
      s.Keeps (((((t.start c .msg q).homeWrites a ws n).1.changeQueue c k f).finish c .msg id sg b)) still :=
    (((h.start c .msg q).homeWrites a ws n).changeQueue c k f).finish c .msg id sg b
  unfold State.msgHead
  grind [modCore, sendNow, start, changeQueue, finish, requestFlush, skipExec]

theorem pumpMsg (h : s.Keeps t still) (c n) : s.Keeps (State.pumpMsg c n t) still := by
  induction n generalizing t with
  | zero => exact h
  | succ n ih =>
    have dropped := h.dropNulls c .msg 32
    unfold State.pumpMsg
    dsimp only
    split
    · next hs => exact ih (dropped.msgHead c _ hs)
    · exact dropped

theorem sendHeld (h : s.Keeps t still) (c) : s.Keeps (t.sendHeld c) still := by
  unfold State.sendHeld
  grind [modCore, sendNow]

/-! ## Engines -/

theorem readDesc (h : s.Keeps t still) (q) : s.Keeps (t.readDesc q) still := by
  unfold State.readDesc
  grind [noteReads]

theorem pfFill (h : s.Keeps t still) (c) : s.Keeps (t.pfFill c) still := h

theorem prefetchOp (h : s.Keeps t still) (c r) : s.Keeps (t.prefetchOp c r) still := by
  unfold State.prefetchOp
  grind [modCache, pfFill]

theorem pfTick (h : s.Keeps t still) (c) : s.Keeps (t.pfTick c) still := by
  unfold State.pfTick
  grind [modCache, pfFill]

theorem pfEnd (h : s.Keeps t still) (c id) : s.Keeps (t.pfEnd c id) still := h

theorem launch (h : s.Keeps t still) (c u r) : s.Keeps (t.launch c u r) still := by
  unfold State.launch
  grind [prefetchOp, readDesc, start]

theorem skipHead (h : s.Keeps t still) (c u q cause) : s.Keeps (t.skipHead c u q cause) still := by
  unfold State.skipHead
  grind [readDesc, skipExec, start]

theorem setPlane (h : s.Keeps t still) (c i p) : s.Keeps (t.setPlane c i p) still := h

theorem emptyPlanes (h : s.Keeps t still) (c) : s.Keeps (t.emptyPlanes c) still := h

theorem rowsIn (h : s.Keeps t still) (c plane) : s.Keeps (t.rowsIn c plane) still := h

theorem startLdw (h : s.Keeps t still) (c) : s.Keeps (t.startLdw c) still := by
  unfold State.startLdw
  grind [launch, rowsIn, setPlane]

theorem streamsIn (h : s.Keeps t still) (c) : s.Keeps (t.streamsIn c) still := h

theorem startStream (h : s.Keeps t still) (c) : s.Keeps (t.startStream c) still := by
  unfold State.startStream
  grind [launch, skipHead, streamsIn]

theorem startWgrad (h : s.Keeps t still) (c) : s.Keeps (t.startWgrad c) still := by
  unfold State.startWgrad
  grind [launch, skipHead]

theorem startVec (h : s.Keeps t still) (c) : s.Keeps (t.startVec c) still := by
  unfold State.startVec
  grind [launch, skipHead]

theorem startRow (h : s.Keeps t still) (c) : s.Keeps (t.startRow c) still := by
  unfold State.startRow
  grind [launch, skipHead]

theorem startAtt (h : s.Keeps t still) (c) : s.Keeps (t.startAtt c) still := by
  unfold State.startAtt
  grind [launch, skipHead]

theorem startGath (h : s.Keeps t still) (c) : s.Keeps (t.startGath c) still := by
  unfold State.startGath
  grind [readDesc, skipHead, start]

theorem startCopy (h : s.Keeps t still) (c m) : s.Keeps (t.startCopy c m) still := by
  unfold State.startCopy
  grind [launch, modRun, pfEnd, pumpCopies, runCopy1, runCopyLocal, skipHead, skipRsig]

theorem commit (h : s.Keeps t still) (c u q e plan res) : s.Keeps (t.commit c u q e plan res) still := by
  unfold State.commit
  exact (((foldl ((h.noteHinted _).homeWrites _ _ _) (fun _ a hu => hu.poisonAt _ a 0) _).countNum c e _).pfEnd c _).finish c u _ _ _

theorem finishGath (h : s.Keeps t still) (c q err cause) : s.Keeps (t.finishGath c q err cause) still := by
  unfold State.finishGath
  grind [finish, skipExec]

theorem complete (h : s.Keeps t still) (c u r) : s.Keeps (t.complete c u r) still := by
  unfold State.complete
  grind [cacheRange, commit, emptyPlanes, finish, finishGath, modAtt, pfEnd, recordSkip, reportLate, runAtt, runGather, runRowBwd,
    runRowFwd, runStatFree, runWalk, sendRsig, setPlane]

theorem completeAt (h : s.Keeps t still) (c u i) : s.Keeps (t.completeAt c u i) still := by
  unfold State.completeAt
  grind [complete]

/-! ## Seq -/

theorem endWait (h : s.Keeps t still) (c err tmo sg) : s.Keeps (t.endWait c err tmo sg) still := by
  unfold State.endWait
  grind [modCore, signal]

theorem timeoutWait (h : s.Keeps t still) (c) : s.Keeps (t.timeoutWait c) still := by
  unfold State.timeoutWait
  grind [endWait, modCore]

theorem regionBegin (h : s.Keeps t still) (c r) : s.Keeps (t.regionBegin c r).1 still := by
  unfold State.regionBegin
  grind [modCore]

theorem regionEnd (h : s.Keeps t still) (c r plan) : s.Keeps (t.regionEnd c r plan).1 still := by
  unfold State.regionEnd
  grind [logBudget, modCore]

theorem setGr (h : s.Keeps t still) (c i v) : s.Keeps (t.setGr c i v) still := h

theorem scalar (h : s.Keeps t still) (c w a n) : s.Keeps (t.scalar c w a n).1 still := by
  unfold State.scalar
  grind [atomAt, homeWrite, loadHbm, setGr, storeHbm]

theorem bumpId (h : s.Keeps t still) (c) : s.Keeps (t.bumpId c) still := h

theorem wakeClocks (h : s.Keeps t still) (c u q) : s.Keeps (t.wakeClocks c u q) still := by
  unfold State.wakeClocks
  extract_lets fast soon
  split
  · exact h
  · exact h

theorem enqueue (h : s.Keeps t still) (c u q) : s.Keeps (t.enqueue c u q) still := by
  unfold State.enqueue
  grind [bumpId, modCore, wakeClocks]

theorem skipWord (h : s.Keeps t still) (c record null u cause atOnce) : s.Keeps (t.skipWord c record null u cause atOnce) still := by
  unfold State.skipWord
  grind [enqueue, recordSkip, signal]

theorem endProgram (h : s.Keeps t still) (c) : s.Keeps (t.endProgram c) still := h

theorem issueSeq (h : s.Keeps t still) (c d bcast) : Keeps.Issued s (t.issueSeq c d bcast) still := by
  unfold State.issueSeq
  grind [issued, issued_stalled, signal, skipWord, modCore, endProgram, scalar, run, bumpId, regionBegin, regionEnd]

theorem noteLdw (h : s.Keeps t still) (c op) : s.Keeps (t.noteLdw c op) still := by
  unfold State.noteLdw
  grind [modCore]

theorem issueEngine (h : s.Keeps t still) (c d la bcast) : Keeps.Issued s (t.issueEngine c d la bcast) still := by
  unfold State.issueEngine
  grind [issued, issued_stalled, skipWord, modCore, noteLdw, enqueue]

theorem issueMarked (h : s.Keeps t still) (c d bcast) : Keeps.Issued s (t.issueMarked c d bcast) still := by
  unfold State.issueMarked
  grind [issued, issued_stalled, skipWord, recordSkip, endProgram]

theorem tookWords (h : s.Keeps t still) (c n bcast) : s.Keeps (t.tookWords c n bcast) still := h

theorem issueOne (h : s.Keeps t still) (c) : s.Keeps (t.issueOne c).1 still := by
  unfold State.issueOne
  have stalled (c why) : s.Keeps (t.modCore c (fun k => k.modSeq (fun x => { x with stall := why }))) still := h.modCore c _
  dsimp only
  split
  · exact h
  · split
    · split <;> exact h.endWait c _ _ _
    · split
      · exact h
      · split
        · next u hi =>
          refine tookWords ((show Keeps.Issued s _ still from ?_) u hi) c _ _
          grind [issueMarked, issueEngine, issueSeq, issued_stalled]
        · exact stalled _ _

theorem engineSide (h : s.Keeps t still) (c) : s.Keeps (t.engineSide c) still := by
  unfold State.engineSide
  have dropped := h.foldl (fun _ u hu => hu.dropNulls c u 16) (engUnits.filter (fun u => !((t.core c).eng u).queue.isEmpty))
  grind [pumpMsg, startGath]

theorem settleCore (h : s.Keeps t still) (c n) : s.Keeps (State.settleCore c n t) still := by
  induction n generalizing t with
  | zero => exact h
  | succ n ih =>
    unfold State.settleCore
    grind [engineSide, issueOne]

theorem repin (h : s.Keeps t still) : s.Keeps (t.repin) still := h

theorem closeRings (h : s.Keeps t still) (p) : s.Keeps (t.closeRings p) still := h

theorem releaseSlots (h : s.Keeps t still) (p) : s.Keeps (t.releaseSlots p) still := by
  unfold State.releaseSlots
  grind [modTime]

theorem checkEnd (h : s.Keeps t still) : s.Keeps (t.checkEnd) still :=
  (h.foldl (fun _ c hu => hu.modCore c _) _).foldl (fun _ p hu => ((hu.closeRings p).releaseSlots p).modPart p _) _

theorem settle (h : s.Keeps t still) : s.Keeps (t.settle) still := by
  have pass {u : State} (hu : s.Keeps u still) :
      s.Keeps (((List.range 8).filter (fun c => !(u.core c).quiet)).foldl (fun s c => State.settleCore c 160 s) u) still :=
    hu.foldl (fun _ c hv => hv.settleCore c 160) _
  unfold State.settle
  split
  · exact h
  · exact (pass (pass (pass h))).checkEnd

theorem ringSend (h : s.Keeps t) (c ds) : s.Keeps (t.ringSend c ds) :=
  h.foldl (fun _ d hu => (hu.modCore d _).modCore c _) _

theorem holdRing (h : s.Keeps t) (c n) : s.Keeps (t.holdRing c n) :=
  h.foldl (fun _ d hu => by grind [modCore]) _

theorem setPc (h : s.Keeps t) (c pc) : s.Keeps (t.setPc c pc) := h

/-- The module settles after a word that issues, and stays as it was after one that stalls. -/
theorem settle_issued {u : State} (hu : s.Keeps u) (i : Machine.Issued) :
    Keeps.Issued s i → s.Keeps (match i with | .done_ v => v.settle | .stalled _ => u) := by
  intro hi
  cases i with
  | done_ v => exact (hi v rfl).settle
  | stalled _ => exact hu

theorem fetch (h : s.Keeps t) (c w) : s.Keeps (t.fetch c w) := by
  have sent (ds n f) : s.Keeps (((t.ringSend c ds).setPc c n).modCore c f) := ((h.ringSend c ds).setPc c n).modCore c f
  unfold State.fetch
  dsimp only
  split
  · exact h
  · split
    · split
      · split
        · exact h
        · split
          · exact h.holdRing c _
          · refine settle_issued (sent _ _ _) _ ?_
            split
            · exact (sent _ _ _).issueMarked c _ _
            · exact (sent _ _ _).issueSeq c _ _
      · split
        · exact h.holdRing c _
        · exact (sent _ _ _).settle
    · split
      · exact h
      · exact ((h.setPc c _).modCore c _).settle

theorem fetchBeyond (h : s.Keeps t) (c) : s.Keeps (t.fetchBeyond c) := by
  unfold State.fetchBeyond
  grind [holdRing, modCore, ringSend, settle]

theorem deliver (h : s.Keeps t) (c) : s.Keeps (t.deliver c) := by
  unfold State.deliver
  grind [modCore, settle]

theorem creditReturn (h : s.Keeps t) (c) : s.Keeps (t.creditReturn c) := by
  unfold State.creditReturn
  grind [modCore]

/-! ## Bullock -/

theorem udEvent {still : Bool} (h : s.Keeps t still) (u p code detail) : s.Keeps (t.udEvent u p code detail) still := h.log _

theorem failCmd (h : s.Keeps t) (u p cause entry) : s.Keeps (t.failCmd u p cause entry) := h

theorem holdCmd (h : s.Keeps t) (u p layer units cmd res) : s.Keeps (t.holdCmd u p layer units cmd res) :=
  (foldl (foldl (h.modUd u _) (fun _ _ hv => hv.udEvent u p _ _) _) (fun _ _ hv => hv.udEvent u p _ _) _)

theorem noteData (h : s.Keeps t) (rs) : s.Keeps (t.noteData rs) := by
  unfold State.noteData
  grind [noteReadsOf]

theorem readCmd (h : s.Keeps t) (u p) : s.Keeps (t.readCmd u p).1 := by
  unfold State.readCmd
  grind [noteReads]

theorem beginCmd (h : s.Keeps t) (u p cause b sig) : s.Keeps (t.beginCmd u p cause b sig) := by
  unfold State.beginCmd
  grind [failCmd, modUd]

theorem beginBad (h : s.Keeps t) (u p b) : s.Keeps (t.beginBad u p b) := by
  unfold State.beginBad
  grind [MemSys.Wf.mk, withMs, beginCmd, modMs]

theorem startUpdate (h : s.Keeps t) (u p b) : s.Keeps (t.startUpdate u p b) := by
  have lent (u n) {m : MemSys} (hm : m.Wf) : ((m.borrow (2 * u) n).borrow (2 * u + 1) n).Wf := (hm.borrow _ n).borrow _ n
  unfold State.startUpdate
  grind [noteData, beginCmd, holdCmd, modMs]

theorem startRoot (h : s.Keeps t) (u p b) : s.Keeps (t.startRoot u p b) := by
  unfold State.startRoot
  grind [beginCmd, holdCmd, noteData]

theorem takeCmd (h : s.Keeps t) (u root) : s.Keeps (t.takeCmd u root) := by
  unfold State.takeCmd
  grind [beginBad, beginCmd, readCmd, startRoot, startUpdate]

theorem quietEvent (h : s.Keeps t) (u p kind layer count bp total nz) : s.Keeps (t.quietEvent u p kind layer count bp total nz) := by
  unfold State.quietEvent
  grind [mk, modUd, udEvent]

theorem judge (h : s.Keeps t) (u p layer) : s.Keeps (t.judge u p layer) := by
  unfold State.judge
  grind [modUd, quietEvent]

theorem udWrite {still : Bool} (h : s.Keeps t still) (a bs) : s.Keeps (t.udWrite a bs).1 still := by
  unfold State.udWrite
  grind [MemSys.Wf.storeBytes, dropPrefetch, logs, mkStill, storeBytes]

theorem udWrites {still : Bool} (h : s.Keeps t still) (ws) : s.Keeps (t.udWrites ws).1 still := by
  refine foldl_fst (x := (t, false)) h ?_ _
  exact fun _ w hy => hy.udWrite w.1 w.2

theorem giveBack {still : Bool} (h : s.Keeps t still) (u) : s.Keeps (t.giveBack u) still := h

theorem retireCmd (h : s.Keeps t) (u) : s.Keeps (t.retireCmd u) := by
  unfold State.retireCmd
  split
  · exact h
  · have headed (ws f a bs) : s.Keeps (((t.udWrites ws).1.modUd u f).udWrite a bs).1 := ((h.udWrites ws).modUd u f).udWrite a bs
    grind [modUd, giveBack, bumpCc, judge]

theorem partialWrites {still : Bool} (h : s.Keeps t still) (ws) : s.Keeps (t.partialWrites ws) still := by
  unfold State.partialWrites
  grind [mkStill, udWrites]

theorem dropCmd {still : Bool} (h : s.Keeps t still) (u p) : s.Keeps (t.dropCmd u p) still := by
  unfold State.dropCmd
  grind [giveBack, modUd, partialWrites]

theorem execQlmCtrlWrite_keeps (h : s.Keeps t) (u v) : Keeps.Out s (execQlmCtrlWrite u v t) := by
  unfold execQlmCtrlWrite
  grind [modUd, next]

theorem execArbWrite_keeps (h : s.Keeps t) (u v) : Keeps.Out s (execArbWrite u v t) := by
  unfold execArbWrite
  grind [modUd, next]

theorem execDoorbellWrite_keeps (h : s.Keeps t) (u p tail) : Keeps.Out s (execDoorbellWrite u p tail t) := by
  unfold execDoorbellWrite
  grind [homeWrite, next]

theorem execUpdate_keeps (h : s.Keeps t) (u) : Keeps.Out s (execUpdate u t) := by
  unfold execUpdate
  grind [takeCmd, next]

theorem execRoot_keeps (h : s.Keeps t) (u) : Keeps.Out s (execRoot u t) := by
  unfold execRoot
  grind [takeCmd, next]

theorem execBullockRetire_keeps (h : s.Keeps t) (u) : Keeps.Out s (execBullockRetire u t) := by
  unfold execBullockRetire
  grind [retireCmd, settle, next]

end Sys2Proof.Machine.State.Keeps
end

section
/-! PROOFS. What the functions of EngRows, TimeOps, FabricLink, Time, FabricPackets keep. -/

namespace Sys2Proof.Machine.State.Keeps

set_option Elab.async false -- in turn: each proof waits for lemmas before it, and many waiting threads need much memory

variable {s t : State}

/-! ## EngRows -/

theorem execRowOpStart_keeps (h : s.Keeps t) (c) : Keeps.Out s (execRowOpStart c t) := by
  unfold execRowOpStart
  grind [settle, startRow, next]

theorem execAttOpStart_keeps (h : s.Keeps t) (c) : Keeps.Out s (execAttOpStart c t) := by
  unfold execAttOpStart
  grind [settle, startAtt, next]

theorem execMuleCopyStart_keeps (h : s.Keeps t) (c m) : Keeps.Out s (execMuleCopyStart c m t) := by
  unfold execMuleCopyStart
  grind [settle, startCopy, next]

theorem execSendWaitLimit_keeps (h : s.Keeps t) (c) : Keeps.Out s (execSendWaitLimit c t) := by
  unfold execSendWaitLimit
  grind [sendHeld, settle, next]

theorem execLocalMessageArrival_keeps (h : s.Keeps t) (c q n) : Keeps.Out s (execLocalMessageArrival c q n t) := by
  unfold execLocalMessageArrival
  grind [arrive, settle, next]

theorem execStatusTimeout_keeps (h : s.Keeps t) (c id) : Keeps.Out s (execStatusTimeout c id t) := by
  unfold execStatusTimeout
  grind [sendTimeout, settle, next]

theorem startUnit (h : s.Keeps t) (c u) : s.Keeps (t.startUnit c u) := by
  unfold State.startUnit
  grind [startAtt, startCopy, startGath, startLdw, startRow, startStream, startVec, startWgrad]

theorem execLaunchTimeReached_keeps (h : s.Keeps t) (c u) : Keeps.Out s (execLaunchTimeReached c u t) := by
  unfold execLaunchTimeReached
  grind [modTime, settle, startUnit, next]

theorem execOperationComplete_keeps (h : s.Keeps t) (c u i) : Keeps.Out s (execOperationComplete c u i t) := by
  unfold execOperationComplete
  grind [completeAt, settle, next]

/-! ## TimeOps -/

theorem atFt (h : s.Keeps t) (ft) : s.Keeps (t.atFt ft) := by
  unfold State.atFt
  grind [modTime]

theorem follow (h : s.Keeps t) (k) : s.Keeps (t.follow k) := h

theorem followNone (h : s.Keeps t) : s.Keeps (t.followNone) := by
  unfold State.followNone
  grind [modTime]

theorem chooseUp (h : s.Keeps t) : s.Keeps (t.chooseUp) := by
  unfold State.chooseUp
  grind [follow, followNone]

theorem actAsSource (h : s.Keeps t) : s.Keeps (t.actAsSource) := h

theorem setAligned (h : s.Keeps t) (b) : s.Keeps (t.setAligned b) := by
  unfold State.setAligned
  grind [log, modTime]

theorem retime (h : s.Keeps t) : s.Keeps (t.retime) := by
  unfold State.retime
  grind [chooseUp, setAligned]

/-! ## FabricLink -/

theorem pumpNotice (h : s.Keeps t) (n) : s.Keeps (State.pumpNotice n t) := by
  induction n generalizing t with
  | zero => exact h
  | succ n ih =>
    unfold State.pumpNotice
    grind [modFab, newReq]

theorem pumpNotices (h : s.Keeps t) : s.Keeps (t.pumpNotices) := by
  unfold State.pumpNotices
  grind [pumpNotice]

theorem unreachHere (h : s.Keeps t) (p x2) : s.Keeps (t.unreachHere p x2) := by
  unfold State.unreachHere
  grind [modFab, sendUnreach]

theorem flushTrunk (h : s.Keeps t) (x1) : s.Keeps (t.flushTrunk x1) :=
  (h.modFab _).foldl (fun _ w hu => by grind [returnCredits, modFab, resend, unreachHere]) _

theorem trunkLost (h : s.Keeps t) (x1) : s.Keeps (t.trunkLost x1) := by
  unfold State.trunkLost
  grind [flushTrunk, modFab, pumpNotices]

theorem trunkBack (h : s.Keeps t) (x1) : s.Keeps (t.trunkBack x1) := by
  unfold State.trunkBack
  grind [modFab, pumpNotices, pumpTrunk]

theorem abortOn (h : s.Keeps t) (k j bs) : s.Keeps (t.abortOn k j bs) := by
  unfold State.abortOn
  grind [modLane, pumpTrunk]

theorem cutOff (h : s.Keeps t) (k) : s.Keeps (t.cutOff k) := by
  unfold State.cutOff
  grind [abortOn, modLane]

theorem laneDown (h : s.Keeps t) (k next) : s.Keeps (t.laneDown k next) := by
  unfold State.laneDown
  grind [cutOff, modLane, retime, trunkLost]

theorem countRetrain (h : s.Keeps t) (k) : s.Keeps (t.countRetrain k) := h

theorem startTrain (h : s.Keeps t) (k) : s.Keeps (t.startTrain k) := by
  unfold State.startTrain
  grind [laneDown]

theorem retrainLane (h : s.Keeps t) (k) : s.Keeps (t.retrainLane k) := by
  unfold State.retrainLane
  grind [countRetrain, startTrain]

theorem sendHello (h : s.Keeps t) (k) : s.Keeps (t.sendHello k) := h

theorem relock (h : s.Keeps t) (k) : s.Keeps (t.relock k) := by
  unfold State.relock
  grind [countRetrain, laneDown, sendHello]

theorem dueHello (h : s.Keeps t) (k) : s.Keeps (t.dueHello k) := h

theorem wavesLost (h : s.Keeps t) (k los) : s.Keeps (t.wavesLost k los) := by
  unfold State.wavesLost
  grind [dueHello, relock, retrainLane, sendHello]

theorem helloAll (h : s.Keeps t) : s.Keeps (t.helloAll) :=
  h.foldl (fun _ k hu => by grind [sendHello, dueHello]) _

theorem laneUp (h : s.Keeps t) (k) : s.Keeps (t.laneUp k) := by
  unfold State.laneUp
  grind [modLane, retime, trunkBack]

theorem wakeLane (h : s.Keeps t) (k) : s.Keeps (t.wakeLane k) := by
  unfold State.wakeLane
  grind [modLane, pumpTrunk, sendHello]

theorem wakeAll (h : s.Keeps t) : s.Keeps (t.wakeAll) :=
  h.foldl (fun _ k hu => hu.wakeLane k) _

theorem ownSource (h : s.Keeps t) : s.Keeps (t.ownSource) := h

theorem helloPassed (h : s.Keeps t) (k x2) : s.Keeps (t.helloPassed k x2) := by
  unfold State.helloPassed
  grind [countRetrain, laneDown, modLane, relock, wakeLane]

theorem helloIn (h : s.Keeps t) (k payload) : s.Keeps (t.helloIn k payload) := by
  unfold State.helloIn
  grind [helloAll, helloPassed, laneDown, log, modFab, modLane, ownSource]

theorem writeLaneCtrl (h : s.Keeps t) (k v) : s.Keeps (t.writeLaneCtrl k v) := by
  unfold State.writeLaneCtrl
  grind [laneDown, modLane, retrainLane, startTrain]

theorem writeInjCtrl (h : s.Keeps t) (v) : s.Keeps (t.writeInjCtrl v) := by
  unfold State.writeInjCtrl
  have begun (f : FabBlk → FabBlk) : s.Keeps ((List.range 64).foldl (fun s k => s.modLane k (fun l => { l with injCount := 0 }))
      ((t.modFab f).modSec (fun x => { x with injUsed := true }))) :=
    ((h.modFab f).modSec .of_eq).foldl (fun _ k hu => hu.modLane k _) _
  split
  · exact h.modFab _
  · dsimp only
    split
    · split
      · exact (begun _).log _
      · exact (begun _).logs _
    · exact h.modFab _

theorem writeInjSeed (h : s.Keeps t) (v) : s.Keeps (t.writeInjSeed v) := h

theorem writeLaneInj (h : s.Keeps t) (k v) : s.Keeps (t.writeLaneInj k v) := by
  unfold State.writeLaneInj
  grind [log, modFab, modLane]

theorem execFmapWrite_keeps (h : s.Keeps t) (i v) : Keeps.Out s (execFmapWrite i v t) := by
  unfold execFmapWrite
  grind [modFab, next]

theorem execRetrain_keeps (h : s.Keeps t) (k v) : Keeps.Out s (execRetrain k v t) := by
  unfold execRetrain
  grind [settle, writeLaneCtrl, next]

theorem execInjCtrlWrite_keeps (h : s.Keeps t) (v) : Keeps.Out s (execInjCtrlWrite v t) := by
  unfold execInjCtrlWrite
  grind [writeInjCtrl, next]

theorem execInjSeedWrite_keeps (h : s.Keeps t) (v) : Keeps.Out s (execInjSeedWrite v t) := by
  unfold execInjSeedWrite
  grind [writeInjSeed, next]

theorem execLaneInjWrite_keeps (h : s.Keeps t) (k v) : Keeps.Out s (execLaneInjWrite k v t) := by
  unfold execLaneInjWrite
  grind [writeLaneInj, next]

theorem lightUp (h : s.Keeps t) : s.Keeps (t.lightUp) :=
  (h.modFab _).foldl (fun _ k hu => by grind [startTrain]) _

theorem execLsuFault_keeps (h : s.Keeps t) (u removed) : Keeps.Out s (execLsuFault u removed t) :=
  next ((h.modFab _).foldl (fun _ k hu => hu.laneDown k _) _).settle

theorem execLsuReady_keeps (h : s.Keeps t) (u) : Keeps.Out s (execLsuReady u t) :=
  next ((h.modFab _).foldl (fun _ k hu => by grind [startTrain]) _)

theorem execLaneBringUp_keeps (h : s.Keeps t) (k mask) : Keeps.Out s (execLaneBringUp k mask t) := by
  unfold execLaneBringUp
  grind [laneUp, modLane, pumpCopies, sendHello, settle, wavesLost, next]

theorem execBringUpTimeout_keeps (h : s.Keeps t) (k) : Keeps.Out s (execBringUpTimeout k t) := by
  unfold execBringUpTimeout
  grind [countRetrain, laneDown, next]

theorem execLaneRetryTimer_keeps (h : s.Keeps t) (k) : Keeps.Out s (execLaneRetryTimer k t) := by
  unfold execLaneRetryTimer
  grind [startTrain, next]

theorem execLossOfSignal_keeps (h : s.Keeps t) (k w) : Keeps.Out s (execLossOfSignal k w t) := by
  unfold execLossOfSignal
  grind [modLane, settle, wavesLost, next]

theorem execLaneWidthLoss_keeps (h : s.Keeps t) (k) : Keeps.Out s (execLaneWidthLoss k t) := by
  unfold execLaneWidthLoss
  grind [retrainLane, settle, next]

theorem execListenEntry_keeps (h : s.Keeps t) (k) : Keeps.Out s (execListenEntry k t) := by
  unfold execListenEntry
  grind [modLane, next]

theorem execListenWake_keeps (h : s.Keeps t) (k) : Keeps.Out s (execListenWake k t) := by
  unfold execListenWake
  grind [settle, wakeLane, next]

theorem execHelloReceived_keeps (h : s.Keeps t) (k payload) : Keeps.Out s (execHelloReceived k payload t) := by
  unfold execHelloReceived
  grind [helloIn, settle, next]

theorem execHelloTimer_keeps (h : s.Keeps t) : Keeps.Out s (execHelloTimer t) := by
  unfold execHelloTimer
  split
  · exact next h
  · exact next (h.foldl (fun _ k hu => by grind [sendHello]) _)

/-! ## Time -/

theorem sendTime (h : s.Keeps t) (k) : s.Keeps (t.sendTime k) := by
  unfold State.sendTime
  grind [laneSend, modLane]

theorem timeTick (h : s.Keeps t) : s.Keeps (t.timeTick) :=
  h.foldl (fun _ k hu => by grind [sendTime]) _

theorem frameTick (h : s.Keeps t) : s.Keeps (t.frameTick) := by
  unfold State.frameTick
  dsimp only
  split
  · exact h.modFab _
  · exact ((h.modFab _).modFab _).foldl (fun _ k hu => by grind [modLane]) _

theorem waitTick (h : s.Keeps t) : s.Keeps (t.waitTick) :=
  (h.foldl (fun _ k hu => by grind [releaseHeld]) _).foldl (fun _ k hu => by grind [pumpTrunk]) _

theorem timeIn (h : s.Keeps t) (k p mk) : s.Keeps (t.timeIn k p mk) := by
  unfold State.timeIn
  grind [chooseUp, modLane, modTime, setAligned]

theorem pulse (h : s.Keeps t) (capt) : s.Keeps (t.pulse capt) := by
  unfold State.pulse
  grind [actAsSource, log, modTime, retime]

theorem pulseMissing (h : s.Keeps t) : s.Keeps (t.pulseMissing) := by
  unfold State.pulseMissing
  grind [log, modTime, retime]

theorem fallBack (h : s.Keeps t) (x cause) : s.Keeps (t.fallBack x cause) := by
  unfold State.fallBack
  grind [modCore, modRun, modTime, sendReq]

theorem dropSched (h : s.Keeps t) (xid) : s.Keeps (t.dropSched xid) := h

theorem sendSched (h : s.Keeps t) (x) : s.Keeps (t.sendSched x) := by
  unfold State.sendSched
  grind [dropSched, fallBack, laneSend]

theorem execTimePacketTimer_keeps (h : s.Keeps t) : Keeps.Out s (execTimePacketTimer t) := by
  unfold execTimePacketTimer
  split
  · exact next h
  · exact next (h.foldl (fun _ k hu => (hu.modLane k _).sendTime k) _)

theorem execTimePacketReceived_keeps (h : s.Keeps t) (k payload) : Keeps.Out s (execTimePacketReceived k payload t) := by
  unfold execTimePacketReceived
  grind [settle, timeIn, next]

theorem execUpstreamStale_keeps (h : s.Keeps t) : Keeps.Out s (execUpstreamStale t) := by
  unfold execUpstreamStale
  grind [modTime, setAligned, next]

theorem execHoldoverAlignExpiry_keeps (h : s.Keeps t) : Keeps.Out s (execHoldoverAlignExpiry t) := by
  unfold execHoldoverAlignExpiry
  grind [setAligned, next]

theorem execPpsEdge_keeps (h : s.Keeps t) (capt) : Keeps.Out s (execPpsEdge capt t) := by
  unfold execPpsEdge
  grind [modPins, pulse, settle, next]

theorem execPpsMissing_keeps (h : s.Keeps t) : Keeps.Out s (execPpsMissing t) := by
  unfold execPpsMissing
  grind [pulseMissing, next]

theorem execSlotEntryWrite_keeps (h : s.Keeps t) (hi v) : Keeps.Out s (execSlotEntryWrite hi v t) := by
  unfold execSlotEntryWrite
  grind [modTime, next]

theorem execScheduledPacketSend_keeps (h : s.Keeps t) (xid) : Keeps.Out s (execScheduledPacketSend xid t) := by
  unfold execScheduledPacketSend
  grind [sendSched, next]

/-! ## FabricPackets -/

theorem hdrErr (h : s.Keeps t) : s.Keeps (t.hdrErr) := h

theorem poisonUnits (h : s.Keeps t) (own a n hint) : s.Keeps (t.poisonUnits own a n hint) :=
  h.foldl (fun _ _ hu => hu.poisonAt own _ hint) _

theorem storePoison (h : s.Keeps t) (own p hint) : s.Keeps (t.storePoison own p hint) := by
  unfold State.storePoison
  grind [modFab, poisonUnits]

theorem writeIn (h : s.Keeps t) (p) : s.Keeps (t.writeIn p) := by
  unfold State.writeIn
  grind [homeWrite, sendAck, storePoison]

theorem readIn (h : s.Keeps t) (p) : s.Keeps (t.readIn p) := by
  unfold State.readIn
  grind [noteReads, sendAck, sendResp]

theorem dupCheck (h : s.Keeps t) (p) : ∀ t', t.dupCheck p = some t' → s.Keeps t' := by
  unfold State.dupCheck
  grind [modFab, sendAck]

theorem signalIn (h : s.Keeps t) (p) : s.Keeps (t.signalIn p) := by
  unfold State.signalIn
  grind [addDup, dupCheck, remoteSignal, sendAck]

theorem msgIn (h : s.Keeps t) (p) : s.Keeps (t.msgIn p) := by
  unfold State.msgIn
  grind [arrive, dupCheck, mk]

theorem noticeIn (h : s.Keeps t) (p) : s.Keeps (t.noticeIn p) := by
  unfold State.noticeIn
  grind [modFab, sendAck]

theorem dropOut (h : s.Keeps t) (xid) : s.Keeps (t.dropOut xid) := h

theorem lateAck (h : s.Keeps t) (p) : s.Keeps (t.lateAck p) := by
  unfold State.lateAck
  grind [modFab, sendStatus]

theorem ackIn (h : s.Keeps t) (p) : s.Keeps (t.ackIn p) := by
  unfold State.ackIn
  grind [dropOut, lateAck, modFab, ownerDone, resend, sendStatus]

theorem respIn (h : s.Keeps t) (p) : s.Keeps (t.respIn p) := by
  unfold State.respIn
  grind [dropOut, homeWrite, ownerDone, storePoison]

theorem creditIn (h : s.Keeps t) (p) : s.Keeps (t.creditIn p) := h

theorem deliverPacket (h : s.Keeps t) (p) : s.Keeps (t.deliverPacket p) := by
  unfold State.deliverPacket
  grind [ackIn, creditIn, modFab, msgIn, noticeIn, pumpCopies, pumpNotices, readIn, respIn, settle, signalIn, writeIn]

theorem forward (h : s.Keeps t) (p x2 inLane fb) : s.Keeps (t.forward p x2 inLane fb) := by
  unfold State.forward
  grind [queueTrunk, returnCredits, unreachHere]

theorem countPcrc (h : s.Keeps t) (p) : s.Keeps (t.countPcrc p) := by
  unfold State.countPcrc
  grind [modFab]

theorem fallPump (h : s.Keeps t) (x1) : s.Keeps (t.fallPump x1) := by
  unfold State.fallPump
  grind [flushTrunk, pumpTrunk]

theorem hop (h : s.Keeps t) (k p a) : s.Keeps (t.hop k p a) := by
  unfold State.hop
  grind [countPcrc, fallPump, forward, laneSend, transitFalls]

theorem packetIn (h : s.Keeps t) (k p a m) : s.Keeps (t.packetIn k p a m) := by
  unfold State.packetIn
  grind [countPcrc, deliverPacket, hdrErr, helloIn, hop, modFab, returnCredits, timeIn]

theorem beginForward (h : s.Keeps t) (k p a) : s.Keeps (t.beginForward k p a) := by
  unfold State.beginForward
  grind [modLane, occupyAt]

theorem wholeIn (h : s.Keeps t) (k p a) : s.Keeps (t.wholeIn k p a) := by
  unfold State.wholeIn
  grind [countPcrc, fallPump, laneSend, modLane, packetIn, pumpTrunk, returnCredits, transitFalls]

theorem abortIn (h : s.Keeps t) (k) : s.Keeps (t.abortIn k) := by
  unfold State.abortIn
  grind [abortOn, modLane, returnCredits]

theorem blockIn (h : s.Keeps t) (k a m b) : s.Keeps (State.blockIn k a m t b) := by
  unfold State.blockIn
  grind [abortIn, beginForward, modLane, wholeIn]

theorem takeBlocks (h : s.Keeps t) (k old) : s.Keeps (t.takeBlocks k old) :=
  (h.modLane k _).foldl (fun _ b hu => hu.blockIn k _ _ b.1) _

theorem goodFrame (h : s.Keeps t) (k seq ws) : s.Keeps (t.goodFrame k seq ws) := by
  unfold State.goodFrame
  grind [modLane, pumpTrunk, retrainLane, takeBlocks]

theorem dropWaves (h : s.Keeps t) (k) : s.Keeps (t.dropWaves k) := by
  unfold State.dropWaves
  grind [modLane, wavesLost]

theorem frameIn (h : s.Keeps t) (k seq frames) : s.Keeps (t.frameIn k seq frames) := by
  unfold State.frameIn
  grind [dropWaves, goodFrame, modLane, wakeLane]

theorem execLaneFrameReceived_keeps (h : s.Keeps t) (k seq alone first next others) :
    Keeps.Out s (execLaneFrameReceived k seq alone first next others t) := by
  unfold execLaneFrameReceived
  grind [frameIn, settle, next]

theorem execPacketHop_keeps (h : s.Keeps t) (k p) : Keeps.Out s (execPacketHop k p t) := by
  unfold execPacketHop
  grind [packetIn, next]

theorem execAbortBlockReceived_keeps (h : s.Keeps t) (k block) : Keeps.Out s (execAbortBlockReceived k block t) := by
  unfold execAbortBlockReceived
  grind [abortIn, next]

theorem typed (h : s.Keeps t) (k ty p) : s.Keeps (t.typed k ty p) := by
  unfold State.typed
  grind [packetIn]

theorem execWritePacketReceived_keeps (h : s.Keeps t) (k p) : Keeps.Out s (execWritePacketReceived k p t) := by
  unfold execWritePacketReceived
  grind [typed, next]

theorem execReadPacketReceived_keeps (h : s.Keeps t) (k p) : Keeps.Out s (execReadPacketReceived k p t) := by
  unfold execReadPacketReceived
  grind [typed, next]

theorem execReadRespReceived_keeps (h : s.Keeps t) (k p) : Keeps.Out s (execReadRespReceived k p t) := by
  unfold execReadRespReceived
  grind [typed, next]

theorem execSignalPacketReceived_keeps (h : s.Keeps t) (k p) : Keeps.Out s (execSignalPacketReceived k p t) := by
  unfold execSignalPacketReceived
  grind [typed, next]

theorem execMsgPacketReceived_keeps (h : s.Keeps t) (k p) : Keeps.Out s (execMsgPacketReceived k p t) := by
  unfold execMsgPacketReceived
  grind [typed, next]

theorem execAckReceived_keeps (h : s.Keeps t) (k p) : Keeps.Out s (execAckReceived k p t) := by
  unfold execAckReceived
  grind [typed, next]

theorem execCreditPacketReceived_keeps (h : s.Keeps t) (k p) : Keeps.Out s (execCreditPacketReceived k p t) := by
  unfold execCreditPacketReceived
  grind [typed, next]

theorem execNoticeReceived_keeps (h : s.Keeps t) (k p) : Keeps.Out s (execNoticeReceived k p t) := by
  unfold execNoticeReceived
  grind [typed, next]

theorem execRequestTimeout_keeps (h : s.Keeps t) (xid) : Keeps.Out s (execRequestTimeout xid t) := by
  have resent (f r) : s.Keeps ((t.modFab f).resend r).pumpCopies.pumpNotices.settle := ((h.modFab f).resend
    r).pumpCopies.pumpNotices.settle
  unfold execRequestTimeout
  grind [next]

theorem execDupEntryExpiry_keeps (h : s.Keeps t) (dev xid) : Keeps.Out s (execDupEntryExpiry dev xid t) := by
  unfold execDupEntryExpiry
  grind [modFab, next]

theorem execReorderHoldExpiry_keeps (h : s.Keeps t) (k) : Keeps.Out s (execReorderHoldExpiry k t) := by
  unfold execReorderHoldExpiry
  grind [releaseHeld, next]

end Sys2Proof.Machine.State.Keeps
end

section
/-! PROOFS. What the functions of Abort, Hbm, Plant, Boot, Reset, Power keep. -/

namespace Sys2Proof.Machine.State.Keeps

set_option Elab.async false -- in turn: each proof waits for lemmas before it, and many waiting threads need much memory

variable {s t : State}

/-! ## Abort -/

theorem leaveOpen {still : Bool} (h : s.Keeps t still) (c) : s.Keeps (t.leaveOpen c) still := by
  unfold State.leaveOpen
  grind [homeWrites, mkStill]

theorem haltCore (h : s.Keeps t) (c) : s.Keeps (t.haltCore c) := by
  unfold State.haltCore
  grind [leaveOpen, modCore, modFab]

theorem drainRing {still : Bool} (h : s.Keeps t still) (p) : s.Keeps (t.drainRing p) still := by
  unfold State.drainRing
  dsimp only
  split
  · exact h
  · exact (h.foldl (fun _ c hu => hu.modCore c _) _).settle

theorem abortPart (h : s.Keeps t) (p) : s.Keeps (t.abortPart p) :=
  ((((foldl (foldl (h.drainRing p) (fun _ c hu => hu.haltCore c) _) (fun _ u hu => hu.dropCmd u p) _).closeRings p).releaseSlots
    p).modEth
    _).modPart p _

theorem breakOff {still : Bool} (h : s.Keeps t still) : s.Keeps (t.breakOff) still := by
  refine foldl (foldl (foldl h (fun _ p hu => ?_) _) (fun _ c hu => hu.leaveOpen c) _) (fun _ p hu => ?_) _
  · grind [drainRing]
  · exact hu.foldl (fun _ u hv => hv.dropCmd u p) _

/-! ## Hbm -/

theorem hbmTick (h : s.Keeps t) : s.Keeps (t.hbmTick) :=
  (h.foldl (fun _ f hu => (hu.withMs (fun hm => hm.fillNext _ f.1 f.2)).logs _) _).modMs MemSys.Wf.serveAll

theorem hbmRead (h : s.Keeps t) (a hint errs) : s.Keeps (t.hbmRead a hint errs) := by
  unfold State.hbmRead
  grind [MemSys.Wf.mk, withMs, MemSys.Wf.noteMerges, MemSys.Wf.stackRead, MemSys.Wf.touchRead, logs, mk]

theorem hbmWrite (h : s.Keeps t) (a bs hint errs) : s.Keeps (t.hbmWrite a bs hint errs) := by
  unfold State.hbmWrite
  grind [MemSys.Wf.fresh, MemSys.Wf.mk, withMs, MemSys.Wf.stackRead, homeWrite, logs, mk, modMs]

theorem execHcCtrlWrite_keeps (h : s.Keeps t) (v) : Keeps.Out s (execHcCtrlWrite v t) :=
  next (h.modMs (fun hm => hm.writeHcCtrl v))

theorem execEccCtrlWrite_keeps (h : s.Keeps t) (v) : Keeps.Out s (execEccCtrlWrite v t) := by
  unfold execEccCtrlWrite
  grind [MemSys.Wf.mk, withMs, modMs, next]

theorem execScrubCtrlWrite_keeps (h : s.Keeps t) (v) : Keeps.Out s (execScrubCtrlWrite v t) := by
  unfold execScrubCtrlWrite
  grind [MemSys.Wf.mk, withMs, modMs, next]

theorem execPcViewWrite_keeps (h : s.Keeps t) (v) : Keeps.Out s (execPcViewWrite v t) :=
  next (h.modMs (fun hm => hm.setPc _ _ _))

theorem execHbmRequest_keeps (h : s.Keeps t) (a wr hint pins) : Keeps.Out s (execHbmRequest a wr hint pins t) := by
  unfold execHbmRequest
  grind [hbmRead, hbmWrite, next]

theorem execFillComplete_keeps (h : s.Keeps t) (d frame) : Keeps.Out s (execFillComplete d frame t) := by
  have filled (a d f) : s.Keeps { t with ms := (t.ms.fillDone a d f).1 } := h.withMs (fun hm => hm.fillTo a d f 1024)
  unfold execFillComplete
  grind [next, logs]

theorem execEpochBoundary_keeps (h : s.Keeps t) : Keeps.Out s (execEpochBoundary t) := by
  have aged : s.Keeps (t.modMs MemSys.epoch) := h.modMs id
  unfold execEpochBoundary
  grind [next]

theorem execScrubRead_keeps (h : s.Keeps t) (st pins) : Keeps.Out s (execScrubRead st pins t) := by
  have scrubbed (a st pins) : s.Keeps { t with ms := (t.ms.scrub a st pins).1 } := h.withMs (fun hm => hm.scrub a st pins)
  unfold execScrubRead
  grind [next, logs]

/-! ## Plant -/

theorem reassess (h : s.Keeps t) : s.Keeps (t.reassess) := h

theorem setLimit (h : s.Keeps t) : s.Keeps (t.setLimit) := h

theorem raiseFault (h : s.Keeps t) (cond k) : s.Keeps (t.raiseFault cond k) := by
  unfold State.raiseFault
  grind [log, modPwr, reassess, setLimit]

/-! ## Boot -/

/-- What breaks off leaves all that is sheltered. -/
theorem sheltered_breakOff (s : State) : s.breakOff.sheltered = s.sheltered := ((refl s true).breakOff).shelter

theorem teardown (h : s.Keeps t) (cold) : s.Keeps (t.teardown cold) := by
  have fused {u : State} (hu : s.Keeps u) : s.Keeps (u.modSec SecBlk.fuseDone) := hu.modSec (.fuseDone _)
  have reset {u : State} (hu : s.Keeps u) (cores goose fab time ud parts eth locals pwr rst pins) : s.Keeps
      { u with cores := cores, ms := u.ms.onReset cold, goose := goose, fab := fab, time := time, ud := ud, parts := parts,
               eth := eth, locals := locals, pwr := pwr, rst := rst, fl := u.fl.onReset, sec := u.sec.onReset cold, pins := pins } :=
    ⟨fun hs => (hu.1 hs).onReset cold, hu.2.1, hu.2.2.1.trans (.onReset _ cold), trivial⟩
  unfold State.teardown
  refine reset ?_ _ _ _ _ _ _ _ _ _ _ _
  grind [breakOff, log]

theorem draw (h : s.Keeps t) : s.Keeps (t.draw).1 :=
  h.modSec .of_eq

theorem loadOptions (h : s.Keeps t) (cold) : s.Keeps (t.loadOptions cold) := by
  have loaded : s.Keeps (t.modFl FlashBlk.loadOptions) := h.modFl FlashBlk.Wf.loadOptions
  unfold State.loadOptions
  grind [modPwr, modFab, log, modRst]

theorem applyStanding (h : s.Keeps t) (cold) : s.Keeps (t.applyStanding cold) := by
  unfold State.applyStanding
  grind [MemSys.Wf.mk, withMs, modEth, modFab, modMs, modPwr, modTime]

theorem loadStanding (h : s.Keeps t) (cold) : s.Keeps (t.loadStanding cold) := by
  unfold State.loadStanding
  obtain ⟨c, copyB⟩ := t.fl.loadStanding
  dsimp only
  have loaded (f g) : s.Keeps (((t.modFl (fun f => { f with sc := c })).modRst f).modPwr g) := ((h.modFl id).modRst f).modPwr g
  split
  · exact ((loaded _ _).modRst _).log _
  · exact extend (by grind [applyStanding, log]) 4 _

theorem bootSteward (h : s.Keeps t) : s.Keeps (t.bootSteward).1 := by
  unfold State.bootSteward
  extract_lets pref u twice
  have hu : s.Keeps u := h.modRst _
  clear_value u
  split
  · extract_lets back why v w x ok
    have hw : s.Keeps w := by grind [modRst, log]
    have hx : s.Keeps x := hw.modSec .of_eq
    clear_value x ok
    grind [modRst]
  · exact (hu.modRst _).log _

theorem bootBullock (h : s.Keeps t) (st) : s.Keeps (t.bootBullock st) := by
  unfold State.bootBullock
  extract_lets qualified get pref
  split
  · exact modSec (by grind [modRst, log]) .of_eq
  · exact h.modRst _

theorem becomeReady (h : s.Keeps t) (cold) : s.Keeps (t.becomeReady cold) := by
  unfold State.becomeReady
  extract_lets u r v none_
  have hv : s.Keeps v := (h.modRst _).modPwr _
  clear_value v
  split
  · exact ((hv.modFl (fun hf => hf.writeBoot _ _)).modRst _).log _
  · exact hv

theorem startTime (h : s.Keeps t) : s.Keeps (t.startTime) := by
  unfold State.startTime
  grind [actAsSource, modTime, ownSource, retime]

theorem noteRestricted (h : s.Keeps t) : s.Keeps (t.noteRestricted) := by
  unfold State.noteRestricted
  grind [log]

theorem startUp (h : s.Keeps t) (cold) : s.Keeps (t.startUp cold) := by
  unfold State.startUp
  extract_lets s1 s2 ob s3 s4 unlocked s5 s6 s7
  have h4 : s.Keeps s4 := ((((h.extend 0 _).loadOptions cold).extend 3 _).modPins _).modPwr _
  clear_value s4
  have h5 : s.Keeps s5 := by
    unfold s5
    split
    · exact h4.modSec .of_eq
    · exact h4
  have h6 : s.Keeps s6 := by grind [log]
  have h7 : s.Keeps s7 := h6.modSec .of_eq
  replace h7 := h7.bootSteward
  clear_value s7
  split
  · next u e =>
    rw [e] at h7
    exact h7.noteRestricted.setLimit.reassess
  · next u img e =>
    rw [e] at h7
    have booted := ((h7.loadStanding cold).bootBullock img).noteRestricted
    have started (f) := (((booted.draw).modEth f).startTime.setLimit.reassess)
    grind [raiseFault, lightUp, becomeReady]

theorem doReset (h : s.Keeps t) (cold) : s.Keeps (t.doReset cold) := by
  unfold State.doReset
  grind [startUp, teardown]

theorem requestReset (h : s.Keeps t) (cold bit) : s.Keeps (t.requestReset cold bit) := by
  unfold State.requestReset
  grind [doReset, log, modRst]

theorem resumeReset (h : s.Keeps t) : s.Keeps (t.resumeReset) := by
  unfold State.resumeReset
  grind [doReset]

/-! ## Reset -/

theorem islandUp (h : s.Keeps t) (pwrEn) : s.Keeps (t.islandUp pwrEn) := by
  exact ⟨fun _ => rfl, h.2.1, h.2.2.1.trans .of_eq, trivial⟩

theorem powerOn (h : s.Keeps t) (pwrEn) : s.Keeps (t.powerOn pwrEn) := by
  unfold State.powerOn
  grind [islandUp, loadOptions, log, modPwr, modRst, startUp]

theorem switchOn (h : s.Keeps t) : s.Keeps (t.switchOn) := by
  unfold State.switchOn
  grind [modPins, modPwr, modRst, requestReset]

theorem execPowerOn_keeps (h : s.Keeps t) (pwrEn) : Keeps.Out s (execPowerOn pwrEn t) := by
  unfold execPowerOn
  grind [powerOn, next]

theorem execPwrEnRise_keeps (h : s.Keeps t) (early) : Keeps.Out s (execPwrEnRise early t) := by
  unfold execPwrEnRise
  grind [modPins, switchOn, next]

theorem execPwrEnHoldEnd_keeps (h : s.Keeps t) : Keeps.Out s (execPwrEnHoldEnd t) := by
  unfold execPwrEnHoldEnd
  grind [switchOn, next]

theorem execPwrEnFall_keeps (h : s.Keeps t) : Keeps.Out s (execPwrEnFall t) := by
  unfold execPwrEnFall
  grind [modPins, modPwr, modRst, next]

theorem execResetPin_keeps (h : s.Keeps t) : Keeps.Out s (execResetPin t) := by
  unfold execResetPin
  grind [modPins, modRst, modTime, requestReset, teardown, next]

theorem execResetNRelease_keeps (h : s.Keeps t) : Keeps.Out s (execResetNRelease t) := by
  unfold execResetNRelease
  grind [modPins, modRst, resumeReset, next]

theorem execWatchdog_keeps (h : s.Keeps t) : Keeps.Out s (execWatchdog t) := by
  unfold execWatchdog
  grind [modRst, requestReset, next]

theorem execFirmwareRequest_keeps (h : s.Keeps t) (cold) : Keeps.Out s (execFirmwareRequest cold t) := by
  unfold execFirmwareRequest
  grind [requestReset, next]

theorem execBullockFault_keeps (h : s.Keeps t) : Keeps.Out s (execBullockFault t) := by
  unfold execBullockFault
  grind [requestReset, next]

theorem writeBootCtrl (h : s.Keeps t) (v) : s.Keeps (t.writeBootCtrl v) :=
  (h.modRst _).modFl (fun hf => hf.writeBoot _ _)

theorem flashStart (h : s.Keeps t) (op) : s.Keeps (t.flashStart op) := by
  unfold State.flashStart
  extract_lets refuse
  clear_value refuse
  split
  · exact h.modFl id
  · split
    · exact h.modFl id
    · exact h.modFl id

theorem writeFlCmd (h : s.Keeps t) (v) : s.Keeps (t.writeFlCmd v) := by
  unfold State.writeFlCmd
  grind [flashStart]

theorem execBootCtrlWrite_keeps (h : s.Keeps t) (v) : Keeps.Out s (execBootCtrlWrite v t) := by
  unfold execBootCtrlWrite
  grind [writeBootCtrl, next]

theorem execFlReadPage_keeps (h : s.Keeps t) : Keeps.Out s (execFlReadPage t) := by
  unfold execFlReadPage
  grind [flashStart, next]

theorem execFlProgramPage_keeps (h : s.Keeps t) : Keeps.Out s (execFlProgramPage t) := by
  unfold execFlProgramPage
  grind [flashStart, next]

theorem execFlEraseSector_keeps (h : s.Keeps t) : Keeps.Out s (execFlEraseSector t) := by
  unfold execFlEraseSector
  grind [flashStart, next]

theorem execFlashCommandDone_keeps (h : s.Keeps t) (failed) : Keeps.Out s (execFlashCommandDone failed t) :=
  next (h.modFl (fun hf => hf.finishOp failed))

theorem execCommitSt_keeps (h : s.Keeps t) : Keeps.Out s (execCommitSt t) :=
  next (h.modSec (.writeCtrl _ _))

theorem execCommitBu_keeps (h : s.Keeps t) : Keeps.Out s (execCommitBu t) :=
  next (h.modSec (.writeCtrl _ _))

theorem execRevoke_keeps (h : s.Keeps t) (j) : Keeps.Out s (execRevoke j t) :=
  next (h.modSec (.writeCtrl _ _))

theorem execFuseOperationDone_keeps (h : s.Keeps t) : Keeps.Out s (execFuseOperationDone t) := by
  have fused : s.Keeps (t.modSec (fun x => { x.fuseDone with fuses := x.fuses.tail })) := h.modSec ((SecBlk.FusesWithin.fuseDone
    _).trans .of_eq)
  unfold execFuseOperationDone
  grind [next, log]

theorem execRngHealthFail_keeps (h : s.Keeps t) : Keeps.Out s (execRngHealthFail t) :=
  next ((h.modSec .of_eq).log _)

theorem execRngReseedTimer_keeps (h : s.Keeps t) : Keeps.Out s (execRngReseedTimer t) :=
  next (h.modSec (by split; exacts [.retrySeed _, .of_eq]))

theorem execDebugUnlock_keeps (h : s.Keeps t) (answer) : Keeps.Out s (execDebugUnlock answer t) := by
  unfold execDebugUnlock
  split
  · split
    · exact next (h.draw.modSec .of_eq)
    · split
      · exact next (h.modSec .of_eq)
      · exact next h
  · exact next h

theorem writeGooseCtrl (h : s.Keeps t) (v) : s.Keeps (t.writeGooseCtrl v) := h

theorem execCtrlFreeze_keeps (h : s.Keeps t) (maxS) : Keeps.Out s (execCtrlFreeze maxS t) := by
  unfold execCtrlFreeze
  grind [writeGooseCtrl, next]

theorem execCtrlThaw_keeps (h : s.Keeps t) (maxS) : Keeps.Out s (execCtrlThaw maxS t) := by
  unfold execCtrlThaw
  grind [writeGooseCtrl, next]

theorem execGooseRecordWrite_keeps (h : s.Keeps t) (fails) : Keeps.Out s (execGooseRecordWrite fails t) := by
  unfold execGooseRecordWrite
  grind [modGoose, next]

theorem execRepeatUpdate_keeps (h : s.Keeps t) : Keeps.Out s (execRepeatUpdate t) := by
  unfold execRepeatUpdate
  grind [modGoose, next]

theorem execFreezeTimeout_keeps (h : s.Keeps t) : Keeps.Out s (execFreezeTimeout t) := by
  unfold execFreezeTimeout
  grind [modGoose, next]

theorem execHoursTimer_keeps (h : s.Keeps t) : Keeps.Out s (execHoursTimer t) := by
  unfold execHoursTimer
  grind [modGoose, next]

/-! ## Power -/

theorem powerTick (h : s.Keeps t) (raw sample) : s.Keeps (t.powerTick raw sample) := by
  unfold State.powerTick
  grind [log, modPwr, reassess]

theorem calibrationWindow (h : s.Keeps t) : s.Keeps (t.calibrationWindow) := by
  unfold State.calibrationWindow
  grind [log, modPwr, reassess]

theorem writeCap (h : s.Keeps t) (v) : s.Keeps (t.writeCap v) := by
  unfold State.writeCap
  grind [modPwr, setLimit]

theorem tripThermal (h : s.Keeps t) (cls ix x3) : s.Keeps (t.tripThermal cls ix x3) := h

theorem tripsOf (h : s.Keeps t) (cls l) : s.Keeps (t.tripsOf cls l) :=
  h.foldl (fun _ i hu => by grind [tripThermal]) _

theorem temperatures (h : s.Keeps t) (x1) : s.Keeps (t.temperatures x1) := by
  unfold State.temperatures
  extract_lets s1 low hbm s2 x power s3 s4 s5
  have h1 : s.Keeps s1 := h.modPins _
  have h2 : s.Keeps s2 := modPwr (t := { s1 with free := s1.free + 1 }) h1 _
  have h3 : s.Keeps s3 := h2.modPwr _
  clear_value s3
  have h4 : s.Keeps s4 := by grind [raiseFault]
  exact (((h4.tripsOf 0 _).tripsOf 1 _).tripsOf 3 _).setLimit.reassess

theorem allowanceStep (h : s.Keeps t) (r) : s.Keeps (t.allowanceStep r) := by
  unfold State.allowanceStep
  grind [modPwr, reassess]

theorem execCapWrite_keeps (h : s.Keeps t) (v) : Keeps.Out s (execCapWrite v t) := by
  unfold execCapWrite
  grind [writeCap, next]

theorem execInputLow_keeps (h : s.Keeps t) (mv) : Keeps.Out s (execInputLow mv t) := by
  unfold execInputLow
  grind [log, next]

theorem brownDown (h : s.Keeps t) (mv) : s.Keeps (t.brownDown mv) := by
  unfold State.brownDown
  grind [log, modGoose, modPins, requestReset]

theorem inputLost (h : s.Keeps t) (mv) : s.Keeps (t.inputLost mv) := by
  unfold State.inputLost
  grind [brownDown, modPwr]

theorem execBrownOut_keeps (h : s.Keeps t) (dip) : Keeps.Out s (execBrownOut dip t) := by
  unfold execBrownOut
  grind [brownDown, inputLost, next]

theorem execOverVoltage_keeps (h : s.Keeps t) : Keeps.Out s (execOverVoltage t) := by
  unfold execOverVoltage
  grind [inputLost, mk, next]

theorem execPowerEstimateTick_keeps (h : s.Keeps t) (raw sample) : Keeps.Out s (execPowerEstimateTick raw sample t) := by
  unfold execPowerEstimateTick
  grind [powerTick, next]

theorem execCalibrationWindow_keeps (h : s.Keeps t) : Keeps.Out s (execCalibrationWindow t) := by
  unfold execCalibrationWindow
  grind [calibrationWindow, next]

theorem execMeasurementFail_keeps (h : s.Keeps t) : Keeps.Out s (execMeasurementFail t) := by
  unfold execMeasurementFail
  grind [log, modPwr, next]

theorem execVoltageStep_keeps (h : s.Keeps t) : Keeps.Out s (execVoltageStep t) := by
  unfold execVoltageStep
  grind [modPwr, next]

theorem execFastCurrentLimit_keeps (h : s.Keeps t) : Keeps.Out s (execFastCurrentLimit t) := by
  unfold execFastCurrentLimit
  grind [modPwr, reassess, next]

theorem execOvercurrentTrip_keeps (h : s.Keeps t) : Keeps.Out s (execOvercurrentTrip t) := by
  unfold execOvercurrentTrip
  grind [log, modPwr, requestReset, next]

theorem execTemperatureSample_keeps (h : s.Keeps t) (compute dies optical plant) :
    Keeps.Out s (execTemperatureSample compute dies optical plant t) := by
  unfold execTemperatureSample
  grind [temperatures, next]

theorem execHbmTempSample_keeps (h : s.Keeps t) (st x1) : Keeps.Out s (execHbmTempSample st x1 t) := by
  unfold execHbmTempSample
  extract_lets s1 hbm s2
  have h1 : s.Keeps s1 := h.modMs id
  have h2 : s.Keeps s2 := (h1.modPwr _).reassess
  clear_value s2
  grind [next, reassess, tripThermal]

theorem execAllowanceStep_keeps (h : s.Keeps t) (r) : Keeps.Out s (execAllowanceStep r t) := by
  unfold execAllowanceStep
  grind [allowanceStep, next]

theorem execThermalTrip_keeps (h : s.Keeps t) (cls ix x2) : Keeps.Out s (execThermalTrip cls ix x2 t) := by
  unfold execThermalTrip
  grind [reassess, tripThermal, next]

theorem execThermalTripClear_keeps (h : s.Keeps t) : Keeps.Out s (execThermalTripClear t) := by
  unfold execThermalTripClear
  grind [modPwr, requestReset, next]

theorem execTachFault_keeps (h : s.Keeps t) (k hz) : Keeps.Out s (execTachFault k hz t) := by
  unfold execTachFault
  grind [modPwr, raiseFault, next]

theorem execCoolOkDeassert_keeps (h : s.Keeps t) : Keeps.Out s (execCoolOkDeassert t) := by
  unfold execCoolOkDeassert
  grind [modPins, raiseFault, next]

theorem execCoolOkAssert_keeps (h : s.Keeps t) : Keeps.Out s (execCoolOkAssert t) := by
  unfold execCoolOkAssert
  grind [modPins, modPwr, next]

theorem execPlantFaultClear_keeps (h : s.Keeps t) : Keeps.Out s (execPlantFaultClear t) := by
  unfold execPlantFaultClear
  grind [log, modPwr, reassess, setLimit, next]

theorem execThrottleNAssert_keeps (h : s.Keeps t) : Keeps.Out s (execThrottleNAssert t) := by
  unfold execThrottleNAssert
  grind [log, modPins, modPwr, reassess, next]

theorem execThrottleNRelease_keeps (h : s.Keeps t) (secs) : Keeps.Out s (execThrottleNRelease secs t) := by
  unfold execThrottleNRelease
  split
  · exact next h
  · exact next (((h.modPins _).modPwr _).log _).setLimit.reassess

theorem execThrottleNHour_keeps (h : s.Keeps t) : Keeps.Out s (execThrottleNHour t) := by
  unfold execThrottleNHour
  grind [log, modPwr, next]

theorem execReleaseHoldEnd_keeps (h : s.Keeps t) : Keeps.Out s (execReleaseHoldEnd t) := by
  unfold execReleaseHoldEnd
  grind [modPwr, reassess, next]

theorem execIdleClockStop_keeps (h : s.Keeps t) (c) : Keeps.Out s (execIdleClockStop c t) := by
  unfold execIdleClockStop
  grind [modPwr, next]

theorem execLaunchWake_keeps (h : s.Keeps t) (c) : Keeps.Out s (execLaunchWake c t) := by
  unfold execLaunchWake
  grind [modPwr, next]

end Sys2Proof.Machine.State.Keeps
end

section
/-! PROOFS. What the functions of Regs, Jobs, Gmcp keep. -/

namespace Sys2Proof.Machine.State.Keeps

set_option Elab.async false -- in turn: each proof waits for lemmas before it, and many waiting threads need much memory

variable {s t : State}

/-! ## Regs -/

theorem sysRead (h : s.Keeps t) (o) : Keeps.Read s (t.sysRead o) := by
  unfold State.sysRead
  grind [read, read_none, modPins]

theorem sysWrite (h : s.Keeps t) (o v) : s.Keeps (t.sysWrite o v) := by
  have written : s.Keeps (t.modSec (fun x => x.writeCtrl v)) := h.modSec (.writeCtrl _ _)
  unfold State.sysWrite
  grind [modPins]

theorem rstRead (h : s.Keeps t) (o) : Keeps.Read s (t.rstRead o) := by
  unfold State.rstRead
  grind [read, read_none]

theorem rstWrite (h : s.Keeps t) (o v) : s.Keeps (t.rstWrite o v) := by
  unfold State.rstWrite
  grind [modRst, writeBootCtrl]

theorem optRead (h : s.Keeps t) (o) : Keeps.Read s (t.optRead o) := by
  unfold State.optRead
  grind [read, read_none]

theorem optWrite (h : s.Keeps t) (o v) : s.Keeps (t.optWrite o v) := by
  unfold State.optWrite
  split
  · exact h.modFl id
  · split
    · exact h.writeFlCmd v
    · split
      · exact h.modFl id
      · split
        · exact h.modFl id
        · exact h

theorem pwrRead (h : s.Keeps t) (o) : Keeps.Read s (t.pwrRead o) := by
  unfold State.pwrRead
  grind [read, read_none, modPwr]

theorem pwrWrite (h : s.Keeps t) (o v) : s.Keeps (t.pwrWrite o v) := by
  unfold State.pwrWrite
  grind [modPwr, writeCap]

theorem timeRead (h : s.Keeps t) (o) : Keeps.Read s (t.timeRead o) := by
  unfold State.timeRead
  grind [read, read_none, modTime]

theorem timeWrite (h : s.Keeps t) (o v) : s.Keeps (t.timeWrite o v) := by
  unfold State.timeWrite
  grind [modTime]

theorem gooseRead (h : s.Keeps t) (o) : Keeps.Read s (t.gooseRead o) := by
  unfold State.gooseRead
  grind [read, read_none, modGoose]

theorem gooseWrite (h : s.Keeps t) (o v) : s.Keeps (t.gooseWrite o v) := by
  unfold State.gooseWrite
  grind [modGoose, writeGooseCtrl]

theorem laneRead (h : s.Keeps t) (k j) : Keeps.Read s (t.laneRead k j) := by
  unfold State.laneRead
  grind [read, read_none, modLane]

theorem fabRead (h : s.Keeps t) (o) : Keeps.Read s (t.fabRead o) := by
  unfold State.fabRead
  grind [read, read_none, modFab, laneRead]

theorem fabWrite (h : s.Keeps t) (o v) : s.Keeps (t.fabWrite o v) := by
  unfold State.fabWrite
  grind [modFab, settle, writeInjCtrl, writeInjSeed, writeLaneCtrl, writeLaneInj]

theorem portRead (h : s.Keeps t) (p j) : Keeps.Read s (t.portRead p j) := by
  unfold State.portRead
  grind [read, read_none, modEth, modPort]

theorem ethRead (h : s.Keeps t) (o) : Keeps.Read s (t.ethRead o) := by
  unfold State.ethRead
  grind [read, read_none, modEth, portRead]

theorem release (h : s.Keeps t) (p) : s.Keeps (t.release p) := h

theorem writePort (h : s.Keeps t) (p v) : s.Keeps (t.writePort p v) := by
  unfold State.writePort
  grind [modEth, release]

theorem ethWrite (h : s.Keeps t) (o v) : s.Keeps (t.ethWrite o v) := by
  unfold State.ethWrite
  grind [writePort]

theorem hbmRegRead (h : s.Keeps t) (o) : Keeps.Read s (t.hbmRegRead o) := by
  unfold State.hbmRegRead
  dsimp only
  split
  · exact read_map (h.modMs (fun hm => hm.hcClear _)) _
  · split
    · exact read h _
    · exact read h _
    · exact read (h.modMs id) _
    · exact read h _
    · exact read h _
    · exact read h _
    · split
      · exact read h _
      · split
        · exact read (h.modMs (fun hm => hm.modStack _ _)) _
        · split
          · exact read (h.modMs (fun hm => hm.modStack _ _)) _
          · exact read_none s

theorem hbmRegWrite (h : s.Keeps t) (o v) : s.Keeps (t.hbmRegWrite o v) := by
  unfold State.hbmRegWrite
  split
  · exact h.modMs id
  · exact h.modMs id
  · exact h.modMs id
  · exact h.modMs (fun hm => hm.setPc _ _ _)
  · exact h.modMs (fun hm => hm.writeHcCtrl v)
  · split
    · exact h.modMs (fun hm => hm.modStack _ _)
    · exact h

theorem modNum (h : s.Keeps t) (c f) : s.Keeps (t.modNum c f) := h

theorem numRead (h : s.Keeps t) (c o) : Keeps.Read s (t.numRead c o) := by
  unfold State.numRead
  grind [read, read_none, modNum]

theorem queueRead (h : s.Keeps t) (c q) : s.Keeps (t.queueRead c q).2 :=
  h.modCore c _

theorem coreRead (h : s.Keeps t) (c o) : Keeps.Read s (t.coreRead c o) := by
  unfold State.coreRead
  grind [read, read_none, modCore, modRow, modAtt, modCache, queueRead, numRead]

theorem writeMode (h : s.Keeps t) (c v) : s.Keeps (t.writeMode c v) := h

theorem writeKt4 (h : s.Keeps t) (c q b) : s.Keeps (t.writeKt4 c q b) := h

theorem writeMsgq (h : s.Keeps t) (c q v) : s.Keeps (t.writeMsgq c q v) := by
  unfold State.writeMsgq
  grind [requestFlush, writeKt4]

theorem coreWrite (h : s.Keeps t) (c o v) : s.Keeps (t.coreWrite c o v) := by
  unfold State.coreWrite
  grind [modCore, modNum, settle, writeMode, writeMsgq]

theorem udRead (h : s.Keeps t) (u o) : Keeps.Read s (t.udRead u o) := by
  unfold State.udRead
  grind [read, read_none, modUd, read_map]

theorem udWriteReg (h : s.Keeps t) (u o v) : s.Keeps (t.udWriteReg u o v) := by
  unfold State.udWriteReg
  grind [modUd]

theorem blkRead (h : s.Keeps t) (b o) : Keeps.Read s (t.blkRead b o) := by
  cases b with
  | sys => exact h.sysRead o
  | rst => exact h.rstRead o
  | opt => exact h.optRead o
  | pwr => exact h.pwrRead o
  | time => exact h.timeRead o
  | goose => exact h.gooseRead o
  | fab => exact h.fabRead o
  | eth => exact h.ethRead o
  | hbm => exact h.hbmRegRead o
  | core n => exact h.coreRead n o
  | ud n => exact h.udRead n o

theorem blkWrite (h : s.Keeps t) (b o v) : s.Keeps (t.blkWrite b o v) := by
  cases b with
  | sys => exact h.sysWrite o v
  | rst => exact h.rstWrite o v
  | opt => exact h.optWrite o v
  | pwr => exact h.pwrWrite o v
  | time => exact h.timeWrite o v
  | goose => exact h.gooseWrite o v
  | fab => exact h.fabWrite o v
  | eth => exact h.ethWrite o v
  | hbm => exact h.hbmRegWrite o v
  | core n => exact h.coreWrite n o v
  | ud n => exact h.udWriteReg n o v

theorem regRead (h : s.Keeps t) (a) : s.Keeps (t.regRead a).2.2 := by
  unfold State.regRead
  split
  · exact h
  · split
    · exact h
    · split
      · next e => exact h.blkRead _ _ _ e
      · exact h

theorem regWrite (h : s.Keeps t) (a v) : s.Keeps (t.regWrite a v).2 := by
  unfold State.regWrite
  grind [blkWrite]

theorem execCoreModeWrite_keeps (h : s.Keeps t) (c v) : Keeps.Out s (execCoreModeWrite c v t) := by
  unfold execCoreModeWrite
  grind [writeMode, next]

theorem execMsgqFlushWrite_keeps (h : s.Keeps t) (c q) : Keeps.Out s (execMsgqFlushWrite c q t) := by
  unfold execMsgqFlushWrite
  grind [requestFlush, settle, next]

theorem execMsgqKt4Write_keeps (h : s.Keeps t) (c q kt4) : Keeps.Out s (execMsgqKt4Write c q kt4 t) := by
  unfold execMsgqKt4Write
  grind [writeKt4, next]

theorem execRegisterWrite_keeps (h : s.Keeps t) (a v) : Keeps.Out s (execRegisterWrite a v t) := by
  unfold execRegisterWrite
  grind [regWrite, next]

/-! ## Jobs -/

theorem openRing (h : s.Keeps t) (p r) : s.Keeps (t.openRing p r) := by
  unfold State.openRing
  grind [MemSys.Wf.evict, modMs, modUd, repin, udWrite]

theorem placeImage (h : s.Keeps t) (r i) : s.Keeps (t.placeImage r i) := by
  unfold State.placeImage
  extract_lets p tag s1 s2 s3 s4 s5 s6 first s7 s8
  have h1 : s.Keeps s1 := h.foldl (fun _ _ hu => hu.modCore _ _) _
  have h2 : s.Keeps s2 := h1.modMs id
  have h3 : s.Keeps s3 := h2.foldl (fun _ _ hu => hu.modUd _ _) _
  have h4 : s.Keeps s4 := h3.foldl (fun _ _ hu => hu.modUd _ _) _
  have h5 : s.Keeps s5 := h4.foldl (fun _ _ hu => hu.openRing p _) _
  clear_value s5
  have h6 : s.Keeps s6 := by grind [modTime]
  have h8 : s.Keeps s8 := (h6.modPart p _).extend 5 _
  clear_value s8
  grind [wakeAll, helloAll]

theorem imageRead (h : s.Keeps t) (r) : s.Keeps (t.imageRead r) := by
  unfold State.imageRead
  grind [noteReads]

theorem jobLoad (h : s.Keeps t) (r img) : s.Keeps (t.jobLoad r img).1 := by
  unfold State.jobLoad
  grind [imageRead, placeImage, settle]

theorem startCore (h : s.Keeps t) (p c) : s.Keeps (t.startCore p c) := h

theorem startPart (h : s.Keeps t) (p) : s.Keeps (t.startPart p) :=
  ((h.modEth _).foldl (fun _ c hu => hu.startCore p c) _).settle

theorem raisePlant (h : s.Keeps t) : s.Keeps (t.raisePlant) := h

theorem jobStart (h : s.Keeps t) (p start recv) : s.Keeps (t.jobStart p start recv).1 := by
  unfold State.jobStart
  grind [modEth, modPart, modTime, raisePlant, startPart]

theorem jobAbort (h : s.Keeps t) (mask loading) : s.Keeps (t.jobAbort mask loading).1 :=
  (h.foldl (fun _ p hu => hu.abortPart p) _).settle

theorem jobUnload (h : s.Keeps t) (p) : s.Keeps (t.jobUnload p).1 := by
  unfold State.jobUnload
  split
  · exact h
  · split
    iterate 3
      · extract_lets s1 s2 s3 s4 s5
        have h1 : s.Keeps s1 := (h.closeRings p).releaseSlots p
        have h2 : s.Keeps s2 := h1.foldl (fun _ _ hu => hu.modCore _ _) _
        clear_value s2
        have h3 : s.Keeps s3 := h2.modMs id
        have h5 : s.Keeps s5 := (h3.modEth _).modPart p _
        clear_value s5
        grind [helloAll]
    · exact h

theorem execJobStartTime_keeps (h : s.Keeps t) (p) : Keeps.Out s (execJobStartTime p t) := by
  unfold execJobStartTime
  grind [atFt, startPart, next]

/-! ## Gmcp -/

theorem sendReply (h : s.Keeps t) (port bytes) : s.Keeps (t.sendReply port bytes) := by
  unfold State.sendReply
  grind [modEth, modPins]

theorem refuse (h : s.Keeps t) (port m status) : s.Keeps (t.refuse port m status) := by
  unfold State.refuse
  grind [sendReply]

theorem readRegs (h : s.Keeps t) (n a) : s.Keeps (State.readRegs n t a).1 := by
  induction n generalizing t a with
  | zero => exact h
  | succ n ih => exact ih (h.regRead a) _

theorem writeRegs (h : s.Keeps t) (ok vs a) : s.Keeps (State.writeRegs ok vs t a).1 := by
  induction vs generalizing t a with
  | nil => exact h
  | cons v vs ih =>
    unfold State.writeRegs
    dsimp only
    split
    · exact ih (h.regWrite a v) _
    · exact ih h _

theorem opRegRead (h : s.Keeps t) (b) : s.Keeps (t.opRegRead b).st := by
  unfold State.opRegRead
  grind [readRegs]

theorem opRegWrite (h : s.Keeps t) (b) : s.Keeps (t.opRegWrite b).st := by
  unfold State.opRegWrite
  grind [writeRegs]

theorem opQpOpen (h : s.Keeps t) (b) : s.Keeps (t.opQpOpen b).st := by
  unfold State.opQpOpen
  grind [modEth]

theorem opQpClose (h : s.Keeps t) (b) : s.Keeps (t.opQpClose b).st := by
  unfold State.opQpClose
  grind [modEth]

theorem opRdmaReg (h : s.Keeps t) (b) : s.Keeps (t.opRdmaReg b).st := by
  unfold State.opRdmaReg
  grind [modEth]

theorem opRdmaDereg (h : s.Keeps t) (b) : s.Keeps (t.opRdmaDereg b).st := by
  unfold State.opRdmaDereg
  grind [modEth]

theorem opTelemetry (h : s.Keeps t) (b) : s.Keeps (t.opTelemetry b).st := by
  unfold State.opTelemetry
  grind

theorem opGoose (h : s.Keeps t) (b) : s.Keeps (t.opGoose b).st := by
  unfold State.opGoose
  grind [modGoose]

theorem opAttest (h : s.Keeps t) (b) : s.Keeps (t.opAttest b).st :=
  h.modSec .of_eq

theorem gmcpOp (h : s.Keeps t) (r loading) : s.Keeps (t.gmcpOp r loading).st := by
  unfold State.gmcpOp
  grind [opRegRead, opRegWrite, jobLoad, jobStart, jobAbort, jobUnload, opQpOpen, opQpClose, opRdmaReg, opRdmaDereg, opTelemetry,
    opGoose, opAttest]

theorem answered (h : s.Keeps t) (r status payload) : s.Keeps (t.answered r status payload) := by
  unfold State.answered
  grind [modEth, sendReply]

theorem execute (h : s.Keeps t) (r loading) : s.Keeps (t.execute r loading) := by
  unfold State.execute
  grind [gmcpOp, answered, requestReset]

theorem plainReply (h : s.Keeps t) (r st) : s.Keeps (t.plainReply r st) := by
  unfold State.plainReply
  grind [sendReply]

theorem noteSeq (h : s.Keeps t) (r) : s.Keeps (t.noteSeq r) := by
  unfold State.noteSeq
  grind [modEth]

theorem badTag (h : s.Keeps t) : s.Keeps (t.badTag) := by
  unfold State.badTag
  grind [log, modEth]

theorem nextCmd (h : s.Keeps t) : s.Keeps (t.nextCmd) := by
  unfold State.nextCmd
  grind [execute, modEth]

theorem drainCmds (h : s.Keeps t) (n) : s.Keeps (State.drainCmds n t) := by
  induction n generalizing t with
  | zero => exact h
  | succ n ih =>
    unfold State.drainCmds
    grind [nextCmd]

theorem abortNow (h : s.Keeps t) (r) : s.Keeps (t.abortNow r) := by
  unfold State.abortNow
  grind [answered, execute, modEth]

theorem submit (h : s.Keeps t) (r held) : s.Keeps (t.submit r held) := by
  unfold State.submit
  grind [abortNow, drainCmds, execute, modEth, noteSeq, plainReply, sendReply]

theorem check (h : s.Keeps t) (r held) : s.Keeps (t.check r held) := by
  unfold State.check
  grind [badTag, refuse, submit]

theorem gmcpIn (h : s.Keeps t) (r held) : s.Keeps (t.gmcpIn r held) := by
  unfold State.gmcpIn
  grind [check, modEth]

theorem request (h : s.Keeps t) (op first port m held img) : s.Keeps (t.request op first port m held img) := by
  unfold State.request
  grind [gmcpIn]

theorem execSession_keeps (h : s.Keeps t) (port m held) : Keeps.Out s (execSession port m held t) := by
  unfold execSession
  grind [request, next]

theorem execRegRead_keeps (h : s.Keeps t) (port m held) : Keeps.Out s (execRegRead port m held t) := by
  unfold execRegRead
  grind [request, next]

theorem execRegWrite_keeps (h : s.Keeps t) (port m held) : Keeps.Out s (execRegWrite port m held t) := by
  unfold execRegWrite
  grind [request, next]

theorem execJobLoad_keeps (h : s.Keeps t) (port m held img) : Keeps.Out s (execJobLoad port m held img t) := by
  unfold execJobLoad
  grind [request, next]

theorem execJobStart_keeps (h : s.Keeps t) (port m held) : Keeps.Out s (execJobStart port m held t) := by
  unfold execJobStart
  grind [request, next]

theorem execAbort_keeps (h : s.Keeps t) (port m held) : Keeps.Out s (execAbort port m held t) := by
  unfold execAbort
  grind [request, next]

theorem execJobUnload_keeps (h : s.Keeps t) (port m held) : Keeps.Out s (execJobUnload port m held t) := by
  unfold execJobUnload
  grind [request, next]

theorem execJobStatus_keeps (h : s.Keeps t) (port m held) : Keeps.Out s (execJobStatus port m held t) := by
  unfold execJobStatus
  grind [request, next]

theorem execQpOpen_keeps (h : s.Keeps t) (port m held) : Keeps.Out s (execQpOpen port m held t) := by
  unfold execQpOpen
  grind [request, next]

theorem execQpClose_keeps (h : s.Keeps t) (port m held) : Keeps.Out s (execQpClose port m held t) := by
  unfold execQpClose
  grind [request, next]

theorem execRdmaReg_keeps (h : s.Keeps t) (port m held) : Keeps.Out s (execRdmaReg port m held t) := by
  unfold execRdmaReg
  grind [request, next]

theorem execRdmaDereg_keeps (h : s.Keeps t) (port m held) : Keeps.Out s (execRdmaDereg port m held t) := by
  unfold execRdmaDereg
  grind [request, next]

theorem execTelemetryRecord_keeps (h : s.Keeps t) (port m held) : Keeps.Out s (execTelemetryRecord port m held t) := by
  unfold execTelemetryRecord
  grind [request, next]

theorem execTelemetryNumeric_keeps (h : s.Keeps t) (port m held) : Keeps.Out s (execTelemetryNumeric port m held t) := by
  unfold execTelemetryNumeric
  grind [request, next]

theorem execGooseStatus_keeps (h : s.Keeps t) (port m held) : Keeps.Out s (execGooseStatus port m held t) := by
  unfold execGooseStatus
  grind [request, next]

theorem execGooseRead_keeps (h : s.Keeps t) (port m held) : Keeps.Out s (execGooseRead port m held t) := by
  unfold execGooseRead
  grind [request, next]

theorem execGooseFreeze_keeps (h : s.Keeps t) (port m held) : Keeps.Out s (execGooseFreeze port m held t) := by
  unfold execGooseFreeze
  grind [request, next]

theorem execGooseThaw_keeps (h : s.Keeps t) (port m held) : Keeps.Out s (execGooseThaw port m held t) := by
  unfold execGooseThaw
  grind [request, next]

theorem execAttest_keeps (h : s.Keeps t) (port m held) : Keeps.Out s (execAttest port m held t) := by
  unfold execAttest
  grind [request, next]

theorem execResetWarm_keeps (h : s.Keeps t) (port m held) : Keeps.Out s (execResetWarm port m held t) := by
  unfold execResetWarm
  grind [request, next]

theorem execResetCold_keeps (h : s.Keeps t) (port m held) : Keeps.Out s (execResetCold port m held t) := by
  unfold execResetCold
  grind [request, next]

theorem execUnknownOp_keeps (h : s.Keeps t) (port m op) : Keeps.Out s (execUnknownOp port m op t) := by
  unfold execUnknownOp
  grind [request, next]

end Sys2Proof.Machine.State.Keeps
end

section
/-! PROOFS. What the functions of OxRows, Pins, Roce, Ptp, SeqRows, VecRows keep. -/

namespace Sys2Proof.Machine.State.Keeps

set_option Elab.async false -- in turn: each proof waits for lemmas before it, and many waiting threads need much memory

variable {s t : State}

/-! ## OxRows -/

theorem execLdwStart_keeps (h : s.Keeps t) (c) : Keeps.Out s (execLdwStart c t) := by
  unfold execLdwStart
  grind [settle, startLdw, next]

theorem execStreamStart_keeps (h : s.Keeps t) (c) : Keeps.Out s (execStreamStart c t) := by
  unfold execStreamStart
  grind [settle, startStream, next]

theorem execWgradStart_keeps (h : s.Keeps t) (c) : Keeps.Out s (execWgradStart c t) := by
  unfold execWgradStart
  grind [settle, startWgrad, next]

/-! ## Pins -/

theorem execSlotIdChange_keeps (h : s.Keeps t) (new) : Keeps.Out s (execSlotIdChange new t) := by
  unfold execSlotIdChange
  grind [log, modPins, next]

theorem uartFrameError (h : s.Keeps t) : s.Keeps (t.uartFrameError) := h

theorem uartCrcError (h : s.Keeps t) : s.Keeps (t.uartCrcError) := h

theorem uartTake (h : s.Keeps t) (held img n bs) : s.Keeps (State.uartTake held img n t bs) := by
  induction n generalizing t bs with
  | zero => exact h.modPins _
  | succ n ih =>
    unfold State.uartTake
    grind [modPins, uartFrameError, gmcpIn, uartCrcError]

theorem execUartFrameReceived_keeps (h : s.Keeps t) (bs bad img held) : Keeps.Out s (execUartFrameReceived bs bad img held t) := by
  unfold execUartFrameReceived
  grind [modPins, uartFrameError, uartTake, next]

theorem execUartByteTimeout_keeps (h : s.Keeps t) : Keeps.Out s (execUartByteTimeout t) := by
  unfold execUartByteTimeout
  grind [modPins, uartFrameError, next]

theorem execSmbusStatus_keeps (h : s.Keeps t) (rd) : Keeps.Out s (execSmbusStatus rd t) := by
  unfold execSmbusStatus
  grind [modPins, next]

theorem execSmbusSerial_keeps (h : s.Keeps t) (rd) : Keeps.Out s (execSmbusSerial rd t) := by
  unfold execSmbusSerial
  grind [modPins, next]

theorem execSmbusOtherCommand_keeps (h : s.Keeps t) (addr code) : Keeps.Out s (execSmbusOtherCommand addr code t) := by
  unfold execSmbusOtherCommand
  grind [modPins, next]

theorem execSmbusTimeout_keeps (h : s.Keeps t) : Keeps.Out s (execSmbusTimeout t) := by
  unfold execSmbusTimeout
  grind [modPins, next]

theorem idleTick (h : s.Keeps t) : s.Keeps (t.idleTick) := by
  have ticked := (h.modTime TimeBlk.tick).hbmTick.foldl (fun _ c hu => hu.pfTick c) (List.range 8)
  unfold State.idleTick
  grind [modTime, frameTick, timeTick, waitTick, nextCmd]

theorem execSmbusRefresh_keeps (h : s.Keeps t) : Keeps.Out s (execSmbusRefresh t) := by
  unfold execSmbusRefresh
  grind [modPins, next]

/-! ## Roce -/

theorem modPort (h : s.Keeps t) (p f) : s.Keeps (t.modPort p f) := h

theorem modQp (h : s.Keeps t) (n f) : s.Keeps (t.modQp n f) := h

theorem qpSend (h : s.Keeps t) (q o) : s.Keeps (t.qpSend q o) := by
  unfold State.qpSend
  grind [modQp]

theorem nak (h : s.Keeps t) (q o) : s.Keeps (t.nak q o) := by
  unfold State.nak
  grind [modPort, modQp, qpSend]

theorem qpError (h : s.Keeps t) (q) : s.Keeps (t.qpError q) := h

theorem invalid (h : s.Keeps t) (q psn) : s.Keeps (t.invalid q psn) := by
  unfold State.invalid
  grind [nak, qpError]

theorem accepted (h : s.Keeps t) (q psn) : s.Keeps (t.accepted q psn) := by
  unfold State.accepted
  grind [modQp, qpSend]

theorem congested (h : s.Keeps t) (q) : s.Keeps (t.congested q) := by
  unfold State.congested
  grind [modPort, modQp, qpSend]

theorem onQp (h : s.Keeps t) (x) {again f : State → Qp → State} (ha : ∀ u q, s.Keeps u → s.Keeps (again u q))
    (hf : ∀ u q, s.Keeps u → s.Keeps (f u q)) : s.Keeps (t.onQp x again f) := by
  unfold State.onQp
  grind [modPort, congested, nak]

theorem ackAgain_keeps (h : s.Keeps t) (q) : s.Keeps (ackAgain t q) := by
  unfold ackAgain
  grind [qpSend]

theorem accessError (h : s.Keeps t) (q psn) : s.Keeps (t.accessError q psn) := by
  unfold State.accessError
  grind [modPort, nak]

theorem storeData (h : s.Keeps t) (q psn a data) {f : State → State} (hf : ∀ u, s.Keeps u → s.Keeps (f u)) :
    s.Keeps (t.storeData q psn a data f) := by
  unfold State.storeData
  grind [homeWrite, nak, qpError, accepted]

theorem writePart (h : s.Keeps t) (q psn a left last data) : s.Keeps (t.writePart q psn a left last data) := by
  unfold State.writePart
  grind [accepted, homeWrite, invalid, modQp, nak, qpError]

theorem rdmaWrite (h : s.Keeps t) (q psn first last k a n data) : s.Keeps (t.rdmaWrite q psn first last k a n data) := by
  unfold State.rdmaWrite
  grind [accessError, invalid, modQp, writePart]

theorem readData (h : s.Keeps t) (q psn k a n) {f : State → State} (hf : ∀ u, s.Keeps u → s.Keeps (f u)) :
    s.Keeps (t.readData q psn k a n f) := by
  unfold State.readData
  grind [accessError, noteReads, nak, qpError, qpSend]

theorem rdmaRead (h : s.Keeps t) (q psn k a n mtu) : s.Keeps (t.rdmaRead q psn k a n mtu) := by
  unfold State.rdmaRead
  split
  · exact h.invalid q psn
  · exact h.readData q psn k a n (fun _ hu => hu.modQp _ _)

theorem readAgain (h : s.Keeps t) (q psn k a n) : s.Keeps (t.readAgain q psn k a n) :=
  h.readData q psn k a n (fun _ hu => hu)

theorem modWindow (h : s.Keeps t) (k f) : s.Keeps (t.modWindow k f) := h

theorem sendPart_ (h : s.Keeps t) (q psn w i got last data) : s.Keeps (t.sendPart_ q psn w i got last data) := by
  unfold State.sendPart_
  dsimp only
  split
  · exact h.invalid q psn
  · exact h.storeData q psn _ data (fun _ hu => by grind [modQp, modWindow, settle])

theorem roceSend (h : s.Keeps t) (q psn first last data) : s.Keeps (t.roceSend q psn first last data) := by
  unfold State.roceSend
  grind [invalid, modPort, modQp, modWindow, nak, sendPart_]

theorem execRoceSend_keeps (h : s.Keeps t) (port qpn psn ce first last data) :
    Keeps.Out s (execRoceSend port qpn psn ce first last data t) := by
  unfold execRoceSend
  grind [onQp, roceSend, ackAgain_keeps, next]

theorem execRoceRdmaWrite_keeps (h : s.Keeps t) (port qpn psn ce first last k a n data) :
    Keeps.Out s (execRoceRdmaWrite port qpn psn ce first last k a n data t) := by
  unfold execRoceRdmaWrite
  grind [onQp, rdmaWrite, ackAgain_keeps, next]

theorem execRoceRdmaRead_keeps (h : s.Keeps t) (port qpn psn ce k a n mtu) :
    Keeps.Out s (execRoceRdmaRead port qpn psn ce k a n mtu t) := by
  unfold execRoceRdmaRead
  grind [onQp, rdmaRead, readAgain, next]

theorem execRoceInvalidRequest_keeps (h : s.Keeps t) (port qpn psn ce) : Keeps.Out s (execRoceInvalidRequest port qpn psn ce t) := by
  unfold execRoceInvalidRequest
  grind [invalid, onQp, ackAgain_keeps, next]

theorem execRoceCnpReceived_keeps (h : s.Keeps t) (qpn) : Keeps.Out s (execRoceCnpReceived qpn t) := by
  unfold execRoceCnpReceived
  grind [modQp, next]

theorem execCnpRateRecovery_keeps (h : s.Keeps t) (qpn) : Keeps.Out s (execCnpRateRecovery qpn t) := by
  unfold execCnpRateRecovery
  grind [modQp, next]

theorem execAckCoalesceTimer_keeps (h : s.Keeps t) (qpn) : Keeps.Out s (execAckCoalesceTimer qpn t) := by
  unfold execAckCoalesceTimer
  grind [modQp, qpSend, next]

theorem onPort (h : s.Keeps t) (p f) : s.Keeps (t.onPort p f) := by
  unfold State.onPort
  grind [modPort]

theorem execEthFrameDiscard_keeps (h : s.Keeps t) (p f) : Keeps.Out s (execEthFrameDiscard p f t) := by
  unfold execEthFrameDiscard
  grind [onPort, next]

theorem execArpRequest_keeps (h : s.Keeps t) (p mac ip target) : Keeps.Out s (execArpRequest p mac ip target t) := by
  unfold execArpRequest
  grind [onPort, next]

theorem execNeighbourSolicitation_keeps (h : s.Keeps t) (p mac ip target) :
    Keeps.Out s (execNeighbourSolicitation p mac ip target t) := by
  unfold execNeighbourSolicitation
  grind [onPort, next]

theorem execIcmpEcho_keeps (h : s.Keeps t) (p v6 mac ip target body) : Keeps.Out s (execIcmpEcho p v6 mac ip target body t) := by
  unfold execIcmpEcho
  grind [onPort, next]

theorem execPfcFrameReceived_keeps (h : s.Keeps t) (p prio pause) : Keeps.Out s (execPfcFrameReceived p prio pause t) := by
  unfold execPfcFrameReceived
  grind [modPort, release, next]

theorem execEthLinkLoss_keeps (h : s.Keeps t) (p) : Keeps.Out s (execEthLinkLoss p t) := by
  unfold execEthLinkLoss
  grind [modPort, release, next]

theorem execEthLinkUp_keeps (h : s.Keeps t) (p) : Keeps.Out s (execEthLinkUp p t) := by
  unfold execEthLinkUp
  grind [modPort, next]

/-! ## Ptp -/

theorem modPtp (h : s.Keeps t) (f) : s.Keeps (t.modPtp f) := h

theorem ptpElect (h : s.Keeps t) : s.Keeps (t.ptpElect) := h

theorem todSample (h : s.Keeps t) (x) : s.Keeps (t.todSample x) := h

theorem execPtpAnnounce_keeps (h : s.Keeps t) (domain m) : Keeps.Out s (execPtpAnnounce domain m t) := by
  unfold execPtpAnnounce
  grind [modPtp, next]

theorem execPtpSync_keeps (h : s.Keeps t) (domain sender seq rx origin corr) :
    Keeps.Out s (execPtpSync domain sender seq rx origin corr t) := by
  unfold execPtpSync
  grind [modPtp, ptpElect, next]

theorem execPtpFollowUp_keeps (h : s.Keeps t) (domain sender seq origin corr) :
    Keeps.Out s (execPtpFollowUp domain sender seq origin corr t) := by
  unfold execPtpFollowUp
  grind [modPtp, ptpElect, next]

theorem execPtpDelayResp_keeps (h : s.Keeps t) (domain sender seq rx corr logInt) :
    Keeps.Out s (execPtpDelayResp domain sender seq rx corr logInt t) := by
  unfold execPtpDelayResp
  grind [modPtp, ptpElect, todSample, next]

theorem execDelayReqTimer_keeps (h : s.Keeps t) : Keeps.Out s (execDelayReqTimer t) := by
  unfold execDelayReqTimer
  grind [modPtp, ptpElect, next]

/-! ## SeqRows -/

theorem execFetchBeyondEnd_keeps (h : s.Keeps t) (c) : Keeps.Out s (execFetchBeyondEnd c t) := by
  unfold execFetchBeyondEnd
  grind [fetchBeyond, next]

theorem execNullEntrySignal_keeps (h : s.Keeps t) (c u) : Keeps.Out s (execNullEntrySignal c u t) := by
  unfold execNullEntrySignal
  grind [dropNulls, settle, signalNull, next]

theorem execBroadcastDelivery_keeps (h : s.Keeps t) (c) : Keeps.Out s (execBroadcastDelivery c t) := by
  unfold execBroadcastDelivery
  grind [deliver, next]

theorem execRingCreditReturn_keeps (h : s.Keeps t) (c) : Keeps.Out s (execRingCreditReturn c t) := by
  unfold execRingCreditReturn
  grind [creditReturn, next]

theorem execWaitTimeout_keeps (h : s.Keeps t) (c) : Keeps.Out s (execWaitTimeout c t) := by
  unfold execWaitTimeout
  grind [settle, timeoutWait, next]

/-! ## VecRows -/

theorem execVecOpStart_keeps (h : s.Keeps t) (c) : Keeps.Out s (execVecOpStart c t) := by
  unfold execVecOpStart
  grind [settle, startVec, next]

end Sys2Proof.Machine.State.Keeps
end

section
/-! PROOFS. Every command and every step keep the memories canonical and the fuses. -/

namespace Sys2Proof.Machine.State.Keeps
variable {s t : State}

/-- Every command keeps the memories canonical and the fuses. -/
theorem exec (h : s.Keeps t) (i : Instr) : Keeps.Out s (exec i t) := by
  cases i with
  | nop | endProgram | br | loop | call | ret | waitcc | waitq | drain | ccset | ccadd | ccread | setar | setas | addar | setgr
  | addgr | sld | sst | atom | cflush | cinv | cflinv | launchAt | kcgset | regionBegin | regionEnd | ldw | mm | dual | wgrad
  | vecAdd | vecSub | vecMul | vecFma | vecDiv | vecMax | vecMin | vecAbs | vecNeg | vecCopy | vecSqrt | vecRsqrt | vecAdds
  | vecMuls | vecMaxs | vecMins | vecFmas | vecExp | vecLog | vecSigmoid | vecTanh | vecSilu | vecDsilu | vecGelu | vecDgelu
  | vecSum | vecSumsq | vecRmax | vecAmax | vecRand | cred | conv | convSr | rowFwd | rowBwd | statFree | attFwd | attBwd
  | append | bucket | slotSet | slotClr | gather | walk | copy1 | copyd | send | recv | msgFlush | mark | rewind | release =>
    exact next (h.fetch _ _)
  | illegalInstruction c w =>
    refine next ?_
    split
    · exact h
    · exact h.fetch _ _
  | fetchBeyondEnd c => exact execFetchBeyondEnd_keeps h c
  | nullEntrySignal c u => exact execNullEntrySignal_keeps h c u
  | broadcastDelivery c => exact execBroadcastDelivery_keeps h c
  | ringCreditReturn c => exact execRingCreditReturn_keeps h c
  | ldwStart c => exact execLdwStart_keeps h c
  | streamStart c => exact execStreamStart_keeps h c
  | wgradStart c => exact execWgradStart_keeps h c
  | vecOpStart c => exact execVecOpStart_keeps h c
  | rowOpStart c => exact execRowOpStart_keeps h c
  | attOpStart c => exact execAttOpStart_keeps h c
  | muleCopyStart c m => exact execMuleCopyStart_keeps h c m
  | sendWaitLimit c => exact execSendWaitLimit_keeps h c
  | localMessageArrival c q n => exact execLocalMessageArrival_keeps h c q n
  | statusTimeout c id => exact execStatusTimeout_keeps h c id
  | launchTimeReached c u => exact execLaunchTimeReached_keeps h c u
  | operationComplete c u n => exact execOperationComplete_keeps h c u n
  | waitTimeout c => exact execWaitTimeout_keeps h c
  | coreModeWrite c v => exact execCoreModeWrite_keeps h c v
  | msgqFlushWrite c q => exact execMsgqFlushWrite_keeps h c q
  | msgqKt4Write c q kt4 => exact execMsgqKt4Write_keeps h c q kt4
  | qlmCtrlWrite u v => exact execQlmCtrlWrite_keeps h u v
  | arbWrite u v => exact execArbWrite_keeps h u v
  | hcCtrlWrite v => exact execHcCtrlWrite_keeps h v
  | eccCtrlWrite v => exact execEccCtrlWrite_keeps h v
  | scrubCtrlWrite v => exact execScrubCtrlWrite_keeps h v
  | pcViewWrite v => exact execPcViewWrite_keeps h v
  | fmapWrite n v => exact execFmapWrite_keeps h n v
  | retrain k v => exact execRetrain_keeps h k v
  | injCtrlWrite v => exact execInjCtrlWrite_keeps h v
  | injSeedWrite v => exact execInjSeedWrite_keeps h v
  | laneInjWrite k v => exact execLaneInjWrite_keeps h k v
  | slotEntryWrite hi v => exact execSlotEntryWrite_keeps h hi v
  | capWrite v => exact execCapWrite_keeps h v
  | bootCtrlWrite v => exact execBootCtrlWrite_keeps h v
  | flReadPage => exact execFlReadPage_keeps h
  | flProgramPage => exact execFlProgramPage_keeps h
  | flEraseSector => exact execFlEraseSector_keeps h
  | flashCommandDone failed => exact execFlashCommandDone_keeps h failed
  | commitSt => exact execCommitSt_keeps h
  | commitBu => exact execCommitBu_keeps h
  | revoke j => exact execRevoke_keeps h j
  | fuseOperationDone => exact execFuseOperationDone_keeps h
  | ctrlFreeze maxS => exact execCtrlFreeze_keeps h maxS
  | ctrlThaw maxS => exact execCtrlThaw_keeps h maxS
  | registerWrite a v => exact execRegisterWrite_keeps h a v
  | doorbellWrite u p tail => exact execDoorbellWrite_keeps h u p tail
  | update u => exact execUpdate_keeps h u
  | root u => exact execRoot_keeps h u
  | bullockRetire u => exact execBullockRetire_keeps h u
  | hbmRequest a wr hint pins => exact execHbmRequest_keeps h a wr hint pins
  | fillComplete d frame => exact execFillComplete_keeps h d frame
  | epochBoundary => exact execEpochBoundary_keeps h
  | scrubRead st pins => exact execScrubRead_keeps h st pins
  | hbmTempSample st t => exact execHbmTempSample_keeps h st t
  | lsuFault u removed => exact execLsuFault_keeps h u removed
  | lsuReady u => exact execLsuReady_keeps h u
  | laneBringUp k mask => exact execLaneBringUp_keeps h k mask
  | bringUpTimeout k => exact execBringUpTimeout_keeps h k
  | laneRetryTimer k => exact execLaneRetryTimer_keeps h k
  | laneFrameReceived k seq alone first next others => exact execLaneFrameReceived_keeps h k seq alone first next others
  | lossOfSignal k w => exact execLossOfSignal_keeps h k w
  | laneWidthLoss k => exact execLaneWidthLoss_keeps h k
  | listenEntry k => exact execListenEntry_keeps h k
  | listenWake k => exact execListenWake_keeps h k
  | helloReceived k payload => exact execHelloReceived_keeps h k payload
  | helloTimer => exact execHelloTimer_keeps h
  | packetHop k p => exact execPacketHop_keeps h k p
  | abortBlockReceived k block => exact execAbortBlockReceived_keeps h k block
  | writePacketReceived k p => exact execWritePacketReceived_keeps h k p
  | readPacketReceived k p => exact execReadPacketReceived_keeps h k p
  | readRespReceived k p => exact execReadRespReceived_keeps h k p
  | signalPacketReceived k p => exact execSignalPacketReceived_keeps h k p
  | msgPacketReceived k p => exact execMsgPacketReceived_keeps h k p
  | ackReceived k p => exact execAckReceived_keeps h k p
  | creditPacketReceived k p => exact execCreditPacketReceived_keeps h k p
  | noticeReceived k p => exact execNoticeReceived_keeps h k p
  | requestTimeout xid => exact execRequestTimeout_keeps h xid
  | dupEntryExpiry dev xid => exact execDupEntryExpiry_keeps h dev xid
  | reorderHoldExpiry k => exact execReorderHoldExpiry_keeps h k
  | timePacketTimer => exact execTimePacketTimer_keeps h
  | timePacketReceived k payload => exact execTimePacketReceived_keeps h k payload
  | upstreamStale => exact execUpstreamStale_keeps h
  | holdoverAlignExpiry => exact execHoldoverAlignExpiry_keeps h
  | ppsEdge capt => exact execPpsEdge_keeps h capt
  | ppsMissing => exact execPpsMissing_keeps h
  | scheduledPacketSend xid => exact execScheduledPacketSend_keeps h xid
  | ethFrameDiscard p f => exact execEthFrameDiscard_keeps h p f
  | arpRequest p mac ip target => exact execArpRequest_keeps h p mac ip target
  | neighbourSolicitation p mac ip target => exact execNeighbourSolicitation_keeps h p mac ip target
  | icmpEcho p v6 mac ip target body => exact execIcmpEcho_keeps h p v6 mac ip target body
  | session port m held => exact execSession_keeps h port m held
  | regRead port m held => exact execRegRead_keeps h port m held
  | regWrite port m held => exact execRegWrite_keeps h port m held
  | jobLoad port m held img => exact execJobLoad_keeps h port m held img
  | jobStart port m held => exact execJobStart_keeps h port m held
  | jobStartTime p => exact execJobStartTime_keeps h p
  | abort port m held => exact execAbort_keeps h port m held
  | jobUnload port m held => exact execJobUnload_keeps h port m held
  | jobStatus port m held => exact execJobStatus_keeps h port m held
  | qpOpen port m held => exact execQpOpen_keeps h port m held
  | qpClose port m held => exact execQpClose_keeps h port m held
  | rdmaReg port m held => exact execRdmaReg_keeps h port m held
  | rdmaDereg port m held => exact execRdmaDereg_keeps h port m held
  | telemetryRecord port m held => exact execTelemetryRecord_keeps h port m held
  | telemetryNumeric port m held => exact execTelemetryNumeric_keeps h port m held
  | gooseStatus port m held => exact execGooseStatus_keeps h port m held
  | gooseRead port m held => exact execGooseRead_keeps h port m held
  | gooseFreeze port m held => exact execGooseFreeze_keeps h port m held
  | gooseThaw port m held => exact execGooseThaw_keeps h port m held
  | attest port m held => exact execAttest_keeps h port m held
  | resetWarm port m held => exact execResetWarm_keeps h port m held
  | resetCold port m held => exact execResetCold_keeps h port m held
  | unknownOp port m op => exact execUnknownOp_keeps h port m op
  | roceSend port qpn psn ce first last data => exact execRoceSend_keeps h port qpn psn ce first last data
  | roceRdmaWrite port qpn psn ce first last k a n data => exact execRoceRdmaWrite_keeps h port qpn psn ce first last k a n data
  | roceRdmaRead port qpn psn ce k a n mtu => exact execRoceRdmaRead_keeps h port qpn psn ce k a n mtu
  | roceInvalidRequest port qpn psn ce => exact execRoceInvalidRequest_keeps h port qpn psn ce
  | roceCnpReceived qpn => exact execRoceCnpReceived_keeps h qpn
  | cnpRateRecovery qpn => exact execCnpRateRecovery_keeps h qpn
  | ackCoalesceTimer qpn => exact execAckCoalesceTimer_keeps h qpn
  | ptpAnnounce domain m => exact execPtpAnnounce_keeps h domain m
  | ptpSync domain sender seq rx origin corr => exact execPtpSync_keeps h domain sender seq rx origin corr
  | ptpFollowUp domain sender seq origin corr => exact execPtpFollowUp_keeps h domain sender seq origin corr
  | ptpDelayResp domain sender seq rx corr logInt => exact execPtpDelayResp_keeps h domain sender seq rx corr logInt
  | delayReqTimer => exact execDelayReqTimer_keeps h
  | inputLow mv => exact execInputLow_keeps h mv
  | brownOut dip => exact execBrownOut_keeps h dip
  | overVoltage => exact execOverVoltage_keeps h
  | powerEstimateTick raw sample => exact execPowerEstimateTick_keeps h raw sample
  | calibrationWindow => exact execCalibrationWindow_keeps h
  | measurementFail => exact execMeasurementFail_keeps h
  | voltageStep => exact execVoltageStep_keeps h
  | fastCurrentLimit => exact execFastCurrentLimit_keeps h
  | overcurrentTrip => exact execOvercurrentTrip_keeps h
  | temperatureSample compute dies optical plant => exact execTemperatureSample_keeps h compute dies optical plant
  | allowanceStep r => exact execAllowanceStep_keeps h r
  | thermalTrip cls ix t => exact execThermalTrip_keeps h cls ix t
  | thermalTripClear => exact execThermalTripClear_keeps h
  | tachFault k hz => exact execTachFault_keeps h k hz
  | coolOkDeassert => exact execCoolOkDeassert_keeps h
  | plantFaultClear => exact execPlantFaultClear_keeps h
  | throttleNAssert => exact execThrottleNAssert_keeps h
  | throttleNRelease secs => exact execThrottleNRelease_keeps h secs
  | throttleNHour => exact execThrottleNHour_keeps h
  | releaseHoldEnd => exact execReleaseHoldEnd_keeps h
  | idleClockStop c => exact execIdleClockStop_keeps h c
  | launchWake c => exact execLaunchWake_keeps h c
  | powerOn pwrEn => exact execPowerOn_keeps h pwrEn
  | pwrEnRise early => exact execPwrEnRise_keeps h early
  | pwrEnFall => exact execPwrEnFall_keeps h
  | resetPin => exact execResetPin_keeps h
  | watchdog => exact execWatchdog_keeps h
  | firmwareRequest cold => exact execFirmwareRequest_keeps h cold
  | bullockFault => exact execBullockFault_keeps h
  | rngHealthFail => exact execRngHealthFail_keeps h
  | rngReseedTimer => exact execRngReseedTimer_keeps h
  | debugUnlock answer => exact execDebugUnlock_keeps h answer
  | gooseRecordWrite fails => exact execGooseRecordWrite_keeps h fails
  | repeatUpdate => exact execRepeatUpdate_keeps h
  | freezeTimeout => exact execFreezeTimeout_keeps h
  | hoursTimer => exact execHoursTimer_keeps h
  | slotIdChange new => exact execSlotIdChange_keeps h new
  | uartFrameReceived bs bad img held => exact execUartFrameReceived_keeps h bs bad img held
  | uartByteTimeout => exact execUartByteTimeout_keeps h
  | smbusStatus rd => exact execSmbusStatus_keeps h rd
  | smbusSerial rd => exact execSmbusSerial_keeps h rd
  | smbusOtherCommand addr code => exact execSmbusOtherCommand_keeps h addr code
  | smbusTimeout => exact execSmbusTimeout_keeps h
  | smbusRefresh => exact execSmbusRefresh_keeps h
  | resetNRelease => exact execResetNRelease_keeps h
  | pwrEnHoldEnd => exact execPwrEnHoldEnd_keeps h
  | coolOkAssert => exact execCoolOkAssert_keeps h
  | pfcFrameReceived p prio pause => exact execPfcFrameReceived_keeps h p prio pause
  | ethLinkLoss p => exact execEthLinkLoss_keeps h p
  | ethLinkUp p => exact execEthLinkUp_keeps h p

/-- A step keeps the memories canonical and the fuses. -/
theorem step (s : State) : Keeps.Out s (step s) := by
  unfold Machine.step
  split
  · exact next (refl s).idleTick
  · next c rest _ => exact exec (t := s.withPending rest) (refl s) c

end Sys2Proof.Machine.State.Keeps

namespace Sys2Proof.Machine

/-- Settles O59: every function of the model that writes a memory leaves it canonical. -/
theorem memoriesStayCanonical : Obligations.MemoriesStayCanonical := by
  rintro s t hw hs
  obtain ⟨hms, hfl, -⟩ := State.Keeps.step s t hs
  exact ⟨hms hw.1, hfl hw.2⟩

/-- Settles O60: only the programming of fuses changes them, and that takes the maximum. -/
theorem fusesOnlyRise : Obligations.FusesOnlyRise := by
  rintro s t hs
  obtain ⟨-, -, ⟨hst, hbu, hrev⟩, -⟩ := State.Keeps.step s t hs
  exact ⟨hst, hbu, hrev⟩

end Sys2Proof.Machine
end

section
/-! PROOFS. O57 StepRunsFront. -/

namespace Sys2Proof.Machine

/-- Settles O57, by the two cases of the queue. -/
theorem stepRunsFront : Obligations.StepRunsFront := by
  intro i rest s
  constructor <;> intro h <;> simp [step, h, State.withPending]

end Sys2Proof.Machine
end

section
/-! PROOFS. Bytes, numbers and memories: what reads back. -/

namespace Sys2Proof.Machine

/-! ## Little-endian numbers and slices -/

@[simp] theorem length_leBytes (n x : Nat) : (leBytes n x).length = n := by
  induction n generalizing x with
  | zero => rfl
  | succ n ih => simp [leBytes, ih]

theorem leNat_lt (bs : List Byte) : leNat bs < 256 ^ bs.length := by
  induction bs with
  | nil => simp [leNat]
  | cons b bs ih =>
    have hb := b.isLt
    rw [leNat, List.length_cons, Nat.pow_succ]
    omega

theorem leNat_leBytes (n x : Nat) : leNat (leBytes n x) = x % 256 ^ n := by
  induction n generalizing x with
  | zero => simp [leBytes, leNat, Nat.mod_one]
  | succ n ih =>
    rw [leBytes, leNat, ih, BitVec.toNat_ofNat, show (2 : Nat) ^ 8 = 256 from rfl, Nat.pow_succ', Nat.mod_mul]

theorem leBytes_leNat (bs : List Byte) : leBytes bs.length (leNat bs) = bs := by
  induction bs with
  | nil => rfl
  | cons b bs ih =>
    have low : BitVec.ofNat 8 (b.toNat + 256 * leNat bs) = b := by
      apply BitVec.eq_of_toNat_eq
      rw [BitVec.toNat_ofNat]
      omega
    have high : (b.toNat + 256 * leNat bs) / 256 = leNat bs := by omega
    rw [List.length_cons, leBytes, leNat, low, high, ih]

/-- The bytes of a number tell the number. -/
theorem leNat_eq_iff (bs : List Byte) (v : Nat) (h : v < 256 ^ bs.length) : leNat bs = v ↔ bs = leBytes bs.length v := by
  constructor
  · rintro rfl
    rw [leBytes_leNat]
  · intro e
    rw [e, leNat_leBytes, Nat.mod_eq_of_lt h]

/-- A slice inside a list. -/
theorem slice_eq (bs : List Byte) (off n : Nat) (h : off + n ≤ bs.length) : slice bs off n = (bs.drop off).take n := by
  have none : n - (bs.length - off) = 0 := by omega
  simp [slice, none]

/-- The slice between what stands before it and what stands after it. -/
theorem slice_append (a b c : List Byte) (off n : Nat) (ha : off = a.length) (hb : n = b.length) : slice (a ++ b ++ c) off n = b := by
  subst ha hb
  rw [slice_eq _ _ _ (by simp), List.append_assoc, List.drop_left, List.take_left]

/-! ## Memory: bytes read back -/

theorem Mem.readN_getD (m : Mem) (d e : Byte) (a n i : Nat) (h : i < n) : (m.readN d a n).getD i e = m.read d (a + i) := by
  induction n generalizing a i with
  | zero => omega
  | succ n ih =>
    cases i with
    | zero => rfl
    | succ i =>
      rw [Mem.readN, List.getD_cons_succ, ih (a + 1) i (by omega)]
      congr 1
      omega

/-- Two stretches of memory hold the same bytes when each byte is the same. -/
theorem Mem.readN_eq_of_getD {m : Mem} {d : Byte} {a : Nat} {bs : List Byte}
    (h : ∀ i, i < bs.length → m.read d (a + i) = bs.getD i d) : m.readN d a bs.length = bs := by
  refine List.ext_getElem (Mem.readN_length m d a _) (fun i hi hj => ?_)
  rw [← List.getD_eq_getElem _ d hi, ← List.getD_eq_getElem _ d hj, Mem.readN_getD _ _ _ _ _ _ hj]
  exact h i hj

/-- What was written reads back. -/
theorem Mem.readN_writeN (m : Mem) (d : Byte) (a : Nat) (bs : List Byte) (h : m.wf d = true) :
    (m.writeN d a bs).readN d a bs.length = bs := by
  refine Mem.readN_eq_of_getD (fun i hi => ?_)
  rw [Mem.read_writeN bs m d a (a + i) h, if_pos ⟨Nat.le_add_right a i, by omega⟩, Nat.add_sub_cancel_left]

theorem Mem.read_clearRange (m : Mem) (d : Byte) (lo hi x : Nat) :
    (m.clearRange lo hi).read d x = if lo ≤ x ∧ x < hi then d else m.read d x := by
  induction m with
  | nil => simp [Mem.clearRange]
  | cons e r ih =>
    obtain ⟨a, b⟩ := e
    simp only [Mem.clearRange, List.filter_cons] at ih ⊢
    by_cases hx : a = x
    · subst hx
      by_cases hr : a < lo ∨ hi ≤ a
      · rw [if_pos (by simpa using hr), if_neg (by omega)]
        simp [Mem.read]
      · rw [if_neg (by simpa using hr), ih, if_pos (by omega), if_pos (by omega)]
    · have step : Mem.read ((a, b) :: r) d x = Mem.read r d x := by simp [Mem.read, hx]
      split
      · simp only [Mem.read, if_neg hx, ih]
      · rw [ih, step]

/-- Each of the first n places of a vector written in turn. -/
theorem getD_foldl_vmod {α : Type} {n : Nat} (g : Nat → α) (k : Nat) (v : Vector α n) (i : Nat) (d : α) (hi : i < k) (hn : i < n) :
    ((List.range k).foldl (fun v w => vmod v w (fun _ => g w)) v).getD i d = g i := by
  induction k with
  | zero => omega
  | succ k ih =>
    rw [List.range_succ, List.foldl_append]
    simp only [List.foldl_cons, List.foldl_nil, getD_vmod]
    grind

end Sys2Proof.Machine
end

section
/-! PROOFS. O50 FlashCommands. -/

namespace Sys2Proof.Machine

/-! ## The flash commands -/

theorem crcOk_bootRecordBytes (st bu : Bool) : crcOk (bootRecordBytes st bu) = true := by
  cases st <;> cases bu <;> decide +kernel

theorem FlashBlk.bytes_of_put (f : FlashBlk) (a : Nat) (bs : List Byte) (h : f.flash.wf 0xFF = true) :
    (f.put a bs).bytes a bs.length = bs := Mem.readN_writeN f.flash 0xFF a bs h

theorem FlashBlk.bootRecord_writeBoot (f : FlashBlk) (st bu : Bool) (h : f.flash.wf 0xFF = true) :
    (f.writeBoot st bu).bootRecord = (st, bu) := by
  have back : (f.writeBoot st bu).bytes 0x20000 8 = bootRecordBytes st bu :=
    FlashBlk.bytes_of_put _ 0x20000 (bootRecordBytes st bu) (Mem.clearRange_wf _ _ _ _ h)
  simp only [FlashBlk.bootRecord, back, crcOk_bootRecordBytes, if_true]
  cases st <;> cases bu <;> rfl

theorem FlashBlk.read_writeBoot (f : FlashBlk) (st bu : Bool) (h : f.flash.wf 0xFF = true) (a : Nat)
    (out : ¬ (0x20000 ≤ a ∧ a < 0x30000)) : (f.writeBoot st bu).flash.read 0xFF a = f.flash.read 0xFF a := by
  have size : (bootRecordBytes st bu).length = 8 := rfl
  simp only [FlashBlk.writeBoot, FlashBlk.put, Mem.read_writeN _ _ _ _ _ (Mem.clearRange_wf _ _ _ _ h), size, Mem.read_clearRange]
  rw [if_neg (by omega), if_neg out]

theorem State.flashStart_busy (s : State) (o : FlashOp) (h : s.fl.op.isSome = true) :
    s.flashStart o = s.modFl (fun f => { f with err := true }) := if_pos h

theorem FlashBlk.bufBytes_length (f : FlashBlk) : f.bufBytes.length = 256 := by
  have eight : ∀ x : Nat, (leBytes 8 x).length = 8 := fun _ => rfl
  simp [FlashBlk.bufBytes, List.length_flatMap, eight]

theorem State.flashProtected_low (s : State) (a : Nat) (h : a < 0x30000) : s.flashProtected a = true := by
  have low : a / 65536 ≤ 2 := by omega
  simp [State.flashProtected, low]

theorem State.flashStart_free (s : State) (o : FlashOp) (idle : s.fl.op = none)
    (ok : ∀ a, (o = .program a ∨ o = .erase a) → s.flashProtected a = false) :
    s.flashStart o = s.modFl (fun f => { f with op := some o }) := by
  unfold State.flashStart
  cases o <;> simp [idle, ok]

theorem State.flashStart_guarded (s : State) (o : FlashOp) (a : Nat) (idle : s.fl.op = none) (ho : o = .program a ∨ o = .erase a)
    (guarded : s.flashProtected a = true) : s.flashStart o = s.modFl (fun f => { f with prot := true }) := by
  unfold State.flashStart
  rcases ho with rfl | rfl <;> simp [idle, guarded]

theorem exec_flashCommandDone (s : State) (failed : Bool) :
    exec (.flashCommandDone failed) s = .next { s with fl := s.fl.finishOp failed } := rfl

/-- Settles O50, a row and a state of the flash at a time. -/
theorem flashCommands : Obligations.FlashCommands := by
  unfold Obligations.FlashCommands
  intro v s page sector byte
  refine ⟨fun hw => ?boot, ?rows, fun low => ?guarded, fun idle => ?none, fun a op => ?read, fun a op hw => ?program,
    fun a op => ?erase, fun o op => ?failed⟩
  case boot =>
    exact ⟨_, rfl, s.fl.bootRecord_writeBoot _ _ hw, fun a out => s.fl.read_writeBoot _ _ hw a out, rfl⟩
  case rows =>
    simp only [List.forall_mem_cons, List.not_mem_nil, false_imp_iff, implies_true, and_true]
    refine ⟨⟨fun busy => ?_, fun _ h => Bool.noConfusion h, fun idle _ => ?_⟩, ⟨fun busy => ?_, fun idle h => ?_, fun idle h => ?_⟩,
      fun busy => ?_, fun idle h => ?_, fun idle h => ?_⟩
    · exact congrArg Host.Outcome.next (s.flashStart_busy _ busy)
    · exact congrArg Host.Outcome.next (s.flashStart_free (.readPage page) idle (by simp))
    · exact congrArg Host.Outcome.next (s.flashStart_busy _ busy)
    · exact congrArg Host.Outcome.next (s.flashStart_guarded (.program page) page idle (.inl rfl) h)
    · exact congrArg Host.Outcome.next (s.flashStart_free (.program page) idle (by simpa using h))
    · exact congrArg Host.Outcome.next (s.flashStart_busy _ busy)
    · exact congrArg Host.Outcome.next (s.flashStart_guarded (.erase sector) sector idle (.inr rfl) h)
    · exact congrArg Host.Outcome.next (s.flashStart_free (.erase sector) idle (by simpa using h))
  case guarded => exact ⟨s.flashProtected_low _ (by omega), s.flashProtected_low _ (by omega)⟩
  case none => simp [exec_flashCommandDone, FlashBlk.finishOp, idle]
  case read =>
    refine ⟨_, exec_flashCommandDone s false, fun w hw => ?_, ?_⟩
    · simp only [FlashBlk.finishOp, op, Bool.false_eq_true, if_false]
      rw [getD_foldl_vmod _ 32 _ w 0 hw hw]
      rfl
    · simp [FlashBlk.finishOp, op]
  case program =>
    have done : s.fl.finishOp false = ({ s.fl with op := none, done := true } : FlashBlk).put a s.fl.bufBytes := by
      simp [FlashBlk.finishOp, op]
    refine ⟨_, exec_flashCommandDone s false, ?_, fun x out => ?_, ?_⟩
    · rw [done, ← s.fl.bufBytes_length]
      exact Mem.readN_writeN _ _ _ _ hw
    · simp only [byte, done, FlashBlk.put, Mem.read_writeN _ _ _ _ _ hw, s.fl.bufBytes_length, if_neg out]
    · rw [done]
      rfl
  case erase =>
    have done : s.fl.finishOp false =
        { s.fl with op := none, done := true, flash := s.fl.flash.clearRange a (a + 65536) } := by
      simp [FlashBlk.finishOp, op]
    refine ⟨_, exec_flashCommandDone s false, fun x => ?_, ?_⟩
    · simp only [byte, done, Mem.read_clearRange]
    · rw [done]
  case failed =>
    refine ⟨_, exec_flashCommandDone s true, ?_⟩
    cases o <;> simp [FlashBlk.finishOp, op, FlashBlk.put]

end Sys2Proof.Machine
end

section
/-! PROOFS. O51 FusesAndKeys. -/

namespace Sys2Proof.Machine

/-- What a write of SYS.CTRL starts while no fuse is programmed. -/
theorem SecBlk.writeCtrl_busy (x : SecBlk) (v : Reg) (h : x.fuses ≠ []) : x.writeCtrl v = { x with badWrite := true } := by
  simp [SecBlk.writeCtrl, h]

theorem SecBlk.writeCtrl_commitSt (x : SecBlk) (h : x.fuses = []) : x.writeCtrl 1 =
    { x with fuses := if x.floorSt.toNat < x.stSvn.toNat then [.commitSt] else [], fuseBits := 1 } := by
  have asked : (List.range 4).filter (fun j => bitB (1 : Reg) (4 + j)) = [] := by decide
  have b0 : bitB (1 : Reg) 0 = true := by decide
  have b1 : bitB (1 : Reg) 1 = false := by decide
  have b8 : bitB (1 : Reg) 8 = false := by decide
  have f : fld (1 : Reg) 0 8 = (1 : BitVec 8) := by decide
  simp only [SecBlk.writeCtrl, asked, b0, b1, b8, f]
  simp [h]

theorem SecBlk.writeCtrl_commitBu (x : SecBlk) (h : x.fuses = []) : x.writeCtrl 2 =
    { x with fuses := if x.floorBu.toNat < x.buSvn.toNat then [.commitBu] else [], fuseBits := 2 } := by
  have asked : (List.range 4).filter (fun j => bitB (2 : Reg) (4 + j)) = [] := by decide
  have b0 : bitB (2 : Reg) 0 = false := by decide
  have b1 : bitB (2 : Reg) 1 = true := by decide
  have b8 : bitB (2 : Reg) 8 = false := by decide
  have f : fld (2 : Reg) 0 8 = (2 : BitVec 8) := by decide
  simp only [SecBlk.writeCtrl, asked, b0, b1, b8, f]
  simp [h]

/-- The bits of a write that asks for the revocation of key j alone. -/
theorem revokeBits (j : Fin 4) :
    (List.range 4).filter (fun k => bitB (BitVec.ofNat 64 (2 ^ (4 + j.val)) : Reg) (4 + k)) = [j.val] ∧
    bitB (BitVec.ofNat 64 (2 ^ (4 + j.val)) : Reg) 0 = false ∧ bitB (BitVec.ofNat 64 (2 ^ (4 + j.val)) : Reg) 1 = false ∧
    bitB (BitVec.ofNat 64 (2 ^ (4 + j.val)) : Reg) 8 = false ∧
    fld (BitVec.ofNat 64 (2 ^ (4 + j.val)) : Reg) 0 8 = BitVec.twoPow 8 (4 + j.val) := by
  revert j
  decide

theorem SecBlk.writeCtrl_revoke (x : SecBlk) (j : Fin 4) (h : x.fuses = []) (may : j.val < x.stKey.toNat ∧ j.val < x.buKey.toNat) :
    x.writeCtrl (BitVec.ofNat 64 (2 ^ (4 + j.val))) =
      { x with fuses := [.revoke j.val], fuseBits := BitVec.twoPow 8 (4 + j.val) } := by
  obtain ⟨asked, b0, b1, b8, bits⟩ := revokeBits j
  simp only [SecBlk.writeCtrl, asked, b0, b1, b8, bits]
  simp [h, may]

theorem SecBlk.writeCtrl_needed (x : SecBlk) (j : Fin 4) (h : x.fuses = []) (may : ¬ (j.val < x.stKey.toNat ∧ j.val < x.buKey.toNat)) :
    x.writeCtrl (BitVec.ofNat 64 (2 ^ (4 + j.val))) =
      { x with fuses := [], badWrite := true, fuseBits := BitVec.twoPow 8 (4 + j.val) } := by
  obtain ⟨asked, b0, b1, b8, bits⟩ := revokeBits j
  simp only [SecBlk.writeCtrl, asked, b0, b1, b8, bits]
  simp [h, may]
  omega

/-- A floor goes up to the running image's SVN and never down (R407). -/
theorem floor_raised (a : BitVec 7) (n : Nat) (h : n ≤ 64) : (BitVec.ofNat 7 (max a.toNat (min 64 n))).toNat = max a.toNat n := by
  rw [BitVec.toNat_ofNat]
  omega

theorem getLsbD_setBit (v : BitVec 4) (k i : Nat) : (setBit v k).getLsbD i = (v.getLsbD i || (decide (k = i) && decide (i < 4))) := by
  simp only [setBit, BitVec.getLsbD_or, BitVec.getLsbD_twoPow]
  grind

theorem SecBlk.floorSt_fuseDone (x : SecBlk) (o : FuseOp) (r : List FuseOp) (h : x.fuses = o :: r) (hs : x.stSvn.toNat ≤ 64) :
    x.fuseDone.floorSt.toNat = if o = .commitSt then max x.floorSt.toNat x.stSvn.toNat else x.floorSt.toNat := by
  cases o <;> simp [SecBlk.fuseDone, h, floor_raised _ _ hs]

theorem SecBlk.floorBu_fuseDone (x : SecBlk) (o : FuseOp) (r : List FuseOp) (h : x.fuses = o :: r) (hs : x.buSvn.toNat ≤ 64) :
    x.fuseDone.floorBu.toNat = if o = .commitBu then max x.floorBu.toNat x.buSvn.toNat else x.floorBu.toNat := by
  cases o <;> simp [SecBlk.fuseDone, h, floor_raised _ _ hs]

theorem SecBlk.revoked_fuseDone (x : SecBlk) (o : FuseOp) (r : List FuseOp) (h : x.fuses = o :: r) (k : Nat) :
    x.fuseDone.revoked.getLsbD k = (x.revoked.getLsbD k || (decide (o = .revoke k) && decide (k < 4))) := by
  cases o <;> simp [SecBlk.fuseDone, h, getLsbD_setBit]

theorem SecBlk.fuseBits_fuseDone (x : SecBlk) : x.fuseDone.fuseBits = x.fuseBits := by
  unfold SecBlk.fuseDone
  split <;> rfl

theorem exec_fuseOperationDone (s : State) (o : FuseOp) (r : List FuseOp) (h : s.sec.fuses = o :: r) :
    ∃ x : SecBlk, x = { s.sec.fuseDone with fuses := r } ∧ exec .fuseOperationDone s = .next (State.log { s with sec := x } x.fuseEvent) := by
  refine ⟨_, rfl, ?_⟩
  change execFuseOperationDone s = _
  simp [execFuseOperationDone, h, State.modSec]

theorem exec_debugUnlock_denied (s : State) (a : Option (List Byte)) (h : (BitVec.ofNat 8 (s.fl.opt 0x10 1)).getLsbD 1 = false) :
    exec (.debugUnlock a) s = .next s := by
  change execDebugUnlock a s = _
  rw [execDebugUnlock.eq_def, h]
  rfl

/-- A valid answer to the challenge, on a part that permits it. -/
theorem exec_debugUnlock_good (s : State) (sig : List Byte) (permit : (BitVec.ofNat 8 (s.fl.opt 0x10 1)).getLsbD 1 = true)
    (asked : s.sec.challenge ≠ [])
    (good : sigOk .debugUnlock Config.debugKey (s.sec.challenge ++ slice s.fl.ob 0x20 16) sig = true) :
    exec (.debugUnlock (some sig)) s = .next { s with sec := { s.sec with unlockNext := true, challenge := [] } } := by
  change execDebugUnlock (some sig) s = _
  rw [execDebugUnlock, permit]
  simp [asked, good, State.modSec]

theorem exec_debugUnlock_wrong (s : State) (sig : List Byte) (wrong : s.sec.challenge = [] ∨
    sigOk .debugUnlock Config.debugKey (s.sec.challenge ++ slice s.fl.ob 0x20 16) sig = false) :
    exec (.debugUnlock (some sig)) s = .next s := by
  have refused : (!s.sec.challenge.isEmpty &&
      sigOk .debugUnlock Config.debugKey (s.sec.challenge ++ slice s.fl.ob 0x20 16) sig) = false := by
    rcases wrong with h | h <;> simp [h]
  change execDebugUnlock (some sig) s = _
  simp only [execDebugUnlock, refused]
  split <;> rfl

/-- Settles O51, a row at a time. -/
theorem fusesAndKeys : Obligations.FusesAndKeys := by
  unfold Obligations.FusesAndKeys
  intro j sig s x may permit good
  have committedSt {y : SecBlk} (h : x.writeCtrl 1 = y) : exec .commitSt s = .next { s with sec := y } := by rw [← h]; rfl
  have committedBu {y : SecBlk} (h : x.writeCtrl 2 = y) : exec .commitBu s = .next { s with sec := y } := by rw [← h]; rfl
  have revoked {y : SecBlk} (h : x.writeCtrl (BitVec.ofNat 64 (2 ^ (4 + j.val))) = y) :
      exec (.revoke j) s = .next { s with sec := y } := by rw [← h]; rfl
  refine ⟨fun busy => ?_, fun idle => committedSt (x.writeCtrl_commitSt idle), fun idle => committedBu (x.writeCtrl_commitBu idle),
    fun idle ok => revoked (x.writeCtrl_revoke j idle ok), fun idle no => revoked (x.writeCtrl_needed j idle no),
    fun idle => ?noFuse, fun o r fuses hst hbu => ?fuse, rfl, fun h => ?noSeed, fun d fail seeded => ?seed,
    fun denied => ⟨exec_debugUnlock_denied s none denied, exec_debugUnlock_denied s (some sig) denied⟩, fun ok => ?challenge,
    fun d seeded few => ?draw, fun ok asked h => exec_debugUnlock_good s sig ok asked h, fun h => exec_debugUnlock_wrong s sig h⟩
  · simp only [List.forall_mem_cons, List.not_mem_nil, false_imp_iff, implies_true, and_true]
    exact ⟨committedSt (x.writeCtrl_busy _ busy), committedBu (x.writeCtrl_busy _ busy), revoked (x.writeCtrl_busy _ busy)⟩
  case noFuse =>
    change execFuseOperationDone s = _
    simp [execFuseOperationDone, x, idle]
  case fuse =>
    obtain ⟨y, hy, run⟩ := exec_fuseOperationDone s o r fuses
    refine ⟨_, run, ?_⟩
    subst hy
    refine ⟨rfl, x.floorSt_fuseDone o r fuses hst, x.floorBu_fuseDone o r fuses hbu, x.revoked_fuseDone o r fuses, ?_, rfl⟩
    simp only [SecBlk.fuseEvent, State.log, SecBlk.fuseBits_fuseDone, x]
  case noSeed =>
    change execRngReseedTimer s = _
    rcases h with h | h <;> simp [execRngReseedTimer, State.modSec, SecBlk.retrySeed, x, h]
  case seed =>
    change execRngReseedTimer s = _
    simp [execRngReseedTimer, State.modSec, SecBlk.retrySeed, x, fail, seeded]
  case challenge =>
    change execDebugUnlock none s = _
    exact if_pos ok
  case draw =>
    have ready : x.drbgReady = (d, x.drawn) := by
      simp only [SecBlk.drbgReady, seeded]
      exact if_neg (by omega)
    simp only [SecBlk.draw, ready]
    rfl

end Sys2Proof.Machine
end

section
/-! PROOFS. O56 PinsAndSerial. -/

namespace Sys2Proof.Machine

/-! ## UART frames (R442) -/

/-- A frame on the UART: the two start bytes, the length, the message and four bytes for the CRC. -/
def uartBytes (n : Nat) (m bs : List Byte) : List Byte := [0xA5, 0x5A] ++ leBytes 2 n ++ m ++ bs

theorem uartFrame_eq (m : List Byte) :
    uartFrame m = uartBytes m.length m (leBytes 4 (crc32 (leBytes 2 m.length ++ m)).toNat) := by
  simp [uartFrame, uartBytes]

theorem hunt_uartBytes (n : Nat) (m bs : List Byte) : hunt (uartBytes n m bs) = uartBytes n m bs := rfl

theorem length_uartBytes (n : Nat) (m bs : List Byte) : (uartBytes n m bs).length = 4 + m.length + bs.length := by
  simp [uartBytes]
  omega

theorem leAt_uartBytes_length (n : Nat) (m bs : List Byte) (h : n < 65536) : leAt (uartBytes n m bs) 2 2 = n := by
  rw [leAt, uartBytes, List.append_assoc _ m bs, slice_append [0xA5, 0x5A] (leBytes 2 n) (m ++ bs) 2 2 rfl rfl, leNat_leBytes]
  exact Nat.mod_eq_of_lt h

theorem slice_uartBytes_message (n : Nat) (m bs : List Byte) : slice (uartBytes n m bs) 4 m.length = m :=
  slice_append ([0xA5, 0x5A] ++ leBytes 2 n) m bs 4 m.length rfl rfl

theorem slice_uartBytes_checked (n : Nat) (m bs : List Byte) : slice (uartBytes n m bs) 2 (m.length + 2) = leBytes 2 n ++ m := by
  rw [uartBytes, List.append_assoc [0xA5, 0x5A] (leBytes 2 n) m]
  exact slice_append [0xA5, 0x5A] (leBytes 2 n ++ m) bs 2 (m.length + 2) rfl (by simp; omega)

theorem leAt_uartBytes_crc (n : Nat) (m bs : List Byte) (h : bs.length = 4) : leAt (uartBytes n m bs) (m.length + 4) 4 = leNat bs := by
  have last := slice_append ([0xA5, 0x5A] ++ leBytes 2 n ++ m) bs [] (m.length + 4) 4 (by simp; omega) h.symm
  rw [List.append_nil] at last
  rw [leAt, uartBytes, last]

/-- With no byte left, nothing is kept. -/
theorem State.uartTake_nil (held : Bool) (img : Option JobImage) (n : Nat) (s : State) :
    s.uartTake held img n [] = s.modPins (fun p => { p with uartPart := [] }) := by
  cases n with
  | zero => rfl
  | succ n => rfl

/-- A whole frame of a legal length is taken or refused by its CRC-32. -/
theorem State.uartTake_uartBytes (held : Bool) (img : Option JobImage) (n : Nat) (s : State) (m bs : List Byte)
    (low : 32 ≤ m.length) (high : m.length ≤ 8192) (four : bs.length = 4) :
    State.uartTake held img (n + 1) s (uartBytes m.length m bs) =
      if bs = leBytes 4 (crc32 (leBytes 2 m.length ++ m)).toNat then
        (s.gmcpIn { port := 2, msg := m, ft := s.now, image := img } held).modPins (fun p => { p with uartPart := [] })
      else s.uartCrcError.modPins (fun p => { p with uartPart := [] }) := by
  have len := length_uartBytes m.length m bs
  have crc : leNat bs = (crc32 (leBytes 2 m.length ++ m)).toNat ↔ bs = leBytes 4 (crc32 (leBytes 2 m.length ++ m)).toNat := by
    rw [leNat_eq_iff _ _ (by rw [four]; exact BitVec.isLt _), four]
  unfold State.uartTake
  simp only [hunt_uartBytes, leAt_uartBytes_length _ m bs (by omega : m.length < 65536)]
  rw [if_neg (by omega), if_neg (by omega), if_neg (by omega), List.take_of_length_le (by omega), List.drop_of_length_le (by omega),
    leAt_uartBytes_crc _ _ _ four, slice_uartBytes_checked, slice_uartBytes_message]
  simp only [crc, State.uartTake_nil]

/-- A length out of range counts as a frame error. -/
theorem State.uartTake_badLength (held : Bool) (img : Option JobImage) (n k : Nat) (s : State) (h : n < 65536) (bad : n < 32 ∨ 8192 < n) :
    State.uartTake held img (k + 1) s (uartBytes n [] []) = s.uartFrameError.modPins (fun p => { p with uartPart := [] }) := by
  unfold State.uartTake
  simp only [hunt_uartBytes, leAt_uartBytes_length n [] [] h, length_uartBytes]
  rw [if_neg (by simp), if_pos bad, List.drop_of_length_le (by simp [length_uartBytes]), State.uartTake_nil]

theorem exec_uartFrameReceived (s : State) (bs : List Byte) (img : Option JobImage) (held : Bool) (h : s.pins.uartPart = []) :
    exec (.uartFrameReceived bs false img held) s = .next (s.uartTake held img (bs.length + 1) bs) := by
  change execUartFrameReceived bs false img held s = _
  simp [execUartFrameReceived, h]

/-- Nothing kept before, nothing kept after. -/
theorem State.modPins_uartPart_nil (s : State) (h : s.pins.uartPart = []) : s.modPins (fun p => { p with uartPart := [] }) = s := by
  rw [State.modPins, ← h]

theorem exec_uartFrameReceived_broken (s : State) (img : Option JobImage) (held : Bool) (h : s.pins.uartPart = []) :
    exec (.uartFrameReceived [] true img held) s = .next s.uartFrameError := by
  change execUartFrameReceived [] true img held s = _
  simp only [execUartFrameReceived, List.append_nil, h, State.uartTake_nil, State.modPins_uartPart_nil s h, if_true]
  exact congrArg Host.Outcome.next (State.modPins_uartPart_nil _ h)

theorem exec_uartByteTimeout (s : State) : exec .uartByteTimeout s =
    .next (if s.pins.uartPart = [] then s else s.uartFrameError.modPins (fun p => { p with uartPart := [] })) := by
  change execUartByteTimeout s = _
  simp only [execUartByteTimeout, List.isEmpty_iff]
  split <;> rfl

/-! ## The SMBus target (R443, R444) -/

theorem State.smbusFor_iff (s : State) (a : BitVec 7) : s.smbusFor a = true ↔ a.toNat = 0x58 + s.pins.slotId.toNat % 8 := by
  simp [State.smbusFor]

theorem State.smbusStatus_eq (s : State) : s.smbusStatus = leBytes 2 s.pwr.pinW.toNat ++ leBytes 2 s.pwr.limitW.toNat ++
    [s.pwr.tjMax, s.pwr.hbmMax, s.pwr.inlet, BitVec.ofNat 8 s.pwr.opCur.toNat, s.pwr.asserted,
      BitVec.ofNat 8 (b2n s.rst.ready + 2 * b2n (s.rst.restricted != 0) + 4 * b2n s.pwr.plantFault + 8 * b2n s.time.aligned)] ++
    leBytes 2 s.rst.cause.toNat ++ leBytes 4 s.goose.hours.toNat := by
  simp [State.smbusStatus, leBytes]

/-- Settles O56, a row at a time. -/
theorem pinsAndSerial : Obligations.PinsAndSerial := by
  unfold Obligations.PinsAndSerial
  intro lv m img held bs addr pec code s p rd wr answer mine frame crc
  have other (h : ¬ mine) : s.smbusFor addr = false := by rw [Bool.eq_false_iff, Ne, State.smbusFor_iff]; exact h
  have own (h : mine) : s.smbusFor addr = true := (s.smbusFor_iff addr).mpr h
  refine ⟨fun e => if_pos e, fun e => if_neg e, fun low high part => ?good, fun low high part four wrong => ?badCrc,
    fun n hn bad part => ?badLength, fun part => ?broken, fun part => ?gapNone, fun part => ?gap, fun h => ?notMine,
    fun h => if_pos (own h), fun h => if_pos (own h), fun h two => ?refused, rfl, ?refresh⟩
  case good =>
    refine ⟨_, exec_uartFrameReceived s frame img held part, ?_⟩
    rw [show frame = _ from uartFrame_eq m, State.uartTake_uartBytes _ _ _ _ _ _ low high (length_leBytes 4 _), if_pos rfl]
  case badCrc =>
    rw [exec_uartFrameReceived s _ img held part, ← uartBytes, State.uartTake_uartBytes _ _ _ _ _ _ low high four, if_neg wrong]
    exact congrArg Host.Outcome.next (State.modPins_uartPart_nil _ part)
  case badLength =>
    have whole : [0xA5, 0x5A] ++ leBytes 2 n = uartBytes n [] [] := by simp [uartBytes]
    rw [whole, exec_uartFrameReceived s _ img held part, State.uartTake_badLength _ _ _ _ _ hn bad]
    exact congrArg Host.Outcome.next (State.modPins_uartPart_nil _ part)
  case broken =>
    exact exec_uartFrameReceived_broken s img held part
  case gapNone =>
    rw [exec_uartByteTimeout, if_pos part]
  case gap =>
    rw [exec_uartByteTimeout, if_neg part]
    rfl
  case notMine =>
    simp only [List.forall_mem_cons, List.not_mem_nil, false_imp_iff, implies_true, and_true]
    refine ⟨if_neg ?_, if_neg ?_, if_neg ?_⟩ <;> simp [other h, rd]
  case refused =>
    refine if_pos ?_
    simp [own h, two]
  case refresh =>
    exact ⟨_, rfl, rfl, rfl, s.smbusStatus_eq⟩

end Sys2Proof.Machine
end

section
/-! PROOFS. O55 GooseCommands. -/

namespace Sys2Proof.Machine

/-! ## Writing records (R420, R421, R424) -/

/-- What a record that did not read back leaves: everything but the sequence number, NVM_FAIL and its slot. -/
theorem Goose.failTimes_eq (n : Nat) (g : Goose) : ∃ ring filled, Goose.failTimes n g =
    { g with nextSeq := g.nextSeq + BitVec.ofNat 32 n, nvmFail := g.nvmFail || decide (0 < n), ring := ring, filled := filled } := by
  induction n generalizing g with
  | zero => exact ⟨g.ring, g.filled, by simp [Goose.failTimes]⟩
  | succ n ih =>
    obtain ⟨ring, filled, e⟩ := ih g.failOnce
    refine ⟨ring, filled, ?_⟩
    have seq : g.nextSeq + 1#32 + BitVec.ofNat 32 n = g.nextSeq + BitVec.ofNat 32 (n + 1) := by
      rw [Nat.add_comm n 1, BitVec.ofNat_add, BitVec.add_assoc]
    rw [Goose.failTimes, e]
    simp [Goose.failOnce, Goose.advance, seq]

theorem find?_tabSet {α : Type} (t : List (Nat × α)) (k : Nat) (v : α) :
    (tabSet t k v).find? (fun e => e.1 == k) = some (k, v) := by
  induction t with
  | nil => simp [tabSet]
  | cons e t ih =>
    obtain ⟨k', v'⟩ := e
    simp only [tabSet]
    split
    · simp
    · split
      · simp
      · next h1 h2 =>
        rw [List.find?_cons_of_neg (by simpa using fun h => h2 h.symm), ih]

/-- The record that a write puts in its slot, and what it leaves. -/
theorem Goose.writeNext_cons (g : Goose) (now : BitVec 64) (al : Bool) (n : Nat) (r : GRecord) (rest : List GRecord)
    (live : g.frozen = false) (hq : g.queue = r :: rest) (lost : g.lost = 0) :
    ∃ ring filled, g.writeNext now al n =
      { g with nextSeq := g.nextSeq + BitVec.ofNat 32 n + 1, queue := rest, filled := filled, nvmFail := g.nvmFail || decide (0 < n),
               ring := tabSet ring ((g.nextSeq + BitVec.ofNat 32 n).toNat % 65536)
                 { r with seq := g.nextSeq + BitVec.ofNat 32 n } } := by
  obtain ⟨ring, filled, failed⟩ := Goose.failTimes_eq n g
  refine ⟨ring, filled || g.nextSeq + BitVec.ofNat 32 n == 65535, ?_⟩
  unfold Goose.writeNext
  rw [if_neg (by simp [live]), hq]
  simp only [failed]
  simp [Goose.advance, Goose.summary, lost]

theorem Goose.bySeq_tabSet (g : Goose) (ring : List (Nat × GRecord)) (q : BitVec 32) (r : GRecord) (hr : r.seq = q)
    (h : g.ring = tabSet ring (q.toNat % 65536) r) : g.bySeq q = some r := by
  rw [Goose.bySeq, h, find?_tabSet]
  exact if_pos hr

theorem Goose.writeNext_nil (g : Goose) (now : BitVec 64) (al : Bool) (n : Nat) (h : g.frozen = true ∨ g.queue = []) :
    g.writeNext now al n = g := by
  unfold Goose.writeNext
  rcases h with h | h
  · rw [if_pos h]
  · rw [h]
    split <;> rfl

theorem Goose.writeAllN_nil (n : Nat) (g : Goose) (now : BitVec 64) (al : Bool) (h : g.queue = []) : Goose.writeAllN n g now al = g := by
  induction n with
  | zero => rfl
  | succ n ih => rw [Goose.writeAllN, Goose.writeNext_nil _ _ _ _ (.inr h), ih]

/-- Every queued record is written, each after at most 15 attempts that failed. -/
theorem Goose.writeAllN_eq (q : List GRecord) (n : Nat) (g : Goose) (now : BitVec 64) (al : Bool) (live : g.frozen = false)
    (hq : g.queue = q) (lost : g.lost = 0) (hn : q.length ≤ n) :
    ∃ k ring filled nvm, k ≤ 15 * q.length ∧ Goose.writeAllN n g now al =
      { g with nextSeq := g.nextSeq + BitVec.ofNat 32 (q.length + k), queue := [], filled := filled, nvmFail := nvm, ring := ring } := by
  induction q generalizing n g with
  | nil =>
    refine ⟨0, g.ring, g.filled, g.nvmFail, by simp, ?_⟩
    rw [Goose.writeAllN_nil n g now al hq, List.length_nil, ← hq]
    simp
  | cons r rest ih =>
    obtain _ | n := n
    · simp at hn
    obtain ⟨ring, filled, first⟩ := g.writeNext_cons now al (Config.failedWrites g.nextSeq).val r rest live hq lost
    obtain ⟨k, ring', filled', nvm', hk, all⟩ := ih n (g.writeNext now al (Config.failedWrites g.nextSeq).val)
      (by rw [first]; exact live) (by rw [first]) (by rw [first]; exact lost) (by simpa using hn)
    have few := (Config.failedWrites g.nextSeq).isLt
    refine ⟨k + (Config.failedWrites g.nextSeq).val, ring', filled', nvm', by simp only [List.length_cons]; omega, ?_⟩
    have seq (a : BitVec 32) (x y z : Nat) : a + BitVec.ofNat 32 x + 1 + BitVec.ofNat 32 (y + z) = a + BitVec.ofNat 32 (y + 1 + (z + x)) := by
      apply BitVec.eq_of_toNat_eq
      simp only [BitVec.toNat_add, BitVec.toNat_ofNat, show (1 : BitVec 32).toNat = 1 from rfl]
      omega
    rw [Goose.writeAllN, all, first, List.length_cons, ← seq]

/-! ## Coalescing (R423) -/

theorem Goose.log_newRecord (g : Goose) (now : BitVec 64) (al : Bool) (e : GEvent) (hq : findQueued g.queue e = none)
    (hw : findWritten g e = none) : g.log now al e = g.newRecord now al e := by
  simp [Goose.log, hq, hw]

/-- With room in the queue an event loses nothing. -/
theorem Goose.log_lost (g : Goose) (now : BitVec 64) (al : Bool) (e : GEvent) (room : g.queue.length < 256) :
    (g.log now al e).lost = g.lost ∧ (g.log now al e).frozen = g.frozen := by
  have new : (g.newRecord now al e).lost = g.lost ∧ (g.newRecord now al e).frozen = g.frozen := by simp [Goose.newRecord, room]
  unfold Goose.log
  grind

/-- The new record of an event. -/
def Goose.recordOf (g : Goose) (now : BitVec 64) (al : Bool) (e : GEvent) : GRecord :=
  { ft := now, hours := g.hours, pcycle := g.pcycle, source := BitVec.ofNat 8 e.source,
    lateWrite := g.frozen || !g.queue.isEmpty, aligned := al, code := BitVec.ofNat 16 e.code,
    jobTag := e.jobTag, part := e.part, detail := packDetail e.detail }

theorem Goose.newRecord_room (g : Goose) (now : BitVec 64) (al : Bool) (e : GEvent) (room : g.queue.length < 256) :
    g.newRecord now al e = { g with queue := g.queue ++ [g.recordOf now al e] } := if_pos room

theorem findQueued_last (q : List GRecord) (r : GRecord) (e : GEvent) (h : r.sameEvent e = true) : findQueued (q ++ [r]) e = some 0 := by
  simp [findQueued, List.findIdx?_cons, h]

theorem Goose.recordOf_sameEvent (g : Goose) (now : BitVec 64) (al : Bool) (e : GEvent) (hs : e.source < 256) (hc : e.code < 65536) :
    (g.recordOf now al e).sameEvent e = true := by
  simp [GRecord.sameEvent, Goose.recordOf, Nat.mod_eq_of_lt hs, Nat.mod_eq_of_lt hc]

/-- The event just queued, again at the same instant: its record counts it. -/
theorem Goose.log_again (g : Goose) (now : BitVec 64) (al : Bool) (e : GEvent) (q : List GRecord) (r : GRecord)
    (hq : g.queue = q ++ [r]) (same : r.sameEvent e = true) (hft : r.ft = now) (once : r.repeats = 0) :
    g.log now al e = { g with queue := q ++ [{ r with repeats := 1, lastMs := 0 }] } := by
  have place : (q ++ [r]).length - 1 - 0 = q.length := by simp
  unfold Goose.log
  rw [hq, findQueued_last q r e same]
  simp only [place, List.getElem?_concat_length]
  rw [if_pos (by simp [once, msSince, hft])]
  simp [once, hft, msSince]

/-! ## Freezing and reading (R425, R426) -/

/-- FREEZE and THAW keep the seconds they name, and the one before under 0. -/
def Goose.maxS (g : Goose) (n : BitVec 8) : BitVec 8 := if n = 0 then g.freezeMaxS else n

theorem gooseCtrl_bits (n : BitVec 8) : bitB (BitVec.ofNat 64 (1 + 256 * n.toNat)) 0 = true ∧ bitB (BitVec.ofNat 64 (1 + 256 * n.toNat)) 1 = false ∧
    bitB (BitVec.ofNat 64 (2 + 256 * n.toNat)) 0 = false ∧ bitB (BitVec.ofNat 64 (2 + 256 * n.toNat)) 1 = true ∧
    fld (BitVec.ofNat 64 (1 + 256 * n.toNat)) 8 8 = n ∧ fld (BitVec.ofNat 64 (2 + 256 * n.toNat)) 8 8 = n := by
  revert n
  decide +kernel

theorem Goose.withMaxS (g : Goose) (n : BitVec 8) :
    (if n.toNat = 0 then g else { g with freezeMaxS := n }) = { g with freezeMaxS := g.maxS n } := by
  have zero : n.toNat = 0 ↔ n = 0 := by simp [← BitVec.toNat_inj]
  simp only [Goose.maxS, zero]
  split <;> rfl

theorem exec_ctrlFreeze (s : State) (n : BitVec 8) : exec (.ctrlFreeze n) s =
    .next { s with goose := Goose.freeze { s.goose with freezeMaxS := s.goose.maxS n } s.now } := by
  obtain ⟨b0, b1, -, -, f, -⟩ := gooseCtrl_bits n
  change execCtrlFreeze n s = _
  simp only [execCtrlFreeze, State.writeGooseCtrl, fldN, b0, b1, f, Goose.withMaxS]
  rfl

theorem exec_ctrlThaw (s : State) (n : BitVec 8) : exec (.ctrlThaw n) s =
    .next { s with goose := Goose.thaw { s.goose with freezeMaxS := s.goose.maxS n } s.now s.time.aligned } := by
  obtain ⟨-, -, b0, b1, -, f⟩ := gooseCtrl_bits n
  change execCtrlThaw n s = _
  simp only [execCtrlThaw, State.writeGooseCtrl, fldN, b0, b1, f, Goose.withMaxS]
  rfl

/-- A thaw writes what waits. -/
theorem Goose.thaw_eq (g : Goose) (now : BitVec 64) (al : Bool) (frozen : g.frozen = true) (lost : g.lost = 0) :
    ∃ k ring filled nvm, k ≤ 15 * g.queue.length ∧ g.thaw now al =
      { g with frozen := false, nextSeq := g.nextSeq + BitVec.ofNat 32 (g.queue.length + k), queue := [], filled := filled,
               nvmFail := nvm, ring := ring } := by
  obtain ⟨k, ring, filled, nvm, hk, e⟩ :=
    Goose.writeAllN_eq g.queue (g.queue.length + 1) { g with frozen := false } now al rfl rfl lost (Nat.le_succ _)
  refine ⟨k, ring, filled, nvm, hk, ?_⟩
  rw [Goose.thaw, if_pos frozen]
  exact e

/-- A record with the REPEAT and LAST_MS that the island holds for it. -/
def Goose.withWord7 (g : Goose) (e : Nat × GRecord) : Nat × GRecord :=
  (e.1, { e.2 with repeats := (g.word7 e.2).1, lastMs := (g.word7 e.2).2 })

theorem Goose.writeHeld_live (g : Goose) (live : g.frozen = false) :
    g.writeHeld = { g with ring := g.ring.map g.withWord7, held := [] } := by
  unfold Goose.writeHeld
  rw [if_neg (by simp [live])]
  refine congrArg (fun r => { g with ring := r, held := [] }) (List.map_congr_left (fun e _ => ?_))
  unfold Goose.withWord7 Goose.word7
  cases g.held.find? (fun h => h.1 == e.2.seq) <;> rfl

/-- Held repeats reach their records. -/
theorem Goose.bySeq_writeHeld (g : Goose) (q : BitVec 32) (r : GRecord) (live : g.frozen = false) (h : g.bySeq q = some r) :
    g.writeHeld.bySeq q = some { r with repeats := (g.word7 r).1, lastMs := (g.word7 r).2 } := by
  have keys : (fun e : Nat × GRecord => e.1 == q.toNat % 65536) ∘ g.withWord7 = fun e => e.1 == q.toNat % 65536 := rfl
  unfold Goose.bySeq at h
  split at h
  · next k x hx =>
    obtain ⟨hseq, rfl⟩ : x.seq = q ∧ x = r := by simpa using h
    rw [g.writeHeld_live live, Goose.bySeq, List.find?_map, keys, hx]
    exact if_pos hseq
  · cases h

/-! ## The end of a freeze by its timeout (R425) -/

/-- The record of a timeout that meets an empty queue and no equal record. -/
theorem Goose.bySeq_freezeTimeout (g : Goose) (now : BitVec 64) (al : Bool) (frozen : g.frozen = true) (lost : g.lost = 0)
    (hq : g.queue = []) (hw : findWritten g { source := 0, code := 2, detail := [(g.secondsFrozen, 4)] } = none) :
    (g.freezeTimeout now al).bySeq (g.nextSeq + BitVec.ofNat 32 (Config.failedWrites g.nextSeq).val) =
      some { g.recordOf now al { source := 0, code := 2, detail := [(g.secondsFrozen, 4)] } with
        seq := g.nextSeq + BitVec.ofNat 32 (Config.failedWrites g.nextSeq).val } := by
  let e : GEvent := { source := 0, code := 2, detail := [(g.secondsFrozen, 4)] }
  have logged : g.log now al e = { g with queue := [g.recordOf now al e] } := by
    rw [Goose.log_newRecord g now al e (by rw [hq]; rfl) hw, Goose.newRecord_room _ _ _ _ (by simp [hq]), hq, List.nil_append]
  obtain ⟨ring, filled, written⟩ := Goose.writeNext_cons { g with frozen := false, queue := [g.recordOf now al e] } now al
    (Config.failedWrites g.nextSeq).val (g.recordOf now al e) [] rfl rfl lost
  rw [Goose.freezeTimeout, if_pos frozen, logged, Goose.thaw, if_pos frozen, Goose.writeAll]
  change (Goose.writeAllN 2 _ now al).bySeq _ = _
  rw [Goose.writeAllN, written, Goose.writeAllN_nil _ _ _ _ rfl]
  exact Goose.bySeq_tabSet _ ring _ _ rfl rfl

theorem Goose.freezeTimeout_ends (g : Goose) (now : BitVec 64) (al : Bool) (frozen : g.frozen = true) (lost : g.lost = 0)
    (room : g.queue.length < 256) : (g.freezeTimeout now al).frozen = false ∧ (g.freezeTimeout now al).queue = [] := by
  obtain ⟨keptLost, keptFrozen⟩ := g.log_lost now al { source := 0, code := 2, detail := [(g.secondsFrozen, 4)] } room
  obtain ⟨k, ring, filled, nvm, -, thawed⟩ := Goose.thaw_eq _ now al (keptFrozen.trans frozen) (keptLost.trans lost)
  rw [Goose.freezeTimeout, if_pos frozen, thawed]
  exact ⟨rfl, rfl⟩

theorem secondsDetail (n : Nat) : fldN (packDetail [(n, 4)]) 0 32 = n % 2 ^ 32 := by
  simp only [packDetail, List.flatMap_cons, List.flatMap_nil, List.append_nil, leNat_leBytes, fldN, BitVec.extractLsb'_toNat,
    BitVec.toNat_ofNat]
  omega

/-- Settles O55, a row and a state of the recorder at a time. -/
theorem gooseCommands : Obligations.GooseCommands := by
  unfold Obligations.GooseCommands
  intro n fails mv s g maxS gooseOnly e
  refine ⟨fun frozen => ?restart, fun live => ?freeze, fun live => ?thawLive, fun frozen lost => ?thaw, fun h => ?writeNone,
    fun r rest live hq lost => ?write, fun frozen => ?holdFrozen, fun live => ?hold, fun live => ?noTimeout,
    fun frozen lost room => ?timeout, fun off => ?noHour, fun on => ?hour, fun room hq hw => ?coalesce⟩
  case restart => rw [exec_ctrlFreeze, Goose.freeze, if_pos frozen]; rfl
  case freeze =>
    refine ⟨_, exec_ctrlFreeze s n, rfl, ?_⟩
    rw [Goose.freeze, if_neg (by simpa using live)]
    simp [Goose.writeHeld, live, g, maxS, Goose.maxS]
  case thawLive => rw [exec_ctrlThaw, Goose.thaw, if_neg (by simpa using live)]; rfl
  case thaw =>
    obtain ⟨k, ring, filled, nvm, hk, thawed⟩ := Goose.thaw_eq { g with freezeMaxS := g.maxS n } s.now s.time.aligned frozen lost
    refine ⟨_, exec_ctrlThaw s n, rfl, ?_⟩
    rw [thawed]
    exact ⟨rfl, rfl, ⟨⟨k, by simpa [Nat.lt_succ_iff] using hk⟩, rfl⟩, rfl⟩
  case writeNone => exact congrArg (fun x => Host.Outcome.next { s with goose := x }) (g.writeNext_nil _ _ _ h)
  case write =>
    obtain ⟨ring, filled, written⟩ := g.writeNext_cons s.now s.time.aligned fails.val r rest live hq lost
    refine ⟨{ s with goose := g.writeNext s.now s.time.aligned fails.val }, rfl, rfl, ?_⟩
    rw [written]
    exact ⟨rfl, rfl, Goose.bySeq_tabSet _ ring _ _ rfl rfl, rfl, rfl⟩
  case holdFrozen => exact congrArg (fun x => Host.Outcome.next { s with goose := x }) (if_pos frozen)
  case hold =>
    refine ⟨{ s with goose := g.writeHeld }, rfl, rfl, ?_, ?_, ?_, fun q r h => g.bySeq_writeHeld q r live h⟩ <;>
      simp [Goose.writeHeld, live]
  case noTimeout =>
    exact congrArg (fun x => Host.Outcome.next { s with goose := x })
      (show g.freezeTimeout s.now s.time.aligned = g from if_neg (by simp [live]))
  case timeout =>
    obtain ⟨ended, written⟩ := g.freezeTimeout_ends s.now s.time.aligned frozen lost room
    refine ⟨_, rfl, rfl, ended, written, fun hq hw => ⟨_, g.bySeq_freezeTimeout s.now s.time.aligned frozen lost hq hw, rfl, rfl, ?_⟩⟩
    exact secondsDetail _
  case noHour => exact if_neg (by simpa using off)
  case hour => exact if_pos on
  case coalesce =>
    have first : g.log s.now s.time.aligned e = { g with queue := g.queue ++ [g.recordOf s.now s.time.aligned e] } := by
      rw [Goose.log_newRecord g _ _ e hq hw, Goose.newRecord_room _ _ _ _ room]
    have second := Goose.log_again { g with queue := g.queue ++ [g.recordOf s.now s.time.aligned e] } s.now s.time.aligned e g.queue _ rfl
      (g.recordOf_sameEvent _ _ e (by simp [e]) (by simp [e])) rfl rfl
    refine ⟨s.log e, (s.log e).log e, rfl, rfl, ?_⟩
    have once : (s.log e).goose = { g with queue := g.queue ++ [g.recordOf s.now s.time.aligned e] } := first
    have twice : ((s.log e).log e).goose =
        { g with queue := g.queue ++ [{ g.recordOf s.now s.time.aligned e with repeats := 1, lastMs := 0 }] } := by
      rw [← second, ← once]
      rfl
    rw [twice, once]
    exact ⟨rfl, g.recordOf s.now s.time.aligned e, rfl, rfl, rfl, rfl, rfl, rfl, rfl⟩

end Sys2Proof.Machine
end

section
/-! PROOFS. O24 DieRegisterWrites fails: freeing a frame writes back what its stack holds of a line under a clean copy. -/

namespace Sys2Proof.Machine

/-- The state after reset, with a line of heat cache 0 that its stack holds with another content (a miscorrected read, R257). -/
def staleStackLine : State :=
  { State.reset with ms := { State.reset.ms with hc := State.reset.ms.hc.set 0 { stackOld := [(0, 1)] } } }

/-- A legal HC_CTRL that clears EN of heat cache 0: thresholds of 64, an epoch of 1 and KEEP_DIV of 1. -/
def disableCache0 : Reg := BitVec.ofNat 64 (0xE + 64 * 2 ^ 8 + 2 ^ 24 + 2 ^ 40)

theorem disableCache0_legal :
    ¬ (fldN disableCache0 8 12 < 64 ∨ fldN disableCache0 24 16 = 0 ∨ fldN disableCache0 40 4 = 0) := by decide

theorem mem_of_disableCache0 : (staleStackLine.ms.writeHcCtrl disableCache0).mem ≠ staleStackLine.ms.mem := by decide +kernel

/-- Refutes O24: a falling EN bit writes the stack's own content of a clean line back to the home memory, where the model
keeps what a reader sees, so the memory changes. -/
theorem not_dieRegisterWrites : ¬ Obligations.DieRegisterWrites := by
  unfold Obligations.DieRegisterWrites
  rintro ⟨-, writes⟩
  obtain ⟨-, legal, -⟩ := writes disableCache0 staleStackLine
  obtain ⟨t, run, -, -, -, mem, -⟩ := legal disableCache0_legal
  obtain rfl : staleStackLine.modMs (fun m => m.writeHcCtrl disableCache0) = t := Host.Outcome.next.inj run
  exact mem_of_disableCache0 mem

end Sys2Proof.Machine
end

section
/-! PROOFS. O49 ThrottleAndClocks. -/

namespace Sys2Proof.Machine

/-! ## Reasons of a limit (R371, R378) -/

/-- The bits of a byte made of eight reasons. -/
theorem reasonBit (b0 b1 b2 b3 b4 b5 b6 b7 : Bool) : ∀ i < 8,
    (BitVec.ofNat 8 (b2n b0 + 2 * b2n b1 + 4 * b2n b2 + 8 * b2n b3 + 16 * b2n b4 + 32 * b2n b5 + 64 * b2n b6 + 128 * b2n b7)).getLsbD i =
      [b0, b1, b2, b3, b4, b5, b6, b7].getD i false := by
  revert b0 b1 b2 b3 b4 b5 b6 b7
  decide

section
variable (p : PwrBlk) (throttleN hot : Bool)

theorem PwrBlk.reasons_getLsbD_one : (p.reasons throttleN hot).getLsbD 1 = (decide (0 < p.allow.getD 1 0) || p.halved) :=
  reasonBit _ _ _ _ _ _ _ _ 1 (by decide)

theorem PwrBlk.reasons_getLsbD_five : (p.reasons throttleN hot).getLsbD 5 = (!throttleN || p.throttleHold) :=
  reasonBit _ _ _ _ _ _ _ _ 5 (by decide)

theorem PwrBlk.reasons_getLsbD_six : (p.reasons throttleN hot).getLsbD 6 = !p.estTrusted :=
  reasonBit _ _ _ _ _ _ _ _ 6 (by decide)

end

theorem State.reassess_asserted_five (s : State) :
    s.reassess.pwr.asserted.getLsbD 5 = (!s.pins.throttleN || s.pwr.throttleHold) := PwrBlk.reasons_getLsbD_five _ _ _

theorem PwrBlk.setAllow_getD (p : PwrBlk) (i : Nat) : (p.setAllow 5 i).allow.getD 5 0 = i := by
  rw [PwrBlk.setAllow, getD_vmod]
  rfl

theorem tripLevel_eq (cls : Fin 4) : tripLevel cls = if cls.val ≤ 1 then 115 else if cls.val = 2 then 105 else 90 := by
  revert cls
  decide

/-! ## Rows of the fast clocks during a stop (R379) -/

section
variable {s : State} (h : s.stopped = true)
include h

theorem State.noProgram_of_stopped (c : Nat) : s.noProgram c = true := by simp [State.noProgram, h]

theorem State.fetch_of_stopped (c : Nat) (w : Word128) : s.fetch c w = s := if_pos (by simp [s.noProgram_of_stopped h c])

theorem State.fetchBeyond_of_stopped (c : Nat) : s.fetchBeyond c = s := if_pos (by simp [s.noProgram_of_stopped h c])

theorem State.settle_of_stopped : s.settle = s := if_pos h

theorem State.completeAt_of_stopped (c : Nat) (u : EngUnit) (i : Nat) : s.completeAt c u i = s := by
  unfold State.completeAt
  split
  · exact if_pos h
  · rfl

theorem State.takeCmd_of_stopped (u : Nat) (root : Bool) : s.takeCmd u root = s := if_pos h

theorem State.packetIn_of_stopped (k : Nat) (p : Packet) (a : Nat) (m : BitVec 64 × BitVec 16) : s.packetIn k p a m = s :=
  if_pos (.inr h)

theorem State.typed_of_stopped (k ty : Nat) (p : Packet) : s.typed k ty p = s := by
  unfold State.typed
  split
  · exact s.packetIn_of_stopped h _ _ _ _
  · rfl

/-- While a stop holds, no row of what runs on the fast clocks does anything. -/
theorem exec_of_stopped (i : Instr) (fast : onFastClocks i = true) : exec i s = .next s := by
  cases i with
  | nop | endProgram | br | loop | call | ret | waitcc | waitq | drain | ccset | ccadd | ccread | setar | setas | addar
  | setgr | addgr | sld | sst | atom | cflush | cinv | cflinv | launchAt | kcgset | regionBegin | regionEnd | ldw | mm | dual
  | wgrad | vecAdd | vecSub | vecMul | vecFma | vecDiv | vecMax | vecMin | vecAbs | vecNeg | vecCopy | vecSqrt | vecRsqrt
  | vecAdds | vecMuls | vecMaxs | vecMins | vecFmas | vecExp | vecLog | vecSigmoid | vecTanh | vecSilu | vecDsilu | vecGelu
  | vecDgelu | vecSum | vecSumsq | vecRmax | vecAmax | vecRand | cred | conv | convSr | rowFwd | rowBwd | statFree | attFwd
  | attBwd | append | bucket | slotSet | slotClr | gather | walk | copy1 | copyd | send | recv | msgFlush | mark | rewind
  | release =>
    exact congrArg Host.Outcome.next (s.fetch_of_stopped h _ _)
  | illegalInstruction c w =>
    refine congrArg Host.Outcome.next ?_
    split
    · rfl
    · exact s.fetch_of_stopped h _ _
  | fetchBeyondEnd c => exact congrArg Host.Outcome.next (s.fetchBeyond_of_stopped h _)
  | operationComplete c u n =>
    exact congrArg Host.Outcome.next ((congrArg State.settle (s.completeAt_of_stopped h _ _ _)).trans (s.settle_of_stopped h))
  | update u => exact congrArg Host.Outcome.next (s.takeCmd_of_stopped h _ _)
  | root u => exact congrArg Host.Outcome.next (s.takeCmd_of_stopped h _ _)
  | packetHop k p => exact congrArg Host.Outcome.next (s.packetIn_of_stopped h _ _ _ _)
  | writePacketReceived | readPacketReceived | readRespReceived | signalPacketReceived | msgPacketReceived | ackReceived
  | creditPacketReceived | noticeReceived => exact congrArg Host.Outcome.next (s.typed_of_stopped h _ _ _)
  | nullEntrySignal | broadcastDelivery | ringCreditReturn | waitTimeout | launchTimeReached | ldwStart | streamStart | wgradStart
  | vecOpStart | rowOpStart | attOpStart | muleCopyStart | sendWaitLimit | localMessageArrival | statusTimeout | bullockRetire
  | doorbellWrite | hbmRequest | fillComplete | epochBoundary | scrubRead | laneBringUp | bringUpTimeout | laneRetryTimer
  | lossOfSignal | laneWidthLoss | listenEntry | listenWake | helloReceived | helloTimer | abortBlockReceived | requestTimeout
  | dupEntryExpiry | reorderHoldExpiry | timePacketTimer | timePacketReceived | scheduledPacketSend | jobStartTime => exact if_pos h
  | _ => cases fast

end

/-- Clocks of core c may stop: its bit of IDLE_EN is set and its engines are idle. -/
theorem exec_idleClockStop (s : State) (c : CoreId) : exec (.idleClockStop c) s = .next
    (if s.pwr.idleEn.getLsbD c.val = true ∧ (s.core c).ox.idle = true ∧ (s.core c).vec.idle = true ∧ (s.core c).row.idle = true ∧
        (s.core c).att.idle = true then
      { s with pwr := { s.pwr with idleStopped := s.pwr.idleStopped ||| BitVec.twoPow 8 c.val } } else s) := by
  change execIdleClockStop c s = _
  simp only [execIdleClockStop, Bool.and_eq_true, and_assoc]
  split <;> rfl

/-- Settles O49, a row at a time; the rows of the fast clocks during a stop are `exec_of_stopped`. -/
theorem throttleAndClocks : Obligations.ThrottleAndClocks := by
  unfold Obligations.ThrottleAndClocks
  intro cls ix x secs c s p k idle level
  have lv : tripLevel cls = level := tripLevel_eq cls
  refine ⟨fun hot => ?trip, fun cool => ?noTrip, fun i fast h => exec_of_stopped h i fast, fun low => ?asserted, fun high => ?assert,
    fun high => ⟨if_pos high, if_pos high⟩, fun low => ?release, fun low => ?hour, fun off => if_neg (by simpa [p] using off),
    fun on => ?holdEnd, fun en h => ?stop, fun h => ?noStop, rfl⟩
  case trip =>
    exact ⟨_, if_pos (lv ▸ hot), rfl, by simp [State.stopped, State.emergency, State.reassess, State.tripThermal, State.log], rfl, rfl, rfl⟩
  case noTrip => exact if_neg (by omega)
  case asserted => exact if_pos (by simpa using low)
  case assert =>
    refine ⟨_, if_neg (by simpa using high), rfl, rfl, rfl, PwrBlk.setAllow_getD _ _, rfl, ?_, rfl, rfl, rfl, rfl⟩
    exact (State.reassess_asserted_five _).trans rfl
  case release =>
    refine ⟨_, if_neg (by simpa using low), rfl, rfl, rfl, ?_, rfl, rfl, rfl, rfl⟩
    exact (State.reassess_asserted_five _).trans rfl
  case hour => exact if_neg (by simpa using low)
  case holdEnd =>
    refine ⟨_, if_pos on, rfl, PwrBlk.setAllow_getD _ _, rfl, fun high => ?_, rfl⟩
    refine (State.reassess_asserted_five _).trans ?_
    simp [high]
  case stop => rw [exec_idleClockStop, if_pos ⟨en, h⟩]
  case noStop =>
    rw [exec_idleClockStop, if_neg]
    rintro ⟨en, h'⟩
    rcases h with h | h
    · exact Bool.noConfusion (h.symm.trans en)
    · exact h h'

end Sys2Proof.Machine
end

section
/-! PROOFS. O47 PowerControl. -/

namespace Sys2Proof.Machine

/-! ## A tick of the power estimate (R367, R371) -/

/-- What the estimate and the measurement show of a power block, which the cap controller leaves alone. -/
def PwrBlk.views (p : PwrBlk) := (p.ticks, p.estW, p.pinW, p.thrTime, p.vinMv, p.iinCa, p.measFailed)

theorem PwrBlk.setAllow_views (p : PwrBlk) (r i : Nat) : (p.setAllow r i).views = p.views := rfl

theorem PwrBlk.capStep_views (p : PwrBlk) (hist : List Nat) (target : Nat) : (p.capStep hist target).views = p.views := by
  unfold PwrBlk.capStep
  dsimp only
  split
  · split
    · rfl
    · split <;> rfl
  · rfl

theorem PwrBlk.move_views (p : PwrBlk) : p.move.views = p.views := by
  unfold PwrBlk.move
  dsimp only
  split
  · rfl
  · split
    · rfl
    · split <;> rfl

theorem PwrBlk.move_allow (p : PwrBlk) : p.move.allow = p.allow := by
  unfold PwrBlk.move
  dsimp only
  split
  · rfl
  · split
    · rfl
    · split <;> rfl

/-- The cap controller after an interval (R371, R372). -/
def PwrBlk.controlled (p : PwrBlk) (limit level : Nat) : PwrBlk :=
  let p : PwrBlk := match p.view limit with
    | none => { p.setAllow 0 8 with pair := none, phase := 0 }
    | some (hist, target) => p.capStep hist target
  let slow : Nat := if p.halved then 8 else if p.overCurrent level then min 8 (p.opCur.toNat + 1) else 0
  (p.setAllow 1 slow).move

theorem PwrBlk.controlled_views (p : PwrBlk) (limit level : Nat) : (p.controlled limit level).views = p.views := by
  unfold PwrBlk.controlled
  dsimp only
  rw [PwrBlk.move_views, PwrBlk.setAllow_views]
  split
  · rfl
  · exact PwrBlk.capStep_views _ _ _

/-- Without a trusted view index 8 alone is allowed (R369). -/
theorem PwrBlk.controlled_blind (p : PwrBlk) (limit level : Nat) (failed : p.measFailed = true) (wrong : p.estTrusted = false) :
    (p.controlled limit level).allow.getD 0 0 = 8 := by
  have view : p.view limit = none := by simp [PwrBlk.view, failed, wrong]
  simp only [PwrBlk.controlled, view, PwrBlk.move_allow]
  simp only [PwrBlk.setAllow, getD_vmod]
  rfl

/-- The power block that the controller makes of an interval. -/
def State.tickedPwr (s : State) (raw : Nat) (sample : Option (BitVec 16 × BitVec 16)) : PwrBlk :=
  PwrBlk.controlled { s.pwr.sampled raw sample with limitW := BitVec.ofNat 16 s.limitNow } s.limitNow (s.fl.opt 0xA 2 * 10)

theorem State.powerTick_eq (s : State) (raw : Nat) (sample : Option (BitVec 16 × BitVec 16)) :
    s.powerTick raw sample = if s.pwr.measFailed && sample.isSome then
        (s.modPwr (fun _ => s.tickedPwr raw sample)).reassess.log { source := 0x02, code := 0x04, detail := [(0, 1)] }
      else (s.modPwr (fun _ => s.tickedPwr raw sample)).reassess := rfl

theorem State.powerTick_pwr (s : State) (raw : Nat) (sample : Option (BitVec 16 × BitVec 16)) :
    (s.powerTick raw sample).pwr = (s.modPwr (fun _ => s.tickedPwr raw sample)).reassess.pwr := by
  rw [State.powerTick_eq]
  split <;> rfl

theorem State.powerTick_views (s : State) (raw : Nat) (sample : Option (BitVec 16 × BitVec 16)) :
    (s.powerTick raw sample).pwr.views = (s.pwr.sampled raw sample).views := by
  rw [State.powerTick_pwr]
  exact (PwrBlk.controlled_views _ _ _).trans rfl

theorem State.powerTick_allow (s : State) (raw : Nat) (sample : Option (BitVec 16 × BitVec 16)) :
    (s.powerTick raw sample).pwr.allow = (s.tickedPwr raw sample).allow := by
  rw [State.powerTick_pwr]
  rfl

theorem State.powerTick_frame (s : State) (raw : Nat) (sample : Option (BitVec 16 × BitVec 16)) : s.powerTick raw sample =
    { s with pwr := (s.powerTick raw sample).pwr, goose := (s.powerTick raw sample).goose } := by
  rw [State.powerTick_eq]
  split <;> rfl

/-- The places of a vector that a condition selects, among the first k, each updated once. -/
theorem getD_foldl_vmod_if {α : Type} {n : Nat} (b : Nat → Bool) (f : α → α) (k : Nat) (v : Vector α n) (i : Nat) (d : α) (hn : i < n) :
    ((List.range k).foldl (fun v r => if b r then vmod v r f else v) v).getD i d =
      if i < k ∧ b i = true then f (v.getD i d) else v.getD i d := by
  induction k with
  | zero => simp
  | succ k ih =>
    rw [List.range_succ, List.foldl_append, List.foldl_cons, List.foldl_nil]
    by_cases hb : b k = true
    · rw [if_pos hb, getD_vmod, ih]
      grind
    · rw [if_neg hb, ih]
      grind

theorem PwrBlk.sampled_thrTime (p : PwrBlk) (raw : Nat) (sample : Option (BitVec 16 × BitVec 16)) (r : Nat) (h : r < 8) :
    (p.sampled raw sample).thrTime.getD r 0 = if p.asserted.getLsbD r then satAdd (p.thrTime.getD r 0) 10 else p.thrTime.getD r 0 := by
  have every := getD_foldl_vmod_if (fun r => p.asserted.getLsbD r) (fun t => satAdd t 10) 8 p.thrTime r 0 h
  simp only [h, true_and] at every
  rw [← every]
  cases sample <;> rfl

/-! ## Calibration (R367, R368) -/

theorem toNat_ofInt_clamped (g : Int) (l u : Int) (hl : 0 ≤ l) (hlu : l ≤ u) (hu : u < 65536) :
    l ≤ (BitVec.ofInt 16 (max l (min u g))).toNat ∧ ((BitVec.ofInt 16 (max l (min u g))).toNat : Int) ≤ u := by
  rw [BitVec.toNat_ofInt]
  omega

theorem toInt_ofInt_clamped (g : Int) (l u : Int) (hl : -32768 ≤ l) (hlu : l ≤ u) (hu : u < 32768) :
    l ≤ (BitVec.ofInt 16 (max l (min u g))).toInt ∧ (BitVec.ofInt 16 (max l (min u g))).toInt ≤ u := by
  rw [BitVec.toInt_ofInt, Int.bmod_eq_of_le (by omega) (by omega)]
  omega

theorem PwrBlk.recalibrate_range (p : PwrBlk) : 13926 ≤ p.recalibrate.gain.toNat ∧ p.recalibrate.gain.toNat ≤ 18841 ∧
    -100 ≤ p.recalibrate.offset.toInt ∧ p.recalibrate.offset.toInt ≤ 100 := by
  have gain := toNat_ofInt_clamped (Config.roundReg (7 * p.gain.toNat * p.fit.2.2 + p.fit.1) (8 * p.fit.2.2)) 13926 18841
    (by decide) (by decide) (by decide)
  have offset := toInt_ofInt_clamped (Config.roundReg (7 * p.offset.toInt * p.fit.2.2 + p.fit.2.1) (8 * p.fit.2.2)) (-100) 100
    (by decide) (by decide) (by decide)
  exact ⟨by exact_mod_cast gain.1, by exact_mod_cast gain.2, offset⟩

/-- The next window after one that is judged by its means. -/
def State.judged (s : State) (m e : Nat) : State :=
  (s.modPwr (fun p => { p.recalibrate.judge m e with winTicks := 0 })).reassess

theorem State.judged_frame (s : State) (m e : Nat) : s.judged m e = { s with pwr := (s.judged m e).pwr } := by
  simp only [State.judged, State.reassess, State.modPwr]

theorem State.judged_goose (s : State) (m e : Nat) : (s.judged m e).goose = s.goose := by
  simp only [State.judged, State.reassess, State.modPwr]

theorem State.judged_time (s : State) (m e : Nat) : (s.judged m e).time = s.time := by
  simp only [State.judged, State.reassess, State.modPwr]

theorem State.calibrationWindow_judged (s : State) (ok : s.pwr.measFailed = false) (some_ : measured s.pwr.window ≠ []) :
    s.calibrationWindow = let m := meanNat (measured s.pwr.window)
      let e := meanNat (s.pwr.window.map (·.est))
      if (s.judged m e).pwr.estTrusted = s.pwr.estTrusted then s.judged m e
      else (s.judged m e).log
        { source := 0x02, code := 0x03, detail := [(b2n (s.judged m e).pwr.estTrusted, 1), (m, 2), (e, 2)] } := by
  unfold State.calibrationWindow
  dsimp only
  rw [if_neg (by simp [ok, some_])]
  rfl

/-- A record on top of a change of the power block. -/
theorem State.log_of_pwr (s t : State) (p : PwrBlk) (h : t = { s with pwr := p }) (e : GEvent) :
    t.log e = { s with pwr := (t.log e).pwr, goose := (t.log e).goose } := by
  subst h
  rfl

theorem State.calibrationWindow_frame (s : State) (ok : s.pwr.measFailed = false) (some_ : measured s.pwr.window ≠ []) :
    s.calibrationWindow = { s with pwr := s.calibrationWindow.pwr, goose := s.calibrationWindow.goose } := by
  rw [s.calibrationWindow_judged ok some_]
  dsimp only
  split
  · exact (State.judged_frame _ _ _).trans (by rw [State.judged_goose])
  · exact s.log_of_pwr _ _ (s.judged_frame _ _) _

theorem PwrBlk.judge_agrees (p : PwrBlk) (m e : Nat) (trusted : p.estTrusted = true) (low : 100 * (m - e) ≤ 15 * m)
    (high : 100 * (e - m) ≤ 15 * m) : (p.judge m e).disagree = 0 ∧ (p.judge m e).estTrusted = true ∧ (p.judge m e).untrusted = p.untrusted := by
  have near : ¬ 15 * m < 100 * (if m < e then e - m else m - e) := by split <;> omega
  simp only [PwrBlk.judge, near, if_false]
  simp [trusted]

theorem PwrBlk.judge_disagrees (p : PwrBlk) (m e : Nat) (trusted : p.estTrusted = true) (nine : 9 ≤ p.disagree.toNat)
    (far : 15 * m < 100 * (m - e) ∨ 15 * m < 100 * (e - m)) :
    (p.judge m e).estTrusted = false ∧ (p.judge m e).untrusted = satInc p.untrusted := by
  have off : 15 * m < 100 * (if m < e then e - m else m - e) := by split <;> omega
  have ten : min 10 (p.disagree.toNat + 1) = 10 := by omega
  simp only [PwrBlk.judge, off, if_true, ten]
  simp [trusted]

/-! ## Loss of the input (R364) and the steps of the voltage (R366) -/

theorem State.requestReset_blocked (s : State) (cold : Bool) (bit : Nat) (h : s.resetBlocked = true) :
    s.requestReset cold bit = ((s.modRst (fun r => { r with cause := setBit r.cause bit })).log
      { source := 0x01, code := 0x01, detail := [((setBit s.rst.cause bit).toNat, 8), (b2n cold, 1)] }).modRst
        (fun r => { r with waiting := some (cold || s.rst.waiting == some true), ready := false }) := if_pos h

theorem State.inputLost_eq (s : State) (mv : BitVec 16) : s.inputLost mv =
    { s with pins := { s.pins with pwrGood := false }, pwr := { s.pwr with switchOn := false, stopBrown := true },
             rst := { s.rst with ready := false, cause := setBit s.rst.cause 1, waiting := some true },
             goose := (s.inputLost mv).goose } := by
  unfold State.inputLost State.brownDown
  dsimp only
  rw [State.requestReset_blocked _ _ _ (by simp [State.resetBlocked, State.log])]
  simp only [State.modGoose, State.modRst, State.log, State.modPins, State.modPwr, Bool.true_or]

/-- A step of the voltage (R366). -/
def PwrBlk.stepped (p : PwrBlk) : PwrBlk :=
  let cur := p.opCur.toNat
  let target := p.opTarget.toNat
  if target < p.vIdx ∧ target < cur then
    let v := p.vIdx - 1
    if v = target then { p with vIdx := v, opCur := p.opTarget, upTicks := 0 } else { p with vIdx := v }
  else if p.vIdx < p.voltsIdx then { p with vIdx := p.vIdx + 1 }
  else if target < cur then { p with opCur := p.opTarget, upTicks := 0 }
  else p

theorem exec_voltageStep (s : State) : exec .voltageStep s = .next (s.modPwr PwrBlk.stepped) := rfl

theorem PwrBlk.voltsIdx_le (p : PwrBlk) : p.voltsIdx ≤ p.opCur.toNat := by
  unfold PwrBlk.voltsIdx
  split
  · exact Nat.min_le_left _ _
  · exact le_rfl

theorem PwrBlk.stepped_rest (p : PwrBlk) (h : p.vIdx = p.opCur.toNat) (same : p.opTarget = p.opCur) : p.stepped = p := by
  have volts := p.voltsIdx_le
  simp only [PwrBlk.stepped, same]
  rw [if_neg (by omega), if_neg (by omega), if_neg (by omega)]

theorem PwrBlk.stepped_up (p : PwrBlk) (low : p.vIdx < p.opCur.toNat) (toward : p.vIdx ≤ p.opTarget.toNat) (alone : p.pair = none) :
    p.stepped = { p with vIdx := p.vIdx + 1 } := by
  have volts : p.voltsIdx = p.opCur.toNat := by simp [PwrBlk.voltsIdx, alone]
  simp only [PwrBlk.stepped, volts]
  rw [if_neg (by omega), if_pos low]

theorem PwrBlk.stepped_down (p : PwrBlk) (far : p.opTarget.toNat + 1 < p.vIdx) (down : p.opTarget.toNat < p.opCur.toNat) :
    p.stepped = { p with vIdx := p.vIdx - 1 } := by
  simp only [PwrBlk.stepped]
  rw [if_pos (by omega), if_neg (by omega)]

theorem PwrBlk.stepped_arrive (p : PwrBlk) (next : p.opTarget.toNat + 1 = p.vIdx) (down : p.opTarget.toNat < p.opCur.toNat) :
    p.stepped = { p with vIdx := p.opTarget.toNat, opCur := p.opTarget, upTicks := 0 } := by
  have v : p.vIdx - 1 = p.opTarget.toNat := by omega
  simp only [PwrBlk.stepped, v]
  rw [if_pos (by omega), if_true]

/-! ## The cap (R370) -/

/-- Without plant fault and with an inlet below the knee, the limit is the lowest of ceiling, configuration and cap. -/
theorem State.limitNow_healthy (s : State) (whole : s.pwr.plantFault = false) (cool : s.pwr.inlet.toNat ≤ 35) (sc : s.fl.sc ≠ []) :
    s.limitNow = min s.pwr.ceilingW.toNat (min s.pwr.scLimitW.toNat s.pwr.capInForce.toNat) := by
  have held : s.fl.scHeld = true := by simp [FlashBlk.scHeld, sc]
  have below : s.pwr.inlet.toNat - s.inletTop = 0 := by unfold State.inletTop; split <;> omega
  unfold State.limitNow
  dsimp only
  simp [below, held, whole]

theorem State.writeCap_legal (s : State) (v : Reg) (low : 600 ≤ fldN v 0 16) (high : fldN v 0 16 ≤ s.pwr.ceilingW.toNat) :
    s.writeCap v = (s.modPwr (fun p =>
      { p with capW := fld v 0 16, capBad := p.capBad && !bitB v 16,
               capInForce := if s.pins.throttleN then fld v 0 16 else p.capInForce })).setLimit := if_neg (by omega)

/-- Settles O47, a row at a time. -/
theorem powerControl : Obligations.PowerControl := by
  unfold Obligations.PowerControl
  intro v mv raw sample s p w win meas m e powerOnly
  refine ⟨fun bad => ?capBad, fun low high => ?cap, rfl, ?loss, ⟨_, exec_voltageStep s, rfl, fun h same => ?rest,
    fun low toward alone => p.stepped_up low toward alone, fun far down => p.stepped_down far down,
    fun next down => p.stepped_arrive next down⟩, ?fast, fun failed => if_pos failed, fun h => ?noWindow, fun ok => ?failure,
    fun ok some_ => ?window, ?tick⟩
  case capBad => exact congrArg Host.Outcome.next (if_pos bad)
  case cap =>
    refine ⟨_, congrArg Host.Outcome.next (s.writeCap_legal v low high), rfl, rfl, rfl, rfl, rfl, fun on whole cool sc => ?_⟩
    have limit := State.limitNow_healthy (s.modPwr (fun p =>
      { p with capW := fld v 0 16, capBad := p.capBad && !bitB v 16,
               capInForce := if s.pins.throttleN then fld v 0 16 else p.capInForce })) whole cool sc
    simp only [State.modPwr, on, if_true] at limit
    simp only [State.setLimit, State.modPwr, on, if_true, limit, BitVec.toNat_ofNat]
    exact Nat.mod_eq_of_lt (lt_of_le_of_lt (Nat.min_le_left _ _) (BitVec.isLt _))
  case loss =>
    exact ⟨_, congrArg Host.Outcome.next (State.inputLost_eq { s with free := s.free + 1 } (Config.stopMv s.free)), rfl, rfl, rfl, rfl⟩
  case rest => exact congrArg (fun q => { s with pwr := q }) (p.stepped_rest h same)
  case fast =>
    have asserted : (PwrBlk.reasons { p with halved := true, halvings := satInc p.halvings } s.pins.throttleN s.inletHot).getLsbD 1 = true := by
      rw [PwrBlk.reasons_getLsbD_one]
      exact Bool.or_true _
    refine ⟨_, rfl, rfl, rfl, rfl, asserted, ?_, rfl⟩
    refine (BitVec.getLsbD_or).trans ?_
    exact Bool.or_eq_true_iff.mpr (.inr asserted)
  case noWindow =>
    refine congrArg Host.Outcome.next (if_pos ?_)
    rcases h with h | h
    · exact Bool.or_eq_true_iff.mpr (.inl h)
    · exact Bool.or_eq_true_iff.mpr (.inr (List.isEmpty_iff.mpr h))
  case failure => exact if_neg (by simpa using ok)
  case window =>
    obtain ⟨gainLow, gainHigh, offsetLow, offsetHigh⟩ := p.recalibrate_range
    have judged : s.calibrationWindow = if (s.judged m e).pwr.estTrusted = p.estTrusted then s.judged m e
        else (s.judged m e).log { source := 0x02, code := 0x03, detail := [(b2n (s.judged m e).pwr.estTrusted, 1), (m, 2), (e, 2)] } :=
      s.calibrationWindow_judged ok some_
    have pwr : s.calibrationWindow.pwr = (s.judged m e).pwr := by rw [judged]; split <;> rfl
    refine ⟨s.calibrationWindow, rfl, pwr ▸ gainLow, pwr ▸ gainHigh, pwr ▸ offsetLow, pwr ▸ offsetHigh,
      s.calibrationWindow_frame ok some_, by rw [pwr]; rfl,
      fun trusted near near' => ?_, fun trusted nine far => ?_⟩
    · obtain ⟨disagree, kept, count⟩ := p.recalibrate.judge_agrees m e trusted near near'
      have same : (s.judged m e).pwr.estTrusted = p.estTrusted := kept.trans trusted.symm
      rw [judged, if_pos same]
      exact ⟨disagree, kept, count, s.judged_goose m e⟩
    · obtain ⟨lost, count⟩ := p.recalibrate.judge_disagrees m e trusted nine far
      have lost' : (s.judged m e).pwr.estTrusted = false := lost
      have changed : (s.judged m e).pwr.estTrusted ≠ p.estTrusted := by simp [lost', trusted]
      rw [judged, if_neg changed, lost']
      refine ⟨lost, count, (PwrBlk.reasons_getLsbD_six _ _ _).trans (congrArg _ lost), ?_⟩
      simp only [State.log, State.now, s.judged_goose m e, s.judged_time m e]
      rfl
  case tick =>
    have views := s.powerTick_views raw.toNat sample
    have timed := p.sampled_thrTime raw.toNat sample
    simp only [PwrBlk.views, Prod.mk.injEq] at views
    obtain ⟨ticks, estW, pinW, thrTime, vinMv, iinCa, failed⟩ := views
    have shown : (s.pwr.sampled raw.toNat sample).ticks =
        (⟨raw.toNat, p.calibrate raw.toNat, sample.map (fun x => (x.1.toNat * x.2.toNat / 100000, x.2.toNat))⟩ :: p.ticks).take 10000 := by
      cases sample <;> rfl
    refine ⟨_, rfl, s.powerTick_frame _ _, ticks.trans shown, ?_, ?_, fun r hr => ?_, fun blind wrong none_ => ?_, fun none_ => ?_,
      fun mv ca some_ => ?_⟩
    · rw [estW, ticks]
      cases sample <;> rfl
    · rw [pinW, ticks]
      cases sample <;> rfl
    · rw [thrTime]
      exact timed r hr
    · subst none_
      rw [State.powerTick_allow]
      exact PwrBlk.controlled_blind _ _ _ blind wrong
    · subst none_
      refine ⟨vinMv, iinCa, failed, ?_⟩
      rw [State.powerTick_eq, if_neg (by simp)]
      rfl
    · subst some_
      exact ⟨vinMv, iinCa, failed⟩

end Sys2Proof.Machine
end

section
/-! PROOFS. O48 HeatAndPlant. -/

namespace Sys2Proof.Machine

/-! ## The hottest sensor -/

theorem le_foldl_max (l : List (BitVec 8)) (n : Nat) :
    n ≤ l.foldl (fun m t => max m t.toNat) n ∧ ∀ t ∈ l, t.toNat ≤ l.foldl (fun m t => max m t.toNat) n := by
  induction l generalizing n with
  | nil => simp
  | cons a l ih =>
    obtain ⟨start, rest⟩ := ih (max n a.toNat)
    refine ⟨le_trans (Nat.le_max_left _ _) start, fun t ht => ?_⟩
    rcases List.mem_cons.mp ht with rfl | ht
    · exact le_trans (Nat.le_max_right _ _) start
    · exact rest t ht

theorem le_hottest {l : List (BitVec 8)} {t : BitVec 8} (h : t ∈ l) : t.toNat ≤ hottest l := (le_foldl_max l 0).2 t h

theorem hottest_lt (l : List (BitVec 8)) : hottest l < 256 := by
  have bound (n : Nat) (hn : n < 256) : l.foldl (fun m t => max m t.toNat) n < 256 := by
    induction l generalizing n with
    | nil => exact hn
    | cons a l ih => exact ih _ (max_lt hn a.isLt)
  exact bound 0 (by decide)

/-! ## Trips -/

/-- No sensor at its level: nothing happens. -/
theorem State.tripsOf_none (s : State) (cls : Fin 4) (l : List (BitVec 8)) (h : l.any (fun t => decide (tripLevel cls ≤ t.toNat)) = false) :
    s.tripsOf cls l = s := by
  refine List.foldlRecOn (motive := fun (t : State) => t = s) _ _ rfl (fun t ht i hi => ?_)
  have mem : l.getD i 0 ∈ l := by
    rw [List.getD_eq_getElem _ _ (List.mem_range.mp hi)]
    exact List.getElem_mem _
  have cool := List.any_eq_false.mp h _ mem
  dsimp only
  rw [if_neg (by simpa using cool), ht]

/-- The thermal stop as given, with other records. -/
def State.withTrip (s : State) (stop : Bool) (goose : Goose) : State :=
  { s with pwr := { s.pwr with stopThermal := stop }, goose := goose }

/-- A sensor that PWR.TEMP already shows trips without a further change of the registers. -/
theorem State.tripThermal_shown (s : State) (cls : Fin 4) (ix t : Nat) (other : cls ≠ 2) (tj : cls.val ≤ 1 → t ≤ s.pwr.tjMax.toNat)
    (opt : cls = 3 → t ≤ s.pwr.optMax.toNat) : ∃ goose, s.tripThermal cls ix t = s.withTrip true goose := by
  have up (b : BitVec 8) (h : t ≤ b.toNat) : BitVec.ofNat 8 (max b.toNat t) = b := by
    rw [Nat.max_eq_left h, BitVec.ofNat_toNat, BitVec.setWidth_eq]
  refine ⟨(s.tripThermal cls ix t).goose, ?_⟩
  have tjMax : (if cls.val ≤ 1 then BitVec.ofNat 8 (max s.pwr.tjMax.toNat t) else s.pwr.tjMax) = s.pwr.tjMax := by
    split
    · next h => exact up _ (tj h)
    · rfl
  have optMax : (if cls = 3 then BitVec.ofNat 8 (max s.pwr.optMax.toNat t) else s.pwr.optMax) = s.pwr.optMax := by
    split
    · next h => exact up _ (opt h)
    · rfl
  simp only [State.tripThermal, State.log, State.modPwr, tjMax, optMax, if_neg other, State.withTrip]

/-- Some sensor of a class is at its trip level. -/
def anyTrips (cls : Fin 4) (l : List (BitVec 8)) : Bool := l.any (fun t => decide (tripLevel cls ≤ t.toNat))

/-- What trips change, when the registers show the sensors: the stop and the records. -/
theorem State.tripsOf_shown (s : State) (cls : Fin 4) (l : List (BitVec 8)) (other : cls ≠ 2)
    (tj : cls.val ≤ 1 → ∀ t ∈ l, t.toNat ≤ s.pwr.tjMax.toNat) (opt : cls = 3 → ∀ t ∈ l, t.toNat ≤ s.pwr.optMax.toNat) :
    ∃ goose, s.tripsOf cls l = s.withTrip (s.pwr.stopThermal || anyTrips cls l) goose := by
  have upTo (n : Nat) (hn : n ≤ l.length) : ∃ goose, (List.range n).foldl (fun s i =>
      let t := (l.getD i 0).toNat
      if tripLevel cls ≤ t then s.tripThermal cls i t else s) s = s.withTrip (s.pwr.stopThermal || anyTrips cls (l.take n)) goose := by
    induction n with
    | zero => exact ⟨s.goose, by simp [State.withTrip, anyTrips]⟩
    | succ n ih =>
      obtain ⟨goose, done⟩ := ih (by omega)
      have mem : l.getD n 0 ∈ l := by
        rw [List.getD_eq_getElem _ _ (by omega)]
        exact List.getElem_mem _
      have next : anyTrips cls (l.take (n + 1)) = (anyTrips cls (l.take n) || decide (tripLevel cls ≤ (l.getD n 0).toNat)) := by
        rw [List.getD_eq_getElem _ _ (by omega), anyTrips, ← List.take_concat_get' _ _ (by omega)]
        simp only [anyTrips, List.any_append, List.any_cons, List.any_nil, Bool.or_false]
      rw [List.range_succ, List.foldl_append, done, next]
      simp only [List.foldl_cons, List.foldl_nil]
      split
      · next hot =>
        obtain ⟨goose', tripped⟩ := (s.withTrip (s.pwr.stopThermal || anyTrips cls (l.take n)) goose).tripThermal_shown
          cls n (l.getD n 0).toNat other (fun h => tj h _ mem) (fun h => opt h _ mem)
        exact ⟨goose', by rw [tripped, decide_eq_true hot, Bool.or_true, Bool.or_true]; rfl⟩
      · next cool => exact ⟨goose, by rw [decide_eq_false cool, Bool.or_false]⟩
  have all := upTo l.length le_rfl
  rwa [List.take_length] at all

/-- The sensors of a sample of which some trips (R374). -/
def HeatSample.trips (h : HeatSample) : Bool := anyTrips 0 h.compute.toList || anyTrips 1 h.others.toList || anyTrips 3 h.optical.toList

theorem State.trips_shown (s : State) (h : HeatSample) (tj : s.pwr.tjMax.toNat = hottest (h.compute.toList ++ h.others.toList))
    (opt : s.pwr.optMax.toNat = hottest h.optical.toList) : ∃ goose, s.trips h = s.withTrip (s.pwr.stopThermal || h.trips) goose := by
  obtain ⟨g1, first⟩ := s.tripsOf_shown 0 h.compute.toList (by decide)
    (fun _ t ht => tj ▸ le_hottest (List.mem_append_left _ ht)) (fun h => absurd h (by decide))
  obtain ⟨g2, second⟩ := (s.tripsOf 0 h.compute.toList).tripsOf_shown 1 h.others.toList (by decide)
    (fun _ t ht => by rw [first]; exact tj ▸ le_hottest (List.mem_append_right _ ht)) (fun h => absurd h (by decide))
  obtain ⟨g3, third⟩ := ((s.tripsOf 0 h.compute.toList).tripsOf 1 h.others.toList).tripsOf_shown 3 h.optical.toList (by decide)
    (fun h => absurd h (by decide)) (fun _ t ht => by rw [second, first]; exact opt ▸ le_hottest ht)
  refine ⟨g3, ?_⟩
  rw [State.trips, third, second, first]
  simp only [State.withTrip, HeatSample.trips, Bool.or_assoc]

theorem State.trips_none (s : State) (h : HeatSample) (none_ : h.trips = false) : s.trips h = s := by
  simp only [HeatSample.trips, Bool.or_eq_false_iff] at none_
  obtain ⟨⟨compute, others⟩, optical⟩ := none_
  rw [State.trips, State.tripsOf_none _ _ _ compute, State.tripsOf_none _ _ _ others, State.tripsOf_none _ _ _ optical]

/-! ## A sample (R374 to R377) -/

/-- A power block with other inputs and conditions. -/
def PwrBlk.withInputs (p : PwrBlk) (ins : Vector PlantIn 4) (conds : List (Nat × Nat)) (last : Nat × Nat) : PwrBlk :=
  { p with ins := ins, conds := conds, lastCond := last }

/-- A condition that ends changes nothing else. -/
theorem PwrBlk.goneFault_frame (p : PwrBlk) (cond k : Nat) : ∃ conds last, p.goneFault cond k = p.withInputs p.ins conds last := by
  unfold PwrBlk.goneFault
  split
  · exact ⟨_, _, rfl⟩
  · exact ⟨p.conds, p.lastCond, rfl⟩

theorem PwrBlk.goneFault_ins (p : PwrBlk) (cond k : Nat) : (p.goneFault cond k).ins = p.ins := by
  obtain ⟨conds, last, e⟩ := p.goneFault_frame cond k
  rw [e, PwrBlk.withInputs]

/-- An input that is read leaves everything but the inputs and the conditions. -/
theorem PwrBlk.readInput_frame (h : HeatSample) (p : PwrBlk) (k : Nat) :
    ∃ ins conds last, p.readInput h k = p.withInputs ins conds last := by
  unfold PwrBlk.readInput
  dsimp only
  split
  · split
    · exact ⟨_, p.conds, p.lastCond, rfl⟩
    · obtain ⟨conds, last, e⟩ := PwrBlk.goneFault_frame _ _ _
      exact ⟨_, conds, last, e⟩
  · exact ⟨p.ins, p.conds, p.lastCond, rfl⟩

/-- Reading input k changes no other input, and shows the rate of an input that is in use. -/
theorem PwrBlk.readInput_ins (h : HeatSample) (p : PwrBlk) (k j : Nat) (hj : j < 4) :
    (k ≠ j → (p.readInput h k).ins.getD j {} = p.ins.getD j {}) ∧
    ((p.ins.getD k {}).role = 1 ∨ (p.ins.getD k {}).role = 2 → k = j →
      ((p.readInput h k).ins.getD j {}).rate = (p.ins.getD k {}).rateAt (h.pulseHz.getD k 0).toNat) := by
  unfold PwrBlk.readInput
  dsimp only
  split
  · refine ⟨fun ne => ?_, fun _ e => ?_⟩
    · split <;> simp only [PwrBlk.goneFault_ins, getD_vmod] <;> exact if_neg (fun both => ne both.1.symm)
    · subst e
      split <;> simp [PwrBlk.goneFault_ins, hj]
  · next idle => exact ⟨fun _ => rfl, fun used => absurd used idle⟩

/-- The sensors' registers as a sample writes them. -/
def PwrBlk.shown (p : PwrBlk) (h : HeatSample) (hbm : BitVec 8) : PwrBlk :=
  { p with tjMax := BitVec.ofNat 8 (hottest (h.compute.toList ++ h.others.toList)), optMax := BitVec.ofNat 8 (hottest h.optical.toList),
           hbmMax := hbm, inlet := if h.inletOk then h.inlet else p.inlet, inletFail := !h.inletOk }

theorem PwrBlk.readSensors_frame (p : PwrBlk) (h : HeatSample) (hbm : BitVec 8) :
    ∃ conds last, p.readSensors h hbm = (p.shown h hbm).withInputs p.ins conds last := by
  unfold PwrBlk.readSensors
  dsimp only
  split
  · exact PwrBlk.goneFault_frame (p.shown h hbm) 4 0
  · exact ⟨p.conds, p.lastCond, rfl⟩

theorem PwrBlk.read_frame (p : PwrBlk) (h : HeatSample) (hbm : BitVec 8) :
    ∃ ins conds last, p.read h hbm = (p.shown h hbm).withInputs ins conds last := by
  rw [PwrBlk.read_eq]
  refine List.foldlRecOn (motive := fun (q : PwrBlk) => ∃ ins conds last, q = (p.shown h hbm).withInputs ins conds last) _ _ ?_
    (fun q hq k _ => ?_)
  · obtain ⟨conds, last, e⟩ := p.readSensors_frame h hbm
    exact ⟨p.ins, conds, last, e⟩
  · obtain ⟨-, -, -, rfl⟩ := hq
    obtain ⟨ins, conds, last, e⟩ := PwrBlk.readInput_frame h _ k
    exact ⟨ins, conds, last, e⟩

theorem foldl_range_four {α : Type} (f : α → Nat → α) (a : α) : (List.range 4).foldl f a = f (f (f (f a 0) 1) 2) 3 := rfl

theorem PwrBlk.read_rate (p : PwrBlk) (h : HeatSample) (hbm : BitVec 8) (j : Fin 4)
    (used : (p.ins.getD j.val {}).role = 1 ∨ (p.ins.getD j.val {}).role = 2) :
    ((p.read h hbm).ins.getD j.val {}).rate = (p.ins.getD j.val {}).rateAt (h.pulseHz.getD j.val 0).toNat := by
  obtain ⟨conds, last, sensors⟩ := p.readSensors_frame h hbm
  have start : (p.readSensors h hbm).ins = p.ins := by rw [sensors, PwrBlk.withInputs]
  have other (q : PwrBlk) (k : Nat) (ne : k ≠ j.val) := (q.readInput_ins h k j.val j.isLt).1 ne
  have own (q : PwrBlk) (same : q.ins.getD j.val {} = p.ins.getD j.val {}) :
      ((q.readInput h j.val).ins.getD j.val {}).rate = (p.ins.getD j.val {}).rateAt (h.pulseHz.getD j.val 0).toNat := by
    rw [(q.readInput_ins h j.val j.val j.isLt).2 (by rw [same]; exact used) rfl, same]
  rw [PwrBlk.read_eq, foldl_range_four]
  obtain ⟨j, hj⟩ := j
  match j, hj with
  | 0, _ =>
    rw [other _ 3 (by simp), other _ 2 (by simp), other _ 1 (by simp)]
    exact own _ (by rw [start])
  | 1, _ =>
    rw [other _ 3 (by simp), other _ 2 (by simp)]
    exact own _ (by rw [other _ 0 (by simp), start])
  | 2, _ =>
    rw [other _ 3 (by simp)]
    exact own _ (by rw [other _ 1 (by simp), other _ 0 (by simp), start])
  | 3, _ => exact own _ (by rw [other _ 2 (by simp), other _ 1 (by simp), other _ 0 (by simp), start])

/-- What the model of the plant and a fault leave of the power block. -/
def PwrBlk.sensorView (p : PwrBlk) := (p.tjMax, p.optMax, p.inlet, p.inletFail, p.opCur, p.stopThermal, p.ins)

theorem State.raiseFault_sensorView (s : State) (cond k : Nat) : (s.raiseFault cond k).pwr.sensorView = s.pwr.sensorView := by
  unfold State.raiseFault
  split <;> rfl

theorem State.raiseFault_frame (s : State) (cond k : Nat) :
    s.raiseFault cond k = { s with pwr := (s.raiseFault cond k).pwr, goose := (s.raiseFault cond k).goose } := by
  unfold State.raiseFault
  split <;> rfl

theorem State.steered_sensorView (s : State) (h : HeatSample) : (s.steered h).pwr.sensorView = (s.pwr.read h s.hbmHottest).sensorView := by
  simp only [State.steered, State.modPwr_pwr, PwrBlk.sensorView, PwrBlk.modelAllow, PwrBlk.steer, PwrBlk.modelStep, State.sensed_pwr]

theorem State.steered_frame (s : State) (h : HeatSample) :
    s.steered h = { s with pwr := (s.steered h).pwr, free := s.free + 1, pins := s.pins.read h.toPlantSample } := by
  simp only [State.steered, State.sensed, State.modPwr, State.modPins]

/-- The sample with the fault of a failed inlet sensor, before trips. -/
def State.faulted (s : State) (h : HeatSample) : State := if h.inletOk then s.steered h else (s.steered h).raiseFault 4 0

theorem State.faulted_sensorView (s : State) (h : HeatSample) :
    (s.faulted h).pwr.sensorView = (s.pwr.read h s.hbmHottest).sensorView := by
  unfold State.faulted
  split
  · exact s.steered_sensorView h
  · exact (State.raiseFault_sensorView _ _ _).trans (s.steered_sensorView h)

theorem State.faulted_frame (s : State) (h : HeatSample) : s.faulted h =
    { s with pwr := (s.faulted h).pwr, goose := (s.faulted h).goose, free := s.free + 1, pins := s.pins.read h.toPlantSample } := by
  unfold State.faulted
  split
  · rw [State.steered_frame]
  · rw [State.raiseFault_frame, State.steered_frame]

/-- What a sample leaves, with the sensors' registers and the stop. -/
theorem State.sampled_eq (s : State) (h : HeatSample) : ∃ goose, (s.faulted h).trips h =
    (s.faulted h).withTrip (s.pwr.stopThermal || h.trips) goose := by
  have view := s.faulted_sensorView h
  obtain ⟨ins, conds, last, read⟩ := s.pwr.read_frame h s.hbmHottest
  simp only [read, PwrBlk.sensorView, PwrBlk.withInputs, PwrBlk.shown, Prod.mk.injEq] at view
  obtain ⟨tj, opt, -, -, -, stop, -⟩ := view
  have tripped := (s.faulted h).trips_shown h
    (by rw [tj, BitVec.toNat_ofNat]; exact Nat.mod_eq_of_lt (hottest_lt _))
    (by rw [opt, BitVec.toNat_ofNat]; exact Nat.mod_eq_of_lt (hottest_lt _))
  rwa [stop] at tripped

/-! ## Plant faults (R376, R377) -/

/-- The limit under a plant fault, with a cool inlet. -/
theorem State.limitNow_fault (s : State) (cool : s.pwr.inlet.toNat ≤ 35) (fault : s.pwr.plantFault = true) : s.limitNow =
    if s.fl.sc = [] then min (min s.pwr.ceilingW.toNat s.pwr.capInForce.toNat) (s.pwr.ceilingW.toNat * 60 / 100)
    else min (min (min s.pwr.ceilingW.toNat s.pwr.capInForce.toNat) s.pwr.scLimitW.toNat) s.pwr.plantFaultW.toNat := by
  have below : s.pwr.inlet.toNat - s.inletTop = 0 := by unfold State.inletTop; split <;> omega
  unfold State.limitNow
  dsimp only
  rw [if_pos below]
  by_cases held : s.fl.sc = []
  · simp [FlashBlk.scHeld, held, fault]
  · simp [FlashBlk.scHeld, held, fault]
    omega

theorem State.limitNow_noFault (s : State) (cool : s.pwr.inlet.toNat ≤ 35) (whole : s.pwr.plantFault = false) : s.limitNow =
    if s.fl.sc = [] then min s.pwr.ceilingW.toNat s.pwr.capInForce.toNat
    else min (min s.pwr.ceilingW.toNat s.pwr.capInForce.toNat) s.pwr.scLimitW.toNat := by
  have below : s.pwr.inlet.toNat - s.inletTop = 0 := by unfold State.inletTop; split <;> omega
  unfold State.limitNow
  dsimp only
  rw [if_pos below]
  by_cases held : s.fl.sc = []
  · simp [FlashBlk.scHeld, held, whole]
  · simp [FlashBlk.scHeld, held, whole]
    omega

/-- A state as a plant fault makes it from p. -/
structure State.PlantFaulted (s t : State) (cond k : Nat) : Prop where
  fault : t.pwr.plantFault = true
  count : t.pwr.plantFaults = if s.pwr.plantFault then s.pwr.plantFaults else satInc s.pwr.plantFaults
  command : t.pwr.plantCmd = 255
  asserted : t.pwr.asserted.getLsbD 4 = true
  point : t.pwr.opCur = s.pwr.opCur
  conds : t.pwr.conds = (cond, k) :: s.pwr.conds
  limit : s.pwr.inlet.toNat ≤ 35 → t.pwr.limitW.toNat =
    if s.fl.sc = [] then min (min s.pwr.ceilingW.toNat s.pwr.capInForce.toNat) (s.pwr.ceilingW.toNat * 60 / 100)
    else min (min (min s.pwr.ceilingW.toNat s.pwr.capInForce.toNat) s.pwr.scLimitW.toNat) s.pwr.plantFaultW.toNat
  record : t.goose = (s.log { source := 0x02, code := 0x05, detail := [(1, 1), (cond, 1), (k, 1)] }).goose
  inputs : t.pwr.ins = s.pwr.ins

/-- A new condition of a plant fault. -/
theorem State.raiseFault_new (s : State) (cond k : Nat) (new : (cond, k) ∉ s.pwr.conds) : s.PlantFaulted (s.raiseFault cond k) cond k := by
  have raised : s.raiseFault cond k = (((s.modPwr (fun p =>
      { p with plantFaults := if p.plantFault then p.plantFaults else satInc p.plantFaults, plantFault := true,
               conds := (cond, k) :: p.conds, plantCmd := 255 })).log
        { source := 0x02, code := 0x05, detail := [(1, 1), (cond, 1), (k, 1)] }).setLimit).reassess :=
    if_neg (by simpa using new)
  rw [raised]
  refine ⟨rfl, rfl, rfl, ?_, rfl, rfl, fun cool => ?_, rfl, rfl⟩
  · exact (State.reassess_coolant _).trans rfl
  · rw [State.reassess_limitW, State.setLimit_limitW]
    exact (State.limitNow_fault _ (by exact cool) rfl).trans rfl

/-- An input that is slow or over-fast (R377, R441). -/
theorem PwrBlk.inputBad_iff (p : PwrBlk) (k hz : Nat) :
    p.inputBad k hz = true ↔
      (((p.ins.getD k {}).role = 1 ∧ hz * 60 < (p.ins.getD k {}).minimum.toNat * (p.ins.getD k {}).pulses.toNat ∧ 255 ≤ 4 * p.duty k) ∨
        ((p.ins.getD k {}).role = 2 ∧ hz * 60000 < (p.ins.getD k {}).minimum.toNat * (p.ins.getD k {}).pulses.toNat)) ∨
      (((p.ins.getD k {}).role = 1 ∨ (p.ins.getD k {}).role = 2) ∧ 20000 < hz) := by
  have one : (1 : BitVec 2) ≠ 2 := by decide
  simp only [PwrBlk.inputBad, PlantIn.slow, PlantIn.perUnit, Bool.and_eq_true, Bool.or_eq_true, decide_eq_true_eq]
  grind

/-! ## Allowances (R373) -/

theorem State.allowanceStep_hot (s : State) (r : Nat) (hr : r < 8) (hot : s.pwr.tooHot r = true) :
    (s.allowanceStep r).pwr.allow.getD r 0 = min 8 (s.pwr.allow.getD r 0 + 1) ∧
    ∀ j, j ≠ r → (s.allowanceStep r).pwr.allow.getD j 0 = s.pwr.allow.getD j 0 := by
  have stepped : (s.allowanceStep r).pwr.allow = (s.pwr.setAllow r (min 8 (s.pwr.allow.getD r 0 + 1))).allow := by
    rw [State.allowanceStep, if_pos hot]
    exact PwrBlk.move_allow _
  rw [stepped]
  simp only [PwrBlk.setAllow, getD_vmod]
  exact ⟨if_pos ⟨trivial, hr⟩, fun j hj => if_neg (fun both => hj both.1)⟩

theorem State.allowanceStep_cooled (s : State) (r : Nat) (hr : r < 8) (mild : s.pwr.tooHot r = false) (cool : s.pwr.cooled r = true) :
    (s.allowanceStep r).pwr.allow.getD r 0 = s.pwr.allow.getD r 0 - 1 ∧ (s.allowanceStep r).pwr.opCur = s.pwr.opCur ∧
    ∀ j, j ≠ r → (s.allowanceStep r).pwr.allow.getD j 0 = s.pwr.allow.getD j 0 := by
  have stepped : s.allowanceStep r = (s.modPwr (fun p => p.setAllow r (s.pwr.allow.getD r 0 - 1))).reassess := by
    rw [State.allowanceStep, if_neg (by simp [mild]), if_pos cool]
  have allow : (s.allowanceStep r).pwr.allow = (s.pwr.setAllow r (s.pwr.allow.getD r 0 - 1)).allow := by rw [stepped]; rfl
  refine ⟨?_, by rw [stepped]; rfl, fun j hj => ?_⟩
  · rw [allow]
    simp only [PwrBlk.setAllow, getD_vmod]
    exact if_pos ⟨trivial, hr⟩
  · rw [allow]
    simp only [PwrBlk.setAllow, getD_vmod]
    exact if_neg (fun both => hj both.1)

theorem State.allowanceStep_kept (s : State) (r : Nat) (mild : s.pwr.tooHot r = false) (warm : s.pwr.cooled r = false) :
    s.allowanceStep r = s.reassess := by
  rw [State.allowanceStep, if_neg (by simp [mild]), if_neg (by simp [warm])]

theorem State.allowanceStep_frame (s : State) (r : Nat) : s.allowanceStep r = { s with pwr := (s.allowanceStep r).pwr } := by
  unfold State.allowanceStep
  split
  · rfl
  · split <;> rfl

/-! ## Stack temperatures (R266) -/

/-- A stack takes its reading: HOT from 85 °C until it is below 83. -/
def StackRegs.heated (r : StackRegs) (t : BitVec 8) : StackRegs :=
  { r with tempC := t, hot := decide (85 ≤ t.toNat) || (r.hot && decide (83 ≤ t.toNat)),
           hotTime := if r.hot then satInc r.hotTime else r.hotTime }

/-- A reading of a stack, before a trip. -/
def State.stackHeated (s : State) (st : StackId) (t : BitVec 8) : State :=
  let u := s.modMs (fun m => m.modStack st.val (fun r => r.heated t))
  (u.modPwr (fun p => { p with hbmMax := u.hbmHottest })).reassess

theorem exec_hbmTempSample (s : State) (st : StackId) (t : BitVec 8) : exec (.hbmTempSample st t) s = .next
    (if tripLevel 2 ≤ t.toNat then ((s.stackHeated st t).tripThermal 2 st.val t.toNat).reassess else s.stackHeated st t) := rfl

theorem exec_temperatureSample_faulted (h : HeatSample) (s : State) :
    exec (.temperatureSample h.compute h.others h.optical h.toPlantSample) s =
      .next (((s.faulted h).trips h).setLimit.reassess) := rfl

/-- The limit and the reasons are settled: nothing but them changes. -/
def PwrBlk.withLimit (p : PwrBlk) (w : BitVec 16) (asserted seen : BitVec 8) (limiting : BitVec 4) : PwrBlk :=
  { p with limitW := w, asserted := asserted, seen := seen, limiting := limiting }

theorem State.settled_frame (s : State) : ∃ w a b l, s.setLimit.reassess = { s with pwr := s.pwr.withLimit w a b l } := ⟨_, _, _, _, rfl⟩

/-- What a sample leaves. -/
theorem State.sample_frame (s : State) (h : HeatSample) : ∃ w a b l goose, ((s.faulted h).trips h).setLimit.reassess =
    { s with pwr := { (s.faulted h).pwr.withLimit w a b l with stopThermal := s.pwr.stopThermal || h.trips }, goose := goose,
             free := s.free + 1, pins := s.pins.read h.toPlantSample } := by
  obtain ⟨goose, tripped⟩ := s.sampled_eq h
  obtain ⟨w, a, b, l, settled⟩ := ((s.faulted h).trips h).settled_frame
  refine ⟨w, a, b, l, goose, ?_⟩
  rw [settled, tripped, s.faulted_frame h]
  simp only [State.withTrip, PwrBlk.withLimit]

theorem State.sample_goose (s : State) (h : HeatSample) (ok : h.inletOk = true) (calm : h.trips = false) :
    (((s.faulted h).trips h).setLimit.reassess).goose = s.goose := by
  obtain ⟨w, a, b, l, settled⟩ := ((s.faulted h).trips h).settled_frame
  rw [settled, State.trips_none _ _ calm, State.faulted, if_pos ok, State.steered_frame]

theorem State.faulted_plantFault (s : State) (h : HeatSample) (ok : h.inletOk = true) : (s.faulted h).pwr.plantFault = s.pwr.plantFault := by
  have terms : (s.faulted h).pwr.limitTerms = (s.pwr.sampledInlet h).limitTerms := by
    rw [State.faulted, if_pos ok]
    exact s.steered_limitTerms h
  exact PwrBlk.plantFault_eq_of_limitTerms (p := s.pwr.sampledInlet h) terms

/-- A failed inlet sensor. -/
theorem State.faulted_failed (s : State) (h : HeatSample) (failed : h.inletOk = false) (new : (4, 0) ∉ s.pwr.conds) :
    (s.faulted h).pwr.plantFault = true ∧ (4, 0) ∈ (s.faulted h).pwr.conds := by
  have raised := (s.steered h).raiseFault_new 4 0 (fun m => new (s.steered_conds_subset h m))
  have fault : s.faulted h = (s.steered h).raiseFault 4 0 := if_neg (by simp [failed])
  rw [fault]
  exact ⟨raised.fault, by rw [raised.conds]; exact List.mem_cons_self⟩

theorem StackRegs.heated_hot (r : StackRegs) (t : BitVec 8) :
    (r.heated t).hot = if r.hot then decide (83 ≤ t.toNat) else decide (85 ≤ t.toNat) := by
  cases hot : r.hot
  · simp [StackRegs.heated, hot]
  · simp only [StackRegs.heated, hot, Bool.true_and, if_true]
    grind

/-- A reading of a stack, with the trip at 105 °C. -/
def State.stackSampled (s : State) (st : StackId) (t : BitVec 8) : State :=
  if tripLevel 2 ≤ t.toNat then ((s.stackHeated st t).tripThermal 2 st.val t.toNat).reassess else s.stackHeated st t

theorem State.stackSampled_frame (s : State) (st : StackId) (t : BitVec 8) : s.stackSampled st t =
    { s with ms := s.ms.modStack st.val (fun r => r.heated t), goose := (s.stackSampled st t).goose,
             pwr := { s.pwr with hbmMax := (s.stackSampled st t).pwr.hbmMax, stopThermal := s.pwr.stopThermal || decide (105 ≤ t.toNat),
                                 asserted := (s.stackSampled st t).pwr.asserted, seen := (s.stackSampled st t).pwr.seen,
                                 limiting := (s.stackSampled st t).pwr.limiting } } := by
  have level : tripLevel 2 = 105 := rfl
  have notOther : ¬ (2 : Fin 4).val ≤ 1 := by decide
  have notOptical : (2 : Fin 4) ≠ 3 := by decide
  by_cases trip : 105 ≤ t.toNat
  · simp only [State.stackSampled, level, if_pos trip, decide_eq_true trip, Bool.or_true, State.reassess, State.tripThermal,
      State.stackHeated, State.log, State.modPwr, State.modMs, if_neg notOther, if_neg notOptical]
  · simp only [State.stackSampled, level, if_neg trip, decide_eq_false trip, Bool.or_false, State.reassess, State.stackHeated,
      State.modPwr, State.modMs]

/-- Settles O48, a row at a time. -/
theorem heatAndPlant : Obligations.HeatAndPlant := by
  unfold Obligations.HeatAndPlant
  intro h x st k hz r s sample p two three limited faulted stk top temp hot cooled atOrOver trips i slow bad
  refine ⟨?sample, ?stack, fun n2 n3 n7 => if_neg (by tauto), fun hr => ?allowance, fun ok => ?noTach, fun hb new => ?tach,
    fun new => ?cool, fun new => ?coolNew, fun old => ?coolOld, fun none_ => ?notClear, fun fault none_ => ?clear⟩
  case sample =>
    obtain ⟨w, a, b, l, goose, left⟩ := s.sample_frame h
    obtain ⟨ins, conds, last, read⟩ := p.read_frame h s.hbmHottest
    have view := s.faulted_sensorView h
    have rates := p.read_rate h s.hbmHottest
    simp only [PwrBlk.sensorView, Prod.mk.injEq] at view
    obtain ⟨tj, opt, inlet, inletFail, opCur, -, inputs⟩ := view
    rw [show s.pwr.read h s.hbmHottest = _ from read] at tj opt inlet inletFail opCur
    have quietGoose := s.sample_goose h
    rw [left] at quietGoose
    refine ⟨_, (exec_temperatureSample_faulted h s).trans (congrArg Host.Outcome.next left), ?_, ?_, inlet, inletFail, opCur, rfl,
      fun j used => ?_, fun ok => ⟨s.faulted_plantFault h ok, fun calm => quietGoose ok calm⟩, fun failed new => s.faulted_failed h failed new, rfl⟩
    · change (s.faulted h).pwr.tjMax.toNat = _
      rw [tj]
      exact (BitVec.toNat_ofNat _ _).trans (Nat.mod_eq_of_lt (hottest_lt _))
    · change (s.faulted h).pwr.optMax.toNat = _
      rw [opt]
      exact (BitVec.toNat_ofNat _ _).trans (Nat.mod_eq_of_lt (hottest_lt _))
    · change ((s.faulted h).pwr.ins.getD j.val {}).rate = _
      rw [inputs]
      exact rates j used
  case stack =>
    have left := s.stackSampled_frame st x
    have regs (j : Nat) : (s.ms.modStack st.val (fun r => r.heated x)).hbm.stackRegs.getD j {} =
        if j = st.val ∧ st.val < 8 then stk.heated x else s.ms.hbm.stackRegs.getD j {} := getD_vmod _ _ _ _ _
    have own : (s.ms.modStack st.val (fun r => r.heated x)).hbm.stackRegs.getD st.val {} = stk.heated x := by
      rw [regs, if_pos ⟨rfl, st.isLt⟩]
    exact ⟨_, (exec_hbmTempSample s st x).trans (congrArg Host.Outcome.next left), congrArg StackRegs.tempC own,
      (congrArg StackRegs.hot own).trans (stk.heated_hot x), fun j _ ne => (regs j).trans (if_neg (fun both => ne both.1)), rfl, rfl,
      rfl, rfl⟩
  case allowance =>
    have tooHot : p.tooHot r.val = true ↔ hot := by
      rcases hr with h | h | h <;> simp [hot, top, temp, h, PwrBlk.tooHot]
    have isCooled : p.cooled r.val = true ∧ ¬ hot ↔ cooled := by
      rcases hr with h | h | h <;> simp [cooled, top, temp, h, PwrBlk.cooled, and_comm]
    have mild (nh : ¬ hot) : p.tooHot r.val = false := by rw [Bool.eq_false_iff]; exact fun h => nh (tooHot.mp h)
    have warm (nh : ¬ hot) (nc : ¬ cooled) : p.cooled r.val = false := by rw [Bool.eq_false_iff]; exact fun h => nc (isCooled.mp ⟨h, nh⟩)
    refine ⟨_, if_pos hr, s.allowanceStep_frame r.val, fun j hj => ?_, fun hh => (s.allowanceStep_hot r.val r.isLt (tooHot.mpr hh)).1,
      fun hc => ?_, fun nh nc => ?_⟩
    · by_cases hh : hot
      · exact (s.allowanceStep_hot r.val r.isLt (tooHot.mpr hh)).2 j hj
      · by_cases hc : cooled
        · exact (s.allowanceStep_cooled r.val r.isLt (mild hh) (isCooled.mpr hc).1).2.2 j hj
        · rw [s.allowanceStep_kept r.val (mild hh) (warm hh hc)]
          rfl
    · obtain ⟨down, point, -⟩ := s.allowanceStep_cooled r.val r.isLt (mild hc.1) (isCooled.mpr hc).1
      exact ⟨down, point⟩
    · rw [s.allowanceStep_kept r.val (mild nh) (warm nh nc)]
      rfl
  case noTach =>
    exact if_neg (fun h => ok ((p.inputBad_iff k.val hz.toNat).mp h))
  case tach =>
    obtain ⟨fault, count, command, asserted, point, conds, limit, record, inputs⟩ :=
      (s.modPwr (fun p => { p with ins := vmod p.ins k.val (fun (i : PlantIn) => { i with rate := i.rateAt hz.toNat, fault := true }) })).raiseFault_new
        i.role.toNat k.val new
    have mine (f : PlantIn → PlantIn) : (vmod s.pwr.ins k.val f).getD k.val {} = f i := (getD_vmod _ _ _ _ _).trans (if_pos ⟨rfl, k.isLt⟩)
    have role : (((vmod s.pwr.ins k.val (fun (i : PlantIn) => { i with rate := i.rateAt hz.toNat, fault := true })).getD k.val {}).role).toNat =
        i.role.toNat := by rw [mine]
    refine ⟨_, (if_pos ((p.inputBad_iff k.val hz.toNat).mpr hb)).trans
      (congrArg (fun n => Host.Outcome.next (State.raiseFault _ n k.val)) role), ?_, ⟨fault, count, command, asserted, point, conds, limit, record⟩, ?_⟩
    · rw [inputs]
      exact congrArg PlantIn.fault (mine _)
    · rw [State.raiseFault_frame]
      rfl
  case cool =>
    obtain ⟨fault, count, command, asserted, point, conds, limit, record, -⟩ :=
      (s.modPins (fun p => { p with coolOk := false })).raiseFault_new 3 0 new
    refine ⟨_, rfl, ?_, ⟨fault, count, command, asserted, point, conds, limit, record⟩, ?_⟩
    · rw [State.raiseFault_frame]
      rfl
    · rw [State.raiseFault_frame]
      rfl
  case coolNew =>
    have same : p.goneFault 3 0 = p := if_neg (by simpa using new)
    exact congrArg (fun q => Host.Outcome.next { s with pins := { s.pins with coolOk := true }, pwr := q }) same
  case coolOld =>
    have gone : p.goneFault 3 0 = { p with conds := p.conds.filter (fun c => c != (3, 0)), lastCond := (3, 0) } := if_pos (by simpa using old)
    exact congrArg (fun q => Host.Outcome.next { s with pins := { s.pins with coolOk := true }, pwr := q }) gone
  case notClear =>
    refine if_neg ?_
    rcases none_ with h | h <;> simp [p] at h <;> simp [h]
  case clear =>
    refine ⟨_, if_pos (by simp [p] at fault none_; simp [fault, none_]), rfl, rfl, fun cool => ?_, rfl, rfl⟩
    rw [State.reassess_limitW, State.setLimit_limitW]
    exact (State.limitNow_noFault _ (by exact cool) rfl).trans rfl

end Sys2Proof.Machine
end

section
/-! PROOFS. O25 FabricAndSystemWrites. -/

namespace Sys2Proof.Machine

/-! ## Lanes -/

/-- A state with the lanes, the fabric's other fields and the records of another. -/
def State.laneFrame (s t : State) : Prop := t = { s with fab := { s.fab with lanes := t.fab.lanes } }

theorem State.laneFrame_modLane (s : State) (k : Nat) (f : Lane → Lane) : s.laneFrame (s.modLane k f) := rfl

theorem State.laneFrame.trans {s t u : State} (h : s.laneFrame t) (k : t.laneFrame u) : s.laneFrame u := by
  unfold State.laneFrame at *
  rw [k, h]

/-- The same change of the first n lanes. -/
theorem State.foldl_modLane_range (s : State) (f : Lane → Lane) (n : Nat) (hn : n ≤ 64) :
    s.laneFrame ((List.range n).foldl (fun s k => s.modLane k f) s) ∧
    ∀ j, ((List.range n).foldl (fun s k => s.modLane k f) s).lane j = if j < n then f (s.lane j) else s.lane j := by
  induction n with
  | zero => exact ⟨rfl, fun j => rfl⟩
  | succ n ih =>
    obtain ⟨frame, lanes⟩ := ih (by omega)
    rw [List.range_succ, List.foldl_append, List.foldl_cons, List.foldl_nil]
    refine ⟨frame.trans (State.laneFrame_modLane _ n f), fun j => ?_⟩
    rw [State.lane_modLane, lanes, lanes]
    grind

/-! ## The fault map (R306) -/

theorem FabBlk.fmapIndexOf_none (f : FabBlk) (dev : DevId) (tr : Nat) (h : ∀ e ∈ f.fmap, e.2.dev = dev → e.2.trunk.toNat ≠ tr) :
    f.fmapIndexOf dev tr = none := by
  simp only [FabBlk.fmapIndexOf, Option.map_eq_none_iff, List.find?_eq_none]
  grind

theorem FabBlk.fmapIndexOf_some (f : FabBlk) (dev : DevId) (tr j : Nat) (h : f.fmapIndexOf dev tr = some j) :
    ∃ e ∈ f.fmap, e.2.dev = dev ∧ e.2.trunk.toNat = tr ∧ e.1 = j := by
  obtain ⟨e, found, same⟩ := Option.map_eq_some_iff.mp h
  have matches_ := List.find?_some found
  exact ⟨e, List.mem_of_find?_eq_some found, by simp_all⟩

/-! ## Records -/

theorem State.logs_goose_frame (s : State) (es : List GEvent) : s.logs es = { s with goose := (s.logs es).goose } := by
  unfold State.logs
  induction es generalizing s with
  | nil => rfl
  | cons e es ih =>
    rw [List.foldl_cons, ih]
    rfl

/-- Every lane's draws start afresh. -/
def State.drawsAfresh (s : State) : State :=
  (List.range 64).foldl (fun s k => s.modLane k (fun l => { l with injCount := 0 })) s

theorem State.drawsAfresh_frame (s : State) : s.laneFrame s.drawsAfresh := (s.foldl_modLane_range _ 64 le_rfl).1

theorem State.drawsAfresh_lane (s : State) (j : Nat) (hj : j < 64) : s.drawsAfresh.lane j = { s.lane j with injCount := 0 } :=
  ((s.foldl_modLane_range _ 64 le_rfl).2 j).trans (if_pos hj)

/-- EN has risen, and is not recorded yet. -/
def State.injRisen (s : State) (v : Reg) : State :=
  ((s.modFab (fun f => { f with injEn := bitB v 0, injBad := f.injBad && !bitB v 2 })).modSec (fun x => { x with injUsed := true })).drawsAfresh

theorem State.injRisen_frame (s : State) (v : Reg) : s.injRisen v =
    { s with sec := { s.sec with injUsed := true },
             fab := { s.fab with injEn := bitB v 0, injBad := s.fab.injBad && !bitB v 2, lanes := (s.injRisen v).fab.lanes } } :=
  State.drawsAfresh_frame _

theorem State.writeInjCtrl_rise (s : State) (v : Reg) (permit : s.fab.permit = true) (en : bitB v 0 = true) (was : s.fab.injEn = false) :
    ∃ goose, s.writeInjCtrl v = { s.injRisen v with goose := goose } := by
  have risen : (bitB v 0 && !s.fab.injEn) = true := by simp [en, was]
  rw [State.writeInjCtrl, if_neg (by simp [permit])]
  dsimp only
  rw [if_pos risen]
  split
  · exact ⟨_, rfl⟩
  · exact ⟨_, State.logs_goose_frame _ _⟩

theorem State.injRisen_lane (s : State) (v : Reg) (j : Nat) (hj : j < 64) : (s.injRisen v).lane j = { s.lane j with injCount := 0 } :=
  State.drawsAfresh_lane _ j hj

/-- A lane with the rates of a write of LANE_INJ (R315). -/
def Lane.withRates (l : Lane) (v : Reg) : Lane :=
  { l with injDrop := fld v 0 20, injCorrupt := fld v 20 20, injReorder := fld v 40 20, corruptKind := bitB v 60 }

theorem State.writeLaneInj_permitted (s : State) (k : Nat) (hk : k < 64) (v : Reg) (permit : s.fab.permit = true) :
    s.writeLaneInj k v =
      if (s.lane k).injDrop ≠ fld v 0 20 ∨ (s.lane k).injCorrupt ≠ fld v 20 20 ∨ (s.lane k).injReorder ≠ fld v 40 20
        then (s.modLane k (fun l => l.withRates v)).log (injEvent k ((s.lane k).withRates v)) else s.modLane k (fun l => l.withRates v) := by
  have new : (s.modLane k (fun l => l.withRates v)).lane k = (s.lane k).withRates v :=
    (s.lane_modLane _ _ _).trans (if_pos ⟨rfl, hk⟩)
  rw [State.writeLaneInj, if_neg (by simp [permit])]
  simp only [← Lane.withRates.eq_def, new]
  rfl

/-- A change of a lane's rates leaves everything but the lane and the records; the same rates leave the records too. -/
theorem State.writeLaneInj_frame (s : State) (k : Nat) (hk : k < 64) (v : Reg) (permit : s.fab.permit = true) :
    ∃ goose, s.writeLaneInj k v = { s.modLane k (fun l => l.withRates v) with goose := goose } ∧
      ((s.lane k).injDrop = fld v 0 20 → (s.lane k).injCorrupt = fld v 20 20 → (s.lane k).injReorder = fld v 40 20 → goose = s.goose) := by
  rw [s.writeLaneInj_permitted k hk v permit]
  split
  · next change => exact ⟨_, rfl, fun drop corrupt reorder => absurd change (by simp [drop, corrupt, reorder])⟩
  · exact ⟨s.goose, rfl, fun _ _ _ => rfl⟩

/-! ## Register writes (R5, R7) -/

/-- A write of a register that its block has. -/
theorem State.regWrite_of_block (s : State) (a : Nat) (v : Reg) (b : Blk) (o : Nat) (aligned : a % 8 = 0) (block : blkOf a = some (b, o))
    (has : (s.blkRead b o).isSome = true) : (s.regWrite a v).2 = s.blkWrite b o v := by
  simp only [State.regWrite, aligned, ne_eq, not_true, if_false, block, has, if_true]

theorem exec_registerWrite (a : BitVec 32) (v : Reg) (s : State) : exec (.registerWrite a v) s = .next (s.regWrite a.toNat v).2 := rfl

theorem exec_registerWrite_of_block (a : BitVec 32) (v : Reg) (s t : State) (b : Blk) (o : Nat) (aligned : a.toNat % 8 = 0)
    (block : blkOf a.toNat = some (b, o)) (has : (s.blkRead b o).isSome = true) (left : s.blkWrite b o v = t) :
    exec (.registerWrite a v) s = .next t := by
  rw [exec_registerWrite, s.regWrite_of_block a.toNat v b o aligned block has, left]

/-- Where the register of a core that holds STOP_ON_ERR stands. -/
theorem stopOnErr_address (c : CoreId) : (BitVec.ofNat 32 (0x01000208 + 0x100000 * c.val)).toNat % 8 = 0 ∧
    blkOf (BitVec.ofNat 32 (0x01000208 + 0x100000 * c.val)).toNat = some (.core c.val, 0x208) := by
  revert c
  decide +kernel

/-- Settles O25: the fabric's registers by what their writes do, the others by the block that has them. -/
theorem fabricAndSystemWrites : Obligations.FabricAndSystemWrites := by
  unfold Obligations.FabricAndSystemWrites
  refine ⟨fun i k v s => ?fabric, fun v s => ?system⟩
  case fabric =>
    intro f dev tr
    refine ⟨fun valid free => ?_, fun valid ⟨e, mem, sameDev, sameTrunk⟩ held => ?_, fun clear => ?_, fun off => ?_, fun permit => ?_⟩
    · have wrote : f.writeFmap i.val v = { f with fmap := tabSet f.fmap i.val ⟨dev, fld v 14 3, 2⟩ } := by
        rw [FabBlk.writeFmap, if_pos valid]
        split
        · next j found =>
          obtain ⟨e, mem, sameDev, sameTrunk, at_⟩ := f.fmapIndexOf_some _ _ j found
          rw [if_pos (at_.symm.trans (free e mem sameDev sameTrunk))]
        · rfl
      exact congrArg (fun g => Host.Outcome.next { s with fab := g }) wrote
    · have kept : f.writeFmap i.val v = f := by
        rw [FabBlk.writeFmap, if_pos valid]
        split
        · next j found =>
          obtain ⟨e, mem, sameDev, sameTrunk, at_⟩ := f.fmapIndexOf_some _ _ j found
          rw [if_neg (fun same => held e mem sameDev sameTrunk (at_.trans same))]
        · next missing =>
          have other := List.find?_eq_none.mp (Option.map_eq_none_iff.mp missing) e mem
          rw [sameDev, sameTrunk] at other
          simp [dev, tr] at other
      exact congrArg (fun g => Host.Outcome.next { s with fab := g }) kept
    · have erased : f.writeFmap i.val v = { f with fmap := tabErase f.fmap i.val } := if_neg (by simp [clear])
      exact congrArg (fun g => Host.Outcome.next { s with fab := g }) erased
    · refine ⟨?_, ?_, ?_⟩
      · exact congrArg Host.Outcome.next (if_pos (by simp [show s.fab.permit = false from off]))
      · exact congrArg (fun g => Host.Outcome.next { s with fab := g }) (if_neg (Bool.eq_false_iff.mp off))
      · exact congrArg Host.Outcome.next (if_pos (by simp [show s.fab.permit = false from off]))
    · have on : s.fab.permit = true := permit
      refine ⟨?_, fun steady => ?_, fun rise was => ?_, ?_⟩
      · exact congrArg (fun g => Host.Outcome.next { s with fab := g }) (if_pos permit)
      · have calm : ¬ (bitB v 0 && !s.fab.injEn) = true := by
          rcases steady with h | h
          · simp [h]
          · simp [show s.fab.injEn = true from h]
        refine congrArg Host.Outcome.next ((if_neg (by simp [on])).trans (if_neg calm))
      · obtain ⟨goose, left⟩ := s.writeInjCtrl_rise v on rise was
        rw [s.injRisen_frame v] at left
        exact ⟨_, congrArg Host.Outcome.next left, rise, rfl,
          fun j hj => show (s.injRisen v).fab.lanes.getD j {} = _ from s.injRisen_lane v j hj, rfl, rfl, rfl, rfl, rfl⟩
      · obtain ⟨goose, left, quiet⟩ := s.writeLaneInj_frame k.val k.isLt v on
        exact ⟨_, congrArg Host.Outcome.next left, (s.lane_modLane _ _ _).trans (if_pos ⟨rfl, k.isLt⟩),
          fun j ne => (s.lane_modLane _ _ _).trans (if_neg (fun both => ne both.1)), rfl, rfl, rfl, rfl, quiet⟩
  case system =>
    refine ⟨fun a odd => congrArg (fun (r : Nat × State) => Host.Outcome.next r.2) (if_pos odd), fun a nowhere => ?_,
      exec_registerWrite_of_block _ v s _ .rst 0x00 rfl rfl rfl rfl, exec_registerWrite_of_block _ v s _ .opt 0x200 rfl rfl rfl rfl,
      exec_registerWrite_of_block _ v s _ .pwr 0x28 rfl rfl rfl rfl, exec_registerWrite_of_block _ v s _ .time 0x08 rfl rfl rfl rfl,
      exec_registerWrite_of_block _ v s _ .goose 0x18 rfl rfl rfl rfl, exec_registerWrite_of_block _ v s _ .fab 0x10 rfl rfl rfl rfl,
      fun c => ?_⟩
    · have none_ : (s.regWrite a.toNat v).2 = s := by
        rw [State.regWrite, nowhere]
        split <;> rfl
      exact congrArg Host.Outcome.next none_
    · obtain ⟨aligned, block⟩ := stopOnErr_address c
      exact exec_registerWrite_of_block _ v s _ (.core c.val) 0x208 aligned block rfl rfl

end Sys2Proof.Machine
end

section
/-! PROOFS. O38 Pulse fails: a pulse source that still counts as following takes a new HOLD_RATE when the pulse goes missing. -/

namespace Sys2Proof.Machine

/-- The state after reset, in source mode 0 and with an upstream lane that is down; the pulse intervals have a rate of 1 ppb,
HOLD_RATE is 0. -/
def followingSource : State :=
  { State.reset with time := { State.reset.time with srcMode := 0, hasUp := true, pulseRates := [1] } }

/-- With no lane to follow, HOLD_RATE becomes the mean of the pulse intervals, and the rate word with it. -/
theorem rateAdj_of_followingSource : (followingSource.pulseMissing).time.rateAdj = 1 := by decide +kernel

theorem followingSource_calm : followingSource.Calm := by
  unfold State.Calm State.Quiet State.Steady
  decide +kernel

/-- Refutes O38: PPS_MISSING chooses an upstream lane after it has entered holdover, and without one it makes HOLD_RATE anew from
the pulse intervals, so the rate word does not keep the HOLD_RATE of before. -/
theorem not_pulse : ¬ Obligations.Pulse := by
  unfold Obligations.Pulse
  intro h
  obtain ⟨-, -, -, missing⟩ := h 0 followingSource followingSource_calm
  obtain ⟨u, run, -, -, -, -, rateAdj, -⟩ := missing (by decide +kernel) (by decide +kernel)
  obtain rfl : followingSource.pulseMissing = u := Host.Outcome.next.inj run
  rw [rateAdj_of_followingSource] at rateAdj
  exact absurd rateAdj (by decide +kernel)

end Sys2Proof.Machine
end

section
/-! PROOFS. O37 FabricTime fails: holdover also ends the slew of a pulse error. -/

namespace Sys2Proof.Machine

/-- The state after reset as a follower of lane 0 in which the error term of an earlier pulse is still in the rate word. -/
def slewingFollower : State :=
  { State.reset with time := { State.reset.time with srcMode := 1, hasUp := true, slewing := true } }

theorem slewingFollower_calm : slewingFollower.Calm := by
  unfold State.Calm State.Quiet State.Steady
  decide +kernel

/-- What UPSTREAM_STALE leaves of the slew. -/
theorem upstreamStale_slewing : (match exec .upstreamStale slewingFollower with
    | .next u => u.time.slewing
    | _ => true) = false := by decide +kernel

/-- Refutes O37: UPSTREAM_STALE ends the slew with the entry into holdover, so not only LOCKED, the run of good measurements,
HOLDOVER and the rate word change. -/
theorem not_fabricTime : ¬ Obligations.FabricTime := by
  unfold Obligations.FabricTime
  intro h
  obtain ⟨-, -, -, -, -, -, stale, -⟩ := h 0 [] slewingFollower slewingFollower_calm
  have slew := upstreamStale_slewing
  rw [stale rfl rfl] at slew
  exact Bool.noConfusion slew

end Sys2Proof.Machine
end

section
/-! PROOFS. O43 GmcpReads and O44 GmcpWrites: requests of the UART. -/

namespace Sys2Proof.Machine

/-! ## Bytes of a request -/

theorem slice_getD (bs : List Byte) (off n i : Nat) (h : i < n) : (slice bs off n).getD i 0 = bs.getD (off + i) 0 := by
  unfold slice
  by_cases inside : off + i < bs.length
  · rw [List.getD_append _ _ _ _ (by simp; omega)]
    simp [List.getD_eq_getElem?_getD, h]
  · rw [List.getD_append_right _ _ _ _ (by simp; omega), List.getD_eq_default bs 0 (by omega)]
    simp [List.getD_eq_getElem?_getD]

theorem length_slice (bs : List Byte) (off n : Nat) : (slice bs off n).length = n := by
  simp [slice]
  omega

theorem leAt_one (bs : List Byte) (off : Nat) : leAt bs off 1 = (bs.getD off 0).toNat := by
  have one : slice bs off 1 = [bs.getD off 0] := by
    refine List.ext_getElem (by rw [length_slice, List.length_singleton]) (fun i h _ => ?_)
    rw [length_slice] at h
    obtain rfl : i = 0 := by omega
    rw [← List.getD_eq_getElem _ 0, slice_getD _ _ _ _ h]
    simp
  rw [leAt, one]
  simp [leNat]

/-- A message with its operation in place. -/
def withOpByte (op : Nat) (m : List Byte) : List Byte := m.take 3 ++ List.replicate (3 - m.length) 0 ++ [BitVec.ofNat 8 op] ++ m.drop 4

theorem withOpByte_getD (op : Nat) (m : List Byte) : (withOpByte op m).getD 3 0 = BitVec.ofNat 8 op := by
  have three : (m.take 3 ++ List.replicate (3 - m.length) (0 : Byte)).length = 3 := by simp; omega
  rw [withOpByte, List.append_assoc, List.getD_append_right _ _ _ _ (by omega), three]
  rfl

theorem asOp_nil (op : Nat) (m : List Byte) : asOp op [] m = withOpByte op m := rfl

theorem asOp_cons (op : Nat) (x : Byte) (m : List Byte) : asOp op [x] m =
    (withOpByte op m).take 32 ++ List.replicate (32 - (withOpByte op m).length) 0 ++ [x] ++ (withOpByte op m).drop 33 := rfl

theorem asOp_cons_getD (op : Nat) (x : Byte) (m : List Byte) : (asOp op [x] m).getD 32 0 = x := by
  have len : ((withOpByte op m).take 32 ++ List.replicate (32 - (withOpByte op m).length) (0 : Byte)).length = 32 := by simp; omega
  rw [asOp_cons, List.append_assoc, List.getD_append_right _ _ _ _ (by omega), len]
  rfl

theorem asOp_cons_getD_three (op : Nat) (x : Byte) (m : List Byte) : (asOp op [x] m).getD 3 0 = BitVec.ofNat 8 op := by
  have long : 3 < (withOpByte op m).length := by simp [withOpByte]; omega
  rw [asOp_cons, List.append_assoc, List.append_assoc, List.getD_append _ _ _ _ (by simp; omega), ← withOpByte_getD op m]
  simp [List.getD_eq_getElem?_getD]

/-- The operation of a request. -/
theorem op_asOp_nil (op : Nat) (h : op < 256) (m : List Byte) : (GmcpHdr.of (asOp op [] m)).op = op := by
  have byte : leAt (withOpByte op m) 3 1 = op := by rw [leAt_one, withOpByte_getD, BitVec.toNat_ofNat, Nat.mod_eq_of_lt h]
  exact byte

theorem op_asOp_cons (op : Nat) (h : op < 256) (x : Byte) (m : List Byte) : (GmcpHdr.of (asOp op [x] m)).op = op := by
  have byte : leAt (asOp op [x] m) 3 1 = op := by rw [leAt_one, asOp_cons_getD_three, BitVec.toNat_ofNat, Nat.mod_eq_of_lt h]
  exact byte

/-- The payload byte that a row fixes. -/
theorem leAt_body_asOp_cons (op : Nat) (x : Byte) (m : List Byte) (h : (gmcpBody (asOp op [x] m)).length = 8) :
    leAt (gmcpBody (asOp op [x] m)) 0 1 = x.toNat := by
  rw [gmcpBody, length_slice] at h
  rw [leAt_one, gmcpBody, h, slice_getD _ _ _ _ (by omega), Nat.add_zero, asOp_cons_getD]

/-! ## A request over the UART is executed and answered (R345 to R353) -/

/-- The request of a row over the UART. -/
def State.uartReq (s : State) (op : Nat) (first m : List Byte) (img : Option JobImage) : GmcpReq :=
  { port := 2, msg := asOp op first m, ft := s.now, image := img }

theorem State.answered_uart (s : State) (r : GmcpReq) (uart : r.port = 2) (status : Nat) (payload : List Byte) :
    s.answered r status payload = s.uartAnswered r.msg status payload := by
  simp only [State.answered, State.replyKey, State.sendReply, uart, ne_eq, not_true, false_and, if_false, Option.isSome_none,
    Bool.false_eq_true, if_true, State.uartAnswered, State.modEth, State.modPins]

theorem State.drainCmds_empty (s : State) (n : Nat) (h : s.eth.queue = []) : State.drainCmds n s = s := by
  cases n with
  | zero => rfl
  | succ n => rw [State.drainCmds, if_pos (by simp [h])]

theorem State.submit_uart (s : State) (r : GmcpReq) (uart : r.port = 2) (noAbort : (GmcpHdr.of r.msg).op ≠ 0x12)
    (runs : s.cmdWaits r = false) (queue : s.eth.queue = []) : s.submit r false = s.execute r [] := by
  have key : (s.replyKey r).isNone = true := by simp [State.replyKey, uart]
  have verdict : s.verdict r = .accept := by rw [State.verdict, if_pos key]
  have noted : s.noteSeq r = s := if_pos key
  have noAb : ((GmcpHdr.of r.msg).op == 0x12) = false := beq_eq_false_iff_ne.mpr noAbort
  simp only [State.submit, verdict, runs, noAb, noted, s.drainCmds_empty 48 queue, queue, List.isEmpty_nil, if_true, Bool.or_false,
    Bool.and_false, Bool.not_false, Bool.false_and, Bool.false_eq_true, if_false]

/-- A request row of a known operation with a right header and payload, while nothing waits. -/
theorem State.request_asked (s : State) (op : Nat) (first m : List Byte) (img : Option JobImage) (asked : s.Asked op first m)
    (known : gmcpOps.contains op = true) (isOp : (GmcpHdr.of (asOp op first m)).op = op) (noAbort : op ≠ 0x12)
    (runs : s.stopped = false ∨ op < 0x10 ∨ 0x20 ≤ op ∨ op = 0x14) :
    s.request op first 2 m false img = s.execute (s.uartReq op first m img) [] := by
  obtain ⟨ready, up, queue, header, payload⟩ := asked
  have free : s.cmdWaits (s.uartReq op first m img) = false := by
    simp only [State.cmdWaits, State.uartReq, isOp]
    rcases runs with h | h | h | h
    · simp [h]
    · simp [show ¬ 16 ≤ op by omega]
    · simp [show ¬ op < 32 by omega]
    · simp [h]
  have submitted := s.submit_uart (s.uartReq op first m img) rfl (by rw [State.uartReq, isOp]; exact noAbort) free queue
  rw [← submitted]
  simp only [State.request, State.gmcpIn, up, ready, Bool.true_or, if_true, Bool.false_eq_true, if_false, State.uartReq, State.check,
    header, payload, isOp, known, Bool.not_true, show (2 : Fin 3).val = 2 from rfl, ne_eq, not_true, false_and]

/-- A request that asks for no reset is answered with what its operation gives. -/
theorem State.execute_answered (s : State) (r : GmcpReq) (uart : r.port = 2) (x : GmcpRes) (result : s.gmcpOp r [] = x)
    (noReset : x.reset = none) : s.execute r [] = x.st.uartAnswered r.msg x.status x.payload := by
  rw [State.execute, result]
  simp only [noReset, State.answered_uart _ r uart]

theorem State.execute_reset (s : State) (r : GmcpReq) (uart : r.port = 2) (x : GmcpRes) (result : s.gmcpOp r [] = x) (cold : Bool)
    (reset : x.reset = some cold) :
    s.execute r [] = (x.st.uartAnswered r.msg x.status x.payload).requestReset cold (if cold then 3 else 4) := by
  rw [State.execute, result]
  simp only [reset, State.answered_uart _ r uart]

/-- A request row that a module executes at once and answers. -/
theorem State.request_answered (s : State) (op : Nat) (first m : List Byte) (asked : s.Asked op first m)
    (known : gmcpOps.contains op = true) (isOp : (GmcpHdr.of (asOp op first m)).op = op) (noAbort : op ≠ 0x12)
    (runs : s.stopped = false ∨ op < 0x10 ∨ 0x20 ≤ op ∨ op = 0x14) (x : GmcpRes)
    (result : s.gmcpOp (s.uartReq op first m none) [] = x) (noReset : x.reset = none) :
    s.request op first 2 m false none = x.st.uartAnswered (asOp op first m) x.status x.payload :=
  (s.request_asked op first m none asked known isOp noAbort runs).trans (s.execute_answered _ rfl x result noReset)

/-! ## Register access (R351) -/

theorem State.opRegRead_bad (s : State) (b : List Byte) (h : leAt b 0 4 % 8 ≠ 0 ∨ leAt b 4 4 = 0 ∨ 256 < leAt b 4 4) :
    s.opRegRead b = { st := s, status := 0x0A } := by
  refine if_neg ?_
  simp only [regRangeOk, Bool.and_eq_true, beq_iff_eq, decide_eq_true_eq]
  omega

theorem State.opRegRead_one (s : State) (b : List Byte) (aligned : leAt b 0 4 % 8 = 0) (one : leAt b 4 4 = 1)
    (inside : leAt b 0 4 + 8 ≤ 2 ^ 32) : s.opRegRead b =
      { st := (s.regRead (leAt b 0 4)).2.2, status := if (s.regRead (leAt b 0 4)).2.1 = 0 then 0 else 0x09,
        payload := leBytes 8 (s.regRead (leAt b 0 4)).1.toNat ++ [BitVec.ofNat 8 (s.regRead (leAt b 0 4)).2.1] } := by
  have ok : regRangeOk (leAt b 0 4) 1 = true := by
    simp only [regRangeOk, Bool.and_eq_true, beq_iff_eq, decide_eq_true_eq]
    omega
  simp only [State.opRegRead, one, ok, if_true, State.readRegs, flagged, statusBytes, List.any_cons, List.any_nil, Bool.or_false,
    List.flatMap_cons, List.flatMap_nil, List.append_nil, List.map_cons, List.map_nil]
  congr 1
  by_cases h : (s.regRead (leAt b 0 4)).2.1 = 0 <;> simp [h]

theorem State.opRegWrite_bad (s : State) (b : List Byte) (h : leAt b 0 4 % 8 ≠ 0) : s.opRegWrite b = { st := s, status := 0x0A } := by
  refine if_neg ?_
  simp [regRangeOk, h]

theorem State.opRegWrite_one (s : State) (b : List Byte) (whole : s.rst.recovery = false) (aligned : leAt b 0 4 % 8 = 0)
    (one : leAt b 4 4 = 1) (inside : leAt b 0 4 + 8 ≤ 2 ^ 32) : s.opRegWrite b =
      { st := (s.regWrite (leAt b 0 4) (BitVec.ofNat 64 (leAt b 8 8))).2,
        status := if (s.regWrite (leAt b 0 4) (BitVec.ofNat 64 (leAt b 8 8))).1 = 0 then 0 else 0x09,
        payload := [BitVec.ofNat 8 (s.regWrite (leAt b 0 4) (BitVec.ofNat 64 (leAt b 8 8))).1] } := by
  have ok : regRangeOk (leAt b 0 4) 1 = true := by
    simp only [regRangeOk, Bool.and_eq_true, beq_iff_eq, decide_eq_true_eq]
    omega
  have may (a : Nat) : s.mayWrite a = true := by simp [State.mayWrite, whole]
  simp only [State.opRegWrite, one, ok, if_true, State.writeRegs, may, flagged, statusBytes, List.range_one, List.map_cons, List.map_nil,
    List.any_cons, List.any_nil, Bool.or_false, Nat.mul_zero, Nat.add_zero]
  congr 1
  by_cases h : (s.regWrite (leAt b 0 4) (BitVec.ofNat 64 (leAt b 8 8))).1 = 0 <;> simp [h]

/-! ## Telemetry (R354) -/

section
variable (s : State) (b : List Byte) (numeric : leAt b 0 1 = 1)
include numeric

theorem State.opTelemetry_beyond (beyond : 8 ≤ leAt b 1 1) : s.opTelemetry b = { st := s, status := 0x10 } := by
  simp only [State.opTelemetry, numeric, Nat.one_ne_zero, if_false, beyond, if_true]

theorem State.opTelemetry_empty (inside : leAt b 1 1 < 8) (none_ : (s.part (leAt b 1 1)).state = .empty) :
    s.opTelemetry b = { st := s, status := 0x11 } := by
  simp only [State.opTelemetry, numeric, Nat.one_ne_zero, if_false, Nat.not_le.mpr inside, none_, if_true]

theorem State.opTelemetry_numbers (inside : leAt b 1 1 < 8) (some_ : (s.part (leAt b 1 1)).state ≠ .empty) :
    s.opTelemetry b = { st := s, payload := s.numbers (leAt b 1 1) } := by
  simp only [State.opTelemetry, numeric, Nat.one_ne_zero, if_false, Nat.not_le.mpr inside, some_]

end

/-! ## What the operations give -/

section
variable (s : State) (r : GmcpReq)

theorem State.gmcpOp_session (op : (GmcpHdr.of r.msg).op = 0x01) : s.gmcpOp r [] = {
    st := s, payload := leBytes 8 s.eth.session.toNat ++ leBytes 8 s.eth.lastSeq.toNat ++ leBytes 2 s.rst.stIflevel.toNat ++ [BitVec.ofNat 8 s.rst.restricted.toNat] } := by
  simp [State.gmcpOp, op, notRestricted]

theorem State.gmcpOp_regRead (op : (GmcpHdr.of r.msg).op = 0x02) : s.gmcpOp r [] = s.opRegRead (gmcpBody r.msg) := by
  simp [State.gmcpOp, op, notRestricted]

theorem State.gmcpOp_regWrite (op : (GmcpHdr.of r.msg).op = 0x03) : s.gmcpOp r [] = s.opRegWrite (gmcpBody r.msg) := by
  simp [State.gmcpOp, op, notRestricted]

theorem State.gmcpOp_jobStatus (op : (GmcpHdr.of r.msg).op = 0x14) : s.gmcpOp r [] = { st := s, payload := s.partBytes } := by
  simp [State.gmcpOp, op, notRestricted]

theorem State.gmcpOp_telemetry (op : (GmcpHdr.of r.msg).op = 0x20) : s.gmcpOp r [] = s.opTelemetry (gmcpBody r.msg) := by
  simp [State.gmcpOp, op, notRestricted]

theorem State.gmcpOp_goose (op : (GmcpHdr.of r.msg).op = 0x28) : s.gmcpOp r [] = s.opGoose (gmcpBody r.msg) := by
  simp [State.gmcpOp, op, notRestricted]

theorem State.gmcpOp_attest (op : (GmcpHdr.of r.msg).op = 0x30) : s.gmcpOp r [] = s.opAttest (gmcpBody r.msg) := by
  simp [State.gmcpOp, op, notRestricted]

theorem State.gmcpOp_reset (op : (GmcpHdr.of r.msg).op = 0x38) : s.gmcpOp r [] =
    { st := s, reset := some (leAt (gmcpBody r.msg) 0 1 == 1) } := by
  simp [State.gmcpOp, op, notRestricted]

end

/-- The length of the body of a request whose row fixes a byte of it. -/
theorem length_body_of_payloadOk (op : Nat) (h : op = 0x20 ∨ op = 0x28 ∨ op = 0x38) (b : List Byte) (ok : payloadOk op b = true) :
    b.length = 8 := by
  rcases h with rfl | rfl | rfl <;> simp only [payloadOk, Bool.and_eq_true, beq_iff_eq] at ok <;> omega

/-- The byte that the row fixes, of a request that is asked. -/
theorem State.Asked.fixed {s : State} {op : Nat} {x : Byte} {m : List Byte} (asked : s.Asked op [x] m) (h : op = 0x20 ∨ op = 0x28 ∨ op = 0x38) :
    leAt (gmcpBody (asOp op [x] m)) 0 1 = x.toNat := by
  obtain ⟨-, -, -, -, payload⟩ := asked
  exact leAt_body_asOp_cons op x m (length_body_of_payloadOk op h _ payload)

theorem exec_regRead_uart (s : State) (m : List Byte) : exec (.regRead 2 m false) s = .next (s.request 0x02 [] 2 m false none) := rfl

theorem exec_regWrite_uart (s : State) (m : List Byte) : exec (.regWrite 2 m false) s = .next (s.request 0x03 [] 2 m false none) := rfl

/-- Settles O43: a reading row is executed at once and answered with what its operation gives. -/
theorem gmcpReads : Obligations.GmcpReads := by
  unfold Obligations.GmcpReads
  intro m s
  refine ⟨?session, ?read, ?jobs, ?record, ?numeric, ?status, ?window, ?attest⟩
  case session =>
    intro asked
    have left := s.request_answered 0x01 [] m asked rfl (op_asOp_nil _ (by decide) m) (by decide) (by omega) _
      (s.gmcpOp_session _ (op_asOp_nil _ (by decide) m)) rfl
    exact congrArg Host.Outcome.next left
  case read =>
    dsimp only
    intro asked
    have op : (GmcpHdr.of (asOp 0x02 [] m)).op = 0x02 := op_asOp_nil _ (by decide) m
    have answer (x : GmcpRes) (h : s.opRegRead (gmcpBody (asOp 0x02 [] m)) = x) (noReset : x.reset = none) :=
      s.request_answered 0x02 [] m asked rfl op (by decide) (by omega) x ((s.gmcpOp_regRead (s.uartReq 0x02 [] m none) op).trans h) noReset
    refine ⟨fun bad => ?_, fun aligned one inside => ?_⟩
    · have left := answer _ (s.opRegRead_bad (gmcpBody (asOp 0x02 [] m)) bad) rfl
      exact congrArg Host.Outcome.next left
    · have left := answer _ (s.opRegRead_one (gmcpBody (asOp 0x02 [] m)) aligned one inside) rfl
      rw [exec_regRead_uart, left]
  case jobs =>
    intro asked
    have left := s.request_answered 0x14 [] m asked rfl (op_asOp_nil _ (by decide) m) (by decide) (by omega) _
      (s.gmcpOp_jobStatus _ (op_asOp_nil _ (by decide) m)) rfl
    refine (congrArg Host.Outcome.next left).trans (congrArg (fun b => Host.Outcome.next (s.uartAnswered (asOp 0x14 [] m) 0 b)) ?_)
    rfl
  case record =>
    intro asked
    have op : (GmcpHdr.of (asOp 0x20 [0] m)).op = 0x20 := op_asOp_cons _ (by decide) 0 m
    have row : leAt (gmcpBody (asOp 0x20 [0] m)) 0 1 = 0 := asked.fixed (by decide)
    have answer : s.opTelemetry (gmcpBody (asOp 0x20 [0] m)) = { st := s, payload := s.record } := if_pos row
    have left := s.request_answered 0x20 [0] m asked rfl op (by decide) (by omega) _
      ((s.gmcpOp_telemetry (s.uartReq 0x20 [0] m none) op).trans answer) rfl
    exact congrArg Host.Outcome.next left
  case numeric =>
    intro msg p asked
    have op : (GmcpHdr.of (asOp 0x20 [1] m)).op = 0x20 := op_asOp_cons _ (by decide) 1 m
    have numeric : leAt (gmcpBody (asOp 0x20 [1] m)) 0 1 = 1 := asked.fixed (by decide)
    have answer (x : GmcpRes) (h : s.opTelemetry (gmcpBody (asOp 0x20 [1] m)) = x) (noReset : x.reset = none) :=
      s.request_answered 0x20 [1] m asked rfl op (by decide) (by omega) x ((s.gmcpOp_telemetry (s.uartReq 0x20 [1] m none) op).trans h) noReset
    refine ⟨fun beyond => ?_, fun inside none_ => ?_, fun inside some_ => ?_⟩
    · have left := answer _ (s.opTelemetry_beyond _ numeric beyond) rfl
      exact congrArg Host.Outcome.next left
    · have left := answer _ (s.opTelemetry_empty _ numeric inside none_) rfl
      exact congrArg Host.Outcome.next left
    · have left := answer _ (s.opTelemetry_numbers _ numeric inside some_) rfl
      exact congrArg Host.Outcome.next left
  case status =>
    intro asked
    have op : (GmcpHdr.of (asOp 0x28 [0] m)).op = 0x28 := op_asOp_cons _ (by decide) 0 m
    have row : leAt (gmcpBody (asOp 0x28 [0] m)) 0 1 = 0 := asked.fixed (by decide)
    have answer : s.opGoose (gmcpBody (asOp 0x28 [0] m)) = { st := s, payload := s.goose.status s.time.ft } := by
      rw [State.opGoose, row]
      rfl
    have left := s.request_answered 0x28 [0] m asked rfl op (by decide) (by omega) _
      ((s.gmcpOp_goose (s.uartReq 0x28 [0] m none) op).trans answer) rfl
    exact congrArg Host.Outcome.next left
  case window =>
    intro msg n g asked
    have op : (GmcpHdr.of (asOp 0x28 [1] m)).op = 0x28 := op_asOp_cons _ (by decide) 1 m
    have row : leAt (gmcpBody (s.uartReq 0x28 [1] m none).msg) 0 1 = 1 := asked.fixed (by decide)
    have result := s.request_answered 0x28 [1] m asked rfl op (by decide) (by omega) _ (s.gmcpOp_goose _ op)
    rw [State.opGoose, row] at result
    exact congrArg Host.Outcome.next (result rfl)
  case attest =>
    intro msg r asked
    have left := s.request_answered 0x30 [] m asked rfl (op_asOp_nil _ (by decide) m) (by decide) (by omega) _
      (s.gmcpOp_attest _ (op_asOp_nil _ (by decide) m)) rfl
    exact congrArg Host.Outcome.next left

/-- Settles O44: a writing row is executed at once and answered; a reset follows the answer. -/
theorem gmcpWrites : Obligations.GmcpWrites := by
  unfold Obligations.GmcpWrites
  intro m op s
  refine ⟨?write, ?freeze, ?thaw, ?warm, ?cold, ?unknown⟩
  case write =>
    dsimp only
    intro asked whole
    have op : (GmcpHdr.of (asOp 0x03 [] m)).op = 0x03 := op_asOp_nil _ (by decide) m
    have answer (x : GmcpRes) (h : s.opRegWrite (gmcpBody (asOp 0x03 [] m)) = x) (noReset : x.reset = none) :=
      s.request_answered 0x03 [] m asked rfl op (by decide) (by omega) x ((s.gmcpOp_regWrite (s.uartReq 0x03 [] m none) op).trans h) noReset
    refine ⟨fun bad => ?_, fun aligned one inside => ?_⟩
    · have left := answer _ (s.opRegWrite_bad (gmcpBody (asOp 0x03 [] m)) bad) rfl
      exact congrArg Host.Outcome.next left
    · have left := answer _ (s.opRegWrite_one (gmcpBody (asOp 0x03 [] m)) whole aligned one inside) rfl
      rw [exec_regWrite_uart, left]
  case freeze =>
    intro g asked
    have op : (GmcpHdr.of (asOp 0x28 [2] m)).op = 0x28 := op_asOp_cons _ (by decide) 2 m
    have row : leAt (gmcpBody (s.uartReq 0x28 [2] m none).msg) 0 1 = 2 := asked.fixed (by decide)
    have result := s.request_answered 0x28 [2] m asked rfl op (by decide) (by omega) _ (s.gmcpOp_goose _ op)
    rw [State.opGoose, row] at result
    exact congrArg Host.Outcome.next (result rfl)
  case thaw =>
    intro g asked
    have op : (GmcpHdr.of (asOp 0x28 [3] m)).op = 0x28 := op_asOp_cons _ (by decide) 3 m
    have row : leAt (gmcpBody (s.uartReq 0x28 [3] m none).msg) 0 1 = 3 := asked.fixed (by decide)
    have result := s.request_answered 0x28 [3] m asked rfl op (by decide) (by omega) _ (s.gmcpOp_goose _ op)
    rw [State.opGoose, row] at result
    exact congrArg Host.Outcome.next (result rfl)
  case warm =>
    intro asked
    have op : (GmcpHdr.of (asOp 0x38 [0] m)).op = 0x38 := op_asOp_cons _ (by decide) 0 m
    have reset := s.gmcpOp_reset (s.uartReq 0x38 [0] m none) op
    have byte : leAt (gmcpBody (s.uartReq 0x38 [0] m none).msg) 0 1 = 0 := asked.fixed (by decide)
    rw [byte] at reset
    exact congrArg Host.Outcome.next ((s.request_asked 0x38 [0] m none asked rfl op (by decide) (by omega)).trans
      (s.execute_reset _ rfl _ reset false rfl))
  case cold =>
    intro asked
    have op : (GmcpHdr.of (asOp 0x38 [1] m)).op = 0x38 := op_asOp_cons _ (by decide) 1 m
    have reset := s.gmcpOp_reset (s.uartReq 0x38 [1] m none) op
    have byte : leAt (gmcpBody (s.uartReq 0x38 [1] m none).msg) 0 1 = 1 := asked.fixed (by decide)
    rw [byte] at reset
    exact congrArg Host.Outcome.next ((s.request_asked 0x38 [1] m none asked rfl op (by decide) (by omega)).trans
      (s.execute_reset _ rfl _ reset true rfl))
  case unknown =>
    dsimp only
    intro unknown ready up header
    have isOp : (GmcpHdr.of (asOp op.toNat [] m)).op = op.toNat := op_asOp_nil _ op.isLt m
    have refused : s.request op.toNat [] 2 m false none = s.refuse 2 (asOp op.toNat [] m) 0x02 := by
      simp only [State.request, State.gmcpIn, up, ready, Bool.true_or, if_true, Bool.false_eq_true, if_false, State.check, header, isOp,
        unknown, Bool.not_true, Bool.not_false, show (2 : Fin 3).val = 2 from rfl]
    exact (if_neg (Bool.eq_false_iff.mp unknown)).trans (congrArg Host.Outcome.next refused)

end Sys2Proof.Machine
end

section
/-! PROOFS. O46 GmcpTagsAndRdma. -/

namespace Sys2Proof.Machine

/-! ## A tagged request of a control port (R347, R348) -/

/-- The request of a row over a control port. -/
def State.portReq (s : State) (op : Nat) (port : Fin 3) (m : List Byte) : GmcpReq :=
  { port := port.val, msg := asOp op [] m, ft := s.now, image := none }

/-- A reply on an Ethernet port. -/
def State.portReplied (s : State) (port : Nat) (bytes : List Byte) : State :=
  { s with eth := { s.eth with replies := s.eth.replies ++ [⟨port, s.vlanTag, BitVec.ofNat 16 (s.fl.scAt 0x24 2), bytes⟩] } }

theorem State.sendReply_port (s : State) (port : Nat) (bytes : List Byte) (h : port < 2) :
    s.sendReply port bytes = s.portReplied port bytes := if_neg (by omega)

/-- A control port that takes requests. -/
structure State.PortOpen (s : State) (port : Fin 3) : Prop where
  ethernet : port.val < 2
  ready : s.rst.ready = true
  up : s.stewardDown = false
  running : s.stopped = false
  link : (s.eth.ports.getD port {}).linkUp = true
  role : (s.eth.ports.getD port {}).roleCtrl = true

/-- The tag of a message is the operator's. -/
def tagRight (msg k : List Byte) : Bool :=
  (GmcpHdr.of msg).auth && hmac256 k (msg.take (32 + (GmcpHdr.of msg).len)) == msg.drop (32 + (GmcpHdr.of msg).len)

section
variable {s : State} {port : Fin 3} (m : List Byte) (held : Bool) (open_ : s.PortOpen port)
  (header : headerOk (asOp 0x03 [] m) = true) (payload : payloadOk 0x03 (gmcpBody (asOp 0x03 [] m)) = true)
include open_ header payload

/-- A REG_WRITE over a control port comes to the check of its tag. -/
theorem State.request_regWrite_port : s.request 0x03 [] port m held none =
    match s.operatorKey with
    | none => s.refuse port.val (asOp 0x03 [] m) 0x03
    | some k => if tagRight (asOp 0x03 [] m) k then s.submit (s.portReq 0x03 port m) held
      else s.badTag.refuse port.val (asOp 0x03 [] m) 0x04 := by
  obtain ⟨ethernet, ready, up, running, link, role⟩ := open_
  have notUart : port.val ≠ 2 := by omega
  have isOp : (GmcpHdr.of (asOp 0x03 [] m)).op = 0x03 := op_asOp_nil _ (by decide) m
  have known : gmcpOps.contains 0x03 = true := rfl
  have tagged (b : List Byte) : needsTag 0x03 b = true := rfl
  have portUp : s.portUp port.val = true := by simp only [State.portUp, link, running, Bool.not_false, Bool.and_self]
  simp only [State.request, State.gmcpIn, up, notUart, ready, portUp, role, State.check, header, isOp, known, payload, tagged,
    Bool.false_eq_true, if_false, Bool.not_true, Bool.or_self, ne_eq, not_false_eq_true, Bool.true_or, and_self, if_true, tagRight]
  rfl

end

section
variable {s : State} {r : GmcpReq} {k : List Byte} (key : s.replyKey r = some k)
include key

theorem State.plainReply_key (port : r.port < 2) (st : Nat) :
    s.plainReply r st = s.portReplied r.port (replyBytes (GmcpHdr.of r.msg) st [] (some k)) := by
  rw [State.plainReply, key, State.sendReply_port _ _ _ port]

theorem State.verdict_session (other : (GmcpHdr.of r.msg).session ≠ s.eth.session.toNat) : s.verdict r = .refuse 0x05 := by
  simp [State.verdict, key, other]

theorem State.verdict_accept (session : (GmcpHdr.of r.msg).session = s.eth.session.toNat) (later : s.eth.lastSeq.toNat < (GmcpHdr.of r.msg).seq) :
    s.verdict r = .accept := by
  simp [State.verdict, key, session, later]

theorem State.verdict_again (session : (GmcpHdr.of r.msg).session = s.eth.session.toNat) (old : (GmcpHdr.of r.msg).seq ≤ s.eth.lastSeq.toNat)
    (c : BitVec 64 × List Byte) (kept : s.eth.cache.find? (fun c => c.1.toNat == (GmcpHdr.of r.msg).seq) = some c) :
    s.verdict r = .again c.2 := by
  simp only [State.verdict, key, session, Nat.not_lt.mpr old, kept, Option.isNone_some, Bool.false_eq_true, if_false, ne_eq, not_true]

theorem State.verdict_stale (session : (GmcpHdr.of r.msg).session = s.eth.session.toNat) (old : (GmcpHdr.of r.msg).seq ≤ s.eth.lastSeq.toNat)
    (gone : s.eth.cache.find? (fun c => c.1.toNat == (GmcpHdr.of r.msg).seq) = none) : s.verdict r = .refuse 0x06 := by
  simp only [State.verdict, key, session, Nat.not_lt.mpr old, gone, Option.isNone_some, Bool.false_eq_true, if_false, ne_eq, not_true]

theorem State.noteSeq_key : s.noteSeq r = s.modEth (fun e => { e with lastSeq := BitVec.ofNat 64 (GmcpHdr.of r.msg).seq }) :=
  if_neg (by simp [key])

end

theorem State.replyKey_port (s : State) (r : GmcpReq) (port : r.port < 2) (auth : (GmcpHdr.of r.msg).auth = true) :
    s.replyKey r = s.operatorKey := if_pos ⟨by omega, auth⟩

/-- A bad tag is counted, and recorded at most once a second. -/
theorem State.badTag_frame (s : State) : ∃ ft new goose, s.badTag =
    { s with eth := { s.eth with badTag := satInc s.eth.badTag, badTagNew := new, badTagFt := ft }, goose := goose } := by
  unfold State.badTag
  dsimp only
  split <;> split <;> exact ⟨_, _, _, rfl⟩

theorem State.submit_refuse (s : State) (r : GmcpReq) (held : Bool) (st : Nat) (verdict : s.verdict r = .refuse st)
    (notStale : st ≠ 0x06 := by decide) : s.submit r held = s.plainReply r st := by
  simp only [State.submit, verdict, notStale, if_false]

theorem State.submit_stale (s : State) (r : GmcpReq) (held : Bool) (verdict : s.verdict r = .refuse 0x06) :
    s.submit r held = (s.modEth (fun e => { e with staleSeq := satInc e.staleSeq })).plainReply r 0x06 := by
  simp only [State.submit, verdict, if_true]

theorem State.submit_again (s : State) (r : GmcpReq) (held : Bool) (bytes : List Byte) (verdict : s.verdict r = .again bytes) :
    s.submit r held = (s.modEth (fun e => { e with replayed := satInc e.replayed })).sendReply r.port bytes := by
  simp only [State.submit, verdict]

section
variable (s : State) (r : GmcpReq) (verdict : s.verdict r = .accept) (noAbort : ((GmcpHdr.of r.msg).op == 0x12) = false)
include verdict noAbort

theorem State.submit_busy (full : s.queueFull r.port = true) :
    s.submit r true = (s.modEth (fun e => { e with busy := satInc e.busy })).plainReply r 0x07 := by
  simp only [State.submit, verdict, noAbort, full, Bool.not_false, Bool.true_or, Bool.and_self, if_true]

theorem State.submit_queued (room : s.queueFull r.port = false) :
    s.submit r true = (s.noteSeq r).modEth (fun e => { e with queue := e.queue ++ [r] }) := by
  simp only [State.submit, verdict, noAbort, room, Bool.and_false, Bool.false_eq_true, if_false, Bool.true_or, if_true]

theorem State.submit_now (runs : s.cmdWaits r = false) (noted : (s.noteSeq r).eth.queue = []) :
    s.submit r false = (s.noteSeq r).execute r [] := by
  simp only [State.submit, verdict, noAbort, runs, State.drainCmds_empty _ 48 noted, noted, List.isEmpty_nil, if_true, Bool.or_false,
    Bool.and_false, Bool.not_false, Bool.false_and, Bool.false_eq_true, if_false]

end

/-- The reply of a tagged request is sent, counted and kept. -/
theorem State.execute_tagged {s : State} {r : GmcpReq} {k : List Byte} (port : r.port < 2) (key : s.replyKey r = some k) (status : Nat)
    (result : s.gmcpOp r [] = { st := s, status := status }) :
    s.execute r [] = State.portReplied
      { s with eth := { s.eth with cmds := satInc s.eth.cmds
                                   cache := ((BitVec.ofNat 64 (GmcpHdr.of r.msg).seq, replyBytes (GmcpHdr.of r.msg) status [] (some k)) ::
                                     s.eth.cache).take 16 } }
      r.port (replyBytes (GmcpHdr.of r.msg) status [] (some k)) := by
  rw [State.execute, result]
  simp only [State.answered, key, Option.isSome_some, if_true, State.sendReply_port _ _ _ port, State.modEth]

theorem State.cmdWaits_running (s : State) (r : GmcpReq) (running : s.stopped = false) : s.cmdWaits r = false := by
  simp [State.cmdWaits, running]

/-! ## Queue pairs and windows (R357, R358) -/

section
variable (s : State) (r : GmcpReq) (whole : s.rst.restricted = 0)
include whole

theorem State.restrictedHere_none : s.restrictedHere = false := by simp [State.restrictedHere, whole]

theorem State.gmcpOp_qpOpen (op : (GmcpHdr.of r.msg).op = 0x18) : s.gmcpOp r [] = s.opQpOpen (gmcpBody r.msg) := by
  simp [State.gmcpOp, op, s.restrictedHere_none whole]

theorem State.gmcpOp_qpClose (op : (GmcpHdr.of r.msg).op = 0x19) : s.gmcpOp r [] = s.opQpClose (gmcpBody r.msg) := by
  simp [State.gmcpOp, op, s.restrictedHere_none whole]

theorem State.gmcpOp_rdmaReg (op : (GmcpHdr.of r.msg).op = 0x1A) : s.gmcpOp r [] = s.opRdmaReg (gmcpBody r.msg) := by
  simp [State.gmcpOp, op, s.restrictedHere_none whole]

theorem State.gmcpOp_rdmaDereg (op : (GmcpHdr.of r.msg).op = 0x1B) : s.gmcpOp r [] = s.opRdmaDereg (gmcpBody r.msg) := by
  simp [State.gmcpOp, op, s.restrictedHere_none whole]

end

/-- The partition of a request on queue pairs or windows exists and has a job, or it is the load area. -/
def State.serves (s : State) (part : Nat) : Prop := part = 0xFF ∨ (part < 8 ∧ (s.part part).state ≠ .empty)

section
variable (s : State) (b : List Byte)

theorem State.opQpOpen_beyond (beyond : 8 ≤ leAt b 1 1) (job : leAt b 1 1 ≠ 0xFF) : s.opQpOpen b = { st := s, status := 0x10 } :=
  if_pos ⟨job, beyond⟩

theorem State.opQpOpen_empty (inside : leAt b 1 1 < 8) (none_ : (s.part (leAt b 1 1)).state = .empty) :
    s.opQpOpen b = { st := s, status := 0x11 } :=
  (if_neg (by omega)).trans (if_pos ⟨by omega, none_⟩)

theorem State.opQpOpen_served (known : s.serves (leAt b 1 1)) : s.opQpOpen b =
    if !(s.eth.ports.getD (leAt b 0 1) {}).roleBulk || decide (256 ≤ (s.eth.qps.filter (fun q => q.port == leAt b 0 1)).length) then
      { st := s, status := 0x18 }
    else
      let q : Qp := { qpn := s.eth.nextQpn, port := leAt b 0 1, part := leAt b 1 1, remote := BitVec.ofNat 32 (leAt b 4 4),
                      psn := BitVec.ofNat 24 (leAt b 8 4), gid := BitVec.ofNat 128 (leAt b 16 16) }
      { st := s.modEth (fun e => { e with qps := e.qps ++ [q], nextQpn := s.eth.nextQpn + 1 }), payload := leBytes 4 s.eth.nextQpn } := by
  have inside : ¬ (leAt b 1 1 ≠ 0xFF ∧ 8 ≤ leAt b 1 1) := by rcases known with h | h <;> omega
  have job : ¬ (leAt b 1 1 ≠ 0xFF ∧ (s.part (leAt b 1 1)).state = .empty) := by rcases known with h | h <;> tauto
  simp only [State.opQpOpen, inside, job, if_false]

theorem State.opRdmaReg_beyond (beyond : 8 ≤ leAt b 0 1) (job : leAt b 0 1 ≠ 0xFF) : s.opRdmaReg b = { st := s, status := 0x10 } :=
  if_pos ⟨job, beyond⟩

theorem State.opRdmaReg_empty (inside : leAt b 0 1 < 8) (none_ : (s.part (leAt b 0 1)).state = .empty) :
    s.opRdmaReg b = { st := s, status := 0x11 } :=
  (if_neg (by omega)).trans (if_pos ⟨by omega, none_⟩)

section
variable (inside : leAt b 0 1 < 8) (job : (s.part (leAt b 0 1)).state ≠ .empty)
include inside job

theorem State.opRdmaReg_full (full : 64 ≤ s.eth.windows.length) : s.opRdmaReg b = { st := s, status := 0x18 } :=
  (if_neg (by omega)).trans ((if_neg (fun h => job h.2)).trans (if_pos full))

theorem State.opRdmaReg_refused (room : s.eth.windows.length < 64) (bad : s.windowOk (leAt b 0 1) (leAt b 1 1) (leAt b 8 8) (leAt b 16 8) = false) :
    s.opRdmaReg b = { st := s, status := 0x19 } :=
  (if_neg (by omega)).trans ((if_neg (fun h => job h.2)).trans ((if_neg (by omega)).trans (if_pos (by simp [bad]))))

theorem State.opRdmaReg_window (room : s.eth.windows.length < 64)
    (good : s.windowOk (leAt b 0 1) (leAt b 1 1) (leAt b 8 8) (leAt b 16 8) = true) (plain : leAt b 1 1 < 4) : s.opRdmaReg b =
    { st := s.modEth (fun e => { e with windows := e.windows ++ [(⟨BitVec.ofNat 32 s.eth.nextKey, BitVec.ofNat 8 (leAt b 0 1), leAt b 1 1 % 2 == 1,
        leAt b 1 1 / 2 == 1, false, leAt b 8 8, leAt b 16 8, leAt b 4 4, leAt b 24 4, 0, 0, []⟩ : Window)], nextKey := s.eth.nextKey + 1 }),
      payload := leBytes 4 s.eth.nextKey ++ leBytes 2 0 } := by
  have bits (n : Nat) (hn : n < 4) : n.testBit 0 = (n % 2 == 1) ∧ n.testBit 1 = (n / 2 == 1) ∧ n.testBit 2 = false := by
    interval_cases n <;> decide
  obtain ⟨bit0, bit1, bit2⟩ := bits _ plain
  have known : ¬ (leAt b 0 1 ≠ 0xFF ∧ 8 ≤ leAt b 0 1) := by omega
  have busy : ¬ (leAt b 0 1 ≠ 0xFF ∧ (s.part (leAt b 0 1)).state = .empty) := fun h => job h.2
  simp only [State.opRdmaReg, known, busy, if_false, Nat.not_le.mpr room, good, bit0, bit1, bit2, Bool.not_true, Bool.false_and,
    Bool.or_self, Bool.false_eq_true]

end

/-- Where no window of a job may lie. -/
theorem State.windowOk_iff (part acc base len : Nat) (job : part < 8) : s.windowOk part acc base len = true ↔
    base % 4096 = 0 ∧ len % 4096 = 0 ∧ len ≠ 0 ∧ s.hbmOk part base len = true := by
  have notLoad : part ≠ 0xFF := by omega
  simp [State.windowOk, notLoad, and_assoc]

end

/-- Settles O46: the tag, then the session and SEQ, decide what becomes of a tagged request; the operations on queue pairs and windows
are executed at once over the UART. -/
theorem gmcpTagsAndRdma : Obligations.GmcpTagsAndRdma := by
  unfold Obligations.GmcpTagsAndRdma
  refine ⟨?tags, ?rdma⟩
  case tags =>
    intro port m held s msg h p udp reply ethernet ready up running link role header payload
    have open_ : s.PortOpen port := ⟨ethernet, ready, up, running, link, role⟩
    have asked (held : Bool) := s.request_regWrite_port m held open_ header payload
    refine ⟨fun noKey => ?_, fun k key wrong => ?_, fun k key auth right => ?_⟩
    · have left := asked false
      rw [noKey] at left
      exact congrArg Host.Outcome.next (left.trans (s.sendReply_port _ _ ethernet))
    · have bad : tagRight (asOp 0x03 [] m) k = false := by
        rcases wrong with h | h
        · exact Bool.and_eq_false_iff.mpr (.inl h)
        · exact Bool.and_eq_false_iff.mpr (.inr (beq_eq_false_iff_ne.mpr h))
      have left := asked false
      rw [key] at left
      dsimp only at left
      rw [if_neg (Bool.eq_false_iff.mp bad)] at left
      obtain ⟨ft, new, goose, counted⟩ := s.badTag_frame
      rw [State.refuse, State.sendReply_port _ _ _ ethernet, counted] at left
      exact ⟨_, congrArg Host.Outcome.next left, rfl, rfl, rfl, rfl, rfl, rfl⟩
    · have good : tagRight (asOp 0x03 [] m) k = true := Bool.and_eq_true_iff.mpr ⟨auth, beq_iff_eq.mpr right⟩
      have submitted (held : Bool) : s.request 0x03 [] port m held none = s.submit (s.portReq 0x03 port m) held := by
        rw [asked held, key]
        exact if_pos good
      have hasKey : s.replyKey (s.portReq 0x03 port m) = some k := (s.replyKey_port (s.portReq 0x03 port m) ethernet auth).trans key
      have replied (st : Nat) : s.plainReply (s.portReq 0x03 port m) st = reply s st (some k) :=
        State.plainReply_key (r := s.portReq 0x03 port m) hasKey ethernet st
      have isOp : (GmcpHdr.of (asOp 0x03 [] m)).op = 0x03 := op_asOp_nil _ (by decide) m
      have noAbort : ((GmcpHdr.of (s.portReq 0x03 port m).msg).op == 0x12) = false :=
        beq_eq_false_iff_ne.mpr (fun e => absurd (isOp.symm.trans e) (by decide))
      have accept := State.verdict_accept (r := s.portReq 0x03 port m) hasKey
      have noted := State.noteSeq_key (r := s.portReq 0x03 port m) hasKey
      refine ⟨fun other => ?_, fun session old => ⟨fun c kept => ?_, fun gone => ?_⟩, fun session later => ⟨fun full => ?_, fun room => ?_,
        fun queue whole odd => ?_⟩⟩
      · have refused := s.submit_refuse (s.portReq 0x03 port m) held 0x05 (State.verdict_session (r := s.portReq 0x03 port m) hasKey other)
        exact congrArg Host.Outcome.next ((submitted held).trans (refused.trans (replied 0x05)))
      · have again := s.submit_again (s.portReq 0x03 port m) held c.2 (State.verdict_again (r := s.portReq 0x03 port m) hasKey session old c kept)
        exact congrArg Host.Outcome.next ((submitted held).trans (again.trans (State.sendReply_port _ _ _ ethernet)))
      · have refused := s.submit_stale (s.portReq 0x03 port m) held (State.verdict_stale (r := s.portReq 0x03 port m) hasKey session old gone)
        exact congrArg Host.Outcome.next ((submitted held).trans (refused.trans (State.plainReply_key (r := s.portReq 0x03 port m) (by exact hasKey) ethernet 0x06)))
      · have busy := s.submit_busy (s.portReq 0x03 port m) (accept session later) noAbort (decide_eq_true full)
        exact congrArg Host.Outcome.next ((submitted true).trans
          (busy.trans (State.plainReply_key (r := s.portReq 0x03 port m) (by exact hasKey) ethernet 0x07)))
      · have queued := s.submit_queued (s.portReq 0x03 port m) (accept session later) noAbort (decide_eq_false (Nat.not_le.mpr room))
        rw [State.noteSeq_key (r := s.portReq 0x03 port m) hasKey] at queued
        exact congrArg Host.Outcome.next ((submitted true).trans queued)
      · have run := s.submit_now (s.portReq 0x03 port m) (accept session later) noAbort (s.cmdWaits_running _ running)
          (by rw [noted]; exact queue)
        rw [noted] at run
        have result := (State.gmcpOp_regWrite (s.modEth (fun e => { e with lastSeq := BitVec.ofNat 64 h.seq })) (s.portReq 0x03 port m) isOp).trans
          (State.opRegWrite_bad _ (gmcpBody (asOp 0x03 [] m)) odd)
        have answered := State.execute_tagged (r := s.portReq 0x03 port m) ethernet (by exact hasKey) 0x0A result
        exact congrArg Host.Outcome.next ((submitted false).trans (run.trans answered))
  case rdma =>
    intro m s whole running
    refine ⟨?qpOpen, ?qpClose, ?rdmaReg, ?rdmaDereg⟩
    case qpOpen =>
      dsimp only
      intro asked
      have op : (GmcpHdr.of (asOp 0x18 [] m)).op = 0x18 := op_asOp_nil _ (by decide) m
      have answer (x : GmcpRes) (h : s.opQpOpen (gmcpBody (asOp 0x18 [] m)) = x) (noReset : x.reset = none) :=
        s.request_answered 0x18 [] m asked rfl op (by decide) (.inl running) x ((s.gmcpOp_qpOpen (s.uartReq 0x18 [] m none) whole op).trans h) noReset
      refine ⟨fun beyond job => ?_, fun inside none_ => ?_, fun known full => ?_, fun known bulk room => ?_⟩
      · have left := answer _ (s.opQpOpen_beyond _ beyond job) rfl
        exact congrArg Host.Outcome.next left
      · have left := answer _ (s.opQpOpen_empty _ inside none_) rfl
        exact congrArg Host.Outcome.next left
      · have refused := (s.opQpOpen_served (gmcpBody (asOp 0x18 [] m)) known).trans (if_pos (Bool.or_eq_true_iff.mpr
          (full.imp (fun off => by rw [off]; rfl) (fun many => decide_eq_true many))))
        have left := answer _ refused rfl
        exact congrArg Host.Outcome.next left
      · have opened := (s.opQpOpen_served (gmcpBody (asOp 0x18 [] m)) known).trans (if_neg (fun h =>
          (Bool.or_eq_true_iff.mp h).elim (fun off => by rw [bulk] at off; exact Bool.noConfusion off)
            (fun many => Nat.not_le.mpr room (of_decide_eq_true many))))
        have left := answer _ opened rfl
        exact congrArg Host.Outcome.next left
    case qpClose =>
      dsimp only
      intro asked
      have op : (GmcpHdr.of (asOp 0x19 [] m)).op = 0x19 := op_asOp_nil _ (by decide) m
      have answer (x : GmcpRes) (h : s.opQpClose (gmcpBody (asOp 0x19 [] m)) = x) (noReset : x.reset = none) :=
        s.request_answered 0x19 [] m asked rfl op (by decide) (.inl running) x ((s.gmcpOp_qpClose (s.uartReq 0x19 [] m none) whole op).trans h) noReset
      refine ⟨fun none_ => ?_, fun some_ => ?_⟩
      · have left := answer _ (if_neg (by simpa using none_)) rfl
        exact congrArg Host.Outcome.next left
      · have left := answer _ (if_pos (by simpa using some_)) rfl
        exact congrArg Host.Outcome.next left
    case rdmaReg =>
      dsimp only
      intro asked
      have op : (GmcpHdr.of (asOp 0x1A [] m)).op = 0x1A := op_asOp_nil _ (by decide) m
      have answer (x : GmcpRes) (h : s.opRdmaReg (gmcpBody (asOp 0x1A [] m)) = x) (noReset : x.reset = none) :=
        s.request_answered 0x1A [] m asked rfl op (by decide) (.inl running) x ((s.gmcpOp_rdmaReg (s.uartReq 0x1A [] m none) whole op).trans h) noReset
      refine ⟨fun beyond job => ?_, fun inside none_ => ?_, fun inside job => ⟨fun full => ?_, fun room bad => ?_, fun room base len some_ own plain => ?_⟩⟩
      · have left := answer _ (s.opRdmaReg_beyond _ beyond job) rfl
        exact congrArg Host.Outcome.next left
      · have left := answer _ (s.opRdmaReg_empty _ inside none_) rfl
        exact congrArg Host.Outcome.next left
      · have left := answer _ (s.opRdmaReg_full _ inside job full) rfl
        exact congrArg Host.Outcome.next left
      · have nowhere : s.windowOk (leAt (gmcpBody (asOp 0x1A [] m)) 0 1) (leAt (gmcpBody (asOp 0x1A [] m)) 1 1)
            (leAt (gmcpBody (asOp 0x1A [] m)) 8 8) (leAt (gmcpBody (asOp 0x1A [] m)) 16 8) = false := by
          rw [Bool.eq_false_iff, Ne, s.windowOk_iff _ _ _ _ inside]
          rintro ⟨base, len, some_, own⟩
          rcases bad with h | h | h | h
          · exact h base
          · exact h len
          · exact some_ h
          · exact Bool.eq_false_iff.mp h own
        have left := answer _ (s.opRdmaReg_refused _ inside job room nowhere) rfl
        exact congrArg Host.Outcome.next left
      · have left := answer _ (s.opRdmaReg_window _ inside job room ((s.windowOk_iff _ _ _ _ inside).mpr ⟨base, len, some_, own⟩) plain) rfl
        exact congrArg Host.Outcome.next left
    case rdmaDereg =>
      dsimp only
      intro asked
      have op : (GmcpHdr.of (asOp 0x1B [] m)).op = 0x1B := op_asOp_nil _ (by decide) m
      have answer (x : GmcpRes) (h : s.opRdmaDereg (gmcpBody (asOp 0x1B [] m)) = x) (noReset : x.reset = none) :=
        s.request_answered 0x1B [] m asked rfl op (by decide) (.inl running) x ((s.gmcpOp_rdmaDereg (s.uartReq 0x1B [] m none) whole op).trans h) noReset
      refine ⟨fun none_ => ?_, fun some_ => ?_⟩
      · have left := answer _ (if_neg (by simpa using none_)) rfl
        exact congrArg Host.Outcome.next left
      · have left := answer _ (if_pos (by simpa using some_)) rfl
        exact congrArg Host.Outcome.next left

end Sys2Proof.Machine
end

section
/-! PROOFS. O42 WallClock. -/

namespace Sys2Proof.Machine

/-- A state with another IEEE 1588 clock. -/
def State.withPtp (s : State) (c : PtpClock) : State := { s with eth := { s.eth with ptp := c } }

theorem State.modPtp_eq (s : State) (f : PtpClock → PtpClock) : s.modPtp f = s.withPtp (f s.eth.ptp) := rfl

/-- The master in force is the best one. -/
def State.ptpSettled (s : State) : Prop := (s.eth.ptp.best s.time.ft).map (fun m => m.sender) = s.eth.ptp.master

theorem State.ptpElect_settled (s : State) (h : s.ptpSettled) : s.ptpElect = s := by
  have same : s.eth.ptp.elect s.now = s.eth.ptp := if_pos h
  rw [State.ptpElect, State.modPtp_eq, same]
  rfl

theorem State.portUp_iff (s : State) (p : Nat) : s.portUp p = true ↔ (s.eth.ports.getD p {}).linkUp = true ∧ s.stopped = false := by
  simp [State.portUp]

/-- Nothing is heard over a link that is down or in another domain. -/
theorem State.ptpHears_deaf (s : State) (snd : BitVec 80) (dom : BitVec 7)
    (deaf : ¬ (((s.eth.ports.getD 0 {}).linkUp = true ∧ s.stopped = false) ∧ dom = s.eth.ptp.domain)) : s.ptpHears snd dom = false := by
  rw [← s.portUp_iff] at deaf
  simp only [State.ptpHears, Bool.and_eq_false_iff, beq_eq_false_iff_ne]
  rcases not_and_or.mp deaf with h | h
  · exact .inl (.inl (Bool.eq_false_iff.mpr h))
  · exact .inl (.inr h)

theorem State.ptpHears_master (s : State) (snd : BitVec 80) (dom : BitVec 7)
    (up : (s.eth.ports.getD 0 {}).linkUp = true ∧ s.stopped = false) (domain : dom = s.eth.ptp.domain)
    (master : s.eth.ptp.master = some snd.toNat) : s.ptpHears snd dom = true := by
  simp only [State.ptpHears, (s.portUp_iff 0).mpr up, domain, master, beq_self_eq_true, Bool.and_self]

/-! ## Messages of the master in force -/

section
variable (s : State) (dom : BitVec 7) (snd : BitVec 80) (seq : BitVec 16) (settled : s.ptpSettled)
include settled

theorem exec_ptpSync_deaf (rx : BitVec 64) (origin : Option (BitVec 80)) (corr : BitVec 64) (deaf : s.ptpHears snd dom = false) :
    exec (.ptpSync dom snd seq rx origin corr) s = .next s := by
  change (if s.ptpElect.ptpHears snd dom = true then _ else _) = _
  rw [s.ptpElect_settled settled, if_neg (Bool.eq_false_iff.mp deaf)]

theorem exec_ptpSync_heard (rx : BitVec 64) (origin : Option (BitVec 80)) (corr : BitVec 64) (heard : s.ptpHears snd dom = true) :
    exec (.ptpSync dom snd seq rx origin corr) s = match origin with
      | some t => .next (s.modPtp (fun c => { c with sync := none, msDiff := some (stampNs t + corrNs corr - rx.toNat) }))
      | none => .next (s.modPtp (fun c => { c with sync := some (seq, rx, corr) })) := by
  change execPtpSync dom snd seq rx origin corr s = _
  unfold execPtpSync
  dsimp only
  rw [s.ptpElect_settled settled, if_pos heard] <;> rfl

theorem exec_ptpFollowUp_eq (org : BitVec 80) (corr : BitVec 64) : exec (.ptpFollowUp dom snd seq org corr) s =
    match s.eth.ptp.sync with
    | some (q, rx, c0) => if s.ptpHears snd dom && q == seq then
        .next (s.modPtp (fun c => { c with sync := none, msDiff := some (stampNs org + corrNs (corr + c0) - rx.toNat) })) else .next s
    | none => .next s := by
  change execPtpFollowUp dom snd seq org corr s = _
  rw [execPtpFollowUp, s.ptpElect_settled settled] <;> rfl

theorem exec_ptpDelayResp_eq (rx : BitVec 80) (corr : BitVec 64) (li : BitVec 8) : exec (.ptpDelayResp dom snd seq rx corr li) s =
    match s.eth.ptp.req with
    | some (q, tx) =>
      if s.ptpHears snd dom && q == seq then
        let ns : Nat := if li.toInt < 0 then 1000000000 / 2 ^ li.toInt.natAbs else 1000000000
        let s := s.modPtp (fun c => { c with interval := ns })
        match s.eth.ptp.msDiff with
        | some d => .next (s.todSample ((d + (stampNs rx - corrNs corr - tx.toNat)) / 2))
        | none => .next (s.modPtp (fun c => { c with masterOk := true, req := none }))
      else .next s
    | none => .next s := by
  change execPtpDelayResp dom snd seq rx corr li s = _
  rw [execPtpDelayResp, s.ptpElect_settled settled] <;> rfl

theorem exec_delayReqTimer_eq : exec .delayReqTimer s =
    if s.portUp 0 && s.eth.ptp.master.isSome then
      .next (s.modPtp (fun c => { c with masterOk := c.masterOk && c.req.isNone, req := some (c.reqSeq, s.now), reqSeq := c.reqSeq + 1 }))
    else .next s := by
  change execDelayReqTimer s = _
  rw [execDelayReqTimer, s.ptpElect_settled settled]

end

/-! ## A sample of the time of day (R329) -/

section
variable (s : State) (x : Int)

theorem State.todSample_samples : (s.todSample x).time.todSamples = (x :: s.time.todSamples).take 16 := by
  simp only [State.todSample, State.modPtp_eq, State.modTime_time]
  split <;> rfl

theorem State.todSample_ft : (s.todSample x).time.ft = s.time.ft := by
  simp only [State.todSample, State.modPtp_eq, State.modTime_time]
  split <;> rfl

theorem State.todSample_source (source : s.time.roleSource = true) {mean : Int} (h : meanOf ((x :: s.time.todSamples).take 16) = mean) :
    (s.todSample x).time.todOffset = BitVec.ofInt 64 mean ∧ (s.todSample x).time.todValid = true := by
  subst h
  have on : (s.withPtp { s.eth.ptp with masterOk := true, lastOffset := satInt 32 (s.time.todOffset.toInt - x), req := none }).time.roleSource =
    true := source
  simp only [State.todSample, State.modPtp_eq, State.modTime_time, on, if_true]
  exact ⟨rfl, trivial⟩

theorem State.todSample_follower (follower : s.time.roleSource = false) :
    (s.todSample x).time.todOffset = s.time.todOffset ∧ (s.todSample x).time.todValid = s.time.todValid := by
  have off : (s.withPtp { s.eth.ptp with masterOk := true, lastOffset := satInt 32 (s.time.todOffset.toInt - x), req := none }).time.roleSource =
    false := follower
  simp only [State.todSample, State.modPtp_eq, State.modTime_time, off, Bool.false_eq_true, if_false]
  exact ⟨rfl, rfl⟩

end

/-! ## Announces (R359) -/

theorem PtpClock.elect_masters (c : PtpClock) (now : BitVec 64) : (c.elect now).masters = c.masters := by
  unfold PtpClock.elect
  dsimp only
  split <;> rfl

theorem PtpClock.elect_master (c : PtpClock) (now : BitVec 64) : (c.elect now).master = (c.best now).map (fun m => m.sender) := by
  unfold PtpClock.elect
  dsimp only
  split
  · next h => exact h.symm
  · rfl

/-- What an Announce leaves of the masters' list: the sender's latest Announce, with those that still count. -/
theorem PtpClock.announce_masters (c : PtpClock) (now : BitVec 64) (m : PtpMaster) : (c.announce now m).masters =
    c.masters.filter (fun f => f.m.sender != m.sender) ++
      [⟨m, now :: ((((c.masters.find? (fun f => f.m.sender == m.sender)).map (fun f => f.heard)).getD []).filter
        (fun t => decide ((now - t).toNat ≤ 4 * m.interval)))⟩] := PtpClock.elect_masters _ _

theorem PtpClock.announce_master (c : PtpClock) (now : BitVec 64) (m : PtpMaster) : (c.announce now m).master =
    (PtpClock.best { c with masters := (c.announce now m).masters } now).map (fun m => m.sender) := by
  rw [PtpClock.announce_masters]
  exact PtpClock.elect_master _ _

theorem PtpClock.best_single (c : PtpClock) (now : BitVec 64) (f : ForeignMaster) (only : c.masters = [f]) :
    c.best now = if f.qualified now then some f.m else none := by
  rw [PtpClock.best, only, List.filter_cons]
  split <;> rfl

theorem PtpClock.announce_master_single (c : PtpClock) (now : BitVec 64) (m : PtpMaster) (f : ForeignMaster)
    (only : (c.announce now m).masters = [f]) : (c.announce now m).master = if f.qualified now then some f.m.sender else none := by
  rw [PtpClock.announce_master, PtpClock.best_single _ now f (by exact only)]
  split <;> rfl

theorem ForeignMaster.qualified_first (m : PtpMaster) (now : BitVec 64) : (ForeignMaster.mk m [now]).qualified now = false := by
  have one : ([now].filter (fun t => decide ((now - t).toNat ≤ 4 * m.interval))).length < 2 :=
    Nat.lt_succ_of_le (List.length_filter_le _ _)
  simp only [ForeignMaster.qualified, Nat.not_le.mpr one, decide_false, Bool.and_false, Bool.false_and]

theorem ForeignMaster.qualified_second (m : PtpMaster) (now t0 : BitVec 64) (recent : (now - t0).toNat ≤ 4 * m.interval) (near : m.steps < 255) :
    (ForeignMaster.mk m [now, t0]).qualified now = true := by
  have zero (n : Nat) : (now - now).toNat ≤ n := by rw [BitVec.sub_self]; exact Nat.zero_le _
  simp only [ForeignMaster.qualified, near, List.filter_cons, zero, recent, decide_true, if_true, List.filter_nil, List.length_cons,
    List.length_nil, List.any_cons, Bool.true_or, Bool.and_self, Nat.le_refl, Nat.reduceAdd]

/-- Settles O42, a message at a time. -/
theorem wallClock : Obligations.WallClock := by
  unfold Obligations.WallClock
  intro dom m snd seq rx org corr li s c up now ptp ns settled hears
  refine ⟨fun still deaf => ?deaf, fun link domain => ?announce, fun ⟨link, domain, still, master⟩ => ⟨?sync, ?twoStep, fun r0 c0 first => ?followUp,
    fun q r0 c0 first other => ?otherFollowUp, fun tx d asked first => ?delayResp, ?delayReq⟩, fun still none_ => ?noMaster, fun b link best new => ?newMaster⟩
  case deaf =>
    have deafTo := s.ptpHears_deaf snd dom deaf
    have closed : ¬ (s.portUp 0 && dom == s.eth.ptp.domain) = true := fun h => by
      obtain ⟨link, domain⟩ := Bool.and_eq_true_iff.mp h
      exact deaf ⟨(s.portUp_iff 0).mp link, eq_of_beq domain⟩
    refine ⟨if_neg closed, exec_ptpSync_deaf s dom snd seq still rx (some org) corr deafTo, ?_, ?_⟩
    · rw [exec_ptpFollowUp_eq s dom snd seq still]
      split
      · rw [deafTo]
        rfl
      · rfl
    · rw [exec_ptpDelayResp_eq s dom snd seq still]
      split
      · rw [deafTo]
        rfl
      · rfl
  case announce =>
    have open_ : (s.portUp 0 && dom == s.eth.ptp.domain) = true := by
      rw [(s.portUp_iff 0).mpr link, domain, beq_self_eq_true, Bool.and_self]
    refine ⟨s.withPtp (c.announce now m), if_pos open_, ?_, fun x mem same => ?_, fun none_ noMaster => ?_, fun t0 once recent near => ?_, rfl⟩
    · change ∃ x ∈ (c.announce now m).masters, _
      rw [PtpClock.announce_masters]
      exact ⟨_, List.mem_append_right _ (List.mem_singleton_self _), rfl, rfl⟩
    · change x ∈ (c.announce now m).masters at mem
      rw [PtpClock.announce_masters, List.mem_append, List.mem_singleton] at mem
      rcases mem with mem | rfl
      · exact absurd same (by simpa using (List.mem_filter.mp mem).2)
      · rfl
    · change (c.announce now m).master = none
      have masters : (c.announce now m).masters = [⟨m, [now]⟩] := by rw [PtpClock.announce_masters, none_]; rfl
      rw [PtpClock.announce_master_single c now m _ masters, ForeignMaster.qualified_first]
      rfl
    · change (c.announce now m).master = some m.sender
      have masters : (c.announce now m).masters = [⟨m, [now, t0]⟩] := by
        rw [PtpClock.announce_masters, once]
        simp only [List.filter_cons, List.filter_nil, bne_self_eq_false, List.find?_cons, beq_self_eq_true, Option.map_some, Option.getD_some,
          recent, decide_true, if_true, Bool.false_eq_true, if_false, List.nil_append]
      rw [PtpClock.announce_master_single c now m _ masters, ForeignMaster.qualified_second m now t0 recent near]
      rfl
  case sync =>
    exact exec_ptpSync_heard s dom snd seq still rx (some org) corr (s.ptpHears_master snd dom link domain master)
  case twoStep =>
    exact exec_ptpSync_heard s dom snd seq still rx none corr (s.ptpHears_master snd dom link domain master)
  case followUp =>
    have first' : s.eth.ptp.sync = some (seq, r0, c0) := first
    rw [exec_ptpFollowUp_eq s dom snd seq still, first']
    dsimp only
    rw [s.ptpHears_master snd dom link domain master, beq_self_eq_true]
    rfl
  case otherFollowUp =>
    have first' : s.eth.ptp.sync = some (q, r0, c0) := first
    rw [exec_ptpFollowUp_eq s dom snd seq still, first']
    dsimp only
    rw [beq_eq_false_iff_ne.mpr other, Bool.and_false]
    rfl
  case delayResp =>
    have asked' : s.eth.ptp.req = some (seq, tx) := asked
    have first' : s.eth.ptp.msDiff = some d := first
    intro x l
    have mean : meanOf l = (l.foldl (· + ·) 0).tdiv l.length := if_neg (by simp [l])
    refine ⟨(s.modPtp (fun c => { c with
      interval := if li.toInt < 0 then 1000000000 / 2 ^ li.toInt.natAbs else 1000000000 })).todSample x, ?_, rfl, rfl, rfl, ?_, ?_,
      fun source => ?_, fun follower => ?_, rfl, rfl, rfl⟩
    · rw [exec_ptpDelayResp_eq s dom snd seq still, asked']
      dsimp only
      rw [s.ptpHears_master snd dom link domain master, beq_self_eq_true, State.modPtp_eq]
      simp only [Bool.and_self, if_true, State.withPtp, first']
      rfl
    · exact State.todSample_samples _ x
    · exact State.todSample_ft _ x
    · exact State.todSample_source _ x source mean
    · exact State.todSample_follower _ x follower
  case delayReq =>
    rw [exec_delayReqTimer_eq s still, if_pos]
    · rfl
    · rw [(s.portUp_iff 0).mpr link]
      exact congrArg Option.isSome master
  case noMaster =>
    rw [exec_delayReqTimer_eq s still, if_neg]
    simp [show s.eth.ptp.master = none from none_]
  case newMaster =>
    have elected : s.ptpElect = s.withPtp { c with master := some b.sender, masterOk := false, sync := none, msDiff := none, req := none } := by
      have other : ¬ (c.best s.now).map (fun m => m.sender) = c.master := fun same => new (same.symm.trans (congrArg (Option.map _) best))
      rw [State.ptpElect, State.modPtp_eq, PtpClock.elect]
      rw [if_neg other, best]
      rfl
    change execDelayReqTimer s = _
    unfold execDelayReqTimer
    dsimp only
    rw [elected, if_pos]
    · rfl
    · exact Bool.and_eq_true_iff.mpr ⟨(s.portUp_iff 0).mpr link, rfl⟩

end Sys2Proof.Machine
end

section
/-! PROOFS. O1 SeqRegisterResults: the register instructions on a ready core. -/

namespace Sys2Proof.Machine

set_option Elab.async false -- in turn: many waiting threads need much memory

theorem fld_eq_ofNat_fldN {n : Nat} (w : BitVec n) (lo len : Nat) : fld w lo len = BitVec.ofNat len (fldN w lo len) := by
  rw [fldN, BitVec.ofNat_toNat, BitVec.setWidth_eq]

theorem fldN_eq {n : Nat} (w : BitVec n) (lo len : Nat) : fldN w lo len = w.toNat / 2 ^ lo % 2 ^ len := by
  rw [fldN, BitVec.extractLsb'_toNat, Nat.shiftRight_eq_div_pow]

theorem ccset_value (w : IWord) : (fld w 6 31).setWidth 32 = BitVec.ofNat 32 (fldN w 6 31) := by
  apply BitVec.eq_of_toNat_eq
  simp [fldN_eq, BitVec.extractLsb'_toNat, Nat.shiftRight_eq_div_pow]

/-- A counter's low 31 bits add, and ERR stays (R60). -/
theorem ccadd_value (v : BitVec 32) (n : Nat) :
    (v &&& 0x80000000#32) ||| ((v + BitVec.ofNat 32 n) &&& 0x7FFFFFFF#32)
      = BitVec.ofNat 32 (fldN v 31 1 * 2 ^ 31 + (fldN v 0 31 + n) % 2 ^ 31) := by
  apply BitVec.eq_of_toNat_eq
  have err : v.toNat &&& 0x80000000 = 2 ^ 31 * (v.toNat / 2 ^ 31 % 2) := by
    rw [show (0x80000000 : Nat) = 2 ^ 31 from rfl, Nat.and_two_pow, Nat.testBit_eq_decide_div_mod_eq]
    rcases Nat.mod_two_eq_zero_or_one (v.toNat / 2 ^ 31) with h | h <;> norm_num at h <;> simp [h]
  have low : ∀ x : Nat, x &&& 0x7FFFFFFF = x % 2 ^ 31 := fun x => Nat.and_two_pow_sub_one_eq_mod x 31
  have bound : ∀ x : Nat, x % 2 ^ 31 < 2 ^ 31 := fun x => Nat.mod_lt _ (by decide)
  simp only [BitVec.toNat_or, BitVec.toNat_and, BitVec.toNat_add, BitVec.toNat_ofNat, Nat.reducePow, Nat.reduceMod] at *
  rw [err, low, ← Nat.two_pow_add_eq_or_of_lt (i := 31) (bound _)]
  simp only [fldN_eq]
  omega

/-- The address field of an address register, written anew. -/
theorem toNat_setFld_address (a : BitVec 56) (v : Nat) : (setFld a 0 42 v).toNat = a.toNat / 2 ^ 42 * 2 ^ 42 + v % 2 ^ 42 := by
  have low : (setFld a 0 42 v).toNat % 2 ^ 42 = v % 2 ^ 42 := by
    have h := congrArg BitVec.toNat (fld_setFld_same a 0 42 v (by decide))
    simpa [BitVec.extractLsb'_toNat] using h
  have high : (setFld a 0 42 v).toNat / 2 ^ 42 % 2 ^ 14 = a.toNat / 2 ^ 42 % 2 ^ 14 := by
    have h := congrArg BitVec.toNat (fld_setFld_out a 0 42 v 42 14 (by decide))
    simpa [BitVec.extractLsb'_toNat, Nat.shiftRight_eq_div_pow] using h
  have := (setFld a 0 42 v).isLt
  have := a.isLt
  omega

/-- An address register's address adds modulo 2^42, and its upper bits stay (R60). -/
theorem addar_value (a : BitVec 56) (x : BitVec 64) (z : Int) (hz : z % 2 ^ 42 = x.toNat % 2 ^ 42) :
    setFld a 0 42 ((fldN a 0 42 + (x.setWidth 42).toNat) % 2 ^ 42)
      = BitVec.ofNat 56 (fldN a 42 14 * 2 ^ 42 + (((fldN a 0 42 : Int) + z) % 2 ^ 42).toNat) := by
  apply BitVec.eq_of_toNat_eq
  have := a.isLt
  rw [toNat_setFld_address]
  simp only [fldN_eq, BitVec.toNat_setWidth, BitVec.toNat_ofNat]
  omega

/-- The sum's second term, from a register or from a signed field. -/
theorem addar_term (b : Bool) (g : BitVec 64) (x : BitVec 40) :
    (if b then (g.toNat : Int) else x.toInt) % 2 ^ 42 = (if b then g else x.signExtend 64).toNat % 2 ^ 42 := by
  have bound := x.isLt
  cases b with
  | true => simp
  | false =>
    simp only [Bool.false_eq_true, if_false, BitVec.toNat_signExtend, BitVec.toInt_eq_msb_cond, BitVec.toNat_setWidth]
    split <;> omega

theorem withOp_fldN (w : IWord) (e o lo len : Nat) (h : lo + len ≤ 116) :
    fldN (Word128.withOp w e o) lo len = fldN w lo len := withOp_body w e o lo len h

/-- In independent mode no rank is added (R52). -/
theorem State.subRank_offered (s : State) (c : CoreId) (d : Decoded) (hr : s.Ready c) : ((s.offered c d).core c).subRank = 0 := by
  have indep : (s.core c).id.bcast = false := hr.1.2.1
  simp [State.offered_core s c d c.isLt, Core.subRank, Core.modSeq, indep]

/-- A register instruction that decoding passes moves the sequencer on with the effect f. -/
theorem State.fetch_regOp (s : State) (c : CoreId) (w : IWord) (o : Nat) (f : SeqState → SeqState) (hr : s.Ready c)
    (hd : decodeCause (Word128.withOp w 6 o) = 0) (ho : o ∈ [0x10, 0x11, 0x12, 0x18, 0x19, 0x1A, 0x1B, 0x1C, 0x2A])
    (hreg : ∀ q : SeqState, q.regOp 0 (Word128.withOp w 6 o) = (f q, 0))
    (hf : ∀ q : SeqState, (f q).wait = q.wait ∧ (f q).ended = q.ended ∧ (f q).stopped = q.stopped)
    (hc : ∀ (q : SeqState) b l, f { q with buf := b, launchHeld := l } = { f q with buf := b, launchHeld := l }) :
    s.fetch c (Word128.withOp w 6 o) = s.seqStep c f (Word128.sigcc w) := by
  have small : o < 256 ∧ o ≠ 0x28 := by
    simp only [List.mem_cons, List.not_mem_nil, or_false] at ho
    omega
  refine s.fetch_seqStep c _ f _ hr hd (by simp [engSEQ]) ?_ (fun d hv => ?_) hf hc
  · rw [isLaunch_withOp]
    simpa using fun h => small.2 (by omega)
  · rw [← withOp_sigcc w 6 o]
    refine s.issue_regOp c _ d hv ?_ f ?_
    · have opc : (Word128.opcode (Word128.withOp w 6 o)).toNat = o := by simpa using small.1
      rwa [opc]
    · rw [s.subRank_offered c d hr]
      exact hreg _

/-- NOP moves past its word. -/
theorem State.fetch_nop (s : State) (c : CoreId) (w : IWord) (hr : s.Ready c) (hd : decodeCause (Word128.withOp w 6 0x00) = 0) :
    s.fetch c (Word128.withOp w 6 0x00) = s.seqStep c (fun q => q) (Word128.sigcc w) := by
  refine s.fetch_seqStep c _ _ _ hr hd (by simp [engSEQ]) (by simp [isLaunch_withOp]) (fun d hv => ?_)
    (fun _ => ⟨rfl, rfl, rfl⟩) (fun _ _ _ => rfl)
  have same : (s.offered c d).modCore c (fun k => k.modSeq (fun q => q)) = s.offered c d := State.modCore_id _ c
  rw [same]
  simp [State.issueSeq, hv]

/-- Settles O1: each register instruction is one sequencer step. -/
theorem seqRegisterResults : Obligations.SeqRegisterResults := by
  unfold Obligations.SeqRegisterResults
  intro c w s hr
  refine ⟨fun hd => congrArg Host.Outcome.next (s.fetch_nop c w hr hd), fun hd => ?_, fun hd => ?_, fun hd => ?_, fun hd => ?_,
    fun hd => ?_, fun hd => ?_⟩ <;>
    refine congrArg Host.Outcome.next (s.fetch_regOp c w _ _ hr hd (by decide) (fun q => ?_)
      (fun _ => ⟨rfl, rfl, rfl⟩) (fun _ _ _ => rfl))
  · simp [SeqState.regOp, withOp_fldN, Word128.body, ccset_value]
  · simp only [SeqState.regOp, withOp_opcode, withOp_fldN, Word128.body, BitVec.toNat_ofNat, Nat.reducePow, Nat.reduceMod,
      Nat.reduceAdd, Nat.reduceLeDiff, ccadd_value]
  · simp [SeqState.regOp, withOp_fldN, Word128.body]
  · simp [SeqState.regOp, withOp_fldN, fld_eq_ofNat_fldN, Word128.body]
  · have body : fld (Word128.withOp w 6 0x1A) 5 40 = fld w 5 40 := by
      simp only [fld_eq_ofNat_fldN, withOp_fldN, Nat.reduceAdd, Nat.reduceLeDiff]
    simp only [SeqState.regOp, withOp_opcode, withOp_fldN, withOp_bit, Word128.body, BitVec.toNat_ofNat, Nat.reducePow,
      Nat.reduceMod, Nat.reduceAdd, Nat.reduceLeDiff, Nat.reduceLT, body, SeqState.gpr]
    have value : (fun a : BitVec 56 => _) = _ := funext fun a =>
      addar_value a _ _ (addar_term (bitB w 45) (q.gr.getD (fldN w 46 4) 0) (fld w 5 40))
    exact congrArg (fun g => (({ q with ar := vmod q.ar (fldN w 0 5) g } : SeqState), 0)) value
  · simp [SeqState.regOp, withOp_fldN, fld_eq_ofNat_fldN, Word128.body, SeqState.gpr]

end Sys2Proof.Machine
end

section
/-! PROOFS. What a skip at issue leaves, and the words that skip or set registers on one core. -/

namespace Sys2Proof.Machine

set_option Elab.async false -- in turn: many waiting threads need much memory

/-! ## Quiet and steady states when one core has changed -/

theorem State.Quiet.congr {s t : State} (c : Nat) (h : s.Quiet) (others : ∀ d, d ≠ c → t.core d = s.core d)
    (here : (t.core c).quiet = true) : t.Quiet := by
  intro d hd
  by_cases e : d = c
  · rw [e, here]
  · rw [others d e, h d hd]

theorem State.groupOf_congr {s t : State} (ids : ∀ d, (t.core d).id = (s.core d).id) (d : Nat) : t.groupOf d = s.groupOf d := by
  simp only [State.groupOf, ids]

/-- A core whose program is not over keeps its group's program from being over. -/
theorem State.Steady.of_unfinished {s t : State} (c : Nat) (h : s.Steady) (ids : ∀ d, (t.core d).id = (s.core d).id)
    (others : ∀ d, d ≠ c → t.core d = s.core d)
    (going : ((t.core c).seq.ended && !(t.core c).seq.stopped && (t.core c).allIdle) = false) (parts : t.parts = s.parts)
    (armed : t.eth.armed = s.eth.armed) : t.Steady := by
  refine ⟨fun d hd act => ?_, fun p hp run => ?_⟩
  · rw [ids] at act
    have before := h.1 d hd act
    by_contra stays
    simp only [Bool.not_eq_false, State.programOver, State.groupOf_congr ids, List.all_eq_true] at stays
    refine absurd ?_ (Bool.eq_false_iff.mp before)
    rw [State.programOver, List.all_eq_true]
    intro x hx
    have hxc : x ≠ c := by
      rintro rfl
      exact absurd (stays x hx) (by rw [going]; decide)
    rw [← others x hxc]
    exact stays x hx
  · have same : t.part p = s.part p := by simp [State.part, parts]
    rw [same] at run
    simpa only [armed, ids, same] using h.2 p hp run

/-- A core that has not ended keeps its group's program from being over. -/
theorem State.Steady.of_running {s t : State} (c : Nat) (h : s.Steady) (ids : ∀ d, (t.core d).id = (s.core d).id)
    (others : ∀ d, d ≠ c → t.core d = s.core d) (runs : (t.core c).seq.ended = false) (parts : t.parts = s.parts)
    (armed : t.eth.armed = s.eth.armed) : t.Steady :=
  h.of_unfinished c ids others (by simp [runs]) parts armed

/-! ## A record of a skipped word -/

/-- A core whose Goose budget and count of suppressed events have moved. -/
def Core.charged (k : Core) (supp : BitVec 8) (budget : List (BitVec 64)) : Core :=
  { k with err := { k.err with gooseSupp := supp }, budget := budget }

/-- A core that has recorded a skip: its error registers, and its STOP_ON_ERR. -/
def Core.recorded (k : Core) (q : QEntry) (cause : Nat) (x : Bool) (now : BitVec 64) : Core :=
  { k with err := k.err.note q cause k.id.rank x now
           seq := { k.seq with stopped := (k.err.stopOnErr && !k.id.bcast) || k.seq.stopped } }

def State.withGoose (s : State) (g : Goose) : State := { s with goose := g }

theorem State.withGoose_modCore (s : State) (g : Goose) (c : Nat) (f : Core → Core) :
    (s.withGoose g).modCore c f = (s.modCore c f).withGoose g := rfl

@[simp] theorem State.withGoose_core (s : State) (g : Goose) (c : Nat) : (s.withGoose g).core c = s.core c := rfl

/-- The events of the last second on core c, with one more now. -/
def State.spentBudget (s : State) (c : Nat) : List (BitVec 64) :=
  s.now :: (s.core c).budget.filter (fun t => decide ((s.now - t).toNat < 1000000000))

theorem State.logBudget_charged (s : State) (c : Nat) (e : GEvent) :
    ∃ supp budget g, s.logBudget c e = (s.modCore c (fun k => k.charged supp budget)).withGoose g := by
  unfold State.logBudget
  split
  · refine ⟨(s.core c).err.gooseSupp, s.spentBudget c, s.goose.log s.now s.time.aligned e, ?_⟩
    rw [s.modCore_congr c (fun k => k.charged _ _) (fun k => { k with budget := s.spentBudget c }) rfl]
    rfl
  · refine ⟨satInc (s.core c).err.gooseSupp, (s.core c).budget, s.goose, ?_⟩
    exact s.modCore_congr c _ (fun k => k.charged (satInc (s.core c).err.gooseSupp) (s.core c).budget) rfl

/-- A recorded skip changes the error registers, the Goose and, under STOP_ON_ERR, the sequencer of its core alone. -/
theorem State.recordSkip_recorded (s : State) (c : Nat) (q : QEntry) (cause : Nat) (x : Bool) :
    ∃ supp budget g, s.recordSkip c q cause x =
      (s.modCore c (fun k => (k.recorded q cause x s.now).charged supp budget)).withGoose g := by
  obtain ⟨supp, budget, g, h⟩ := State.logBudget_charged (s.modCore c (fun k => k.modErr (fun r => r.note q cause k.id.rank x s.now))) c
    (State.coreEvent (s.modCore c (fun k => k.modErr (fun r => r.note q cause k.id.rank x s.now))) c 0x01
      [(((State.core (s.modCore c (fun k => k.modErr (fun r => r.note q cause k.id.rank x s.now))) c).err.lastErr).toNat % 2 ^ 46, 8)])
  refine ⟨supp, budget, g, ?_⟩
  unfold State.recordSkip
  dsimp only
  rw [h, State.withGoose_modCore, State.modCore_modCore, State.modCore_modCore]
  refine congrArg (fun x : State => x.withGoose g) (State.modCore_congr s c _ _ ?_)
  cases hs : (s.core c).err.stopOnErr <;> cases hb : (s.core c).id.bcast <;>
    simp [Core.modErr, Core.modSeq, Core.charged, Core.recorded, ErrRegs.note, hs, hb]

/-! ## A word skipped at once by a core in independent mode -/

/-- What a skip that signals at once leaves of a core that was ready. -/
def Core.skipped (k : Core) (q : QEntry) (cause : Nat) (now : BitVec 64) (supp : BitVec 8) (budget : List (BitVec 64)) : Core :=
  ((k.recorded q cause false now).charged supp budget).modSeq (fun r =>
    { r with pc := r.pc + 1, stall := .none, cc := ccAfter r.cc q.sigcc true })

theorem ccAfter_eq (v : Vector (BitVec 32) 64) (g : BitVec 8) (e : Bool) :
    ccAfter v g e = if g.toNat < 64 then vmod v g.toNat (fun x => ccBump x e) else v := rfl

/-- A record that names the word w at the pc of core c in independent mode. -/
def State.Names (s : State) (c : CoreId) (w : IWord) (q : QEntry) : Prop :=
  q.pc = (s.core c).seq.pc.setWidth 17 ∧ q.engine = Word128.engine w ∧ q.opcode = Word128.opcode w ∧ q.bcast = false

theorem State.ready_empty (s : State) (c : CoreId) (hr : s.Ready c) :
    (s.core c).seq.buf = [] ∧ (s.core c).seq.wait = .none ∧ (s.core c).seq.launchHeld = none ∧
    ∀ u ∈ engUnits, ((s.core c).eng u).queue = [] := by
  have hq := hr.2.1 c c.isLt
  simp only [Core.quiet, Bool.and_eq_true, beq_iff_eq, List.isEmpty_iff, List.all_eq_true] at hq
  exact ⟨hq.1.1, hq.1.2, hr.1.2.2.2.2.2.1, hq.2⟩

theorem State.offered_skips (s : State) (c : CoreId) (d : Decoded) (q : QEntry) (u : EngUnit) (cause : Nat) (hr : s.Ready c) :
    ∃ supp budget g, ((s.offered c d).skipWord c q q u cause true).tookWords c 1 false =
      (s.modCore c (fun k => k.skipped q cause s.now supp budget)).withGoose g := by
  obtain ⟨supp, budget, g, h⟩ := State.recordSkip_recorded (s.offered c d) c q cause false
  obtain ⟨hb, -, hl, -⟩ := s.ready_empty c hr
  refine ⟨supp, budget, g, ?_⟩
  simp only [State.skipWord, if_true, State.signal_eq, State.tookWords]
  rw [h]
  simp only [State.withGoose_modCore, State.offered, State.modCore_modCore]
  refine congrArg (fun x : State => x.withGoose g) (State.modCore_congr s c _ _ ?_)
  simp [Core.skipped, Core.recorded, Core.charged, Core.modSeq, ccAfter_eq, hb, hl, State.now]

theorem Core.skipped_eng (k : Core) (q : QEntry) (cause : Nat) (now : BitVec 64) (supp : BitVec 8) (budget : List (BitVec 64))
    (u : EngUnit) : (k.skipped q cause now supp budget).eng u = k.eng u := by cases u <;> rfl

theorem Core.skipped_quiet (k : Core) (q : QEntry) (cause : Nat) (now : BitVec 64) (supp : BitVec 8) (budget : List (BitVec 64)) :
    (k.skipped q cause now supp budget).quiet = k.quiet := by
  simp only [Core.quiet, Core.skipped_eng]
  rfl

theorem State.skipped_core (s : State) (c : CoreId) (f : Core → Core) (g : Goose) :
    ((s.modCore c f).withGoose g).core c = f (s.core c) := by
  rw [State.withGoose_core, State.core_modCore]
  simp

theorem State.skipped_others (s : State) (c : CoreId) (f : Core → Core) (g : Goose) (d : Nat) (h : d ≠ c) :
    ((s.modCore c f).withGoose g).core d = s.core d := by
  rw [State.withGoose_core, State.core_modCore, if_neg (fun e => h e.1)]

/-- A state that has skipped a word is quiet and steady. -/
theorem State.skipped_settled (s : State) (c : CoreId) (q : QEntry) (cause : Nat) (supp : BitVec 8) (budget : List (BitVec 64))
    (g : Goose) (hr : s.Ready c) :
    ((s.modCore c (fun k => k.skipped q cause s.now supp budget)).withGoose g).Quiet ∧
    ((s.modCore c (fun k => k.skipped q cause s.now supp budget)).withGoose g).Steady := by
  have others := s.skipped_others c (fun k => k.skipped q cause s.now supp budget) g
  have here := s.skipped_core c (fun k => k.skipped q cause s.now supp budget) g
  refine ⟨State.Quiet.congr c hr.2.1 others ?_, State.Steady.of_running c hr.2.2 (fun d => ?_) others ?_ rfl rfl⟩
  · rw [here, Core.skipped_quiet]
    exact hr.2.1 c c.isLt
  · by_cases e : d = c
    · rw [e, here]
      rfl
    · rw [others d e]
  · have runs : (s.core c).seq.ended = false := hr.1.2.2.2.1
    rw [here]
    exact runs

/-- An update of one core and the Goose leaves everything else. -/
theorem State.skipped_rest (s : State) (c : Nat) (f : Core → Core) (g : Goose) :
    ∀ t, t = (s.modCore c f).withGoose g → t.ms = s.ms ∧ t.fab = s.fab ∧ t.time = s.time ∧ t.ud = s.ud ∧ t.parts = s.parts ∧
      t.eth = s.eth ∧ t.pwr = s.pwr ∧ t.rst = s.rst ∧ t.fl = s.fl ∧ t.sec = s.sec ∧ t.pins = s.pins ∧ t.pending = s.pending := by
  rintro t rfl
  exact ⟨rfl, rfl, rfl, rfl, rfl, rfl, rfl, rfl, rfl, rfl, rfl, rfl⟩

/-- A word whose issue skips it at once: what its fetch leaves (R74 to R77). -/
theorem State.fetch_skips (s : State) (c : CoreId) (w : IWord) (q : QEntry) (u : EngUnit) (cause : Nat) (hr : s.Ready c)
    (hl : decodeCause w = 0 ∨ decodeCause w = 7 → isLaunch w = false)
    (hi : (s.offered c (s.decodedAt c w)).issueOne c =
      (((s.offered c (s.decodedAt c w)).skipWord c q q u cause true).tookWords c 1 false, true))
    (hn : s.Names c w q) :
    ∃ t, s.fetch c w = t ∧ s.Skipped t c w cause ∧ (t.core c).seq.cc = ccAfter (s.core c).seq.cc q.sigcc true := by
  obtain ⟨supp, budget, g, h⟩ := s.offered_skips c (s.decodedAt c w) q u cause hr
  rw [h] at hi
  obtain ⟨quiet, steady⟩ := s.skipped_settled c q cause supp budget g hr
  have here := s.skipped_core c (fun k => k.skipped q cause s.now supp budget) g
  have others := s.skipped_others c (fun k => k.skipped q cause s.now supp budget) g
  have indep : (s.core c).id.bcast = false := hr.1.2.1
  have runs : (s.core c).seq.stopped = false := hr.1.2.2.1
  obtain ⟨hpc, he, ho, hb⟩ := hn
  obtain ⟨t, ht⟩ : ∃ t, t = (s.modCore c (fun k => k.skipped q cause s.now supp budget)).withGoose g := ⟨_, rfl⟩
  rw [← ht] at hi quiet steady here others
  refine ⟨t, s.fetch_issues _ c w hr.1 hr.2.1 hl hi quiet steady, ?_, ?_⟩
  · unfold State.Skipped
    rw [here]
    simp only [Core.skipped, Core.recorded, Core.charged, Core.modSeq, ErrRegs.note, hpc, he, ho, hb, indep, runs, Bool.not_false,
      Bool.and_true, Bool.or_false, true_and]
    exact ⟨others, s.skipped_rest c _ g t ht⟩
  · rw [here]
    rfl

end Sys2Proof.Machine
end

section
/-! PROOFS. O3 ControlFlow. -/

namespace Sys2Proof.Machine

set_option Elab.async false -- in turn: many waiting threads need much memory

theorem fieldBad_of_decodes (w : Word128) (h : decodeCause w = 0) : fieldBad w = false := by
  rw [Bool.eq_false_iff]
  intro bad
  unfold decodeCause at h
  dsimp only at h
  split at h
  · exact absurd h (by decide)
  · split at h
    · exact absurd h (by decide)
    · simp only [lowest, bad, if_true] at h
      split at h
      · exact absurd h (by decide)
      · split at h <;> exact absurd h (by decide)

theorem br_condition (w : IWord) (h : decodeCause (Word128.withOp w 6 0x02) = 0) : fldN w 17 4 < 8 := by
  have ok := fieldBad_of_decodes _ h
  simp [fieldBad, Word128.body, withOp_fldN] at ok
  omega

/-- A counter has reached its target when it lies less than 2^30 ahead of it, modulo 2^31 (R56). -/
theorem ccReached_eq (v : BitVec 32) (n : Nat) : ccReached v n = decide (((fldN v 0 31 : Int) - n) % 2 ^ 31 < 2 ^ 30) := by
  unfold ccReached
  congr 1
  apply propext
  omega

theorem branches_eq (q : SeqState) (w : IWord) (o : Nat) (hc : fldN w 17 4 < 8) :
    q.branches (Word128.withOp w 6 o) =
      (let g : BitVec 64 := q.gr.getD (fldN w 21 4) 0
       let cc : BitVec 32 := q.cc.getD (fldN w 25 6) 0
       match fldN w 17 4 with
      | 0 => true
      | 1 => decide (g = 0)
      | 2 => decide (g ≠ 0)
      | 3 => decide (g.toInt < 0)
      | 4 => q.fErr
      | 5 => q.fTmo
      | 6 => decide (((fldN cc 0 31 : Int) - fldN w 31 31) % 2 ^ 31 < 2 ^ 30)
      | _ => cc.msb) := by
  have sign : (q.gr.getD (fldN w 21 4) 0).msb = decide ((q.gr.getD (fldN w 21 4) 0).toInt < 0) := BitVec.msb_eq_toInt ..
  have top : bitB (q.cc.getD (fldN w 25 6) 0) 31 = (q.cc.getD (fldN w 25 6) 0).msb := (BitVec.msb_eq_getLsbD_last _).symm
  simp only [SeqState.branches, SeqState.gpr, Word128.body, withOp_fldN, Nat.reduceAdd, Nat.reduceLeDiff, ccReached_eq, sign, top]
  generalize fldN w 17 4 = n at hc
  interval_cases n <;> simp [beq_eq_decide, bne]

/-- A word of control flow issues: a step, or a skip under its cause. -/
theorem State.issueSeq_control (s : State) (c : Nat) (d : Decoded) (ho : d.word.opcode.toNat ∈ [0x02, 0x03, 0x04, 0x05]) :
    s.issueSeq c d false =
      (let q := entryOf (s.core c) d.pc d.word false none none
       let r := (s.core c).seq.control d.word
       if r.2 ≠ 0 then .done_ (s.skipWord c q q .cache r.2 true)
       else .done_ ((s.modCore c (fun k => { k with seq := r.1 })).signal c d.word.sigcc false)) := by
  simp only [List.mem_cons, List.not_mem_nil, or_false] at ho
  unfold State.issueSeq
  rcases ho with h | h | h | h <;> simp only [h]

theorem State.issueSeq_control_skips (s : State) (c : Nat) (d : Decoded) (cause : Nat)
    (ho : d.word.opcode.toNat ∈ [0x02, 0x03, 0x04, 0x05]) (hcause : cause ≠ 0) (h : ((s.core c).seq.control d.word).2 = cause) :
    s.issueSeq c d false = .done_ (s.skipWord c (entryOf (s.core c) d.pc d.word false none none)
      (entryOf (s.core c) d.pc d.word false none none) .cache cause true) := by
  rw [State.issueSeq_control s c d ho]
  dsimp only
  rw [h, if_pos hcause]

/-- A word of control flow that passes moves the sequencer on with the effect f. -/
theorem State.fetch_control (s : State) (c : CoreId) (w : IWord) (o : Nat) (f : SeqState → SeqState) (hr : s.Ready c)
    (hd : decodeCause (Word128.withOp w 6 o) = 0) (ho : o ∈ [0x02, 0x03, 0x04, 0x05])
    (hreg : ∀ q : SeqState, q = { (s.core c).seq with pc := (s.core c).seq.pc + 1, launchHeld := none, buf := q.buf } →
      q.control (Word128.withOp w 6 o) = (f q, 0))
    (hf : ∀ q : SeqState, (f q).wait = q.wait ∧ (f q).ended = q.ended ∧ (f q).stopped = q.stopped)
    (hc : ∀ (q : SeqState) b l, f { q with buf := b, launchHeld := l } = { f q with buf := b, launchHeld := l }) :
    s.fetch c (Word128.withOp w 6 o) = s.seqStep c f (Word128.sigcc w) := by
  have small : o < 256 ∧ o ≠ 0x28 := by
    simp only [List.mem_cons, List.not_mem_nil, or_false] at ho
    omega
  have opc : (Word128.opcode (Word128.withOp w 6 o)).toNat = o := by simpa using small.1
  refine s.fetch_seqStep c _ f _ hr hd (by simp [engSEQ]) ?_ (fun d hv => ?_) hf hc
  · rw [isLaunch_withOp]
    simpa using fun h => small.2 (by omega)
  · have passes := hreg ((s.offered c d).core c).seq (by rw [State.offered_core s c d c.isLt]; rfl)
    rw [State.issueSeq_control _ _ _ (by rwa [hv, opc]), hv, passes, withOp_sigcc]
    simp only [ne_eq, not_true_eq_false, if_false]
    congr 2
    exact State.modCore_congr _ _ _ _ rfl

/-- A word of control flow that fails is skipped under its cause. -/
theorem State.fetch_control_skips (s : State) (c : CoreId) (w : IWord) (o cause : Nat) (hr : s.Ready c)
    (hd : decodeCause (Word128.withOp w 6 o) = 0) (ho : o ∈ [0x02, 0x03, 0x04, 0x05]) (hcause : cause ≠ 0)
    (hreg : ∀ q : SeqState, q.callStack = (s.core c).seq.callStack → (q.control (Word128.withOp w 6 o)).2 = cause) :
    ∃ t, s.fetch c (Word128.withOp w 6 o) = t ∧ s.Skipped t c (Word128.withOp w 6 o) cause ∧
      (t.core c).seq.cc = ccAfter (s.core c).seq.cc (Word128.sigcc w) true := by
  have small : o < 256 ∧ o ≠ 0x28 := by
    simp only [List.mem_cons, List.not_mem_nil, or_false] at ho
    omega
  have opc : (Word128.opcode (Word128.withOp w 6 o)).toNat = o := by simpa using small.1
  have hl : isLaunch (Word128.withOp w 6 o) = false := by
    rw [isLaunch_withOp]
    simpa using fun h => small.2 (by omega)
  have fails := hreg ((s.offered c (s.decodedAt c (Word128.withOp w 6 o))).core c).seq
    (by rw [State.offered_core s c _ c.isLt]; rfl)
  have issue := State.issueSeq_control_skips (s.offered c (s.decodedAt c (Word128.withOp w 6 o))) c
    (s.decodedAt c (Word128.withOp w 6 o)) cause (by rwa [State.decodedAt, opc]) hcause fails
  have one := State.issueOne_seq s _ c (s.decodedAt c (Word128.withOp w 6 o)) hr.1 hr.2.1 hd hl
    (by simp [engSEQ, State.decodedAt]) issue
  have skipped := s.fetch_skips c (Word128.withOp w 6 o) _ .cache cause hr (fun _ => hl) one ⟨rfl, rfl, rfl, rfl⟩
  simpa [entryOf, State.decodedAt, hl] using skipped

theorem target_eq (w : IWord) (o : Nat) :
    BitVec.ofNat 18 (Word128.body (Word128.withOp w 6 o) 0 17) = (fld w 0 17).setWidth 18 := by
  rw [Word128.body, withOp_fldN _ _ _ _ _ (by decide)]
  apply BitVec.eq_of_toNat_eq
  simp [fldN_eq, BitVec.extractLsb'_toNat]

theorem SeqState.control_br (q : SeqState) (w : Word128) (h : w.opcode.toNat = 0x02) :
    q.control w = (if q.branches w then { q with pc := BitVec.ofNat 18 (w.body 0 17) } else q, 0) := by
  simp only [SeqState.control, h]

theorem SeqState.control_loop (q : SeqState) (w : Word128) (h : w.opcode.toNat = 0x03) :
    q.control w = ({ q with gr := vmod q.gr (w.body 17 4) (fun _ => q.gpr (w.body 17 4) - 1)
                            pc := if q.gpr (w.body 17 4) - 1 = 0 then q.pc else BitVec.ofNat 18 (w.body 0 17) }, 0) := by
  simp only [SeqState.control, h]
  split <;> rfl

/-- BR goes to its target when its condition holds. -/
theorem State.fetch_br (s : State) (c : CoreId) (w : IWord) (taken : Bool) (hr : s.Ready c)
    (hd : decodeCause (Word128.withOp w 6 0x02) = 0)
    (hb : ∀ q : SeqState, q = { (s.core c).seq with pc := (s.core c).seq.pc + 1, launchHeld := none, buf := q.buf } →
      q.branches (Word128.withOp w 6 0x02) = taken) :
    s.fetch c (Word128.withOp w 6 0x02) =
      s.seqStep c (fun q => if taken then { q with pc := (fld w 0 17).setWidth 18 } else q) (Word128.sigcc w) := by
  refine s.fetch_control c w _ _ hr hd (by decide) (fun q hq => ?_) (fun q => ?_) (fun q b l => ?_)
  · rw [SeqState.control_br q _ (by simp), hb q hq, target_eq]
  · cases taken <;> exact ⟨rfl, rfl, rfl⟩
  · cases taken <;> rfl

/-- Settles O3: control flow moves fetch on, or is skipped under cause 0x19. -/
theorem controlFlow : Obligations.ControlFlow := by
  unfold Obligations.ControlFlow
  intro c w s hr
  refine ⟨fun hc hd => absurd (br_condition w hd) (by omega), fun hd => ?br, fun hd => ?loop, fun hd => ⟨fun room => ?call, fun full => ?full⟩,
    fun hd => ⟨fun a r hs => ?ret, fun empty => ?empty⟩⟩
  case br =>
    refine congrArg Host.Outcome.next (s.fetch_br c w _ hr hd (fun q hq => ?_))
    rw [branches_eq q w _ (br_condition w hd), hq] <;> rfl
  case loop =>
    refine congrArg Host.Outcome.next (s.fetch_control c w _ _ hr hd (by decide) (fun q hq => ?_) (fun _ => ⟨rfl, rfl, rfl⟩)
      (fun q b l => rfl))
    have same : q.gr = (s.core c).seq.gr := by rw [hq]
    rw [SeqState.control_loop q _ (by simp), target_eq, Word128.body, withOp_fldN _ _ _ _ _ (by decide), SeqState.gpr, same]
  case call =>
    refine congrArg Host.Outcome.next (s.fetch_control c w _ _ hr hd (by decide) (fun q hq => ?_) (fun _ => ⟨rfl, rfl, rfl⟩)
      (fun q b l => rfl))
    have same : q.callStack = (s.core c).seq.callStack ∧ q.pc = (s.core c).seq.pc + 1 := by rw [hq]; exact ⟨rfl, rfl⟩
    have free : ¬ 16 ≤ (s.core c).seq.callStack.length := by omega
    simp [SeqState.control, same, free, target_eq]
  case ret =>
    refine congrArg Host.Outcome.next (s.fetch_control c w _ _ hr hd (by decide) (fun q hq => ?_) (fun _ => ⟨rfl, rfl, rfl⟩)
      (fun q b l => rfl))
    have same : q.callStack = a :: r := by rw [hq]; exact hs
    simp [SeqState.control, same]
  case full =>
    obtain ⟨t, ht, skipped⟩ := s.fetch_control_skips c w 0x04 0x19 hr hd (by decide) (by decide) (fun q hq => by
      simp [SeqState.control, hq, full])
    exact ⟨t, congrArg Host.Outcome.next ht, skipped⟩
  case empty =>
    obtain ⟨t, ht, skipped⟩ := s.fetch_control_skips c w 0x05 0x19 hr hd (by decide) (by decide) (fun q hq => by
      simp [SeqState.control, hq, empty])
    exact ⟨t, congrArg Host.Outcome.next ht, skipped⟩

end Sys2Proof.Machine
end

section
/-! PROOFS. O5 Waits. -/

namespace Sys2Proof.Machine

set_option Elab.async false -- in turn: many waiting threads need much memory

/-! ## Settling one core -/

/-- One core settles in a state in which it stays, and nothing is about to end there. -/
theorem State.settle_core (s t : State) (c : CoreId) (hn : s.stopped = false) (hs : ∀ d, d < 8 → d ≠ c.val → (s.core d).quiet = true)
    (ht : ∀ d, d < 8 → d ≠ c.val → (t.core d).quiet = true) (goes : State.settleCore c 160 s = t)
    (stays : State.settleCore c 160 t = t) (steady : t.Steady) : s.settle = t := by
  have pass : ∀ x : State, (∀ d, d < 8 → d ≠ c.val → (x.core d).quiet = true) → State.settleCore c 160 x = t →
      ((List.range 8).filter (fun d => !(x.core d).quiet)).foldl (fun s c => State.settleCore c 160 s) x = t := by
    intro x hx hg
    cases hq : (x.core c).quiet with
    | false => rw [State.loudOne x c c.isLt hq hx, List.foldl_cons, List.foldl_nil, hg]
    | true =>
      have all : x.Quiet := fun d hd => if e : d = c.val then e ▸ hq else hx d hd e
      rw [State.noneLoud x all, List.foldl_nil, ← hg, State.settleCore_quiet c 160 x hq]
  unfold State.settle
  rw [hn]
  simp only [Bool.false_eq_true, if_false, pass s hs goes, pass t ht stays, State.checkEnd_steady t steady]

/-- A core that has no queued operation and can do nothing stays as it is. -/
theorem State.settleCore_stuck (s : State) (c n : Nat) (hq : ∀ u ∈ engUnits, ((s.core c).eng u).queue = [])
    (hi : s.issueOne c = (s, false)) : State.settleCore c n s = s := by
  cases n with
  | zero => rfl
  | succ n =>
    rw [State.settleCore, State.engineSide_idle s c hq, hi]
    simp

/-- A step of the issue side of a core that has no queued operation. -/
theorem State.settleCore_step (s t : State) (c n : Nat) (hl : (s.core c).quiet = false) (hq : ∀ u ∈ engUnits, ((s.core c).eng u).queue = [])
    (hi : s.issueOne c = (t, true)) : State.settleCore c (n + 1) s = State.settleCore c n t := by
  rw [State.settleCore, State.engineSide_idle s c hq, hi]
  simp [hl]

/-! ## A wait -/

theorem State.issueOne_stuck (s : State) (c : Nat) (runs : (s.core c).seq.ended = false) (hw : (s.core c).seq.wait ≠ .none)
    (waits : (s.core c).waitOver = none) : s.issueOne c = (s, false) := by
  unfold State.issueOne
  dsimp only
  rw [waits]
  simp [runs, hw]

theorem State.issueOne_ends (s : State) (c : Nat) (err : Bool) (sg : BitVec 8) (flags : Bool) (runs : (s.core c).seq.ended = false)
    (ends : (s.core c).waitOver = some (err, sg, flags)) :
    s.issueOne c = (if flags then s.endWait c err false sg else s.endWait c (s.core c).seq.fErr (s.core c).seq.fTmo sg, true) := by
  unfold State.issueOne
  dsimp only
  rw [ends]
  simp [runs]

/-- The sequencer of core c waits. -/
def State.holding (s : State) (c : Nat) (x : SeqWait) : State :=
  s.modCore c (fun k => k.modSeq (fun q => { q with pc := q.pc + 1, stall := .none, wait := x }))

/-- The word w, as core c decodes it, makes the sequencer wait for x. -/
def WaitWord (c : CoreId) (w : IWord) (x : SeqWait) : Prop :=
  decodeCause w = 0 ∧ isLaunch w = false ∧ (Word128.engine w).toNat = engSEQ ∧ x ≠ .none ∧
  ∀ (r : State) (d : Decoded), d.word = w → r.issueSeq c d false = .done_ (r.modCore c (fun k => k.modSeq (fun q => { q with wait := x })))

/-- The issue of a wait leaves the sequencer waiting. -/
theorem State.issueOne_wait (s : State) (c : CoreId) (w : IWord) (x : SeqWait) (hr : s.Ready c) (hw : WaitWord c w x) :
    (s.offered c (s.decodedAt c w)).issueOne c = (s.holding c x, true) := by
  obtain ⟨hd, hl, he, -, hi⟩ := hw
  obtain ⟨hb, -, hh, -⟩ := s.ready_empty c hr
  rw [State.issueOne_seq s _ c (s.decodedAt c w) hr.1 hr.2.1 hd hl he (hi _ (s.decodedAt c w) rfl)]
  simp only [State.tookWords, State.offered, State.holding, State.modCore_modCore]
  refine congrArg (fun x => (x, true)) (State.modCore_congr s c _ _ ?_)
  simp [Core.modSeq, hb, hh]

theorem State.holding_core (s : State) (c : CoreId) (x : SeqWait) : (s.holding c x).core c =
    (s.core c).modSeq (fun q => { q with pc := q.pc + 1, stall := .none, wait := x }) := by
  simp [State.holding]

theorem State.holding_others (s : State) (c : Nat) (x : SeqWait) (d : Nat) (h : d ≠ c) : (s.holding c x).core d = s.core d := by
  simp [State.holding, h]

theorem Core.modSeq_eng (k : Core) (f : SeqState → SeqState) (u : EngUnit) : (k.modSeq f).eng u = k.eng u := by cases u <;> rfl

theorem State.offered_eng (s : State) (c : CoreId) (d : Decoded) (u : EngUnit) : ((s.offered c d).core c).eng u = (s.core c).eng u := by
  rw [State.offered_core s c d c.isLt, Core.modSeq_eng]

/-- The steadiness of a state in which the sequencer of a running core has moved. -/
theorem State.modSeq_running_steady (s : State) (c : CoreId) (f : SeqState → SeqState) (hs : s.Steady)
    (runs : (f (s.core c).seq).ended = false) : (s.modCore c (fun k => k.modSeq f)).Steady := by
  refine State.Steady.of_running c hs (fun d => ?_) (fun d hd => by simp [hd]) ?_ rfl rfl
  · by_cases e : d = c <;> simp [e, Core.modSeq]
  · simpa [Core.modSeq] using runs

theorem State.offered_loud (s : State) (c : CoreId) (d : Decoded) : ((s.offered c d).core c).quiet = false := by
  rw [State.offered_core s c d c.isLt]
  simp [Core.quiet, Core.modSeq]

theorem State.holding_loud (s : State) (c : CoreId) (x : SeqWait) (hx : x ≠ .none) : ((s.holding c x).core c).quiet = false := by
  rw [State.holding_core]
  simp [Core.quiet, Core.modSeq, hx]

/-- The word is offered to a core that is not stopped, and the others stay quiet. -/
theorem State.fetch_settles (s t : State) (c : CoreId) (w : IWord) (hr : s.Ready c)
    (hl : decodeCause w = 0 ∨ decodeCause w = 7 → isLaunch w = false) (others : ∀ d, d ≠ c.val → t.core d = s.core d)
    (goes : State.settleCore c 160 (s.offered c (s.decodedAt c w)) = t) (stays : State.settleCore c 160 t = t) (steady : t.Steady) :
    s.fetch c w = t := by
  rw [State.fetch_takes s c w hr.1 hr.2.1 hl]
  refine State.settle_core _ t c (s.noProgram_stopped c hr.1.1) (fun d hd hne => ?_) (fun d hd hne => ?_) goes stays steady
  · rw [State.core_offered_ne s c d _ hne]
    exact hr.2.1 d hd
  · rw [others d hne]
    exact hr.2.1 d hd

/-- A wait whose condition does not hold stalls the sequencer. -/
theorem State.fetch_waits (s : State) (c : CoreId) (w : IWord) (x : SeqWait) (hr : s.Ready c) (hw : WaitWord c w x)
    (waits : ((s.holding c x).core c).waitOver = none) : s.fetch c w = s.holding c x := by
  have empty := (s.ready_empty c hr).2.2.2
  have runs : (s.core c).seq.ended = false := hr.1.2.2.2.1
  have queues : ∀ u ∈ engUnits, (((s.holding c x).core c).eng u).queue = [] := fun u hu => by
    rw [State.holding_core, Core.modSeq_eng, empty u hu]
  have stuck := State.issueOne_stuck (s.holding c x) c (by rw [State.holding_core]; exact runs)
    (by rw [State.holding_core]; exact hw.2.2.2.1) waits
  refine s.fetch_settles _ c w hr (fun _ => hw.2.1) (s.holding_others c x) ?_ ?_ ?_
  · rw [State.settleCore_step _ _ c 159 (s.offered_loud c _) (fun u hu => by rw [s.offered_eng, empty u hu]) (s.issueOne_wait c w x hr hw),
      State.settleCore_stuck _ c _ queues stuck]
  · exact State.settleCore_stuck _ c _ queues stuck
  · exact s.modSeq_running_steady c _ hr.2.2 runs

/-- A wait whose condition holds ends at once. -/
theorem State.fetch_waitOver (s : State) (c : CoreId) (w : IWord) (x : SeqWait) (err : Bool) (sg : BitVec 8) (flags : Bool)
    (hr : s.Ready c) (hw : WaitWord c w x) (ends : ((s.holding c x).core c).waitOver = some (err, sg, flags)) :
    s.fetch c w = s.seqStep c (fun q => if flags then { q with fErr := err, fTmo := false } else q) sg := by
  have empty := (s.ready_empty c hr).2.2.2
  obtain ⟨-, nowait, -, -⟩ := s.ready_empty c hr
  have runs : (s.core c).seq.ended = false := hr.1.2.2.2.1
  have queues : ∀ u ∈ engUnits, (((s.holding c x).core c).eng u).queue = [] := fun u hu => by
    rw [State.holding_core, Core.modSeq_eng, empty u hu]
  have last := State.issueOne_ends (s.holding c x) c err sg flags (by rw [State.holding_core]; exact runs) ends
  have left : (if flags then (s.holding c x).endWait c err false sg
      else (s.holding c x).endWait c ((s.holding c x).core c).seq.fErr ((s.holding c x).core c).seq.fTmo sg) =
      s.seqStep c (fun q => if flags then { q with fErr := err, fTmo := false } else q) sg := by
    cases flags <;>
      simp only [Bool.false_eq_true, if_false, if_true, State.seqStep_eq, State.endWait, State.signal_eq, State.holding_core] <;>
      simp only [State.holding, State.modCore_modCore] <;>
      refine State.modCore_congr s c _ _ ?_ <;> simp [Core.modSeq, nowait]
  rw [left] at last
  have quiet : (s.seqStep c (fun q => if flags then { q with fErr := err, fTmo := false } else q) sg).Quiet := by
    rw [State.seqStep_eq]
    refine State.modSeq_quiet s c _ hr.2.1 ?_ ?_ <;> cases flags <;> rfl
  refine s.fetch_settles _ c w hr (fun _ => hw.2.1) (fun d hd => by simp [State.seqStep_eq, hd]) ?_ ?_ ?_
  · rw [State.settleCore_step _ _ c 159 (s.offered_loud c _) (fun u hu => by rw [s.offered_eng, empty u hu]) (s.issueOne_wait c w x hr hw),
      State.settleCore_step _ _ c 158 (s.holding_loud c x hw.2.2.2.1) queues last, State.settleCore_quiet _ _ _ (quiet c c.isLt)]
  · exact State.settleCore_quiet _ _ _ (quiet c c.isLt)
  · rw [State.seqStep_eq]
    refine s.modSeq_running_steady c _ hr.2.2 ?_
    cases flags <;> exact runs

/-! ## The three waits -/

theorem waitWord_cc (c : CoreId) (w : IWord) (hd : decodeCause (Word128.withOp w 6 0x08) = 0) :
    WaitWord c (Word128.withOp w 6 0x08) (.cc (fld w 0 6) (fld w 6 31) (fld w 37 16 != 0) (Word128.sigcc w)) := by
  refine ⟨hd, by simp [isLaunch_withOp], by simp [engSEQ], by simp, fun r d hv => ?_⟩
  have timed : (fldN w 37 16 != 0) = (fld w 37 16 != 0) := by
    rw [fld_eq_ofNat_fldN, fldN, BitVec.ofNat_toNat, BitVec.setWidth_eq]
    simp [bne, BitVec.toNat_eq]
  simp only [State.issueSeq, hv, withOp_opcode, withOp_sigcc, Word128.body, withOp_fldN, BitVec.toNat_ofNat, Nat.reducePow,
    Nat.reduceMod, Nat.reduceAdd, Nat.reduceLeDiff, ← fld_eq_ofNat_fldN, timed]

theorem waitWord_queue (c : CoreId) (w : IWord) (hd : decodeCause (Word128.withOp w 6 0x09) = 0) :
    WaitWord c (Word128.withOp w 6 0x09) (.queue (fld w 0 4) (fld w 4 16 != 0) (Word128.sigcc w)) := by
  refine ⟨hd, by simp [isLaunch_withOp], by simp [engSEQ], by simp, fun r d hv => ?_⟩
  have timed : (fldN w 4 16 != 0) = (fld w 4 16 != 0) := by
    rw [fld_eq_ofNat_fldN, fldN, BitVec.ofNat_toNat, BitVec.setWidth_eq]
    simp [bne, BitVec.toNat_eq]
  simp only [State.issueSeq, hv, withOp_opcode, withOp_sigcc, Word128.body, withOp_fldN, BitVec.toNat_ofNat, Nat.reducePow,
    Nat.reduceMod, Nat.reduceAdd, Nat.reduceLeDiff, ← fld_eq_ofNat_fldN, timed]

theorem waitWord_drain (c : CoreId) (w : IWord) (hd : decodeCause (Word128.withOp w 6 0x0B) = 0) :
    WaitWord c (Word128.withOp w 6 0x0B) (.drain (fld w 0 8) (Word128.sigcc w)) := by
  refine ⟨hd, by simp [isLaunch_withOp], by simp [engSEQ], by simp, fun r d hv => ?_⟩
  simp only [State.issueSeq, hv, withOp_opcode, withOp_sigcc, Word128.body, withOp_fldN, BitVec.toNat_ofNat, Nat.reducePow,
    Nat.reduceMod, Nat.reduceAdd, Nat.reduceLeDiff, ← fld_eq_ofNat_fldN]

/-- A counter that waits for a target has reached it, or not. -/
theorem Core.waitOver_cc (k : Core) (i : BitVec 6) (t : BitVec 31) (timed : Bool) (sg : BitVec 8) (h : k.seq.wait = .cc i t timed sg) :
    k.waitOver = if ((fldN (k.seq.cc.getD i.toNat 0) 0 31 : Int) - t.toNat) % 2 ^ 31 < 2 ^ 30
      then some ((k.seq.cc.getD i.toNat 0).msb, sg, true) else none := by
  have top : bitB (k.seq.cc.getD i.toNat 0) 31 = (k.seq.cc.getD i.toNat 0).msb := (BitVec.msb_eq_getLsbD_last _).symm
  simp only [Core.waitOver, h, top, ccReached_eq, Core.cc, decide_eq_true_eq]

theorem Core.waitOver_queue (k : Core) (q : BitVec 4) (timed : Bool) (sg : BitVec 8) (h : k.seq.wait = .queue q timed sg) :
    k.waitOver = if (k.queue q.toNat).head.isSome then some (false, sg, true) else none := by
  simp only [Core.waitOver, h]

theorem Core.drained_iff (k : Core) (m : BitVec 8) : (List.range 8).all (fun n => !m.getLsbD n || k.engIdle n) = true ↔
    ∀ n, n < 8 → m.getLsbD n = true → k.engIdle n = true := by
  simp only [List.all_eq_true, List.mem_range, Bool.or_eq_true, Bool.not_eq_true', ← Bool.not_eq_true, ← imp_iff_not_or]

theorem Core.waitOver_drained (k : Core) (m : BitVec 8) (sg : BitVec 8) (h : k.seq.wait = .drain m sg)
    (idle : ∀ n, n < 8 → m.getLsbD n = true → k.engIdle n = true) : k.waitOver = some (k.seq.fErr, sg, false) := by
  simp only [Core.waitOver, h]
  exact if_pos ((k.drained_iff m).mpr idle)

theorem Core.waitOver_draining (k : Core) (m : BitVec 8) (sg : BitVec 8) (h : k.seq.wait = .drain m sg)
    (busy : ∃ n, n < 8 ∧ m.getLsbD n = true ∧ k.engIdle n = false) : k.waitOver = none := by
  obtain ⟨n, hn, hm, hb⟩ := busy
  simp only [Core.waitOver, h]
  exact if_neg (fun all => by simp [(k.drained_iff m).mp all n hn hm] at hb)

theorem State.waitOver_waitcc (s : State) (c : CoreId) (w : IWord) (timed : Bool) (sg : BitVec 8) :
    ((s.holding c (.cc (fld w 0 6) (fld w 6 31) timed sg)).core c).waitOver =
      if ((fldN ((s.core c).seq.cc.getD (fldN w 0 6) 0) 0 31 : Int) - fldN w 6 31) % 2 ^ 31 < 2 ^ 30
      then some (((s.core c).seq.cc.getD (fldN w 0 6) 0).msb, sg, true) else none := by
  rw [State.holding_core, Core.waitOver_cc _ (fld w 0 6) (fld w 6 31) timed sg rfl]
  rfl

theorem State.waitOver_waitq (s : State) (c : CoreId) (w : IWord) (timed : Bool) (sg : BitVec 8) :
    ((s.holding c (.queue (fld w 0 4) timed sg)).core c).waitOver =
      if ((s.core c).queue (fldN w 0 4)).head.isSome then some (false, sg, true) else none := by
  rw [State.holding_core, Core.waitOver_queue _ (fld w 0 4) timed sg rfl]
  rfl

/-! ## The end of a timed wait -/

/-- The wait of core c ends, late or not. -/
def State.waitEnds (s : State) (c : Nat) (err : Bool) (sg : BitVec 8) (late : Bool) : State :=
  (s.modCore c (fun k => (k.modErr (fun r => { r with waitTimeout := if late then satInc r.waitTimeout else r.waitTimeout })).modSeq
    (fun q => { q with wait := .none, fErr := err, fTmo := late }))).signal c sg false

/-- What WAIT_TIMEOUT supposes: core c has nothing but its wait, and runs. -/
def State.OnlyWaits (s : State) (c : CoreId) : Prop :=
  s.Steady ∧ s.stopped = false ∧ (∀ d, d < 8 → d ≠ c.val → (s.core d).quiet = true) ∧ (s.core c).seq.buf = [] ∧
  (s.core c).seq.ended = false ∧ ∀ u ∈ engUnits, ((s.core c).eng u).queue = []

theorem State.waitEnds_core (s : State) (c : CoreId) (err : Bool) (sg : BitVec 8) (late : Bool) : (s.waitEnds c err sg late).core c =
    ((s.core c).modErr (fun r => { r with waitTimeout := if late then satInc r.waitTimeout else r.waitTimeout })).modSeq
      (fun q => { q with wait := .none, fErr := err, fTmo := late, cc := ccAfter q.cc sg false }) := by
  simp [State.waitEnds, State.signal_eq, Core.modSeq, ccAfter_eq]

theorem State.waitEnds_others (s : State) (c : CoreId) (err : Bool) (sg : BitVec 8) (late : Bool) (d : Nat) (h : d ≠ c.val) :
    (s.waitEnds c err sg late).core d = s.core d := by
  simp [State.waitEnds, State.signal_eq, h]

theorem State.waitEnds_quiet (s : State) (c : CoreId) (err : Bool) (sg : BitVec 8) (late : Bool) (h : s.OnlyWaits c) :
    (s.waitEnds c err sg late).Quiet := by
  obtain ⟨-, -, others, buf, -, queues⟩ := h
  intro d hd
  by_cases e : d = c.val
  · rw [e, State.waitEnds_core]
    simp only [Core.quiet, Core.modSeq_eng, Bool.and_eq_true, List.all_eq_true, List.isEmpty_iff]
    refine ⟨⟨buf, rfl⟩, fun u hu => ?_⟩
    have empty := queues u hu
    cases u <;> exact empty
  · rw [s.waitEnds_others c _ _ _ d e]
    exact others d hd e

theorem State.waitEnds_steady (s : State) (c : CoreId) (err : Bool) (sg : BitVec 8) (late : Bool) (h : s.OnlyWaits c) :
    (s.waitEnds c err sg late).Steady := by
  obtain ⟨steady, -, -, -, runs, -⟩ := h
  refine State.Steady.of_running c steady (fun d => ?_) (s.waitEnds_others c err sg late) ?_ ?_ ?_
  · by_cases e : d = c.val
    · rw [e, State.waitEnds_core]
      rfl
    · rw [s.waitEnds_others c _ _ _ d e]
  · rw [State.waitEnds_core]
    exact runs
  · rw [State.waitEnds, State.signal_eq]
    rfl
  · rw [State.waitEnds, State.signal_eq]
    rfl

/-- A timed wait whose condition does not hold ends late. -/
theorem State.waitTimeout_late (s : State) (c : CoreId) (err : Bool) (sg : BitVec 8) (h : s.OnlyWaits c)
    (goes : s.timeoutWait c = ((s.modCore c (fun k => k.modErr (fun r => { r with waitTimeout := satInc r.waitTimeout }))).endWait c err true sg)) :
    exec (.waitTimeout c) s = .next (s.waitEnds c err sg true) := by
  have left : s.timeoutWait c = s.waitEnds c err sg true := by
    rw [goes, State.waitEnds, State.endWait, State.modCore_modCore]
    rfl
  have calm := h.2.1
  change execWaitTimeout c s = _
  rw [execWaitTimeout, calm, left, State.settle_quiet _ (s.waitEnds_quiet c err sg true h) (s.waitEnds_steady c err sg true h)]
  rfl

/-- A timed wait whose condition holds ends as reached. -/
theorem State.waitTimeout_reached (s : State) (c : CoreId) (err : Bool) (sg : BitVec 8) (h : s.OnlyWaits c)
    (waits : (s.core c).seq.wait ≠ .none) (ends : (s.core c).waitOver = some (err, sg, true)) :
    exec (.waitTimeout c) s = .next (s.waitEnds c err sg false) := by
  obtain ⟨steady, calm, others, buf, runs, queues⟩ := h
  have stays : s.timeoutWait c = s := by simp [State.timeoutWait, ends]
  have left : s.endWait c err false sg = s.waitEnds c err sg false := by
    rw [State.waitEnds, State.endWait]
    exact congrArg (fun x : State => x.signal c sg false) (s.modCore_congr c _ _ rfl)
  have step := State.issueOne_ends s c err sg true runs ends
  rw [if_pos rfl, left] at step
  have loud : (s.core c).quiet = false := by simp [Core.quiet, waits]
  have quiet := s.waitEnds_quiet c err sg false ⟨steady, calm, others, buf, runs, queues⟩
  have settles : s.settle = s.waitEnds c err sg false := by
    refine s.settle_core _ c calm others (fun d hd _ => quiet d hd) ?_ (State.settleCore_quiet _ _ _ (quiet c c.isLt))
      (s.waitEnds_steady c err sg false ⟨steady, calm, others, buf, runs, queues⟩)
    rw [State.settleCore_step _ _ c 159 loud queues step, State.settleCore_quiet _ _ _ (quiet c c.isLt)]
  change execWaitTimeout c s = _
  rw [execWaitTimeout, calm, stays, settles]
  rfl

/-- Settles O5: a wait ends at once or stalls, and a timed one ends late. -/
theorem waits : Obligations.Waits := by
  unfold Obligations.Waits
  refine ⟨fun c w s hr => ⟨fun hd => ?cc, fun hd => ?queue, fun hd => ?drain⟩, fun c s steady calm others buf runs queues => ?late⟩
  case cc =>
    have word := waitWord_cc c w hd
    have ends := s.waitOver_waitcc c w (fld w 37 16 != 0) (Word128.sigcc w)
    refine ⟨fun reached => ?_, fun reached => ?_⟩
    · rw [if_pos reached] at ends
      have left := s.fetch_waitOver c (Word128.withOp w 6 0x08) _ _ _ _ hr word ends
      exact congrArg Host.Outcome.next left
    · rw [if_neg reached] at ends
      have left := s.fetch_waits c (Word128.withOp w 6 0x08) _ hr word ends
      exact congrArg Host.Outcome.next left
  case queue =>
    have word := waitWord_queue c w hd
    have ends := s.waitOver_waitq c w (fld w 4 16 != 0) (Word128.sigcc w)
    refine ⟨fun some_ => ?_, fun none_ => ?_⟩
    · rw [if_pos some_] at ends
      have left := s.fetch_waitOver c (Word128.withOp w 6 0x09) _ _ _ _ hr word ends
      exact congrArg Host.Outcome.next left
    · rw [none_] at ends
      have left := s.fetch_waits c (Word128.withOp w 6 0x09) _ hr word ends
      exact congrArg Host.Outcome.next left
  case drain =>
    have word := waitWord_drain c w hd
    have same := s.holding_core c (.drain (fld w 0 8) (Word128.sigcc w))
    refine ⟨fun idle => ?_, fun busy => ?_⟩
    · have ends := Core.waitOver_drained ((s.holding c (.drain (fld w 0 8) (Word128.sigcc w))).core c) (fld w 0 8) (Word128.sigcc w)
        (by rw [same]; rfl) (by rw [same]; exact idle)
      have left := s.fetch_waitOver c (Word128.withOp w 6 0x0B) _ _ _ _ hr word ends
      exact congrArg Host.Outcome.next left
    · have ends := Core.waitOver_draining ((s.holding c (.drain (fld w 0 8) (Word128.sigcc w))).core c) (fld w 0 8) (Word128.sigcc w)
        (by rw [same]; rfl) (by rw [same]; exact busy)
      have left := s.fetch_waits c (Word128.withOp w 6 0x0B) _ hr word ends
      exact congrArg Host.Outcome.next left
  case late =>
    have alone : s.OnlyWaits c := ⟨steady, calm, others, buf, runs, queues⟩
    refine ⟨fun i x sg hw => ?_, fun q sg hw => ?_, fun hw => ?_⟩
    · have ends := Core.waitOver_cc _ i x true sg hw
      refine ⟨fun reached => ?_, fun reached => ?_⟩
      · rw [if_neg reached] at ends
        refine s.waitTimeout_late c _ sg alone ?_
        have top : bitB ((s.core c).cc i.toNat) 31 = ((s.core c).seq.cc.getD i.toNat 0).msb := (BitVec.msb_eq_getLsbD_last _).symm
        simp [State.timeoutWait, ends, hw, top]
      · rw [if_pos reached] at ends
        exact s.waitTimeout_reached c _ sg alone (by simp [hw]) ends
    · have ends := Core.waitOver_queue _ q true sg hw
      refine ⟨fun none_ => ?_, fun some_ => ?_⟩
      · rw [none_] at ends
        refine s.waitTimeout_late c _ sg alone ?_
        simp [State.timeoutWait, show (s.core c).waitOver = none from ends, hw]
      · rw [if_pos some_] at ends
        exact s.waitTimeout_reached c _ sg alone (by simp [hw]) ends
    · have quiet : s.Quiet := fun d hd => by
        by_cases e : d = c.val
        · rw [e]
          simp only [Core.quiet, buf, hw, Bool.and_eq_true, List.all_eq_true, List.isEmpty_iff]
          exact ⟨by simp, queues⟩
        · exact others d hd e
      have stays : s.timeoutWait c = s := by simp [State.timeoutWait, hw]
      change execWaitTimeout c s = _
      rw [execWaitTimeout, calm, stays, State.settle_quiet s quiet steady]
      rfl

end Sys2Proof.Machine
end

section
/-! PROOFS. O2 SeqSubstitutedResults. -/

namespace Sys2Proof.Machine

set_option Elab.async false -- in turn: many waiting threads need much memory

/-! ## The three instructions with substitution -/

theorem fldN_lt {n : Nat} (w : BitVec n) (lo len : Nat) : fldN w lo len < 2 ^ len := BitVec.isLt _

theorem SeqState.regOp_setar (q : SeqState) (rank : Nat) (w : IWord) :
    q.regOp rank (Word128.withOp w 6 0x18) =
      (let v : Int := (fldN w 5 56 : Int) + (if bitB w 107 then rank else 0 : Nat) * (q.as_.getD (fldN w 0 5) 0).toInt
       if 0 ≤ v ∧ v < 2 ^ 56 then ({ q with ar := vmod q.ar (fldN w 0 5) (fun _ => BitVec.ofInt 56 v) }, 0) else (q, 0x1D)) := by
  have sub : Word128.pcs w = bitB w 107 := rfl
  simp only [SeqState.regOp, withOp_opcode, withOp_pcs, sub, withOp_fldN, Word128.body, BitVec.toNat_ofNat, Nat.reducePow,
    Nat.reduceMod, Nat.reduceAdd, Nat.reduceLeDiff]
  cases bitB w 107 <;> simp

theorem SeqState.regOp_setgr (q : SeqState) (rank : Nat) (w : IWord) :
    q.regOp rank (Word128.withOp w 6 0x1B) =
      (let v : Nat := fldN w 4 64 + (if bitB w 107 then rank else 0)
       if v < 2 ^ 64 then ({ q with gr := vmod q.gr (fldN w 0 4) (fun _ => BitVec.ofNat 64 v) }, 0) else (q, 0x1D)) := by
  have sub : Word128.pcs w = bitB w 107 := rfl
  simp only [SeqState.regOp, withOp_opcode, withOp_pcs, sub, withOp_fldN, Word128.body, BitVec.toNat_ofNat, Nat.reducePow,
    Nat.reduceMod, Nat.reduceAdd, Nat.reduceLeDiff]

theorem SeqState.regOp_kcgset (q : SeqState) (rank : Nat) (w : IWord) :
    q.regOp rank (Word128.withOp w 6 0x2A) =
      (let v : Nat := fldN w 0 24 + (if bitB w 107 then rank else 0)
       if v < 2 ^ 24 then ({ q with kcg := ⟨fld w 24 64, BitVec.ofNat 24 v⟩ }, 0) else (q, 0x1D)) := by
  have sub : Word128.pcs w = bitB w 107 := rfl
  simp only [SeqState.regOp, withOp_opcode, withOp_pcs, sub, withOp_fldN, Word128.body, BitVec.toNat_ofNat, Nat.reducePow,
    Nat.reduceMod, Nat.reduceAdd, Nat.reduceLeDiff, ← fld_eq_ofNat_fldN]

/-! ## A word of the ring on a member -/

/-- Core c has taken the word d from the ring into its buffer. -/
def State.received (s : State) (c : Nat) (d : Decoded) (rest : List Decoded) : State :=
  s.modCore c (fun k => { k.modSeq (fun q => { q with buf := [d] }) with ringIn := rest })

theorem State.received_core (s : State) (c : CoreId) (d : Decoded) (rest : List Decoded) : (s.received c d rest).core c =
    { (s.core c).modSeq (fun q => { q with buf := [d] }) with ringIn := rest } := by
  simp [State.received]

theorem State.member_empty (s : State) (c : CoreId) (hm : s.Member c) :
    (s.core c).seq.buf = [] ∧ (s.core c).seq.wait = .none ∧ ∀ u ∈ engUnits, ((s.core c).eng u).queue = [] := by
  obtain ⟨-, -, -, -, quiet, -⟩ := hm
  have hq := quiet c c.isLt
  simp only [Core.quiet, Bool.and_eq_true, beq_iff_eq, List.isEmpty_iff, List.all_eq_true] at hq
  exact ⟨hq.1.1, hq.1.2, hq.2⟩

/-- The SEQ word that the ring brings issues at once, and the state that it leaves is settled. -/
theorem State.delivery_issues (s s' : State) (c : CoreId) (d : Decoded) (rest : List Decoded) (hm : s.Member c)
    (hr : (s.core c).ringIn = d :: rest) (hd : d.cause = 0) (hl : isLaunch d.word = false) (he : d.word.engine.toNat = engSEQ)
    (hi : (s.received c d rest).issueSeq c d true = .done_ s') (quiet : (s'.tookWords c 1 true).Quiet)
    (steady : (s'.tookWords c 1 true).Steady) : exec (.broadcastDelivery c) s = .next (s'.tookWords c 1 true) := by
  obtain ⟨buf, nowait, queues⟩ := s.member_empty c hm
  obtain ⟨calm, bcast, going, runs, others, -⟩ := hm
  have taken : s.deliver c = (s.received c d rest).settle := by
    have room : (s.core c).seq.buf.length < 64 := by simp [buf]
    unfold State.deliver
    rw [hr]
    dsimp only
    rw [if_pos room]
    refine congrArg State.settle (s.modCore_congr c _ _ ?_)
    simp [Core.modSeq, buf]
  have same := s.received_core c d rest
  have issue : (s.received c d rest).issueOne c = (s'.tookWords c 1 true, true) := by
    unfold State.issueOne
    simp only [same, Core.modSeq, Core.waitOver, going, runs, nowait, bcast, hd, hl, he, hi, Bool.or_self, Bool.false_eq_true, if_false,
      ne_eq, not_true_eq_false, if_true, bne, beq_self_eq_true, Bool.not_true]
  have settled : (s.received c d rest).settle = s'.tookWords c 1 true := by
    refine State.settle_issue _ _ c c.isLt ?_ (fun x hx hne => ?_) calm ?_ quiet steady
    · rw [same]
      simp [Core.quiet, Core.modSeq]
    · rw [State.received, State.core_modCore, if_neg (fun e => hne e.1)]
      exact others x hx
    · rw [State.engineSide_idle _ _ (fun u hu => ?_), issue]
      rw [same]
      have empty := queues u hu
      cases u <;> exact empty
  change execBroadcastDelivery c s = _
  rw [execBroadcastDelivery, calm, taken, settled]
  rfl

theorem State.issueSeq_register (s : State) (c : Nat) (d : Decoded) (b : Bool) (ho : d.word.opcode.toNat ∈ [0x18, 0x1B, 0x2A]) :
    s.issueSeq c d b =
      (let q := entryOf (s.core c) d.pc d.word b none none
       let r := (s.core c).seq.regOp (s.core c).subRank d.word
       if r.2 ≠ 0 then .done_ (s.skipWord c q q .cache r.2 true)
       else .done_ ((s.modCore c (fun k => { k with seq := r.1 })).signal c d.word.sigcc false)) := by
  simp only [List.mem_cons, List.not_mem_nil, or_false] at ho
  unfold State.issueSeq
  rcases ho with h | h | h <;> simp only [h]

/-- The rank of a member is added (R52). -/
theorem State.subRank_received (s : State) (c : CoreId) (d : Decoded) (rest : List Decoded) (hm : s.Member c) :
    ((s.received c d rest).core c).subRank = (s.core c).id.rank.toNat := by
  have bcast : (s.core c).id.bcast = true := hm.2.1
  simp [State.received_core, Core.subRank, Core.modSeq, bcast]

/-- The step of a member: f on its registers, the next word of the ring, and a credit to give back. -/
def State.memberStep (s : State) (c : Nat) (f : SeqState → SeqState) (rest : List Decoded) (sg : BitVec 8) : State :=
  (s.modCore c (fun k => { k.modSeq (fun q => { f q with stall := .none }) with
    ringIn := rest, creditsBack := k.creditsBack + 1 })).signal c sg false

theorem State.memberStep_eq (s : State) (c : Nat) (f : SeqState → SeqState) (rest : List Decoded) (sg : BitVec 8) :
    s.memberStep c f rest sg = s.modCore c (fun k => { k.modSeq (fun q => { f q with stall := .none, cc := ccAfter (f q).cc sg false }) with
      ringIn := rest, creditsBack := k.creditsBack + 1 }) := by
  rw [State.memberStep, State.signal_eq, State.modCore_modCore]
  rfl

/-- A change of one core that keeps its identity, its queues and its waiting words leaves a member's state quiet and steady. -/
theorem State.member_settled (s : State) (c : CoreId) (g : Core → Core) (go : Goose) (hm : s.Member c)
    (id : (g (s.core c)).id = (s.core c).id) (eng : ∀ u, (g (s.core c)).eng u = (s.core c).eng u)
    (buf : (g (s.core c)).seq.buf = []) (wait : (g (s.core c)).seq.wait = .none) (runs : (g (s.core c)).seq.ended = false) :
    ((s.modCore c g).withGoose go).Quiet ∧ ((s.modCore c g).withGoose go).Steady := by
  have here := s.skipped_core c g go
  have others := s.skipped_others c g go
  obtain ⟨-, -, queues⟩ := s.member_empty c hm
  obtain ⟨-, -, -, -, quiet, steady⟩ := hm
  refine ⟨State.Quiet.congr c quiet others ?_, State.Steady.of_running c steady (fun d => ?_) others ?_ rfl rfl⟩
  · rw [here]
    simp only [Core.quiet, buf, wait, eng, Bool.and_eq_true, List.all_eq_true, List.isEmpty_iff]
    exact ⟨by simp, queues⟩
  · by_cases e : d = c
    · rw [e, here, id]
    · rw [others d e]
  · rw [here]
    exact runs

/-- The ring brings a word that sets a register. -/
theorem State.delivery_sets (s : State) (c : CoreId) (d : Decoded) (rest : List Decoded) (w : IWord) (o : Nat) (f : SeqState → SeqState)
    (hm : s.Member c) (hr : (s.core c).ringIn = d :: rest) (hd : d.cause = 0) (hw : d.word = Word128.withOp w 6 o)
    (ho : o ∈ [0x18, 0x1B, 0x2A])
    (hreg : ∀ q : SeqState, q.as_ = (s.core c).seq.as_ → q.regOp (s.core c).id.rank.toNat d.word = (f q, 0))
    (hf : ∀ q : SeqState, (f q).wait = q.wait ∧ (f q).ended = q.ended)
    (hc : ∀ (q : SeqState) b, f { q with buf := b } = { f q with buf := b }) :
    exec (.broadcastDelivery c) s = .next (s.memberStep c f rest (Word128.sigcc w)) := by
  have small : o < 256 ∧ o ≠ 0x28 := by
    simp only [List.mem_cons, List.not_mem_nil, or_false] at ho
    omega
  have opc : (Word128.opcode d.word).toNat = o := by simpa [hw] using small.1
  have hl : isLaunch d.word = false := by
    rw [hw, isLaunch_withOp]
    simpa using fun h => small.2 (by omega)
  obtain ⟨buf, nowait, -⟩ := s.member_empty c hm
  have runs : (s.core c).seq.ended = false := hm.2.2.2.1
  have issue := State.issueSeq_register (s.received c d rest) c d true (by rwa [opc])
  rw [s.subRank_received c d rest hm, hreg _ (by rw [State.received_core]; rfl)] at issue
  dsimp only at issue
  rw [if_neg (by simp)] at issue
  have left : ∀ v : BitVec 8, ((((s.received c d rest).modCore c (fun k => { k with seq := f ((s.received c d rest).core c).seq })).signal c v
      false).tookWords c 1 true) = s.memberStep c f rest v := by
    intro v
    rw [State.memberStep_eq, State.signal_eq, State.tookWords, State.received_core, State.received]
    simp only [State.modCore_modCore]
    refine s.modCore_congr c _ _ ?_
    have clear := hc (s.core c).seq [d]
    have kept : (f (s.core c).seq).buf = [] := (congrArg SeqState.buf (hc (s.core c).seq (s.core c).seq.buf)).trans buf
    simp only [Core.modSeq, clear, ccAfter_eq, List.drop_one, List.tail_cons, if_true]
    rw [← kept]
  have sg : Word128.sigcc d.word = Word128.sigcc w := by rw [hw, withOp_sigcc]
  rw [sg] at issue
  obtain ⟨quiet, steady⟩ := s.member_settled c (fun k => { k.modSeq (fun q => { f q with stall := .none, cc := ccAfter (f q).cc (Word128.sigcc w) false }) with
      ringIn := rest, creditsBack := k.creditsBack + 1 }) s.goose hm rfl (fun u => by cases u <;> rfl)
    ((congrArg SeqState.buf (hc (s.core c).seq (s.core c).seq.buf)).trans buf) ((hf _).1.trans nowait) ((hf _).2.trans runs)
  have moved := left (Word128.sigcc w)
  rw [← moved]
  refine s.delivery_issues _ c d rest hm hr hd hl (by simp [hw, engSEQ]) issue ?_ ?_
  · rw [moved, State.memberStep_eq]
    exact quiet
  · rw [moved, State.memberStep_eq]
    exact steady

/-- What a substitution outside its field leaves of the member that skips the word. -/
def Core.substSkipped (k : Core) (q : QEntry) (now : BitVec 64) (supp : BitVec 8) (budget : List (BitVec 64)) (rest : List Decoded) : Core :=
  { ((k.recorded q 0x1D false now).charged supp budget).modSeq (fun r => { r with stall := .none, cc := ccAfter r.cc q.sigcc true }) with
    ringIn := rest, creditsBack := k.creditsBack + 1 }

theorem Core.substSkipped_eng (k : Core) (q : QEntry) (now : BitVec 64) (supp : BitVec 8) (budget : List (BitVec 64))
    (rest : List Decoded) (u : EngUnit) : (k.substSkipped q now supp budget rest).eng u = k.eng u := by cases u <;> rfl

/-- The ring brings a word whose substituted value lies outside its field. -/
theorem State.delivery_skips (s : State) (c : CoreId) (d : Decoded) (rest : List Decoded) (w : IWord) (o : Nat)
    (hm : s.Member c) (hr : (s.core c).ringIn = d :: rest) (hd : d.cause = 0) (hw : d.word = Word128.withOp w 6 o)
    (ho : o ∈ [0x18, 0x1B, 0x2A])
    (hreg : ∀ q : SeqState, q.as_ = (s.core c).seq.as_ → (q.regOp (s.core c).id.rank.toNat d.word).2 = 0x1D) :
    ∃ t, exec (.broadcastDelivery c) s = .next t ∧ (t.core c).err.leCause = 0x1D ∧
      (t.core c).err.leRank = (s.core c).id.rank ∧ (t.core c).err.inconsistent = satInc (s.core c).err.inconsistent ∧
      (t.core c).seq.ar = (s.core c).seq.ar ∧ (t.core c).seq.gr = (s.core c).seq.gr ∧ (t.core c).seq.kcg = (s.core c).seq.kcg ∧
      (t.core c).seq.cc = ccAfter (s.core c).seq.cc (Word128.sigcc w) true ∧ (t.core c).ringIn = rest := by
  have small : o < 256 ∧ o ≠ 0x28 := by
    simp only [List.mem_cons, List.not_mem_nil, or_false] at ho
    omega
  have opc : (Word128.opcode d.word).toNat = o := by simpa [hw] using small.1
  have hl : isLaunch d.word = false := by
    rw [hw, isLaunch_withOp]
    simpa using fun h => small.2 (by omega)
  obtain ⟨buf, nowait, -⟩ := s.member_empty c hm
  have runs : (s.core c).seq.ended = false := hm.2.2.2.1
  have issue := State.issueSeq_register (s.received c d rest) c d true (by rwa [opc])
  rw [s.subRank_received c d rest hm] at issue
  have fails := hreg ((s.received c d rest).core c).seq (by rw [State.received_core]; rfl)
  dsimp only at issue
  rw [fails, if_pos (by decide)] at issue
  obtain ⟨q, hq⟩ : ∃ q, q = entryOf ((s.received c d rest).core c) d.pc d.word true none none := ⟨_, rfl⟩
  have sg : q.sigcc = Word128.sigcc w := by rw [hq, entryOf, hl, hw, withOp_sigcc]; rfl
  rw [← hq] at issue
  obtain ⟨supp, budget, g, recd⟩ := State.recordSkip_recorded (s.received c d rest) c q 0x1D false
  have left : ((s.received c d rest).skipWord c q q .cache 0x1D true).tookWords c 1 true =
      (s.modCore c (fun k => k.substSkipped q s.now supp budget rest)).withGoose g := by
    simp only [State.skipWord, if_true, State.signal_eq, State.tookWords]
    rw [recd]
    simp only [State.withGoose_modCore, State.received, State.modCore_modCore]
    refine congrArg (fun x : State => x.withGoose g) (State.modCore_congr s c _ _ ?_)
    simp [Core.substSkipped, Core.recorded, Core.charged, Core.modSeq, ccAfter_eq, buf, State.now, State.modCore]
  have here := s.skipped_core c (fun k => k.substSkipped q s.now supp budget rest) g
  obtain ⟨quiet, steady⟩ := s.member_settled c (fun k => k.substSkipped q s.now supp budget rest) g hm rfl
    (fun u => Core.substSkipped_eng _ _ _ _ _ _ u) buf nowait runs
  rw [← left] at quiet steady
  have goes := s.delivery_issues _ c d rest hm hr hd hl (by simp [hw, engSEQ]) issue quiet steady
  rw [left] at goes
  refine ⟨_, goes, ?_⟩
  rw [here, ← sg]
  exact ⟨rfl, rfl, rfl, rfl, rfl, rfl, rfl, rfl⟩

/-- Settles O2: the substituted value goes into the register, or the word is skipped. -/
theorem seqSubstitutedResults : Obligations.SeqSubstitutedResults := by
  unfold Obligations.SeqSubstitutedResults
  intro c w s
  refine ⟨fun hr => ⟨fun hd => ?setar, fun hd => ?setgr, fun hd => ?kcgset⟩, fun d rest hm hring hd => ?member⟩
  case setar =>
    refine congrArg Host.Outcome.next (s.fetch_regOp c w _ _ hr hd (by decide) (fun q => ?_) (fun _ => ⟨rfl, rfl, rfl⟩) (fun _ _ _ => rfl))
    have bound := fldN_lt w 5 56
    have value : BitVec.ofInt 56 (fldN w 5 56 : Int) = fld w 5 56 := by rw [BitVec.ofInt_natCast, fld_eq_ofNat_fldN]
    simp only [SeqState.regOp_setar, ite_self, Nat.cast_zero, zero_mul, add_zero, value]
    exact if_pos ⟨by omega, by omega⟩
  case setgr =>
    refine congrArg Host.Outcome.next (s.fetch_regOp c w _ _ hr hd (by decide) (fun q => ?_) (fun _ => ⟨rfl, rfl, rfl⟩) (fun _ _ _ => rfl))
    simp only [SeqState.regOp_setgr, ite_self, add_zero, ← fld_eq_ofNat_fldN]
    exact if_pos (fldN_lt w 4 64)
  case kcgset =>
    refine congrArg Host.Outcome.next (s.fetch_regOp c w _ _ hr hd (by decide) (fun q => ?_) (fun _ => ⟨rfl, rfl, rfl⟩) (fun _ _ _ => rfl))
    simp only [SeqState.regOp_kcgset, ite_self, add_zero, ← fld_eq_ofNat_fldN]
    exact if_pos (fldN_lt w 0 24)
  case member =>
    intro rank va vg vk sets skips
    refine ⟨fun hw => ⟨fun lo hi => ?_, fun out => ?_⟩, fun hw => ⟨fun hi => ?_, fun out => ?_⟩, fun hw => ⟨fun hi => ?_, fun out => ?_⟩⟩
    · refine s.delivery_sets c d rest w 0x18 _ hm hring hd hw (by decide) (fun q has => ?_) (fun _ => ⟨rfl, rfl⟩) (fun _ _ => rfl)
      rw [hw, SeqState.regOp_setar, has]
      exact if_pos ⟨lo, hi⟩
    · refine s.delivery_skips c d rest w 0x18 hm hring hd hw (by decide) (fun q has => ?_)
      rw [hw, SeqState.regOp_setar, has]
      exact congrArg Prod.snd (if_neg (fun inside =>
        out.elim (fun h => absurd inside.1 (not_le.mpr h)) (fun h => absurd inside.2 (not_lt.mpr h))))
    · refine s.delivery_sets c d rest w 0x1B _ hm hring hd hw (by decide) (fun q has => ?_) (fun _ => ⟨rfl, rfl⟩) (fun _ _ => rfl)
      rw [hw, SeqState.regOp_setgr]
      exact if_pos hi
    · refine s.delivery_skips c d rest w 0x1B hm hring hd hw (by decide) (fun q has => ?_)
      rw [hw, SeqState.regOp_setgr]
      exact congrArg Prod.snd (if_neg (Nat.not_lt.mpr out))
    · refine s.delivery_sets c d rest w 0x2A _ hm hring hd hw (by decide) (fun q has => ?_) (fun _ => ⟨rfl, rfl⟩) (fun _ _ => rfl)
      rw [hw, SeqState.regOp_kcgset]
      exact if_pos hi
    · refine s.delivery_skips c d rest w 0x2A hm hring hd hw (by decide) (fun q has => ?_)
      rw [hw, SeqState.regOp_kcgset]
      exact congrArg Prod.snd (if_neg (Nat.not_lt.mpr out))

end Sys2Proof.Machine
end

section
/-! PROOFS. O4 ProgramEnds fails: a fetch past the last word ends a broadcast group that counts the core among its members. -/

namespace Sys2Proof.Machine

set_option Elab.async false -- in turn: many waiting threads need much memory

/-- Core 0 runs in independent mode and has run past the last word. -/
def beyondCore : Core := { id := { active := true }, seq := { pc := 131072 } }

/-- Core 1 is in broadcast mode, in the group of cores 0 and 1, and has ended. -/
def endedMember : Core := { id := { active := true, bcast := true, groupSize := 1 }, seq := { ended := true } }

/-- The state after reset with these two cores: the group of core 1 waits for core 0 alone. -/
def beyondState : State := { State.reset with cores := vmod (vmod State.reset.cores 0 (fun _ => beyondCore)) 1 (fun _ => endedMember) }

theorem beyondState_quiet : beyondState.Quiet := by
  unfold State.Quiet
  decide +kernel

theorem beyondState_steady : beyondState.Steady := by
  unfold State.Steady
  decide +kernel

/-- As core 0 ends, the whole group of core 1 has ended, and its ACTIVE falls. -/
theorem endedMember_inactive : ((beyondState.fetchBeyond 0).core 1).id.active = false := by decide +kernel

/-- Refutes O4: FETCH_BEYOND_END on core 0 takes ACTIVE from core 1 too. -/
theorem not_programEnds : ¬ Obligations.ProgramEnds := by
  unfold Obligations.ProgramEnds
  rintro ⟨-, -, beyond⟩
  obtain ⟨t, run, -, -, -, -, -, -, -, -, -, others, -⟩ := beyond 0 beyondState (by decide +kernel) beyondState_quiet beyondState_steady
    (by decide +kernel) (by decide +kernel) (by decide +kernel) (by decide +kernel) (by decide +kernel) (by decide +kernel)
  obtain rfl : beyondState.fetchBeyond 0 = t := Host.Outcome.next.inj run
  have same := congrArg (fun k : Core => k.id.active) (others 1 (by decide))
  rw [endedMember_inactive] at same
  exact absurd same (by decide +kernel)

end Sys2Proof.Machine
end

section
/-! PROOFS. O9 EngineWords. -/

namespace Sys2Proof.Machine

set_option Elab.async false -- in turn: many waiting threads need much memory

/-! ## Engines whose heads wait -/

/-- No engine of core c has anything to do by itself: heads are operations, and the MSG and gather queues are empty. -/
def Core.headsWait (k : Core) : Prop :=
  (∀ u ∈ engUnits, ∀ q r, (k.eng u).queue = q :: r → q.op.isSome = true) ∧ k.msgq.queue = [] ∧ k.gath.queue = []

theorem State.dropNulls_waits (s : State) (c : Nat) (u : EngUnit) (n : Nat)
    (h : ∀ q r, ((s.core c).eng u).queue = q :: r → q.op.isSome = true) : State.dropNulls c u n s = s := by
  cases n with
  | zero => rfl
  | succ n =>
    unfold State.dropNulls
    split
    · next q r hq =>
      have op := h q r hq
      simp [Option.isNone_iff_eq_none, Option.isSome_iff_ne_none.mp op]
    · rfl

theorem State.foldl_stays {α : Type} (s : State) (l : List α) (f : State → α → State) (h : ∀ x ∈ l, f s x = s) : l.foldl f s = s := by
  induction l with
  | nil => rfl
  | cons x l ih =>
    rw [List.foldl_cons, h x List.mem_cons_self]
    exact ih (fun y hy => h y (List.mem_cons_of_mem x hy))

theorem State.engineSide_waits (s : State) (c : Nat) (h : (s.core c).headsWait) : s.engineSide c = s := by
  obtain ⟨heads, msg, gath⟩ := h
  have drop : (engUnits.filter (fun u => !((s.core c).eng u).queue.isEmpty)).foldl (fun s u => State.dropNulls c u 16 s) s = s :=
    s.foldl_stays _ _ (fun u hu => s.dropNulls_waits c u 16 (heads u (List.mem_of_mem_filter hu)))
  unfold State.engineSide
  dsimp only
  rw [drop]
  simp [msg, gath]

/-- With no word to issue the issue side does nothing. -/
theorem State.issueOne_empty (s : State) (c : Nat) (buf : (s.core c).seq.buf = []) (wait : (s.core c).seq.wait = .none)
    (stall : (s.core c).seq.stall = .none) : s.issueOne c = (s, false) := by
  have same : s.modCore c (fun k => k.modSeq (fun x => { x with stall := .none })) = s := by
    rw [s.modCore_congr c _ (fun k => k), State.modCore_id]
    simp only [Core.modSeq, ← stall]
  unfold State.issueOne
  simp only [Core.waitOver, wait, buf]
  split
  · rfl
  · split
    · rfl
    · exact congrArg (fun x => (x, false)) same

/-- A core whose engines' heads wait and that has no word to issue stays as it is. -/
theorem State.settleCore_waits (s : State) (c n : Nat) (h : (s.core c).headsWait) (buf : (s.core c).seq.buf = [])
    (wait : (s.core c).seq.wait = .none) (stall : (s.core c).seq.stall = .none) : State.settleCore c n s = s := by
  cases n with
  | zero => rfl
  | succ n =>
    rw [State.settleCore, State.engineSide_waits s c h, s.issueOne_empty c buf wait stall]
    simp

/-! ## The rows of the engines -/

theorem exec_engineRow : ∀ row ∈ engineRows, ∀ (c : CoreId) (w : IWord) (s : State),
    exec (row.1 c w) s = .next (s.fetch c (Word128.withOp w row.2.1 row.2.2)) := by
  intro row hrow
  fin_cases hrow <;> exact fun _ _ _ => rfl

theorem engineRow_engine : ∀ row ∈ engineRows, row.2.1 ∈ [0, 1, 2, 3, 5] := by
  intro row hrow
  fin_cases hrow <;> decide

theorem unitOf_engineRow (w : IWord) (e o : Nat) (h : e ∈ [0, 1, 2, 3, 5]) :
    unitOf (Word128.withOp w e o) ∈ engUnits ∧ unitOf (Word128.withOp w e o) ≠ .msg ∧ unitOf (Word128.withOp w e o) ≠ .gath := by
  simp only [List.mem_cons, List.not_mem_nil, or_false] at h
  rcases h with rfl | rfl | rfl | rfl | rfl <;> simp [unitOf, engUnits]
  unfold muleUnit
  split <;> simp

/-! ## The issue of an engine word -/

theorem State.issueOne_engine (s s' : State) (c : CoreId) (d : Decoded) (h : s.Takes c) (hq : s.Quiet) (hd : d.cause = 0)
    (hl : isLaunch d.word = false) (he : d.word.engine.toNat ≠ engSEQ) (hi : (s.offered c d).issueEngine c d none false = .done_ s') :
    (s.offered c d).issueOne c = (s'.tookWords c 1 false, true) := by
  obtain ⟨-, indep, going, runs, -, -, -⟩ := h
  have hqc := hq c.val c.isLt
  simp only [Core.quiet, Bool.and_eq_true, beq_iff_eq] at hqc
  have nowait : (s.core c).seq.wait = SeqWait.none := hqc.1.2
  unfold State.issueOne
  simp only [State.offered_core s c d c.isLt, Core.modSeq, Core.waitOver, indep, going, runs, nowait, Bool.or_self, Bool.false_eq_true,
    if_false, hd, ne_eq, not_true_eq_false, hl, he, hi, bne, beq_self_eq_true, Bool.not_true]

/-- A word that passes its checks enters its unit's queue. -/
theorem State.issueEngine_passes (s : State) (c : Nat) (d : Decoded) (b : Bool) (w : IWord) (r : IssueRes) (hw : d.word = w)
    (res : r = s.resolve c w) (room : (s.core c).queueFull (unitOf w) = false) (passes : r.cause = 0)
    (free : (s.core c).seq.sbStalls (liveRanges r.claims) = false) (fits : (s.core c).seq.sb.length + (liveRanges r.claims).length ≤ 64) :
    s.issueEngine c d none b = .done_
      (((s.modCore c (fun x => x.modSeq (fun q => q.claim (s.core c).seq.nextId (liveRanges r.claims)))).noteLdw c r.op).enqueue c (unitOf w)
        (entryOf (s.core c) d.pc w b none (some r.op))) := by
  have fits' : ¬ 64 < (s.core c).seq.sb.length + (liveRanges r.claims).length := by omega
  subst hw res
  unfold State.issueEngine
  simp only [Option.map_none, room, Bool.false_eq_true, if_false, passes, ne_eq, not_true_eq_false, free, fits', decide_false, Bool.or_self]

/-- A word that fails a check is skipped with a null entry. -/
theorem State.issueEngine_fails (s : State) (c : Nat) (d : Decoded) (b : Bool) (w : IWord) (r : IssueRes) (hw : d.word = w)
    (res : r = s.resolve c w) (room : (s.core c).queueFull (unitOf w) = false) (fails : r.cause ≠ 0) :
    s.issueEngine c d none b = .done_ (s.skipWord c (entryOf (s.core c) d.pc w b none none) (entryOf (s.core c) d.pc w b none none)
      (unitOf w) r.cause false) := by
  subst hw res
  unfold State.issueEngine
  simp only [Option.map_none, room, Bool.false_eq_true, if_false, fails, ne_eq, not_false_eq_true, if_true]

/-- The planes' record of an LDW that has issued. -/
def SeqState.noteLdw (q : SeqState) (op : EngOp) : SeqState :=
  { q with ldwRec := match op with
      | .ldw _ _ plane fmt k n => vmod q.ldwRec (b2n plane) (fun _ => some (k, n, fmt))
      | _ => q.ldwRec }

theorem State.noteLdw_eq (s : State) (c : Nat) (op : EngOp) : s.noteLdw c op = s.modCore c (fun k => k.modSeq (fun q => q.noteLdw op)) := by
  unfold State.noteLdw
  split
  · rfl
  · next h =>
    rw [s.modCore_congr c _ (fun k => k), State.modCore_id]
    have same : (s.core c).seq.noteLdw op = (s.core c).seq := by
      unfold SeqState.noteLdw
      split
      · next src scale plane fmt k n => exact absurd rfl (h src scale plane fmt k n)
      · rfl
    simp only [Core.modSeq, same]

/-- Waking clocks changes at most what the power block says of them. -/
theorem State.wakeClocks_cases (s : State) (c : Nat) (u : EngUnit) (q : QEntry) :
    s.wakeClocks c u q = s ∨ s.wakeClocks c u q = s.modPwr (fun p => { p with idleStopped := clrBit p.idleStopped c }) := by
  unfold State.wakeClocks
  dsimp only
  generalize (_ && s.pwr.idleStopped.getLsbD c) = wakes
  cases wakes
  · exact .inl rfl
  · exact .inr rfl

theorem State.wakeClocks_core (s : State) (c d : Nat) (u : EngUnit) (q : QEntry) : (s.wakeClocks c u q).core d = s.core d := by
  rcases s.wakeClocks_cases c u q with h | h
  · rw [h]
  · rw [h]
    rfl

theorem State.wakeClocks_rest (s : State) (c : Nat) (u : EngUnit) (q : QEntry) :
    (s.wakeClocks c u q).parts = s.parts ∧ (s.wakeClocks c u q).eth = s.eth := by
  rcases s.wakeClocks_cases c u q with h | h <;> rw [h] <;> exact ⟨rfl, rfl⟩

theorem State.wakeClocks_modCore (s : State) (c d : Nat) (u : EngUnit) (q : QEntry) (f : Core → Core) :
    (s.wakeClocks c u q).modCore d f = (s.modCore d f).wakeClocks c u q := by
  unfold State.wakeClocks
  dsimp only
  have clock : (s.modCore d f).now = s.now := rfl
  have stopped : (s.modCore d f).pwr = s.pwr := rfl
  rw [clock, stopped]
  generalize (_ && s.pwr.idleStopped.getLsbD c) = wakes
  cases wakes <;> rfl

theorem Core.modEng_modSeq (k : Core) (u : EngUnit) (g : EngQueue → EngQueue) (f : SeqState → SeqState) :
    (k.modSeq f).modEng u g = (k.modEng u g).modSeq f := by cases u <;> rfl

theorem Core.modSeq_modSeq (k : Core) (f g : SeqState → SeqState) : (k.modSeq f).modSeq g = k.modSeq (fun q => g (f q)) := rfl

theorem Core.modEng_congr (k : Core) (u : EngUnit) (f g : EngQueue → EngQueue) (h : f (k.eng u) = g (k.eng u)) :
    k.modEng u f = k.modEng u g := by
  have mule : ∀ n, f (k.mule.getD n {}) = g (k.mule.getD n {}) → vmod k.mule n f = vmod k.mule n g := by
    intro n h
    unfold vmod
    split
    · next hn => simpa [Vector.getD, hn] using congrArg (fun x => k.mule.set n x) h
    · rfl
  cases u <;> simp only [Core.eng] at h <;> simp only [Core.modEng]
  all_goals first | rw [h] | rw [mule _ h]

/-- What an engine word that passes leaves of its core. -/
def Core.queued (k : Core) (u : EngUnit) (q : QEntry) (rs : List Range) (op : EngOp) : Core :=
  (k.modEng u (fun e => { e with queue := [q] })).modSeq (fun x =>
    { x with pc := x.pc + 1, stall := .none, nextId := x.nextId + 1, sb := x.sb ++ rs.map (fun g => g.entry x.nextId),
             ldwRec := (x.noteLdw op).ldwRec })

theorem Core.modSeq_congr (k : Core) (f g : SeqState → SeqState) (h : f k.seq = g k.seq) : k.modSeq f = k.modSeq g := by
  simp only [Core.modSeq, h]

theorem Core.seq_modEng (k : Core) (u : EngUnit) (f : EngQueue → EngQueue) : (k.modEng u f).seq = k.seq := by cases u <;> rfl

theorem State.tookWords_indep (s : State) (c n : Nat) :
    s.tookWords c n false = s.modCore c (fun k => k.modSeq (fun q => { q with buf := q.buf.drop n, stall := .none })) := rfl

/-- The state an engine word leaves as it issues. -/
theorem State.offered_queues (s : State) (c : CoreId) (d : Decoded) (u : EngUnit) (q : QEntry) (rs : List Range) (op : EngOp)
    (hr : s.Ready c) (hu : u ∈ engUnits) :
    (((((s.offered c d).modCore c (fun x => x.modSeq (fun q => q.claim (s.core c).seq.nextId rs))).noteLdw c op).enqueue c u q).tookWords c 1 false)
      = (s.modCore c (fun k => k.queued u q rs op)).wakeClocks c u q := by
  obtain ⟨buf, -, held, queues⟩ := s.ready_empty c hr
  rw [State.tookWords_indep, State.enqueue, State.wakeClocks_modCore, State.noteLdw_eq, State.bumpId, State.offered]
  simp only [State.modCore_modCore]
  refine congrArg (fun x : State => x.wakeClocks c u q) (s.modCore_congr c _ _ ?_)
  have entry : (s.core c).modEng u (fun e => { e with queue := e.queue ++ [q] }) = (s.core c).modEng u (fun e => { e with queue := [q] }) :=
    (s.core c).modEng_congr u _ _ (by rw [queues u hu, List.nil_append])
  simp only [Core.modEng_modSeq, Core.modSeq_modSeq, Core.queued, entry]
  refine Core.modSeq_congr _ _ _ ?_
  rw [Core.seq_modEng]
  simp [SeqState.claim, SeqState.noteLdw, buf, held]

/-- The queues of a unit after a change of one. -/
theorem Core.eng_modEng (k : Core) (u v : EngUnit) (f : EngQueue → EngQueue) :
    (k.modEng u f).eng v = if v = u then f (k.eng u) else k.eng v := by
  cases u <;> cases v <;> simp [Core.modEng, Core.eng]

theorem Core.queued_eng (k : Core) (u v : EngUnit) (q : QEntry) (rs : List Range) (op : EngOp) :
    (k.queued u q rs op).eng v = if v = u then { k.eng u with queue := [q] } else k.eng v := by
  rw [Core.queued, Core.modSeq_eng, Core.eng_modEng]

theorem Core.id_modEng (k : Core) (u : EngUnit) (f : EngQueue → EngQueue) : (k.modEng u f).id = k.id := by cases u <;> rfl

theorem State.offered_room (s : State) (c : CoreId) (d : Decoded) (u : EngUnit) (hr : s.Ready c) (hu : u ∈ engUnits) :
    ((s.offered c d).core c).queueFull u = false := by
  have empty : (((s.offered c d).core c).eng u).queue = [] := by rw [s.offered_eng, (s.ready_empty c hr).2.2.2 u hu]
  have depth : 0 < depthOf u := by unfold depthOf; split <;> decide
  simp only [Core.queueFull, empty, List.length_nil, decide_eq_false_iff_not]
  omega

/-- An engine word that passes its checks enters its unit's queue. -/
theorem State.fetch_queues (s : State) (c : CoreId) (v : IWord) (r : IssueRes) (hr : s.Ready c) (hd : decodeCause v = 0)
    (he : (Word128.engine v).toNat ≠ engSEQ) (hu : unitOf v ∈ engUnits ∧ unitOf v ≠ .msg ∧ unitOf v ≠ .gath)
    (res : r = (s.offered c (s.decodedAt c v)).resolve c v) (passes : r.cause = 0)
    (free : (s.core c).seq.sbStalls (liveRanges r.claims) = false) (fits : (s.core c).seq.sb.length + (liveRanges r.claims).length ≤ 64) :
    s.fetch c v = (s.modCore c (fun k => k.queued (unitOf v)
        (entryOf (s.core c) ((s.core c).seq.pc.setWidth 17) v false none (some r.op)) (liveRanges r.claims) r.op)).wakeClocks c (unitOf v)
      (entryOf (s.core c) ((s.core c).seq.pc.setWidth 17) v false none (some r.op)) := by
  obtain ⟨buf, nowait, -, queues⟩ := s.ready_empty c hr
  have hl : isLaunch v = false := by simp [isLaunch, he]
  have runs : (s.core c).seq.ended = false := hr.1.2.2.2.1
  obtain ⟨q, hq⟩ : ∃ q, q = entryOf (s.core c) ((s.core c).seq.pc.setWidth 17) v false none (some r.op) := ⟨_, rfl⟩
  have offered := s.offered_core c (s.decodedAt c v) c.isLt
  have room := s.offered_room c (s.decodedAt c v) (unitOf v) hr hu.1
  have issue := State.issueEngine_passes (s.offered c (s.decodedAt c v)) c (s.decodedAt c v) false v r rfl res room passes
    (by rw [offered]; exact free) (by rw [offered]; exact fits)
  have entry : entryOf ((s.offered c (s.decodedAt c v)).core c) (s.decodedAt c v).pc v false none (some r.op) = q := by
    rw [hq, offered]
    rfl
  have number : ((s.offered c (s.decodedAt c v)).core c).seq.nextId = (s.core c).seq.nextId := by
    rw [offered]
    rfl
  rw [entry, number] at issue
  have one := State.issueOne_engine s _ c (s.decodedAt c v) hr.1 hr.2.1 hd hl he issue
  rw [s.offered_queues c (s.decodedAt c v) _ _ _ _ hr hu.1] at one
  rw [← hq]
  obtain ⟨t, ht⟩ : ∃ t, t = (s.modCore c (fun k => k.queued (unitOf v) q (liveRanges r.claims) r.op)).wakeClocks c (unitOf v) q := ⟨_, rfl⟩
  have here : t.core c = (s.core c).queued (unitOf v) q (liveRanges r.claims) r.op := by rw [ht, State.wakeClocks_core]; simp
  have others : ∀ d, d ≠ c.val → t.core d = s.core d := fun d hd => by rw [ht, State.wakeClocks_core]; simp [hd]
  have isOp : q.op.isSome = true := by rw [hq]; rfl
  have waits : (t.core c).headsWait := by
    rw [here]
    refine ⟨fun u hu' p rest hp => ?_, ?_, ?_⟩
    · rw [Core.queued_eng] at hp
      split at hp
      · simp only [List.cons.injEq] at hp
        rw [← hp.1, isOp]
      · rw [queues u hu'] at hp
        exact absurd hp (by simp)
    · have other := (s.core c).queued_eng (unitOf v) .msg q (liveRanges r.claims) r.op
      rw [if_neg hu.2.1.symm] at other
      exact (congrArg EngQueue.queue other).trans (queues .msg (by simp [engUnits]))
    · have other := (s.core c).queued_eng (unitOf v) .gath q (liveRanges r.claims) r.op
      rw [if_neg hu.2.2.symm] at other
      exact (congrArg EngQueue.queue other).trans (queues .gath (by simp [engUnits]))
  have seq : (t.core c).seq.buf = [] ∧ (t.core c).seq.wait = .none ∧ (t.core c).seq.stall = .none ∧ (t.core c).seq.ended = false ∧
      (t.core c).id = (s.core c).id := by
    rw [here, Core.queued]
    simp only [Core.modSeq, Core.seq_modEng, Core.id_modEng, buf, nowait, runs, and_self]
  obtain ⟨tbuf, twait, tstall, truns, tid⟩ := seq
  have stays := fun n => State.settleCore_waits t c n waits tbuf twait tstall
  have rest := (s.modCore c (fun k => k.queued (unitOf v) q (liveRanges r.claims) r.op)).wakeClocks_rest c (unitOf v) q
  rw [← ht] at one rest ⊢
  refine s.fetch_settles t c v hr (fun _ => hl) others ?_ (stays 160) (State.Steady.of_running c hr.2.2 (fun d => ?_) others truns rest.1 (by rw [rest.2]; rfl))
  · rw [State.settleCore_step _ t c 159 (s.offered_loud c _) (fun u hu' => by rw [s.offered_eng, queues u hu']) one, stays]
  · by_cases e : d = c.val
    · rw [e, tid]
    · rw [others d e]

/-! ## A null entry -/

theorem filter_unit : ∀ u ∈ engUnits, engUnits.filter (fun v => v == u) = [u] := by decide

theorem Core.modEng_modEng (k : Core) (u : EngUnit) (f g : EngQueue → EngQueue) :
    (k.modEng u f).modEng u g = k.modEng u (fun e => g (f e)) := by
  cases u <;> simp [Core.modEng, vmod]

/-- The queue of a unit when a null entry at its head runs. -/
def EngQueue.nullRuns (e : EngQueue) (q : QEntry) : EngQueue :=
  { queue := e.queue.tail, running := e.running ++ [{ q := q, inRows := false }] }

theorem State.popHead_run (s : State) (c : CoreId) (u : EngUnit) (q : QEntry) :
    (s.popHead c u).run c u { q := q, inRows := false } = s.modCore c (fun k => k.modEng u (fun e => e.nullRuns q)) := by
  rw [State.popHead, State.run, State.modCore_modCore]
  exact s.modCore_congr c _ _ (Core.modEng_modEng _ _ _ _)

/-- A null entry at the head of its queue runs. -/
theorem State.engineSide_null (s : State) (c : CoreId) (u : EngUnit) (q : QEntry) (hu : u ∈ engUnits ∧ u ≠ .msg ∧ u ≠ .gath)
    (hq : ((s.core c).eng u).queue = [q]) (others : ∀ v ∈ engUnits, v ≠ u → ((s.core c).eng v).queue = []) (null : q.op = none)
    (now : q.launch = none) : s.engineSide c = s.modCore c (fun k => k.modEng u (fun e => e.nullRuns q)) := by
  have ran : (s.modCore c (fun k => k.modEng u (fun e => e.nullRuns q))).core c = (s.core c).modEng u (fun e => e.nullRuns q) := by
    simp
  have loud : engUnits.filter (fun v => !((s.core c).eng v).queue.isEmpty) = [u] := by
    rw [← filter_unit u hu.1]
    refine List.filter_congr (fun v hv => ?_)
    by_cases e : v = u
    · simp [e, hq]
    · simp [e, others v hv e]
  have drop : State.dropNulls c u 16 s = s.modCore c (fun k => k.modEng u (fun e => e.nullRuns q)) := by
    unfold State.dropNulls
    rw [hq]
    simp only [null, QEntry.launchOk, now, Option.isNone_none, Bool.and_self, if_true]
    rw [State.popHead_run]
    unfold State.dropNulls
    rw [ran, Core.eng_modEng, if_pos rfl, EngQueue.nullRuns, hq]
    rfl
  have msg : (s.core c).msgq.queue = [] := others .msg (by decide) hu.2.1.symm
  have gath : (s.core c).gath.queue = [] := others .gath (by decide) hu.2.2.symm
  unfold State.engineSide
  dsimp only
  rw [loud, List.foldl_cons, List.foldl_nil, drop, msg, gath]
  rfl

/-- What a word that fails an issue check leaves of its core: the record, and a null entry that runs. -/
def Core.nulled (k : Core) (u : EngUnit) (q : QEntry) (cause : Nat) (now : BitVec 64) (supp : BitVec 8) (budget : List (BitVec 64)) : Core :=
  (((k.recorded q cause false now).charged supp budget).modEng u (fun e => { e with running := e.running ++ [{ q := q, inRows := false }] })).modSeq
    (fun r => { r with pc := r.pc + 1, stall := .none, nextId := r.nextId + 1 })

theorem Core.recorded_eng (k : Core) (q : QEntry) (cause : Nat) (x : Bool) (now : BitVec 64) (supp : BitVec 8) (budget : List (BitVec 64))
    (u : EngUnit) : ((k.recorded q cause x now).charged supp budget).eng u = k.eng u := by cases u <;> rfl

theorem Core.nulled_eng (k : Core) (u v : EngUnit) (q : QEntry) (cause : Nat) (now : BitVec 64) (supp : BitVec 8) (budget : List (BitVec 64)) :
    (k.nulled u q cause now supp budget).eng v =
      if v = u then { k.eng u with running := (k.eng u).running ++ [{ q := q, inRows := false }] } else k.eng v := by
  rw [Core.nulled, Core.modSeq_eng, Core.eng_modEng, Core.recorded_eng, Core.recorded_eng]

theorem State.wakeClocks_null (s : State) (c : Nat) (u : EngUnit) (q : QEntry) (null : q.op = none) : s.wakeClocks c u q = s := by
  unfold State.wakeClocks
  simp [null]

/-- The issue of a word that fails a check leaves its null entry in the queue. -/
theorem State.offered_nulls (s : State) (c : CoreId) (d : Decoded) (u : EngUnit) (q : QEntry) (cause : Nat) (hr : s.Ready c)
    (hu : u ∈ engUnits) (null : q.op = none) :
    ∃ supp budget g, ((s.offered c d).skipWord c q q u cause false).tookWords c 1 false =
      (s.modCore c (fun k => (((k.recorded q cause false s.now).charged supp budget).modEng u (fun e => { e with queue := [q] })).modSeq
        (fun r => { r with pc := r.pc + 1, stall := .none, nextId := r.nextId + 1 }))).withGoose g := by
  obtain ⟨supp, budget, g, h⟩ := State.recordSkip_recorded (s.offered c d) c q cause false
  obtain ⟨buf, -, held, queues⟩ := s.ready_empty c hr
  refine ⟨supp, budget, g, ?_⟩
  simp only [State.skipWord, Bool.false_eq_true, if_false]
  rw [h, State.tookWords_indep, State.enqueue, State.wakeClocks_null _ _ _ _ null, State.bumpId]
  have clock : (s.offered c d).now = s.now := rfl
  rw [clock]
  simp only [State.withGoose_modCore, State.offered, State.modCore_modCore]
  refine congrArg (fun x : State => x.withGoose g) (s.modCore_congr c _ _ ?_)
  have offer : ((((s.core c).modSeq (fun r => { r with pc := r.pc + 1, launchHeld := none, buf := [d] })).recorded q cause false s.now).charged
      supp budget) = (((s.core c).recorded q cause false s.now).charged supp budget).modSeq
        (fun r => { r with pc := r.pc + 1, launchHeld := none, buf := [d] }) := rfl
  have entry : (((s.core c).recorded q cause false s.now).charged supp budget).modEng u (fun e => { e with queue := e.queue ++ [q] }) =
      (((s.core c).recorded q cause false s.now).charged supp budget).modEng u (fun e => { e with queue := [q] }) :=
    Core.modEng_congr _ u _ _ (by rw [Core.recorded_eng, queues u hu, List.nil_append])
  simp only [offer, Core.modEng_modSeq, Core.modSeq_modSeq, entry]
  refine Core.modSeq_congr _ _ _ ?_
  rw [Core.seq_modEng]
  simp [Core.recorded, Core.charged, buf, held]

/-- An engine word that fails an issue check: what its fetch leaves. -/
theorem State.fetch_nulls (s : State) (c : CoreId) (v : IWord) (r : IssueRes) (hr : s.Ready c) (hd : decodeCause v = 0)
    (he : (Word128.engine v).toNat ≠ engSEQ) (hu : unitOf v ∈ engUnits ∧ unitOf v ≠ .msg ∧ unitOf v ≠ .gath)
    (res : r = (s.offered c (s.decodedAt c v)).resolve c v) (fails : r.cause ≠ 0) :
    ∃ supp budget g, s.fetch c v = (s.modCore c (fun k => k.nulled (unitOf v)
      (entryOf (s.core c) ((s.core c).seq.pc.setWidth 17) v false none none) r.cause s.now supp budget)).withGoose g := by
  obtain ⟨buf, nowait, -, queues⟩ := s.ready_empty c hr
  have hl : isLaunch v = false := by simp [isLaunch, he]
  have runs : (s.core c).seq.ended = false := hr.1.2.2.2.1
  obtain ⟨q, hq⟩ : ∃ q, q = entryOf (s.core c) ((s.core c).seq.pc.setWidth 17) v false none none := ⟨_, rfl⟩
  have null : q.op = none ∧ q.launch = none := by rw [hq]; exact ⟨rfl, rfl⟩
  have offered := s.offered_core c (s.decodedAt c v) c.isLt
  have issue := State.issueEngine_fails (s.offered c (s.decodedAt c v)) c (s.decodedAt c v) false v r rfl res
    (s.offered_room c (s.decodedAt c v) (unitOf v) hr hu.1) fails
  have entry : entryOf ((s.offered c (s.decodedAt c v)).core c) (s.decodedAt c v).pc v false none none = q := by
    rw [hq, offered]
    rfl
  rw [entry] at issue
  have one := State.issueOne_engine s _ c (s.decodedAt c v) hr.1 hr.2.1 hd hl he issue
  obtain ⟨supp, budget, g, left⟩ := s.offered_nulls c (s.decodedAt c v) (unitOf v) q r.cause hr hu.1 null.1
  rw [left] at one
  rw [← hq]
  refine ⟨supp, budget, g, ?_⟩
  obtain ⟨x, hx⟩ : ∃ x, x = (s.modCore c (fun k => (((k.recorded q r.cause false s.now).charged supp budget).modEng (unitOf v)
      (fun e => { e with queue := [q] })).modSeq (fun r => { r with pc := r.pc + 1, stall := .none, nextId := r.nextId + 1 }))).withGoose g :=
    ⟨_, rfl⟩
  obtain ⟨y, hy⟩ : ∃ y, y = (s.modCore c (fun k => k.nulled (unitOf v) q r.cause s.now supp budget)).withGoose g := ⟨_, rfl⟩
  rw [← hx] at one
  rw [← hy]
  have xcore : x.core c = _ := (congrArg (fun z : State => z.core c) hx).trans (s.skipped_core c _ g)
  have ycore : y.core c = (s.core c).nulled (unitOf v) q r.cause s.now supp budget :=
    (congrArg (fun z : State => z.core c) hy).trans (s.skipped_core c _ g)
  have others : ∀ d, d ≠ c.val → y.core d = s.core d := fun d hd => by rw [hy]; exact s.skipped_others c _ g d hd
  have head : ((x.core c).eng (unitOf v)).queue = [q] := by
    rw [xcore, Core.modSeq_eng, Core.eng_modEng, if_pos rfl]
  have rest : ∀ u ∈ engUnits, u ≠ unitOf v → ((x.core c).eng u).queue = [] := fun u hu' hne => by
    rw [xcore, Core.modSeq_eng, Core.eng_modEng, if_neg hne, Core.recorded_eng, queues u hu']
  have side := x.engineSide_null c (unitOf v) q hu head rest null.1 null.2
  have xy : x.modCore c (fun k => k.modEng (unitOf v) (fun e => e.nullRuns q)) = y := by
    rw [hx, hy, State.withGoose_modCore, State.modCore_modCore]
    refine congrArg (fun z : State => z.withGoose g) (s.modCore_congr c _ _ ?_)
    rw [Core.modEng_modSeq, Core.modEng_modEng, Core.nulled]
    refine congrArg (fun k : Core => k.modSeq _) (Core.modEng_congr _ _ _ _ ?_)
    rw [Core.recorded_eng]
    simp [EngQueue.nullRuns, queues _ hu.1]
  rw [xy] at side
  have yseq : (y.core c).seq.buf = [] ∧ (y.core c).seq.wait = .none ∧ (y.core c).seq.stall = .none ∧ (y.core c).seq.ended = false ∧
      (y.core c).id = (s.core c).id := by
    rw [ycore, Core.nulled]
    simp only [Core.modSeq, Core.seq_modEng, Core.id_modEng, Core.recorded, Core.charged, buf, nowait, runs, and_self]
  obtain ⟨ybuf, ywait, ystall, yruns, yid⟩ := yseq
  have yquiet : (y.core c).quiet = true := by
    simp only [Core.quiet, ybuf, ywait, Bool.and_eq_true, List.all_eq_true, List.isEmpty_iff]
    refine ⟨by simp, fun u hu' => ?_⟩
    rw [ycore, Core.nulled_eng]
    split
    · exact queues _ hu.1
    · exact queues u hu'
  have loud : (x.core c).quiet = false := by
    rw [Bool.eq_false_iff]
    intro all
    simp only [Core.quiet, Bool.and_eq_true, List.all_eq_true, List.isEmpty_iff] at all
    exact absurd (head.symm.trans (all.2 _ hu.1)) (by simp)
  have goes : State.settleCore c 159 x = y := by
    rw [show (159 : Nat) = 158 + 1 from rfl, State.settleCore, side, y.issueOne_empty c ybuf ywait ystall]
    simp [loud]
  refine s.fetch_settles y c v hr (fun _ => hl) others ?_ (State.settleCore_quiet c 160 y yquiet)
    (State.Steady.of_running c hr.2.2 (fun d => ?_) others yruns (by rw [hy]; rfl) (by rw [hy]; rfl))
  · rw [State.settleCore_step _ x c 159 (s.offered_loud c _) (fun u hu' => by rw [s.offered_eng, queues u hu']) one, goes]
  · by_cases e : d = c.val
    · rw [e, yid]
    · rw [others d e]

/-- A skip that leaves a null entry is a skip (R74 to R77). -/
theorem State.nulled_skipped (s t : State) (c : CoreId) (v : IWord) (q : QEntry) (cause : Nat) (supp : BitVec 8) (budget : List (BitVec 64))
    (g : Goose) (hr : s.Ready c) (hn : s.Names c v q)
    (ht : t = (s.modCore c (fun k => k.nulled (unitOf v) q cause s.now supp budget)).withGoose g) : s.Skipped t c v cause := by
  have here : t.core c = (s.core c).nulled (unitOf v) q cause s.now supp budget :=
    (congrArg (fun z : State => z.core c) ht).trans (s.skipped_core c _ g)
  have others : ∀ d, d ≠ c.val → t.core d = s.core d := fun d hd => by rw [ht]; exact s.skipped_others c _ g d hd
  have err : ((s.core c).nulled (unitOf v) q cause s.now supp budget).err =
      (((s.core c).recorded q cause false s.now).charged supp budget).err := by
    unfold Core.nulled
    cases unitOf v <;> rfl
  have seq : ((s.core c).nulled (unitOf v) q cause s.now supp budget).seq =
      { (((s.core c).recorded q cause false s.now).charged supp budget).seq with
        pc := (s.core c).seq.pc + 1, stall := .none, nextId := (s.core c).seq.nextId + 1 } := by
    unfold Core.nulled
    cases unitOf v <;> rfl
  have indep : (s.core c).id.bcast = false := hr.1.2.1
  have going : (s.core c).seq.stopped = false := hr.1.2.2.1
  obtain ⟨hpc, he, ho, hb⟩ := hn
  unfold State.Skipped
  rw [here, err, seq]
  simp only [Core.recorded, Core.charged, ErrRegs.note, hpc, he, ho, hb, indep, going, Bool.not_false,
    Bool.and_true, Bool.or_false, true_and]
  exact ⟨others, s.skipped_rest c _ g t ht⟩

/-- Settles O9: an engine word enters its queue, or a null entry runs in its place. -/
theorem engineWords : Obligations.EngineWords := by
  unfold Obligations.EngineWords
  refine ⟨fun row hrow c w s hr => ?passes, fun row hrow c w s hr => ?fails⟩
  case passes =>
    intro v r u q hd passes free fits
    have he := engineRow_engine row hrow
    have engine : (Word128.engine v).toNat ≠ engSEQ := by
      simp only [v, withOp_engine, engSEQ, BitVec.toNat_ofNat]
      simp only [List.mem_cons, List.not_mem_nil, or_false] at he
      omega
    have left := s.fetch_queues c v r hr hd engine (unitOf_engineRow w _ _ he) rfl passes free fits
    rw [exec_engineRow row hrow]
    refine congrArg Host.Outcome.next (left.trans ?_)
    rfl
  case fails =>
    intro v r hd fails
    have he := engineRow_engine row hrow
    have engine : (Word128.engine v).toNat ≠ engSEQ := by
      simp only [v, withOp_engine, engSEQ, BitVec.toNat_ofNat]
      simp only [List.mem_cons, List.not_mem_nil, or_false] at he
      omega
    have unit_ := unitOf_engineRow w row.2.1 row.2.2 he
    obtain ⟨supp, budget, g, left⟩ := s.fetch_nulls c v r hr hd engine unit_ rfl fails
    have hl : isLaunch v = false := by simp [isLaunch, engine]
    obtain ⟨q, hq⟩ : ∃ q, q = entryOf (s.core c) ((s.core c).seq.pc.setWidth 17) v false none none := ⟨_, rfl⟩
    have names : s.Names c v q := by rw [hq]; exact ⟨rfl, rfl, rfl, rfl⟩
    rw [← hq] at left
    obtain ⟨t, ht⟩ : ∃ t, t = (s.modCore c (fun k => k.nulled (unitOf v) q r.cause s.now supp budget)).withGoose g := ⟨_, rfl⟩
    have here : t.core c = (s.core c).nulled (unitOf v) q r.cause s.now supp budget :=
      (congrArg (fun z : State => z.core c) ht).trans (s.skipped_core c _ g)
    refine ⟨t, (exec_engineRow row hrow c w s).trans (congrArg Host.Outcome.next (left.trans ht.symm)),
      s.nulled_skipped t c v q r.cause supp budget g hr names ht, ?_, ?_, ?_, { q := q, inRows := false }, ?_, ?_, ?_⟩
    · rw [here, Core.nulled]
      simp only [Core.modSeq, Core.seq_modEng, Core.recorded, Core.charged]
    · rw [here, Core.nulled]
      simp only [Core.modSeq, Core.seq_modEng, Core.recorded, Core.charged]
    · rw [here, Core.nulled_eng, if_pos rfl]
      exact (s.ready_empty c hr).2.2.2 _ unit_.1
    · rw [here, Core.nulled_eng, if_pos rfl]
    · rw [hq]
      rfl
    · simp only [hq, entryOf, hl, Bool.false_eq_true, if_false, v, withOp_sigcc]

end Sys2Proof.Machine
end

section
/-! PROOFS. O7 LaunchAndRanges. -/

namespace Sys2Proof.Machine

set_option Elab.async false -- in turn: many waiting threads need much memory

/-! ## LAUNCH_AT -/

/-- A LAUNCH_AT that decoding passes, or holds to cause 0x07, is held for the word behind it. -/
theorem State.fetch_held (s : State) (c : CoreId) (w : IWord) (hr : s.Ready c) (hd : decodeCause w = 0 ∨ decodeCause w = 7)
    (hl : isLaunch w = true) : s.fetch c w = s.modCore c (fun k => k.modSeq (fun q =>
      { q with pc := q.pc + 1, launchHeld := some ⟨q.pc.setWidth 17, w, decodeCause w⟩ })) := by
  obtain ⟨buf, nowait, held, queues⟩ := s.ready_empty c hr
  obtain ⟨⟨active, indep, going, runs, fetching, -, inside⟩, quiet, steady⟩ := hr
  have before : ¬ 131072 ≤ (s.core c).seq.pc.toNat := by omega
  have pair : pairUp none (⟨(s.core c).seq.pc.setWidth 17, w, decodeCause w⟩ : Decoded) =
      ([], some ⟨(s.core c).seq.pc.setWidth 17, w, decodeCause w⟩) := by
    simp [pairUp, hl, hd]
  have left : (s.setPc c ((s.core c).seq.pc + 1)).modCore c (fun k => k.modSeq (fun q =>
        { q with launchHeld := some ⟨(s.core c).seq.pc.setWidth 17, w, decodeCause w⟩, buf := [] })) =
      s.modCore c (fun k => k.modSeq (fun q => { q with pc := q.pc + 1, launchHeld := some ⟨q.pc.setWidth 17, w, decodeCause w⟩ })) := by
    rw [State.setPc, State.modCore_modCore]
    refine s.modCore_congr c _ _ ?_
    simp [Core.modSeq, buf]
  unfold State.fetch
  simp only [active, going, runs, fetching, Bool.or_self, Bool.false_eq_true, if_false, before, decide_false, held, pair,
    Core.isBellwether, indep, Bool.false_and, buf, List.isEmpty_nil, Bool.not_true, nowait, bne, beq_self_eq_true]
  rw [left]
  exact State.settle_quiet _ (State.modSeq_quiet s c _ quiet rfl rfl) (State.modSeq_steady s c _ steady rfl rfl)

/-! ## Core-cache ranges -/

theorem State.issueRange_offered (s : State) (c : CoreId) (d : Decoded) (w : Word128) : (s.offered c d).issueRange c w = s.issueRange c w := by
  have same := s.offered_core c d c.isLt
  simp only [State.issueRange, State.operand, State.operandCauses, State.placeOk, State.partNo, same]
  rfl

theorem State.operand_offered (s : State) (c : CoreId) (d : Decoded) (w : Word128) (lo : Nat) :
    (s.offered c d).operand c w lo = s.operand c w lo := by
  simp only [State.operand, s.offered_core c d c.isLt]
  rfl

/-- A core-cache range that passes its checks issues at once. -/
theorem State.issueSeq_range (s : State) (c : Nat) (d : Decoded) (r : IssueRes) (ho : d.word.opcode.toNat ∈ [0x24, 0x25, 0x26])
    (res : r = s.issueRange c d.word) (passes : r.cause = 0) (free : (s.core c).seq.sbStalls r.claims = false)
    (fits : (s.core c).seq.sb.length + r.claims.length ≤ 64) :
    s.issueSeq c d false = .done_ (((s.modCore c (fun k => k.modSeq (fun x =>
      x.claim (entryOf (s.core c) d.pc d.word false none (some r.op)).id r.claims))).run c .cache
        { q := entryOf (s.core c) d.pc d.word false none (some r.op), inRows := false }).bumpId c) := by
  have fits' : ¬ 64 < (s.core c).seq.sb.length + r.claims.length := by omega
  subst res
  simp only [List.mem_cons, List.not_mem_nil, or_false] at ho
  unfold State.issueSeq
  rcases ho with h | h | h <;>
    simp only [h, passes, ne_eq, not_true_eq_false, if_false, free, fits', decide_false, Bool.or_self, Bool.false_eq_true]

/-- What a core-cache range leaves of its core as it issues. -/
def Core.ranged (k : Core) (q : QEntry) (rs : List Range) : Core :=
  { k.modSeq (fun x => { x with pc := x.pc + 1, stall := .none, nextId := x.nextId + 1, sb := x.sb ++ rs.map (fun g => g.entry x.nextId) }) with
    cacheq := { k.cacheq with running := k.cacheq.running ++ [{ q := q, inRows := false }] } }

theorem State.fetch_range (s : State) (c : CoreId) (w : IWord) (o : Nat) (r : IssueRes) (hr : s.Ready c) (ho : o ∈ [0x24, 0x25, 0x26])
    (hd : decodeCause (Word128.withOp w 6 o) = 0) (res : r = s.issueRange c (Word128.withOp w 6 o)) (passes : r.cause = 0)
    (free : (s.core c).seq.sbStalls r.claims = false) (fits : (s.core c).seq.sb.length + r.claims.length ≤ 64) :
    s.fetch c (Word128.withOp w 6 o) = s.modCore c (fun k => k.ranged
      (entryOf k (k.seq.pc.setWidth 17) (Word128.withOp w 6 o) false none (some r.op)) r.claims) := by
  obtain ⟨buf, nowait, held, queues⟩ := s.ready_empty c hr
  have small : o < 256 ∧ o ≠ 0x28 := by
    simp only [List.mem_cons, List.not_mem_nil, or_false] at ho
    omega
  have hl : isLaunch (Word128.withOp w 6 o) = false := by
    rw [isLaunch_withOp]
    simpa using fun h => small.2 (by omega)
  have opc : (Word128.opcode (s.decodedAt c (Word128.withOp w 6 o)).word).toNat = o := by
    simpa [State.decodedAt] using small.1
  have offered := s.offered_core c (s.decodedAt c (Word128.withOp w 6 o)) c.isLt
  have issue := State.issueSeq_range (s.offered c (s.decodedAt c (Word128.withOp w 6 o))) c (s.decodedAt c (Word128.withOp w 6 o)) r
    (by rwa [opc]) (by rw [s.issueRange_offered, res]; rfl) passes (by rw [offered]; exact free) (by rw [offered]; exact fits)
  have one := State.issueOne_seq s _ c (s.decodedAt c (Word128.withOp w 6 o)) hr.1 hr.2.1 hd hl (by simp [engSEQ, State.decodedAt]) issue
  obtain ⟨q, hq⟩ : ∃ q, q = entryOf (s.core c) ((s.core c).seq.pc.setWidth 17) (Word128.withOp w 6 o) false none (some r.op) := ⟨_, rfl⟩
  have entry : entryOf ((s.offered c (s.decodedAt c (Word128.withOp w 6 o))).core c) (s.decodedAt c (Word128.withOp w 6 o)).pc
      (s.decodedAt c (Word128.withOp w 6 o)).word false none (some r.op) = q := by
    rw [hq, offered]
    rfl
  have number : q.id = (s.core c).seq.nextId := by rw [hq]; rfl
  have here : s.modCore c (fun k => k.ranged (entryOf k (k.seq.pc.setWidth 17) (Word128.withOp w 6 o) false none (some r.op)) r.claims) =
      s.modCore c (fun k => k.ranged q r.claims) := s.modCore_congr c _ _ (by rw [hq])
  rw [entry] at one
  have left : (((((s.offered c (s.decodedAt c (Word128.withOp w 6 o))).modCore c (fun k => k.modSeq (fun x => x.claim q.id r.claims))).run c .cache
      { q := q, inRows := false }).bumpId c).tookWords c 1 false) = s.modCore c (fun k => k.ranged q r.claims) := by
    rw [State.tookWords_indep, State.bumpId, State.run, State.offered]
    simp only [State.modCore_modCore]
    refine s.modCore_congr c _ _ ?_
    simp [Core.ranged, Core.modSeq, Core.modEng, SeqState.claim, buf, held, number]
  rw [left] at one
  rw [here]
  refine s.fetch_issues _ c _ hr.1 hr.2.1 (fun _ => hl) one ?_ ?_
  · refine State.Quiet.congr c hr.2.1 (fun d hd => by simp [hd]) ?_
    have quiet := hr.2.1 c c.isLt
    have same : ((s.modCore c (fun k => k.ranged q r.claims)).core c).quiet = (s.core c).quiet := by
      simp only [State.core_modCore, c.isLt, and_self, if_true]
      rfl
    rw [same, quiet]
  · have runs : (s.core c).seq.ended = false := hr.1.2.2.2.1
    refine State.Steady.of_running c hr.2.2 (fun d => ?_) (fun d hd => by simp [hd]) ?_ rfl rfl
    · by_cases e : d = c.val <;> simp [e, Core.ranged, Core.modSeq]
    · simp [Core.ranged, Core.modSeq, runs]

/-! ## LAUNCH_TIME_REACHED -/

/-- A core that has noted a start: late operations counted, the budget of its events and its prefetch buffer. -/
def Core.noted (k : Core) (count : BitVec 16) (most : BitVec 32) (supp : BitVec 8) (budget : List (BitVec 64)) : Core :=
  { k with err := { k.err with lateCount := count, maxLate := most, gooseSupp := supp }, budget := budget }

/-- A core that counts an operation late by v ns. -/
def Core.late (k : Core) (v : BitVec 32) : Core :=
  k.modErr (fun r => { r with lateCount := satInc r.lateCount, maxLate := if r.maxLate < v then v else r.maxLate })

/-- A start counts an operation that is late. -/
theorem State.noteLaunch_noted (s : State) (c : CoreId) (q : QEntry) : ∃ most supp budget g,
    s.noteLaunch c q = (s.modCore c (fun k => k.noted
      (if q.lateAt s.now then satInc (s.core c).err.lateCount else (s.core c).err.lateCount) most supp budget)).withGoose g := by
  have same : s = (s.modCore c (fun k => k.noted (s.core c).err.lateCount (s.core c).err.maxLate (s.core c).err.gooseSupp
      (s.core c).budget)).withGoose s.goose := by
    rw [s.modCore_congr c _ (fun k => k) rfl, State.modCore_id]
    rfl
  unfold State.noteLaunch
  split
  · next t ht =>
    split
    · obtain ⟨v, hv⟩ : ∃ v, v = BitVec.ofNat 32 (min (s.now.toNat - t.toNat) (2 ^ 32 - 1)) := ⟨_, rfl⟩
      obtain ⟨supp, budget, g, h⟩ := State.logBudget_charged (s.modCore c (fun k => k.late v)) c
        (State.coreEvent (s.modCore c (fun k => k.late v)) c 0x02 [(v.toNat, 4)])
      refine ⟨if (s.core c).err.maxLate < v then v else (s.core c).err.maxLate, supp, budget, g, ?_⟩
      dsimp only
      rw [← hv]
      refine h.trans ?_
      rw [State.modCore_modCore]
      exact congrArg (fun x : State => x.withGoose g) (s.modCore_congr c _ _ rfl)
    · exact ⟨_, _, _, _, same⟩
  · next ht =>
    have onTime : q.lateAt s.now = false := by simp [QEntry.lateAt, ht]
    rw [onTime]
    exact ⟨_, _, _, _, same⟩

/-- A start fills at most the prefetch buffer of its core. -/
theorem State.prefetchOp_cache (s : State) (c : Nat) (r : REntry) :
    ∃ cache, s.prefetchOp c r = s.modCore c (fun k => { k with cache := cache }) := by
  unfold State.prefetchOp
  dsimp only
  split
  · refine ⟨(s.core c).cache, ?_⟩
    rw [s.modCore_congr c _ (fun k => k) rfl, State.modCore_id]
  · unfold State.pfFill State.modCache
    rw [State.modCore_modCore]
    exact ⟨_, s.modCore_congr c _ _ rfl⟩

/-- A core after the start of the operation r in unit u. -/
def Core.launched (k : Core) (u : EngUnit) (r : REntry) (count : BitVec 16) (most : BitVec 32) (supp : BitVec 8) (budget : List (BitVec 64))
    (cache : CacheRegs) : Core :=
  { (k.modEng u (fun e => { queue := e.queue.tail, running := e.running ++ [r] })).noted count most supp budget with cache := cache }

theorem Core.launched_eng (k : Core) (u v : EngUnit) (r : REntry) (count : BitVec 16) (most : BitVec 32) (supp : BitVec 8)
    (budget : List (BitVec 64)) (cache : CacheRegs) : (k.launched u r count most supp budget cache).eng v =
      if v = u then { queue := (k.eng u).queue.tail, running := (k.eng u).running ++ [r] } else k.eng v := by
  rw [← Core.eng_modEng k u v (fun e => { queue := e.queue.tail, running := e.running ++ [r] })]
  cases v <;> rfl

theorem Core.launched_seq (k : Core) (u : EngUnit) (r : REntry) (count : BitVec 16) (most : BitVec 32) (supp : BitVec 8)
    (budget : List (BitVec 64)) (cache : CacheRegs) : (k.launched u r count most supp budget cache).seq = k.seq ∧
      (k.launched u r count most supp budget cache).id = k.id ∧ (k.launched u r count most supp budget cache).err.lateCount = count := by
  cases u <;> exact ⟨rfl, rfl, rfl⟩

/-- What the start of an operation leaves whose descriptor's read leaves no trace: it runs, and is noted. -/
theorem State.launch_undisturbed (s : State) (c : CoreId) (u : EngUnit) (r : REntry) (undisturbed : s.readDesc r.q = s) :
    ∃ most supp budget cache g, s.launch c u r =
      (s.modCore c (fun k => k.launched u { r with startFt := s.now, late := r.q.lateAt s.now }
        (if r.q.lateAt s.now then satInc (s.core c).err.lateCount else (s.core c).err.lateCount) most supp budget cache)).withGoose g := by
  obtain ⟨most, supp, budget, g, noted⟩ := (s.popHead c u).noteLaunch_noted c r.q
  obtain ⟨cache, filled⟩ := (s.start c u r).prefetchOp_cache c r
  refine ⟨most, supp, budget, cache, g, ?_⟩
  have clock : (s.popHead c u).now = s.now := rfl
  have count : ((s.popHead c u).core c).err.lateCount = (s.core c).err.lateCount := by
    simp only [State.popHead, State.core_modCore, c.isLt, and_self, if_true]
    cases u <;> rfl
  rw [State.launch, undisturbed, filled, State.start, noted, clock, count, State.run, State.popHead]
  simp only [State.withGoose_modCore, State.modCore_modCore]
  refine congrArg (fun x : State => x.withGoose g) (s.modCore_congr c _ _ ?_)
  have commute : ∀ (k : Core) (f : EngQueue → EngQueue) n, (k.noted n most supp budget).modEng u f = (k.modEng u f).noted n most supp budget := by
    intro k f n
    cases u <;> rfl
  rw [commute, Core.modEng_modEng]
  rfl

/-- What the start of an operation with no descriptor leaves. -/
theorem State.launch_runs (s : State) (c : CoreId) (u : EngUnit) (r : REntry) (plain : (s.descRun r.q).2 = 0) :
    ∃ most supp budget cache g, s.launch c u r =
      (s.modCore c (fun k => k.launched u { r with startFt := s.now, late := r.q.lateAt s.now }
        (if r.q.lateAt s.now then satInc (s.core c).err.lateCount else (s.core c).err.lateCount) most supp budget cache)).withGoose g :=
  s.launch_undisturbed c u r (if_pos plain)

/-- Fabric time brought up to a launch time. -/
def State.timeTo (s : State) (l : BitVec 64) : State := s.modTime (fun x => { x with ft := if x.ft < l then l else x.ft })

theorem State.timeTo_reached (s : State) (l : BitVec 64) : l ≤ (s.timeTo l).now := by
  have ft : (s.timeTo l).now = if s.time.ft < l then l else s.time.ft := rfl
  rw [ft]
  split
  · exact BitVec.le_refl l
  · next h => exact BitVec.not_lt.mp h

/-- An operation is late when fabric time had passed its launch time by more than 8 ns before it was brought up to it. -/
theorem QEntry.lateAt_timeTo (q : QEntry) (s : State) (l : BitVec 64) (h : q.launch = some l) :
    q.lateAt (s.timeTo l).now = decide (l.toNat + 8 < s.time.ft.toNat) := by
  have ft : (s.timeTo l).now = if s.time.ft < l then l else s.time.ft := rfl
  rw [QEntry.lateAt, h, ft]
  refine decide_eq_decide.mpr ?_
  split
  · next before =>
    have := BitVec.lt_def.mp before
    omega
  · rfl

theorem State.Quiet.of_others {s t : State} (c : Nat) (h : ∀ x, x < 8 → x ≠ c → (s.core x).quiet = true)
    (others : ∀ d, d ≠ c → t.core d = s.core d) (here : (t.core c).quiet = true) : t.Quiet := by
  intro d hd
  by_cases e : d = c
  · rw [e, here]
  · rw [others d e, h d hd e]

/-- LAUNCH_TIME_REACHED for an elementwise operation alone in its queue. -/
theorem launchTimeReached_vec (c : CoreId) (s : State) (q : QEntry) (l : BitVec 64) (o : BitVec 8) (a b d n : Nat) (f : BitVec 4) (sr : Bool)
    (steady : s.Steady) (calm : s.stopped = false) (quiet : ∀ x, x < 8 → x ≠ c.val → (s.core x).quiet = true)
    (buf : (s.core c).seq.buf = []) (nowait : (s.core c).seq.wait = .none) (queues : ∀ u ∈ engUnits, u ≠ .vec → ((s.core c).eng u).queue = [])
    (head : (s.core c).vec.queue = [q]) (launch : q.launch = some l) (op : q.op = some (.vec o a b d n f sr)) :
    ∃ t, exec (.launchTimeReached c .vec) s = .next t ∧ t.time.ft = (if s.time.ft < l then l else s.time.ft) ∧
      (t.core c).vec.queue = [] ∧
      (∃ r, (t.core c).vec.running = (s.core c).vec.running ++ [r] ∧ r.q = q ∧ r.startFt = t.time.ft) ∧
      (t.core c).err.lateCount = (if l.toNat + 8 < s.time.ft.toNat then satInc (s.core c).err.lateCount else (s.core c).err.lateCount) ∧
      (t.core c).seq = (s.core c).seq ∧ s.otherCores t c ∧ t.ms = s.ms ∧ t.fab = s.fab ∧ t.eth = s.eth ∧ t.pwr = s.pwr := by
  obtain ⟨most, supp, budget, cache, g, started⟩ := (s.timeTo l).launch_runs c .vec { q := q } (by simp [State.descRun, op])
  have due : (s.timeTo l).headOf c .vec = some q := by
    have now := s.timeTo_reached l
    have same : (((s.timeTo l).core c).eng .vec).queue = [q] := head
    simp [State.headOf, same, op, QEntry.launchOk, launch, now]
  have goes : (s.timeTo l).startUnit c .vec = (s.timeTo l).launch c .vec { q := q } := by
    simp only [State.startUnit, State.startVec, due, op]
  obtain ⟨r, hr⟩ : ∃ r : REntry, r = { q := q, startFt := (s.timeTo l).now, late := q.lateAt (s.timeTo l).now } := ⟨_, rfl⟩
  obtain ⟨lc, hlc⟩ : ∃ lc, lc = if l.toNat + 8 < s.time.ft.toNat then satInc (s.core c).err.lateCount else (s.core c).err.lateCount := ⟨_, rfl⟩
  have count : (if q.lateAt (s.timeTo l).now then satInc ((s.timeTo l).core c).err.lateCount else ((s.timeTo l).core c).err.lateCount) = lc := by
    rw [q.lateAt_timeTo s l launch, hlc]
    exact if_congr decide_eq_true_iff rfl rfl
  obtain ⟨t, ht⟩ : ∃ t, t = (s.timeTo l).launch c .vec { q := q } := ⟨_, rfl⟩
  rw [← ht] at goes started
  rw [← hr, count] at started
  have here : t.core c = (s.core c).launched .vec r lc most supp budget cache :=
    (congrArg (fun z : State => z.core c) started).trans ((s.timeTo l).skipped_core c _ g)
  have others : s.otherCores t c := fun d hd => by rw [started]; exact (s.timeTo l).skipped_others c _ g d hd
  obtain ⟨ms, fab, time, -, parts, eth, pwr, -⟩ := (s.timeTo l).skipped_rest c _ g t started
  obtain ⟨seq, id, late⟩ := (s.core c).launched_seq .vec r lc most supp budget cache
  rw [← here] at seq id late
  have units := fun v => (s.core c).launched_eng .vec v r lc most supp budget cache
  rw [← here] at units
  have vec : (t.core c).vec = { queue := [], running := (s.core c).vec.running ++ [r] } := by
    have unit_ := units .vec
    rw [if_pos rfl] at unit_
    simpa only [Core.eng, head, List.tail_cons] using unit_
  have busy : (t.core c).allIdle = false := by
    have one : (t.core c).engIdle 1 = false := by simp [Core.engIdle, EngQueue.idle, vec]
    rw [Bool.eq_false_iff]
    intro all
    simp only [Core.allIdle, Bool.and_eq_true, List.all_eq_true, List.mem_range] at all
    exact absurd (all.1 1 (by decide)) (by simp [one])
  have ids : ∀ x, (t.core x).id = (s.core x).id := fun x => by
    by_cases e : x = c.val
    · rw [e, id]
    · rw [others x e]
  have still : t.Quiet := State.Quiet.of_others c quiet others (by
    simp only [Core.quiet, seq, buf, nowait, Bool.and_eq_true, List.all_eq_true, List.isEmpty_iff]
    refine ⟨by simp, fun u hu => ?_⟩
    rw [units u]
    split
    · exact congrArg List.tail head
    · next v => exact queues u hu v)
  have settled : t.settle = t :=
    State.settle_quiet t still (State.Steady.of_unfinished c steady ids others (by simp [busy]) parts (congrArg EthBlk.armed eth))
  refine ⟨t, ?_, congrArg TimeBlk.ft time, by rw [vec], ⟨r, by rw [vec], by rw [hr], ?_⟩, ?_, seq, others, ms, fab, eth, pwr⟩
  · change execLaunchTimeReached c .vec s = _
    have top : ((s.core c).eng .vec).queue = [q] := head
    unfold execLaunchTimeReached
    rw [calm, top]
    dsimp only
    rw [launch, op]
    dsimp only
    exact congrArg Host.Outcome.next ((congrArg State.settle goes).trans settled)
  · rw [hr, time]
  · rw [late, hlc]

/-- Settles O7: a launch waits for its word and its time, and a range goes to the core-cache controller. -/
theorem launchAndRanges : Obligations.LaunchAndRanges := by
  unfold Obligations.LaunchAndRanges
  refine ⟨⟨fun c w s hr hd => ?held, fun c s q l o a b d n f sr => launchTimeReached_vec c s q l o a b d n f sr⟩, fun c w s hr row hrow => ?range⟩
  case held =>
    have left := s.fetch_held c (Word128.withOp w 6 0x28) hr (.inl hd) (by simp [isLaunch_withOp])
    rw [hd] at left
    exact congrArg Host.Outcome.next left
  case range =>
    have rows : row.2.1 ∈ [0x24, 0x25, 0x26] ∧ (row.2.1 != 0x25) = row.2.2.1 ∧ (row.2.1 != 0x24) = row.2.2.2 ∧ row.2.1 < 256 ∧
        exec (row.1 c w) s = .next (s.fetch c (Word128.withOp w 6 row.2.1)) := by
      simp only [List.mem_cons, List.not_mem_nil, or_false] at hrow
      rcases hrow with rfl | rfl | rfl <;> exact ⟨by decide, rfl, rfl, by decide, rfl⟩
    obtain ⟨ho, writeBack, invalidate, small, run⟩ := rows
    intro v a n hd passes free fits
    have len : Word128.body v 24 32 = fldN w 24 32 := withOp_fldN w 6 row.2.1 24 32 (by decide)
    have opc : (Word128.opcode v).toNat = row.2.1 := by simpa [v] using small
    have claims : (s.issueRange c v).claims = [.wr a n] := by
      simp only [State.issueRange, len, a, n]
    have op : (s.issueRange c v).op = .cacheRange row.2.2.1 row.2.2.2 a n := by
      simp only [State.issueRange, len, opc, writeBack, invalidate, a, n]
    have left := s.fetch_range c w row.2.1 (s.issueRange c v) hr ho hd rfl passes (by rw [claims]; exact free)
      (by rw [claims]; exact Nat.succ_le_of_lt fits)
    rw [claims, op] at left
    rw [run]
    exact congrArg Host.Outcome.next left

end Sys2Proof.Machine
end

section
/-! PROOFS. O8 RegionsRingsNulls. -/

namespace Sys2Proof.Machine

set_option Elab.async false -- in turn: many waiting threads need much memory

/-! ## Region markers -/

/-- A region marker that fails is skipped under cause 0x1B, and one that passes signals its counter. -/
theorem State.issueSeq_begin (s : State) (c : Nat) (d : Decoded) (ho : d.word.opcode.toNat = 0x2C) :
    s.issueSeq c d false =
      (let q := entryOf (s.core c) d.pc d.word false none none
       let r := s.regionBegin c (d.word.body 0 12)
       if r.2 ≠ 0 then .done_ (s.skipWord c q q .cache r.2 true) else .done_ (r.1.signal c d.word.sigcc false)) := by
  unfold State.issueSeq
  simp only [ho]

theorem State.issueSeq_end (s : State) (c : Nat) (d : Decoded) (ho : d.word.opcode.toNat = 0x2D) :
    s.issueSeq c d false =
      (let q := entryOf (s.core c) d.pc d.word false none none
       let r := s.regionEnd c (d.word.body 0 12) (d.word.body 12 40)
       if r.2 ≠ 0 then .done_ (s.skipWord c q q .cache r.2 true) else .done_ (r.1.signal c d.word.sigcc false)) := by
  unfold State.issueSeq
  simp only [ho]

/-- A SEQ word whose issue skips it under a cause. -/
theorem State.fetch_seq_skips (s : State) (c : CoreId) (w : IWord) (o cause : Nat) (hr : s.Ready c)
    (hd : decodeCause (Word128.withOp w 6 o) = 0) (ho : o < 256 ∧ o ≠ 0x28)
    (issue : ∀ d : Decoded, d.word = Word128.withOp w 6 o → (s.offered c d).issueSeq c d false =
      .done_ ((s.offered c d).skipWord c (entryOf ((s.offered c d).core c) d.pc d.word false none none)
        (entryOf ((s.offered c d).core c) d.pc d.word false none none) .cache cause true)) :
    ∃ t, s.fetch c (Word128.withOp w 6 o) = t ∧ s.Skipped t c (Word128.withOp w 6 o) cause ∧
      (t.core c).seq.cc = ccAfter (s.core c).seq.cc (Word128.sigcc w) true := by
  have hl : isLaunch (Word128.withOp w 6 o) = false := by
    rw [isLaunch_withOp]
    simpa using fun h => ho.2 (by omega)
  have one := State.issueOne_seq s _ c (s.decodedAt c (Word128.withOp w 6 o)) hr.1 hr.2.1 hd hl
    (by simp [engSEQ, State.decodedAt]) (issue _ rfl)
  have skipped := s.fetch_skips c (Word128.withOp w 6 o) _ .cache cause hr (fun _ => hl) one ⟨rfl, rfl, rfl, rfl⟩
  simpa [entryOf, State.decodedAt, hl] using skipped

theorem State.regions_offered (s : State) (c : CoreId) (d : Decoded) : ((s.offered c d).core c).seq.regions = (s.core c).seq.regions := by
  rw [s.offered_core c d c.isLt]
  rfl

/-- The region a marker names. -/
theorem marker_region (w : IWord) (o : Nat) : BitVec.ofNat 12 (Word128.body (Word128.withOp w 6 o) 0 12) = fld w 0 12 := by
  rw [Word128.body, withOp_fldN _ _ _ _ _ (by decide), fld_eq_ofNat_fldN]

theorem marker_number (w : IWord) (o : Nat) : Word128.body (Word128.withOp w 6 o) 0 12 = (fld w 0 12).toNat := by
  rw [Word128.body, withOp_fldN _ _ _ _ _ (by decide)]
  rfl

/-- A region opens. -/
theorem State.regionBegin_opens (s : State) (c : Nat) (r : BitVec 12) (room : (s.core c).seq.regions.length < 16)
    (new : ∀ x ∈ (s.core c).seq.regions, x.1 ≠ r) :
    s.regionBegin c r.toNat = (s.modCore c (fun k => k.modSeq (fun q => { q with regions := (r, s.now) :: q.regions })), 0) := by
  have short : ¬ 16 ≤ (s.core c).seq.regions.length := by omega
  have absent : (s.core c).seq.regions.any (fun x => x.1.toNat == r.toNat) = false := by
    simp only [List.any_eq_false, beq_iff_eq]
    exact fun x hx e => new x hx (BitVec.eq_of_toNat_eq e)
  simp [State.regionBegin, short, absent]

theorem State.regionBegin_fails (s : State) (c : Nat) (r : BitVec 12)
    (bad : 16 ≤ (s.core c).seq.regions.length ∨ ∃ x ∈ (s.core c).seq.regions, x.1 = r) : s.regionBegin c r.toNat = (s, 0x1B) := by
  have refused : (decide (16 ≤ (s.core c).seq.regions.length) || (s.core c).seq.regions.any (fun x => x.1.toNat == r.toNat)) = true := by
    simp only [Bool.or_eq_true, decide_eq_true_eq, List.any_eq_true, beq_iff_eq]
    exact bad.imp_right (fun ⟨x, hx, e⟩ => ⟨x, hx, by rw [e]⟩)
  unfold State.regionBegin
  exact if_pos refused

/-- REGION_BEGIN on a ready core. -/
theorem regionBegin_row (c : CoreId) (w : IWord) (s : State) (hr : s.Ready c) (hd : decodeCause (Word128.withOp w 6 0x2C) = 0) :
    (((s.core c).seq.regions.length < 16 → (∀ x ∈ (s.core c).seq.regions, x.1 ≠ fld w 0 12) →
        exec (.regionBegin c w) s = .next (s.seqStep c (fun q => { q with regions := (fld w 0 12, s.time.ft) :: q.regions }) (Word128.sigcc w))) ∧
      ((16 ≤ (s.core c).seq.regions.length ∨ ∃ x ∈ (s.core c).seq.regions, x.1 = fld w 0 12) → ∃ t, exec (.regionBegin c w) s = .next t ∧
        s.Skipped t c (Word128.withOp w 6 0x2C) 0x1B ∧ (t.core c).seq.cc = ccAfter (s.core c).seq.cc (Word128.sigcc w) true)) := by
  have opc : (Word128.opcode (Word128.withOp w 6 0x2C)).toNat = 0x2C := by simp
  refine ⟨fun room new => ?_, fun bad => ?_⟩
  · refine congrArg Host.Outcome.next (s.fetch_seqStep c _ _ _ hr hd (by simp [engSEQ]) (by simp [isLaunch_withOp]) (fun d hv => ?_)
      (fun _ => ⟨rfl, rfl, rfl⟩) (fun _ _ _ => rfl))
    have opens := (s.offered c d).regionBegin_opens c (fld w 0 12) (by rwa [s.regions_offered]) (by rwa [s.regions_offered])
    rw [State.issueSeq_begin _ _ _ (by rw [hv, opc]), hv, marker_number]
    dsimp only
    rw [opens, withOp_sigcc]
    rfl
  · obtain ⟨t, ht, skipped⟩ := s.fetch_seq_skips c w 0x2C 0x1B hr hd (by decide) (fun d hv => by
      have fails := (s.offered c d).regionBegin_fails c (fld w 0 12) (by rwa [s.regions_offered])
      rw [State.issueSeq_begin _ _ _ (by rw [hv, opc]), hv, marker_number]
      dsimp only
      rw [fails]
      rfl)
    exact ⟨t, congrArg Host.Outcome.next ht, skipped⟩

/-- A core whose innermost region has closed, with the new entry e of the region r. -/
def Core.closed (k : Core) (rest : List (BitVec 12 × BitVec 64)) (r : Nat) (e : RegionEntry) : Core :=
  { k.modSeq (fun q => { q with regions := rest }) with region := { k.region with table := tabSet k.region.table r e } }

/-- The innermost region closes, and a late one is reported. -/
theorem State.regionEnd_closes (s : State) (c plan : Nat) (r : BitVec 12) (t0 : BitVec 64) (rest : List (BitVec 12 × BitVec 64))
    (h : (s.core c).seq.regions = (r, t0) :: rest) : ∃ supp budget g,
    s.regionEnd c r.toNat plan = ((s.modCore c (fun k => (k.closed rest r.toNat
      ((tabGet (s.core c).region.table r.toNat {}).close (s.now - t0).toNat plan (s.core c).region.lateNs.toNat).1).charged supp budget)).withGoose g, 0) ∧
    (plan = 0 → g = s.goose) := by
  obtain ⟨res, hres⟩ : ∃ res, res = (tabGet (s.core c).region.table r.toNat {}).close (s.now - t0).toNat plan (s.core c).region.lateNs.toNat :=
    ⟨_, rfl⟩
  have quiet : plan = 0 → res.2 = none := by
    rintro rfl
    rw [hres]
    rfl
  have same : s.modCore c (fun k => k.closed rest r.toNat res.1) =
      (s.modCore c (fun k => (k.closed rest r.toNat res.1).charged (s.core c).err.gooseSupp (s.core c).budget)).withGoose s.goose :=
    s.modCore_congr c _ (fun k => (k.closed rest r.toNat res.1).charged (s.core c).err.gooseSupp (s.core c).budget) rfl
  unfold State.regionEnd
  simp only [h, ne_eq, not_true_eq_false, if_false, ← hres]
  split
  · next slip hs =>
    split
    · obtain ⟨supp, budget, g, left⟩ := (s.modCore c (fun k => k.closed rest r.toNat res.1)).logBudget_charged c
        ((s.modCore c (fun k => k.closed rest r.toNat res.1)).coreEvent c 0x04 [(r.toNat, 2), ((satInt 32 slip).toNat, 4)])
      refine ⟨supp, budget, g, ?_, fun p => absurd (quiet p) (by simp [hs])⟩
      rw [State.modCore_modCore] at left
      exact congrArg (fun x => (x, 0)) left
    · exact ⟨_, _, _, congrArg (fun x => (x, 0)) same, fun _ => rfl⟩
  · exact ⟨_, _, _, congrArg (fun x => (x, 0)) same, fun _ => rfl⟩

theorem State.regionEnd_fails (s : State) (c plan : Nat) (r : BitVec 12) (bad : ∀ t0 rest, (s.core c).seq.regions ≠ (r, t0) :: rest) :
    s.regionEnd c r.toNat plan = (s, 0x1B) := by
  unfold State.regionEnd
  split
  · next x t0 rest h =>
    have other : x.toNat ≠ r.toNat := fun e => bad t0 rest (by rw [h, BitVec.eq_of_toNat_eq e])
    rw [if_pos other]
  · rfl

/-- The fields of an entry that closes (R430). -/
theorem RegionEntry.close_fields (e : RegionEntry) (ns plan late : Nat) :
    let e' := (e.close ns plan late).1
    let last := min ns (2 ^ 40 - 1)
    let slip : Int := (last : Int) - plan
    e'.count = satInc e.count ∧ e'.last.toNat = last ∧ e'.total = satAdd e.total last ∧
      (plan = 0 → e'.planned = false ∧ e'.late = e.late ∧ e'.lastSlip = e.lastSlip ∧ e'.maxSlip = e.maxSlip) ∧
      (plan ≠ 0 → e'.planned = true ∧ e'.lastSlip = satInt 32 slip ∧
        e'.maxSlip = satInt 32 (if e.slipSeen then max e.maxSlip.toInt slip else slip) ∧
        e'.late = (if (late : Int) < slip then satInc e.late else e.late)) := by
  have small : min ns (2 ^ 40 - 1) < 2 ^ 40 := by omega
  intro e' last slip
  by_cases h : plan = 0
  · have made : e' = { e with count := satInc e.count, last := BitVec.ofNat 40 last, total := satAdd e.total last, planned := false } := by
      simp only [e', RegionEntry.close, h, if_true]
      rfl
    rw [made]
    refine ⟨rfl, ?_, rfl, fun _ => ⟨rfl, rfl, rfl, rfl⟩, fun p => absurd h p⟩
    rw [BitVec.toNat_ofNat]
    exact Nat.mod_eq_of_lt small
  · have made : e' = { e with
        count := satInc e.count, last := BitVec.ofNat 40 last, total := satAdd e.total last, planned := true, slipSeen := true
        lastSlip := satInt 32 slip, maxSlip := satInt 32 (if e.slipSeen then max e.maxSlip.toInt slip else slip)
        late := if (late : Int) < slip then satInc e.late else e.late } := by
      simp only [e', RegionEntry.close, h, if_false, decide_eq_true_eq]
      rfl
    rw [made]
    refine ⟨rfl, ?_, rfl, fun p => absurd p h, fun _ => ⟨rfl, rfl, rfl, rfl⟩⟩
    rw [BitVec.toNat_ofNat]
    exact Nat.mod_eq_of_lt small

/-- What REGION_END leaves of its core. -/
def Core.regionEnded (k : Core) (rest : List (BitVec 12 × BitVec 64)) (r : Nat) (e : RegionEntry) (sg : BitVec 8) (supp : BitVec 8)
    (budget : List (BitVec 64)) : Core :=
  ((k.closed rest r e).charged supp budget).modSeq (fun q => { q with pc := q.pc + 1, stall := .none, cc := ccAfter q.cc sg false })

theorem Core.regionEnded_eng (k : Core) (rest : List (BitVec 12 × BitVec 64)) (r : Nat) (e : RegionEntry) (sg : BitVec 8) (supp : BitVec 8)
    (budget : List (BitVec 64)) (u : EngUnit) : (k.regionEnded rest r e sg supp budget).eng u = k.eng u := by cases u <;> rfl

/-- REGION_END on the innermost region. -/
theorem State.fetch_regionEnd (s : State) (c : CoreId) (w : IWord) (t0 : BitVec 64) (rest : List (BitVec 12 × BitVec 64)) (hr : s.Ready c)
    (hd : decodeCause (Word128.withOp w 6 0x2D) = 0) (h : (s.core c).seq.regions = (fld w 0 12, t0) :: rest) :
    ∃ supp budget g, s.fetch c (Word128.withOp w 6 0x2D) = (s.modCore c (fun k => k.regionEnded rest (fld w 0 12).toNat
      ((tabGet (s.core c).region.table (fld w 0 12).toNat {}).close (s.now - t0).toNat (fldN w 12 40) (s.core c).region.lateNs.toNat).1
        (Word128.sigcc w) supp budget)).withGoose g ∧ (fldN w 12 40 = 0 → g = s.goose) := by
  obtain ⟨buf, nowait, held, queues⟩ := s.ready_empty c hr
  have opc : (Word128.opcode (Word128.withOp w 6 0x2D)).toNat = 0x2D := by simp
  have plan : Word128.body (Word128.withOp w 6 0x2D) 12 40 = fldN w 12 40 := withOp_fldN _ _ _ _ _ (by decide)
  obtain ⟨d, hd'⟩ : ∃ d, d = s.decodedAt c (Word128.withOp w 6 0x2D) := ⟨_, rfl⟩
  have word : d.word = Word128.withOp w 6 0x2D := by rw [hd']; rfl
  obtain ⟨supp, budget, g, closes, quiet⟩ := (s.offered c d).regionEnd_closes c (fldN w 12 40) (fld w 0 12) t0 rest
    ((s.regions_offered c d).trans h)
  have table : ((s.offered c d).core c).region = (s.core c).region := by rw [s.offered_core c d c.isLt]; rfl
  have clock : (s.offered c d).now = s.now := rfl
  rw [table, clock] at closes
  obtain ⟨e, he⟩ : ∃ e, e = ((tabGet (s.core c).region.table (fld w 0 12).toNat {}).close (s.now - t0).toNat (fldN w 12 40)
    (s.core c).region.lateNs.toNat).1 := ⟨_, rfl⟩
  rw [← he] at closes ⊢
  have issue := State.issueSeq_end (s.offered c d) c d (by rw [word, opc])
  rw [word, marker_number, plan] at issue
  dsimp only at issue
  rw [closes, withOp_sigcc] at issue
  rw [if_neg (by simp)] at issue
  have one := State.issueOne_seq s _ c d hr.1 hr.2.1 (by rw [hd']; exact hd) (by rw [word]; simp [isLaunch_withOp]) (by simp [word, engSEQ]) issue
  have left : ((((s.offered c d).modCore c (fun k => (k.closed rest (fld w 0 12).toNat e).charged supp budget)).withGoose g).signal c
      (Word128.sigcc w) false).tookWords c 1 false =
      (s.modCore c (fun k => k.regionEnded rest (fld w 0 12).toNat e (Word128.sigcc w) supp budget)).withGoose g := by
    rw [State.tookWords_indep, State.signal_eq, State.offered]
    simp only [State.withGoose_modCore, State.modCore_modCore]
    refine congrArg (fun x : State => x.withGoose g) (s.modCore_congr c _ _ ?_)
    simp [Core.regionEnded, Core.closed, Core.charged, Core.modSeq, ccAfter_eq, buf, held]
  rw [left] at one
  have here := s.skipped_core c (fun k => k.regionEnded rest (fld w 0 12).toNat e (Word128.sigcc w) supp budget) g
  have others := s.skipped_others c (fun k => k.regionEnded rest (fld w 0 12).toNat e (Word128.sigcc w) supp budget) g
  have runs : (s.core c).seq.ended = false := hr.1.2.2.2.1
  refine ⟨supp, budget, g, s.fetch_issues _ c _ hr.1 hr.2.1 (by simp [isLaunch_withOp]) (by rw [hd'] at one; exact one) ?_ ?_, quiet⟩
  · refine State.Quiet.congr c hr.2.1 others ?_
    rw [here, Core.quiet]
    simp only [Core.regionEnded_eng]
    exact hr.2.1 c c.isLt
  · refine State.Steady.of_running c hr.2.2 (fun x => ?_) others (by rw [here]; exact runs) rfl rfl
    by_cases e : x = c.val
    · rw [e, here]
      rfl
    · rw [others x e]

/-- REGION_END on a ready core. -/
theorem regionEnd_row (c : CoreId) (w : IWord) (s : State) (hr : s.Ready c) (hd : decodeCause (Word128.withOp w 6 0x2D) = 0) :
    ((∀ t0 rest, (s.core c).seq.regions ≠ (fld w 0 12, t0) :: rest) → ∃ t, exec (.regionEnd c w) s = .next t ∧
      s.Skipped t c (Word128.withOp w 6 0x2D) 0x1B ∧ (t.core c).seq.cc = ccAfter (s.core c).seq.cc (Word128.sigcc w) true) ∧
    (∀ t0 rest, (s.core c).seq.regions = (fld w 0 12, t0) :: rest →
      let r : BitVec 12 := fld w 0 12
      let e := tabGet (s.core c).region.table r.toNat {}
      let last := min (s.time.ft - t0).toNat (2 ^ 40 - 1)
      let plan := fldN w 12 40
      let slip : Int := (last : Int) - plan
      ∃ t e', exec (.regionEnd c w) s = .next t ∧ (t.core c).seq.regions = rest ∧
        (t.core c).region.table = tabSet (s.core c).region.table r.toNat e' ∧
        e'.count = satInc e.count ∧ e'.last.toNat = last ∧ e'.total = satAdd e.total last ∧
        (plan = 0 → e'.planned = false ∧ e'.late = e.late ∧ e'.lastSlip = e.lastSlip ∧ e'.maxSlip = e.maxSlip ∧ t.goose = s.goose) ∧
        (plan ≠ 0 → e'.planned = true ∧ e'.lastSlip = satInt 32 slip ∧
          e'.maxSlip = satInt 32 (if e.slipSeen then max e.maxSlip.toInt slip else slip) ∧
          e'.late = (if ((s.core c).region.lateNs.toNat : Int) < slip then satInc e.late else e.late)) ∧
        (t.core c).seq.pc = (s.core c).seq.pc + 1 ∧ (t.core c).seq.gr = (s.core c).seq.gr ∧
        (t.core c).seq.cc = ccAfter (s.core c).seq.cc (Word128.sigcc w) false ∧ s.otherCores t c ∧ t.ms = s.ms ∧ s.sameRest t) := by
  have opc : (Word128.opcode (Word128.withOp w 6 0x2D)).toNat = 0x2D := by simp
  have plan : Word128.body (Word128.withOp w 6 0x2D) 12 40 = fldN w 12 40 := withOp_fldN _ _ _ _ _ (by decide)
  refine ⟨fun bad => ?_, fun t0 rest h => ?_⟩
  · obtain ⟨t, ht, skipped⟩ := s.fetch_seq_skips c w 0x2D 0x1B hr hd (by decide) (fun d hv => by
      have fails := (s.offered c d).regionEnd_fails c (fldN w 12 40) (fld w 0 12) (fun t0 rest => by
        rw [s.regions_offered]
        exact bad t0 rest)
      rw [State.issueSeq_end _ _ _ (by rw [hv, opc]), hv, marker_number, plan]
      dsimp only
      rw [fails]
      rfl)
    exact ⟨t, congrArg Host.Outcome.next ht, skipped⟩
  · intro r e last plan slip
    obtain ⟨supp, budget, g, left, quiet⟩ := s.fetch_regionEnd c w t0 rest hr hd h
    obtain ⟨e', he'⟩ : ∃ e', e' = (e.close (s.now - t0).toNat plan (s.core c).region.lateNs.toNat).1 := ⟨_, rfl⟩
    obtain ⟨count, lastNs, total, unplanned, planned⟩ := e.close_fields (s.now - t0).toNat plan (s.core c).region.lateNs.toNat
    rw [← he'] at left count lastNs total unplanned planned
    obtain ⟨t, ht⟩ : ∃ t, t = (s.modCore c (fun k => k.regionEnded rest r.toNat e' (Word128.sigcc w) supp budget)).withGoose g := ⟨_, rfl⟩
    have here : t.core c = (s.core c).regionEnded rest r.toNat e' (Word128.sigcc w) supp budget :=
      (congrArg (fun z : State => z.core c) ht).trans (s.skipped_core c _ g)
    have others : s.otherCores t c := fun x hx => by rw [ht]; exact s.skipped_others c _ g x hx
    obtain ⟨ms, fab, time, -, parts, eth, -, rst, fl, sec, pins, pending⟩ := s.skipped_rest c _ g t ht
    refine ⟨t, e', congrArg Host.Outcome.next (left.trans ht.symm), ?_, ?_, count, lastNs, total, fun p => ?_, planned, ?_, ?_, ?_, others, ms,
      fab, time, eth, rst, fl, sec, pins, parts, pending⟩
    · rw [here]
      rfl
    · rw [here]
      rfl
    · obtain ⟨h1, h2, h3, h4⟩ := unplanned p
      refine ⟨h1, h2, h3, h4, ?_⟩
      rw [ht, quiet p]
      rfl
    · rw [here]
      rfl
    · rw [here]
      rfl
    · rw [here]
      rfl

/-! ## The ring -/

/-- What decides whether programs are over is as it was. -/
theorem State.Steady.of_programs {s t : State} (h : s.Steady) (ids : ∀ d, (t.core d).id = (s.core d).id)
    (ends : ∀ d, ((t.core d).seq.ended && !(t.core d).seq.stopped && (t.core d).allIdle) =
      ((s.core d).seq.ended && !(s.core d).seq.stopped && (s.core d).allIdle)) (parts : t.parts = s.parts)
    (armed : t.eth.armed = s.eth.armed) : t.Steady := by
  refine ⟨fun d hd act => ?_, fun p hp run => ?_⟩
  · rw [ids] at act
    simp only [State.programOver, State.groupOf_congr ids, ends]
    exact h.1 d hd act
  · have same : t.part p = s.part p := by simp [State.part, parts]
    rw [same] at run
    simpa only [armed, ids, same] using h.2 p hp run

theorem State.self_mem_groupOf (s : State) (d : Nat) : d ∈ s.groupOf d := by
  unfold State.groupOf
  dsimp only
  split
  · refine List.mem_map.mpr ⟨d % 2 ^ (s.core d).id.groupSize.toNat, List.mem_range.mpr (Nat.mod_lt _ (by positivity)), ?_⟩
    exact Nat.mod_add_div' d _
  · exact List.mem_singleton.mpr rfl

/-- While no active core has ended, no program is over. -/
theorem State.Steady.of_noneEnded {s t : State} (h : s.Steady) (ids : ∀ d, (t.core d).id = (s.core d).id)
    (going : ∀ d, d < 8 → (t.core d).id.active = true → (t.core d).seq.ended = false) (parts : t.parts = s.parts)
    (armed : t.eth.armed = s.eth.armed) : t.Steady := by
  refine ⟨fun d hd act => ?_, fun p hp run => ?_⟩
  · rw [State.programOver, List.all_eq_false]
    exact ⟨d, t.self_mem_groupOf d, by simp [going d hd act]⟩
  · have same : t.part p = s.part p := by simp [State.part, parts]
    rw [same] at run
    simpa only [armed, ids, same] using h.2 p hp run

/-- A word of the ring joins the buffer of a member that waits, when it has room. -/
theorem broadcastDelivery_waiting (c : CoreId) (s : State) (steady : s.Steady) (calm : s.stopped = false)
    (others : ∀ d, d < 8 → d ≠ c.val → (s.core d).quiet = true) (queues : ∀ u ∈ engUnits, ((s.core c).eng u).queue = [])
    (waits : (s.core c).seq.wait ≠ .none) (waiting : (s.core c).waitOver = none) (d : Decoded) (rest : List Decoded)
    (ring : (s.core c).ringIn = d :: rest) :
    ((s.core c).seq.buf.length < 64 → exec (.broadcastDelivery c) s = .next (s.modCore c (fun k =>
        { k.modSeq (fun q => { q with buf := q.buf ++ [d] }) with ringIn := rest }))) ∧
      (64 ≤ (s.core c).seq.buf.length → exec (.broadcastDelivery c) s = .next s) := by
  change (_ → execBroadcastDelivery c s = _) ∧ (_ → execBroadcastDelivery c s = _)
  unfold execBroadcastDelivery State.deliver
  rw [calm, ring]
  refine ⟨fun room => ?_, fun full => ?_⟩
  · obtain ⟨t, ht⟩ : ∃ t, t = s.modCore c (fun k => { k.modSeq (fun q => { q with buf := q.buf ++ [d] }) with ringIn := rest }) := ⟨_, rfl⟩
    have here : t.core c = { (s.core c).modSeq (fun q => { q with buf := q.buf ++ [d] }) with ringIn := rest } := by rw [ht]; simp
    have same : ∀ x, x ≠ c.val → t.core x = s.core x := fun x hx => by rw [ht]; simp [hx]
    have stays : State.settleCore c 160 t = t := by
      refine State.settleCore_stuck t c 160 (fun u hu => ?_) ?_
      · rw [here]
        have empty := queues u hu
        cases u <;> exact empty
      · have stuck : (t.core c).waitOver = none := by
          rw [here]
          exact waiting
        unfold State.issueOne
        dsimp only
        rw [stuck]
        have held : ((t.core c).seq.wait != .none) = true := by
          rw [here]
          simpa [Core.modSeq] using waits
        simp [held]
    have still : t.Steady := by
      refine steady.of_programs (fun x => ?_) (fun x => ?_) (by rw [ht]; rfl) (by rw [ht]; rfl)
      · by_cases e : x = c.val
        · rw [e, here]
          rfl
        · rw [same x e]
      · by_cases e : x = c.val
        · rw [e, here]
          rfl
        · rw [same x e]
    rw [if_neg (by simp)]
    dsimp only
    rw [if_pos room]
    refine congrArg Host.Outcome.next ((congrArg State.settle ht.symm).trans ((State.settle_core t t c (by rw [ht]; exact calm) (fun x hx hne => ?_) (fun x hx hne => ?_) stays stays still).trans ht))
    · rw [same x hne]
      exact others x hx hne
    · rw [same x hne]
      exact others x hx hne
  · rw [if_neg (by simp)]
    dsimp only
    rw [if_neg (by omega)]

/-- A credit that a member gives back is one more of its Bellwether's. -/
theorem ringCreditReturn_row (c : CoreId) (s : State) (calm : s.stopped = false) :
    (∀ b, b < 8 → (s.groupOf c).find? (fun d => (s.core d).isBellwether) = some b → 0 < (s.core c).creditsBack →
      exec (.ringCreditReturn c) s = .next ((s.modCore c (fun k => { k with creditsBack := k.creditsBack - 1, ringHeld := false })).modCore b
        (fun k => k.modSeq (fun q => { q with credits := vmod q.credits (s.core c).id.rank.toNat (fun n => n + 1) })))) ∧
    ((s.core c).creditsBack = 0 → exec (.ringCreditReturn c) s = .next s) := by
  change (∀ b, b < 8 → _ → _ → execRingCreditReturn c s = _) ∧ (_ → execRingCreditReturn c s = _)
  unfold execRingCreditReturn State.creditReturn
  rw [calm]
  refine ⟨fun b _ hb owed => ?_, fun none_ => ?_⟩
  · have owes : ¬ (s.core c).creditsBack = 0 := by omega
    simp [owes, hb]
  · simp [none_]

/-! ## Null entries -/

/-- A null entry with no earlier operation of its unit running signals its counter with ERR. -/
theorem nullEntrySignal_row (c : CoreId) (u : EngUnit) (s : State) (r : REntry) (rest : List REntry) (quiet : s.Quiet) (steady : s.Steady)
    (calm : s.stopped = false) (queue : ((s.core c).eng u).queue = []) (running : ((s.core c).eng u).running = r :: rest)
    (null : r.q.op = none) (first : ∀ x ∈ rest, r.q.id < x.q.id)
    (going : ∀ d, d < 8 → (s.core d).id.active = true → (s.core d).seq.ended = false) (free : ∀ e ∈ (s.core c).seq.sb, e.owner ≠ r.q.id) :
    exec (.nullEntrySignal c u) s = .next (s.modCore c (fun k => (k.modEng u (fun e => { e with running := rest })).modSeq
      (fun q => { q with cc := ccAfter q.cc r.q.sigcc true }))) := by
  have ready : ((s.core c).eng u).readyNull = some r := by
    have least : ∀ x ∈ rest, r.q.id ≤ x.q.id := fun x hx => (first x hx).le
    unfold EngQueue.readyNull
    rw [running, List.find?_cons_of_pos]
    simpa [null] using least
  have leaves : rest.filter (fun x => x.q.id != r.q.id) = rest := by
    rw [List.filter_eq_self]
    exact fun x hx => by simpa using (first x hx).ne'
  have release : (s.core c).seq.sb.filter (fun e => e.owner != r.q.id) = (s.core c).seq.sb := by
    rw [List.filter_eq_self]
    exact fun e he => by simpa using free e he
  have drop : State.dropNulls c u 16 s = s := s.dropNulls_waits c u 16 (by simp [queue])
  obtain ⟨t, ht⟩ : ∃ t, t = s.modCore c (fun k => (k.modEng u (fun e => { e with running := rest })).modSeq
      (fun q => { q with cc := ccAfter q.cc r.q.sigcc true })) := ⟨_, rfl⟩
  have signalled : s.signalNull c u = t := by
    rw [State.signalNull, ready, ht]
    dsimp only
    rw [State.finish, State.signal_eq, State.modCore_modCore]
    refine s.modCore_congr c _ _ ?_
    have unit_ : (s.core c).modEng u (fun e => { e with running := e.running.filter (fun x => x.q.id != r.q.id) }) =
        (s.core c).modEng u (fun e => { e with running := rest }) :=
      Core.modEng_congr _ u _ _ (by simp [running, leaves])
    rw [unit_, Core.modSeq_modSeq]
    refine Core.modSeq_congr _ _ _ ?_
    rw [Core.seq_modEng]
    simp [SeqState.release, release, ccAfter_eq]
  have here : t.core c = ((s.core c).modEng u (fun e => { e with running := rest })).modSeq
      (fun q => { q with cc := ccAfter q.cc r.q.sigcc true }) := by rw [ht]; simp
  have others : ∀ d, d ≠ c.val → t.core d = s.core d := fun d hd => by rw [ht]; simp [hd]
  have same : (t.core c).id = (s.core c).id ∧ (t.core c).seq.ended = (s.core c).seq.ended ∧ (t.core c).seq.buf = (s.core c).seq.buf ∧
      (t.core c).seq.wait = (s.core c).seq.wait := by
    rw [here]
    simp only [Core.modSeq, Core.id_modEng, Core.seq_modEng, and_self]
  obtain ⟨id, ended, buf, wait⟩ := same
  have ids : ∀ d, (t.core d).id = (s.core d).id ∧ (t.core d).seq.ended = (s.core d).seq.ended := fun d => by
    by_cases e : d = c.val
    · rw [e]
      exact ⟨id, ended⟩
    · rw [others d e]
      exact ⟨rfl, rfl⟩
  have still : t.Quiet := by
    refine State.Quiet.congr c quiet others ?_
    have before := quiet c c.isLt
    simp only [Core.quiet, Bool.and_eq_true, List.all_eq_true, List.isEmpty_iff] at before ⊢
    rw [buf, wait]
    refine ⟨before.1, fun v hv => ?_⟩
    rw [here, Core.modSeq_eng, Core.eng_modEng]
    split
    · exact queue
    · exact before.2 v hv
  have steady' : t.Steady := steady.of_noneEnded (fun d => (ids d).1) (fun d hd act => by
    rw [(ids d).2]
    rw [(ids d).1] at act
    exact going d hd act) (by rw [ht]; rfl) (by rw [ht]; rfl)
  change execNullEntrySignal c u s = _
  rw [execNullEntrySignal, calm, drop, signalled, State.settle_quiet t still steady', ht]
  rfl

/-- Settles O8: regions open and close, the ring delivers, and null entries signal. -/
theorem regionsRingsNulls : Obligations.RegionsRingsNulls := by
  unfold Obligations.RegionsRingsNulls
  refine ⟨fun c w s hr => ⟨fun hd => regionBegin_row c w s hr hd, fun hd => regionEnd_row c w s hr hd⟩,
    ⟨fun c s steady calm => ⟨fun others queues waits waiting d rest ring =>
      broadcastDelivery_waiting c s steady calm others queues waits waiting d rest ring, (ringCreditReturn_row c s calm).1,
      (ringCreditReturn_row c s calm).2⟩, fun c u s r rest quiet steady calm queue running null first going free =>
      nullEntrySignal_row c u s r rest quiet steady calm queue running null first going free⟩⟩

end Sys2Proof.Machine
end

section
/-! PROOFS. O10 EngineStarts fails: the read of a descriptor in HBM can promote its page over a frame with a stale stack line. -/

namespace Sys2Proof.Machine

set_option Elab.async false -- in turn: many waiting threads need much memory

/-- An ATT operation with its descriptor at 2^20 in HBM, in page 2 of heat cache 0. -/
def farDescOp : QEntry := ⟨0, 0, 3, 0, 0xFF, false, none, some (.att 0 0x100000 0), {}⟩

/-- Heat cache 0 with one frame not lent, which holds page 0; the stack holds line 0 of it with another content (a miscorrected
read, R257), and any request promotes its page. -/
def staleFrameDie : HcDie :=
  { frames := [(0, { page := 0, state := .valid, keep := false, age := 1, touched := false, valid := 1, dirty := 0 })]
    borrowed := 1023, stackOld := [(0, 1)] }

/-- The state after reset with this heat cache, and the operation at the head of core 0's ATT queue. -/
def farDescState : State :=
  { State.reset with
    cores := vmod State.reset.cores 0 (fun k => { k with att := { queue := [farDescOp] } })
    ms := { State.reset.ms with hc := State.reset.ms.hc.set 0 staleFrameDie, hcCtrl := { State.reset.ms.hcCtrl with thresh := 0 } } }

theorem farDescState_headAlone : farDescState.HeadAlone 0 .att farDescOp := by
  unfold State.HeadAlone State.Steady
  decide +kernel

/-- The read of the descriptor changes byte 0. -/
theorem byte_of_farDescState : ((farDescState.startAtt 0).settle).ms.byte 0 ≠ farDescState.ms.byte 0 := by decide +kernel

/-- Refutes O10: the start reads its descriptor, whose page is promoted over the frame of page 0; the stack's own content of
the clean line 0 then shows, so a byte of memory changes though no stored error waits to be written back. -/
theorem not_engineStarts : ¬ Obligations.EngineStarts := by
  unfold Obligations.EngineStarts
  rintro ⟨-, starts⟩
  obtain ⟨-, -, -, att, -⟩ := starts 0 farDescState farDescOp
  obtain ⟨t, run, -, ⟨-, bytes⟩, -⟩ := att 0 0x100000 0 farDescState_headAlone rfl (.inl (by decide +kernel)) (by decide +kernel)
  obtain rfl : (farDescState.startAtt 0).settle = t := Host.Outcome.next.inj run
  exact byte_of_farDescState (bytes (by decide +kernel) 0)

end Sys2Proof.Machine
end

section
/-! PROOFS. O6 ScalarAccesses and O12 OperationsComplete fail: a read of HBM can promote its page over a frame with a stale
stack line. -/

namespace Sys2Proof.Machine

set_option Elab.async false -- in turn: many waiting threads need much memory

/-- HBM with the stale frame of page 0 in heat cache 0, whose every request promotes its page, and the lowest GiB given to partition 0. -/
def staleHbm : MemSys :=
  { State.reset.ms with
    hc := State.reset.ms.hc.set 0 staleFrameDie, hcCtrl := { State.reset.ms.hcCtrl with thresh := 0 }
    preg := vmod State.reset.ms.preg 0 (fun _ => { valid := true }) }

/-! ## O6 -/

/-- Core 0 runs a program, and its AR0 names byte 2^20 of this module's HBM. -/
def loadingCore : Core := { id := { active := true }, seq := { ar := vmod (Vector.replicate 32 0) 0 (fun _ => 0xFFFC0000100000) } }

/-- The state after reset with this core and this HBM. -/
def loadingState : State := { State.reset with cores := vmod State.reset.cores 0 (fun _ => loadingCore), ms := staleHbm }

theorem loadingState_ready : loadingState.Ready 0 := by
  unfold State.Ready State.Takes State.Quiet State.Steady
  decide +kernel

/-- The load of a byte changes byte 0. -/
theorem byte_of_loadingState : (loadingState.fetch 0 (Word128.withOp 0 6 0x20)).ms.byte 0 ≠ loadingState.ms.byte 0 := by decide +kernel

/-- Refutes O6: an SLD that misses the core cache reads its line from HBM, whose page is promoted over the frame of page 0; the
stack's own content of the clean line 0 then shows. -/
theorem not_scalarAccesses : ¬ Obligations.ScalarAccesses := by
  unfold Obligations.ScalarAccesses
  intro h
  obtain ⟨load, -⟩ := h 0 0 loadingState loadingState_ready
  obtain ⟨t, run, -, -, -, -, -, -, -, bytes, -⟩ := load (by decide +kernel) (by decide +kernel) (by decide +kernel) (fun _ => by decide +kernel)
  obtain rfl : loadingState.fetch 0 (Word128.withOp 0 6 0x20) = t := Host.Outcome.next.inj run
  exact byte_of_loadingState (bytes 0 (by decide +kernel))

/-! ## O12 -/

/-- An LDW of one BF16 weight at 2^20 in HBM, which runs on the Ox array of core 0. -/
def farLdw : REntry := { q := ⟨0, 0, 0, 1, 0xFF, false, none, some (.ldw 0x100000 0 false 0 1 1), {}⟩ }

/-- The state after reset with this operation and this HBM. -/
def farLdwState : State :=
  { State.reset with cores := vmod State.reset.cores 0 (fun k => { k with ox := { running := [farLdw] } }), ms := staleHbm }

theorem farLdwState_calm : farLdwState.Calm := by
  unfold State.Calm State.Quiet State.Steady
  decide +kernel

/-- The load of the tile changes byte 0. -/
theorem byte_of_farLdwState : ((farLdwState.completeAt 0 .ox 0).settle).ms.byte 0 ≠ farLdwState.ms.byte 0 := by decide +kernel

/-- Refutes O12: an LDW that completes reads its tile from HBM, whose page is promoted over the frame of page 0; the stack's own
content of the clean line 0 then shows. -/
theorem not_operationsComplete : ¬ Obligations.OperationsComplete := by
  unfold Obligations.OperationsComplete
  intro h
  obtain ⟨-, -, -, -, ldw, -⟩ := h 0 .ox 0 farLdwState farLdw farLdwState_calm (by decide +kernel)
  obtain ⟨t, err, run, -, -, bytes, -⟩ := ldw 0x100000 0 false 0 1 1 rfl rfl
  obtain rfl : (farLdwState.completeAt 0 .ox 0).settle = t := Host.Outcome.next.inj run
  exact byte_of_farLdwState (bytes (by decide +kernel) 0)

end Sys2Proof.Machine
end

section
/-! PROOFS. O26 BullockTakesCommands, O28 HbmAndMemoryEvents and O32 DataPackets fail: the frames that a command borrows, a request of the HBM
controller and the read of a READ packet can take a frame with a stale stack line away. -/

namespace Sys2Proof.Machine

set_option Elab.async false -- in turn: many waiting threads need much memory

/-! ## O26 -/

/-- An UPDATE of a block of one element, whose program at 0x100800 is one NOP; it works on no tensor. -/
def idleBlockUpdate : List Byte :=
  [1, 1, 0, 0] ++ leBytes 4 1 ++ leBytes 8 0x100800 ++ leBytes 8 0 ++ leBytes 4 1 ++ leBytes 4 1 ++ List.replicate 64 0 ++
    leBytes 4 0xFFFFFFFF ++ leBytes 4 0 ++ leBytes 2 1 ++ leBytes 2 1 ++ leBytes 4 0 ++ leBytes 8 0x100C00 ++ leBytes 8 0

/-- Bullock die 0 with one command, at 2^20 + 64, in the ring of partition 0. -/
def blockRingDie : Ud := { rings := vmod (Vector.replicate 8 {}) 0 (fun _ => { enable := true, base := 0x100000, tail := 1, log2 := 4 }) }

/-- Heat cache 0, whose last frame holds page 0; the stack holds line 0 of it with another content (a miscorrected read, R257). -/
def staleLastFrameDie : HcDie :=
  { frames := [(1023, { page := 0, state := .valid, keep := false, age := 1, touched := false, valid := 1, dirty := 0 })]
    stackOld := [(0, 1)] }

/-- The state after reset with this die, this heat cache, and the command and its program in memory. -/
def blockRingState : State :=
  { State.reset with
    ud := vmod State.reset.ud 0 (fun _ => blockRingDie)
    ms := ({ staleHbm with hc := State.reset.ms.hc.set 0 staleLastFrameDie }.put 0x100040 idleBlockUpdate).put 0x100800 [1, 1, 0xFF] }

/-- Taking the command changes byte 0. -/
theorem byte_of_blockRingState : (blockRingState.takeCmd 0 false).ms.mem.read 0 0 ≠ blockRingState.ms.mem.read 0 0 := by decide +kernel

/-- Refutes O26: a block UPDATE that is taken borrows the last frames of its heat caches, and the stack's own content of the clean
line 0 then shows: memory changes though the program stores nothing. -/
theorem not_bullockTakesCommands : ¬ Obligations.BullockTakesCommands := by
  unfold Obligations.BullockTakesCommands
  intro h
  obtain ⟨-, -, update, -⟩ := h 0 0 blockRingState rfl (by decide +kernel) (by decide +kernel) (by decide +kernel) (by decide +kernel)
  obtain ⟨t, run, -, -, -, -, -, -, mem, -⟩ := update (by decide +kernel)
  obtain rfl : blockRingState.takeCmd 0 false = t := Host.Outcome.next.inj run
  exact byte_of_blockRingState (congrArg (Mem.read · 0 0) mem)

/-! ## O28 -/

/-- The state after reset with this HBM. -/
def staleState : State := { State.reset with ms := staleHbm }

/-- A read request of the line at 2^20 changes byte 0. -/
theorem byte_of_staleState : (staleState.hbmRead 0x100000 0 []).ms.mem.read 0 0 ≠ staleState.ms.mem.read 0 0 := by decide +kernel

/-- Refutes O28: a read request without a hint promotes its page over the frame of page 0, and the stack's own content of the clean
line 0 then shows. -/
theorem not_hbmAndMemoryEvents : ¬ Obligations.HbmAndMemoryEvents := by
  unfold Obligations.HbmAndMemoryEvents
  rintro ⟨requests, -⟩
  obtain ⟨read, -⟩ := requests 0x100000 0 [] staleState rfl rfl
  obtain ⟨t, run, -, mem, -⟩ := read (by decide) (.inr (by decide +kernel))
  obtain rfl : staleState.hbmRead 0x100000 0 [] = t := Host.Outcome.next.inj run
  exact byte_of_staleState (congrArg (Mem.read · 0 0) mem)

end Sys2Proof.Machine
end

section
/-! PROOFS. O27 BullockRings, O32 DataPackets and O41 RoceRequests fail: a doorbell granule in HBM, the read of a READ packet and
the read of an RDMA READ can promote their page over a frame with a stale stack line. -/

namespace Sys2Proof.Machine

set_option Elab.async false -- in turn: many waiting threads need much memory

/-! ## O27 -/

/-- The ring of partition 0 of Bullock die 0, with its doorbell granule at 2^20 in HBM. -/
def farRingDie : Ud := { rings := vmod (Vector.replicate 8 {}) 0 (fun _ => { enable := true, base := 0x100000, log2 := 4 }) }

/-- The state after reset with this die and an HBM whose every request promotes its page over a stale frame. -/
def farRingState : State := { State.reset with ud := vmod State.reset.ud 0 (fun _ => farRingDie), ms := staleHbm }

/-- No other ring is enabled. -/
theorem farRingState_oneRing : ∀ v q, v < 2 → q < 8 → (v ≠ (0 : UdId).val ∨ q ≠ (0 : Fin 8).val) →
    ((farRingState.udOf v).rings.getD q {}).enable = true →
      ((farRingState.udOf v).rings.getD q {}).base.toNat / 64 ≠ ((farRingState.udOf 0).rings.getD 0 {}).base.toNat / 64 := by
  have off : ∀ v, v < 2 → ∀ q, q < 8 → (v ≠ 0 ∨ q ≠ 0) → ((farRingState.udOf v).rings.getD q {}).enable = false := by decide +kernel
  intro v q hv hq other on
  exact absurd on (Bool.eq_false_iff.mp (off v hv q hq other))

/-- A write of the doorbell granule changes byte 0. -/
theorem byte_of_farRingState :
    (farRingState.homeWrite none ((farRingState.udOf 0).rings.getD 0 {}).base.toNat (leBytes 8 (0 : BitVec 64).toNat) 0).1.ms.mem.read 0 0 ≠
      (farRingState.ms.mem.writeN 0 ((farRingState.udOf 0).rings.getD 0 {}).base.toNat (leBytes 8 (0 : BitVec 64).toNat)).read 0 0 := by
  decide +kernel

/-- Refutes O27: a doorbell write promotes its page over the frame of page 0, and the stack's own content of the clean line 0 then
shows: memory changes beyond the doorbell granule. -/
theorem not_bullockRings : ¬ Obligations.BullockRings := by
  unfold Obligations.BullockRings
  rintro ⟨-, doorbell⟩
  obtain ⟨t, run, mem, -⟩ := doorbell 0 0 0 farRingState rfl (by decide +kernel) (by decide +kernel) (by decide +kernel) rfl rfl
    (by decide +kernel) farRingState_oneRing
  obtain rfl : (farRingState.homeWrite none ((farRingState.udOf 0).rings.getD 0 {}).base.toNat
    (leBytes 8 (0 : BitVec 64).toNat) 0).1 = t := Host.Outcome.next.inj run
  exact byte_of_farRingState (congrArg (Mem.read · 0 0) mem)

/-! ## O32 -/

/-- A READ of 64 bytes at 2^20 in HBM, under job tag 5. -/
def farRead : Packet :=
  PacketFields.build { ty := 2, dst := 0, src := 1, jobTag := 5, addr := 0x100000, xid := 9,
                       payload := leBytes 8 0 ++ leBytes 4 64 ++ List.replicate 52 0 }

/-- The state after reset with lane 0 UP, the job of tag 5 loaded in partition 0, and this HBM. -/
def farReadState : State :=
  { State.reset with
    fab := { State.reset.fab with
      sizes := #v[4, 2, 1, 1], coordValid := true, lanes := vmod State.reset.fab.lanes 0 (fun l => { l with state := .up }) }
    parts := vmod State.reset.parts 0 (fun _ => { state := .loaded, size := 1, jobTag := 5 })
    ms := staleHbm }

theorem farReadState_calm : farReadState.Calm := by
  unfold State.Calm State.Quiet State.Steady
  decide +kernel

theorem farReadState_noCopies : farReadState.NoCopies := by
  refine ⟨?_, rfl⟩
  intro c u hc mule
  have idle : ∀ c, c < 8 → engUnits.all (fun u => ((farReadState.core c).eng u).running.isEmpty) = true := by decide +kernel
  have listed : u ∈ engUnits := by cases u <;> simp [EngUnit.isMule, engUnits] at mule ⊢
  exact List.isEmpty_iff.mp (List.all_eq_true.mp (idle c hc) u listed)

set_option maxRecDepth 40000 in
theorem farRead_arrives : farReadState.Arrives 0 0x2 farRead := by
  refine ⟨farReadState_calm, farReadState_noCopies, ?_⟩
  decide +kernel

set_option maxRecDepth 40000 in
/-- The READ changes byte 0. -/
theorem byte_of_farReadState : (farReadState.typed 0 0x2 farRead).ms.mem.read 0 0 ≠ farReadState.ms.mem.read 0 0 := by decide +kernel

/-- Refutes O32: a READ packet promotes the page of its source over the frame of page 0, and the stack's own content of the clean
line 0 then shows. -/
theorem not_dataPackets : ¬ Obligations.DataPackets := by
  unfold Obligations.DataPackets
  intro h
  obtain ⟨-, read, -⟩ := h 0 farRead farReadState
  obtain ⟨-, served⟩ := read farRead_arrives
  obtain ⟨t, run, mem, -⟩ := served (by decide +kernel) (by decide +kernel) (by decide +kernel) rfl
  obtain rfl : farReadState.typed 0 0x2 farRead = t := Host.Outcome.next.inj run
  exact byte_of_farReadState (congrArg (Mem.read · 0 0) mem)

/-! ## O41 -/

/-- A queue pair of partition 0 that expects PSN 7. -/
def readerQp : Qp := { qpn := 5, port := 0, part := 0, remote := 0, gid := 0, psn := 7 }

/-- A window of partition 0 from 2^20 in HBM. -/
def farWindow : Window := ⟨0x99, 0, true, true, false, 0x100000, 4096, 0, 0, 0, 0, []⟩

/-- The state after reset with a bulk port, this queue pair and window, and this HBM. -/
def rdmaState : State :=
  { State.reset with
    eth := { State.reset.eth with
      ports := vmod State.reset.eth.ports 0 (fun e => { e with linkUp := true, roleBulk := true }), qps := [readerQp], windows := [farWindow] }
    ms := staleHbm }

theorem rdmaState_calm : rdmaState.Calm := by
  unfold State.Calm State.Quiet State.Steady
  decide +kernel

/-- The state after the RDMA READ of 64 bytes at 2^20. -/
def rdmaReadState : State :=
  rdmaState.onQp ⟨0, 5, 7, false⟩ (fun s q => s.readAgain q 7 0x99 (0x100000 : BitVec 64).toNat (64 : BitVec 32).toNat)
    (fun s q => s.rdmaRead q 7 0x99 (0x100000 : BitVec 64).toNat (64 : BitVec 32).toNat (1024 * 2 ^ (0 : Fin 3).val))

theorem byte_of_rdmaReadState : rdmaReadState.ms.mem.read 0 0 ≠ rdmaState.ms.mem.read 0 0 := by decide +kernel

/-- Refutes O41: an RDMA READ promotes the page of its window over the frame of page 0, and the stack's own content of the clean
line 0 then shows. -/
theorem not_roceRequests : ¬ Obligations.RoceRequests := by
  unfold Obligations.RoceRequests
  rintro ⟨⟨requests, -⟩, -⟩
  obtain ⟨-, -, read, -⟩ := requests 0 5 rdmaState readerQp 0x99 0x100000 64 0 [] rdmaState_calm rfl rfl rfl rfl rfl rfl rfl rfl rfl
    (by decide) rfl rfl rfl rfl (by decide +kernel)
  obtain ⟨t, run, mem, -⟩ := read farWindow (by decide +kernel) (by decide +kernel)
  obtain rfl : rdmaReadState = t := Host.Outcome.next.inj run
  exact byte_of_rdmaReadState (congrArg (Mem.read · 0 0) mem)

end Sys2Proof.Machine
end

section
/-! PROOFS. O45 GmcpJobs fails: the read of a job image can promote its page over a frame with a stale stack line. -/

namespace Sys2Proof.Machine

set_option Elab.async false -- in turn: many waiting threads need much memory

/-- The request to load an image of 64 bytes at 2^20 into partition 0 of one core. -/
def farLoadRequest : List Byte :=
  leBytes 2 0x4D47 ++ [1, 0x10] ++ List.replicate 20 0 ++ leBytes 4 56 ++ leBytes 4 0 ++
    ([0, 1, 5, 0] ++ List.replicate 4 0 ++ leBytes 8 0x100000 ++ leBytes 8 64 ++ List.replicate 32 0)

/-- A ready module with a load area of 1 GiB at 0 in this HBM. -/
def farLoadState : State :=
  { State.reset with
    rst := { State.reset.rst with ready := true, waiting := none, stepping := 0 }, pins := { State.reset.pins with pwrEn := true }
    fl := { State.reset.fl with sc := List.replicate 0x28 0 ++ [1] ++ List.replicate 0x100 0 }, ms := staleHbm }

theorem farLoadState_calm : farLoadState.Calm := by
  unfold State.Calm State.Quiet State.Steady
  decide +kernel

theorem farLoadState_asked : farLoadState.Asked 0x10 [] farLoadRequest := by
  unfold State.Asked
  decide +kernel

/-- The read of the image changes byte 0. -/
theorem byte_of_farLoadState :
    (farLoadState.imageRead (LoadReq.of (gmcpBody (asOp 0x10 [] farLoadRequest)))).ms.byte 0 ≠ farLoadState.ms.byte 0 := by decide +kernel

/-- Refutes O45: the read of a job image promotes its page over the frame of page 0, and the stack's own content of the clean line 0
then shows. -/
theorem not_gmcpJobs : ¬ Obligations.GmcpJobs := by
  unfold Obligations.GmcpJobs
  intro h
  obtain ⟨load, -⟩ := h farLoadRequest ⟨[], [], 0, [], none, [], [], 0, 0⟩ 0 farLoadState (by decide +kernel) farLoadState_calm
  obtain ⟨-, -, bytes, -⟩ := load farLoadState_asked
  exact byte_of_farLoadState (bytes rfl 0)

end Sys2Proof.Machine
end

section
/-! PROOFS. O16 SequenceSlots and O17 AttentionResults fail: a page of keys and values in HBM that an operation reads or writes can
be promoted over a frame with a stale stack line. -/

namespace Sys2Proof.Machine

set_option Elab.async false -- in turn: many waiting threads need much memory

/-- A sequence slot of one BF16 head of 64 whose one page-table entry stands in the SRAM of core 0. -/
def onePageSlot (len : BitVec 21) : AttSlot :=
  { valid := true, kvHeads := 1, len := len, table := BitVec.ofNat 42 (sramBase 0 + 0x1000), entries := 1, pitch := 0x10000 }

/-- The ATT operation on this slot that runs on core 0. -/
def onePageRun (opc : BitVec 8) (desc : List Byte) (len : BitVec 21) : REntry :=
  { q := ⟨0, 0, 3, 0, 0xFF, false, none, some (.att opc (sramBase 0) 0), {}⟩, desc := desc, slot := onePageSlot len }

/-- The state after reset with this operation; its page, at 2^20 in HBM, holds one position, and any request promotes it. -/
def onePageState (r : REntry) : State :=
  { State.reset with
    cores := vmod State.reset.cores 0 (fun k => { k with att := { running := [r] } })
    ms := staleHbm.put (sramBase 0 + 0x1000) (leBytes 8 0x100003) }

/-! ## O17 -/

/-- A FWD of no query over the slot's keys, whose results would go to the SRAM of core 0. -/
def noQueryDesc : List Byte :=
  leBytes 8 (sramBase 0) ++ leBytes 8 (sramBase 0) ++ leBytes 8 (sramBase 0) ++ leBytes 8 (sramBase 0) ++ List.replicate 8 0 ++
    [0, 0, 0, 2] ++ List.replicate 19 0 ++ [4]

/-- The FWD on a slot of one position. -/
def noQueryRun : REntry := onePageRun 1 noQueryDesc 1

theorem noQueryState_calm : (onePageState noQueryRun).Calm := by
  unfold State.Calm State.Quiet State.Steady
  decide +kernel

/-- The FWD changes byte 0. -/
theorem byte_of_noQueryState :
    (((onePageState noQueryRun).completeAt 0 .att 0).settle).ms.byte 0 ≠ (onePageState noQueryRun).ms.byte 0 := by decide +kernel

/-- Refutes O17: a FWD reads its keys from HBM, whose page is promoted over the frame of page 0; the stack's own content of the
clean line 0 then shows. -/
theorem not_attentionResults : ¬ Obligations.AttentionResults := by
  unfold Obligations.AttentionResults
  intro h
  obtain ⟨forward, -⟩ := h 0 0 (onePageState noQueryRun) noQueryRun (sramBase 0) 0 .bf16 noQueryState_calm (by decide +kernel) rfl
    (by decide +kernel) (.inl (by decide +kernel)) (by decide +kernel) (by decide +kernel) (by decide +kernel) (by decide +kernel)
  obtain ⟨t, err, run, -, -, -, bytes, -⟩ := forward rfl (by decide +kernel) (by decide +kernel)
  obtain rfl : ((onePageState noQueryRun).completeAt 0 .att 0).settle = t := Host.Outcome.next.inj run
  exact byte_of_noQueryState (bytes 0 (by decide +kernel))

/-! ## O16 -/

/-- An APPEND of one BF16 token from the SRAM of core 0. -/
def oneTokenDesc : List Byte := leBytes 8 (sramBase 0) ++ leBytes 8 (sramBase 0) ++ List.replicate 8 0 ++ leBytes 4 1 ++ [1, 0, 0, 0]

/-- The APPEND on the empty slot. -/
def oneTokenRun : REntry := onePageRun 3 oneTokenDesc 0

theorem oneTokenState_calm : (onePageState oneTokenRun).Calm := by
  unfold State.Calm State.Quiet State.Steady
  decide +kernel

/-- The APPEND changes byte 0. -/
theorem byte_of_oneTokenState :
    (((onePageState oneTokenRun).completeAt 0 .att 0).settle).ms.byte 0 ≠ (onePageState oneTokenRun).ms.byte 0 := by decide +kernel

theorem oneTokenState_entry : (onePageState oneTokenRun).pageEntry 0 (onePageSlot 0) 0 =
    .inl ⟨0x100000, 1, sramBase 0 + 0x1008, sramBase 0 + 0x100C⟩ := by decide +kernel

/-- No line is uncorrectable when none is marked so and no frame is poisoned. -/
theorem MemSys.badLine_of_healthy {ms : MemSys} (ue : ms.ue = []) (soft : ms.soft = [])
    (clean : ∀ d, ∀ e ∈ (ms.hc.getD d {}).frames, e.2.poison = 0) (l : Nat) : ms.badLine l = false := by
  have noFrame : ms.framePoison l = false := by
    unfold MemSys.framePoison MemSys.residentFrame
    dsimp only
    split
    next outer =>
      split at outer
      next f found =>
        have poison : f.poison = 0 := clean _ _ (List.mem_of_find?_eq_some found)
        split at outer
        · obtain ⟨⟩ := outer
          simp [poison]
        · cases outer
      next => cases outer
    next => rfl
  simp [MemSys.badLine, MemSys.softBad, noFrame, ue, soft]

theorem oneTokenState_clean (d : Nat) : ∀ e ∈ ((onePageState oneTokenRun).ms.hc.getD d {}).frames, e.2.poison = 0 := by
  by_cases near : d < 4
  · exact (by decide +kernel : ∀ d, d < 4 → ∀ e ∈ ((onePageState oneTokenRun).ms.hc.getD d {}).frames, e.2.poison = 0) d near
  · rw [Vector.getD, Array.getD, dif_neg]
    · rintro e ⟨⟩
    · simpa using near

/-- Refutes O16: an APPEND writes its page in HBM, which is promoted over the frame of page 0; the stack's own content of the clean
line 0 then shows. -/
theorem not_sequenceSlots : ¬ Obligations.SequenceSlots := by
  unfold Obligations.SequenceSlots
  intro h
  obtain ⟨-, -, append⟩ := h 0 0 (onePageState oneTokenRun) oneTokenRun oneTokenState_calm (by decide +kernel) (by decide +kernel)
  have entries : ∀ k ∈ (AppendDesc.of oneTokenRun.desc).span oneTokenRun.slot,
      ∃ e, (onePageState oneTokenRun).pageEntry 0 oneTokenRun.slot k = .inl e := by
    rw [show (AppendDesc.of oneTokenRun.desc).span oneTokenRun.slot = [0] by decide +kernel]
    rintro k (_ | ⟨_, ⟨⟩⟩)
    exact ⟨_, oneTokenState_entry⟩
  obtain ⟨t, run, -, -, bytes, -⟩ := append (sramBase 0) 0 rfl (by decide) .bf16 .bf16 (.inl (by decide +kernel)) (by decide +kernel)
    (by decide +kernel) (by decide +kernel) (by decide +kernel) (by decide +kernel) (by decide +kernel) entries (by decide +kernel)
    (by decide +kernel) (by decide +kernel) rfl rfl (MemSys.badLine_of_healthy rfl rfl oneTokenState_clean)
  obtain rfl : ((onePageState oneTokenRun).completeAt 0 .att 0).settle = t := Host.Outcome.next.inj run
  exact byte_of_oneTokenState (bytes 0 (by decide +kernel))

end Sys2Proof.Machine
end

section
/-! PROOFS. O29 LaneStates. -/

namespace Sys2Proof.Machine

set_option Elab.async false -- in turn: many waiting threads need much memory

/-! ## A change of the fabric, of one lane -/

/-- A change of the fabric leaves no word to issue and no program to end. -/
theorem State.Calm.settle_fab {s : State} (calm : s.Calm) (f : FabBlk) : ({ s with fab := f } : State).settle = { s with fab := f } :=
  State.settle_quiet _ calm.1 calm.2.2.2

theorem State.Calm.settle_modLane {s : State} (calm : s.Calm) (k : Nat) (f : Lane → Lane) : (s.modLane k f).settle = s.modLane k f :=
  calm.settle_fab _

theorem vmod_vmod {α : Type} {n : Nat} (v : Vector α n) (k : Nat) (f g : α → α) : vmod (vmod v k f) k g = vmod v k (fun x => g (f x)) := by
  unfold vmod
  split
  · simp
  · rfl

theorem vmod_congr {α : Type} {n : Nat} (v : Vector α n) (k : Nat) (d : α) {f g : α → α} (same : f (v.getD k d) = g (v.getD k d)) :
    vmod v k f = vmod v k g := by
  unfold vmod
  split
  next h => simp_all [Vector.getD]
  · rfl

theorem State.modLane_congr (s : State) (k : Nat) {f g : Lane → Lane} (same : f (s.lane k) = g (s.lane k)) : s.modLane k f = s.modLane k g := by
  unfold State.modLane
  rw [vmod_congr s.fab.lanes k {} same]

theorem State.modLane_modLane (s : State) (k : Nat) (f g : Lane → Lane) : (s.modLane k f).modLane k g = s.modLane k (fun l => g (f l)) := by
  simp [State.modLane, vmod_vmod]

theorem State.lane_modLane_same (s : State) (k : LaneId) (f : Lane → Lane) : (s.modLane k f).lane k = f (s.lane k) := by
  rw [State.lane_modLane, if_pos ⟨rfl, k.isLt⟩]

theorem State.lane_modLane_other (s : State) (k : LaneId) (f : Lane → Lane) (j : Nat) (far : j ≠ k.val) : (s.modLane k f).lane j = s.lane j := by
  rw [State.lane_modLane, if_neg (fun both => far both.1)]

/-- Whether a lane can train does not depend on what its other fields hold. -/
theorem State.laneUsable_modLane (s : State) (k : Nat) (f : Lane → Lane) (same : (f (s.lane k)).disable = (s.lane k).disable) :
    (s.modLane k f).laneUsable k = s.laneUsable k := by
  simp only [State.laneUsable, State.modLane_fab, State.lane_modLane]
  split
  · rw [same]; rfl
  · rfl

/-! ## A hello -/

/-- What a lane changes as it sends. -/
theorem Lane.transmit_eq (l : Lane) (p : SentPacket) : ∃ seq retry carry sent,
    l.transmit p = { l with txSeq := seq, retry := retry, txCarry := carry, sent := sent } := by
  unfold Lane.transmit
  split
  · exact ⟨_, _, _, _, rfl⟩
  · exact ⟨_, _, _, _, rfl⟩

/-- A lane after a hello, but for the bytes that it keeps and the instant until which it is busy. -/
def Lane.greeted (l : Lane) (busy : Nat) (seq : BitVec 16) (retry : List RetryFrame) (carry : List Byte) (sent : List SentPacket) : Lane :=
  { l with busyUntil := busy, hellos := l.hellos + 1, txSeq := seq, retry := retry, txCarry := carry, sent := sent }

/-- The hello that a lane sends. -/
def State.helloPacket (s : State) (k : Nat) : Packet := PacketFields.build { ty := 0xB, dst := 0x3FFF, src := s.dev, payload := s.helloPayload k }

/-- The instant until which a lane is busy with a hello. -/
def State.helloUntil (s : State) (k : Nat) : Nat :=
  max s.instant (s.lane k).busyUntil + laneTime (s.helloPacket k).size (min 8 (s.lane k).width)

/-- A hello changes its lane alone. -/
theorem State.sendHello_eq (s : State) (k : Nat) : ∃ busy seq retry carry sent,
    s.sendHello k = s.modLane k (fun _ => (s.lane k).greeted busy seq retry carry sent) := by
  obtain ⟨seq, retry, carry, sent, eq⟩ := Lane.transmit_eq
    { s.lane k with busyUntil := s.helloUntil k, hellos := (s.lane k).hellos + 1 } { pkt := s.helloPacket k }
  refine ⟨s.helloUntil k, seq, retry, carry, sent, ?_⟩
  unfold State.sendHello State.occupy State.occupyAt
  rw [State.modLane_modLane]
  exact s.modLane_congr k eq

/-- A hello of a lane that was changed before. -/
theorem State.sendHello_modLane (s : State) (k : LaneId) (f : Lane → Lane) : ∃ busy seq retry carry sent,
    (s.modLane k f).sendHello k = s.modLane k (fun _ => (f (s.lane k)).greeted busy seq retry carry sent) := by
  obtain ⟨busy, seq, retry, carry, sent, eq⟩ := (s.modLane k f).sendHello_eq k
  refine ⟨busy, seq, retry, carry, sent, ?_⟩
  rw [eq, State.modLane_modLane, State.lane_modLane_same]

/-! ## A lane that carries nothing goes down alone -/

/-- A lane that carries nothing and forwards no packet goes down alone. -/
theorem State.laneDown_alone (s : State) (k : Nat) (next : LaneState) (dark : (s.lane k).state.carries = false)
    (cut : (s.lane k).cut = none) (cutFrom : (s.lane k).cutFrom = none) : s.laneDown k next = s.modLane k (fun l => l.leave next) := by
  have off : s.cutOff k = s := by simp [State.cutOff, cut, cutFrom]
  simp [State.laneDown, dark, off]

theorem LaneState.carries_eq_false {x : LaneState} (up : x ≠ .up) (listen : x ≠ .listen) : x.carries = false := by
  cases x
  case up => exact absurd rfl up
  case listen => exact absurd rfl listen
  all_goals rfl

/-- A lane that leaves its state, and no other change. -/
theorem State.LaneMoves.of_leave {s t : State} {k : LaneId} {l : Lane} {x : LaneState} {light : BitVec 8} {retrains : BitVec 16}
    (moved : t = s.modLane k (fun _ => l.leave x)) (lights : l.lightOf x = light) (counted : l.retrains = retrains) :
    s.LaneMoves t k x light retrains := by
  subst moved
  have lane : (s.modLane k (fun _ => l.leave x)).lane k = l.leave x := s.lane_modLane_same k _
  refine ⟨?_, ?_, ?_, ?_, ?_, ?_, ?_, s.lane_modLane_other k _, rfl⟩ <;> rw [lane]
  · rfl
  · exact lights
  · exact counted
  all_goals rfl

theorem State.settle_laneMoves {s t : State} (calm : s.Calm) {k : Nat} {x : LaneState} {light : BitVec 8} {retrains : BitVec 16}
    (moves : s.LaneMoves t k x light retrains) : t.settle = t := by
  obtain ⟨-, -, -, -, -, -, -, -, eq⟩ := moves
  rw [eq]
  exact calm.settle_fab _

section
variable {s : State} {k : LaneId} (up : (s.lane k).state ≠ .up) (listen : (s.lane k).state ≠ .listen) (cut : (s.lane k).cut = none)
  (cutFrom : (s.lane k).cutFrom = none)
include up listen cut cutFrom

/-- The lane goes down from a change of it that keeps what decides how. -/
theorem State.laneDown_modLane (f : Lane → Lane) (next : LaneState) (state : (f (s.lane k)).state = (s.lane k).state)
    (cut' : (f (s.lane k)).cut = (s.lane k).cut) (cutFrom' : (f (s.lane k)).cutFrom = (s.lane k).cutFrom) :
    (s.modLane k f).laneDown k next = s.modLane k (fun _ => (f (s.lane k)).leave next) := by
  have lane := s.lane_modLane_same k f
  rw [State.laneDown_alone _ _ _ (by rw [lane, state]; exact LaneState.carries_eq_false up listen) (by rw [lane, cut', cut])
    (by rw [lane, cutFrom', cutFrom]), State.modLane_modLane]
  exact s.modLane_congr k rfl

/-- It trains, or stays OFF where it cannot. -/
theorem State.startTrain_modLane (f : Lane → Lane) (state : (f (s.lane k)).state = (s.lane k).state)
    (cut' : (f (s.lane k)).cut = (s.lane k).cut) (cutFrom' : (f (s.lane k)).cutFrom = (s.lane k).cutFrom)
    (disable : (f (s.lane k)).disable = (s.lane k).disable) :
    (s.modLane k f).startTrain k = s.modLane k (fun _ => (f (s.lane k)).leave (if s.laneUsable k then .train else .off)) := by
  rw [State.startTrain, State.laneUsable_modLane s k f disable]
  exact State.laneDown_modLane up listen cut cutFrom f _ state cut' cutFrom'

/-- A lane that retrains counts it. -/
theorem State.retrainLane_modLane (f : Lane → Lane) (state : (f (s.lane k)).state = (s.lane k).state)
    (cut' : (f (s.lane k)).cut = (s.lane k).cut) (cutFrom' : (f (s.lane k)).cutFrom = (s.lane k).cutFrom)
    (disable : (f (s.lane k)).disable = (s.lane k).disable) (usable : s.laneUsable k = true) :
    (s.modLane k f).retrainLane k =
      s.modLane k (fun _ => { f (s.lane k) with retrains := satInc (f (s.lane k)).retrains }.leave .train) := by
  rw [State.retrainLane, State.countRetrain, State.modLane_modLane,
    State.startTrain_modLane up listen cut cutFrom (fun l => { f l with retrains := satInc (f l).retrains }) state cut' cutFrom' disable,
    if_pos usable]

theorem State.laneMoves_laneDown (next : LaneState) : s.LaneMoves (s.laneDown k next) k next ((s.lane k).lightOf next) (s.lane k).retrains :=
  .of_leave ((State.laneDown_alone s k next (LaneState.carries_eq_false up listen) cut cutFrom).trans (s.modLane_congr k rfl)) rfl rfl

/-- A lane that may train does so with all eight wavelengths. -/
theorem State.laneMoves_startTrain (usable : s.laneUsable k = true) : s.LaneMoves (s.startTrain k) k .train 0xFF (s.lane k).retrains := by
  rw [State.startTrain, if_pos usable]
  exact State.laneMoves_laneDown up listen cut cutFrom .train

/-- A lane that goes down after its RETRAINS has counted. -/
theorem State.laneMoves_countRetrain (next : LaneState) :
    s.LaneMoves ((s.countRetrain k).laneDown k next) k next ((s.lane k).lightOf next) (satInc (s.lane k).retrains) :=
  .of_leave (l := { s.lane k with retrains := satInc (s.lane k).retrains })
    (State.laneDown_modLane up listen cut cutFrom _ next rfl rfl rfl) (by cases next <;> rfl) rfl

theorem State.laneMoves_retrainLane (usable : s.laneUsable k = true) :
    s.LaneMoves (s.retrainLane k) k .train 0xFF (satInc (s.lane k).retrains) := by
  refine .of_leave (l := { s.lane k with retrains := satInc (s.lane k).retrains }) ?_ rfl rfl
  rw [State.retrainLane, State.countRetrain, State.startTrain_modLane up listen cut cutFrom _ rfl rfl rfl rfl, if_pos usable]

end

/-! ## The commands on such a lane -/

/-- The state after a loss of signal on a wavelength, before what follows from it. -/
def State.signalLost (s : State) (k w : Nat) : State := s.modLane k (fun l => { l with los := satInc l.los, rxMask := clrBit l.rxMask w })

theorem State.lane_signalLost (s : State) (k : LaneId) (w : Nat) :
    (s.signalLost k w).lane k = { s.lane k with los := satInc (s.lane k).los, rxMask := clrBit (s.lane k).rxMask w } :=
  s.lane_modLane_same k _

theorem exec_lossOfSignal (s : State) (k : LaneId) (w : Fin 8) (runs : s.stopped = false) : exec (.lossOfSignal k w) s =
    .next (if (s.lane k).rxMask.getLsbD w then ((s.signalLost k w).wavesLost k true).settle else s.signalLost k w) :=
  if_neg (by rw [runs]; exact Bool.false_ne_true)

/-- A wavelength that was not received well is only counted. -/
theorem exec_lossOfSignal_dark (s : State) (k : LaneId) (w : Fin 8) (runs : s.stopped = false) (dark : (s.lane k).rxMask.getLsbD w = false) :
    exec (.lossOfSignal k w) s = .next (s.modLane k (fun l => { l with los := satInc l.los })) := by
  have same : clrBit (s.lane k).rxMask w = (s.lane k).rxMask := by
    apply BitVec.eq_of_getLsbD_eq
    intro i hi
    by_cases here : i = w.val
    · subst here
      rw [dark]
      simp [clrBit]
    · simp [clrBit, hi]
      exact fun _ => here
  rw [exec_lossOfSignal s k w runs, dark]
  exact congrArg Host.Outcome.next (s.modLane_congr k (by rw [same]))

/-- The RETRAIN command, as it changes the lane alone. -/
theorem exec_retrain {s t : State} {k : LaneId} {v : Reg} (written : s.writeLaneCtrl k v = t) (still : t.settle = t) :
    exec (.retrain k v) s = .next t :=
  congrArg Host.Outcome.next ((congrArg State.settle written).trans still)

/-- A lane as it gets frame lock. -/
def Lane.locked (l : Lane) (mask : BitVec 8) : Lane :=
  { l with state := .hello, rxMask := mask, txMask := mask, helloOk := false, txSeq := 0, rxSync := false, rxSeq := 0xFFFF,
           crSeen := Vector.replicate 4 0, crTotal := Vector.replicate 4 0 }

section
variable {s : State} {k : LaneId} (runs : s.stopped = false)
include runs

theorem exec_bringUpTimeout : exec (.bringUpTimeout k) s =
    .next (if (s.lane k).state = .train ∨ ((s.lane k).state = .hello ∧ ((s.lane k).helloOk && ((s.lane k).farRestricted || s.restrictedHere)) = false)
      then (s.countRetrain k).laneDown k .failed else s) := by
  simp only [exec, execBringUpTimeout, runs, Bool.false_eq_true, if_false]
  split <;> rfl

theorem exec_laneRetryTimer : exec (.laneRetryTimer k) s = .next (if (s.lane k).state = .failed then s.startTrain k else s) := by
  simp only [exec, execLaneRetryTimer, runs, Bool.false_eq_true, if_false]
  split <;> rfl

/-- A lane that gets frame lock on four wavelengths sends its first hello. -/
theorem exec_laneBringUp_locked {mask : BitVec 8} (train : (s.lane k).state = .train) (enough : 4 ≤ popcount mask) :
    ∃ busy seq retry carry sent, exec (.laneBringUp k mask) s =
      .next (s.modLane k (fun _ => ((s.lane k).locked mask).greeted busy seq retry carry sent)) := by
  obtain ⟨busy, seq, retry, carry, sent, eq⟩ := s.sendHello_modLane k (Lane.locked · mask)
  refine ⟨busy, seq, retry, carry, sent, ?_⟩
  rw [← eq]
  simp only [exec, execLaneBringUp, runs, Bool.false_eq_true, if_false, train, if_neg (Nat.not_lt.mpr enough)]
  rfl

/-- A lane that was locked on too few, or a hello that may not come up. -/
theorem exec_laneBringUp_train {mask : BitVec 8} (train : (s.lane k).state = .train) (few : popcount mask < 4) :
    exec (.laneBringUp k mask) s = .next s := by
  simp only [exec, execLaneBringUp, runs, Bool.false_eq_true, if_false, train, if_pos few]

theorem exec_laneBringUp_hello {mask : BitVec 8} (hello : (s.lane k).state = .hello)
    (waits : (s.lane k).helloOk = false ∨ ((s.lane k).farRestricted || s.restrictedHere) = true) : exec (.laneBringUp k mask) s = .next s := by
  simp only [exec, execLaneBringUp, runs, Bool.false_eq_true, if_false, hello]
  refine if_neg ?_
  grind

end

/-- The state after a write of a lane's control register, before what follows from it. -/
def State.laneCtrl (s : State) (k : Nat) (v : Reg) : State := s.modLane k (fun l => { l with disable := bitB v 0, listenEn := bitB v 1 })

theorem State.writeLaneCtrl_eq (s : State) (k : Nat) (v : Reg) : s.writeLaneCtrl k v =
    if bitB v 0 then (s.laneCtrl k v).laneDown k .off else if bitB v 2 then (s.laneCtrl k v).retrainLane k
    else if (s.lane k).disable then (s.laneCtrl k v).startTrain k else s.laneCtrl k v := rfl

section
variable {s : State} {k : LaneId} {w : Fin 8} (had : (s.lane k).rxMask.getLsbD w = true)
include had

theorem State.Calm.exec_lossOfSignal {t : State} (calm : s.Calm) (lost : (s.signalLost k w).wavesLost k true = t) (still : t.settle = t) :
    exec (.lossOfSignal k w) s = .next t := by
  rw [Machine.exec_lossOfSignal s k w calm.2.1, if_pos had]
  exact congrArg Host.Outcome.next ((congrArg State.settle lost).trans still)

end

/-- Settles O29: each command is one change of the lane, as `laneDown_alone` and `sendHello_eq` say it. -/
theorem laneStates : Obligations.LaneStates := by
  unfold Obligations.LaneStates
  intro k v mask w s calm l c s0 held up listen cut cutFrom
  have runs := calm.2.1
  have lane0 : s0.lane k = { l with disable := c, listenEn := bitB v 1 } := s.lane_modLane_same k _
  have up0 : (s0.lane k).state ≠ .up := by rw [lane0]; exact up
  have listen0 : (s0.lane k).state ≠ .listen := by rw [lane0]; exact listen
  have cut0 : (s0.lane k).cut = none := by rw [lane0]; exact cut
  have cutFrom0 : (s0.lane k).cutFrom = none := by rw [lane0]; exact cutFrom
  have retrains0 : (s0.lane k).retrains = l.retrains := by rw [lane0]
  have written : s.writeLaneCtrl k v = if c then s0.laneDown k .off else if bitB v 2 then s0.retrainLane k
    else if l.disable then s0.startTrain k else s0 := s.writeLaneCtrl_eq k v
  have notHeld : (l.helloOk && (l.farRestricted || s.restrictedHere)) = false ↔ ¬ held := by simp [held, State.restrictedHere]
  have lost := s.lane_signalLost k w
  refine ⟨?_, ?_, ?_, ?_, ?_, ?_, ?_, ?_, ?_, ?_, ?_, ?_, ?_, ?_, ?_, ?_, ?_, ?_, ?_⟩
  · intro disabled
    have moves := State.laneMoves_laneDown up0 listen0 cut0 cutFrom0 .off
    rw [retrains0] at moves
    exact ⟨_, exec_retrain (written.trans (if_pos disabled)) (State.settle_laneMoves (s := s0) calm moves), moves⟩
  · intro enabled again usable
    have moves := State.laneMoves_retrainLane up0 listen0 cut0 cutFrom0 usable
    rw [retrains0] at moves
    rw [enabled, again] at written
    exact ⟨_, exec_retrain written (State.settle_laneMoves (s := s0) calm moves), moves⟩
  · intro enabled same was
    rw [enabled, same, was] at written
    exact exec_retrain written (calm.settle_modLane _ _)
  · intro enabled same was usable
    have moves := State.laneMoves_startTrain up0 listen0 cut0 cutFrom0 usable
    rw [retrains0] at moves
    rw [enabled, same, was] at written
    exact ⟨_, exec_retrain written (State.settle_laneMoves (s := s0) calm moves), moves⟩
  · intro late
    refine ⟨_, (exec_bringUpTimeout runs).trans (congrArg _ (if_pos ?_)), State.laneMoves_countRetrain up listen cut cutFrom .failed⟩
    exact late.imp_right (fun hello => ⟨hello.1, notHeld.mpr hello.2⟩)
  · intro noTrain noHello
    refine (exec_bringUpTimeout runs).trans (congrArg _ (if_neg ?_))
    rintro (train | ⟨hello, free⟩)
    · exact noTrain train
    · exact noHello.elim (· hello) (notHeld.mp free)
  · intro failed usable
    exact ⟨_, (exec_laneRetryTimer runs).trans (congrArg _ (if_pos failed)), State.laneMoves_startTrain up listen cut cutFrom usable⟩
  · intro failed unusable
    refine ⟨_, (exec_laneRetryTimer runs).trans (congrArg _ (if_pos failed)), ?_⟩
    rw [State.startTrain, unusable]
    exact State.laneMoves_laneDown up listen cut cutFrom .off
  · exact fun other => (exec_laneRetryTimer runs).trans (congrArg _ (if_neg other))
  · simp only [exec, execLaneWidthLoss, runs, Bool.false_eq_true, if_false]
    exact if_neg up
  · simp only [exec, execListenEntry, runs, Bool.false_eq_true, if_false]
    exact if_neg (fun all => up all.1)
  · simp only [exec, execListenWake, runs, Bool.false_eq_true, if_false]
    have asleep : s.wakeLane k = s := if_neg listen
    rw [asleep, s.settle_quiet calm.1 calm.2.2.2]
  · exact exec_laneBringUp_train runs
  · intro train enough
    obtain ⟨busy, seq, retry, carry, sent, run⟩ := exec_laneBringUp_locked runs train enough
    refine ⟨_, run, ?_, ?_, ?_, ?_, s.lane_modLane_other k _, rfl⟩ <;> rw [s.lane_modLane_same k] <;> rfl
  · intro hello waits
    refine exec_laneBringUp_hello runs hello (waits.imp_right (fun stays => ?_))
    simpa [l, State.restrictedHere] using stays.2
  · exact exec_lossOfSignal_dark s k w runs
  · intro miswired had usable
    have follows : (s.signalLost k w).wavesLost k true = (s.signalLost k w).retrainLane k := by
      unfold State.wavesLost
      rw [lost, show (s.lane k).state = .miswired from miswired]
      rfl
    have trains := State.retrainLane_modLane up listen cut cutFrom
      (fun l => { l with los := satInc l.los, rxMask := clrBit l.rxMask w }) rfl rfl rfl rfl usable
    refine ⟨_, calm.exec_lossOfSignal had (follows.trans trains) (calm.settle_modLane _ _), ?_, ?_, ?_, ?_, s.lane_modLane_other k _, rfl⟩ <;>
      rw [s.lane_modLane_same k] <;> rfl
  · intro hello had enough
    obtain ⟨busy, seq, retry, carry, sent, eq⟩ := s.sendHello_modLane k (fun l => { l with los := satInc l.los, rxMask := clrBit l.rxMask w })
    have follows : (s.signalLost k w).wavesLost k true = (s.signalLost k w).sendHello k := by
      unfold State.wavesLost
      rw [lost, show (s.lane k).state = .hello from hello]
      exact if_pos (decide_eq_true enough)
    refine ⟨_, calm.exec_lossOfSignal had (follows.trans eq) (calm.settle_modLane _ _), ?_, ?_, ?_, ?_, s.lane_modLane_other k _, rfl⟩ <;>
      rw [s.lane_modLane_same k]
    · exact hello
    all_goals rfl
  · intro idle
    have follows : (s.signalLost k w).wavesLost k true = s.signalLost k w := by
      unfold State.wavesLost
      rw [lost]
      rcases idle with off | train | failed
      · rw [show (s.lane k).state = .off from off]
      · rw [show (s.lane k).state = .train from train]
      · rw [show (s.lane k).state = .failed from failed]
    rw [exec_lossOfSignal s k w runs, follows, State.signalLost, calm.settle_modLane, ite_self]

end Sys2Proof.Machine
end

section
/-! PROOFS. O30 CarryingLanes. -/

namespace Sys2Proof.Machine

set_option Elab.async false -- in turn: many waiting threads need much memory

/-! ## Choosing the upstream lane again changes the time block and the records -/

/-- The state with another time block and other records. -/
def State.retimed (s : State) (time : TimeBlk) (goose : Goose) : State := { s with time := time, goose := goose }

theorem State.setAligned_eq (s : State) (b : Bool) : ∃ time goose, s.setAligned b = s.retimed time goose := by
  unfold State.setAligned
  split
  · exact ⟨s.time, s.goose, rfl⟩
  · exact ⟨_, _, rfl⟩

theorem State.chooseUp_eq (s : State) : ∃ time, s.chooseUp = s.retimed time s.goose := by
  unfold State.chooseUp State.follow State.followNone
  dsimp only
  repeat' split
  all_goals exact ⟨_, rfl⟩

theorem State.retime_eq (s : State) : ∃ time goose, s.retime = s.retimed time goose := by
  obtain ⟨time, chosen⟩ := s.chooseUp_eq
  obtain ⟨time', goose, aligned⟩ := s.chooseUp.setAligned_eq s.chooseUp.alignedNow
  refine ⟨time', goose, aligned.trans ?_⟩
  rw [chosen]
  rfl

/-- A change of the fabric, the time block and the records leaves no word to issue and no program to end. -/
theorem State.Calm.settle_retimed {s : State} (calm : s.Calm) (f : FabBlk) (time : TimeBlk) (goose : Goose) :
    (({ s with fab := f } : State).retimed time goose).settle = ({ s with fab := f } : State).retimed time goose :=
  State.settle_quiet _ calm.1 calm.2.2.2

theorem muleUnit_isMule (m : Nat) : (muleUnit m).isMule = true := by
  unfold muleUnit
  split <;> rfl

/-- Nothing is to be sent where no copy runs. -/
theorem State.NoCopies.pumpCopies_eq {s : State} (none : s.NoCopies) : s.pumpCopies = s := by
  obtain ⟨idle, rsigs⟩ := none
  unfold State.pumpCopies
  rw [rsigs]
  dsimp only [List.isEmpty_nil, if_true]
  have still (l : List Nat) (h : ∀ i ∈ l, i < 32) : l.foldl (fun s i =>
      ((s.core (i / 4)).eng (muleUnit (i % 4))).running.foldl (fun s r =>
        if s.isRemoteCopy r then
          let parts := s.copyParts r
          let s := State.sendParts (i / 4) (i % 4) r r.copyDesc s (parts.drop r.sent)
          let n := (((s.core (i / 4)).eng (muleUnit (i % 4))).running.find? (fun x => x.q.id == r.q.id)).map (fun x => x.sent)
          if decide (parts.length ≤ n.getD 0) then s.modRun (i / 4) (muleUnit (i % 4)) r.q.id (fun x => { x with inRows := false }) else s
        else s) s) s = s := by
    induction l with
    | nil => rfl
    | cons i l ih =>
      have empty : ((s.core (i / 4)).eng (muleUnit (i % 4))).running = [] :=
        idle _ _ (by have := h i (.head _); omega) (muleUnit_isMule _)
      rw [List.foldl_cons, empty]
      exact ih (fun j hj => h j (.tail _ hj))
  exact still _ (fun i hi => List.mem_range.mp hi)

/-! ## A lane goes down beside another that is UP -/

theorem State.trunkUp_of_lane {s : State} {t j : Nat} (trunk : j / 8 = t) (up : (s.lane j).state = .up) : s.trunkUp t = true := by
  refine List.any_eq_true.mpr ⟨j, ?_, by rw [up]; rfl⟩
  simp only [trunkLanes, List.mem_map, List.mem_range]
  exact ⟨j % 8, Nat.mod_lt _ (by decide), by omega⟩

section
variable {s : State} {k : LaneId} (cut : (s.lane k).cut = none) (cutFrom : (s.lane k).cutFrom = none)
  (other : ∃ j, j < 64 ∧ j ≠ k.val ∧ j / 8 = k.val / 8 ∧ (s.lane j).state = .up)
include cut cutFrom other

/-- The trunk is not lost, so the lane goes down alone, after a change of it that keeps what it sends and forwards. -/
theorem State.laneDown_beside (f : Lane → Lane) (next : LaneState) (cut' : (f (s.lane k)).cut = (s.lane k).cut)
    (cutFrom' : (f (s.lane k)).cutFrom = (s.lane k).cutFrom) :
    ∃ time goose, (s.modLane k f).laneDown k next = (s.modLane k (fun _ => (f (s.lane k)).leave next)).retimed time goose := by
  obtain ⟨j, -, apart, trunk, upJ⟩ := other
  have off : (s.modLane k f).cutOff k = s.modLane k f := by
    simp only [State.cutOff, s.lane_modLane_same k f, cut', cutFrom', cut, cutFrom]
  have moved : (s.modLane k f).modLane k (fun l => l.leave next) = s.modLane k (fun _ => (f (s.lane k)).leave next) := by
    rw [State.modLane_modLane]
    exact s.modLane_congr k rfl
  have stays : (s.modLane k (fun _ => (f (s.lane k)).leave next)).trunkUp (k / 8) = true :=
    State.trunkUp_of_lane trunk (by rw [s.lane_modLane_other k _ j apart, upJ])
  unfold State.laneDown
  simp only [off, moved, stays, Bool.true_or, Bool.not_true, Bool.and_false, Bool.false_eq_true, if_false]
  split
  · exact State.retime_eq _
  · exact ⟨s.time, s.goose, rfl⟩

end

/-- A lane whose RETRAINS has counted. -/
def Lane.retrained (l : Lane) : Lane := { l with retrains := satInc l.retrains }

theorem State.countRetrain_modLane (s : State) (k : Nat) (f : Lane → Lane) :
    (s.modLane k f).countRetrain k = s.modLane k (fun l => (f l).retrained) :=
  s.modLane_modLane k f Lane.retrained

/-- What the commands on a lane leave as it is, but for the fabric, the time block and the records. -/
theorem State.retimed_settle_step {s : State} (calm : s.Calm) {k : LaneId} {f : Lane → Lane} {time : TimeBlk} {goose : Goose} :
    ((s.modLane k f).retimed time goose).settle = (s.modLane k f).retimed time goose := calm.settle_retimed _ _ _

section
variable {s : State} {k : LaneId} (calm : s.Calm) (cut : (s.lane k).cut = none) (cutFrom : (s.lane k).cutFrom = none)
  (other : ∃ j, j < 64 ∧ j ≠ k.val ∧ j / 8 = k.val / 8 ∧ (s.lane j).state = .up)
include calm cut cutFrom other

/-- A lane that retrains beside another that is UP. -/
theorem State.retrainLane_beside (f : Lane → Lane) (cut' : (f (s.lane k)).cut = (s.lane k).cut)
    (cutFrom' : (f (s.lane k)).cutFrom = (s.lane k).cutFrom) (disable : (f (s.lane k)).disable = (s.lane k).disable)
    (usable : s.laneUsable k = true) :
    ∃ time goose, ((s.modLane k f).retrainLane k).settle =
      (s.modLane k (fun _ => (f (s.lane k)).retrained.leave .train)).retimed time goose := by
  obtain ⟨time, goose, down⟩ := State.laneDown_beside cut cutFrom other
    (fun l => (f l).retrained) .train cut' cutFrom'
  refine ⟨time, goose, ?_⟩
  rw [State.retrainLane, State.countRetrain_modLane, State.startTrain, State.laneUsable_modLane s k (fun l => (f l).retrained) disable,
    if_pos usable, down, State.retimed_settle_step calm]

/-- A lane that goes to HELLO beside another that is UP, and sends its hello. -/
theorem State.relock_beside (f : Lane → Lane) (cut' : (f (s.lane k)).cut = (s.lane k).cut)
    (cutFrom' : (f (s.lane k)).cutFrom = (s.lane k).cutFrom) :
    ∃ time goose busy seq retry carry sent, ((s.modLane k f).relock k).settle = (s.modLane k (fun _ =>
      ((f (s.lane k)).retrained.leave .hello).greeted busy seq retry carry sent)).retimed time goose := by
  obtain ⟨time, goose, down⟩ := State.laneDown_beside cut cutFrom other
    (fun l => (f l).retrained) .hello cut' cutFrom'
  obtain ⟨busy, seq, retry, carry, sent, hello⟩ := ((s.retimed time goose).sendHello_modLane k
    (fun _ => (f (s.lane k)).retrained.leave .hello))
  refine ⟨time, goose, busy, seq, retry, carry, sent, ?_⟩
  rw [State.relock, State.countRetrain_modLane, down]
  exact (congrArg State.settle hello).trans (State.retimed_settle_step calm)

end

/-! ## The commands -/

section
variable {s : State} {k : LaneId} (runs : s.stopped = false)
include runs

theorem exec_laneBringUp_up {mask : BitVec 8} (up : (s.lane k).state = .up) : exec (.laneBringUp k mask) s =
    .next (if mask = (s.lane k).rxMask then s else ((s.modLane k (fun l => { l with rxMask := mask })).wavesLost k false).settle) := by
  simp only [exec, execLaneBringUp, runs, Bool.false_eq_true, if_false, up]
  split <;> rfl

theorem exec_laneBringUp_passed {mask : BitVec 8} (hello : (s.lane k).state = .hello) (ok : (s.lane k).helloOk = true)
    (enough : 4 ≤ popcount (s.lane k).rxMask) (far : (s.lane k).farRestricted = false) (here : s.rst.restricted = 0) :
    exec (.laneBringUp k mask) s = .next (((s.laneUp k).pumpCopies).settle) := by
  simp only [exec, execLaneBringUp, runs, Bool.false_eq_true, if_false, hello]
  exact if_pos (by simp [ok, enough, far, State.restrictedHere, here])

end

/-- What an UP lane that received fewer wavelengths does. -/
theorem State.wavesLost_up (s : State) (k : LaneId) (f : Lane → Lane) (los : Bool) (up : (f (s.lane k)).state = .up) :
    (s.modLane k f).wavesLost k los =
      if 4 ≤ popcount (f (s.lane k)).rxMask then (s.modLane k f).relock k else (s.modLane k f).retrainLane k := by
  unfold State.wavesLost
  rw [s.lane_modLane_same k f, up]
  by_cases enough : 4 ≤ popcount (f (s.lane k)).rxMask <;> simp [enough]

/-- A lane that comes UP. -/
def Lane.risen (l : Lane) : Lane :=
  { l with state := .up, txMask := l.farMask, credits := #v[1536, 512, 1536, 512], crSeen := Vector.replicate 4 0,
           crTotal := Vector.replicate 4 0, misCause := 0 }

/-- Nothing waits for a trunk: a lane that comes UP changes nothing else in the fabric. -/
theorem State.pumpTrunk_idle {s : State} (t : Nat) (waiting : s.fab.waiting = []) : s.pumpTrunk t = s := by
  have same : { s.fab with waiting := s.fab.waiting.filter (fun w => w.trunk != t) } = s.fab := by
    rw [waiting, List.filter_nil, ← waiting]
  have kept : s.modFab (fun f => { f with waiting := f.waiting.filter (fun w => w.trunk != t) }) = s :=
    congrArg (fun f : FabBlk => ({ s with fab := f } : State)) same
  unfold State.pumpTrunk
  dsimp only
  rw [kept, waiting]
  rfl

theorem State.laneUp_eq {s : State} {k : LaneId} (waiting : s.fab.waiting = []) (notices : s.fab.noticeQ = [])
    (noticed : s.fab.lossNoticed.getLsbD (k.val / 8) = false) :
    ∃ time goose, s.laneUp k = (s.modLane k Lane.risen).retimed time goose := by
  have back : (s.modLane k Lane.risen).trunkBack (k.val / 8) = s.modLane k Lane.risen := by
    unfold State.trunkBack
    rw [if_neg (by rw [State.modLane_fab, noticed]; exact Bool.false_ne_true)]
    dsimp only
    rw [State.pumpTrunk_idle (s := s.modLane k Lane.risen) _ waiting]
    exact if_pos (by rw [State.modLane_fab, notices]; rfl)
  obtain ⟨time, goose, eq⟩ := (s.modLane k Lane.risen).retime_eq
  exact ⟨time, goose, (congrArg State.retime back).trans eq⟩

theorem State.lane_retimed_same (s : State) (k : LaneId) (f : Lane → Lane) (time : TimeBlk) (goose : Goose) :
    ((s.modLane k f).retimed time goose).lane k = f (s.lane k) := s.lane_modLane_same k f

theorem State.modLane_id (s : State) (k : Nat) : s.modLane k id = s := by
  have same : vmod s.fab.lanes k id = s.fab.lanes := by
    unfold vmod
    split
    · simp
    · rfl
  unfold State.modLane
  rw [same]

/-- A listening lane as it wakes. -/
def Lane.woken (l : Lane) : Lane := { l with state := .up, txMask := l.farMask, wakeTx := false, helloDue := false }

theorem State.Calm.exec_listenWake {s t : State} (calm : s.Calm) {k : LaneId} (listen : (s.lane k).state = .listen)
    (woken : (if (s.lane k).helloDue then (s.modLane k Lane.woken).sendHello k else s.modLane k Lane.woken) = t)
    (waiting : t.fab.waiting = []) (still : t.settle = t) : exec (.listenWake k) s = .next t := by
  simp only [exec, execListenWake, calm.2.1, Bool.false_eq_true, if_false]
  have wakes : s.wakeLane k = t := by
    unfold State.wakeLane
    dsimp only
    rw [if_pos listen]
    exact (congrArg (State.pumpTrunk · (k.val / 8)) woken).trans (State.pumpTrunk_idle _ waiting)
  rw [wakes, still]

/-- Settles O30: a lane beside another that is UP changes alone; what is chosen again is the upstream lane. -/
theorem carryingLanes : Obligations.CarryingLanes := by
  unfold Obligations.CarryingLanes
  intro k mask w s calm l still cut cutFrom other
  have runs := calm.2.1
  have remains (x : Lane) (time : TimeBlk) (goose : Goose) :
      (∀ j, j ≠ k.val → ((s.modLane k (fun _ => x)).retimed time goose).lane j = s.lane j) ∧ still ((s.modLane k (fun _ => x)).retimed time goose) :=
    ⟨s.lane_modLane_other k _, rfl, rfl, rfl, rfl, rfl, rfl, rfl, rfl, rfl, rfl, rfl⟩
  refine ⟨?_, ?_, ?_, ?_, ?_, ?_, ?_, ?_, ?_, ?_⟩
  · intro hello ok enough far here waiting notices noticed noCopies
    obtain ⟨time, goose, rises⟩ := State.laneUp_eq waiting notices noticed
    have pumped : (s.laneUp k).pumpCopies = s.laneUp k := State.NoCopies.pumpCopies_eq (by rw [rises]; exact noCopies)
    have settled : ((s.laneUp k).pumpCopies).settle = (s.modLane k (fun _ => l.risen)).retimed time goose := by
      rw [pumped, rises, State.retimed_settle_step calm, s.modLane_congr k (g := fun _ => l.risen) rfl]
    refine ⟨_, (exec_laneBringUp_passed runs hello ok enough far here).trans (congrArg _ settled), ?_, ?_, ?_, remains _ _ _⟩ <;>
      rw [State.lane_retimed_same] <;> rfl
  · exact exec_lossOfSignal_dark s k w runs
  · intro up beside had enough
    obtain ⟨time, goose, busy, seq, retry, carry, sent, settled⟩ := State.relock_beside calm cut cutFrom beside
      (fun l => { l with los := satInc l.los, rxMask := clrBit l.rxMask w }) rfl rfl
    have lost := s.wavesLost_up k (fun l => { l with los := satInc l.los, rxMask := clrBit l.rxMask w }) true up
    rw [if_pos enough] at lost
    have run := (exec_lossOfSignal s k w runs).trans (congrArg Host.Outcome.next (if_pos had))
    refine ⟨_, run.trans (congrArg _ ((congrArg State.settle lost).trans settled)), ?_, ?_, ?_, ?_, ?_, remains _ _ _⟩ <;>
      rw [State.lane_retimed_same] <;> rfl
  · intro up beside gained enough
    obtain ⟨time, goose, busy, seq, retry, carry, sent, settled⟩ := State.relock_beside calm cut cutFrom beside
      (fun l => { l with rxMask := mask }) rfl rfl
    have lost := s.wavesLost_up k (fun l => { l with rxMask := mask }) false up
    rw [if_pos enough] at lost
    have run := (exec_laneBringUp_up (mask := mask) runs up).trans (congrArg Host.Outcome.next (if_neg gained))
    refine ⟨_, run.trans (congrArg _ ((congrArg State.settle lost).trans settled)), ?_, ?_, ?_, ?_, ?_, remains _ _ _⟩ <;>
      rw [State.lane_retimed_same] <;> rfl
  · exact fun up same => (exec_laneBringUp_up runs up).trans (congrArg _ (if_pos same))
  · intro up beside had few usable
    obtain ⟨time, goose, settled⟩ := State.retrainLane_beside calm cut cutFrom beside
      (fun l => { l with los := satInc l.los, rxMask := clrBit l.rxMask w }) rfl rfl rfl usable
    have lost := s.wavesLost_up k (fun l => { l with los := satInc l.los, rxMask := clrBit l.rxMask w }) true up
    rw [if_neg (Nat.not_le.mpr few)] at lost
    have run := (exec_lossOfSignal s k w runs).trans (congrArg Host.Outcome.next (if_pos had))
    refine ⟨_, run.trans (congrArg _ ((congrArg State.settle lost).trans settled)), ?_, ?_, remains _ _ _⟩ <;>
      rw [State.lane_retimed_same] <;> rfl
  · intro up beside usable
    obtain ⟨time, goose, settled⟩ := State.retrainLane_beside calm cut cutFrom beside id rfl rfl rfl usable
    have run : exec (.laneWidthLoss k) s = .next ((s.retrainLane k).settle) := by
      simp only [exec, execLaneWidthLoss, runs, Bool.false_eq_true, if_false]
      exact if_pos up
    rw [State.modLane_id] at settled
    refine ⟨_, run.trans (congrArg _ settled), ?_, ?_, remains _ _ _⟩ <;>
      rw [State.lane_retimed_same] <;> rfl
  · intro listen waiting quiet
    refine calm.exec_listenWake listen ?_ waiting (calm.settle_modLane k _)
    rw [if_neg (by rw [show (s.lane k).helloDue = false from quiet]; exact Bool.false_ne_true)]
    exact s.modLane_congr k (congrArg (fun due => { l with state := LaneState.up, txMask := l.farMask, wakeTx := false, helloDue := due }) quiet.symm)
  · intro listen waiting due
    obtain ⟨busy, seq, retry, carry, sent, hello⟩ := s.sendHello_modLane k Lane.woken
    have woken : (if (s.lane k).helloDue then (s.modLane k Lane.woken).sendHello k else s.modLane k Lane.woken) =
      s.modLane k (fun _ => l.woken.greeted busy seq retry carry sent) := (if_pos due).trans hello
    refine ⟨_, calm.exec_listenWake listen woken waiting (calm.settle_modLane k _), ?_, ?_, ?_, ?_, ?_, remains _ s.time s.goose⟩ <;>
      rw [s.lane_modLane_same k] <;> rfl
  · intro up on noJob farNoJob notFollowed waiting notUp
    simp only [exec, execListenEntry, runs, Bool.false_eq_true, if_false]
    exact if_pos ⟨up, on, noJob, farNoJob, by rw [waiting]; rfl, notUp, notFollowed⟩

end Sys2Proof.Machine
end

section
/-! PROOFS. O31 LightAndHellos. -/

namespace Sys2Proof.Machine

set_option Elab.async false -- in turn: many waiting threads need much memory

/-! ## A row that changes several lanes, each by itself -/

theorem State.laneFrame.refl (s : State) : s.laneFrame s := rfl

/-- What one pass over lanes makes of each, and that nothing else changes. -/
theorem State.foldl_lanes {s : State} {F : State → Nat → State} {R : Nat → Lane → Lane → Prop} (l : List Nat) (once : l.Nodup)
    (step : ∀ v k, k ∈ l → s.laneFrame v → v.lane k = s.lane k → ∃ x, F v k = v.modLane k (fun _ => x) ∧ R k (s.lane k) x) :
    s.laneFrame (l.foldl F s) ∧ (∀ j ∈ l, j < 64 → R j (s.lane j) ((l.foldl F s).lane j)) ∧ ∀ j, j ∉ l → (l.foldl F s).lane j = s.lane j := by
  suffices from_ : ∀ (l : List Nat) (v : State), l.Nodup → s.laneFrame v → (∀ k ∈ l, v.lane k = s.lane k) →
      (∀ v k, k ∈ l → s.laneFrame v → v.lane k = s.lane k → ∃ x, F v k = v.modLane k (fun _ => x) ∧ R k (s.lane k) x) →
      s.laneFrame (l.foldl F v) ∧ (∀ j ∈ l, j < 64 → R j (s.lane j) ((l.foldl F v).lane j)) ∧ ∀ j, j ∉ l → (l.foldl F v).lane j = v.lane j by
    exact from_ l s once (State.laneFrame.refl s) (fun _ _ => rfl) step
  intro l
  induction l with
  | nil => exact fun v _ frame _ _ => ⟨frame, fun j hj => absurd hj List.not_mem_nil, fun j _ => rfl⟩
  | cons k l ih =>
    intro v once frame same step
    obtain ⟨apart, once'⟩ := List.nodup_cons.mp once
    obtain ⟨x, eq, rel⟩ := step v k (.head _) frame (same k (.head _))
    have others (j : Nat) (far : j ≠ k) : (F v k).lane j = v.lane j := by
      rw [eq, State.lane_modLane, if_neg (fun both => far both.1)]
    obtain ⟨frame', made, kept⟩ := ih (F v k) once' (by rw [eq]; exact frame.trans (State.laneFrame_modLane v k _))
      (fun j hj => by rw [others j (fun e => apart (e ▸ hj)), same j (.tail _ hj)])
      (fun u j hj => step u j (.tail _ hj))
    refine ⟨frame', ?_, ?_⟩
    · intro j hj near
      rcases List.mem_cons.mp hj with rfl | later
      · rw [List.foldl_cons, kept j apart, eq, State.lane_modLane, if_pos ⟨rfl, near⟩]
        exact rel
      · exact made j later near
    · intro j hj
      have far : j ≠ k := fun e => hj (e ▸ .head _)
      have notLater : j ∉ l := fun m => hj (.tail _ m)
      rw [List.foldl_cons, kept j notLater, others j far]

/-! ## LSU_FAULT and LSU_READY (R289) -/

theorem mem_lsuLanes {u k : Nat} : k ∈ lsuLanes u ↔ k / 16 = u := by
  simp only [lsuLanes, List.mem_map, List.mem_range]
  constructor
  · rintro ⟨i, hi, rfl⟩
    omega
  · exact fun h => ⟨k % 16, by omega, by omega⟩

theorem lsuLanes_nodup (u : Nat) : (lsuLanes u).Nodup :=
  List.Nodup.map (fun _ _ h => Nat.add_right_cancel h) List.nodup_range

theorem State.laneFrame.settle {s t : State} (calm : s.Calm) (f : FabBlk) (frame : ({ s with fab := f } : State).laneFrame t) : t.settle = t := by
  rw [show t = _ from frame]
  exact calm.settle_fab _

/-- The light-source unit's bits as it faults, and as it is ready again. -/
def FabBlk.lsuDark (f : FabBlk) (u : Nat) (removed : Bool) : FabBlk :=
  { f with lsuOk := clrBit f.lsuOk u, lsuPresent := if removed then clrBit f.lsuPresent u else f.lsuPresent,
           lsuLit := clrBit f.lsuLit u, lsuFitted := if removed then clrBit f.lsuFitted u else f.lsuFitted }
def FabBlk.lsuShows (f : FabBlk) (u : Nat) : FabBlk :=
  { f with lsuOk := setBit f.lsuOk u, lsuPresent := setBit f.lsuPresent u, lsuLit := setBit f.lsuLit u, lsuFitted := setBit f.lsuFitted u }

section
variable {s : State} (u : Fin 4) (idle : ∀ k, k < 64 → k / 16 = u.val →
  (s.lane k).state ≠ .up ∧ (s.lane k).state ≠ .listen ∧ (s.lane k).cut = none ∧ (s.lane k).cutFrom = none)
include idle

/-- A lane of the unit that goes down in a state with the same lane. -/
theorem State.laneDown_of_unit {v : State} {k : Nat} (mine : k ∈ lsuLanes u) (same : v.lane k = s.lane k) (next : LaneState) :
    v.laneDown k next = v.modLane k (fun _ => (s.lane k).leave next) := by
  have unit := mem_lsuLanes.mp mine
  obtain ⟨up, listen, cut, cutFrom⟩ := idle k (by have := u.isLt; omega) unit
  rw [← same] at up listen cut cutFrom
  rw [State.laneDown_alone v k next (LaneState.carries_eq_false up listen) cut cutFrom]
  exact v.modLane_congr k (congrArg (Lane.leave · next) same)

theorem exec_lsuFault_unit (calm : s.Calm) (removed : Bool) :
    ∃ t, exec (.lsuFault u removed) s = .next t ∧ ({ s with fab := s.fab.lsuDark u removed } : State).laneFrame t ∧
      (∀ k, k < 64 → k / 16 = u.val → t.lane k = (s.lane k).leave .off) ∧ ∀ k, ¬ k / 16 = u.val → t.lane k = s.lane k := by
  obtain ⟨frame, dark, others⟩ := State.foldl_lanes (s := { s with fab := s.fab.lsuDark u removed })
    (F := fun s k => s.laneDown k .off) (R := fun _ l m => m = l.leave .off) (lsuLanes u) (lsuLanes_nodup u)
    (fun v k mine _ same => ⟨_, State.laneDown_of_unit u idle mine same .off, rfl⟩)
  exact ⟨_, congrArg Host.Outcome.next (frame.settle calm _), frame, fun k near mine => dark k (mem_lsuLanes.mpr mine) near,
    fun k far => others k (fun mine => far (mem_lsuLanes.mp mine))⟩

theorem exec_lsuReady_unit (runs : s.stopped = false) :
    ∃ t, exec (.lsuReady u) s = .next t ∧ ({ s with fab := s.fab.lsuShows u } : State).laneFrame t ∧
      (∀ k, k < 64 → k / 16 = u.val → t.lane k = if (s.lane k).state = .off then
        (s.lane k).leave (if decide (1 < s.fab.size u) && !(s.lane k).disable then .train else .off) else s.lane k) ∧
      ∀ k, ¬ k / 16 = u.val → t.lane k = s.lane k := by
  have ok : (s.fab.lsuShows u).lsuOk.getLsbD u = true := by simp [FabBlk.lsuShows, setBit]
  obtain ⟨frame, made, others⟩ := State.foldl_lanes (s := { s with fab := s.fab.lsuShows u })
    (F := fun s k => if (s.lane k).state = .off ∧ s.stopped = false then s.startTrain k else s)
    (R := fun _ l m => m = if l.state = .off then l.leave (if decide (1 < s.fab.size u) && !l.disable then .train else .off) else l)
    (lsuLanes u) (lsuLanes_nodup u) (by
      intro v k mine frame same
      by_cases off : (s.lane k).state = .off
      · have usable : v.laneUsable k = (decide (1 < s.fab.size u) && !(s.lane k).disable) := by
          unfold State.laneUsable
          rw [same, show v = _ from frame, mem_lsuLanes.mp mine]
          exact (Bool.and_eq_left_iff_imp.mpr (fun _ => ok))
        refine ⟨_, ?_, rfl⟩
        rw [if_pos ⟨by rw [same]; exact off, by rw [show v = _ from frame]; exact runs⟩, State.startTrain, usable,
          State.laneDown_of_unit u idle mine same]
        exact v.modLane_congr k (if_pos off).symm
      · refine ⟨s.lane k, ?_, (if_neg off).symm⟩
        rw [if_neg (fun both => off (by rw [same] at both; exact both.1))]
        exact (v.modLane_id k).symm.trans (v.modLane_congr k same))
  exact ⟨_, rfl, frame, fun k near mine => made k (mem_lsuLanes.mpr mine) near, fun k far => others k (fun mine => far (mem_lsuLanes.mp mine))⟩

end

/-! ## The checks of a hello (R297) -/

/-- Four bytes of a message, compared one by one. -/
theorem bytes4_eq_iff (p : List Byte) (o : Nat) (f : Nat → Nat) :
    (slice p o 4).map (·.toNat) = (List.range 4).map f ↔ ∀ d, d < 4 → leAt p (o + d) 1 = f d := by
  have byte (d : Nat) (hd : d < 4) : ((slice p o 4).map (·.toNat)).getD d 0 = leAt p (o + d) 1 := by
    rw [leAt_one, ← slice_getD p o 4 d hd]
    simp [hd, length_slice]
  constructor
  · intro same d hd
    rw [← byte d hd, same]
    simp [hd]
  · intro same
    refine List.ext_getElem (by simp [length_slice]) (fun d h1 h2 => ?_)
    have hd : d < 4 := by simpa using h2
    have this := (byte d hd).trans (same d hd)
    have inside : d < (slice p o 4).length := by rw [length_slice]; exact hd
    simpa [List.getElem?_eq_getElem inside] using this

theorem hello_coord (p : List Byte) (d : Nat) (hd : d < 4) : (Hello.of p).coord.getD d 0 = leAt p (8 + d) 1 := by
  rw [leAt_one, ← slice_getD p 8 4 d hd]
  simp [Hello.of, hd, length_slice]

/-- The neighbour's coordinates are one step away along the trunk's dimension and the same in the others. -/
theorem neighbourOk_iff (s : State) (p : List Byte) (t : Nat) :
    neighbourOk s.ownCoord (Hello.of p).coord ((List.range 4).map s.fab.size) t = true ↔ ∀ d, d < 4 → leAt p (8 + d) 1 =
      if d = t / 2 then stepCoord (s.fab.size d) (s.fab.coord.getD d 0).toNat (t % 2 == 1) else (s.fab.coord.getD d 0).toNat := by
  have own (d : Nat) (hd : d < 4) : s.ownCoord.getD d 0 = (s.fab.coord.getD d 0).toNat := by simp [State.ownCoord, hd]
  have size (d : Nat) (hd : d < 4) : ((List.range 4).map s.fab.size).getD d 1 = s.fab.size d := by simp [hd]
  unfold neighbourOk
  rw [List.all_eq_true]
  refine forall_congr' (fun d => ?_)
  rw [List.mem_range]
  refine imp_congr_right (fun hd => ?_)
  rw [own d hd, size d hd, hello_coord p d hd]
  split
  · rw [beq_iff_eq]
  · rw [beq_iff_eq, eq_comm]

/-- The c-th check of a hello. -/
def State.helloPasses (s : State) (k : Nat) (p : List Byte) (c : Nat) : Prop :=
  match c with
  | 1 => leAt p 0 4 = s.fab.systemId.toNat
  | 2 => leAt p 6 1 = (k / 8 ^^^ 1)
  | 3 => leAt p 7 1 = k % 8
  | 4 => ∀ d, d < 4 → leAt p (0xC + d) 1 = s.fab.size d
  | _ => s.fab.coordValid = true → (p.getD 0x10 0).getLsbD 0 = true → ∀ d, d < 4 → leAt p (8 + d) 1 =
      if d = k / 8 / 2 then stepCoord (s.fab.size d) (s.fab.coord.getD d 0).toNat (k / 8 % 2 == 1) else (s.fab.coord.getD d 0).toNat

theorem State.helloPasses_sizes (s : State) (k : Nat) (p : List Byte) : s.helloPasses k p 4 ↔ (Hello.of p).sizes = (List.range 4).map s.fab.size :=
  (bytes4_eq_iff p 0xC s.fab.size).symm

theorem State.helloPasses_coord (s : State) (k : Nat) (p : List Byte) : s.helloPasses k p 5 ↔
    (s.fab.coordValid && (Hello.of p).flags.getLsbD 0 &&
      !neighbourOk s.ownCoord (Hello.of p).coord ((List.range 4).map s.fab.size) (k / 8)) = false := by
  have near := neighbourOk_iff s p (k / 8)
  cases ok : neighbourOk s.ownCoord (Hello.of p).coord ((List.range 4).map s.fab.size) (k / 8)
  case false =>
    rw [ok] at near
    have far := mt near.mpr Bool.false_ne_true
    rw [Bool.not_false, Bool.and_true]
    exact ⟨fun passes => Bool.eq_false_iff.mpr (fun both => far (passes (Bool.and_eq_true_iff.mp both).1 (Bool.and_eq_true_iff.mp both).2)),
      fun no valid flag => absurd (Bool.and_eq_true_iff.mpr ⟨valid, flag⟩) (Bool.eq_false_iff.mp no)⟩
  case true =>
    exact ⟨fun _ => by simp, fun _ _ _ => near.mp ok⟩

/-- The lowest check that fails is the cause. -/
theorem State.helloCause_failed {s : State} {k : Nat} {p : List Byte} {c : Nat} (low : 1 ≤ c) (high : c ≤ 5) (fails : ¬ s.helloPasses k p c)
    (before : ∀ b, 1 ≤ b → b < c → s.helloPasses k p b) : s.helloCause k (Hello.of p) = c := by
  have one (h : 1 < c) : (Hello.of p).systemId = s.fab.systemId.toNat := before 1 le_rfl h
  have two (h : 2 < c) : (Hello.of p).trunk = k / 8 ^^^ 1 := before 2 (by decide) h
  have three (h : 3 < c) : (Hello.of p).lane = k % 8 := before 3 (by decide) h
  have four (h : 4 < c) := (s.helloPasses_sizes k p).mp (before 4 (by decide) h)
  unfold State.helloCause
  dsimp only
  interval_cases c
  · exact if_pos fails
  · rw [if_neg (not_not.mpr (one (by decide)))]
    exact if_pos fails
  · rw [if_neg (not_not.mpr (one (by decide))), if_neg (not_not.mpr (two (by decide)))]
    exact if_pos fails
  · rw [if_neg (not_not.mpr (one (by decide))), if_neg (not_not.mpr (two (by decide))), if_neg (not_not.mpr (three (by decide)))]
    exact if_pos (mt (s.helloPasses_sizes k p).mpr fails)
  · rw [if_neg (not_not.mpr (one (by decide))), if_neg (not_not.mpr (two (by decide))), if_neg (not_not.mpr (three (by decide))),
      if_neg (not_not.mpr (four (by decide)))]
    exact if_pos (Bool.not_eq_false _ ▸ mt (s.helloPasses_coord k p).mpr fails)

/-- A hello that passes every check. -/
theorem State.helloCause_passed {s : State} {k : Nat} {p : List Byte} (passes : ∀ b, 1 ≤ b → b ≤ 5 → s.helloPasses k p b) :
    s.helloCause k (Hello.of p) = 0 := by
  have one : (Hello.of p).systemId = s.fab.systemId.toNat := passes 1 le_rfl (by decide)
  have two : (Hello.of p).trunk = k / 8 ^^^ 1 := passes 2 (by decide) (by decide)
  have three : (Hello.of p).lane = k % 8 := passes 3 (by decide) (by decide)
  have four := (s.helloPasses_sizes k p).mp (passes 4 (by decide) (by decide))
  have five := (s.helloPasses_coord k p).mp (passes 5 (by decide) le_rfl)
  unfold State.helloCause
  dsimp only
  rw [if_neg (not_not.mpr one), if_neg (not_not.mpr two), if_neg (not_not.mpr three), if_neg (not_not.mpr four)]
  exact if_neg (Bool.eq_false_iff.mp five)

/-! ## What a hello does to a lane in HELLO (R297, R298) -/

/-- The fabric with IFLEVEL compared, and with a conflict of coordinates noted. -/
def State.levelFab (s : State) (p : List Byte) : FabBlk :=
  { s.fab with iflDiff := if leAt p 0x12 2 = s.rst.stIflevel.toNat then s.fab.iflDiff else satInc s.fab.iflDiff }
def State.conflictFab (s : State) (p : List Byte) (c : Nat) : FabBlk :=
  { s.levelFab p with conflict := s.fab.conflict || (c == 5 && s.fab.coordMode == 2) }

theorem State.levelFab_eq (s : State) (p : List Byte) :
    (if (Hello.of p).iflevel ≠ s.rst.stIflevel.toNat then s.modFab (fun f => { f with iflDiff := satInc f.iflDiff }) else s) =
      { s with fab := s.levelFab p } := by
  unfold State.levelFab
  by_cases same : leAt p 0x12 2 = s.rst.stIflevel.toNat
  · exact (if_neg (not_not.mpr same)).trans (by rw [if_pos same])
  · exact (if_pos same).trans (by rw [if_neg same]; rfl)

theorem State.conflictFab_eq (s : State) (p : List Byte) (c : Nat) :
    (if c = 5 ∧ s.fab.coordMode = 2 then ({ s with fab := s.levelFab p } : State).modFab (fun f => { f with conflict := true })
      else { s with fab := s.levelFab p }) = { s with fab := s.conflictFab p c } := by
  unfold State.conflictFab
  split
  next both =>
    obtain ⟨rfl, mode⟩ := both
    simp [mode]
    rfl
  next no =>
    have none_ : (c == 5 && s.fab.coordMode == 2) = false := by simpa using no
    rw [none_, Bool.or_false]
    rfl

/-- A hello of fewer than four wavelengths. -/
theorem State.helloPassed_few {s : State} {k : LaneId} {h : Hello} (few : popcount h.rxMask < 4) :
    s.helloPassed k h = (s.countRetrain k).laneDown k .failed := if_pos few

/-- The state in which a module has derived its coordinates, before and after it greets every lane. -/
def State.derives (s : State) (k : Nat) (p : List Byte) : State :=
  (({ s with fab := s.levelFab p } : State).modFab (fun f => f.derive (k / 8) (Hello.of p))).ownSource
theorem State.derives_eq (s : State) (k : Nat) (p : List Byte) :
    ∃ time, s.derives k p = ({ s with fab := (s.levelFab p).derive (k / 8) (Hello.of p) } : State).retimed time s.goose := by
  have own (u : State) : ∃ time, u.ownSource = u.retimed time u.goose := ⟨_, rfl⟩
  exact own _
theorem FabBlk.derive_lanes (f : FabBlk) (t : Nat) (h : Hello) : (f.derive t h).lanes = f.lanes := rfl
theorem State.lane_derives (s : State) (k : Nat) (p : List Byte) (j : Nat) : (s.derives k p).lane j = s.lane j := by
  obtain ⟨time, eq⟩ := s.derives_eq k p
  have lanes : (s.derives k p).fab.lanes = s.fab.lanes := by
    rw [eq]
    exact FabBlk.derive_lanes _ _ _
  unfold State.lane
  rw [lanes]
def State.derived (s : State) (k : Nat) (p : List Byte) : State := (s.derives k p).helloAll

section
variable {s : State} {k : LaneId} {p : List Byte} (hello : (s.lane k).state = .hello)
include hello

theorem State.helloIn_failed {c : Nat} (cause : s.helloCause k (Hello.of p) = c) (bad : c ≠ 0) : s.helloIn k p =
    ((({ s with fab := s.conflictFab p c } : State).modLane k (fun l => { l with misCause := BitVec.ofNat 4 c })).laneDown k .miswired).log
      { source := 0x04, code := 0x01, detail := [(k.val / 8, 1), (k.val % 8, 1), (c, 1)] } := by
  have still : (decide (s.fab.coordMode = 2) && !s.fab.coordValid && (Hello.of p).flags.getLsbD 0 && c == 0) = false := by simp [bad]
  unfold State.helloIn
  dsimp only
  rw [cause, hello, still, State.levelFab_eq]
  exact (if_pos bad).trans (by rw [← State.conflictFab_eq s p c]; rfl)

theorem State.helloIn_passed (cause : s.helloCause k (Hello.of p) = 0)
    (still : (decide (s.fab.coordMode = 2) && !s.fab.coordValid && (Hello.of p).flags.getLsbD 0) = false) :
    s.helloIn k p = ({ s with fab := s.levelFab p } : State).helloPassed k (Hello.of p) := by
  unfold State.helloIn
  dsimp only
  rw [cause, hello, still, State.levelFab_eq]
  rfl

theorem State.helloIn_derives (cause : s.helloCause k (Hello.of p) = 0)
    (derives : (decide (s.fab.coordMode = 2) && !s.fab.coordValid && (Hello.of p).flags.getLsbD 0) = true) :
    s.helloIn k p = (s.derived k p).helloPassed k (Hello.of p) := by
  unfold State.helloIn
  dsimp only
  rw [cause, hello, derives, State.levelFab_eq]
  rfl

/-- What a lane in HELLO keeps of a hello that passed. -/
theorem State.helloPassed_enough {h : Hello} (enough : 4 ≤ popcount h.rxMask) :
    s.helloPassed k h = s.modLane k (fun l =>
      { l with farMask := h.rxMask, farDev := BitVec.ofNat 14 h.dev, farRestricted := h.flags.getLsbD 2, farJob := h.flags.getLsbD 3,
               helloOk := true, txMask := if l.state = .hello then h.rxMask else l.txMask }) := by
  have same : ¬ ((s.lane k).state = .up ∧ (h.rxMask ≠ (s.lane k).txMask ∨ h.flags.getLsbD 2 = true)) := by
    rw [hello]
    exact fun both => nomatch both.1
  unfold State.helloPassed
  rw [if_neg (Nat.not_lt.mpr enough)]
  dsimp only
  rw [if_neg same]
  split
  · exact if_neg (by rw [s.lane_modLane_same k]; exact fun listen => nomatch hello.symm.trans listen)
  · rfl

end

theorem State.sendHello_lane (s : State) (k : Nat) : ∃ x, s.sendHello k = s.modLane k (fun _ => x) ∧ x.state = (s.lane k).state ∧
    x.cut = (s.lane k).cut ∧ x.cutFrom = (s.lane k).cutFrom ∧ x.hellos = (s.lane k).hellos + 1 := by
  obtain ⟨busy, seq, retry, carry, sent, eq⟩ := s.sendHello_eq k
  exact ⟨_, eq, rfl, rfl, rfl, rfl⟩

/-- A greeting of every lane keeps the lanes' states. -/
theorem State.helloAll_frame (s : State) : s.laneFrame s.helloAll ∧ ∀ j, j < 64 →
    (s.helloAll.lane j).state = (s.lane j).state ∧ (s.helloAll.lane j).cut = (s.lane j).cut ∧ (s.helloAll.lane j).cutFrom = (s.lane j).cutFrom := by
  obtain ⟨frame, made, -⟩ := State.foldl_lanes (s := s)
    (F := fun s k => match (s.lane k).state with
      | .hello | .up | .miswired => s.sendHello k
      | .listen => s.dueHello k
      | _ => s)
    (R := fun _ l m => m.state = l.state ∧ m.cut = l.cut ∧ m.cutFrom = l.cutFrom) (List.range 64) List.nodup_range (by
      intro v k _ _ same
      rw [← same]
      have sends : ∃ x, v.sendHello k = v.modLane k (fun _ => x) ∧ x.state = (v.lane k).state ∧ x.cut = (v.lane k).cut ∧
          x.cutFrom = (v.lane k).cutFrom := by
        obtain ⟨x, eq, state, cut, cutFrom, -⟩ := v.sendHello_lane k
        exact ⟨x, eq, state, cut, cutFrom⟩
      have stays : ∃ x, v = v.modLane k (fun _ => x) ∧ x.state = (v.lane k).state ∧ x.cut = (v.lane k).cut ∧ x.cutFrom = (v.lane k).cutFrom :=
        ⟨v.lane k, (v.modLane_id k).symm.trans (v.modLane_congr k rfl), rfl, rfl, rfl⟩
      cases state : (v.lane k).state with
      | hello | up | miswired => simpa only [state] using sends
      | listen => exact ⟨{ v.lane k with helloDue := true, wakeTx := true }, v.modLane_congr k rfl, state, rfl, rfl⟩
      | off | train | failed => simpa only [state] using stays)
  exact ⟨frame, fun j near => made j (List.mem_range.mpr near) near⟩

/-- The coordinates that a module derives from its neighbour's (R298). -/
theorem FabBlk.derive_coord (f : FabBlk) (t : Nat) (h : Hello) (d : Fin 4) : ((f.derive t h).coord.getD d 0).toNat =
    (if d.val = t / 2 then stepCoord (f.size d) (h.coord.getD d 0) (t % 2 == 0) else h.coord.getD d 0) % 256 := by
  have four : List.range 4 = [0, 1, 2, 3] := rfl
  unfold FabBlk.derive
  dsimp only
  rw [four]
  simp only [List.foldl_cons, List.foldl_nil]
  fin_cases d <;> simp [Vector.getD, BitVec.toNat_ofNat]

theorem State.Calm.exec_helloReceived {s t : State} (calm : s.Calm) {k : LaneId} {p : List Byte} (gives : s.helloIn k p = t) (still : t.settle = t) :
    exec (.helloReceived k p) s = .next t := by
  simp only [exec, execHelloReceived, calm.2.1, Bool.false_eq_true, if_false]
  rw [gives, still]

theorem State.lane_derived (s : State) (k : LaneId) (p : List Byte) : ((s.derived k p).lane k).state = (s.lane k).state ∧
    ((s.derived k p).lane k).cut = (s.lane k).cut ∧ ((s.derived k p).lane k).cutFrom = (s.lane k).cutFrom := by
  rw [← s.lane_derives k p k]
  exact (s.derives k p).helloAll_frame.2 k k.isLt

theorem FabBlk.derive_valid (f : FabBlk) (t : Nat) (h : Hello) : (f.derive t h).coordValid = true := rfl

theorem State.derived_frame (s : State) (k : Nat) (p : List Byte) (f : Lane → Lane) : ∃ lanes time, (s.derived k p).modLane k f =
    ({ s with fab := { (s.levelFab p).derive (k / 8) (Hello.of p) with lanes := lanes } } : State).retimed time s.goose := by
  obtain ⟨time, eq⟩ := s.derives_eq k p
  have frame : (s.derives k p).laneFrame ((s.derived k p).modLane k f) :=
    (s.derives k p).helloAll_frame.1.trans (State.laneFrame_modLane _ k f)
  rw [eq] at frame
  exact ⟨_, time, frame⟩

section
variable {s : State} {k : LaneId} {p : List Byte} (calm : s.Calm) (hello : (s.lane k).state = .hello) (cut : (s.lane k).cut = none)
  (cutFrom : (s.lane k).cutFrom = none)
include calm hello cut cutFrom

/-- A hello that fails a check makes its lane MISWIRED. -/
theorem State.exec_helloReceived_failed {c : Nat} (low : 1 ≤ c) (high : c ≤ 5) (fails : ¬ s.helloPasses k p c)
    (before : ∀ b, 1 ≤ b → b < c → s.helloPasses k p b) : exec (.helloReceived k p) s =
      .next ((({ s with fab := s.conflictFab p c } : State).modLane k (fun _ =>
        { s.lane k with misCause := BitVec.ofNat 4 c }.leave .miswired)).log
          { source := 0x04, code := 0x01, detail := [(k.val / 8, 1), (k.val % 8, 1), (c, 1)] }) := by
  have down := State.laneDown_modLane (s := { s with fab := s.conflictFab p c }) (k := k) (fun up => nomatch hello.symm.trans up)
    (fun listen => nomatch hello.symm.trans listen) cut cutFrom (fun l => { l with misCause := BitVec.ofNat 4 c }) .miswired rfl rfl rfl
  refine calm.exec_helloReceived ?_ (calm.settle_retimed _ s.time _)
  rw [State.helloIn_failed hello (State.helloCause_failed low high fails before) (by omega), down]
  rfl

/-- A hello of fewer than four wavelengths that passes makes its lane FAILED. -/
theorem State.exec_helloReceived_few (passes : ∀ b, 1 ≤ b → b ≤ 5 → s.helloPasses k p b) (few : popcount (p.getD 0x11 0) < 4)
    (mode : s.fab.coordMode ≠ 2) : exec (.helloReceived k p) s =
      .next (({ s with fab := s.levelFab p } : State).modLane k (fun _ => (s.lane k).retrained.leave .failed)) := by
  have down := State.laneDown_modLane (s := { s with fab := s.levelFab p }) (k := k) (fun up => nomatch hello.symm.trans up)
    (fun listen => nomatch hello.symm.trans listen) cut cutFrom Lane.retrained .failed rfl rfl rfl
  refine calm.exec_helloReceived ?_ (calm.settle_fab _)
  rw [State.helloIn_passed hello (State.helloCause_passed passes) (by rw [decide_eq_false mode]; rfl)]
  exact (State.helloPassed_few (s := { s with fab := s.levelFab p }) (h := Hello.of p) few).trans down

omit cut cutFrom in
/-- A hello that passes every check is kept. -/
theorem State.exec_helloReceived_enough (passes : ∀ b, 1 ≤ b → b ≤ 5 → s.helloPasses k p b) (enough : 4 ≤ popcount (p.getD 0x11 0))
    (mode : s.fab.coordMode ≠ 2) : exec (.helloReceived k p) s =
      .next (({ s with fab := s.levelFab p } : State).modLane k (fun l =>
      { l with farMask := p.getD 0x11 0, farDev := BitVec.ofNat 14 (leAt p 4 2), farRestricted := (p.getD 0x10 0).getLsbD 2,
               farJob := (p.getD 0x10 0).getLsbD 3, helloOk := true, txMask := if l.state = .hello then p.getD 0x11 0 else l.txMask })) := by
  refine calm.exec_helloReceived ?_ (calm.settle_fab _)
  rw [State.helloIn_passed hello (State.helloCause_passed passes) (by rw [decide_eq_false mode]; rfl)]
  exact State.helloPassed_enough (s := { s with fab := s.levelFab p }) (h := Hello.of p) hello enough

omit calm in
/-- A module that derives its coordinates changes its fabric and its time block. -/
theorem State.helloIn_derived (passes : ∀ b, 1 ≤ b → b ≤ 5 → s.helloPasses k p b) (mode : s.fab.coordMode = 2)
    (unset : s.fab.coordValid = false) (sent : (p.getD 0x10 0).getLsbD 0 = true) :
    ∃ f, s.helloIn k p = (s.derived k p).modLane k f := by
  obtain ⟨state, cut', cutFrom'⟩ := s.lane_derived k p
  have derives : (decide (s.fab.coordMode = 2) && !s.fab.coordValid && (Hello.of p).flags.getLsbD 0) = true := by
    rw [decide_eq_true mode, unset]
    exact sent
  rw [State.helloIn_derives hello (State.helloCause_passed passes) derives]
  generalize s.derived k p = v at *
  have hello' : (v.lane k).state = .hello := state.trans hello
  by_cases few : popcount (Hello.of p).rxMask < 4
  · have down := State.laneDown_modLane (s := v) (k := k) (fun up => nomatch hello'.symm.trans up)
      (fun listen => nomatch hello'.symm.trans listen) (cut'.trans cut) (cutFrom'.trans cutFrom) Lane.retrained .failed rfl rfl rfl
    exact ⟨_, (State.helloPassed_few few).trans down⟩
  · exact ⟨_, State.helloPassed_enough hello' (Nat.not_lt.mp few)⟩

/-- The first good hello with coordinates gives a module that derives them its own. -/
theorem State.exec_helloReceived_derives (passes : ∀ b, 1 ≤ b → b ≤ 5 → s.helloPasses k p b) (mode : s.fab.coordMode = 2)
    (unset : s.fab.coordValid = false) (sent : (p.getD 0x10 0).getLsbD 0 = true) :
    ∃ t, exec (.helloReceived k p) s = .next t ∧ t.fab.coordValid = true ∧ t.ms = s.ms ∧ ∀ d : Fin 4, (t.fab.coord.getD d 0).toNat =
      (if d.val = k.val / 8 / 2 then stepCoord (s.fab.size d) (leAt p (8 + d) 1) (k.val / 8 % 2 == 0) else leAt p (8 + d) 1) % 256 := by
  obtain ⟨f, gives⟩ := State.helloIn_derived hello cut cutFrom passes mode unset sent
  obtain ⟨lanes, time, framed⟩ := s.derived_frame k p f
  have valid := (s.levelFab p).derive_valid (k.val / 8) (Hello.of p)
  have coord := (s.levelFab p).derive_coord (k.val / 8) (Hello.of p)
  generalize (s.levelFab p).derive (k.val / 8) (Hello.of p) = g at framed valid coord
  have run := calm.exec_helloReceived (gives.trans framed) (calm.settle_retimed _ _ _)
  exact ⟨_, run, valid, rfl, fun d => (coord d).trans (by rw [hello_coord p d d.isLt]; rfl)⟩

end

/-- The periodic hello (R297, R298). -/
theorem State.exec_helloTimer_lanes {s : State} (runs : s.stopped = false) (due : Nat → Prop)
    (iff : ∀ j, due j ↔ ((s.lane j).state == .hello && ((s.fab.coordMode == 2 && !s.fab.coordValid) || s.restrictedHere || (s.lane j).farRestricted)) = true) :
    ∃ t, exec .helloTimer s = .next t ∧ (∀ j, j < 64 → due j → (t.lane j).hellos = (s.lane j).hellos + 1 ∧ (t.lane j).state = .hello) ∧
      (∀ j, ¬ due j → t.lane j = s.lane j) ∧ t = { s with fab := { s.fab with lanes := t.fab.lanes } } := by
  obtain ⟨frame, made, others⟩ := State.foldl_lanes (s := s)
    (F := fun v k => if (v.lane k).state == .hello && ((s.fab.coordMode == 2 && !s.fab.coordValid) || v.restrictedHere || (v.lane k).farRestricted)
      then v.sendHello k else v)
    (R := fun j l m => (due j → m.hellos = l.hellos + 1 ∧ m.state = .hello) ∧ (¬ due j → m = l)) (List.range 64) List.nodup_range (by
      intro v k _ frame same
      have here : v.restrictedHere = s.restrictedHere := by rw [show v = _ from frame]; rfl
      by_cases d : due k
      · obtain ⟨x, eq, state, -, -, hellos⟩ := v.sendHello_lane k
        have cond := (iff k).mp d
        refine ⟨x, ?_, fun _ => ⟨by rw [hellos, same], ?_⟩, fun no => absurd d no⟩
        · rw [if_pos (by rw [same, here]; exact cond)]
          exact eq
        · rw [state, same]
          exact beq_iff_eq.mp (Bool.and_eq_true_iff.mp cond).1
      · refine ⟨s.lane k, ?_, fun yes => absurd yes d, fun _ => rfl⟩
        rw [if_neg (by rw [same, here]; exact fun cond => d ((iff k).mpr cond))]
        exact (v.modLane_id k).symm.trans (v.modLane_congr k same))
  refine ⟨_, if_neg (by rw [runs]; exact Bool.false_ne_true), ?_, ?_, frame⟩
  · exact fun j near d => (made j (List.mem_range.mpr near) near).1 d
  · intro j no
    by_cases near : j < 64
    · exact (made j (List.mem_range.mpr near) near).2 no
    · exact others j (fun mem => near (List.mem_range.mp mem))

/-- Settles O31: each lane of a unit goes down or trains by itself; a hello ends at its lowest failing check, or is kept. -/
theorem lightAndHellos : Obligations.LightAndHellos := by
  unfold Obligations.LightAndHellos
  refine ⟨?_, ?_⟩
  · intro u removed s calm mine idle
    refine ⟨?_, ?_⟩
    · obtain ⟨t, run, frame, dark, others⟩ := exec_lsuFault_unit u idle calm removed
      have fab : t = { s with fab := t.fab } := by rw [show t = _ from frame]
      have bits : t.fab.lsuOk = clrBit s.fab.lsuOk u ∧
          t.fab.lsuPresent = (if removed then clrBit s.fab.lsuPresent u else s.fab.lsuPresent) := by
        rw [show t = _ from frame]
        exact ⟨rfl, rfl⟩
      exact ⟨t, run, bits.1, bits.2, fun k near here => by rw [dark k near here]; exact ⟨rfl, rfl⟩, others, fab⟩
    · obtain ⟨t, run, frame, made, others⟩ := exec_lsuReady_unit u idle calm.2.1
      have fab : t = { s with fab := t.fab } := by rw [show t = _ from frame]
      have bits : t.fab.lsuOk = setBit s.fab.lsuOk u ∧ t.fab.lsuPresent = setBit s.fab.lsuPresent u := by
        rw [show t = _ from frame]
        exact ⟨rfl, rfl⟩
      refine ⟨t, run, bits.1, bits.2, ?_, ?_, ?_, fab⟩
      · intro k near here off wide enabled
        rw [made k near here, if_pos off]
        simp [wide, enabled, Lane.leave, Lane.lightOf]
      · intro k near here off narrow
        rw [made k near here, if_pos off]
        rcases narrow with one | disabled
        · simp [Nat.not_lt.mpr one, Lane.leave]
        · simp [disabled, Lane.leave]
      · rintro k (far | on)
        · exact others k far
        · by_cases here : mine k
          · rw [made k (by have := u.isLt; have : k / 16 = u.val := here; omega) here, if_neg on]
          · exact others k here
  · intro k p s calm hello cut cutFrom t0 mask flags due agree own passes
    have passed (ok : agree) : ∀ b, 1 ≤ b → b ≤ 5 → s.helloPasses k p b := by
      obtain ⟨system, trunk, lane, sizes, either⟩ := ok
      intro b low high
      interval_cases b
      · exact system
      · exact trunk
      · exact lane
      · exact sizes
      · intro valid flag
        rcases either with unset | unsent
        · exact absurd valid (by rw [unset]; exact Bool.false_ne_true)
        · exact absurd flag (by rw [show (p.getD 0x10 0).getLsbD 0 = false from unsent]; exact Bool.false_ne_true)
    refine ⟨?_, ?_, ?_, ?_, ?_⟩
    · intro c low high fails before
      have checks (b : Nat) (hb : 1 ≤ b) (hb' : b ≤ 5) : passes b ↔ s.helloPasses k p b := by
        interval_cases b <;> exact Iff.rfl
      refine ⟨_, State.exec_helloReceived_failed calm hello cut cutFrom low high (mt (checks c low high).mpr fails)
        (fun b hb lt => (checks b hb (by omega)).mp (before b hb lt)), ?_, ?_, ?_, rfl, rfl, rfl, rfl, rfl, rfl⟩
      · rw [show ∀ v : State, ∀ r, (v.log r).lane k = v.lane k from fun _ _ => rfl, State.lane_modLane_same]
        rfl
      · rw [show ∀ v : State, ∀ r, (v.log r).lane k = v.lane k from fun _ _ => rfl, State.lane_modLane_same]
        exact Nat.mod_eq_of_lt (by omega)
      · exact State.lane_modLane_other _ k _
    · intro mode unset sent ok
      exact State.exec_helloReceived_derives calm hello cut cutFrom (passed ok) mode unset sent
    · intro ok few mode
      refine ⟨_, State.exec_helloReceived_few calm hello cut cutFrom (passed ok) few mode, ?_, ?_, ?_, rfl, rfl⟩
      · rw [State.lane_modLane_same]; rfl
      · rw [State.lane_modLane_same]; rfl
      · exact State.lane_modLane_other _ k _
    · intro ok enough mode
      refine ⟨_, State.exec_helloReceived_enough calm hello (passed ok) enough mode, ?_, ?_, ?_, ?_, ?_, ?_, ?_,
        State.lane_modLane_other _ k _, rfl, rfl⟩ <;> rw [State.lane_modLane_same]
      · exact hello
      · exact if_pos hello
    · exact State.exec_helloTimer_lanes calm.2.1 due (fun j => by simp [due, State.restrictedHere, or_assoc])

end Sys2Proof.Machine
end

section
/-! PROOFS. O33 PacketsToCores and O34 Answers fail: an ACK that leaves can take a held packet of the scheduled class with it, which
falls back and is recorded in the time block, and one that finds its trunk down enters that link in the fault map. -/

namespace Sys2Proof.Machine

set_option Elab.async false -- in turn: many waiting threads need much memory

/-! ## O33 -/

/-- A SIGNAL of module 1 under XID 9, and a packet of the scheduled class that lane 0 holds for reordering. -/
def repeatedSignal : Packet := PacketFields.build { ty := 4, dst := 0, src := 1, jobTag := 5, xid := 9 }
def heldTransit : HeldPacket := { sp := { pkt := PacketFields.build { ty := 4, dst := 1, src := 3, jobTag := 5, xid := 8 } }, from_ := .transit 1 }

/-- The state after reset with lane 0 UP, with credits and this held packet, and the SIGNAL in the duplicate table. -/
def heldTransitState : State :=
  { State.reset with fab := { State.reset.fab with
      sizes := #v[4, 2, 1, 1], coordValid := true, dups := [⟨1, 9, 0, false⟩]
      lanes := vmod State.reset.fab.lanes 0 (fun l =>
        { l with state := .up, credits := Vector.replicate 4 100, reorder := [heldTransit] }) } }

/-- A state after reset but for its fabric is calm, and no copy runs. -/
theorem resetFab_calm (f : FabBlk) : ({ State.reset with fab := f } : State).Calm := by
  have calm : State.reset.Calm := by
    unfold State.Calm State.Quiet State.Steady
    decide +kernel
  exact calm

theorem resetFab_noCopies (f : FabBlk) (none : f.rsigQ = []) : ({ State.reset with fab := f } : State).NoCopies := by
  refine ⟨?_, none⟩
  intro c u hc mule
  have idle : ∀ c, c < 8 → engUnits.all (fun u => ((State.reset.core c).eng u).running.isEmpty) = true := by decide +kernel
  have listed : u ∈ engUnits := by cases u <;> simp [EngUnit.isMule, engUnits] at mule ⊢
  exact List.isEmpty_iff.mp (List.all_eq_true.mp (idle c hc) u listed)

set_option maxRecDepth 40000 in
theorem repeatedSignal_arrives : heldTransitState.Arrives 0 0x4 repeatedSignal := by
  refine ⟨resetFab_calm _, resetFab_noCopies _ rfl, ?_⟩
  decide +kernel

set_option maxRecDepth 40000 in
/-- The ACK takes the held packet with it, and the module notes that it fell back. -/
theorem slValid_of_heldTransitState : (heldTransitState.typed 0 0x4 repeatedSignal).time.slValid ≠ heldTransitState.time.slValid := by
  decide +kernel

/-- Refutes O33: the ACK of a repeated SIGNAL releases a packet held for reordering, which falls back to best effort: the time
block changes. -/
theorem not_packetsToCores : ¬ Obligations.PacketsToCores := by
  unfold Obligations.PacketsToCores
  intro h
  obtain ⟨repeated, -⟩ := h 0 repeatedSignal heldTransitState
  obtain ⟨t, run, -, -, still, -⟩ := repeated ⟨1, 9, 0, false⟩ (.inl repeatedSignal_arrives) (by decide +kernel)
  obtain rfl : heldTransitState.typed 0 0x4 repeatedSignal = t := by
    rw [if_pos (by decide +kernel)] at run
    exact Host.Outcome.next.inj run
  exact slValid_of_heldTransitState (congrArg TimeBlk.slValid still.1.1)

/-! ## O34 -/

/-- A NOTICE of module 8, one step away in dimension Y, that takes a link away. -/
def yNotice : Packet := PacketFields.build { ty := 8, dst := 0, src := 8, jobTag := 5, xid := 9, payload := List.replicate 64 0 }

/-- The state after reset with lane 0, of dimension X, the only lane UP. -/
def xOnlyState : State :=
  { State.reset with fab := { State.reset.fab with
      sizes := #v[4, 2, 1, 1], coordValid := true, lanes := vmod State.reset.fab.lanes 0 (fun l => { l with state := .up }) } }

set_option maxRecDepth 40000 in
theorem yNotice_arrives : xOnlyState.Arrives 0 0x8 yNotice := by
  refine ⟨resetFab_calm _, resetFab_noCopies _ rfl, ?_⟩
  decide +kernel

set_option maxRecDepth 40000 in
/-- Its ACK enters the module's own dead link in the fault map. -/
theorem fmap_of_xOnlyState : (xOnlyState.typed 0 0x8 yNotice).fab.fmap ≠ [] := by decide +kernel

/-- Refutes O34: the ACK of a NOTICE finds its trunk down and enters that link, so the fault map is not only less one link. -/
theorem not_answers : ¬ Obligations.Answers := by
  unfold Obligations.Answers
  intro h
  obtain ⟨-, -, -, -, -, -, notice, -⟩ := h 0 yNotice 0 0 xOnlyState
  obtain ⟨t, run, -, removed, -⟩ := notice yNotice_arrives
  obtain rfl : xOnlyState.typed 0 0x8 yNotice = t := Host.Outcome.next.inj run
  exact fmap_of_xOnlyState (removed (by decide +kernel))

end Sys2Proof.Machine
end

section
/-! PROOFS. O35 PacketHops. -/

namespace Sys2Proof.Machine

set_option Elab.async false -- in turn: many waiting threads need much memory

/-! ## What a lane does with a received packet (R302, R304, R306, R314) -/

section
variable {s : State} {k : Nat} {p : Packet} {a : Nat} {m : BitVec 64 × BitVec 16}

/-- A lane without frame lock, and a stopped module, take no packet. -/
theorem State.packetIn_deaf (deaf : (s.lane k).state.locked = false ∨ s.stopped = true) : s.packetIn k p a m = s := if_pos deaf

section
variable (locked : (s.lane k).state.locked = true) (runs : s.stopped = false)
include locked runs

theorem State.packetIn_locked : s.packetIn k p a m =
    let back (s' : State) : State := if (s.lane k).state = .up then s'.returnCredits (p.inLane k) p else s'
    if s.headerBad p then (back s).hdrErr
    else if p.ty = 0xB then (if p.pcrcOk then s.helloIn k p.payload else s.countPcrc p)
    else if p.ty = 0x0 ∨ p.ty = 0xF ∨ (s.lane k).state ≠ .up then s
    else if !s.fab.coordValid ∨ p.dropped then back s
    else if p.expiredAt s.now then (back s).modFab (fun f => { f with expired := satInc f.expired })
    else if p.ty = 0xA then (if p.pcrcOk then (back s).timeIn k p.payload m else (back s).countPcrc p)
    else if p.dst = s.dev then (back s).deliverPacket p
    else s.hop k p a := by
  exact if_neg (by rw [locked, runs]; simp)

/-- A lane that is not UP counts a bad header. -/
theorem State.packetIn_notUp_bad (notUp : (s.lane k).state ≠ .up) (bad : s.headerBad p = true) : s.packetIn k p a m = s.hdrErr := by
  rw [State.packetIn_locked locked runs]
  exact (if_pos bad).trans (congrArg State.hdrErr (if_neg notUp))

/-- A lane that is not UP takes no packet but hellos. -/
theorem State.packetIn_notUp (notUp : (s.lane k).state ≠ .up) (good : s.headerBad p = false) (noHello : p.ty ≠ 0xB) :
    s.packetIn k p a m = s := by
  rw [State.packetIn_locked locked runs]
  dsimp only
  rw [if_neg (by rw [good]; exact Bool.false_ne_true), if_neg noHello, if_pos (.inr (.inr notUp))]

end

section
variable (up : (s.lane k).state = .up) (runs : s.stopped = false)
include up runs

/-- An UP lane discards a packet whose header fails its checks. -/
theorem State.packetIn_up_bad (bestEffort : p.cls = false) (bad : s.headerBad p = true) :
    s.packetIn k p a m = (s.returnCredits (some (k, p.vc)) p).hdrErr := by
  rw [State.packetIn_locked (by rw [up]; rfl) runs]
  dsimp only
  rw [if_pos bad, if_pos up, Packet.inLane, if_neg (by rw [bestEffort]; exact Bool.false_ne_true)]

variable (coords : s.fab.coordValid = true) (good : s.headerBad p = false) (noHello : p.ty ≠ 0xB) (noIdle : p.ty ≠ 0) (noAbort : p.ty ≠ 0xF)
  (bestEffort : p.cls = false)
include coords good noHello noIdle noAbort bestEffort

/-- An UP lane takes a best-effort packet with a good header: dropped, too old, for this module or to be forwarded. -/
theorem State.packetIn_up : s.packetIn k p a m =
    if p.dropped then s.returnCredits (some (k, p.vc)) p
    else if p.expiredAt s.now then (s.returnCredits (some (k, p.vc)) p).modFab (fun f => { f with expired := satInc f.expired })
    else if p.ty = 0xA then (if p.pcrcOk then (s.returnCredits (some (k, p.vc)) p).timeIn k p.payload m
      else (s.returnCredits (some (k, p.vc)) p).countPcrc p)
    else if p.dst = s.dev then (s.returnCredits (some (k, p.vc)) p).deliverPacket p
    else s.hop k p a := by
  have carried : ¬ (p.ty = 0x0 ∨ p.ty = 0xF ∨ (s.lane k).state ≠ .up) := by
    rintro (idle | abort | notUp)
    · exact noIdle idle
    · exact noAbort abort
    · exact notUp up
  rw [State.packetIn_locked (by rw [up]; rfl) runs]
  dsimp only
  rw [if_neg (by rw [good]; exact Bool.false_ne_true), if_neg noHello, if_neg carried, if_pos up, coords,
    show p.inLane k = some (k, p.vc) from if_neg (by rw [bestEffort]; exact Bool.false_ne_true)]
  simp

/-- A packet for another module goes on. -/
theorem State.packetIn_up_hops (kept : p.dropped = false) (young : p.expiredAt s.now = false) (noTime : p.ty ≠ 0xA) (far : p.dst ≠ s.dev) :
    s.packetIn k p a m = s.hop k p a := by
  rw [State.packetIn_up up runs coords good noHello noIdle noAbort bestEffort, if_neg (by rw [kept]; exact Bool.false_ne_true),
    if_neg (by rw [young]; exact Bool.false_ne_true), if_neg noTime, if_neg far]

end

/-- A best-effort packet with a good payload goes on with HOPS counted up. -/
theorem State.hop_bestEffort {t : Nat} (next : nextTrunk s.dev.toNat p = some t) (ok : p.pcrcOk = true) (bestEffort : p.cls = false) :
    s.hop k p a = s.forward p.hopped t (some (k, p.vc)) none := by
  unfold State.hop
  rw [next]
  dsimp only
  rw [if_neg (by rw [bestEffort]; exact Bool.false_ne_true), State.countPcrc, if_pos ok]

end

/-- Settles O35: each case is one branch of what a lane does with a packet. -/
theorem packetHops : Obligations.PacketHops := by
  unfold Obligations.PacketHops
  intro k p s s1 live
  refine ⟨?_, ?_, ?_, ?_, ?_, ?_, ?_⟩
  · exact fun deaf => congrArg _ (State.packetIn_deaf deaf)
  · intro notUp good noHello
    by_cases locked : (s.lane k).state.locked = true
    · by_cases runs : s.stopped = false
      · exact congrArg _ (State.packetIn_notUp locked runs notUp good noHello)
      · exact congrArg _ (State.packetIn_deaf (.inr (Bool.not_eq_false _ ▸ runs)))
    · exact congrArg _ (State.packetIn_deaf (.inl (Bool.not_eq_true _ ▸ locked)))
  · exact fun notUp locked runs bad => congrArg _ (State.packetIn_notUp_bad locked runs notUp bad)
  · rintro ⟨up, runs, -, -, bestEffort⟩ bad
    exact congrArg _ (State.packetIn_up_bad up runs bestEffort bad)
  · rintro ⟨up, runs, coords, noHello, bestEffort⟩ good noIdle noAbort dropped
    exact congrArg _ ((State.packetIn_up up runs coords good noHello noIdle noAbort bestEffort).trans (if_pos dropped))
  · rintro ⟨up, runs, coords, noHello, bestEffort⟩ good noIdle noAbort kept old
    refine congrArg _ ((State.packetIn_up up runs coords good noHello noIdle noAbort bestEffort).trans ?_)
    rw [if_neg (by rw [kept]; exact Bool.false_ne_true), if_pos old]
    rfl
  · rintro t ⟨up, runs, coords, noHello, bestEffort⟩ good kept noIdle noTime noAbort young far ok next q v
    have hops : exec (.packetHop k p) s = .next (s.forward p.hopped t (some (k.val, p.vc)) none) :=
      congrArg _ ((State.packetIn_up_hops up runs coords good noHello noIdle noAbort bestEffort kept young noTime far).trans
        (State.hop_bestEffort next ok bestEffort))
    refine ⟨fun carries => ?_, fun notUp notListens => ?_⟩
    · exact hops.trans (congrArg _ (if_pos carries))
    · refine hops.trans (congrArg _ (if_neg ?_))
      rw [notUp, notListens]
      exact fun either => either.elim Bool.false_ne_true Bool.false_ne_true

end Sys2Proof.Machine
end

section
/-! PROOFS. O36 LaneFrames. -/

namespace Sys2Proof.Machine

set_option Elab.async false -- in turn: many waiting threads need much memory

/-! ## Wavelengths that fail (R294) -/

/-- A count of failed frames below 16 takes no wavelength away. -/
theorem State.dropWaves_few {s : State} {k : Nat} (few : (s.lane k).badFrames.length < 16) : s.dropWaves k = s := by
  have none_ : (s.lane k).badWaves = [] := by
    unfold Lane.badWaves
    rw [List.filter_eq_nil_iff]
    intro w _
    have part := List.length_filter_le (fun b : Nat × BitVec 64 => b.1 == w) (s.lane k).badFrames
    simp only [decide_eq_true_eq]
    omega
  unfold State.dropWaves
  rw [none_]
  rfl

/-- A lane frame adds at most one failed frame for each of its wavelengths. -/
theorem Lane.countWaves_badFrames (l : Lane) (now : BitVec 64) (ws : List WaveRead) :
    (l.countWaves now ws).badFrames.length ≤ ws.length + l.badFrames.length := by
  have zipped := List.length_filter_le (fun w : Nat × WaveRead => w.2.bad) ((if ws.length = 1 then [0] else wavesOf l.rxMask).zip ws)
  have old := List.length_filter_le (fun b : Nat × BitVec 64 => decide ((now - b.2).toNat < 1000000)) l.badFrames
  have inside : ((if ws.length = 1 then [0] else wavesOf l.rxMask).zip ws).length ≤ ws.length := by
    rw [List.length_zip]
    exact Nat.min_le_right _ _
  simp only [Lane.countWaves, List.length_append, List.length_map]
  omega

/-- A frame of λ0 alone, on a lane without failed frames. -/
theorem Lane.countWaves_alone (l : Lane) (now : BitVec 64) (w : WaveRead) (clean : l.badFrames = []) : (l.countWaves now [w]).badFrames =
    if [w].any (·.bad) then [(0, now)] else [] := by
  cases bad : w.bad <;> simp [Lane.countWaves, clean, bad]

/-! ## Blocks of a lane frame (R293) -/

/-- IDLE blocks change nothing. -/
theorem State.blockIn_idle (s : State) (k a : Nat) (m : BitVec 64 × BitVec 16) : State.blockIn k a m s idleBlock = s := if_pos (.inr (.inl rfl))

theorem foldl_still {α β : Type} {f : α → β → α} {u : α} (l : List β) (still : ∀ b ∈ l, f u b = u) : l.foldl f u = u := by
  induction l with
  | nil => rfl
  | cons b l ih =>
    rw [List.foldl_cons, still b (.head _)]
    exact ih (fun x hx => still x (.tail _ hx))

/-- A lane frame of IDLE blocks alone leaves what is behind them. -/
theorem State.takeBlocks_idle {s : State} {k old : Nat}
    (idle : ∀ b ∈ blocksOf ((s.lane k).rxRaw.length / 32) (s.lane k).rxRaw, b = idleBlock) : ∃ mark, s.takeBlocks k old =
      s.modLane k (fun l => { l with rxRaw := (s.lane k).rxRaw.drop (32 * ((s.lane k).rxRaw.length / 32)), rawMark := mark }) := by
  unfold State.takeBlocks
  dsimp only
  refine ⟨_, foldl_still _ (fun b hb => ?_)⟩
  rw [idle b.1 (List.of_mem_zip hb).1, State.blockIn_idle]

/-- Blocks that are all IDLE, filtered out. -/
theorem blocksOf_filter_idle {n : Nat} {raw : List Byte} (idle : ∀ b ∈ blocksOf n raw, b = idleBlock) :
    ((blocksOf n raw).filter (· != idleBlock)).flatten = [] := by
  have none_ : (blocksOf n raw).filter (· != idleBlock) = [] := by
    rw [List.filter_eq_nil_iff]
    intro b hb
    simp [idle b hb]
  rw [none_]
  rfl

/-! ## A good lane frame (R291, R292) -/

/-- What NAK of an acknowledgement makes of a lane. -/
def Lane.naked (l : Lane) (nak : Bool) (ack : BitVec 16) (a : Nat) : Lane :=
  if nak && l.asksAgain ack a then l.replay ack a else if nak then l else { l with replayed := none }

theorem Lane.naked_unasked (l : Lane) (ack : BitVec 16) (a : Nat) : l.naked false ack a = { l with replayed := none } := rfl
theorem Lane.naked_again {l : Lane} {ack : BitVec 16} {a : Nat} (again : l.asksAgain ack a = true) : l.naked true ack a = l.replay ack a :=
  if_pos again
theorem Lane.naked_before {l : Lane} {ack : BitVec 16} {a : Nat} (before : l.asksAgain ack a = false) : l.naked true ack a = l :=
  if_neg (by rw [before]; exact Bool.false_ne_true)

theorem Lane.naked_accept (l : Lane) (nak : Bool) (ack : BitVec 16) (a : Nat) :
    (l.naked nak ack a).rxSync = l.rxSync ∧ (l.naked nak ack a).rxSeq = l.rxSeq ∧ (l.naked nak ack a).rxRaw = l.rxRaw := by
  unfold Lane.naked
  split
  · exact ⟨rfl, rfl, rfl⟩
  · split <;> exact ⟨rfl, rfl, rfl⟩

/-- A frame in order is accepted, one out of order is not. -/
theorem Lane.accept_next {l : Lane} {seq : BitVec 16} (next : seq = l.rxSeq + 1) (data : List Byte) : l.accept seq data =
    { l with rxSeq := seq, rxSync := true, nak := false, rxRaw := l.rxRaw ++ data } := if_pos (.inr next)
theorem Lane.accept_other {l : Lane} {seq : BitVec 16} (sync : l.rxSync = true) (other : seq ≠ l.rxSeq + 1) (data : List Byte) :
    l.accept seq data = l := by
  refine if_neg ?_
  rintro (unsynced | next)
  · exact Bool.false_ne_true (unsynced.symm.trans sync)
  · exact other next

/-- A lane before the blocks of a good frame are taken. -/
def Lane.goodFrame (l : Lane) (seq : BitVec 16) (ws : List WaveRead) (a : Nat) : Lane :=
  ((l.control (controlOf ws)).naked (bitB (controlOf ws) 60) (fld (controlOf ws) 44 16) a).accept seq (ws.flatMap (·.data))

/-- A good frame, when no packet waits for the trunk and no frame has been replayed too often. -/
theorem State.goodFrame_eq {s : State} {k : LaneId} {seq : BitVec 16} {ws : List WaveRead} (waiting : s.fab.waiting = [])
    (fresh : (bitB (controlOf ws) 60 && ((s.lane k).control (controlOf ws)).asksAgain (fld (controlOf ws) 44 16) s.instant) = true →
      ((s.lane k).control (controlOf ws)).worn = false) :
    ∃ old, s.goodFrame k seq ws = (s.modLane k (fun l => l.goodFrame seq ws s.instant)).takeBlocks k old := by
  have lane := s.lane_modLane_same k (fun l => l.control (controlOf ws))
  have unworn : ¬ ((bitB (controlOf ws) 60 && ((s.lane k).control (controlOf ws)).asksAgain (fld (controlOf ws) 44 16) s.instant) &&
      ((s.lane k).control (controlOf ws)).worn &&
      ((s.lane k).control (controlOf ws)).state == .up) = true := by
    intro all
    simp only [Bool.and_eq_true] at all
    obtain ⟨⟨both, worn⟩, -⟩ := all
    rw [fresh (Bool.and_eq_true_iff.mpr both)] at worn
    exact Bool.false_ne_true worn
  have pump (f : Lane → Lane) (t : Nat) : (s.modLane k f).pumpTrunk t = s.modLane k f := State.pumpTrunk_idle t waiting
  have answered : (if bitB (controlOf ws) 60 && ((s.lane k).control (controlOf ws)).asksAgain (fld (controlOf ws) 44 16) s.instant
        then (s.modLane k (fun l => l.control (controlOf ws))).modLane k (fun l => l.replay (fld (controlOf ws) 44 16) s.instant)
      else if bitB (controlOf ws) 60 then s.modLane k (fun l => l.control (controlOf ws))
      else (s.modLane k (fun l => l.control (controlOf ws))).modLane k (fun l => { l with replayed := none })) =
      s.modLane k (fun l => (l.control (controlOf ws)).naked (bitB (controlOf ws) 60) (fld (controlOf ws) 44 16) s.instant) := by
    split
    next again =>
      rw [State.modLane_modLane]
      exact s.modLane_congr k (if_pos again).symm
    next not_ =>
      split
      next nak => exact s.modLane_congr k ((if_neg not_).trans (if_pos nak)).symm
      next unasked =>
        rw [State.modLane_modLane]
        exact s.modLane_congr k ((if_neg not_).trans (if_neg unasked)).symm
  unfold State.goodFrame
  dsimp only
  rw [lane, if_neg unworn, answered, State.modLane_modLane, pump]
  exact ⟨_, rfl⟩

/-- The lane after a good frame whose blocks are all IDLE. -/
theorem State.goodFrame_idle {s : State} {k : LaneId} {seq : BitVec 16} {ws : List WaveRead} (waiting : s.fab.waiting = [])
    (fresh : (bitB (controlOf ws) 60 && ((s.lane k).control (controlOf ws)).asksAgain (fld (controlOf ws) 44 16) s.instant) = true →
      ((s.lane k).control (controlOf ws)).worn = false) {m : Lane}
    (made : (s.lane k).goodFrame seq ws s.instant = m) (idle : ∀ b ∈ blocksOf (m.rxRaw.length / 32) m.rxRaw, b = idleBlock) :
    ∃ mark, s.goodFrame k seq ws = s.modLane k (fun _ => { m with rxRaw := m.rxRaw.drop (32 * (m.rxRaw.length / 32)), rawMark := mark }) := by
  obtain ⟨old, eq⟩ := State.goodFrame_eq (seq := seq) waiting fresh
  have same : s.modLane k (fun l => l.goodFrame seq ws s.instant) = s.modLane k (fun _ => m) := s.modLane_congr k made
  have lane : (s.modLane k (fun _ => m)).lane k = m := s.lane_modLane_same k _
  obtain ⟨mark, taken⟩ := State.takeBlocks_idle (s := s.modLane k (fun _ => m)) (k := k) (old := old) (by rw [lane]; exact idle)
  refine ⟨mark, ?_⟩
  rw [eq, same, taken, lane, State.modLane_modLane]

/-! ## The row LANE_FRAME_RECEIVED -/

section
variable {s : State} {k : LaneId} {seq : BitVec 16} {first : BitVec 2048} {next : Vector (BitVec 2048) 3} {others : List (BitVec 2048)}

/-- A lane that exchanges neither packets nor hellos takes no frame. -/
theorem State.frameIn_deaf {frames : List (BitVec 2048)} (deaf : (s.lane k).state.locked = false) (notListen : (s.lane k).state ≠ .listen) :
    s.frameIn k seq frames = s := by
  refine if_pos ?_
  rw [deaf]
  simpa using notListen

theorem readWaves_length (frames : List (BitVec 2048)) : (readWaves frames).length = frames.length := List.length_map ..

theorem waveFrames_wide : 4 ≤ (waveFrames false first next others).length := by
  simp [waveFrames]

/-- What a lane that is UP or listens does with a frame, once its wavelengths are counted. -/
theorem State.frameIn_up {frames : List (BitVec 2048)} (up : (s.lane k).state = .up) :
    s.frameIn k seq frames =
      let ws := readWaves frames
      let bad := ws.any (·.bad)
      let s1 := s.modLane k (fun l => l.countWaves s.now ws)
      if decide (ws.length = 1) then
        let s2 := s1.modLane k (fun l => l.listened seq bad)
        if bad then s2.dropWaves k else s2
      else if bad then (s1.modLane k (fun l => l.refuse seq)).dropWaves k
      else s1.goodFrame k seq ws := by
  have takes : ¬ (!(s.lane k).state.locked && (s.lane k).state != .listen) = true := by
    rw [up]
    decide
  have counted := s.lane_modLane_same k (fun l => l.countWaves s.now (readWaves frames))
  have stillUp : ¬ ((s.modLane k (fun l => l.countWaves s.now (readWaves frames))).lane k).state = .listen := by
    rw [counted]
    exact fun listen => nomatch up.symm.trans listen
  unfold State.frameIn
  dsimp only
  rw [if_neg takes, up]
  rw [show (LaneState.up == LaneState.listen) = false from rfl, Bool.false_and, if_neg Bool.false_ne_true, if_neg stillUp]

/-- A frame on every wavelength does not wake a lane whose far end did not ask for it. -/
theorem wakes_wide {ws : List WaveRead} (wide : 4 ≤ ws.length) (still : bitB (controlOf ws) 61 = false) : wakes ws = false := by
  unfold wakes
  rw [if_neg (Nat.not_lt.mpr wide), show (controlOf ws).getLsbD 61 = false from still, Bool.and_false]

/-- What a listening lane does with a good frame of full width. -/
theorem State.frameIn_listen {frames : List (BitVec 2048)} (listen : (s.lane k).state = .listen) (wide : 4 ≤ frames.length)
    (good : (readWaves frames).any (·.bad) = false) (still : bitB (controlOf (readWaves frames)) 61 = false) :
    ∃ mark, s.frameIn k seq frames = s.modLane k (fun l =>
      { (l.countWaves s.now (readWaves frames)).listenData seq ((readWaves frames).flatMap (·.data)) with rawMark := mark }) := by
  have takes : ¬ (!(s.lane k).state.locked && (s.lane k).state != .listen) = true := by
    rw [listen]
    decide
  have wide' : 4 ≤ (readWaves frames).length := by rw [readWaves_length]; exact wide
  have stays : ¬ ((LaneState.listen == LaneState.listen) && wakes (readWaves frames)) = true := by
    rw [wakes_wide wide' still, Bool.and_false]
    exact Bool.false_ne_true
  have counted := s.lane_modLane_same k (fun l => l.countWaves s.now (readWaves frames))
  have listens : ((s.modLane k (fun l => l.countWaves s.now (readWaves frames))).lane k).state = .listen := by
    rw [counted]
    exact listen
  have many : ¬ decide ((readWaves frames).length = 1) = true := by
    rw [decide_eq_true_eq]
    omega
  unfold State.frameIn
  dsimp only
  rw [if_neg takes, listen, if_neg stays, if_neg many, good, if_neg Bool.false_ne_true, if_pos listens, State.modLane_modLane]
  exact ⟨_, rfl⟩

end

/-! ## ABORT_BLOCK_RECEIVED and REORDER_HOLD_EXPIRY -/

/-- An ABORT between packets. -/
theorem State.abortIn_between {s : State} {k : Nat} (between : (s.lane k).rxBytes = []) :
    s.abortIn k = s.modLane k (fun l => { l with cut := none }) := by
  unfold State.abortIn
  dsimp only
  rw [between]
  exact s.modLane_congr k (by rw [← between])

/-- An ABORT inside a packet that goes on from no lane. -/
theorem State.abortIn_partial {s : State} {k : Nat} (inside : (s.lane k).rxBytes ≠ []) (uncut : (s.lane k).cut = none) :
    s.abortIn k = (s.modLane k (fun l => { l with rxBytes := [] })).returnCredits
      ((Packet.ofBytes (s.lane k).rxBytes).inLane k) (Packet.ofBytes (s.lane k).rxBytes) := by
  unfold State.abortIn
  dsimp only
  rw [if_neg (by simpa using inside), uncut]
  exact congrArg (State.returnCredits · _ _) (s.modLane_congr k (by rw [← uncut]))

/-- Credits that come back to a lane change that lane alone, and neither what it receives nor what goes on from it. -/
theorem State.returnCredits_lane (s : State) (k : Nat) (p : Packet) : ∃ total,
    s.returnCredits (p.inLane k) p = s.modLane k (fun l => { l with crTotal := total }) := by
  unfold Packet.inLane
  split
  · exact ⟨(s.lane k).crTotal, (s.modLane_id k).symm.trans (s.modLane_congr k rfl)⟩
  · exact ⟨vmod (s.lane k).crTotal _ _, s.modLane_congr k rfl⟩

/-- A packet that ends early on the lane that forwards it. -/
def Lane.aborted (l : Lane) (credits : Vector Nat 4) (bs : List Byte) : Lane :=
  { l with cutFrom := none, aborts := l.aborts + 1, credits := credits }.emit bs

theorem Lane.emit_keeps (l : Lane) (bs : List Byte) : (l.emit bs).sent = l.sent ∧ (l.emit bs).cutFrom = l.cutFrom ∧
    (l.emit bs).aborts = l.aborts := ⟨rfl, rfl, rfl⟩

theorem State.abortOn_up {s : State} {k j : LaneId} {bs : List Byte} (up : (s.lane j).state = .up) (from_ : (s.lane j).cutFrom = some k.val)
    (waiting : s.fab.waiting = []) (uncut : s.modLane k (fun l => { l with cut := none }) = s) : ∃ credits bytes,
    s.abortOn k j bs = s.modLane j (fun l => l.aborted credits bytes) := by
  have goes : ¬ ((s.lane j).state != .up || (s.lane j).cutFrom != some k.val) = true := by
    rw [up, from_]
    simp
  unfold State.abortOn
  dsimp only
  rw [uncut, if_neg goes, State.pumpTrunk_idle]
  · exact ⟨_, _, s.modLane_congr j rfl⟩
  · exact waiting

/-- An ABORT inside a packet that goes on from another lane. -/
theorem State.abortIn_onto {s : State} {k j : LaneId} (inside : (s.lane k).rxBytes ≠ []) (cut : (s.lane k).cut = some (.onto j)) (far : j ≠ k)
    (up : (s.lane j).state = .up) (from_ : (s.lane j).cutFrom = some k.val) (waiting : s.fab.waiting = []) : ∃ total credits bs,
    s.abortIn k = (s.modLane k (fun l => { l with rxBytes := [], cut := none, crTotal := total })).modLane j (fun l => l.aborted credits bs) := by
  obtain ⟨total, eq⟩ := State.returnCredits_lane (s.modLane k (fun l => { l with rxBytes := [], cut := none })) k
    (Packet.ofBytes (s.lane k).rxBytes)
  have received : (((s.modLane k (fun l => { l with rxBytes := [], cut := none })).returnCredits
      ((Packet.ofBytes (s.lane k).rxBytes).inLane k) (Packet.ofBytes (s.lane k).rxBytes)).modLane k (fun l => { l with cut := none })) =
      s.modLane k (fun l => { l with rxBytes := [], cut := none, crTotal := total }) := by
    rw [eq, State.modLane_modLane, State.modLane_modLane]
  have lane := s.lane_modLane_other k (fun l => { l with rxBytes := [], cut := none, crTotal := total }) j (fun e => far (Fin.ext e))
  obtain ⟨credits, bytes, aborted⟩ := State.abortOn_up (s := s.modLane k (fun l => { l with rxBytes := [], cut := none, crTotal := total }))
    (k := k) (bs := (s.lane k).rxBytes) (by rw [lane]; exact up) (by rw [lane]; exact from_) waiting (by rw [State.modLane_modLane])
  have cutAgain : ((s.modLane k (fun l => { l with rxBytes := [], cut := none })).returnCredits
      ((Packet.ofBytes (s.lane k).rxBytes).inLane k) (Packet.ofBytes (s.lane k).rxBytes)).abortOn k j (s.lane k).rxBytes =
      (s.modLane k (fun l => { l with rxBytes := [], cut := none, crTotal := total })).abortOn k j (s.lane k).rxBytes := by
    unfold State.abortOn
    dsimp only
    rw [received, State.modLane_modLane]
  refine ⟨total, credits, bytes, ?_⟩
  unfold State.abortIn
  dsimp only
  rw [if_neg (by simpa using inside), cut]
  exact cutAgain.trans (aborted)

/-- What is held for reordering, when nothing else is: the lane stands without it while it is offered. -/
theorem State.releaseHeld_one {s : State} {k : Nat} {h : HeldPacket} (one : (s.lane k).reorder = [h]) :
    s.releaseHeld k (fun _ => true) = (s.modLane k (fun l => { l with reorder := [] })).sendReordered k h := by
  unfold State.releaseHeld
  rw [one]
  exact congrArg (State.sendReordered · k h) (s.modLane_congr k (by simp [one]))

theorem State.releaseHeld_none {s : State} {k : Nat} (none_ : (s.lane k).reorder = []) : s.releaseHeld k (fun _ => true) = s := by
  unfold State.releaseHeld
  rw [none_]
  refine (s.modLane_congr k ?_).trans (s.modLane_id k)
  rw [none_]
  exact congrArg (fun r => ({ s.lane k with reorder := r } : Lane)) none_.symm

theorem Lane.transmit_keeps (l : Lane) (sp : SentPacket) : (l.transmit sp).sent = l.sent ++ [sp] ∧ (l.transmit sp).reorder = l.reorder ∧
    (l.transmit sp).credits = l.credits := by
  unfold Lane.transmit
  split <;> exact ⟨rfl, rfl, rfl⟩

/-- Whether a lane may take a packet does not depend on what it holds. -/
theorem State.laneOpen_held (s : State) (k : LaneId) (p : Packet) :
    (s.modLane k (fun l => { l with reorder := [] })).laneOpen k p = s.laneOpen k p := by
  have lane := s.lane_modLane_same k (fun l => { l with reorder := [] })
  unfold State.laneOpen State.laneOpenAt
  rw [lane]
  rfl

/-- A held packet whose lane does not take it stays, and is due. -/
theorem State.sendReordered_stays {s : State} {k : LaneId} {h : HeldPacket} (bestEffort : h.from_ = .bestEffort)
    (closed : (s.lane k).cutFrom ≠ none ∨ s.laneOpen k h.sp.pkt = false) :
    (s.modLane k (fun l => { l with reorder := [] })).sendReordered k h =
      s.modLane k (fun l => { l with reorder := [{ h with due := true }] }) := by
  have lane := s.lane_modLane_same k (fun l => { l with reorder := [] })
  have shut : ((s.lane k).cutFrom.isNone && s.laneOpen k h.sp.pkt) = false := by
    rcases closed with taken | shut
    · rw [Option.isNone_eq_false_iff.mpr (Option.isSome_iff_ne_none.mpr taken), Bool.false_and]
    · rw [shut, Bool.and_false]
  unfold State.sendReordered
  dsimp only
  rw [bestEffort, lane, State.laneOpen_held]
  dsimp only
  rw [shut, Bool.false_and, if_neg Bool.false_ne_true, State.modLane_modLane]
  rfl

/-- A held packet leaves once its lane takes it. -/
theorem State.sendReordered_leaves {s : State} {k : LaneId} {h : HeldPacket} (bestEffort : h.from_ = .bestEffort)
    (noTime : h.sp.pkt.ty ≠ 0xA) (uncut : (s.lane k).cutFrom = none) (opened : s.laneOpen k h.sp.pkt = true) : ∃ busy,
    (s.modLane k (fun l => { l with reorder := [] })).sendReordered k h =
      s.modLane k (fun l => { l with reorder := [], busyUntil := busy }.transmit h.sp) := by
  have lane := s.lane_modLane_same k (fun l => { l with reorder := [] })
  have stamped (v : State) : v.stamp k h.sp = (v, h.sp) := if_neg noTime
  have free : ((s.lane k).cutFrom.isNone && s.laneOpen k h.sp.pkt && (h.sp.pkt.ty != 0xA || ({ s.lane k with reorder := [] } : Lane).freeAt
      (s.modLane k (fun l => { l with reorder := [] })).instant)) = true := by
    rw [uncut, opened]
    simp [noTime]
  unfold State.sendReordered
  dsimp only
  rw [bestEffort, lane, State.laneOpen_held]
  dsimp only
  rw [free, if_pos rfl, stamped]
  unfold State.putOn State.occupy State.occupyAt
  dsimp only
  rw [State.modLane_modLane, State.modLane_modLane]
  exact ⟨_, s.modLane_congr k rfl⟩

/-! ## The obligation -/

section
variable {s : State} {k : LaneId} {seq : BitVec 16} {first : BitVec 2048} {next : Vector (BitVec 2048) 3} {others : List (BitVec 2048)}
  (calm : s.Calm)
include calm

theorem exec_laneFrame {alone : Bool} {f : Lane → Lane} (gives : s.frameIn k seq (waveFrames alone first next others) = s.modLane k f) :
    exec (.laneFrameReceived k seq alone first next others) s = .next (s.modLane k f) := by
  refine (if_neg (by rw [calm.2.1]; exact Bool.false_ne_true)).trans (congrArg _ ?_)
  rw [gives]
  exact calm.settle_modLane k f

omit calm in
theorem Lane.listened_alone (l : Lane) (now : BitVec 64) (w : WaveRead) (clean : l.badFrames = []) :
    (l.countWaves now [w]).listened seq ([w].any (·.bad)) =
      { l with corr := satAdd l.corr ([w].filter (·.fixed)).length, uncorr := satAdd l.uncorr ([w].filter (·.bad)).length,
               rxSync := !([w].any (·.bad)), rxSeq := if [w].any (·.bad) then l.rxSeq else seq,
               badFrames := if [w].any (·.bad) then [(0, now)] else [] } := by
  cases bad : w.bad <;> simp [Lane.listened, Lane.countWaves, clean, bad]

/-- A frame of λ0 alone, on an UP lane. -/
theorem exec_laneFrame_alone (up : (s.lane k).state = .up) (clean : (s.lane k).badFrames = []) :
    let ws := readWaves [first]
    let bad := ws.any (·.bad)
    exec (.laneFrameReceived k seq true first next others) s = .next (s.modLane k (fun l =>
      { l with corr := satAdd l.corr (ws.filter (·.fixed)).length, uncorr := satAdd l.uncorr (ws.filter (·.bad)).length,
               rxSync := !bad, rxSeq := if bad then l.rxSeq else seq, badFrames := if bad then [(0, s.time.ft)] else [] })) := by
  intro ws bad
  have heard := (s.lane k).listened_alone (seq := seq) s.now (decodeWave first) clean
  have kept : (s.modLane k (fun l => (l.countWaves s.now ws).listened seq bad)).dropWaves k =
      s.modLane k (fun l => (l.countWaves s.now ws).listened seq bad) := by
    refine State.dropWaves_few ?_
    rw [s.lane_modLane_same k, show ws = [decodeWave first] from rfl, show bad = [decodeWave first].any (·.bad) from rfl, heard]
    dsimp only
    split <;> simp
  refine exec_laneFrame calm ?_
  rw [show waveFrames true first next others = [first] from rfl, State.frameIn_up up]
  dsimp only
  rw [if_pos (by simp [readWaves]), State.modLane_modLane, kept, ite_self]
  exact s.modLane_congr k heard

/-- A frame on every wavelength with one that is uncorrectable, on an UP lane. -/
theorem exec_laneFrame_bad (up : (s.lane k).state = .up)
    (bad : (readWaves (waveFrames false first next others)).any (·.bad) = true)
    (few : (s.lane k).badFrames.length + (waveFrames false first next others).length < 16) :
    exec (.laneFrameReceived k seq false first next others) s = .next (s.modLane k (fun l =>
      (l.countWaves s.now (readWaves (waveFrames false first next others))).refuse seq)) := by
  have kept (ws : List WaveRead) (small : ws.length + (s.lane k).badFrames.length < 16) :
      (s.modLane k (fun l => (l.countWaves s.now ws).refuse seq)).dropWaves k = s.modLane k (fun l => (l.countWaves s.now ws).refuse seq) := by
    refine State.dropWaves_few ?_
    rw [s.lane_modLane_same k]
    exact lt_of_le_of_lt ((s.lane k).countWaves_badFrames s.now ws) small
  have wide := waveFrames_wide (first := first) (next := next) (others := others)
  refine exec_laneFrame calm ?_
  rw [State.frameIn_up up]
  dsimp only
  rw [if_neg (by rw [readWaves_length, decide_eq_true_eq]; omega), if_pos bad, State.modLane_modLane, kept]
  rw [readWaves_length]
  omega

/-- A good frame on every wavelength whose blocks are all IDLE, on an UP lane for which no packet waits. -/
theorem exec_laneFrame_good (up : (s.lane k).state = .up) {ws : List WaveRead} (read : readWaves (waveFrames false first next others) = ws)
    (good : ws.any (·.bad) = false) (waiting : s.fab.waiting = [])
    (fresh : (bitB (controlOf ws) 60 &&
        (((s.lane k).countWaves s.now ws).control (controlOf ws)).asksAgain (fld (controlOf ws) 44 16) s.instant) = true →
      (((s.lane k).countWaves s.now ws).control (controlOf ws)).worn = false) {m : Lane}
    (made : ((s.lane k).countWaves s.now ws).goodFrame seq ws s.instant = m) (idle : ∀ b ∈ blocksOf (m.rxRaw.length / 32) m.rxRaw, b = idleBlock) :
    ∃ mark, exec (.laneFrameReceived k seq false first next others) s = .next (s.modLane k (fun _ =>
      { m with rxRaw := m.rxRaw.drop (32 * (m.rxRaw.length / 32)), rawMark := mark })) := by
  have wide := waveFrames_wide (first := first) (next := next) (others := others)
  have lane := s.lane_modLane_same k (fun l => l.countWaves s.now ws)
  obtain ⟨mark, eq⟩ := State.goodFrame_idle (s := s.modLane k (fun l => l.countWaves s.now ws)) (k := k) (seq := seq) (ws := ws) waiting
    (by rw [lane]; exact fresh) (by rw [lane]; exact made) idle
  refine ⟨mark, exec_laneFrame calm ?_⟩
  rw [State.frameIn_up up, read]
  dsimp only
  rw [if_neg (by rw [← read, readWaves_length, decide_eq_true_eq]; omega), good, if_neg Bool.false_ne_true, eq, State.modLane_modLane]

end

/-- Blocks of less than 32 bytes: there are none. -/
theorem no_blocksOf {raw : List Byte} (short : raw.length < 32) : ∀ b ∈ blocksOf (raw.length / 32) raw, b = idleBlock := by
  rw [Nat.div_eq_of_lt short]
  exact fun b hb => absurd hb List.not_mem_nil

theorem drop_noBlocks {raw : List Byte} (short : raw.length < 32) : raw.drop (32 * (raw.length / 32)) = raw := by
  rw [Nat.div_eq_of_lt short]
  rfl

/-! What the wavelengths' counts and a control word leave of a lane. -/

@[simp] theorem Lane.countWaves_state (l : Lane) (now : BitVec 64) (ws : List WaveRead) : (l.countWaves now ws).state = l.state := rfl
@[simp] theorem Lane.countWaves_replays (l : Lane) (now : BitVec 64) (ws : List WaveRead) : (l.countWaves now ws).replays = l.replays := rfl
@[simp] theorem Lane.countWaves_busyUntil (l : Lane) (now : BitVec 64) (ws : List WaveRead) : (l.countWaves now ws).busyUntil = l.busyUntil := rfl
@[simp] theorem Lane.countWaves_rxSeq (l : Lane) (now : BitVec 64) (ws : List WaveRead) : (l.countWaves now ws).rxSeq = l.rxSeq := rfl
@[simp] theorem Lane.countWaves_rxRaw (l : Lane) (now : BitVec 64) (ws : List WaveRead) : (l.countWaves now ws).rxRaw = l.rxRaw := rfl
@[simp] theorem Lane.countWaves_rxBytes (l : Lane) (now : BitVec 64) (ws : List WaveRead) : (l.countWaves now ws).rxBytes = l.rxBytes := rfl
@[simp] theorem Lane.countWaves_rxSync (l : Lane) (now : BitVec 64) (ws : List WaveRead) : (l.countWaves now ws).rxSync = l.rxSync := rfl
@[simp] theorem Lane.countWaves_replayed (l : Lane) (now : BitVec 64) (ws : List WaveRead) : (l.countWaves now ws).replayed = l.replayed := rfl
@[simp] theorem Lane.countWaves_retry (l : Lane) (now : BitVec 64) (ws : List WaveRead) : (l.countWaves now ws).retry = l.retry := rfl
@[simp] theorem Lane.countWaves_credits (l : Lane) (now : BitVec 64) (ws : List WaveRead) : (l.countWaves now ws).credits = l.credits := rfl
@[simp] theorem Lane.countWaves_crSeen (l : Lane) (now : BitVec 64) (ws : List WaveRead) : (l.countWaves now ws).crSeen = l.crSeen := rfl
@[simp] theorem Lane.control_state (l : Lane) (w : BitVec 64) : (l.control w).state = l.state := rfl
@[simp] theorem Lane.control_replays (l : Lane) (w : BitVec 64) : (l.control w).replays = l.replays := rfl
@[simp] theorem Lane.control_busyUntil (l : Lane) (w : BitVec 64) : (l.control w).busyUntil = l.busyUntil := rfl
@[simp] theorem Lane.control_rxSeq (l : Lane) (w : BitVec 64) : (l.control w).rxSeq = l.rxSeq := rfl
@[simp] theorem Lane.control_rxRaw (l : Lane) (w : BitVec 64) : (l.control w).rxRaw = l.rxRaw := rfl
@[simp] theorem Lane.control_rxBytes (l : Lane) (w : BitVec 64) : (l.control w).rxBytes = l.rxBytes := rfl
@[simp] theorem Lane.control_rxSync (l : Lane) (w : BitVec 64) : (l.control w).rxSync = l.rxSync := rfl
@[simp] theorem Lane.control_replayed (l : Lane) (w : BitVec 64) : (l.control w).replayed = l.replayed := rfl
@[simp] theorem Lane.control_corr (l : Lane) (w : BitVec 64) : (l.control w).corr = l.corr := rfl
@[simp] theorem Lane.control_uncorr (l : Lane) (w : BitVec 64) : (l.control w).uncorr = l.uncorr := rfl
@[simp] theorem Lane.control_nak (l : Lane) (w : BitVec 64) : (l.control w).nak = l.nak := rfl
@[simp] theorem Lane.control_retry (l : Lane) (w : BitVec 64) :
    (l.control w).retry = l.retry.filter (fun f => decide (32768 ≤ (fld w 44 16 - f.seq).toNat)) := rfl

theorem Lane.replay_state (l : Lane) (ack : BitVec 16) (a : Nat) : (l.replay ack a).state = l.state := rfl

/-- Credits that a control word gives, pool by pool. -/
theorem Lane.control_credits (l : Lane) (w : BitVec 64) (i : Nat) (hi : i < 4) :
    (l.control w).credits.getD i 0 = l.credits.getD i 0 + (fld w (11 * i) 11 - l.crSeen.getD i 0).toNat := by
  have four : List.range 4 = [0, 1, 2, 3] := rfl
  unfold Lane.control
  dsimp only
  rw [four]
  simp only [List.foldl_cons, List.foldl_nil, getD_vmod]
  interval_cases i <;> simp

/-- Whether a NAK is answered again (R292). -/
theorem Lane.asksAgain_iff (l : Lane) (ack : BitVec 16) (a : Nat) : l.asksAgain ack a = true ↔
    ∀ x b, l.replayed = some (x, b) → x ≠ ack ∨ b + 832 * laneUnit ≤ a := by
  unfold Lane.asksAgain
  cases l.replayed with
  | none => simp
  | some r =>
    obtain ⟨x, b⟩ := r
    simp

theorem Lane.goodFrame_next {l : Lane} {seq : BitVec 16} {ws : List WaveRead} {a : Nat} (unasked : bitB (controlOf ws) 60 = false)
    (inOrder : seq = l.rxSeq + 1) : l.goodFrame seq ws a =
      { l.control (controlOf ws) with
        replayed := none, rxSeq := seq, rxSync := true, nak := false, rxRaw := l.rxRaw ++ ws.flatMap (·.data) } := by
  unfold Lane.goodFrame
  rw [unasked, Lane.naked_unasked]
  exact Lane.accept_next (l := { l.control (controlOf ws) with replayed := none }) inOrder _

theorem Lane.goodFrame_other {l : Lane} {seq : BitVec 16} {ws : List WaveRead} {a : Nat} (sync : l.rxSync = true)
    (other : seq ≠ l.rxSeq + 1) : l.goodFrame seq ws a =
      (l.control (controlOf ws)).naked (bitB (controlOf ws) 60) (fld (controlOf ws) 44 16) a := by
  obtain ⟨sync', seq', -⟩ := (l.control (controlOf ws)).naked_accept (bitB (controlOf ws) 60) (fld (controlOf ws) 44 16) a
  exact Lane.accept_other (sync'.trans sync) (by rw [seq']; exact other) _

/-- A frame out of order, on an UP lane for which no packet waits: what its control word says, and nothing else. -/
theorem State.Calm.exec_laneFrame_other {s : State} (calm : s.Calm) {k : LaneId} {seq : BitVec 16} {first : BitVec 2048}
    {next : Vector (BitVec 2048) 3} {others : List (BitVec 2048)} (up : (s.lane k).state = .up) {ws : List WaveRead}
    (read : readWaves (waveFrames false first next others) = ws)
    (good : ws.any (·.bad) = false) (waiting : s.fab.waiting = []) (sync : (s.lane k).rxSync = true) (other : seq ≠ (s.lane k).rxSeq + 1)
    (short : (s.lane k).rxRaw.length < 32)
    (fresh : (bitB (controlOf ws) 60 &&
        (((s.lane k).countWaves s.now ws).control (controlOf ws)).asksAgain (fld (controlOf ws) 44 16) s.instant) = true →
      (((s.lane k).countWaves s.now ws).control (controlOf ws)).worn = false) {m : Lane}
    (made : (((s.lane k).countWaves s.now ws).control (controlOf ws)).naked (bitB (controlOf ws) 60) (fld (controlOf ws) 44 16) s.instant = m) :
    ∃ mark, exec (.laneFrameReceived k seq false first next others) s = .next (s.modLane k (fun _ => { m with rawMark := mark })) := by
  have raw : m.rxRaw = (s.lane k).rxRaw := by
    rw [← made]
    exact (Lane.naked_accept _ _ _ _).2.2
  have short' : m.rxRaw.length < 32 := by rw [raw]; exact short
  obtain ⟨mark, run⟩ := exec_laneFrame_good calm up read good waiting fresh
    ((Lane.goodFrame_other (l := (s.lane k).countWaves s.now ws) sync other).trans made) (no_blocksOf short')
  exact ⟨mark, run.trans (by rw [drop_noBlocks short'])⟩

/-- Settles O36: a frame is counted, taken or refused on its own lane; an ABORT and a held packet change at most one lane beside it. -/
theorem laneFrames : Obligations.LaneFrames := by
  unfold Obligations.LaneFrames
  intro k seq alone first next others block s calm frames frame aborts l ws ctl good raw acked again
  have runs := calm.2.1
  have go {α : Type} {a b : α} : (if s.stopped then a else b) = b := if_neg (by rw [runs]; exact Bool.false_ne_true)
  refine ⟨?_, ?_, ?_, ?_, ?_, ?_, ?_, ?_, ?_, ?_, ?_, ?_, ?_, ?_, ?_⟩
  · intro deaf notListen
    refine go.trans (congrArg _ ?_)
    rw [State.frameIn_deaf deaf notListen]
    exact calm.settle_fab s.fab
  · intro up hAlone clean
    subst hAlone
    exact ⟨_, exec_laneFrame_alone calm up (List.length_eq_zero_iff.mp clean), rfl⟩
  · intro up hAlone bad few
    subst hAlone
    refine ⟨_, exec_laneFrame_bad calm up (Bool.not_eq_false _ ▸ bad) few, ?_⟩
    rw [State.lane_modLane_same]
    exact ⟨rfl, rfl, rfl, rfl, rfl, rfl, rfl, rfl, rfl, State.lane_modLane_other _ k _, rfl⟩
  · intro up hAlone hGood unasked waiting inOrder idle
    subst hAlone
    have noneBad : (ws.filter (·.bad)).length = 0 := by
      rw [List.length_eq_zero_iff, List.filter_eq_nil_iff]
      exact fun w hw bad => Bool.false_ne_true (hGood.symm.trans (List.any_eq_true.mpr ⟨w, hw, bad⟩))
    obtain ⟨mark, run⟩ := exec_laneFrame_good calm (seq := seq) up rfl hGood waiting
      (fun asked => absurd (unasked.symm.trans (Bool.and_eq_true_iff.mp asked).1) Bool.false_ne_true)
      (Lane.goodFrame_next (l := l.countWaves s.now ws) unasked inOrder) idle
    refine ⟨_, run, ?_⟩
    rw [State.lane_modLane_same]
    refine ⟨rfl, rfl, by simp [l], rfl, ?_, ?_, rfl, ?_, rfl, State.lane_modLane_other _ k _, rfl⟩
    · rw [Lane.control_corr]
      rfl
    · rw [Lane.control_uncorr]
      exact congrArg (satAdd l.uncorr) noneBad
    · exact (l.countWaves s.now ws).control_credits ctl
  · intro up hAlone hGood unasked waiting sync other short
    subst hAlone
    obtain ⟨mark, run⟩ := calm.exec_laneFrame_other up rfl hGood waiting sync other short
      (fun asked => absurd (unasked.symm.trans (Bool.and_eq_true_iff.mp asked).1) Bool.false_ne_true) (m := { (l.countWaves s.now ws).control ctl with replayed := none })
      (by rw [show bitB (controlOf (readWaves (waveFrames false first next others))) 60 = false from unasked]; rfl)
    refine ⟨_, run, ?_⟩
    rw [State.lane_modLane_same]
    exact ⟨by simp [l], by simp [l], by simp [l], rfl, rfl⟩
  · intro up hAlone hGood asked again_ young waiting sync other short
    subst hAlone
    have asks : ((l.countWaves s.now ws).control ctl).asksAgain (fld ctl 44 16) s.instant = true := by
      rw [Lane.asksAgain_iff, Lane.control_replayed, Lane.countWaves_replayed]
      exact again_
    have fresh : ((l.countWaves s.now ws).control ctl).worn = false := by
      rw [Lane.worn, List.any_eq_false]
      intro f hf
      have mine := young f (List.mem_of_mem_filter hf)
      simpa using mine
    obtain ⟨mark, run⟩ := calm.exec_laneFrame_other up rfl hGood waiting sync other short (fun _ => fresh)
      (m := ((l.countWaves s.now ws).control ctl).replay (fld ctl 44 16) s.instant)
      (by rw [show bitB (controlOf (readWaves (waveFrames false first next others))) 60 = true from asked]; exact Lane.naked_again asks)
    refine ⟨_, run, ?_⟩
    rw [State.lane_modLane_same]
    have kept : ((l.countWaves s.now ws).control ctl).retry = acked := rfl
    have replays := congrArg (fun r => satAdd l.replays (List.length r)) kept
    have retry := congrArg (List.map fun f : RetryFrame => { f with replays := f.replays + 1, flips := none }) kept
    have busy := congrArg (fun r => max s.instant l.busyUntil + 64 * laneUnit * List.length r / 5) kept
    have stays : (((l.countWaves s.now ws).control ctl).replay (fld ctl 44 16) s.instant).state = .up := by
      rw [Lane.replay_state, Lane.control_state, Lane.countWaves_state]
      exact up
    exact ⟨replays, retry, stays, busy, rfl, rfl⟩
  · intro up hAlone hGood asked before waiting sync other short
    subst hAlone
    have asks : ((l.countWaves s.now ws).control ctl).asksAgain (fld ctl 44 16) s.instant = false := by
      rw [Bool.eq_false_iff, ne_eq, Lane.asksAgain_iff, Lane.control_replayed, Lane.countWaves_replayed]
      exact before
    obtain ⟨mark, run⟩ := calm.exec_laneFrame_other up rfl hGood waiting sync other short
      (fun asked => absurd (asks.symm.trans (Bool.and_eq_true_iff.mp asked).2) Bool.false_ne_true)
      (m := (l.countWaves s.now ws).control ctl)
      (by rw [show bitB (controlOf (readWaves (waveFrames false first next others))) 60 = true from asked]; exact Lane.naked_before asks)
    refine ⟨_, run, ?_⟩
    rw [State.lane_modLane_same]
    exact ⟨by simp [l], rfl, by simp [l], by simpa using up, rfl⟩
  · intro listen hAlone hGood still empty inOrder idle
    subst hAlone
    obtain ⟨mark, gives⟩ := State.frameIn_listen (seq := seq) listen (waveFrames_wide (first := first) (next := next) (others := others)) hGood still
    have accepted : (l.countWaves s.now ws).accept seq (ws.flatMap (·.data)) =
        { l.countWaves s.now ws with rxSeq := seq, rxSync := true, nak := false, rxRaw := raw } :=
      Lane.accept_next (l := l.countWaves s.now ws) inOrder _
    have taken : (l.countWaves s.now ws).listenData seq (ws.flatMap (·.data)) =
        { l.countWaves s.now ws with rxSeq := seq, rxSync := true, nak := false, rxRaw := raw.drop (32 * (raw.length / 32)) } := by
      unfold Lane.listenData
      dsimp only
      rw [accepted]
      dsimp only
      rw [blocksOf_filter_idle idle, List.nil_append]
    refine ⟨_, exec_laneFrame calm gives, ?_⟩
    rw [State.lane_modLane_same, show (s.lane k).countWaves s.now (readWaves (waveFrames false first next others)) = l.countWaves s.now ws from rfl,
      taken]
    exact ⟨listen, rfl, rfl, rfl, rfl, State.lane_modLane_other _ k _, rfl⟩
  · intro other
    refine go.trans (congrArg _ (if_neg ?_))
    rintro ⟨up, aborts_⟩
    exact other.elim (fun notUp => notUp up) (fun no => no aborts_)
  · intro up aborts_ between
    exact go.trans (congrArg _ ((if_pos ⟨up, aborts_⟩).trans (State.abortIn_between between)))
  · intro p up aborts_ inside uncut
    exact go.trans (congrArg _ ((if_pos ⟨up, aborts_⟩).trans (State.abortIn_partial inside uncut)))
  · intro j up aborts_ inside cut near far upj from_ waiting
    obtain ⟨total, credits, bs, eq⟩ := State.abortIn_onto (j := ⟨j, near⟩) inside cut (fun e => far (congrArg Fin.val e)) upj from_ waiting
    refine ⟨_, go.trans (congrArg _ ((if_pos ⟨up, aborts_⟩).trans eq)), ?_⟩
    have atK := State.lane_modLane_other (s.modLane k (fun l => { l with rxBytes := [], cut := none, crTotal := total })) ⟨j, near⟩
      (fun l => l.aborted credits bs) k (fun e => far e.symm)
    have atJ := State.lane_modLane_same (s.modLane k (fun l => { l with rxBytes := [], cut := none, crTotal := total })) ⟨j, near⟩
      (fun l => l.aborted credits bs)
    rw [s.lane_modLane_same k] at atK
    rw [s.lane_modLane_other k _ j far] at atJ
    have cutFrom := congrArg Lane.cutFrom atJ
    have count := congrArg Lane.aborts atJ
    have sent := congrArg Lane.sent atJ
    refine ⟨congrArg Lane.rxBytes atK, congrArg Lane.cut atK, cutFrom, count, sent, ?_, rfl⟩
    intro i notK notJ
    rw [State.lane_modLane_other _ ⟨j, near⟩ _ i notJ, s.lane_modLane_other k _ i notK]
  · intro none_
    exact go.trans (congrArg _ (State.releaseHeld_none none_))
  · intro h one bestEffort _ closed
    exact go.trans (congrArg _ ((State.releaseHeld_one one).trans (State.sendReordered_stays bestEffort closed)))
  · intro h one bestEffort _ noTime uncut opened
    obtain ⟨busy, eq⟩ := State.sendReordered_leaves bestEffort noTime uncut opened
    refine ⟨_, go.trans (congrArg _ ((State.releaseHeld_one one).trans eq)), ?_⟩
    obtain ⟨sent, reorder, credits⟩ := ({ l with reorder := [], busyUntil := busy } : Lane).transmit_keeps h.sp
    rw [State.lane_modLane_same]
    exact ⟨reorder, sent, credits, State.lane_modLane_other _ k _, rfl⟩

end Sys2Proof.Machine
end

section
/-! PROOFS. O39 ScheduledClass. -/

namespace Sys2Proof.Machine

set_option Elab.async false -- in turn: many waiting threads need much memory

/-! ## Tables -/

section
variable {α : Type} (t : List (Nat × α)) (k : Nat) (v d : α)

theorem tabGet_tabSet (j : Nat) : tabGet (tabSet t k v) j d = if k = j then v else tabGet t j d := by
  induction t with
  | nil => rfl
  | cons e t ih =>
    obtain ⟨k', v'⟩ := e
    unfold tabSet
    split
    next => rfl
    next notBefore =>
      split
      next same =>
        subst same
        simp only [tabGet]
        split <;> rfl
      next other =>
        simp only [tabGet, ih]
        by_cases here : k' = j
        · rw [if_pos here, if_pos here, if_neg (fun e => other (e.trans here.symm))]
        · rw [if_neg here, if_neg here]

theorem tabGet_tabErase (j : Nat) : tabGet (tabErase t k) j d = if k = j then d else tabGet t j d := by
  induction t with
  | nil => simp [tabErase, tabGet]
  | cons e t ih =>
    obtain ⟨k', v'⟩ := e
    unfold tabErase at ih ⊢
    by_cases same : k' = k
    · subst same
      rw [List.filter_cons_of_neg (by simp), ih]
      simp only [tabGet]
      split <;> rfl
    · rw [List.filter_cons_of_pos (by simpa using same)]
      simp only [tabGet, ih]
      by_cases here : k' = j
      · rw [if_pos here, if_pos here, if_neg (fun e => same (here.trans e.symm))]
      · rw [if_neg here, if_neg here]

end

/-! ## SLOT_ENTRY_WRITE (R331) -/

/-- What an entry of the slot tables reads after a write of one half. -/
theorem TimeBlk.writeSlot_slots {t : TimeBlk} (off : t.schedEn = false) (hi : Bool) (v : Reg) :
    ∃ slots, t.writeSlot hi v = { t with slots := slots } ∧ ∀ j, tabGet slots j 0 =
      if 8192 * t.selTrunk.toNat + t.selSlot.toNat = j
      then setFld (tabGet t.slots (8192 * t.selTrunk.toNat + t.selSlot.toNat) 0) (if hi then 64 else 0) 64 v.toNat else tabGet t.slots j 0 := by
  refine ⟨_, if_neg (by rw [off]; exact Bool.false_ne_true), fun j => ?_⟩
  generalize 8192 * t.selTrunk.toNat + t.selSlot.toNat = key
  generalize setFld (tabGet t.slots key 0) (if hi then 64 else 0) 64 v.toNat = new
  by_cases zero : new = 0
  · rw [if_pos zero, tabGet_tabErase, zero]
  · rw [if_neg zero, tabGet_tabSet]

/-- The half that is written, and the other one. -/
theorem fld_half (w : BitVec 128) (hi : Bool) (v : Reg) :
    fld (setFld w (if hi then 64 else 0) 64 v.toNat) (if hi then 64 else 0) 64 = v ∧
      fld (setFld w (if hi then 64 else 0) 64 v.toNat) (if hi then 0 else 64) 64 = fld w (if hi then 0 else 64) 64 := by
  constructor
  · rw [fld_setFld_same _ _ _ _ (by split <;> decide), BitVec.ofNat_toNat, BitVec.setWidth_eq]
  · exact fld_setFld_out _ _ _ _ _ _ (by cases hi <;> decide)

/-! ## A packet made ready for the best-effort class (R300 to R302) -/

theorem setFld_toNat_mod {n : Nat} (w : BitVec n) (lo len v : Nat) : (setFld w lo len v).toNat % 2 ^ lo = w.toNat % 2 ^ lo := by
  refine Nat.eq_of_testBit_eq (fun i => ?_)
  rw [Nat.testBit_mod_two_pow, Nat.testBit_mod_two_pow]
  by_cases low : i < lo
  · have out := getLsbD_setFld_out w lo len v i (.inl low)
    rw [BitVec.getLsbD, BitVec.getLsbD] at out
    rw [out]
  · simp [low]

theorem leBytes_take (n m x : Nat) (h : m ≤ n) : (leBytes n x).take m = leBytes m x := by
  induction m generalizing n x with
  | zero => rfl
  | succ m ih =>
    obtain ⟨n, rfl⟩ : ∃ k, n = k + 1 := ⟨n - 1, by omega⟩
    exact congrArg _ (ih n (x / 256) (by omega))

theorem leBytes_mod (m x y : Nat) (same : x % 256 ^ m = y % 256 ^ m) : leBytes m x = leBytes m y := by
  have back (z : Nat) : leBytes m z = leBytes m (z % 256 ^ m) := by
    have spelled := leBytes_leNat (leBytes m z)
    rw [length_leBytes, leNat_leBytes] at spelled
    exact spelled.symm
  rw [back x, back y, same]

/-- HCRC covers everything before it. -/
theorem Packet.calcHcrc_sealed (p : Packet) : p.sealed.calcHcrc = p.calcHcrc := by
  have last : (leBytes 8 p.sealed.w3.toNat).take 6 = (leBytes 8 p.w3.toNat).take 6 := by
    rw [leBytes_take 8 6 _ (by decide), leBytes_take 8 6 _ (by decide)]
    exact leBytes_mod 6 _ _ (setFld_toNat_mod p.w3 48 16 _)
  have covered (q : Packet) : q.header.take 30 =
      leBytes 8 q.w0.toNat ++ leBytes 8 q.w1.toNat ++ leBytes 8 q.w2.toNat ++ (leBytes 8 q.w3.toNat).take 6 := by
    unfold Packet.header
    rw [List.take_append, List.take_of_length_le (by simp)]
    simp
  unfold Packet.calcHcrc
  rw [covered, covered, last]
  rfl

theorem Packet.hcrcOk_sealed (p : Packet) : p.sealed.hcrcOk = true := by
  have kept : p.sealed.hcrc = p.calcHcrc := by
    refine (fld_setFld_same p.w3 48 16 p.calcHcrc.toNat (by decide)).trans ?_
    rw [BitVec.ofNat_toNat, BitVec.setWidth_eq]
  unfold Packet.hcrcOk
  rw [kept, p.calcHcrc_sealed]
  exact beq_self_eq_true _

/-- What a best-effort packet says once its class, route, expiry and virtual channel are set. -/
theorem Packet.bestEffort_fields (p : Packet) (d : BitVec 4) (now : BitVec 64) (v : Nat) :
    let q := (((p.withClass false).withDir d).withExpiry now).withVc v
    q.cls = false ∧ q.expire = (now.toNat / 1024 + 48) % 65536 ∧ q.vc = v % 2 ∧ q.hcrcOk = true := by
  refine ⟨?_, ?_, ?_, Packet.hcrcOk_sealed _⟩
  · have class_ : (setFld p.w0 4 1 (b2n false)).getLsbD 4 = false := by
      have bit := congrArg (BitVec.getLsbD · 0) (fld_setFld_same p.w0 4 1 (b2n false) (by decide))
      simpa [b2n] using bit
    exact (getLsbD_setFld_out _ 5 1 v 4 (by decide)).trans ((getLsbD_setFld_out _ 6 4 d.toNat 4 (by decide)).trans class_)
  · refine (congrArg BitVec.toNat (fld_setFld_same ((p.withClass false).withDir d).w2 48 16 (now.toNat / 1024 + 48) (by decide))).trans ?_
    rw [BitVec.toNat_ofNat]
  · refine (congrArg BitVec.toNat (fld_setFld_same (((p.withClass false).withDir d).withExpiry now).w0 5 1 v (by decide))).trans ?_
    rw [BitVec.toNat_ofNat]

/-! ## A packet leaves on a lane that holds nothing back (R304, R314) -/

/-- Only the lanes of the module are UP. -/
theorem State.lt_of_up {s : State} {k : Nat} (up : (s.lane k).state = .up) : k < 64 := by
  by_contra far
  have dark : (s.lane k).state = .off := by
    unfold State.lane
    rw [show s.fab.lanes.getD k {} = {} from by simp [Vector.getD, far]]
  exact nomatch dark.symm.trans up

theorem FabBlk.drawFaults_off {f : FabBlk} (off : f.injEn = false) (k : Nat) (p : Packet) : f.drawFaults k p = ({ pkt := p, fault := {} }, false) := by
  unfold FabBlk.drawFaults
  simp [off]

/-- A lane once it has sent a packet at an instant. -/
def Lane.took (l : Lane) (p : Packet) (a : Nat) : Lane :=
  { l with credits := if p.cls then l.credits else vmod l.credits p.pool (fun c => c - p.credits)
           busyUntil := max a l.busyUntil + laneTime p.size (min 8 l.width) }.transmit { pkt := p, fault := {} }

theorem Lane.transmit_busyUntil (l : Lane) (sp : SentPacket) : (l.transmit sp).busyUntil = l.busyUntil := by
  unfold Lane.transmit
  split <;> rfl

theorem Lane.took_sent (l : Lane) (p : Packet) (a : Nat) : (l.took p a).sent = l.sent ++ [{ pkt := p, fault := {} }] :=
  (Lane.transmit_keeps _ _).1
theorem Lane.took_reorder (l : Lane) (p : Packet) (a : Nat) : (l.took p a).reorder = l.reorder := (Lane.transmit_keeps _ _).2.1
theorem Lane.took_credits {l : Lane} {p : Packet} {a : Nat} (scheduled : p.cls = true) : (l.took p a).credits = l.credits :=
  (Lane.transmit_keeps _ _).2.2.trans (if_pos scheduled)
theorem Lane.took_busyUntil (l : Lane) (p : Packet) (a : Nat) : (l.took p a).busyUntil = max a l.busyUntil + laneTime p.size (min 8 l.width) :=
  Lane.transmit_busyUntil _ _

/-- Without fault injection, and with nothing held for reordering, a packet leaves at once. -/
theorem State.laneSend_plain {s : State} {k : LaneId} (off : s.fab.injEn = false) (held : (s.lane k).reorder = []) (p : Packet)
    (from_ : SchedFrom) (a : Nat) : s.laneSend k p from_ (some a) = s.modLane k (fun l => l.took p a) := by
  have put : (s.modLane k (fun l =>
      { l with credits := if p.cls then l.credits else vmod l.credits p.pool (fun c => c - p.credits), injCount := l.injCount })).putOn k
        { pkt := p, fault := {} } (some a) = s.modLane k (fun l => l.took p a) := by
    unfold State.putOn State.occupy State.occupyAt
    dsimp only
    rw [State.modLane_modLane, State.modLane_modLane]
    rfl
  unfold State.laneSend
  rw [FabBlk.drawFaults_off off]
  dsimp only
  rw [off, if_neg Bool.false_ne_true]
  refine (congrArg (State.releaseHeld · k.val _) put).trans (State.releaseHeld_none ?_)
  rw [s.lane_modLane_same k, Lane.took_reorder]
  exact held

/-! ## Which lane takes a packet -/

/-- The lanes a packet finds depend on the lanes, the fabric time and the slots in force. -/
theorem State.pickLane_congr {s t : State} (lanes : t.fab.lanes = s.fab.lanes) (ft : t.time.ft = s.time.ft)
    (tags : ∀ tr l a, t.time.tagAt tr l a = s.time.tagAt tr l a) (o : Nat) (p : Packet) : t.pickLane o p = s.pickLane o p := by
  unfold State.pickLane State.pickLaneAt State.laneOpenAt State.slotsAre State.lane State.instant State.now
  simp only [lanes, ft, tags]

theorem State.trunkUp_congr {s t : State} (lanes : t.fab.lanes = s.fab.lanes) (o : Nat) :
    t.trunkUp o = s.trunkUp o ∧ t.trunkListens o = s.trunkListens o := by
  unfold State.trunkUp State.trunkListens State.lane
  rw [lanes]
  exact ⟨rfl, rfl⟩

/-- A packet that finds a lane leaves on it; one that finds none, on a trunk where no lane listens, waits. -/
theorem State.queueTrunk_leaves {s : State} {o k : Nat} {p : Packet} (found : s.pickLane o p = some k) :
    s.queueTrunk o p none none = s.laneSend k p .bestEffort (some s.instant) := by
  unfold State.queueTrunk
  rw [found]
  rfl

theorem State.queueTrunk_waits {s : State} {o : Nat} {p : Packet} (none_ : s.pickLane o p = none) (deaf : s.trunkListens o = false) :
    s.queueTrunk o p none none = s.modFab (fun f => { f with waiting := f.waiting ++ [⟨o, p, none, none⟩] }) := by
  unfold State.queueTrunk
  rw [none_]
  dsimp only
  rw [foldl_still]
  intro k mine
  rw [State.trunkListens, List.any_eq_false] at deaf
  exact if_neg (deaf k mine)

/-- A request whose route and trunk stand leaves, or waits for its trunk. -/
theorem State.sendReq_leaves {s : State} {r : OutReq} {d : BitVec 4} {o : Nat} (n : Nat)
    (route : s.fab.route s.dev.toNat r.pkt.dst.toNat = some d)
    (next : nextTrunk s.dev.toNat ((((s.reload r).withClass false).withDir d).withExpiry s.now) = some o) (up : s.trunkUp o = true) :
    State.sendReq (n + 1) s r = (s.keepReq { r with
        pkt := ((((s.reload r).withClass false).withDir d).withExpiry s.now).withVc
          (s.fab.vcFor s.dev.toNat ((((s.reload r).withClass false).withDir d).withExpiry s.now)) }).queueTrunk o
      (((((s.reload r).withClass false).withDir d).withExpiry s.now).withVc
        (s.fab.vcFor s.dev.toNat ((((s.reload r).withClass false).withDir d).withExpiry s.now))) none none := by
  rw [State.sendReq, route]
  dsimp only
  rw [next]
  exact if_pos (.inl up)

/-! ## SCHEDULED_PACKET_SEND (R334, R337, R338) -/

theorem SchedPacket.before_self (x : SchedPacket) : x.before x = false := by
  have same : ¬ x.ready < x.ready := BitVec.lt_irrefl x.ready
  simp [SchedPacket.before, same]

/-- The lane that carries a tag earliest is one of the trunk's that takes the packet. -/
theorem State.schedLane_takes {s : State} {t g size k : Nat} (found : s.schedLane t g size = some k) :
    k ∈ trunkLanes t ∧ s.laneTakes k g size = true := by
  have fold (l : List Nat) (start : Nat → Nat) (best : Option Nat) (found : l.foldl (fun best k =>
      match best with
      | none => some k
      | some b => if start k < start b then some k else some b) best = some k) : best = some k ∨ k ∈ l := by
    induction l generalizing best with
    | nil => exact .inl found
    | cons j l ih =>
      rcases ih _ found with first | later
      · cases best with
        | none => exact .inr ((Option.some.inj first) ▸ .head _)
        | some b =>
          dsimp only at first
          split at first
          · exact .inr ((Option.some.inj first) ▸ .head _)
          · exact .inl first
      · exact .inr (.tail _ later)
  rcases fold _ _ none found with nothing | mem
  · exact nomatch nothing
  · exact List.mem_filter.mp mem

section
variable {s : State} {x : SchedPacket} (one : s.fab.sched = [x])
include one

theorem State.dropSched_one : s.dropSched x.xid = { s with fab := { s.fab with sched := [] } } := by
  have emptied : s.fab.sched.filter (fun y => y.xid != x.xid) = [] := by rw [one]; simp
  exact congrArg (fun l => ({ s with fab := { s.fab with sched := l } } : State)) emptied

/-- The only ready packet leaves on the lane that carries its tag. -/
theorem State.sendSched_leaves {k : Nat} (open_ : (s.time.aligned && s.tableOk x.pkt.jobTag) = true)
    (found : s.schedLane x.trunk x.pkt.tag.toNat x.pkt.size = some k) (early : s.time.ft < x.limit) :
    s.sendSched x = ({ s with fab := { s.fab with sched := [] } } : State).laneSend k x.pkt (.source x) (some s.instant) := by
  have first : ¬ s.fab.sched.any (fun y => y.before x && (s.schedLane y.trunk x.pkt.tag.toNat y.pkt.size).isSome) = true := by
    rw [one]
    simp [SchedPacket.before_self]
  unfold State.sendSched
  dsimp only
  rw [found]
  dsimp only
  rw [if_pos (by rw [open_]; exact decide_eq_true early), if_neg first, State.dropSched_one one]

/-- The only ready packet falls back under its cause. -/
theorem State.sendSched_falls {c : Nat} (cause : s.sourceCause x = c) (real : c ≠ 0)
    (shut : (s.time.aligned && s.tableOk x.pkt.jobTag) = false ∨ s.schedLane x.trunk x.pkt.tag.toNat x.pkt.size = none ∨ x.limit ≤ s.time.ft) :
    s.sendSched x = ({ s with fab := { s.fab with sched := [] } } : State).fallBack x c := by
  unfold State.sendSched
  dsimp only
  split
  next k found =>
    rw [if_neg, cause, if_neg real, State.dropSched_one one]
    intro goes
    obtain ⟨open_, early⟩ := Bool.and_eq_true_iff.mp goes
    rcases shut with closed | nowhere | late
    · exact Bool.false_ne_true (closed.symm.trans open_)
    · exact nomatch found.symm.trans nowhere
    · exact absurd (of_decide_eq_true early) (BitVec.not_lt.mpr late)
  next => rw [cause, if_neg real, State.dropSched_one one]

end

/-- The state in which a scheduled packet has fallen back, with its counts and its record. -/
def State.fellBack (s : State) (x : SchedPacket) (cause : Nat) : State :=
  { s with
    fab := { s.fab with sched := [] }
    time := { s.time with
      fallback := satInc s.time.fallback, slTag := x.pkt.tag, slTrunk := BitVec.ofNat 3 x.trunk, slCore := BitVec.ofNat 3 x.core,
      slCause := BitVec.ofNat 3 cause, slTransit := false, slOverwritten := s.time.slValid || s.time.slOverwritten, slValid := true } }

theorem State.fallBack_noted (s : State) (x : SchedPacket) (cause : Nat) :
    ({ s with fab := { s.fab with sched := [] } } : State).modTime (fun t => t.noteFallback x.pkt.tag.toNat x.trunk x.core cause false) =
      s.fellBack x cause := by
  have tag : BitVec.ofNat 16 x.pkt.tag.toNat = x.pkt.tag := by rw [BitVec.ofNat_toNat, BitVec.setWidth_eq]
  unfold State.modTime TimeBlk.noteFallback
  rw [tag]
  rfl

/-- The state in which the operation of a request has noted the fallback too. -/
def State.ownerFell (v : State) (owner : ReqOwner) (cause : Nat) : State :=
  match owner with
  | .copy c m id => v.modRun c (muleUnit m) id (fun e =>
      { e with fellBack := e.fellBack + 1, fbCause := if e.fellBack = 0 then cause else e.fbCause })
  | .msg c id => v.modCore c (fun k => k.modMsg (fun m => { m with sends := m.sends.map (fun e =>
      if e.id = id then { e with fellBack := e.fellBack + 1, fbCause := if e.fellBack = 0 then cause else e.fbCause } else e) }))
  | _ => v

theorem State.ownerFell_rest (v : State) (owner : ReqOwner) (cause : Nat) :
    (v.ownerFell owner cause).fab = v.fab ∧ (v.ownerFell owner cause).time = v.time := by
  cases owner <;> exact ⟨rfl, rfl⟩

/-- The request of a scheduled packet that falls back is sent again, in the best-effort class. -/
theorem State.fallBack_sends {s : State} {x : SchedPacket} {cause : Nat} {r : OutReq}
    (found : s.fab.out.find? (fun r => r.xid == x.xid) = some r) :
    ({ s with fab := { s.fab with sched := [] } } : State).fallBack x cause = State.sendReq 9 ((s.fellBack x cause).ownerFell r.owner cause) r := by
  have kept : (s.fellBack x cause).fab.out.find? (fun r => r.xid == x.xid) = some r := found
  unfold State.fallBack
  dsimp only
  rw [State.fallBack_noted, kept]
  dsimp only
  cases r.owner <;> rfl

/-- The causes of a fallback at the source (R337). -/
theorem State.sourceCause_of {s : State} {x : SchedPacket} {cause : Nat}
    (why : (s.time.aligned = false ∧ cause = 3) ∨ (s.time.aligned = true ∧ s.tableOk x.pkt.jobTag = false ∧ cause = 4) ∨
      ((s.time.aligned && s.tableOk x.pkt.jobTag) = true ∧ s.schedLater x.trunk x.pkt.tag.toNat x.pkt.size x.limit.toNat = false ∧
        cause = if (trunkLanes x.trunk).any (fun k => (s.lane k).state == .up && s.time.carries k x.pkt.tag.toNat) then 2 else 1)) :
    s.sourceCause x = cause := by
  unfold State.sourceCause
  dsimp only
  rcases why with ⟨drifts, rfl⟩ | ⟨aligned, off, rfl⟩ | ⟨open_, never, rfl⟩
  · rw [drifts]
    rfl
  · rw [aligned, off]
    rfl
  · obtain ⟨aligned, on⟩ := Bool.and_eq_true_iff.mp open_
    rw [aligned, on, never]
    rfl

theorem popcount_le (m : BitVec 8) : min 8 (popcount m) = popcount m := by
  have small : popcount m ≤ 8 := by
    revert m
    decide
  exact Nat.min_eq_right small

/-- Settles O39: a slot entry changes one half of one word; the only ready packet leaves, or falls back and goes on as a request. -/
theorem scheduledClass : Obligations.ScheduledClass := by
  unfold Obligations.ScheduledClass
  intro hi v xid s t key row
  refine ⟨?_, ?_, ?_, ?_⟩
  · intro on
    exact congrArg (fun b => Host.Outcome.next ({ s with time := b } : State)) (if_pos on)
  · intro off
    obtain ⟨slots, eq, reads⟩ := TimeBlk.writeSlot_slots off hi v
    obtain ⟨written, other⟩ := fld_half (tabGet t.slots key 0) hi v
    have here : tabGet slots key 0 = setFld (tabGet t.slots key 0) (if hi then 64 else 0) 64 v.toNat := (reads key).trans (if_pos rfl)
    refine ⟨_, congrArg (fun b => Host.Outcome.next ({ s with time := b } : State)) eq, rfl, ?_, ?_, ?_⟩
    · rw [here]
      exact written
    · rw [here]
      exact other
    · exact fun j far => (reads j).trans (if_neg (fun e => far e.symm))
  · rintro (stopped | none_)
    · exact if_pos stopped
    · show execScheduledPacketSend xid s = .next s
      unfold execScheduledPacketSend
      rw [none_]
      exact ite_self _
  · intro x runs one hx g ok now held never
    have run : exec row s = .next (s.sendSched x) := by
      show execScheduledPacketSend xid s = _
      unfold execScheduledPacketSend
      rw [one, runs, if_neg Bool.false_ne_true, List.find?_cons_of_pos (by rw [hx]; exact beq_self_eq_true _)]
    refine ⟨?_, ?_⟩
    · intro k open_ found early scheduled off empty
      have takes := State.schedLane_takes found
      have up : (s.lane k).state = .up := by
        have all := takes.2
        simp only [State.laneTakes, Bool.and_eq_true, beq_iff_eq] at all
        exact all.1.1
      have plain := State.laneSend_plain (s := { s with fab := { s.fab with sched := [] } }) (k := ⟨k, State.lt_of_up up⟩) off empty x.pkt
        (.source x) s.instant
      have run' := run.trans (congrArg _ ((State.sendSched_leaves one open_ found early).trans plain))
      have lane := State.lane_modLane_same { s with fab := { s.fab with sched := [] } } ⟨k, State.lt_of_up up⟩ (fun l => l.took x.pkt s.instant)
      have others := State.lane_modLane_other { s with fab := { s.fab with sched := [] } } ⟨k, State.lt_of_up up⟩ (fun l => l.took x.pkt s.instant)
      refine ⟨_, run', rfl, ?_, ?_, ?_, others, rfl, rfl⟩
      · exact (congrArg Lane.sent lane).trans (Lane.took_sent _ _ _)
      · exact (congrArg Lane.credits lane).trans (Lane.took_credits scheduled)
      · refine (congrArg Lane.busyUntil lane).trans ((Lane.took_busyUntil _ _ _).trans ?_)
        exact congrArg (fun w => max s.instant (s.lane k).busyUntil + laneTime x.pkt.size w) (popcount_le (s.lane k).txMask)
    · intro cause why noted r d o y found copies msgs owned route p q w next upTrunk
      have real : cause ≠ 0 := by
        rcases why with ⟨-, rfl⟩ | ⟨-, -, rfl⟩ | ⟨-, -, -, rfl⟩ | ⟨-, -, -, rfl⟩ <;> decide
      have source : s.sourceCause x = cause := by
        refine State.sourceCause_of ?_
        rcases why with drifts | off | ⟨open_, late, nowhere, rfl⟩ | ⟨open_, late, ⟨k, mine, up, carries⟩, rfl⟩
        · exact .inl drifts
        · exact .inr (.inl off)
        · refine .inr (.inr ⟨open_, late.2, (if_neg ?_).symm⟩)
          rw [Bool.not_eq_true, List.any_eq_false]
          intro k mine both
          obtain ⟨up, carries⟩ := Bool.and_eq_true_iff.mp both
          exact nowhere k ⟨mine, beq_iff_eq.mp up, carries⟩
        · refine .inr (.inr ⟨open_, late.2, (if_pos ?_).symm⟩)
          exact List.any_eq_true.mpr ⟨k, mine, Bool.and_eq_true_iff.mpr ⟨beq_iff_eq.mpr up, carries⟩⟩
      have shut : (s.time.aligned && s.tableOk x.pkt.jobTag) = false ∨ s.schedLane x.trunk x.pkt.tag.toNat x.pkt.size = none ∨ x.limit ≤ s.time.ft := by
        rcases why with ⟨drifts, -⟩ | ⟨-, off, -⟩ | ⟨-, late, -⟩ | ⟨-, late, -⟩
        · exact .inl (by rw [show s.time.aligned = false from drifts]; rfl)
        · exact .inl (by rw [off, Bool.and_false])
        · exact .inr late.1
        · exact .inr late.1
      subst hx
      have hy : y = (s.fellBack x cause).ownerFell r.owner cause := by
        rcases owned with ⟨c, m, id, owner⟩ | ⟨c, id, owner⟩
        · rw [owner]
          exact copies c m id owner
        · rw [owner]
          exact msgs c id owner
      obtain ⟨fab, time⟩ := (s.fellBack x cause).ownerFell_rest r.owner cause
      rw [← hy] at fab time
      have ft : y.time.ft = s.time.ft := by rw [time]; rfl
      have route' : y.fab.route y.dev.toNat r.pkt.dst.toNat = some d := by
        rw [State.dev, fab]
        exact route
      have vc (p : Packet) : y.fab.vcFor y.dev.toNat p = s.fab.vcFor s.dev.toNat p := by
        rw [State.dev, fab]
        rfl
      have lanes : y.fab.lanes = s.fab.lanes := by rw [fab]; rfl
      have sends : State.sendReq 9 y r = w.queueTrunk o q none none := by
        have next' : nextTrunk y.dev.toNat ((((y.reload r).withClass false).withDir d).withExpiry y.now) = some o := by
          rw [show y.now = s.time.ft from ft, State.dev, fab]
          exact next
        have up' : y.trunkUp o = true := (State.trunkUp_congr lanes o).1.trans upTrunk
        refine (State.sendReq_leaves 8 route' next' up').trans ?_
        rw [show y.now = s.time.ft from ft, vc]
      have run' : exec row s = .next (w.queueTrunk o q none none) := by
        rw [run, State.sendSched_falls one source real shut, State.fallBack_sends found, ← hy, sends]
      have pick : w.pickLane o q = s.pickLane o q := by
        refine State.pickLane_congr lanes ft ?_ o q
        intro tr l a
        have fell : (s.fellBack x cause).time.tagAt tr l a = s.time.tagAt tr l a := rfl
        exact (congrArg (fun b : TimeBlk => b.tagAt tr l a) time).trans fell
      have deaf : w.trunkListens o = s.trunkListens o := (State.trunkUp_congr (s := s) (t := w) lanes o).2
      obtain ⟨cls, expire, channel, hcrc⟩ := (y.reload r).bestEffort_fields d t.ft (s.fab.vcFor s.dev.toNat p)
      refine ⟨cls, expire, channel, hcrc, ?_, ?_⟩
      · intro k picked
        rw [run', State.queueTrunk_leaves (pick.trans picked), show w.instant = s.instant from congrArg (fun b : BitVec 64 => b.toNat * laneUnit) ft]
      · intro nowhere notListens
        rw [run', State.queueTrunk_waits (pick.trans nowhere) (deaf.trans notListens)]
        have waiting : w.fab.waiting = s.fab.waiting := by
          show y.fab.waiting = s.fab.waiting
          rw [fab]
          rfl
        rw [← waiting]
        rfl

end Sys2Proof.Machine
end

section
/-! PROOFS. O40 EthernetPorts. -/

namespace Sys2Proof.Machine

set_option Elab.async false -- in turn: many waiting threads need much memory

/-! ## What a port serves (R343, R344) -/

section
variable {s : State} {p : PortId}

theorem State.onPort_down (f : EthPort → EthPort) (down : s.portUp p = false) : s.onPort p f = s := if_neg (by rw [down]; exact Bool.false_ne_true)
theorem State.onPort_up (f : EthPort → EthPort) (up : s.portUp p = true) : s.onPort p f = s.modPort p f := if_pos up

theorem State.modPort_congr {f g : EthPort → EthPort} (same : f (s.eth.ports.getD p {}) = g (s.eth.ports.getD p {})) :
    s.modPort p f = s.modPort p g :=
  congrArg (fun v => ({ s with eth := { s.eth with ports := v } } : State)) (vmod_congr s.eth.ports p {} same)

/-- An unchanged port. -/
theorem State.modPort_id : s.modPort p id = s := by
  have same : vmod s.eth.ports p id = s.eth.ports := by
    unfold vmod
    split
    · simp
    · rfl
  exact congrArg (fun v => ({ s with eth := { s.eth with ports := v } } : State)) same

variable {f : EthFrame}

theorem State.frameServed_mac (foreign : f.mac ≠ s.macOf p ∧ f.mac ∉ s.groupMacs p f) : s.frameServed p f = false := by
  have mac : (f.mac == s.macOf p || (s.groupMacs p f).contains f.mac) = false := by simpa using foreign
  unfold State.frameServed
  rw [mac]
  rfl

theorem State.frameServed_tags (tagged : 2 ≤ f.vlans.length) : s.frameServed p f = false := by
  have many : decide (f.vlans.length ≤ 1) = false := decide_eq_false (by omega)
  unfold State.frameServed
  rw [many]
  simp

theorem State.frameServed_net (unserved : s.netServed p f = false) : s.frameServed p f = false := by
  unfold State.frameServed
  rw [unserved]
  simp

/-- The time groups are of port 0 alone. -/
theorem group4_outside {d : BitVec 32} (outside : p.val ≠ 0 ∨ d ∉ [(0xE0000181 : BitVec 32), 0xE000006B]) (udp : Option (BitVec 16)) :
    group4 p d udp = false := by
  unfold group4
  rcases outside with other | outside
  · rw [beq_eq_false_iff_ne.mpr other]
    simp
  · simp only [List.mem_cons, List.not_mem_nil, or_false, not_or] at outside
    rw [beq_eq_false_iff_ne.mpr outside.1, beq_eq_false_iff_ne.mpr outside.2]
    simp

/-- Groups are multicast addresses. -/
theorem State.group6_outside {d : BitVec 128} (unicast : d.toNat / 2 ^ 120 ≠ 0xFF) (udp : Option (BitVec 16)) : s.group6 p d udp = false := by
  have time : (d.toNat / 2 ^ 116 == 0xFF0) = false := beq_eq_false_iff_ne.mpr (by omega)
  have peer : (d.toNat == 0xFF02 * 2 ^ 112 + 0x6B) = false := beq_eq_false_iff_ne.mpr (by omega)
  have solicited : (d.toNat == 0xFF02 * 2 ^ 112 + 0x1FF000000 + (s.ip6 p).toNat % 2 ^ 24) = false := beq_eq_false_iff_ne.mpr (by omega)
  unfold State.group6
  dsimp only
  rw [time, peer, solicited]
  simp

/-- A frame for another address, or with extensions that the port does not take, is not served. -/
theorem State.frameServed_not (why : (f.mac ≠ s.macOf p ∧ f.mac ∉ s.groupMacs p f) ∨ 2 ≤ f.vlans.length ∨
    (∃ d, f.net = .ip4 d true) ∨ (∃ d, f.net = .ip6 d true) ∨
    (∃ d, f.net = .ip4 d false ∧ d ≠ s.ip4 p ∧ (p.val ≠ 0 ∨ d ∉ [(0xE0000181 : BitVec 32), 0xE000006B])) ∨
    (∃ d, f.net = .ip6 d false ∧ d ≠ s.ip6 p ∧ d.toNat / 2 ^ 120 ≠ 0xFF)) : s.frameServed p f = false := by
  rcases why with foreign | tagged | ⟨d, net⟩ | ⟨d, net⟩ | ⟨d, net, other, outside⟩ | ⟨d, net, other, unicast⟩
  · exact State.frameServed_mac foreign
  · exact State.frameServed_tags tagged
  all_goals
    refine State.frameServed_net ?_
    unfold State.netServed
    rw [net]
  · rfl
  · rfl
  · dsimp only
    rw [beq_eq_false_iff_ne.mpr other, group4_outside outside]
    rfl
  · dsimp only
    rw [beq_eq_false_iff_ne.mpr other, State.group6_outside unicast]
    rfl

/-- A frame for the port's own addresses is served. -/
theorem State.frameServed_own (mac : f.mac = s.macOf p) (untagged : f.vlans = [])
    (net : f.net = .ip4 (s.ip4 p) false ∨ f.net = .ip6 (s.ip6 p) false) (noUdp : f.udp = none) : s.frameServed p f = true := by
  have served : s.netServed p f = true := by
    unfold State.netServed
    rcases net with v4 | v6
    · rw [v4]
      simp
    · rw [v6]
      simp
  unfold State.frameServed
  rw [served, mac, untagged, noUdp]
  simp

end

/-- Settles O40: each row tests its port and its operands once, and changes that port alone. -/
theorem ethernetPorts : Obligations.EthernetPorts := by
  unfold Obligations.EthernetPorts
  intro p f v6 pause mac i4 t4 i6 t6 body prio s e with_ own4 own6 hw tag echo fec freed
  refine ⟨?_, ?_, ?_, ?_, ?_⟩
  · intro quiet i hi
    have down : s.portUp p = false := by
      unfold State.portUp
      rcases quiet with down | stopped
      · rw [show (s.eth.ports.getD p {}).linkUp = false from down]
        rfl
      · rw [stopped]
        simp
    simp only [List.mem_cons, List.not_mem_nil, or_false] at hi
    rcases hi with rfl | rfl | rfl | rfl | rfl
    · exact congrArg _ (State.onPort_down _ down)
    · exact congrArg _ (State.onPort_down _ down)
    · exact congrArg _ (State.onPort_down _ down)
    · show execIcmpEcho p v6 mac i6 t6 body s = .next s
      unfold execIcmpEcho
      dsimp only
      rw [State.onPort_down _ down]
      exact ite_self _
    · exact if_neg (by rw [down]; simp)
  · intro link runs
    have up : s.portUp p = true := by
      unfold State.portUp
      rw [show (s.eth.ports.getD p {}).linkUp = true from link, runs]
      rfl
    have port (f g : EthPort → EthPort) (same : f e = g e) : (.next (s.onPort p f) : Out) = .next (with_ g) :=
      congrArg _ ((State.onPort_up f up).trans (State.modPort_congr same))
    have idle (f : EthPort → EthPort) (same : f e = e) : (.next (s.onPort p f) : Out) = .next s :=
      congrArg _ ((State.onPort_up f up).trans ((State.modPort_congr (g := id) same).trans State.modPort_id))
    refine ⟨?_, ?_, ?_, ?_, ?_, ?_, ?_, ?_, ?_, ?_⟩
    · exact fun bad => port _ _ (if_pos bad)
    · intro good size
      refine port _ _ ((if_neg (by rw [good]; exact Bool.false_ne_true)).trans (if_pos ?_))
      have wrong : frameSize f.bytes = false := decide_eq_false (by omega)
      rw [wrong]
      simp
    · intro good least most why
      refine port _ _ ((if_neg (by rw [good]; exact Bool.false_ne_true)).trans (if_neg ?_))
      have right : frameSize f.bytes = true := decide_eq_true ⟨least, most⟩
      rw [State.frameServed_not why, right]
      simp
    · intro good own untagged net noUdp
      refine port _ _ ((if_neg (by rw [good]; exact Bool.false_ne_true)).trans (if_pos ?_))
      rw [State.frameServed_own own untagged net noUdp]
      rfl
    · by_cases asked : t4 = own4
      · rw [if_pos asked]
        exact port _ _ (if_pos asked)
      · rw [if_neg asked]
        exact idle _ (if_neg asked)
    · by_cases asked : t6 = own6
      · rw [if_pos asked]
        exact port _ _ (if_pos asked)
      · rw [if_neg asked]
        exact idle _ (if_neg asked)
    · intro large
      have wrong : frameSize (s.echoFrame v6 body) = false := by
        refine decide_eq_false ?_
        rintro ⟨-, most⟩
        have whole : 14 + 4 * b2n s.vlanTag.isSome + (if v6 then 40 else 20) + 4 + body.length + 4 ≤ 9216 := (le_max_right _ _).trans most
        have : echo ≤ 9216 := by
          show 22 + 4 * b2n s.vlanTag.isSome + (if v6 then 40 else 20) + body.length ≤ 9216
          omega
        omega
      exact if_pos (by rw [wrong]; rfl)
    · intro small
      have right : frameSize (s.echoFrame v6 body) = true := by
        have sum : 22 + 4 * b2n s.vlanTag.isSome + (if v6 then 40 else 20) + body.length ≤ 9216 := small
        exact decide_eq_true ⟨le_max_left _ _, max_le (by decide) (by omega)⟩
      refine (if_neg (by rw [right]; simp)).trans ?_
      by_cases asked : t6 = if v6 then own6 else own4.setWidth 128
      · rw [if_pos asked]
        exact port _ _ (if_pos asked)
      · rw [if_neg asked]
        exact port _ _ (if_neg asked)
    · intro other
      refine if_neg ?_
      rintro all
      simp only [Bool.and_eq_true, beq_iff_eq] at all
      obtain ⟨⟨-, en⟩, prio_⟩ := all
      rcases other with off | far
      · exact Bool.false_ne_true (off.symm.trans en)
      · exact far prio_
    · intro en same
      have takes (b : Bool) : exec (.pfcFrameReceived p prio b) s =
          .next (if b then with_ (fun e => { e with paused := b }) else freed (with_ (fun e => { e with paused := b }))) :=
        if_pos (by simp only [up, Bool.true_and, Bool.and_eq_true, beq_iff_eq]; exact ⟨en, same⟩)
      exact ⟨takes true, takes false⟩
  · rfl
  · intro standing normal runs enabled
    refine if_pos ?_
    rw [normal, runs, show (s.port p).disable = false from enabled]
    simp [FlashBlk.scHeld, standing]
  · intro why
    refine if_neg ?_
    intro all
    simp only [Bool.and_eq_true, Bool.not_eq_true', FlashBlk.scHeld, List.isEmpty_eq_false_iff] at all
    obtain ⟨⟨⟨standing, normal⟩, runs⟩, enabled⟩ := all
    rcases why with none_ | recovery | stopped | disabled
    · exact standing none_
    · exact Bool.false_ne_true (normal.symm.trans recovery)
    · exact Bool.false_ne_true (runs.symm.trans stopped)
    · exact Bool.false_ne_true (enabled.symm.trans disabled)

end Sys2Proof.Machine
end

section
/-! PROOFS. What the fabric sends changes the fabric and its clock alone, and follows from them alone (R299, R304). -/

namespace Sys2Proof.Machine

set_option Elab.async false -- in turn: many waiting threads need much memory

/-- The state u with the fabric and the clock of s. -/
def State.hosts (u s : State) : State := { u with fab := s.fab, time := s.time }

theorem State.hosts_self (u : State) : u.hosts u = u := rfl

/-- A step of the fabric reads and changes nothing but the fabric and its clock. -/
def Fabric (f : State → State) : Prop := ∀ u s : State, f (u.hosts s) = u.hosts (f s)

theorem Fabric.frame {f : State → State} (h : Fabric f) (s : State) : f s = s.hosts (f s) := h s s

theorem Fabric.congr {f : State → State} (h : Fabric f) {s u : State} (fab : u.fab = s.fab) (time : u.time = s.time) :
    f u = u.hosts (f s) := by
  have same : u = u.hosts s := by
    unfold State.hosts
    rw [← fab, ← time]
  exact (congrArg f same).trans (h u s)

theorem Fabric.modFab (g : FabBlk → FabBlk) : Fabric (fun s => s.modFab g) := fun _ _ => rfl
theorem Fabric.modLane (k : Nat) (g : Lane → Lane) : Fabric (fun s => s.modLane k g) := fun _ _ => rfl
theorem Fabric.modTime (g : TimeBlk → TimeBlk) : Fabric (fun s => s.modTime g) := fun _ _ => rfl
theorem Fabric.id : Fabric (fun s => s) := fun _ _ => rfl

theorem Fabric.comp {f g : State → State} (hg : Fabric g) (hf : Fabric f) : Fabric (fun s => g (f s)) := fun u s =>
  (congrArg g (hf u s)).trans (hg u (f s))

/-- A step that the fabric and its clock choose is one of theirs. -/
theorem Fabric.ite {p : State → Prop} [∀ s, Decidable (p s)] {f g : State → State} (same : ∀ u s, p (State.hosts u s) ↔ p s) (hf : Fabric f)
    (hg : Fabric g) : Fabric (fun s => if p s then f s else g s) := by
  intro u s
  dsimp only
  by_cases h : p s
  · rw [if_pos h, if_pos ((same u s).mpr h)]
    exact hf u s
  · rw [if_neg h, if_neg (fun x => h ((same u s).mp x))]
    exact hg u s

/-- A step that depends on what the fabric shows. -/
theorem Fabric.of_reads {α : Type} {f : α → State → State} (r : State → α) (same : ∀ u s, r (State.hosts u s) = r s) (hf : ∀ x, Fabric (f x)) :
    Fabric (fun s => f (r s) s) := by
  intro u s
  dsimp only
  rw [same]
  exact hf (r s) u s

theorem Fabric.foldl {α : Type} {f : State → α → State} (hf : ∀ x, Fabric (fun s => f s x)) (l : List α) : Fabric (fun s => l.foldl f s) := by
  induction l with
  | nil => exact Fabric.id
  | cons x l ih => exact Fabric.comp ih (hf x)

theorem Fabric.transitFalls (k t cause : Nat) (p : Packet) : Fabric (fun s => s.transitFalls k t cause p) :=
  .ite (p := fun s => 32768 < s.fab.fallbackBytes k + p.size) (fun _ _ => Iff.rfl) (.modTime _) (fun _ _ => rfl)

theorem Fabric.putOn (k : Nat) (sp : SentPacket) (start : Option Nat) : Fabric (fun s => s.putOn k sp start) := by
  cases start <;> exact fun _ _ => rfl

theorem Fabric.stamp (k : Nat) (sp : SentPacket) (start : Option Nat) : Fabric (fun s => (s.stamp k sp).1.putOn k (s.stamp k sp).2 start) := by
  intro u s
  dsimp only
  unfold State.stamp
  by_cases h : sp.pkt.ty = 0xA
  · simp only [if_pos h]
    exact Fabric.comp (.putOn k _ start) (.modLane k _) u s
  · simp only [if_neg h]
    exact Fabric.putOn k sp start u s

theorem Fabric.sendReordered (k : Nat) (h : HeldPacket) : Fabric (fun s => s.sendReordered k h) := by
  intro u s
  dsimp only
  unfold State.sendReordered
  cases h.from_ with
  | bestEffort => 
    exact Fabric.ite (p := fun s => ((s.lane k).cutFrom.isNone && s.laneOpen k h.sp.pkt && (h.sp.pkt.ty != 0xA || (s.lane k).freeAt s.instant)) = true) (fun _ _ => Iff.rfl)
      (.stamp _ _ _) (.modLane _ _) u s
  | source x => 
    exact Fabric.ite (p := fun s => (s.time.aligned && s.tableOk h.sp.pkt.jobTag && s.laneTakes k h.sp.pkt.tag.toNat h.sp.pkt.size && decide (s.now < x.limit)) = true) (fun _ _ => Iff.rfl)
      (.putOn k h.sp _) (.ite (p := fun s => (s.time.aligned && s.tableOk h.sp.pkt.jobTag && s.laneLater k h.sp.pkt.tag.toNat h.sp.pkt.size x.limit.toNat) = true) (fun _ _ => Iff.rfl)
        (.modLane _ _) (.modFab _)) u s
  | transit i =>
    exact Fabric.ite (p := fun s => (s.time.aligned && s.tableOk h.sp.pkt.jobTag &&
        ((s.lane k).state == .up && decide ((s.lane i).rxWidth ≤ (s.lane k).width)) && !(s.lane k).freeAt s.instant) = true) (fun _ _ => Iff.rfl)
      (.modLane _ _) (.ite (p := fun s => (s.time.aligned && s.tableOk h.sp.pkt.jobTag && s.hopTakes i k h.sp.pkt s.instant) = true)
        (fun _ _ => Iff.rfl) (.putOn k h.sp _) (.transitFalls i (k / 8) _ h.sp.pkt)) u s

theorem Fabric.releaseHeld (k : Nat) (which : HeldPacket → Bool) : Fabric (fun s => s.releaseHeld k which) := by
  intro u s
  have start := Fabric.modLane k (fun l => { l with reorder := l.reorder.filter (fun h => !which h) }) u s
  have go := Fabric.foldl (Fabric.sendReordered k) ((s.lane k).reorder.filter which) u
    (s.modLane k (fun l => { l with reorder := l.reorder.filter (fun h => !which h) }))
  exact (congrArg (fun x => ((s.lane k).reorder.filter which).foldl (fun s h => s.sendReordered k h) x) start).trans go

theorem Fabric.laneSend (k : Nat) (p : Packet) (from_ : SchedFrom) (start : Option Nat) : Fabric (fun s => s.laneSend k p from_ start) := by
  intro u s
  dsimp only
  unfold State.laneSend
  have draw : (u.hosts s).fab.drawFaults k p = s.fab.drawFaults k p := rfl
  rw [draw]
  obtain ⟨sp, hold⟩ := s.fab.drawFaults k p
  cases hold
  · exact Fabric.comp (.releaseHeld k _) (.comp (.putOn k sp start) (.modLane k _)) u s
  · exact Fabric.comp (.modLane k _) (.modLane k _) u s

theorem Fabric.returnCredits (inLane : Option (Nat × Nat)) (p : Packet) : Fabric (fun s => s.returnCredits inLane p) := by
  cases inLane <;> exact fun _ _ => rfl

theorem Fabric.queueTrunk (t : Nat) (p : Packet) (inLane : Option (Nat × Nat)) (fb : Option Nat) : Fabric (fun s => s.queueTrunk t p inLane fb) := by
  intro u s
  dsimp only
  unfold State.queueTrunk
  have pick : (u.hosts s).pickLane t p = s.pickLane t p := rfl
  rw [pick]
  cases s.pickLane t p with
  | none =>
    exact Fabric.comp (.modFab _) (.foldl (fun k => .ite (p := fun s => ((s.lane k).state == .listen) = true) (fun _ _ => Iff.rfl) (.modLane k _) .id)
      (trunkLanes t)) u s
  | some k => exact Fabric.comp (.returnCredits inLane p) (.laneSend k p .bestEffort _) u s

theorem Fabric.sendResp (p : Packet) : Fabric (fun s => s.sendResp p) := by
  intro u s
  dsimp only
  unfold State.sendResp
  have route : (u.hosts s).fab.route (u.hosts s).dev.toNat p.dst.toNat = s.fab.route s.dev.toNat p.dst.toNat := rfl
  rw [route]
  cases s.fab.route s.dev.toNat p.dst.toNat with
  | none => rfl
  | some d =>
    dsimp only
    have next : nextTrunk (u.hosts s).dev.toNat (((p.withClass false).withDir d).withExpiry (u.hosts s).now) =
      nextTrunk s.dev.toNat (((p.withClass false).withDir d).withExpiry s.now) := rfl
    rw [next]
    cases nextTrunk s.dev.toNat (((p.withClass false).withDir d).withExpiry s.now) with
    | none => rfl
    | some t =>
      exact Fabric.ite (p := fun s => s.trunkUp t = true ∨ s.trunkListens t = true) (fun _ _ => Iff.rfl) (.queueTrunk t _ none none)
        (.comp (.modFab _) (.modFab _)) u s

theorem Fabric.keepReq (r : OutReq) : Fabric (fun s => s.keepReq r) := fun _ _ => rfl

end Sys2Proof.Machine
end

section
/-! PROOFS. How the MSG engine runs a word that issues on a ready core (R37 to R43, R72). -/

namespace Sys2Proof.Machine

set_option Elab.async false -- in turn: many waiting threads need much memory

/-! ## Steadiness while cores are told of credits -/

theorem State.core_beyond (s : State) {d : Nat} (h : 8 ≤ d) : s.core d = {} := by
  simp [State.core, Vector.getD, show ¬ d < 8 from by omega]

/-- What a step of core c that leaves its program running leaves of all cores. -/
structure State.StepOf (s t : State) (c : Nat) : Prop where
  ids : ∀ d, (t.core d).id = (s.core d).id
  others : ∀ d, d ≠ c → (t.core d).seq = (s.core d).seq ∧ (t.core d).allIdle = (s.core d).allIdle ∧ (t.core d).quiet = (s.core d).quiet
  runs : (t.core c).seq.ended = false
  parts : t.parts = s.parts
  armed : t.eth.armed = s.eth.armed

theorem State.Steady.of_stepOf {s t : State} {c : Nat} (hs : s.Steady) (was : (s.core c).seq.ended = false) (step : s.StepOf t c) : t.Steady := by
  refine hs.congr (fun d _ => step.ids d) (fun d _ => ?_) step.parts step.armed (fun d hd => (t.core_beyond hd).trans (s.core_beyond hd).symm)
  rw [State.programOver, State.programOver, State.groupOf_congr step.ids]
  by_cases mine : c ∈ s.groupOf d
  · have still (x : State) (runs : (x.core c).seq.ended = false) :
        (s.groupOf d).all (fun e => (x.core e).seq.ended && !(x.core e).seq.stopped && (x.core e).allIdle) = false := by
      rw [List.all_eq_false]
      exact ⟨c, mine, by simp [runs]⟩
    rw [still t step.runs, still s was]
  · rw [Bool.eq_iff_iff, List.all_eq_true, List.all_eq_true]
    refine forall₂_congr (fun e he => ?_)
    obtain ⟨seq, idle, -⟩ := step.others e (fun h => mine (h ▸ he))
    rw [seq, idle]

/-! ## A word of the MSG engine on a ready core -/

theorem State.msgHead_empty {t : State} {c : Nat} (none_ : (t.core c).msgq.queue = []) : t.msgHead c = none := by
  unfold State.msgHead
  rw [none_]

/-- What the MSG engine of a core that has nothing else to do leaves as it rests. -/
structure State.MsgRests (t : State) (c : Nat) : Prop where
  rests : t.msgHead c = none
  heads : ∀ p ps, (t.core c).msgq.queue = p :: ps → p.op.isSome = true
  queues : ∀ u ∈ engUnits, u ≠ .msg → ((t.core c).eng u).queue = []
  buf : (t.core c).seq.buf = []
  nowait : (t.core c).seq.wait = .none
  stall : (t.core c).seq.stall = .none

/-- Of the units of a core, only the MSG engine's head may go on. -/
theorem State.engineSide_msg {s : State} {c : Nat} (heads : ∀ p ps, (s.core c).msgq.queue = p :: ps → p.op.isSome = true)
    (queues : ∀ u ∈ engUnits, u ≠ .msg → ((s.core c).eng u).queue = []) (some_ : (s.core c).msgq.queue ≠ []) :
    s.engineSide c = State.pumpMsg c 32 s := by
  have waits (u : EngUnit) (hu : u ∈ engUnits) (p : QEntry) (ps : List QEntry) (hp : ((s.core c).eng u).queue = p :: ps) : p.op.isSome = true := by
    by_cases e : u = .msg
    · subst e
      exact heads p ps hp
    · rw [queues u hu e] at hp
      exact nomatch hp
  have drop : (engUnits.filter (fun u => !((s.core c).eng u).queue.isEmpty)).foldl (fun s u => State.dropNulls c u 16 s) s = s :=
    s.foldl_stays _ _ (fun u hu => s.dropNulls_waits c u 16 (waits u (List.mem_of_mem_filter hu)))
  have gath : (s.core c).gath.queue = [] := queues .gath (by simp [engUnits]) (by simp)
  unfold State.engineSide
  dsimp only
  rw [drop, gath]
  simp [some_]

theorem State.pumpMsg_rests {t : State} {c : Nat} (h : t.MsgRests c) (n : Nat) : State.pumpMsg c n t = t := by
  cases n with
  | zero => rfl
  | succ n =>
    rw [State.pumpMsg, t.dropNulls_waits c .msg 32 h.heads]
    rw [h.rests]

theorem State.engineSide_rests {t : State} {c : Nat} (h : t.MsgRests c) : t.engineSide c = t := by
  by_cases some_ : (t.core c).msgq.queue = []
  · refine State.engineSide_idle t c (fun u hu => ?_)
    by_cases e : u = .msg
    · subst e
      exact some_
    · exact h.queues u hu e
  · rw [State.engineSide_msg h.heads h.queues some_, State.pumpMsg_rests h]

theorem State.settleCore_rests {t : State} {c : Nat} (h : t.MsgRests c) (n : Nat) : State.settleCore c n t = t := by
  cases n with
  | zero => rfl
  | succ n =>
    rw [State.settleCore, State.engineSide_rests h, t.issueOne_empty c h.buf h.nowait h.stall]
    simp

/-- A word of the MSG engine that passes its checks enters the empty queue, and its engine does what it can. -/
theorem State.fetch_pumped {s t : State} {c : CoreId} {v : IWord} {r : IssueRes} {q : QEntry} (hr : s.Ready c) (hd : decodeCause v = 0)
    (he : (Word128.engine v).toNat = 7) (res : r = (s.offered c (s.decodedAt c v)).resolve c v) (passes : r.cause = 0)
    (free : (s.core c).seq.sbStalls (liveRanges r.claims) = false) (fits : (s.core c).seq.sb.length + (liveRanges r.claims).length ≤ 64)
    (hq : q = entryOf (s.core c) ((s.core c).seq.pc.setWidth 17) v false none (some r.op))
    (pumps : State.pumpMsg c 32 (s.modCore c (fun k => k.queued .msg q (liveRanges r.claims) r.op)) = t)
    (rests : t.MsgRests c) (step : s.StepOf t c) : s.fetch c v = t := by
  obtain ⟨buf, nowait, -, queues⟩ := s.ready_empty c hr
  have unit_ : unitOf v = .msg := by simp [unitOf, he]
  have notSeq : (Word128.engine v).toNat ≠ engSEQ := by simp [he, engSEQ]
  have hl : isLaunch v = false := by simp [isLaunch, notSeq]
  have offered := s.offered_core c (s.decodedAt c v) c.isLt
  have room := s.offered_room c (s.decodedAt c v) .msg hr (by simp [engUnits])
  rw [← unit_] at room
  have issue := State.issueEngine_passes (s.offered c (s.decodedAt c v)) c (s.decodedAt c v) false v r rfl res room passes
    (by rw [offered]; exact free) (by rw [offered]; exact fits)
  have entry : entryOf ((s.offered c (s.decodedAt c v)).core c) (s.decodedAt c v).pc v false none (some r.op) = q := by
    rw [hq, offered]
    rfl
  have number : ((s.offered c (s.decodedAt c v)).core c).seq.nextId = (s.core c).seq.nextId := by
    rw [offered]
    rfl
  rw [entry, number, unit_] at issue
  have one := State.issueOne_engine s _ c (s.decodedAt c v) hr.1 hr.2.1 hd hl notSeq issue
  rw [s.offered_queues c (s.decodedAt c v) .msg _ _ _ hr (by simp [engUnits])] at one
  obtain ⟨x, hx⟩ : ∃ x, x = s.modCore c (fun k => k.queued .msg q (liveRanges r.claims) r.op) := ⟨_, rfl⟩
  have asleep : (s.modCore c (fun k => k.queued .msg q (liveRanges r.claims) r.op)).wakeClocks c .msg q = x := hx.symm ▸ rfl
  rw [asleep] at one
  rw [← hx] at pumps
  have here : x.core c = (s.core c).queued .msg q (liveRanges r.claims) r.op := by rw [hx]; simp
  have isOp : q.op.isSome = true := by rw [hq]; rfl
  have mine : (x.core c).msgq.queue = [q] := by
    rw [here]
    exact congrArg EngQueue.queue ((s.core c).queued_eng .msg .msg q (liveRanges r.claims) r.op)
  have theirs (u : EngUnit) (hu : u ∈ engUnits) (ne : u ≠ .msg) : ((x.core c).eng u).queue = [] := by
    rw [here, Core.queued_eng, if_neg ne]
    exact queues u hu
  have heads (p : QEntry) (ps : List QEntry) (hp : (x.core c).msgq.queue = p :: ps) : p.op.isSome = true := by
    rw [mine, List.cons.injEq] at hp
    rw [← hp.1, isOp]
  have pumped : x.engineSide c = t := by
    rw [State.engineSide_msg heads theirs (by rw [mine]; simp), pumps]
  have loud : (x.core c).quiet = false := by
    rw [Bool.eq_false_iff]
    intro all
    simp only [Core.quiet, Bool.and_eq_true, List.all_eq_true, List.isEmpty_iff] at all
    exact absurd (mine.symm.trans (all.2 .msg (by simp [engUnits]))) (by simp)
  have goes : State.settleCore c 159 x = t := by
    rw [show (159 : Nat) = 158 + 1 from rfl, State.settleCore, pumped, t.issueOne_empty c rests.buf rests.nowait rests.stall]
    simp [loud]
  rw [State.fetch_takes s c v hr.1 hr.2.1 (fun _ => hl)]
  refine State.settle_core _ t c (s.noProgram_stopped c hr.1.1) (fun d hd hne => ?_) (fun d hd hne => ?_) ?_ (State.settleCore_rests rests 160)
    (hr.2.2.of_stepOf hr.1.2.2.2.1 step)
  · rw [State.core_offered_ne s c d _ hne]
    exact hr.2.1 d hd
  · rw [(step.others d hne).2.2]
    exact hr.2.1 d hd
  · exact (State.settleCore_step _ x c 159 (s.offered_loud c _) (fun u hu' => by rw [s.offered_eng, queues u hu']) one).trans goes

/-- The engine takes one step, and rests. -/
theorem State.fetch_pumps {s t : State} {c : CoreId} {v : IWord} {r : IssueRes} {q : QEntry} (hr : s.Ready c) (hd : decodeCause v = 0)
    (he : (Word128.engine v).toNat = 7) (res : r = (s.offered c (s.decodedAt c v)).resolve c v) (passes : r.cause = 0)
    (free : (s.core c).seq.sbStalls (liveRanges r.claims) = false) (fits : (s.core c).seq.sb.length + (liveRanges r.claims).length ≤ 64)
    (hq : q = entryOf (s.core c) ((s.core c).seq.pc.setWidth 17) v false none (some r.op))
    (head : (s.modCore c (fun k => k.queued .msg q (liveRanges r.claims) r.op)).msgHead c = some t)
    (rests : t.MsgRests c) (step : s.StepOf t c) : s.fetch c v = t := by
  refine State.fetch_pumped hr hd he res passes free fits hq ?_ rests step
  have here : (s.modCore c (fun k => k.queued .msg q (liveRanges r.claims) r.op)).core c = (s.core c).queued .msg q (liveRanges r.claims) r.op := by simp
  have heads (p : QEntry) (ps : List QEntry)
      (hp : ((s.modCore c (fun k => k.queued .msg q (liveRanges r.claims) r.op)).core c).msgq.queue = p :: ps) : p.op.isSome = true := by
    have mine : ((s.core c).queued .msg q (liveRanges r.claims) r.op).msgq.queue = [q] :=
      congrArg EngQueue.queue ((s.core c).queued_eng .msg .msg q (liveRanges r.claims) r.op)
    rw [here, mine, List.cons.injEq] at hp
    rw [← hp.1, hq]
    rfl
  rw [show (32 : Nat) = 31 + 1 from rfl, State.pumpMsg, State.dropNulls_waits _ c .msg 32 heads, head]
  exact State.pumpMsg_rests rests 31

end Sys2Proof.Machine
end

section
/-! PROOFS. O20 QueueOperations. -/

namespace Sys2Proof.Machine

set_option Elab.async false -- in turn: many waiting threads need much memory

/-! ## Credits told to senders (R38) -/

/-- From s to t only credit mirrors, the fabric and its clock change. -/
def State.Tells (s t : State) : Prop :=
  (∀ d, ∃ l, t.core d = { s.core d with msg := { (s.core d).msg with mirror := l } }) ∧ t = { s with cores := t.cores, fab := t.fab, time := t.time }

theorem State.Tells.refl (s : State) : s.Tells s := ⟨fun d => ⟨(s.core d).msg.mirror, rfl⟩, rfl⟩

theorem State.Tells.trans {s t u : State} (h : s.Tells t) (g : t.Tells u) : s.Tells u := by
  obtain ⟨hc, hr⟩ := h
  obtain ⟨gc, gr⟩ := g
  refine ⟨fun d => ?_, ?_⟩
  · obtain ⟨l, hl⟩ := hc d
    obtain ⟨m, hm⟩ := gc d
    exact ⟨m, by rw [hm, hl]⟩
  · rw [hr] at gr
    exact gr

/-- A queue's place in a credit mirror shows FULL = 0. -/
def MirrorEntry.opened (c q : Nat) (m : MirrorEntry) : MirrorEntry :=
  if m.dev = 0x3FFF ∧ m.core.toNat = c ∧ m.queue.toNat = q then { m with full := false } else m

theorem MirrorEntry.opened_opened (c q : Nat) (m : MirrorEntry) : (m.opened c q).opened c q = m.opened c q := by
  unfold MirrorEntry.opened
  split <;> rfl

theorem MsgRegs.setMirror_opened (r : MsgRegs) (c q : Nat) :
    r.setMirror 0x3FFF c q false = { r with mirror := r.mirror.map (MirrorEntry.opened c q) } := by
  have same (m : MirrorEntry) : (if m.names 0x3FFF c q = true then { m with full := false } else m) = m.opened c q := by
    unfold MirrorEntry.opened MirrorEntry.names
    simp [and_assoc]
  unfold MsgRegs.setMirror
  simp only [same]

/-- The CREDIT packet by which queue q of core c tells a sender. -/
def State.creditPacket (s : State) (c q : Nat) (e : DevId × BitVec 3) : Packet :=
  PacketFields.build
    { ty := 0x7, dst := e.1, src := s.dev, srcCore := c, jobTag := (s.core c).id.jobTag, dstCore := e.2.toNat, queue := q }

theorem State.creditTo_far {s : State} {c q : Nat} {e : DevId × BitVec 3} (far : s.isOwnDev e.1 = false) :
    s.creditTo c q e = s.sendResp (s.creditPacket c q e) := if_neg (Bool.eq_false_iff.mp far)

theorem State.creditTo_own {s : State} {c q : Nat} {e : DevId × BitVec 3} (own : s.isOwnDev e.1 = true) :
    s.creditTo c q e = s.modCore e.2.toNat (fun k => k.modMsg (fun r => r.setMirror 0x3FFF c q false)) := if_pos own

theorem State.creditTo_own_mirror {s : State} {c q : Nat} {e : DevId × BitVec 3} (own : s.isOwnDev e.1 = true) (d : Nat) :
    ((s.creditTo c q e).core d).msg.mirror =
      if e.2.toNat = d then (s.core d).msg.mirror.map (MirrorEntry.opened c q) else (s.core d).msg.mirror := by
  rw [State.creditTo_own own, State.core_modCore]
  by_cases mine : e.2.toNat = d
  · rw [if_pos ⟨mine.symm, by omega⟩, if_pos mine, mine]
    exact congrArg MsgRegs.mirror ((s.core d).msg.setMirror_opened c q)
  · rw [if_neg (fun h => mine h.1.symm), if_neg mine]

theorem State.creditTo_tells (s : State) (c q : Nat) (e : DevId × BitVec 3) : s.Tells (s.creditTo c q e) := by
  cases own : s.isOwnDev e.1
  · rw [State.creditTo_far own, (Fabric.sendResp (s.creditPacket c q e)).frame s]
    exact ⟨fun d => ⟨(s.core d).msg.mirror, rfl⟩, rfl⟩
  · rw [State.creditTo_own own]
    refine ⟨fun d => ?_, rfl⟩
    rw [State.core_modCore]
    split
    · next h =>
      rw [h.1]
      exact ⟨_, rfl⟩
    · exact ⟨(s.core d).msg.mirror, rfl⟩

theorem State.toldAll_tells (s : State) (c q : Nat) (l : List (DevId × BitVec 3)) : s.Tells (l.foldl (fun s t => s.creditTo c q t) s) := by
  induction l generalizing s with
  | nil => exact .refl s
  | cons e l ih => exact (s.creditTo_tells c q e).trans (ih (s.creditTo c q e))

/-- Senders on this module are told in their credit mirrors. -/
theorem State.toldAll_own (s : State) (c q : Nat) (l : List (DevId × BitVec 3)) (own : ∀ e ∈ l, s.isOwnDev e.1 = true) :
    (l.foldl (fun s t => s.creditTo c q t) s).fab = s.fab ∧ (l.foldl (fun s t => s.creditTo c q t) s).time = s.time ∧
    ∀ d, d < 8 → ((l.foldl (fun s t => s.creditTo c q t) s).core d).msg.mirror =
      if l.any (fun e => e.2.toNat == d) then (s.core d).msg.mirror.map (MirrorEntry.opened c q) else (s.core d).msg.mirror := by
  induction l generalizing s with
  | nil => exact ⟨rfl, rfl, fun _ _ => rfl⟩
  | cons e l ih =>
    obtain ⟨fab, time, mirrors⟩ := ih (s.creditTo c q e) (fun x hx => by
      rw [State.creditTo_own (own e (.head _))]
      exact own x (.tail _ hx))
    have first := State.creditTo_own (c := c) (q := q) (own e (.head _))
    have fab' : (s.creditTo c q e).fab = s.fab := first ▸ rfl
    have time' : (s.creditTo c q e).time = s.time := first ▸ rfl
    refine ⟨fab.trans fab', time.trans time', fun d hd => (mirrors d hd).trans ?_⟩
    rw [State.creditTo_own_mirror (own e (.head _)), List.any_cons]
    by_cases mine : e.2.toNat = d
    · have twice : (MirrorEntry.opened c q) ∘ (MirrorEntry.opened c q) = MirrorEntry.opened c q := funext (MirrorEntry.opened_opened c q)
      rw [if_pos mine, beq_iff_eq.mpr mine, Bool.true_or, if_pos rfl, List.map_map, twice, ite_self]
    · rw [if_neg mine, beq_eq_false_iff_ne.mpr mine, Bool.false_or]

/-! ## A change of a message queue -/

/-- The queue y, which was x, with its listed senders told if its FULL flag falls. -/
def MsgQueue.announced (x y : MsgQueue) : MsgQueue := if x.full && !y.full then { y with senders := [] } else y

theorem MsgQueue.falls_iff (x y : MsgQueue) : (x.full && !y.full) = true ↔ 24 < x.entries.length ∧ y.entries.length ≤ 24 := by
  simp [MsgQueue.full]

theorem Core.queue_modQueue (k : Core) (q j : Nat) (f : MsgQueue → MsgQueue) (hq : q < 16) :
    (k.modQueue q f).queue j = if j = q then f (k.queue q) else k.queue j := by
  unfold Core.modQueue Core.queue
  rw [getD_vmod]
  simp only [hq, and_true]

theorem State.queue_modQueue (s : State) (c : CoreId) (q j : Nat) (f : MsgQueue → MsgQueue) (hq : q < 16) :
    ((s.modQueue c q f).core c).queue j = if j = q then f ((s.core c).queue q) else (s.core c).queue j := by
  rw [State.modQueue, State.core_modCore, if_pos ⟨rfl, c.isLt⟩]
  exact (s.core c).queue_modQueue q j f hq

/-- Whether FULL of a queue falls in a change. -/
def State.fullFalls (s : State) (c q : Nat) (f : MsgQueue → MsgQueue) : Bool := ((s.core c).queue q).full && !(f ((s.core c).queue q)).full

theorem State.changeQueue_quiet {s : State} {c : CoreId} {q : Nat} {f : MsgQueue → MsgQueue} (hq : q < 16) (stays : s.fullFalls c q f = false) :
    s.changeQueue c q f = s.modQueue c q f := by
  have here := (s.queue_modQueue c q q f hq).trans (if_pos rfl)
  unfold State.changeQueue
  dsimp only
  refine if_neg ?_
  rw [show (s.modCore c (fun k => k.modQueue q f)).core c = (s.modQueue c q f).core c from rfl, here]
  exact Bool.eq_false_iff.mp stays

theorem State.changeQueue_tellsAll {s : State} {c : CoreId} {q : Nat} {f : MsgQueue → MsgQueue} (hq : q < 16) (falls : s.fullFalls c q f = true) :
    s.changeQueue c q f =
      ((s.core c).queue q).senders.foldl (fun s t => s.creditTo c q t) (s.modQueue c q (fun x => { f x with senders := [] })) := by
  have here := (s.queue_modQueue c q q f hq).trans (if_pos rfl)
  unfold State.changeQueue
  dsimp only
  rw [if_pos (by
    rw [show (s.modCore c (fun k => k.modQueue q f)).core c = (s.modQueue c q f).core c from rfl, here]
    exact falls)]
  exact congrArg (fun x : State => ((s.core c).queue q).senders.foldl (fun s t => s.creditTo c q t) x) (s.modQueue_modQueue c q f _)

/-- A change of a queue changes that queue, and tells its senders if FULL falls. -/
theorem State.changeQueue_tells (s : State) (c : CoreId) (q : Nat) (f : MsgQueue → MsgQueue) (hq : q < 16) :
    (s.modQueue c q (fun x => x.announced (f x))).Tells (s.changeQueue c q f) := by
  cases falls : s.fullFalls c q f
  · rw [State.changeQueue_quiet hq falls, s.modQueue_congr c q (fun x => x.announced (f x)) f (if_neg (Bool.eq_false_iff.mp falls))]
    exact .refl _
  · rw [State.changeQueue_tellsAll hq falls, s.modQueue_congr c q (fun x => x.announced (f x)) (fun x => { f x with senders := [] }) (if_pos falls)]
    exact State.toldAll_tells _ _ _ _

theorem State.Tells.queue {s t : State} (h : s.Tells t) (d j : Nat) : (t.core d).queue j = (s.core d).queue j := by
  obtain ⟨l, hl⟩ := h.1 d
  rw [hl]
  rfl

theorem State.changeQueue_queue (s : State) (c : CoreId) (q j : Nat) (f : MsgQueue → MsgQueue) (hq : q < 16) :
    ((s.changeQueue c q f).core c).queue j =
      if j = q then ((s.core c).queue q).announced (f ((s.core c).queue q)) else (s.core c).queue j :=
  ((s.changeQueue_tells c q f hq).queue c j).trans (s.queue_modQueue c q j _ hq)

/-- Where every listed sender is on this module, fabric and clock stay. -/
theorem State.changeQueue_near {s : State} {c : CoreId} {q : Nat} {f : MsgQueue → MsgQueue} (hq : q < 16)
    (near : ∀ e ∈ ((s.core c).queue q).senders, s.isOwnDev e.1 = true) :
    (s.changeQueue c q f).fab = s.fab ∧ (s.changeQueue c q f).time = s.time := by
  cases falls : s.fullFalls c q f
  · rw [State.changeQueue_quiet hq falls]
    exact ⟨rfl, rfl⟩
  · rw [State.changeQueue_tellsAll hq falls]
    obtain ⟨fab, time, -⟩ := State.toldAll_own (s.modQueue c q (fun x => { f x with senders := [] })) c q _ near
    exact ⟨fab, time⟩

theorem State.modQueue_mirror (s : State) (c q : Nat) (f : MsgQueue → MsgQueue) (d : Nat) :
    ((s.modQueue c q f).core d).msg.mirror = (s.core d).msg.mirror :=
  s.core_modCore_keeps (fun k => k.msg.mirror) c _ rfl d

/-- What a change of a queue tells is what its senders are owed (R38). -/
theorem State.changeQueue_credits (s : State) (c : CoreId) (q : Nat) (f : MsgQueue → MsgQueue) (hq : q < 16)
    (kept : (f ((s.core c).queue q)).senders = ((s.core c).queue q).senders) : s.Credits (s.changeQueue c q f) c q := by
  have here := (s.changeQueue_queue c q q f hq).trans (if_pos rfl)
  have lengths : ((s.core c).queue q).full && !(f ((s.core c).queue q)).full ↔
      24 < ((s.core c).queue q).entries.length ∧ (((s.changeQueue c q f).core c).queue q).entries.length ≤ 24 := by
    rw [MsgQueue.falls_iff, here]
    have same : (((s.core c).queue q).announced (f ((s.core c).queue q))).entries = (f ((s.core c).queue q)).entries := by
      unfold MsgQueue.announced
      split <;> rfl
    rw [same]
  refine ⟨fun stays => ?_, fun falls => ?_⟩
  · have no : s.fullFalls c q f = false := by
      rw [Bool.eq_false_iff]
      exact fun yes => stays (lengths.mp yes)
    refine ⟨?_, ?_, fun d _ => ?_⟩
    · exact (congrArg MsgQueue.senders (here.trans (if_neg (Bool.eq_false_iff.mp no)))).trans kept
    · rw [State.changeQueue_quiet hq no]
      rfl
    · rw [State.changeQueue_quiet hq no, State.modQueue_mirror]
  · have yes : s.fullFalls c q f = true := lengths.mpr falls
    refine ⟨?_, fun near => ?_, fun e alone far => ?_⟩
    · exact congrArg MsgQueue.senders (here.trans (if_pos yes))
    · rw [State.changeQueue_tellsAll hq yes]
      obtain ⟨fab, -, mirrors⟩ := State.toldAll_own (s.modQueue c q (fun x => { f x with senders := [] })) c q _ near
      refine ⟨fab, fun d hd => (mirrors d hd).trans ?_⟩
      rw [State.modQueue_mirror]
      rfl
    · rw [State.changeQueue_tellsAll hq yes, alone]
      have sent := (Fabric.sendResp (s.creditPacket c q e)).congr (u := s.modQueue c q (fun x => { f x with senders := [] })) (s := s) rfl rfl
      have tag : ((s.modQueue c q (fun x => { f x with senders := [] })).core c).id.jobTag = (s.core c).id.jobTag :=
        s.core_modCore_keeps (fun k => k.id.jobTag) c _ rfl c
      have packet : (s.modQueue c q (fun x => { f x with senders := [] })).creditPacket c q e = s.creditPacket c q e := by
        unfold State.creditPacket
        rw [tag]
        rfl
      have told := State.creditTo_far (s := s.modQueue c q (fun x => { f x with senders := [] })) (c := c) (q := q) (e := e) far
      rw [packet] at told
      exact (congrArg State.fab (told.trans sent)).trans rfl

theorem State.Credits.congr {s s' t t' : State} {c n : Nat} (h : s.Credits t c n) (msg : ∀ d, (s'.core d).msg = (s.core d).msg)
    (id_ : (s'.core c).id = (s.core c).id) (fab : s'.fab = s.fab) (time : s'.time = s.time) (msg' : ∀ d, (t'.core d).msg = (t.core d).msg)
    (fab' : t'.fab = t.fab) : s'.Credits t' c n := by
  have sends (p : Packet) : (s'.sendResp p).fab = (s.sendResp p).fab := (congrArg State.fab ((Fabric.sendResp p).congr fab time)).trans rfl
  have dev : s'.dev = s.dev := congrArg FabBlk.dev fab
  have own (d : DevId) : s'.isOwnDev d = s.isOwnDev d := by rw [State.isOwnDev, State.isOwnDev, dev]
  unfold State.Credits at h ⊢
  simp only [Core.queue, msg, msg', id_, fab, fab', sends, dev, own] at h ⊢
  exact h

end Sys2Proof.Machine
end

section
/-! PROOFS. O20 QueueOperations: the operations on queues. -/

namespace Sys2Proof.Machine

set_option Elab.async false -- in turn: many waiting threads need much memory

/-! ## An operation of the MSG engine that has begun -/

/-- From s to u the operation q of core c has issued and begun in the MSG engine, which runs it alone. -/
structure State.MsgBegun (s u : State) (c : Nat) (q : QEntry) : Prop where
  seq : ∃ stopped sb n l, (u.core c).seq =
    { (s.core c).seq with pc := (s.core c).seq.pc + 1, stall := .none, nextId := n, sb := sb, stopped := stopped, ldwRec := l }
  queue : (u.core c).msgq.queue = []
  running : ∃ r, (u.core c).msgq.running = [r] ∧ r.q = q
  engs : ∀ x ∈ engUnits, x ≠ .msg → (u.core c).eng x = (s.core c).eng x
  ids : ∀ d, (u.core d).id = (s.core d).id
  others : ∀ d, d ≠ c → (u.core d).seq = (s.core d).seq ∧ (u.core d).allIdle = (s.core d).allIdle ∧ (u.core d).quiet = (s.core d).quiet
  parts : u.parts = s.parts
  armed : u.eth.armed = s.eth.armed

/-- The core k on which the operation q has begun in the MSG engine. -/
def Core.msgBegun (k : Core) (q : QEntry) (rs : List Range) (op : EngOp) (r : REntry) : Core :=
  { k.queued .msg q rs op with msgq := { k.msgq with queue := [], running := k.msgq.running ++ [r] } }

theorem State.start_msg (s : State) (c : Nat) (q : QEntry) (rs : List Range) (op : EngOp) (r : REntry) (mine : r.q = q) (now : q.launch = none) :
    ∃ r', r'.q = q ∧ (s.modCore c (fun k => k.queued .msg q rs op)).start c .msg r = s.modCore c (fun k => k.msgBegun q rs op r') := by
  refine ⟨{ r with startFt := s.now, late := r.q.lateAt s.now }, mine, ?_⟩
  have noted (x : State) : x.noteLaunch c r.q = x := by
    unfold State.noteLaunch
    rw [mine, now]
  unfold State.start
  dsimp only
  rw [noted, State.popHead, State.run, State.modCore_modCore, State.modCore_modCore]
  rfl

section
variable {s : State} {c : CoreId} {q : QEntry}

theorem State.MsgBegun.of_start {rs : List Range} {op : EngOp} {r : REntry} (mine : r.q = q) (alone : (s.core c).msgq.running = []) :
    s.MsgBegun (s.modCore c (fun k => k.msgBegun q rs op r)) c q := by
  have here : (s.modCore c (fun k => k.msgBegun q rs op r)).core c = (s.core c).msgBegun q rs op r := by simp
  have there (d : Nat) (ne : d ≠ c.val) : (s.modCore c (fun k => k.msgBegun q rs op r)).core d = s.core d := by simp [ne]
  refine ⟨?_, ?_, ⟨r, ?_, mine⟩, ?_, ?_, fun d ne => ?_, rfl, rfl⟩
  · rw [here]
    exact ⟨(s.core c).seq.stopped, _, _, _, rfl⟩
  · rw [here]
    rfl
  · rw [here]
    exact congrArg (· ++ [r]) alone
  · intro x hx ne
    rw [here]
    have other := (s.core c).queued_eng .msg x q rs op
    rw [if_neg ne] at other
    rw [← other]
    cases x <;> first | rfl | exact absurd rfl ne
  · exact fun d => s.core_modCore_keeps Core.id c _ rfl d
  · rw [there d ne]
    exact ⟨rfl, rfl, rfl⟩

/-- Message registers take no part in what has begun. -/
theorem State.MsgBegun.of_msg {u v : State} (h : s.MsgBegun u c q) (cores : ∀ d, ∃ m, v.core d = { u.core d with msg := m }) (parts : v.parts = u.parts)
    (armed : v.eth.armed = u.eth.armed) : s.MsgBegun v c q := by
  obtain ⟨m, hm⟩ := cores c
  refine ⟨?_, ?_, ?_, fun x hx ne => ?_, fun d => ?_, fun d ne => ?_, parts.trans h.parts, armed.trans h.armed⟩
  · rw [hm]
    exact h.seq
  · rw [hm]
    exact h.queue
  · rw [hm]
    exact h.running
  · rw [hm, ← h.engs x hx ne]
    cases x <;> rfl
  · obtain ⟨m', hm'⟩ := cores d
    rw [hm']
    exact h.ids d
  · obtain ⟨m', hm'⟩ := cores d
    rw [hm']
    exact h.others d ne

theorem State.MsgBegun.changeQueue {u : State} (h : s.MsgBegun u c q) (n : Nat) (f : MsgQueue → MsgQueue) (hn : n < 16) :
    s.MsgBegun (u.changeQueue c n f) c q := by
  have tells := u.changeQueue_tells c n f hn
  refine h.of_msg (fun d => ?_) ((congrArg State.parts tells.2).trans rfl) ((congrArg (fun x : State => x.eth.armed) tells.2).trans rfl)
  obtain ⟨l, hl⟩ := tells.1 d
  rw [hl, State.modQueue, State.core_modCore]
  split
  · next mine =>
    rw [mine.1]
    exact ⟨_, rfl⟩
  · exact ⟨_, rfl⟩

theorem State.MsgBegun.recordSkip {u : State} (h : s.MsgBegun u c q) (cause : Nat) (x : Bool) : s.MsgBegun (u.recordSkip c q cause x) c q := by
  obtain ⟨supp, budget, g, eq⟩ := State.recordSkip_recorded u c q cause x
  have here : (u.recordSkip c q cause x).core c = ((u.core c).recorded q cause x u.now).charged supp budget := by rw [eq]; simp
  have there (d : Nat) (ne : d ≠ c.val) : (u.recordSkip c q cause x).core d = u.core d := by rw [eq]; simp [ne]
  refine ⟨?_, ?_, ?_, fun y hy ne => ?_, fun d => ?_, fun d ne => ?_, ?_, ?_⟩
  · obtain ⟨stopped, sb, n, l, seq⟩ := h.seq
    rw [here]
    exact ⟨_, sb, n, l, congrArg (fun z : SeqState => { z with stopped := ((u.core c).err.stopOnErr && !(u.core c).id.bcast) || (u.core c).seq.stopped }) seq⟩
  · rw [here]
    exact h.queue
  · rw [here]
    exact h.running
  · rw [here, ← h.engs y hy ne]
    cases y <;> rfl
  · rw [← h.ids d, eq]
    exact u.core_modCore_keeps Core.id c _ rfl d
  · rw [there d ne]
    exact h.others d ne
  · rw [eq]
    exact h.parts
  · rw [eq]
    exact h.armed

/-- What the operation leaves as it completes. -/
structure State.MsgDone (s t : State) (c : CoreId) (q : QEntry) (err : Bool) : Prop where
  pc : (t.core c).seq.pc = (s.core c).seq.pc + 1
  gr : (t.core c).seq.gr = (s.core c).seq.gr
  cc : (t.core c).seq.cc = ccAfter (s.core c).seq.cc q.sigcc err
  queue : (t.core c).msgq.queue = []
  running : (t.core c).msgq.running = []
  rests : t.MsgRests c
  step : s.StepOf t c

theorem State.finish_core (u : State) (c : CoreId) (id : Nat) (sg : BitVec 8) (err : Bool) : (u.finish c .msg id sg err).core c =
    { u.core c with
      msgq := { (u.core c).msgq with running := (u.core c).msgq.running.filter (fun r => r.q.id != id) }
      seq := { (u.core c).seq.release id with cc := ccAfter ((u.core c).seq.release id).cc sg err } } := by
  rw [State.finish, State.signal_eq, State.modCore_modCore]
  simp [Core.modEng, Core.modSeq, ccAfter_eq]

theorem State.finish_other (u : State) (c : CoreId) (x : EngUnit) (id : Nat) (sg : BitVec 8) (err : Bool) (d : Nat) (ne : d ≠ c.val) :
    (u.finish c x id sg err).core d = u.core d := by
  rw [State.finish, State.signal_eq, State.modCore_modCore]
  simp [ne]

theorem State.MsgBegun.finish {u : State} (hr : s.Ready c) (h : s.MsgBegun u c q) (err : Bool) :
    s.MsgDone (u.finish c .msg q.id q.sigcc err) c q err := by
  obtain ⟨buf, nowait, -, queues⟩ := s.ready_empty c hr
  have runs : (s.core c).seq.ended = false := hr.1.2.2.2.1
  obtain ⟨stopped, sb, n, l, seq⟩ := h.seq
  obtain ⟨r, running, rq⟩ := h.running
  have here := u.finish_core c q.id q.sigcc err
  have emptied : (u.core c).msgq.running.filter (fun r => r.q.id != q.id) = [] := by
    rw [running]
    simp [rq]
  rw [seq, emptied] at here
  have left : ((u.finish c .msg q.id q.sigcc err).core c).msgq.queue = [] := by
    rw [here]
    exact h.queue
  have other (x : EngUnit) (hx : x ∈ engUnits) (ne : x ≠ .msg) : (((u.finish c .msg q.id q.sigcc err).core c).eng x).queue = [] := by
    refine Eq.trans ?_ (queues x hx)
    rw [here, ← h.engs x hx ne]
    cases x <;> rfl
  have rests : (u.finish c .msg q.id q.sigcc err).MsgRests c :=
    { rests := State.msgHead_empty left
      heads := fun p ps hp => nomatch hp.symm.trans left
      queues := other
      buf := here ▸ buf
      nowait := here ▸ nowait
      stall := here ▸ rfl }
  have step : s.StepOf (u.finish c .msg q.id q.sigcc err) c :=
    { ids := fun d => by
        rw [← h.ids d, State.finish, State.signal_eq, State.modCore_modCore]
        exact u.core_modCore_keeps Core.id c _ rfl d
      others := fun d ne => by
        rw [u.finish_other c _ _ _ _ d ne]
        exact h.others d ne
      runs := here ▸ runs
      parts := by
        rw [State.finish, State.signal_eq]
        exact h.parts
      armed := by
        rw [State.finish, State.signal_eq]
        exact h.armed }
  exact { pc := here ▸ rfl, gr := here ▸ rfl, cc := here ▸ rfl, queue := left, running := here ▸ rfl, rests := rests, step := step }

end

end Sys2Proof.Machine
end

section
/-! PROOFS. O20 QueueOperations: the refutation. -/

namespace Sys2Proof.Machine

set_option Elab.async false -- in turn: many waiting threads need much memory

/-- A core in independent mode whose scoreboard holds 65 entries, one more than it has places (R76), with an empty KT4 queue 0. -/
def crowdedCore : Core :=
  { id := { active := true }, seq := { sb := List.replicate 65 ⟨0, 0, 1, false⟩ }, msg := { queues := Vector.replicate 16 { kt4 := true } } }

/-- The state after reset with this core. -/
def crowdedState : State := { State.reset with cores := vmod State.reset.cores 0 (fun _ => crowdedCore) }

theorem crowdedState_ready : crowdedState.Ready 0 := by
  unfold State.Ready State.Takes State.Quiet State.Steady
  decide +kernel

/-- A MARK of queue 0 leaves it without a mark. -/
theorem mark_of_crowdedState : ((crowdedState.fetch 0 (Word128.withOp 0 7 4)).core 0).queue 0 = (crowdedState.core 0).queue 0 := by decide +kernel

/-- Refutes O20: no hypothesis bounds the scoreboard, and with more than 64 entries in it a MARK stalls at issue and marks nothing. -/
theorem not_queueOperations : ¬ Obligations.QueueOperations := by
  unfold Obligations.QueueOperations
  intro h
  obtain ⟨-, marks, -⟩ := h 0 0 crowdedState crowdedState_ready (by decide +kernel) (by decide +kernel)
  obtain ⟨kept, -⟩ := marks (by decide)
  obtain ⟨t, run, -, marked, -⟩ := kept (by decide +kernel)
  obtain rfl : crowdedState.fetch 0 (Word128.withOp 0 7 4) = t := Host.Outcome.next.inj run
  have valid := congrArg MsgQueue.markValid (mark_of_crowdedState.symm.trans marked)
  exact absurd valid (by decide +kernel)

end Sys2Proof.Machine
end

section
/-! PROOFS. What an operation stores in a core's SRAM, byte by byte (R230, R233). -/

namespace Sys2Proof.Machine

set_option Elab.async false -- in turn: many waiting threads need much memory

/-! ## The last of several writes to a byte -/

/-- The byte that the last of the writes `ws` to cover address x puts there; o where none covers it. -/
def storedFrom (o : Option Byte) (ws : List (Nat × List Byte)) (x : Nat) : Option Byte :=
  ws.foldl (fun o w => if w.1 ≤ x ∧ x < w.1 + w.2.length then w.2[x - w.1]? else o) o

def storedAt (ws : List (Nat × List Byte)) (x : Nat) : Option Byte := storedFrom none ws x

theorem storedFrom_append (o : Option Byte) (v w : List (Nat × List Byte)) (x : Nat) : storedFrom o (v ++ w) x = storedFrom (storedFrom o v x) w x :=
  List.foldl_append

theorem storedFrom_cons (o : Option Byte) (w : Nat × List Byte) (ws : List (Nat × List Byte)) (x : Nat) :
    storedFrom o (w :: ws) x = storedFrom (if w.1 ≤ x ∧ x < w.1 + w.2.length then w.2[x - w.1]? else o) ws x := rfl

/-- Where no write covers a byte, it stays. -/
theorem storedFrom_outside {o : Option Byte} {ws : List (Nat × List Byte)} {x : Nat} (out : ∀ w ∈ ws, ¬ (w.1 ≤ x ∧ x < w.1 + w.2.length)) :
    storedFrom o ws x = o := by
  induction ws generalizing o with
  | nil => rfl
  | cons w ws ih =>
    rw [storedFrom_cons, if_neg (out w (.head _))]
    exact ih (fun v hv => out v (.tail _ hv))

theorem storedFrom_or (o : Option Byte) (ws : List (Nat × List Byte)) (x : Nat) : storedFrom o ws x = (storedAt ws x).or o := by
  induction ws generalizing o with
  | nil => rfl
  | cons w ws ih =>
    rw [storedAt, storedFrom_cons, storedFrom_cons, ih, ih (if w.1 ≤ x ∧ x < w.1 + w.2.length then w.2[x - w.1]? else none), Option.or_assoc]
    congr 1
    split
    · next h =>
      rw [List.getElem?_eq_getElem (by omega)]
      rfl
    · rfl

theorem storedAt_append (v w : List (Nat × List Byte)) (x : Nat) : storedAt (v ++ w) x = (storedAt w x).or (storedAt v x) := by
  rw [storedAt, storedFrom_append, storedFrom_or]
  rfl

theorem storedAt_cons (w : Nat × List Byte) (ws : List (Nat × List Byte)) (x : Nat) :
    storedAt (w :: ws) x = (storedAt ws x).or (if w.1 ≤ x ∧ x < w.1 + w.2.length then w.2[x - w.1]? else none) := by
  rw [storedAt, storedFrom_cons, storedFrom_or]

/-- Where every write that covers a byte puts the same there, that is what it holds. -/
theorem storedAt_of_agree {ws : List (Nat × List Byte)} {x : Nat} {b : Byte} (agree : ∀ w ∈ ws, w.1 ≤ x ∧ x < w.1 + w.2.length → w.2[x - w.1]? = some b)
    (some_ : ∃ w ∈ ws, w.1 ≤ x ∧ x < w.1 + w.2.length) : storedAt ws x = some b := by
  induction ws with
  | nil =>
    obtain ⟨w, hw, -⟩ := some_
    exact nomatch hw
  | cons w ws ih =>
    rw [storedAt_cons]
    by_cases later : ∃ v ∈ ws, v.1 ≤ x ∧ x < v.1 + v.2.length
    · rw [ih (fun v hv => agree v (.tail _ hv)) later]
      rfl
    · have here : w.1 ≤ x ∧ x < w.1 + w.2.length := by
        obtain ⟨v, hv, covers⟩ := some_
        rcases List.mem_cons.mp hv with rfl | tail
        · exact covers
        · exact absurd ⟨v, tail, covers⟩ later
      rw [if_pos here, agree w (.head _) here, show storedAt ws x = none from storedFrom_outside (fun v hv covers => later ⟨v, hv, covers⟩)]
      rfl

/-- The memory after writes, in order. -/
def Mem.puts (m : Mem) (ws : List (Nat × List Byte)) : Mem := ws.foldl (fun m w => m.writeN 0 w.1 w.2) m

theorem Mem.puts_wf (m : Mem) (ws : List (Nat × List Byte)) (h : m.wf 0 = true) : (m.puts ws).wf 0 = true := by
  induction ws generalizing m with
  | nil => exact h
  | cons w ws ih => exact ih _ (Mem.writeN_wf w.2 m 0 w.1 h)

theorem Mem.read_puts (m : Mem) (ws : List (Nat × List Byte)) (x : Nat) (h : m.wf 0 = true) : (m.puts ws).read 0 x = (storedAt ws x).getD (m.read 0 x) := by
  induction ws generalizing m with
  | nil => rfl
  | cons w ws ih =>
    rw [storedAt_cons, show m.puts (w :: ws) = (m.writeN 0 w.1 w.2).puts ws from rfl, ih _ (Mem.writeN_wf w.2 m 0 w.1 h), Mem.read_writeN _ _ _ _ _ h]
    cases storedAt ws x with
    | some b => rfl
    | none =>
      dsimp only [Option.none_or, Option.getD_none]
      split
      · next inside =>
        rw [List.getElem?_eq_getElem (by omega), List.getD_eq_getElem?_getD, List.getElem?_eq_getElem (by omega)]
        rfl
      · rfl

/-! ## Writes laid over lines, and gathered into runs -/

theorem storedAt_one (a : Nat) (bs : List Byte) (x : Nat) : storedAt [(a, bs)] x = if a ≤ x then bs[x - a]? else none := by
  rw [storedAt_cons]
  show (if a ≤ x ∧ x < a + bs.length then bs[x - a]? else none) = _
  by_cases low : a ≤ x
  · rw [if_pos low]
    split
    · rfl
    · rw [List.getElem?_eq_none (by omega)]
  · rw [if_neg low, if_neg (fun h => low h.1)]

theorem storedAt_cons' (a : Nat) (bs : List Byte) (ws : List (Nat × List Byte)) (x : Nat) :
    storedAt ((a, bs) :: ws) x = (storedAt ws x).or (if a ≤ x then bs[x - a]? else none) :=
  (storedAt_append [(a, bs)] ws x).trans (congrArg _ (storedAt_one a bs x))

theorem storedAt_givenRuns (l : List (Option Byte)) (a x : Nat) : storedAt (givenRuns a l) x = if a ≤ x then (l[x - a]?).join else none := by
  induction l generalizing a with
  | nil => simp [givenRuns, storedAt, storedFrom]
  | cons o r ih =>
    have later (out : x ≠ a) : (if a ≤ x then ((o :: r)[x - a]?).join else none) = if a + 1 ≤ x then (r[x - (a + 1)]?).join else none := by
      by_cases low : a + 1 ≤ x
      · rw [if_pos low, if_pos (by omega), show x - a = (x - (a + 1)) + 1 from by omega, List.getElem?_cons_succ]
      · rw [if_neg low, if_neg (by omega)]
    cases o with
    | none =>
      rw [givenRuns, ih]
      by_cases here : x = a
      · subst here
        simp
      · exact (later here).symm
    | some b =>
      have rest := ih (a + 1)
      rw [givenRuns]
      by_cases here : x = a
      · subst here
        rw [if_neg (by omega)] at rest
        rw [if_pos (le_refl x), Nat.sub_self]
        revert rest
        cases givenRuns (x + 1) r with
        | nil => exact fun _ => (storedAt_one x [b] x).trans (by simp)
        | cons w ws =>
          intro rest
          dsimp only
          split
          · rw [storedAt_cons, Option.or_eq_none_iff] at rest
            rw [storedAt_cons', rest.1]
            simp
          · rw [storedAt_cons', rest]
            simp
      · rw [later here, ← rest]
        cases givenRuns (a + 1) r with
        | nil =>
          rw [storedAt_one]
          split
          · rw [List.getElem?_eq_none (by simp; omega)]
            rfl
          · rfl
        | cons w ws =>
          obtain ⟨y, bs⟩ := w
          dsimp only
          split
          · next next_ =>
            subst next_
            rw [storedAt_cons', storedAt_cons']
            by_cases low : a + 1 ≤ x
            · rw [if_pos low, if_pos (by omega), show x - a = (x - (a + 1)) + 1 from by omega, List.getElem?_cons_succ]
            · rw [if_neg low, if_neg (by omega)]
          · rw [storedAt_cons' a]
            have none_ : (if a ≤ x then [b][x - a]? else none) = none := by
              split
              · exact List.getElem?_eq_none (by simp; omega)
              · rfl
            rw [none_, Option.or_none]

/-- A write cut at the lines it touches stores what it stored whole. -/
theorem storedAt_cutLines (n a : Nat) (bs : List Byte) (x : Nat) (enough : bs.length < n) : storedAt (cutLines n a bs) x = storedAt [(a, bs)] x := by
  induction n generalizing a bs with
  | zero => exact absurd enough (Nat.not_lt_zero _)
  | succ n ih =>
    cases bs with
    | nil => rw [storedAt_one]; simp [cutLines, storedAt, storedFrom]
    | cons b bs =>
      have pos : 0 < 64 - a % 64 := by omega
      have cut : cutLines (n + 1) a (b :: bs) =
          (a, (b :: bs).take (64 - a % 64)) :: cutLines n (a + (64 - a % 64)) ((b :: bs).drop (64 - a % 64)) := rfl
      rw [cut, storedAt_cons', ih _ _ (by rw [List.length_drop]; simp only [List.length_cons] at enough ⊢; omega), storedAt_one, storedAt_one]
      generalize 64 - a % 64 = k at pos
      by_cases high : a + k ≤ x
      · rw [if_pos high, if_pos (show a ≤ x by omega), if_pos (show a ≤ x by omega), List.getElem?_drop, List.getElem?_take,
          if_neg (by omega), show k + (x - (a + k)) = x - a from by omega, Option.or_none]
      · rw [if_neg high, Option.none_or]
        split
        · rw [List.getElem?_take, if_pos (by omega)]
        · rfl

/-- Every piece of a write lies within one line. -/
theorem cutLines_within (n a : Nat) (bs : List Byte) : ∀ p ∈ cutLines n a bs, p.1 % 64 + p.2.length ≤ 64 ∧ a ≤ p.1 := by
  induction n generalizing a bs with
  | zero => exact fun p hp => nomatch hp
  | succ n ih =>
    cases bs with
    | nil => exact fun p hp => nomatch hp
    | cons b bs =>
      intro p hp
      rcases List.mem_cons.mp hp with rfl | later
      · refine ⟨?_, le_refl a⟩
        rw [List.length_take]
        omega
      · obtain ⟨fits, high⟩ := ih _ _ p later
        exact ⟨fits, by omega⟩

/-! ## Lines of granules -/

section
variable {α : Type}

theorem mem_tabSet {t : List (Nat × α)} {k : Nat} {v : α} {e : Nat × α} (h : e ∈ tabSet t k v) : e = (k, v) ∨ e ∈ t := by
  induction t with
  | nil => exact .inl (List.mem_singleton.mp h)
  | cons f t ih =>
    obtain ⟨k', v'⟩ := f
    unfold tabSet at h
    split at h
    · rcases List.mem_cons.mp h with rfl | h
      · exact .inl rfl
      · exact .inr h
    · split at h
      · rcases List.mem_cons.mp h with rfl | h
        · exact .inl rfl
        · exact .inr (.tail _ h)
      · rcases List.mem_cons.mp h with rfl | h
        · exact .inr (.head _)
        · exact (ih h).imp_right (.tail _)

theorem tabSet_sorted {t : List (Nat × α)} (sorted : t.Pairwise (fun e f => e.1 < f.1)) (k : Nat) (v : α) :
    (tabSet t k v).Pairwise (fun e f => e.1 < f.1) := by
  induction t with
  | nil => exact List.pairwise_singleton _ _
  | cons f t ih =>
    obtain ⟨k', v'⟩ := f
    obtain ⟨first, rest⟩ := List.pairwise_cons.mp sorted
    unfold tabSet
    split
    · next before =>
      refine List.pairwise_cons.mpr ⟨fun e he => ?_, sorted⟩
      rcases List.mem_cons.mp he with rfl | he
      · exact before
      · exact Nat.lt_trans before (first e he)
    · next notBefore =>
      split
      · next same =>
        subst same
        exact List.pairwise_cons.mpr ⟨first, rest⟩
      · next other =>
        refine List.pairwise_cons.mpr ⟨fun e he => ?_, ih rest⟩
        rcases mem_tabSet he with rfl | he
        · dsimp only at notBefore ⊢
          omega
        · exact first e he

theorem tabGet_of_not_mem {t : List (Nat × α)} {k : Nat} (d : α) (out : ∀ e ∈ t, e.1 ≠ k) : tabGet t k d = d := by
  induction t with
  | nil => rfl
  | cons f t ih =>
    obtain ⟨k', v'⟩ := f
    unfold tabGet
    rw [if_neg (out _ (.head _))]
    exact ih (fun e he => out e (.tail _ he))

end

/-- What a table of lines holds of a byte. -/
def layerAt (t : List (Nat × List (Option Byte))) (x : Nat) : Option Byte := ((tabGet t (x / 64) (List.replicate 64 none))[x % 64]?).join

theorem getElem?_layOver {old : List (Option Byte)} {i : Nat} {bs : List Byte} (fits : i + bs.length ≤ old.length) (j : Nat) :
    (layOver old i bs)[j]? = if i ≤ j ∧ j < i + bs.length then (bs[j - i]?).map some else old[j]? := by
  unfold layOver
  have front : (old.take i).length = i := by
    rw [List.length_take]
    omega
  rw [List.append_assoc]
  by_cases low : j < i
  · rw [List.getElem?_append_left (by omega), List.getElem?_take, if_pos low, if_neg (by omega)]
  · rw [List.getElem?_append_right (by omega), front]
    by_cases high : j < i + bs.length
    · rw [List.getElem?_append_left (by rw [List.length_map]; omega), List.getElem?_map, if_pos (by omega)]
    · rw [List.getElem?_append_right (by rw [List.length_map]; omega), List.length_map, List.getElem?_drop, if_neg (by omega)]
      congr 1
      omega

/-- A table of whole lines in rising order. -/
structure Lines (t : List (Nat × List (Option Byte))) : Prop where
  sorted : t.Pairwise (fun e f => e.1 < f.1)
  whole : ∀ k, (tabGet t k (List.replicate 64 none)).length = 64

/-- One piece laid over its line. -/
def layPiece (t : List (Nat × List (Option Byte))) (p : Nat × List Byte) : List (Nat × List (Option Byte)) :=
  tabSet t (p.1 / 64) (layOver (tabGet t (p.1 / 64) (List.replicate 64 none)) (p.1 % 64) p.2)

theorem Lines.layPiece {t : List (Nat × List (Option Byte))} (h : Lines t) {p : Nat × List Byte} (fits : p.1 % 64 + p.2.length ≤ 64) :
    Lines (layPiece t p) := by
  refine ⟨tabSet_sorted h.sorted _ _, fun k => ?_⟩
  rw [Sys2Proof.Machine.layPiece, tabGet_tabSet]
  split
  · rw [layOver, List.length_append, List.length_append, List.length_take, List.length_map, List.length_drop, h.whole]
    omega
  · exact h.whole k

theorem layerAt_layPiece {t : List (Nat × List (Option Byte))} (h : Lines t) {p : Nat × List Byte} (fits : p.1 % 64 + p.2.length ≤ 64) (x : Nat) :
    layerAt (layPiece t p) x = if p.1 ≤ x ∧ x < p.1 + p.2.length then p.2[x - p.1]? else layerAt t x := by
  unfold layerAt layPiece
  rw [tabGet_tabSet]
  by_cases line : p.1 / 64 = x / 64
  · rw [if_pos line, getElem?_layOver (by rw [h.whole]; exact fits), line]
    by_cases inside : p.1 ≤ x ∧ x < p.1 + p.2.length
    · rw [if_pos (by omega), if_pos inside, show x % 64 - p.1 % 64 = x - p.1 from by omega]
      cases p.2[x - p.1]? <;> rfl
    · rw [if_neg (by omega), if_neg inside]
  · rw [if_neg line, if_neg (by omega)]

theorem layPieces_lines {ps : List (Nat × List Byte)} {t : List (Nat × List (Option Byte))} (h : Lines t)
    (fits : ∀ p ∈ ps, p.1 % 64 + p.2.length ≤ 64) :
    Lines (ps.foldl layPiece t) ∧ ∀ x, layerAt (ps.foldl layPiece t) x = (storedAt ps x).or (layerAt t x) := by
  induction ps generalizing t with
  | nil => exact ⟨h, fun _ => rfl⟩
  | cons p ps ih =>
    obtain ⟨lines, at_⟩ := ih (h.layPiece (fits p (.head _))) (fun q hq => fits q (.tail _ hq))
    refine ⟨lines, fun x => (at_ x).trans ?_⟩
    rw [layerAt_layPiece h (fits p (.head _)), storedAt_cons, Option.or_assoc]
    congr 1
    split
    · rw [List.getElem?_eq_getElem (by omega)]
      rfl
    · rfl

theorem storedAt_flatMap_cutLines (ws : List (Nat × List Byte)) (x : Nat) :
    storedAt (ws.flatMap (fun w => cutLines (w.2.length + 1) w.1 w.2)) x = storedAt ws x := by
  induction ws with
  | nil => rfl
  | cons w ws ih =>
    rw [List.flatMap_cons, storedAt_append, ih, storedAt_cutLines _ _ _ _ (Nat.lt_succ_self _)]
    exact (storedAt_append [w] ws x).symm

theorem storedAt_lineRuns {t : List (Nat × List (Option Byte))} (sorted : t.Pairwise (fun e f => e.1 < f.1))
    (whole : ∀ k, (tabGet t k (List.replicate 64 none)).length = 64) (x : Nat) :
    storedAt (t.flatMap (fun e => givenRuns (64 * e.1) e.2)) x = layerAt t x := by
  have nowhere (i : Nat) : ((List.replicate 64 (none : Option Byte))[i]?).join = none := by
    rw [List.getElem?_replicate]
    split <;> rfl
  induction t with
  | nil => exact (nowhere _).symm
  | cons e t ih =>
    obtain ⟨k, l⟩ := e
    obtain ⟨first, rest⟩ := List.pairwise_cons.mp sorted
    have missing : tabGet t k (List.replicate 64 none) = List.replicate 64 none := tabGet_of_not_mem _ (fun e he => (first e he).ne')
    have whole' (j : Nat) : (tabGet t j (List.replicate 64 none)).length = 64 := by
      by_cases here : k = j
      · rw [← here, missing, List.length_replicate]
      · have len := whole j
        rw [tabGet, if_neg here] at len
        exact len
    have length : l.length = 64 := by
      have len := whole k
      rw [tabGet, if_pos rfl] at len
      exact len
    rw [List.flatMap_cons, storedAt_append, ih rest whole', storedAt_givenRuns]
    unfold layerAt
    rw [tabGet]
    by_cases here : k = x / 64
    · rw [if_pos here, ← here, missing, nowhere, if_pos (by omega), show x - 64 * k = x % 64 from by omega]
      rfl
    · rw [if_neg here]
      have out : (if 64 * k ≤ x then (l[x - 64 * k]?).join else none) = none := by
        split
        · rw [List.getElem?_eq_none (by omega)]
          rfl
        · rfl
      rw [out, Option.or_none]

/-- The granules of writes, written run by run, store what the writes store one after the other. -/
theorem storedAt_granuleRuns (ws : List (Nat × List Byte)) (x : Nat) : storedAt (granuleRuns ws) x = storedAt ws x := by
  have empty : Lines [] := ⟨List.Pairwise.nil, fun _ => List.length_replicate⟩
  have fits : ∀ p ∈ ws.flatMap (fun w => cutLines (w.2.length + 1) w.1 w.2), p.1 % 64 + p.2.length ≤ 64 := fun p hp => by
    obtain ⟨w, -, hp⟩ := List.mem_flatMap.mp hp
    exact (cutLines_within _ _ _ p hp).1
  obtain ⟨lines, at_⟩ := layPieces_lines empty fits
  have nothing : layerAt [] x = none := by
    unfold layerAt tabGet
    rw [List.getElem?_replicate]
    split <;> rfl
  refine (storedAt_lineRuns lines.sorted lines.whole x).trans ((at_ x).trans ?_)
  rw [nothing, Option.or_none, storedAt_flatMap_cutLines]

/-! ## Reads and writes outside HBM -/

theorem isHbm_false {a : Nat} : isHbm a = false ↔ 0x10000000000 ≤ a := by
  unfold isHbm
  rw [decide_eq_false_iff_not]
  exact Nat.not_lt

theorem isHbm_up {a b : Nat} (h : isHbm a = false) (le : a ≤ b) : isHbm b = false := by
  rw [isHbm_false] at h ⊢
  omega

theorem Mem.writeN_append (m : Mem) (d : Byte) (a : Nat) (xs ys : List Byte) :
    m.writeN d a (xs ++ ys) = (m.writeN d a xs).writeN d (a + xs.length) ys := by
  induction xs generalizing m a with
  | nil => rfl
  | cons x xs ih =>
    rw [List.cons_append, Mem.writeN, ih, Mem.writeN, List.length_cons]
    congr 1
    omega

/-- Writes outside HBM, cut at lines, are one write. -/
theorem MemSys.writeBytesL_sram (ms : MemSys) {a : Nat} (bs : List Byte) (hint : Nat) (out : isHbm a = false) :
    ms.writeBytesL a bs hint = (ms.put a bs, []) := by
  have cut (n : Nat) : ∀ (ms : MemSys) (a : Nat) (bs : List Byte), isHbm a = false → bs.length < n →
      (cutLines n a bs).foldl (fun acc c =>
        let r := acc.1.writeLine c.1 c.2 hint
        (r.1, if r.2 then acc.2 ++ [c.1 / 64] else acc.2)) (ms, ([] : List Nat)) = (ms.put a bs, []) := by
    induction n with
    | zero => exact fun _ _ _ _ short => absurd short (Nat.not_lt_zero _)
    | succ n ih =>
      intro ms a bs out short
      cases bs with
      | nil => rfl
      | cons b bs =>
        have cut : cutLines (n + 1) a (b :: bs) =
          (a, (b :: bs).take (64 - a % 64)) :: cutLines n (a + (64 - a % 64)) ((b :: bs).drop (64 - a % 64)) := rfl
        have line (x : List Byte) : ms.writeLine a x hint = (ms.put a x, false) := if_neg (Bool.eq_false_iff.mp out)
        rw [cut, List.foldl_cons]
        dsimp only
        rw [line]
        have rest := ih (ms.put a ((b :: bs).take (64 - a % 64))) (a + (64 - a % 64)) ((b :: bs).drop (64 - a % 64)) (isHbm_up out (by omega))
          (by rw [List.length_drop]; simp only [List.length_cons] at short ⊢; omega)
        refine rest.trans ?_
        congr 1
        unfold MemSys.put
        dsimp only
        congr 1
        have joined := ms.mem.writeN_append 0 a ((b :: bs).take (64 - a % 64)) ((b :: bs).drop (64 - a % 64))
        rw [List.take_append_drop, List.length_take] at joined
        rw [joined]
        by_cases long : 64 - a % 64 ≤ (b :: bs).length
        · rw [Nat.min_eq_left long]
        · rw [List.drop_eq_nil_of_le (by omega)]
          rfl
  exact cut (bs.length + 1) ms a bs out (Nat.lt_succ_self _)

theorem MemSys.storeBytes_sram (ms : MemSys) (ft : BitVec 64) {a : Nat} (bs : List Byte) (hint : Nat) (out : isHbm a = false) :
    ms.storeBytes ft a bs hint = (ms.put a bs, false, []) := by
  have none_ : ((cutLines (bs.length + 1) a bs).filter (fun c => c.2.length != 64 && isHbm c.1
      && !(ms.softOf (c.1 / 64)).isEmpty && !ms.softBad (c.1 / 64) && (ms.residentFrame (ms.loc c.1)).isNone)) = [] := by
    rw [List.filter_eq_nil_iff]
    intro c hc
    rw [isHbm_up out (cutLines_within _ _ _ c hc).2]
    simp
  unfold MemSys.storeBytes
  rw [none_]
  simp only [List.map_nil, List.foldl_nil]
  rw [ms.writeBytesL_sram bs hint out]
  rfl

theorem State.homeWrite_sram (s : State) (own : Option Nat) {a : Nat} (bs : List Byte) (hint : Nat) (out : isHbm a = false) :
    s.homeWrite own a bs hint = ({ s with ms := s.ms.put a bs }, false) := by
  unfold State.homeWrite
  rw [s.ms.storeBytes_sram s.now bs hint out]
  exact if_neg (Bool.eq_false_iff.mp out)

/-- The memory system after writes outside HBM. -/
def MemSys.puts (ms : MemSys) (ws : List (Nat × List Byte)) : MemSys := { ms with mem := ms.mem.puts ws }

/-- The state after writes outside HBM. -/
def State.stored (s : State) (ws : List (Nat × List Byte)) : State := { s with ms := s.ms.puts (granuleRuns ws) }

theorem givenRuns_above (l : List (Option Byte)) (a : Nat) : ∀ r ∈ givenRuns a l, a ≤ r.1 := by
  induction l generalizing a with
  | nil => exact fun r hr => nomatch hr
  | cons o l ih =>
    have tail := ih (a + 1)
    cases o with
    | none => exact fun r hr => Nat.le_of_succ_le (tail r hr)
    | some b =>
      rw [givenRuns]
      revert tail
      cases givenRuns (a + 1) l with
      | nil =>
        intro _ r hr
        rw [List.mem_singleton.mp hr]
      | cons w ws =>
        intro tail r hr
        dsimp only at hr
        split at hr
        · rcases List.mem_cons.mp hr with rfl | hr
          · exact le_refl a
          · exact Nat.le_of_succ_le (tail r (.tail _ hr))
        · rcases List.mem_cons.mp hr with rfl | hr
          · exact le_refl a
          · exact Nat.le_of_succ_le (tail r hr)

/-- A table of lines has the lines that pieces were laid over. -/
theorem layPieces_keys {ps : List (Nat × List Byte)} {t : List (Nat × List (Option Byte))} {p : Nat → Prop} (old : ∀ e ∈ t, p e.1)
    (new : ∀ x ∈ ps, p (x.1 / 64)) : ∀ e ∈ ps.foldl layPiece t, p e.1 := by
  induction ps generalizing t with
  | nil => exact old
  | cons x ps ih =>
    refine ih (fun e he => ?_) (fun y hy => new y (.tail _ hy))
    rcases mem_tabSet he with rfl | he
    · exact new x (.head _)
    · exact old e he

theorem granuleRuns_sram {ws : List (Nat × List Byte)} (out : ∀ w ∈ ws, isHbm w.1 = false) : ∀ r ∈ granuleRuns ws, isHbm r.1 = false := by
  intro r hr
  obtain ⟨e, he, hr⟩ := List.mem_flatMap.mp hr
  have line : isHbm (64 * e.1) = false := by
    refine layPieces_keys (p := fun k => isHbm (64 * k) = false) (t := []) (fun e he => nomatch he) (fun x hx => ?_) e he
    obtain ⟨w, hw, hx⟩ := List.mem_flatMap.mp hx
    have up := isHbm_up (out w hw) (cutLines_within _ _ _ x hx).2
    rw [isHbm_false] at up ⊢
    omega
  exact isHbm_up line (givenRuns_above _ _ r hr)

/-- Results outside HBM are stored, and nothing observes them. -/
theorem State.homeWrites_sram (s : State) (own : Option Nat) (ws : List (Nat × List Byte)) (hint : Nat) (out : ∀ w ∈ ws, isHbm w.1 = false) :
    s.homeWrites own ws hint = (s.stored ws, false) := by
  have runs (rs : List (Nat × List Byte)) (out : ∀ r ∈ rs, isHbm r.1 = false) (s : State) :
      rs.foldl (fun acc w => let r := acc.1.homeWrite own w.1 w.2 hint; (r.1, acc.2 || r.2)) (s, false) = ({ s with ms := s.ms.puts rs }, false) := by
    induction rs generalizing s with
    | nil => rfl
    | cons r rs ih =>
      rw [List.foldl_cons]
      dsimp only
      rw [s.homeWrite_sram own r.2 hint (out r (.head _))]
      exact ih (fun q hq => out q (.tail _ hq)) _
  exact runs (granuleRuns ws) (granuleRuns_sram out) s

theorem State.stored_byte (s : State) (ws : List (Nat × List Byte)) (x : Nat) (wf : s.ms.mem.wf 0 = true) :
    (s.stored ws).ms.byte x = (storedAt ws x).getD (s.ms.byte x) := by
  show (s.ms.mem.puts (granuleRuns ws)).read 0 x = _
  rw [Mem.read_puts _ _ _ wf, storedAt_granuleRuns]
  rfl

/-- The lines of a range outside HBM are outside HBM. -/
theorem linesOf_sram {a : Nat} (n : Nat) (out : isHbm a = false) : ∀ l ∈ linesOf a n, isHbm (64 * l) = false := by
  intro l hl
  unfold linesOf at hl
  split at hl
  · exact nomatch hl
  · obtain ⟨i, -, rfl⟩ := List.mem_map.mp hl
    rw [isHbm_false] at out ⊢
    omega

theorem MemSys.touchReads_sram (ms : MemSys) (ft : BitVec 64) {lines : List Nat} (hint : Nat) (out : ∀ l ∈ lines, isHbm (64 * l) = false) :
    ms.touchReads ft lines hint = (ms, []) := by
  unfold MemSys.touchReads
  refine List.foldlRecOn (motive := fun acc => acc = (ms, [])) lines _ rfl (fun acc same l hl => ?_)
  rw [if_neg (Bool.eq_false_iff.mp (out l hl))]
  exact same

/-- Reads outside HBM leave no trace. -/
theorem State.noteHinted_sram (s : State) (rs : List (Nat × Nat × Nat)) (out : ∀ r ∈ rs, isHbm r.1 = false) : s.noteHinted rs = s := by
  refine State.foldl_stays s rs _ (fun r hr => ?_)
  unfold State.noteReads
  rw [s.ms.touchReads_sram s.now r.2.2 (linesOf_sram r.2.1 (out r hr))]
  rfl

theorem MemSys.badRange_sram (ms : MemSys) {a : Nat} (n : Nat) (out : isHbm a = false) : ms.badRange a n = false := by
  unfold MemSys.badRange
  rw [List.any_eq_false]
  intro l hl
  rw [MemSys.badLine, linesOf_sram n out l hl]
  simp

theorem inSram_sram {c a n : Nat} (h : inSram c a n = true) : isHbm a = false := by
  have low := (of_decide_eq_true h).1
  unfold sramBase at low
  rw [isHbm_false]
  omega

end Sys2Proof.Machine
end

section
/-! PROOFS. O21 MessagesInAndOut: RECV. -/

namespace Sys2Proof.Machine

set_option Elab.async false -- in turn: many waiting threads need much memory

/-! ## Checks at issue -/

/-- Where no cause applies, none of the checks fails. -/
theorem lowestOf_eq_zero {cs : List (Nat × Bool)} (nonzero : ∀ x ∈ cs, x.1 ≠ 0) (none_ : lowestOf cs = 0) : ∀ x ∈ cs, x.2 = false := by
  have fold (cs : List (Nat × Bool)) : ∀ m, (∀ x ∈ cs, x.1 ≠ 0) →
      cs.foldl (fun m x => if x.2 && (m == 0 || decide (x.1 < m)) then x.1 else m) m = 0 → m = 0 ∧ ∀ x ∈ cs, x.2 = false := by
    induction cs with
    | nil => exact fun m _ zero => ⟨zero, fun x hx => nomatch hx⟩
    | cons y cs ih =>
      intro m nonzero zero
      obtain ⟨first, rest⟩ := ih _ (fun x hx => nonzero x (.tail _ hx)) zero
      have here := nonzero y (.head _)
      dsimp only at first
      split at first
      · exact absurd first here
      · next stays =>
        subst first
        have passes : y.2 = false := by simpa using stays
        refine ⟨rfl, fun x hx => ?_⟩
        rcases List.mem_cons.mp hx with rfl | hx
        · exact passes
        · exact rest x hx
  exact (fold cs 0 nonzero none_).2

/-- An operand that passes the checks of a core's own SRAM lies in it. -/
theorem State.operandCauses_ownSram {s : State} {c : Nat} {e : Ea} {align n : Nat} {more : List (Nat × Bool)} (nonzero : ∀ x ∈ more, x.1 ≠ 0)
    (passes : lowestOf (s.operandCauses c e align .ownSram n ++ more) = 0) : inSram c e.nat n = true ∧ ∀ x ∈ more, x.2 = false := by
  have all := lowestOf_eq_zero (fun x hx => by
    rcases List.mem_append.mp hx with hx | hx
    · simp only [State.operandCauses, List.mem_cons, List.not_mem_nil, or_false] at hx
      rcases hx with rfl | rfl | rfl <;> exact Nat.succ_ne_zero _
    · exact nonzero x hx) passes
  refine ⟨?_, fun x hx => all x (List.mem_append_right _ hx)⟩
  have place := all (0x11, !e.inRange || (s.isOwnDev e.dev && !s.placeOk c .ownSram e.nat n)) (List.mem_append_left _ (.tail _ (.head _)))
  have own := all (0x12, !s.isOwnDev e.dev) (List.mem_append_left _ (.tail _ (.tail _ (.head _))))
  simp only [Bool.not_eq_false'] at own
  simp only [own, Bool.true_and, Bool.or_eq_false_iff, Bool.not_eq_false'] at place
  exact place.2

/-! ## The message that a RECV takes -/

/-- Stored bytes read back where every write that covers them agrees. -/
theorem State.stored_bytes {s : State} {ws : List (Nat × List Byte)} {a : Nat} {bs : List Byte} (wf : s.ms.mem.wf 0 = true)
    (at_ : ∀ i, i < bs.length → storedAt ws (a + i) = bs[i]?) : (s.stored ws).ms.bytes a bs.length = bs := by
  refine Mem.readN_eq_of_getD (fun i hi => (s.stored_byte ws (a + i) wf).trans ?_)
  rw [at_ i hi, List.getElem?_eq_getElem hi, List.getD_eq_getElem _ _ hi]
  rfl

/-- The entries of a message in their places, each beside its sideband. -/
structure InPlace (m : List MsgEntry) : Prop where
  at_ : ∀ (k : Nat) (e : MsgEntry), m[k]? = some e → e.pos.toNat = k

theorem InPlace.of_map {m : List MsgEntry} (h : ∀ k, k < m.length → (m.map (fun e => e.pos.toNat)).getD k 0 = k) : InPlace m := by
  refine ⟨fun k e here => ?_⟩
  obtain ⟨lt, rfl⟩ := List.getElem?_eq_some_iff.mp here
  have := h k lt
  rwa [List.getD_eq_getElem?_getD, List.getElem?_map, here] at this

theorem mem_recvWrites {dst : Nat} {m : List MsgEntry} {w : Nat × List Byte} (h : w ∈ recvWrites dst m) :
    ∃ e ∈ m, w = (dst + 64 * e.pos.toNat, leBytes 64 e.payload.toNat) ∨ w = (dst + 512 + 8 * e.pos.toNat, leBytes 8 e.sideband) := by
  obtain ⟨e, he, hw⟩ := List.mem_flatMap.mp h
  refine ⟨e, he, ?_⟩
  simpa using hw

theorem recvWrites_within {dst : Nat} {m : List MsgEntry} : ∀ w ∈ recvWrites dst m, dst ≤ w.1 ∧ w.1 + w.2.length ≤ dst + 576 := by
  intro w hw
  obtain ⟨e, -, rfl | rfl⟩ := mem_recvWrites hw
  · have := e.pos.isLt
    simp only [length_leBytes]
    omega
  · have := e.pos.isLt
    simp only [length_leBytes]
    omega

theorem InPlace.unique {m : List MsgEntry} (h : InPlace m) {k : Nat} {e f : MsgEntry} (he : m[k]? = some e) (hf : f ∈ m) (same : f.pos.toNat = k) : f = e := by
  obtain ⟨j, hj⟩ := List.mem_iff_getElem?.mp hf
  have := h.at_ j f hj
  rw [this.symm.trans same, he] at hj
  exact (Option.some.inj hj).symm

/-- The payload of an entry, and its sideband, are what is stored at their places. -/
theorem InPlace.stored {m : List MsgEntry} (h : InPlace m) (dst : Nat) {k : Nat} {e : MsgEntry} (he : m[k]? = some e) :
    (∀ i, i < 64 → storedAt (recvWrites dst m) (dst + 64 * k + i) = (leBytes 64 e.payload.toNat)[i]?) ∧
    (∀ i, i < 8 → storedAt (recvWrites dst m) (dst + 512 + 8 * k + i) = (leBytes 8 e.sideband)[i]?) := by
  have pos := h.at_ k e he
  have mem : e ∈ m := List.mem_of_getElem? he
  have low := e.pos.isLt
  constructor
  · intro i hi
    rw [List.getElem?_eq_getElem (by rw [length_leBytes]; exact hi)]
    refine storedAt_of_agree (fun w hw covers => ?_) ⟨(dst + 64 * e.pos.toNat, leBytes 64 e.payload.toNat), List.mem_flatMap.mpr ⟨e, mem, .head _⟩, ?_⟩
    · obtain ⟨f, hf, rfl | rfl⟩ := mem_recvWrites hw
      · simp only [length_leBytes] at covers
        obtain rfl := h.unique he hf (by omega)
        rw [show dst + 64 * k + i - (dst + 64 * f.pos.toNat) = i from by omega, List.getElem?_eq_getElem]
      · simp only [length_leBytes] at covers
        omega
    · simp only [length_leBytes]
      omega
  · intro i hi
    rw [List.getElem?_eq_getElem (by rw [length_leBytes]; exact hi)]
    refine storedAt_of_agree (fun w hw covers => ?_) ⟨(dst + 512 + 8 * e.pos.toNat, leBytes 8 e.sideband), List.mem_flatMap.mpr ⟨e, mem, .tail _ (.head _)⟩, ?_⟩
    · obtain ⟨f, hf, rfl | rfl⟩ := mem_recvWrites hw
      · have := f.pos.isLt
        simp only [length_leBytes] at covers
        omega
      · simp only [length_leBytes] at covers
        obtain rfl := h.unique he hf (by omega)
        rw [show dst + 512 + 8 * k + i - (dst + 512 + 8 * f.pos.toNat) = i from by omega, List.getElem?_eq_getElem]
    · simp only [length_leBytes]
      omega

end Sys2Proof.Machine
end

section
/-! PROOFS. O21 MessagesInAndOut: RECV on a ready core. -/

namespace Sys2Proof.Machine

set_option Elab.async false -- in turn: many waiting threads need much memory

theorem State.finish_rest (u : State) (c : Nat) (x : EngUnit) (id : Nat) (sg : BitVec 8) (err : Bool) :
    u.finish c x id sg err = { u with cores := (u.finish c x id sg err).cores } := by
  unfold State.finish
  rw [State.signal_eq]
  rfl

theorem State.finish_msg (u : State) (c : CoreId) (id : Nat) (sg : BitVec 8) (err : Bool) (d : Nat) :
    ((u.finish c .msg id sg err).core d).msg = (u.core d).msg := by
  rw [State.finish, State.signal_eq, State.modCore_modCore]
  exact u.core_modCore_keeps Core.msg c _ rfl d

theorem State.msgBegun_msg (s : State) (c : Nat) (q : QEntry) (rs : List Range) (op : EngOp) (r : REntry) (d : Nat) :
    ((s.modCore c (fun k => k.msgBegun q rs op r)).core d).msg = (s.core d).msg :=
  s.core_modCore_keeps Core.msg c _ rfl d

theorem MsgQueue.announced_kept (x y : MsgQueue) : (x.announced y).entries = y.entries ∧ (x.announced y).rdPos = y.rdPos := by
  unfold MsgQueue.announced
  split <;> exact ⟨rfl, rfl⟩

theorem MsgQueue.take_plain {x : MsgQueue} (plain : x.kt4 = false) (n : Nat) : x.take n = { x with entries := x.entries.drop n } :=
  if_neg (Bool.eq_false_iff.mp plain)

theorem MsgQueue.take_kt4 {x : MsgQueue} (kt4 : x.kt4 = true) (n : Nat) : x.take n = { x with rdPos := x.rdPos + n } := if_pos kt4

theorem MsgQueue.take_kept (x : MsgQueue) (n : Nat) : (x.take n).senders = x.senders := by
  unfold MsgQueue.take
  split <;> rfl

/-- A RECV at the head takes the message that waits for it. -/
theorem State.msgHead_recv {s : State} {c : Nat} {q : QEntry} {ps : List QEntry} {dst : Nat} {n : BitVec 4} {m : List MsgEntry}
    (head : (s.core c).msgq.queue = q :: ps) (now : q.launch = none) (op : q.op = some (.recv dst n))
    (going : ((s.core c).queue n.toNat).flushPending = false) (whole : ((s.core c).queue n.toNat).head = some m) :
    s.msgHead c = some ((((s.start c .msg { q := q }).homeWrites (some c) (recvWrites dst m) 0).1.changeQueue c n.toNat
      (fun x => x.take m.length)).finish c .msg q.id q.sigcc false) := by
  unfold State.msgHead
  rw [head]
  dsimp only
  rw [show q.launchOk s.now = true from by simp [QEntry.launchOk, now], op]
  dsimp only
  rw [going, whole]
  rfl

/-- The state in which RECV q of core c has stored the message m from queue n at dst. -/
def State.received_ (s : State) (c : Nat) (q : QEntry) (rs : List Range) (op : EngOp) (r : REntry) (dst n : Nat) (m : List MsgEntry) : State :=
  (((s.modCore c (fun k => k.msgBegun q rs op r)).stored (recvWrites dst m)).changeQueue c n (fun x => x.take m.length)).finish c .msg q.id q.sigcc false

section
variable {s : State} {c : CoreId} {q : QEntry} {rs : List Range} {op : EngOp} {r : REntry} {dst n : Nat} {m : List MsgEntry}

theorem State.received_done (hr : s.Ready c) (mine : r.q = q) (alone : (s.core c).msgq.running = []) (hn : n < 16) :
    s.MsgDone (s.received_ c q rs op r dst n m) c q false := by
  have begun : s.MsgBegun (s.modCore c (fun k => k.msgBegun q rs op r)) c q := .of_start mine alone
  have stored : s.MsgBegun ((s.modCore c (fun k => k.msgBegun q rs op r)).stored (recvWrites dst m)) c q :=
    begun.of_msg (fun d => ⟨((s.modCore c (fun k => k.msgBegun q rs op r)).core d).msg, rfl⟩) rfl rfl
  exact (stored.changeQueue n _ hn).finish hr false

theorem State.received_mem (hn : n < 16) : (s.received_ c q rs op r dst n m).ms = (s.stored (recvWrites dst m)).ms := by
  have finished := congrArg State.ms (State.finish_rest (((s.modCore c (fun k => k.msgBegun q rs op r)).stored (recvWrites dst m)).changeQueue c n
    (fun x => x.take m.length)) c .msg q.id q.sigcc false)
  have told := congrArg State.ms (((s.modCore c (fun k => k.msgBegun q rs op r)).stored (recvWrites dst m)).changeQueue_tells c n
    (fun x => x.take m.length) hn).2
  exact finished.trans told

theorem State.received_queue (hn : n < 16) : ((s.received_ c q rs op r dst n m).core c).queue n =
    ((s.core c).queue n).announced (((s.core c).queue n).take m.length) := by
  have same : (((s.modCore c (fun k => k.msgBegun q rs op r)).stored (recvWrites dst m)).core c).queue n = (s.core c).queue n :=
    congrArg (fun m : MsgRegs => m.queues.getD n {}) (s.msgBegun_msg c q rs op r c)
  have changed := ((s.modCore c (fun k => k.msgBegun q rs op r)).stored (recvWrites dst m)).changeQueue_queue c n n (fun x => x.take m.length) hn
  rw [same, if_pos rfl] at changed
  exact (congrArg (fun m : MsgRegs => m.queues.getD n {}) (State.finish_msg _ c _ _ _ c)).trans changed

theorem State.received_credits (hn : n < 16) : s.Credits (s.received_ c q rs op r dst n m) c n := by
  have owed := ((s.modCore c (fun k => k.msgBegun q rs op r)).stored (recvWrites dst m)).changeQueue_credits c n (fun x => x.take m.length) hn
    (MsgQueue.take_kept _ _)
  have finished := congrArg State.fab (State.finish_rest (((s.modCore c (fun k => k.msgBegun q rs op r)).stored (recvWrites dst m)).changeQueue c n
    (fun x => x.take m.length)) c .msg q.id q.sigcc false)
  exact owed.congr (fun d => (s.msgBegun_msg c q rs op r d).symm) (s.core_modCore_keeps Core.id c _ rfl c).symm rfl rfl
    (fun d => State.finish_msg _ c _ _ _ d) finished

/-- With no sender listed nobody else hears of it. -/
theorem State.received_alone (hn : ((s.core c).queue n).senders = []) :
    s.otherCores (s.received_ c q rs op r dst n m) c ∧ s.sameRest (s.received_ c q rs op r dst n m) := by
  have same : (((s.modCore c (fun k => k.msgBegun q rs op r)).stored (recvWrites dst m)).core c).queue n = (s.core c).queue n :=
    congrArg (fun m : MsgRegs => m.queues.getD n {}) (s.msgBegun_msg c q rs op r c)
  have silent := ((s.modCore c (fun k => k.msgBegun q rs op r)).stored (recvWrites dst m)).changeQueue_of_no_senders c n (fun x => x.take m.length)
    (by rw [same, hn]) (by rw [MsgQueue.take_kept, same, hn])
  unfold State.received_
  rw [silent]
  refine ⟨fun d ne => ?_, ?_⟩
  · rw [State.finish_other _ c _ _ _ _ d ne, State.modQueue, State.core_modCore, if_neg (fun h => ne h.1)]
    show (s.modCore c _).core d = s.core d
    rw [State.core_modCore, if_neg (fun h => ne h.1)]
  · unfold State.sameRest State.finish
    rw [State.signal_eq]
    exact ⟨rfl, rfl, rfl, rfl, rfl, rfl, rfl, rfl, rfl⟩

end

/-! ## The word -/

theorem State.resolve_recv (s : State) (c : CoreId) (w : IWord) :
    (s.offered c (s.decodedAt c (Word128.withOp w 7 2))).resolve c (Word128.withOp w 7 2) = s.issueRecv c (Word128.withOp w 7 2) := by
  have same := s.offered_core c (s.decodedAt c (Word128.withOp w 7 2)) c.isLt
  have recv (u : State) : u.resolve c (Word128.withOp w 7 2) = u.issueRecv c (Word128.withOp w 7 2) := by
    unfold State.resolve
    rw [withOp_engine, withOp_opcode]
    rfl
  rw [recv]
  simp only [State.issueRecv, State.operand, State.operandCauses, State.placeOk, State.partNo, same]
  rfl

/-- RECV on a ready core: the row of O21. -/
theorem recv_row (c : CoreId) (w : IWord) (s : State) (m : List MsgEntry) (hr : s.Ready c) (alone : (s.core c).msgq.running = [])
    (wf : s.ms.mem.wf 0 = true) (hd : decodeCause (Word128.withOp w 7 2) = 0) (passes : (s.issueRecv c (Word128.withOp w 7 2)).cause = 0)
    (sb : (s.core c).seq.sb = []) (going : ((s.core c).queue (fldN w 24 4)).flushPending = false)
    (whole : ((s.core c).queue (fldN w 24 4)).head = some m) (places : InPlace m) :
    ∃ t, exec (.recv c w) s = .next t ∧ s.Credits t c (fldN w 24 4) ∧ (t.core c).seq.pc = (s.core c).seq.pc + 1 ∧
      (t.core c).seq.gr = (s.core c).seq.gr ∧ (t.core c).seq.cc = ccAfter (s.core c).seq.cc (Word128.sigcc w) false ∧
      (t.core c).msgq.running = [] ∧
      (((s.core c).queue (fldN w 24 4)).kt4 = false →
        ((t.core c).queue (fldN w 24 4)).entries = ((s.core c).queue (fldN w 24 4)).entries.drop m.length) ∧
      (((s.core c).queue (fldN w 24 4)).kt4 = true →
        ((t.core c).queue (fldN w 24 4)).entries = ((s.core c).queue (fldN w 24 4)).entries ∧
        ((t.core c).queue (fldN w 24 4)).rdPos = ((s.core c).queue (fldN w 24 4)).rdPos + m.length) ∧
      (∀ k e, m[k]? = some e →
        t.ms.bytes ((s.operand c (Word128.withOp w 7 2) 0).nat + 64 * k) 64 = leBytes 64 e.payload.toNat ∧
        t.ms.bytes ((s.operand c (Word128.withOp w 7 2) 0).nat + 512 + 8 * k) 8 = leBytes 8 e.sideband) ∧
      (∀ x, ¬ ((s.operand c (Word128.withOp w 7 2) 0).nat ≤ x ∧ x < (s.operand c (Word128.withOp w 7 2) 0).nat + 576) → t.ms.byte x = s.ms.byte x) ∧
      (((s.core c).queue (fldN w 24 4)).senders = [] → s.otherCores t c ∧ s.sameRest t) := by
  have hn : fldN w 24 4 < 16 := fldN_lt w 24 4
  have inside := (State.operandCauses_ownSram (more := []) (fun x hx => nomatch hx) passes).1
  obtain ⟨dst, hdst⟩ : ∃ dst, dst = (s.operand c (Word128.withOp w 7 2) 0).nat := ⟨_, rfl⟩
  rw [← hdst] at inside ⊢
  have out := inSram_sram inside
  obtain ⟨res, hres⟩ : ∃ res, res = s.issueRecv c (Word128.withOp w 7 2) := ⟨_, rfl⟩
  have op : res.op = .recv dst (BitVec.ofNat 4 (fldN w 24 4)) := by
    rw [hres, hdst]
    simp only [State.issueRecv, Word128.body, withOp_fldN w 7 2 24 4 (by decide)]
  obtain ⟨q, hq⟩ : ∃ q, q = entryOf (s.core c) ((s.core c).seq.pc.setWidth 17) (Word128.withOp w 7 2) false none (some res.op) := ⟨_, rfl⟩
  have sigcc : q.sigcc = Word128.sigcc w := by
    have notLaunch : isLaunch (Word128.withOp w 7 2) = false := by simp [isLaunch, withOp_engine, engSEQ]
    rw [hq]
    simp only [entryOf, notLaunch, Bool.false_eq_true, if_false, withOp_sigcc]
  have number : (BitVec.ofNat 4 (fldN w 24 4)).toNat = fldN w 24 4 := by
    rw [BitVec.toNat_ofNat]
    exact Nat.mod_eq_of_lt hn
  obtain ⟨r, mine, started⟩ := s.start_msg c q (liveRanges res.claims) res.op { q := q } rfl (by rw [hq]; rfl)
  have queued (d : Nat) : ((s.modCore c (fun k => k.queued .msg q (liveRanges res.claims) res.op)).core d).msg = (s.core d).msg :=
    s.core_modCore_keeps Core.msg c _ rfl d
  have same : ((s.modCore c (fun k => k.queued .msg q (liveRanges res.claims) res.op)).core c).queue (fldN w 24 4) = (s.core c).queue (fldN w 24 4) :=
    congrArg (fun m : MsgRegs => m.queues.getD (fldN w 24 4) {}) (queued c)
  have head : ((s.modCore c (fun k => k.queued .msg q (liveRanges res.claims) res.op)).core c).msgq.queue = [q] := by
    rw [State.core_modCore, if_pos ⟨rfl, c.isLt⟩]
    exact congrArg EngQueue.queue ((s.core c).queued_eng .msg .msg q _ _)
  have step := State.msgHead_recv (m := m) (n := BitVec.ofNat 4 (fldN w 24 4)) (dst := dst) head (by rw [hq]; rfl) (by rw [hq]; exact congrArg some op)
    (by rw [number, same]; exact going) (by rw [number, same]; exact whole)
  rw [started, State.homeWrites_sram _ _ _ _ (fun x hx => isHbm_up out (recvWrites_within x hx).1), number] at step
  have done := State.received_done (rs := liveRanges res.claims) (op := res.op) (dst := dst) (m := m) hr mine alone hn
  have run : s.fetch c (Word128.withOp w 7 2) = s.received_ c q (liveRanges res.claims) res.op r dst (fldN w 24 4) m := by
    refine State.fetch_pumps hr hd (by rw [withOp_engine]; rfl) (hres.trans (s.resolve_recv c w).symm) (hres ▸ passes) ?_ ?_ hq step done.rests done.step
    · rw [SeqState.sbStalls, sb]
      simp
    · rw [sb, hres]
      exact (Nat.zero_add _).le.trans ((List.length_filter_le _ _).trans (show 1 ≤ 64 by decide))
  have mem := State.received_mem (s := s) (c := c) (q := q) (rs := liveRanges res.claims) (op := res.op) (r := r) (dst := dst) (m := m) hn
  have queue := State.received_queue (s := s) (c := c) (q := q) (rs := liveRanges res.claims) (op := res.op) (r := r) (dst := dst) (m := m) hn
  refine ⟨_, congrArg Host.Outcome.next run, State.received_credits hn, done.pc, done.gr, sigcc ▸ done.cc, done.running, fun plain => ?_, fun kt4 => ?_,
    fun k e he => ?_, fun x far => ?_, fun none_ => State.received_alone none_⟩
  · rw [queue, (MsgQueue.announced_kept _ _).1, MsgQueue.take_plain plain]
  · rw [queue, (MsgQueue.announced_kept _ _).1, (MsgQueue.announced_kept _ _).2, MsgQueue.take_kt4 kt4]
    exact ⟨rfl, rfl⟩
  · obtain ⟨payload, sideband⟩ := places.stored dst he
    have first := State.stored_bytes (s := s) (a := dst + 64 * k) wf (fun i hi => payload i (by rwa [length_leBytes] at hi))
    have second := State.stored_bytes (s := s) (a := dst + 512 + 8 * k) wf (fun i hi => sideband i (by rwa [length_leBytes] at hi))
    rw [length_leBytes] at first second
    rw [mem]
    exact ⟨first, second⟩
  · rw [mem, s.stored_byte _ x wf, show storedAt (recvWrites dst m) x = none from storedFrom_outside (fun w hw covers => far ?_)]
    · rfl
    · have within := recvWrites_within w hw
      omega

end Sys2Proof.Machine
end

section
/-! PROOFS. O21 MessagesInAndOut: a local message arrives (R33, R34, R36, R38). -/

namespace Sys2Proof.Machine

set_option Elab.async false -- in turn: many waiting threads need much memory

/-! ## What a message's arrival changes of the cores -/

/-- In a calm state what keeps what the sequencers wait for sets nothing else going. -/
theorem State.Calm.settle_still {s t : State} (calm : s.Calm) (quiet : ∀ d, (t.core d).quiet = (s.core d).quiet)
    (ids : ∀ d, (t.core d).id = (s.core d).id) (ended : ∀ d, (t.core d).seq.ended = (s.core d).seq.ended) (parts : t.parts = s.parts)
    (armed : t.eth.armed = s.eth.armed) : t.settle = t := by
  obtain ⟨hq, -, going, steady⟩ := calm
  refine State.settle_quiet t (fun d hd => (quiet d).trans (hq d hd)) ⟨fun d hd act => ?_, fun p hp run => ?_⟩
  · rw [ids] at act
    rw [State.programOver, List.all_eq_false]
    exact ⟨d, t.self_mem_groupOf d, by simp [ended, going d hd act]⟩
  · have part : t.part p = s.part p := by rw [State.part, State.part, parts]
    rw [part] at run ⊢
    rw [armed]
    simp only [ids]
    exact steady.2 p hp run

/-- From s to x message queues, counts of foreign tags and the messages under way may change. -/
def State.Heard (s x : State) : Prop :=
  (∀ d, ∃ qs n, x.core d = { s.core d with msg := { (s.core d).msg with queues := qs, tagReject := n } }) ∧
  x = { s with cores := x.cores, locals := x.locals }

theorem State.Heard.refl (s : State) (l : List LocalMsg) : s.Heard { s with locals := l } :=
  ⟨fun d => ⟨(s.core d).msg.queues, (s.core d).msg.tagReject, rfl⟩, rfl⟩

theorem State.Heard.modMsg {s x : State} (h : s.Heard x) (c : Nat) (f : MsgRegs → MsgRegs)
    (kept : ∀ r : MsgRegs, ∃ qs n, f r = { r with queues := qs, tagReject := n }) : s.Heard (x.modCore c (fun k => k.modMsg f)) := by
  obtain ⟨cores, rest⟩ := h
  refine ⟨fun d => ?_, ?_⟩
  · obtain ⟨qs, n, hx⟩ := cores d
    rw [State.core_modCore]
    split
    · next here =>
      rw [← here.1, hx]
      obtain ⟨qs', n', hf⟩ := kept { (s.core d).msg with queues := qs, tagReject := n }
      exact ⟨qs', n', congrArg (fun r : MsgRegs => { s.core d with msg := r }) hf⟩
    · exact ⟨qs, n, hx⟩
  · exact congrArg (fun y : State => y.modCore c (fun k => k.modMsg f)) rest

theorem State.Heard.modQueue {s x : State} (h : s.Heard x) (c q : Nat) (f : MsgQueue → MsgQueue) : s.Heard (x.modQueue c q f) :=
  h.modMsg c (fun r => { r with queues := vmod r.queues q f }) (fun r => ⟨_, r.tagReject, rfl⟩)

theorem State.Heard.listSender {s x : State} (h : s.Heard x) (c q : Nat) (src : MsgSrc) : s.Heard (x.listSender c q src) := by
  unfold State.listSender
  split
  · exact h.modQueue c q _
  · exact h

/-! ## The status of a SEND (R36, R37) -/

/-- The core k whose SEND p has its status. -/
def MsgRegs.answered (r : MsgRegs) (id : Nat) (md : DevId) (p : PendingSend) (full : Bool) : MsgRegs :=
  MsgRegs.setMirror { r with sends := r.sends.filter (fun x => x.id != id) } md p.core.toNat p.queue.toNat full

theorem State.sendStatus_found {x : State} {d id : Nat} {p : PendingSend} (found : (x.core d).msg.sends.find? (fun p => p.id == id) = some p)
    (plain : p.sched = false) (reject full : Bool) :
    x.sendStatus d id reject full =
      (x.modCore d (fun k => k.modMsg (fun r => r.answered id (x.mirrorDev p.dev) p full))).finish d .msg id p.sigcc reject := by
  unfold State.sendStatus
  rw [found]
  dsimp only
  rw [State.reportLateSend, plain]
  rfl

/-- What the sender's core and all the rest are after its status. -/
structure State.Told (s t : State) (d : CoreId) (id : Nat) (p : PendingSend) (reject full : Bool) : Prop where
  ms : t.ms = s.ms
  fab : t.fab = s.fab
  sends : (t.core d).msg.sends = (s.core d).msg.sends.filter (fun p => p.id != id)
  cc : (t.core d).seq.cc = ccAfter (s.core d).seq.cc p.sigcc reject
  mirror : (t.core d).msg.mirror = (s.core d).msg.mirror.map (fun e =>
    if e.dev = s.mirrorDev p.dev ∧ e.core.toNat = p.core.toNat ∧ e.queue.toNat = p.queue.toNat then { e with full := full } else e)

theorem MsgRegs.answered_mirror (r : MsgRegs) (id : Nat) (md : DevId) (p : PendingSend) (full : Bool) : (r.answered id md p full).mirror =
    r.mirror.map (fun e => if e.dev = md ∧ e.core.toNat = p.core.toNat ∧ e.queue.toNat = p.queue.toNat then { e with full := full } else e) := by
  unfold MsgRegs.answered MsgRegs.setMirror
  refine List.map_congr_left (fun e _ => ?_)
  unfold MirrorEntry.names
  simp [and_assoc]

section
variable {s x : State} {d : CoreId} {id : Nat} {p : PendingSend} {reject full : Bool}

theorem Core.quiet_congr {k l : Core} (buf : l.seq.buf = k.seq.buf) (wait : l.seq.wait = k.seq.wait)
    (queues : ∀ u, (l.eng u).queue = (k.eng u).queue) : l.quiet = k.quiet := by
  simp only [Core.quiet, buf, wait, queues]

/-- The core k with its MSG engine's running operations and its counters moved. -/
theorem Core.quiet_finished (k : Core) (m : MsgRegs) (rs : List REntry) (sb : List SbEntry) (cc : Vector (BitVec 32) 64) :
    ({ k with msg := m, msgq := { k.msgq with running := rs }, seq := { k.seq with sb := sb, cc := cc } } : Core).quiet = k.quiet :=
  Core.quiet_congr rfl rfl (fun u => by cases u <;> rfl)

/-- The state after the status of SEND p. -/
def State.answered_ (x : State) (d id : Nat) (p : PendingSend) (reject full : Bool) : State :=
  (x.modCore d (fun k => k.modMsg (fun r => r.answered id (x.mirrorDev p.dev) p full))).finish d .msg id p.sigcc reject

theorem State.answered_core (x : State) (d : CoreId) (id : Nat) (p : PendingSend) (reject full : Bool) (j : Nat) :
    ((x.answered_ d id p reject full).core j).quiet = (x.core j).quiet ∧ ((x.answered_ d id p reject full).core j).id = (x.core j).id ∧
    ((x.answered_ d id p reject full).core j).seq.ended = (x.core j).seq.ended ∧
    ((x.answered_ d id p reject full).core j).msg.queues = (x.core j).msg.queues ∧
    ((x.answered_ d id p reject full).core j).msg.tagReject = (x.core j).msg.tagReject := by
  by_cases here : j = d.val
  · subst here
    unfold State.answered_
    rw [State.finish_core, State.core_modCore, if_pos ⟨rfl, d.isLt⟩]
    generalize x.core d = k
    exact ⟨k.quiet_finished _ _ _ _, rfl, rfl, rfl, rfl⟩
  · unfold State.answered_
    rw [State.finish_other _ d _ _ _ _ j here, State.core_modCore, if_neg (fun h => here h.1)]
    exact ⟨rfl, rfl, rfl, rfl, rfl⟩

theorem State.answered_rest (x : State) (d : CoreId) (id : Nat) (p : PendingSend) (reject full : Bool) :
    x.answered_ d id p reject full = { x with cores := (x.answered_ d id p reject full).cores } :=
  (State.finish_rest _ d .msg id p.sigcc reject).trans rfl

theorem State.Heard.told (h : s.Heard x) : s.Told (x.answered_ d id p reject full) d id p reject full := by
  obtain ⟨cores, rest⟩ := h
  obtain ⟨qs, n, hx⟩ := cores d
  have here : (x.answered_ d id p reject full).core d = _ :=
    State.finish_core (x.modCore d (fun k => k.modMsg (fun r => r.answered id (x.mirrorDev p.dev) p full))) d id p.sigcc reject
  have frame := x.answered_rest d id p reject full
  rw [State.core_modCore, if_pos ⟨rfl, d.isLt⟩, hx] at here
  have fab : x.fab = s.fab := (congrArg State.fab rest).trans rfl
  have md : x.mirrorDev p.dev = s.mirrorDev p.dev := by
    unfold State.mirrorDev State.isOwnDev State.dev
    rw [fab]
  refine ⟨(congrArg State.ms frame).trans ((congrArg State.ms rest).trans rfl), (congrArg State.fab frame).trans fab, ?_, ?_, ?_⟩
  · rw [here]
    rfl
  · rw [here]
    rfl
  · rw [here, ← md]
    exact MsgRegs.answered_mirror _ id _ p full

/-- A status sets nothing else going. -/
theorem State.Heard.settle_answered (h : s.Heard x) (calm : s.Calm) :
    (x.answered_ d id p reject full).settle = x.answered_ d id p reject full := by
  obtain ⟨cores, rest⟩ := h
  have frame := x.answered_rest d id p reject full
  have core (j : Nat) := x.answered_core d id p reject full j
  refine calm.settle_still (fun j => ?_) (fun j => ?_) (fun j => ?_) ((congrArg State.parts frame).trans ((congrArg State.parts rest).trans rfl))
    ((congrArg (fun y : State => y.eth.armed) frame).trans ((congrArg (fun y : State => y.eth.armed) rest).trans rfl))
  all_goals
    obtain ⟨qs, n, hx⟩ := cores j
    obtain ⟨quiet, id_, ended, -⟩ := core j
  · rw [quiet, hx]
    rfl
  · rw [id_, hx]
  · rw [ended, hx]

theorem State.Heard.settle (h : s.Heard x) (calm : s.Calm) (ud : Vector Ud 2) : ({ x with ud := ud } : State).settle = { x with ud := ud } := by
  obtain ⟨cores, rest⟩ := h
  refine calm.settle_still (fun j => ?_) (fun j => ?_) (fun j => ?_) ((congrArg State.parts rest).trans rfl)
    ((congrArg (fun y : State => y.eth.armed) rest).trans rfl)
  all_goals
    obtain ⟨qs, n, hx⟩ := cores j
    show _ = _
  · show (x.core j).quiet = _
    rw [hx]
    rfl
  · show (x.core j).id = _
    rw [hx]
  · show (x.core j).seq.ended = _
    rw [hx]

end

end Sys2Proof.Machine
end

section
/-! PROOFS. O21 MessagesInAndOut: the rows. -/

namespace Sys2Proof.Machine

set_option Elab.async false -- in turn: many waiting threads need much memory

section
variable {s : State} {m : LocalMsg} {c : CoreId} {q : Fin 16} {n : Nat} (one : s.locals = [m]) (core : m.core = c.val) (queue : m.queue = q.val)
  (fresh : m.started = false)

/-- The state in which the one message under way has been taken. -/
def State.taken (s : State) : State := { s with locals := [] }

theorem State.taken_heard (s : State) : s.Heard s.taken := .refl s []

include one core queue in
theorem State.nextArrival_one : s.nextArrival c q = some m := by
  have mine : [m].filter (fun m => m.core == c.val && m.queue == q.val) = [m] := by simp [core, queue]
  unfold State.nextArrival
  rw [one, mine]
  cases started : m.started <;> simp [started]

include one in
theorem State.dropLocal_one : s.dropLocal m = s.taken := by
  unfold State.dropLocal State.taken
  rw [one, List.erase_cons_head]

include one core queue fresh in
theorem State.arrive_one (pos : 0 < n) : s.arrive c q n = if (s.taken.offer m).2 then (s.taken.offer m).1.enter m n else (s.taken.offer m).1 := by
  unfold State.arrive
  rw [State.nextArrival_one one core queue]
  dsimp only
  rw [State.dropLocal_one one, fresh, Nat.max_eq_left pos, if_neg Bool.false_ne_true]

/-- A message of another job is counted. -/
def State.foreign (s : State) (c : Nat) : State := s.taken.modCore c (fun k => k.modMsg (fun r => { r with tagReject := satInc r.tagReject }))

theorem State.foreign_heard (s : State) (c : Nat) : s.Heard (s.foreign c) := s.taken_heard.modMsg c _ (fun r => ⟨r.queues, _, rfl⟩)

theorem State.foreign_core (s : State) (c : CoreId) : (s.foreign c).core c =
    (s.core c).modMsg (fun r => { r with tagReject := satInc r.tagReject }) := by
  unfold State.foreign
  rw [State.core_modCore, if_pos ⟨rfl, c.isLt⟩]
  rfl

/-- A queue that ignores a message. -/
def MsgQueue.ignored (x : MsgQueue) : MsgQueue := { x with overrun := true, rejectCount := satInc x.rejectCount }

/-- A queue that a message enters whole. -/
def MsgQueue.joined (x : MsgQueue) (es : List MsgEntry) : MsgQueue := { x with entries := x.entries ++ es, locked := false }

include one core queue fresh in
theorem State.arrive_foreign (pos : 0 < n) (other : m.jobTag ≠ (s.core c).id.jobTag) : s.arrive c q n = (s.foreign c).msgStatus m.src 2 false := by
  have refused : s.taken.offer m = ((s.foreign c).msgStatus m.src 2 false, false) := by
    unfold State.offer
    rw [core]
    exact if_pos other
  rw [State.arrive_one one core queue fresh pos, refused]
  rfl

include one core queue fresh in
theorem State.arrive_full (pos : 0 < n) (same : m.jobTag = (s.core c).id.jobTag) (full : ((s.core c).queue q).full = true) :
    s.arrive c q n = ((s.taken.modQueue c q MsgQueue.ignored).listSender c q m.src).msgStatus m.src 3 true := by
  have refused : s.taken.offer m = (((s.taken.modQueue c q MsgQueue.ignored).listSender c q m.src).msgStatus m.src 3 true, false) := by
    unfold State.offer
    rw [core, queue, if_neg (fun h => h same)]
    exact if_pos full
  rw [State.arrive_one one core queue fresh pos, refused]
  rfl

include one core queue fresh in
theorem State.arrive_enters (pos : 0 < n) (same : m.jobTag = (s.core c).id.jobTag) (room : ((s.core c).queue q).full = false) :
    s.arrive c q n = s.taken.enter m n := by
  have accepted : s.taken.offer m = (s.taken, true) := by
    unfold State.offer
    rw [core, queue, if_neg (fun h => h same)]
    exact if_neg (Bool.eq_false_iff.mp room)
  rw [State.arrive_one one core queue fresh pos, accepted]
  rfl

include core queue in
theorem State.enter_part (short : n < m.entries.length) : s.taken.enter m n =
    { s.taken.modQueue c q (fun x => { x with entries := x.entries ++ m.entries.take n, locked := true }) with
      locals := [{ m with entries := m.entries.drop n, started := true }] } := by
  have more : (m.entries.drop n).isEmpty = false := by
    rw [List.isEmpty_eq_false_iff, ne_eq, List.drop_eq_nil_iff]
    omega
  unfold State.enter
  rw [core, queue]
  dsimp only
  rw [more]
  rfl

include core queue in
/-- The last entry brings the status. -/
theorem State.enter_whole {t : State} (fits : m.entries.length ≤ n)
    (status : (if (((s.core c).queue q).joined m.entries).full then (s.taken.modQueue c q (fun x => x.joined m.entries)).listSender c q m.src
      else s.taken.modQueue c q (fun x => x.joined m.entries)).msgStatus m.src 0 (((s.core c).queue q).joined m.entries).full = t)
    (stays : ((t.core c).queue q).flushPending = false) : s.taken.enter m n = t := by
  have nothing : m.entries.drop n = [] := List.drop_eq_nil_of_le fits
  have all : m.entries.take n = m.entries := List.take_of_length_le fits
  have here : ((s.taken.modQueue c q (fun x => x.joined m.entries)).core c).queue q = ((s.core c).queue q).joined m.entries :=
    (s.taken.queue_modQueue c q q _ q.isLt).trans (if_pos rfl)
  unfold State.enter
  rw [core, queue, nothing, all]
  simp only [List.isEmpty_nil, Bool.not_true, if_true]
  have queue' : ((s.taken.modCore c (fun k => k.modQueue q (fun x => { x with entries := x.entries ++ m.entries, locked := false }))).core c).queue q =
    ((s.core c).queue q).joined m.entries := here
  rw [queue']
  have status' : (if (((s.core c).queue q).joined m.entries).full = true then
      (s.taken.modCore c (fun k => k.modQueue q (fun x => { x with entries := x.entries ++ m.entries, locked := false }))).listSender c q m.src
      else s.taken.modCore c (fun k => k.modQueue q (fun x => { x with entries := x.entries ++ m.entries, locked := false }))).msgStatus m.src 0
        (((s.core c).queue q).joined m.entries).full = t := status
  rw [status', stays]
  rfl

end

/-- What a queue's list of senders and its overflow become with one more sender. -/
theorem MsgQueue.list_senders (x : MsgQueue) (d : DevId) (k : BitVec 3) : ((x.list d k).senders, (x.list d k).creditOvf) =
    if x.senders.contains (d, k) then (x.senders, x.creditOvf)
    else if x.senders.length < 8 then (x.senders ++ [(d, k)], x.creditOvf) else (x.senders, true) := by
  unfold MsgQueue.list
  split
  · rfl
  · split <;> rfl

theorem MsgQueue.list_kept (x : MsgQueue) (d : DevId) (k : BitVec 3) : (x.list d k).entries = x.entries ∧ (x.list d k).overrun = x.overrun ∧
    (x.list d k).rejectCount = x.rejectCount ∧ (x.list d k).locked = x.locked ∧ (x.list d k).flushPending = x.flushPending := by
  unfold MsgQueue.list
  split
  · exact ⟨rfl, rfl, rfl, rfl, rfl⟩
  · split <;> exact ⟨rfl, rfl, rfl, rfl, rfl⟩

theorem exec_localMessageArrival {s : State} (calm : s.Calm) (c : CoreId) (q : Fin 16) (n : Nat) :
    exec (.localMessageArrival c q n) s = .next (s.arrive c q n).settle := by
  have runs : ¬ s.stopped = true := Bool.eq_false_iff.mp calm.2.1
  exact if_neg runs

/-- Settles O21: a RECV is what `recv_row` says; the one message that arrives is refused, enters in part, or enters whole, and its
status changes its sender alone. -/
theorem messagesInAndOut : Obligations.MessagesInAndOut := by
  unfold Obligations.MessagesInAndOut
  refine ⟨?_, fun c q n s m calm one core queue fresh pos => ?_⟩
  · intro c w s m hr alone wf v n q dst hd passes sb going whole places
    exact recv_row c w s m hr alone wf hd passes sb going whole (.of_map places)
  · intro x row
    refine ⟨?_, ?_⟩
    · intro d id p src hd found plain listed told
      obtain ⟨e, rfl⟩ : ∃ e : CoreId, d = e.val := ⟨⟨d, hd⟩, rfl⟩
      have status (y : State) (heard : s.Heard y) (k : Nat) (full : Bool) : y.msgStatus m.src k full = y.answered_ e id p (k != 0) full := by
        rw [src]
        refine State.sendStatus_found ?_ plain (k != 0) full
        obtain ⟨qs, t, hy⟩ := heard.1 e
        rw [hy]
        exact found
      have lists (f : MsgQueue → MsgQueue) : (s.taken.modQueue c q f).listSender c q m.src =
          s.taken.modQueue c q (fun x => (f x).list s.dev (BitVec.ofNat 3 e)) := by
        rw [src]
        exact s.taken.modQueue_modQueue c q f _
      have goes {y : State} (heard : s.Heard y) {k : Nat} {full : Bool} (left : s.arrive c q n = y.msgStatus m.src k full) :
          exec row s = .next (y.answered_ e id p (k != 0) full) := by
        rw [exec_localMessageArrival calm, left, status y heard, heard.settle_answered calm]
      have toldOf {y : State} (heard : s.Heard y) (none_ : y.locals = []) (reject full : Bool) : told (y.answered_ e id p reject full) reject full := by
        have t : s.Told (y.answered_ e id p reject full) e id p reject full := heard.told
        exact ⟨(congrArg State.locals (y.answered_rest e id p reject full)).trans none_, t.ms, t.fab, t.sends, t.cc, t.mirror⟩
      have kept (y : State) (reject full : Bool) : ((y.answered_ e id p reject full).core c).queue q = (y.core c).queue q :=
        congrArg (fun v : Vector MsgQueue 16 => v.getD q {}) (y.answered_core e id p reject full c).2.2.2.1
      have changed (f : MsgQueue → MsgQueue) : ((s.taken.modQueue c q f).core c).queue q = f ((s.core c).queue q) :=
        (s.taken.queue_modQueue c q q f q.isLt).trans (if_pos rfl)
      refine ⟨fun other => ?_, fun same full => ?_, fun same room fits going => ?_⟩
      · have heard := s.foreign_heard c
        refine ⟨_, goes heard (State.arrive_foreign one core queue fresh pos other), toldOf heard rfl true false, ?_, ?_⟩
        · rw [kept, s.foreign_core c]
          rfl
        · rw [((s.foreign c).answered_core e id p (2 != 0) false c).2.2.2.2, s.foreign_core c]
          rfl
      · have heard := s.taken_heard.modQueue c q (fun x => x.ignored.list s.dev (BitVec.ofNat 3 e))
        have left := State.arrive_full one core queue fresh pos same (decide_eq_true full)
        rw [lists] at left
        obtain ⟨entries, overrun, count, -, -⟩ := ((s.core c).queue q).ignored.list_kept s.dev (BitVec.ofNat 3 e)
        refine ⟨_, goes heard left, toldOf heard rfl true true, ?_, ?_, ?_, ?_⟩
        · rw [kept, changed]
          exact ((s.core c).queue q).ignored.list_senders s.dev (BitVec.ofNat 3 e)
        · rw [kept, changed]
          exact entries
        · rw [kept, changed]
          exact overrun
        · rw [kept, changed]
          exact count
      · have roomy : ((s.core c).queue q).full = false := decide_eq_false (Nat.not_lt.mpr room)
        have enters := State.arrive_enters one core queue fresh pos same roomy
        cases full : (((s.core c).queue q).joined m.entries).full
        · have heard := s.taken_heard.modQueue c q (fun x => x.joined m.entries)
          have left := enters.trans (State.enter_whole core queue fits (by rw [full, if_neg Bool.false_ne_true, status _ heard])
            (by rw [kept, changed]; exact going))
          have few : ¬ 24 < (((s.core c).queue q).entries ++ m.entries).length := of_decide_eq_false full
          rw [List.length_append] at few
          rw [decide_eq_false few]
          refine ⟨_, goes heard (left.trans (status _ heard 0 false).symm), toldOf heard rfl false false, ?_, ?_, fun many => absurd many few, fun _ => ?_⟩
          · rw [kept, changed]
            rfl
          · rw [kept, changed]
            rfl
          · rw [kept, changed]
            rfl
        · have heard := s.taken_heard.modQueue c q (fun x => (x.joined m.entries).list s.dev (BitVec.ofNat 3 e))
          obtain ⟨entries, -, -, locked, pending⟩ := (((s.core c).queue q).joined m.entries).list_kept s.dev (BitVec.ofNat 3 e)
          have left := enters.trans (State.enter_whole core queue fits (by rw [full, if_pos rfl, lists, status _ heard])
            (by rw [kept, changed]; exact pending.trans going))
          have many : 24 < (((s.core c).queue q).entries ++ m.entries).length := of_decide_eq_true full
          rw [List.length_append] at many
          rw [decide_eq_true many]
          refine ⟨_, goes heard (left.trans (status _ heard 0 true).symm), toldOf heard rfl false true, ?_, ?_, fun _ => ?_,
            fun few => absurd many (Nat.not_lt.mpr few)⟩
          · rw [kept, changed]
            exact entries
          · rw [kept, changed]
            exact locked
          · rw [kept, changed]
            exact (((s.core c).queue q).joined m.entries).list_senders s.dev (BitVec.ofNat 3 e)
    · intro u src
      have unheard (y : State) : y.listSender c q m.src = y := by rw [src]; rfl
      have goes {y : State} (heard : s.Heard y) {k : Nat} {full : Bool} (left : s.arrive c q n = y.msgStatus m.src k full) :
          exec row s = .next (y.modUd u (fun e => if k = 0 then { e with evtSent := satInc e.evtSent } else { e with evtRej := satInc e.evtRej })) := by
        rw [exec_localMessageArrival calm, left, src]
        exact congrArg Host.Outcome.next (heard.settle calm _)
      have changed (f : MsgQueue → MsgQueue) : ((s.taken.modQueue c q f).core c).queue q = f ((s.core c).queue q) :=
        (s.taken.queue_modQueue c q q f q.isLt).trans (if_pos rfl)
      have counts {y : State} (heard : s.Heard y) (f : Ud → Ud) : (y.modUd u f).udOf u = if u < 2 then f (s.udOf u) else s.udOf u := by
        have ud : y.udOf u = s.udOf u := congrArg (fun v : Vector Ud 2 => v.getD u {}) ((congrArg State.ud heard.2).trans rfl)
        rw [State.udOf_modUd, ud]
        simp
      have noMem {y : State} (heard : s.Heard y) (f : Ud → Ud) : (y.modUd u f).ms = s.ms := (congrArg State.ms heard.2).trans rfl
      refine ⟨fun other => ?_, fun same full => ?_, fun same room short => ?_, fun same room fits going => ?_⟩
      · have heard := s.foreign_heard c
        refine ⟨_, goes heard (State.arrive_foreign one core queue fresh pos other), rfl, ?_, ?_, ?_, noMem heard _⟩
        · exact (congrArg (fun k : Core => k.msg.tagReject) (s.foreign_core c)).trans rfl
        · exact (congrArg (fun k : Core => k.queue q) (s.foreign_core c)).trans rfl
        · rw [counts heard]
          split <;> rfl
      · have heard := s.taken_heard.modQueue c q MsgQueue.ignored
        have left := State.arrive_full one core queue fresh pos same (decide_eq_true full)
        rw [unheard] at left
        exact ⟨_, goes heard left, rfl, changed _, noMem heard _⟩
      · have roomy : ((s.core c).queue q).full = false := decide_eq_false (Nat.not_lt.mpr room)
        have heard := s.taken_heard.modQueue c q (fun x => { x with entries := x.entries ++ m.entries.take n, locked := true })
        have heard' : s.Heard { s.taken.modQueue c q (fun x => { x with entries := x.entries ++ m.entries.take n, locked := true }) with
            locals := [{ m with entries := m.entries.drop n, started := true }] } := ⟨heard.1, rfl⟩
        rw [exec_localMessageArrival calm, State.arrive_enters one core queue fresh pos same roomy, State.enter_part core queue short]
        exact congrArg Host.Outcome.next (heard'.settle calm s.ud)
      · have roomy : ((s.core c).queue q).full = false := decide_eq_false (Nat.not_lt.mpr room)
        have heard := s.taken_heard.modQueue c q (fun x => x.joined m.entries)
        have enters := State.arrive_enters one core queue fresh pos same roomy
        have left := enters.trans (State.enter_whole core queue fits (by rw [unheard, ite_self]) (by
          rw [src]
          exact (congrArg MsgQueue.flushPending (changed (fun x => x.joined m.entries))).trans going))
        refine ⟨_, goes heard left, rfl, ?_, ?_, ?_, noMem heard _⟩
        · exact congrArg MsgQueue.entries (changed (fun x => x.joined m.entries))
        · exact congrArg MsgQueue.locked (changed (fun x => x.joined m.entries))
        · rw [counts heard]
          split <;> rfl

end Sys2Proof.Machine
end

section
/-! PROOFS. O22 SendsLeave: a SEND begins. -/

namespace Sys2Proof.Machine

set_option Elab.async false -- in turn: many waiting threads need much memory

/-! ## SEND at the head of its queue (R36, R37) -/

/-- What a core keeps of a SEND until its status. -/
def QEntry.pendingSend (q : QEntry) (now : BitVec 64) (dev : DevId) (core : BitVec 3) (queue : BitVec 4) (sched : Bool) (tag : BitVec 16) : PendingSend :=
  { id := q.id, sigcc := q.sigcc, dev := dev, core := core, queue := queue, sched := sched, tag := tag, late := q.lateAt now }

/-- The message registers once the SEND p has left for a queue. -/
def MsgRegs.sentTo (r : MsgRegs) (p : PendingSend) (md : DevId) : MsgRegs :=
  MsgRegs.address { r with holding := false, sends := r.sends ++ [p] } md p.core.toNat p.queue.toNat

/-- SEND q of core c runs. -/
def State.sendRuns (s : State) (c : Nat) (q : QEntry) : State :=
  (s.modCore c (fun k => k.modMsg (fun r => { r with holding := false }))).start c .msg { q := q, inRows := false }

/-- The state in which SEND q of core c has begun. -/
def State.sendBegun (s : State) (c : Nat) (q : QEntry) (p : PendingSend) : State :=
  (s.sendRuns c q).modCore c
    (fun k => k.modMsg (fun r => MsgRegs.address { r with sends := r.sends ++ [p] } ((s.sendRuns c q).mirrorDev p.dev) p.core.toNat p.queue.toNat))

theorem State.start_rest (s : State) (c : Nat) (u : EngUnit) (r : REntry) :
    s.start c u r = { s with cores := (s.start c u r).cores, goose := (s.start c u r).goose } := by
  obtain ⟨x, hx⟩ : ∃ x, x = s.popHead c u := ⟨_, rfl⟩
  have popped : x = { s with cores := x.cores } := by rw [hx]; rfl
  have noted : x.noteLaunch c r.q = { x with cores := (x.noteLaunch c r.q).cores, goose := (x.noteLaunch c r.q).goose } := by
    unfold State.noteLaunch
    split
    · dsimp only
      split
      · unfold State.logBudget
        split <;> rfl
      · rfl
    · rfl
  unfold State.start
  dsimp only
  rw [← hx, noted]
  rw [popped]
  rfl

theorem State.sendBegun_rest (s : State) (c : Nat) (q : QEntry) (p : PendingSend) :
    s.sendBegun c q p = { s with cores := (s.sendBegun c q p).cores, goose := (s.sendBegun c q p).goose } := by
  have started := (s.modCore c (fun k => k.modMsg (fun r => { r with holding := false }))).start_rest c .msg { q := q, inRows := false }
  unfold State.sendBegun State.sendRuns
  rw [started]
  rfl

theorem State.start_id (s : State) (c : CoreId) (u : EngUnit) (r : REntry) (d : Nat) : ((s.start c u r).core d).id = (s.core d).id := by
  obtain ⟨most, supp, budget, g, noted⟩ := (s.popHead c u).noteLaunch_noted c r.q
  unfold State.start
  dsimp only
  rw [noted]
  refine (State.core_modCore_keeps Core.id _ c _ (Core.id_modEng _ _ _) d).trans ?_
  refine (State.core_modCore_keeps Core.id _ c _ ?_ d).trans (State.core_modCore_keeps Core.id _ c _ (Core.id_modEng _ _ _) d)
  rfl

section
variable {s : State} {c : CoreId} {q : QEntry} {src : Nat} {dev : DevId} {core : BitVec 3} {queue : BitVec 4} {len : Nat} {sched : Bool} {tag : BitVec 16}

/-- The message under way to a core of this module. -/
def State.ownMsg (s : State) (c : Nat) (q : QEntry) (core : BitVec 3) (queue : BitVec 4) (payload : List Byte) : LocalMsg :=
  { src := .core c q.id, core := core.toNat, queue := queue.toNat, jobTag := (s.core c).id.jobTag, entries := entriesOf s.dev c payload, ft := s.now }

theorem State.sendBegun_tag (p : PendingSend) : ((s.sendBegun c q p).core c).id.jobTag = (s.core c).id.jobTag := by
  unfold State.sendBegun State.sendRuns
  rw [State.core_modCore_keeps (fun k => k.id.jobTag) _ c.val (fun k => k.modMsg _) rfl, State.start_id]
  exact State.core_modCore_keeps (fun k => k.id.jobTag) s c.val (fun k => k.modMsg _) rfl c

/-- A message to this module is under way. -/
theorem State.sendNow_own (good : s.ms.badRange src (64 * len) = false) (own : s.isOwnDev dev = true) :
    s.sendNow c q src dev core queue len sched tag =
      { s.sendBegun c q (q.pendingSend s.now dev core queue sched tag) with
        locals := s.locals ++ [s.ownMsg c q core queue (s.ms.bytes src (64 * len))] } := by
  obtain ⟨p, hp⟩ : ∃ p, p = q.pendingSend s.now dev core queue sched tag := ⟨_, rfl⟩
  have rest := s.sendBegun_rest c q p
  have fab : (s.sendBegun c q p).fab = s.fab := (congrArg State.fab rest).trans rfl
  have time : (s.sendBegun c q p).time = s.time := (congrArg State.time rest).trans rfl
  have locals : (s.sendBegun c q p).locals = s.locals := (congrArg State.locals rest).trans rfl
  have own' : (s.sendBegun c q p).isOwnDev dev = true := by
    unfold State.isOwnDev State.dev
    rw [fab]
    exact own
  have sent : s.sendNow c q src dev core queue len sched tag =
      { s.sendBegun c q p with
        locals := (s.sendBegun c q p).locals ++ [(s.sendBegun c q p).ownMsg c q core queue (s.ms.bytes src (64 * len))] } := by
    subst hp
    exact (if_neg (Bool.eq_false_iff.mp good)).trans (if_pos own')
  have message : (s.sendBegun c q p).ownMsg c q core queue (s.ms.bytes src (64 * len)) = s.ownMsg c q core queue (s.ms.bytes src (64 * len)) := by
    unfold State.ownMsg State.dev State.now
    rw [State.sendBegun_tag, fab, time]
  rw [sent, message, locals, hp]

/-- The message to a core of another module. -/
def State.farMsg (s : State) (c : Nat) (dev : DevId) (core : BitVec 3) (queue : BitVec 4) (payload : List Byte) : PacketFields :=
  { ty := 0x5, dst := dev, src := s.dev, srcCore := c, jobTag := (s.core c).id.jobTag, dstCore := core.toNat, queue := queue.toNat,
    payload := payload }

/-- A message to another module is a request, or a ready packet of the scheduled class. -/
theorem State.sendNow_far (good : s.ms.badRange src (64 * len) = false) (far : s.isOwnDev dev = false) :
    s.sendNow c q src dev core queue len sched tag =
      if sched then (s.sendBegun c q (q.pendingSend s.now dev core queue sched tag)).readySched
        (s.farMsg c dev core queue (s.ms.bytes src (64 * len))) tag.toNat (.msg c q.id) c 4 q.id (s.lateLimit (q.launch.getD s.now)) (some (src, 64 * len))
      else (s.sendBegun c q (q.pendingSend s.now dev core queue sched tag)).newReq
        (s.farMsg c dev core queue (s.ms.bytes src (64 * len))) (.msg c q.id) (some (src, 64 * len)) := by
  obtain ⟨p, hp⟩ : ∃ p, p = q.pendingSend s.now dev core queue sched tag := ⟨_, rfl⟩
  have rest := s.sendBegun_rest c q p
  have fab : (s.sendBegun c q p).fab = s.fab := (congrArg State.fab rest).trans rfl
  have time : (s.sendBegun c q p).time = s.time := (congrArg State.time rest).trans rfl
  have far' : ¬ (s.sendBegun c q p).isOwnDev dev = true := by
    unfold State.isOwnDev State.dev
    rw [fab]
    exact Bool.eq_false_iff.mp far
  have sent : s.sendNow c q src dev core queue len sched tag =
      if sched then (s.sendBegun c q p).readySched ((s.sendBegun c q p).farMsg c dev core queue (s.ms.bytes src (64 * len))) tag.toNat (.msg c q.id)
        c 4 q.id ((s.sendBegun c q p).lateLimit (q.launch.getD (s.sendBegun c q p).now)) (some (src, 64 * len))
      else (s.sendBegun c q p).newReq ((s.sendBegun c q p).farMsg c dev core queue (s.ms.bytes src (64 * len))) (.msg c q.id) (some (src, 64 * len)) := by
    subst hp
    exact (if_neg (Bool.eq_false_iff.mp good)).trans (if_neg far')
  have message : (s.sendBegun c q p).farMsg c dev core queue (s.ms.bytes src (64 * len)) = s.farMsg c dev core queue (s.ms.bytes src (64 * len)) := by
    unfold State.farMsg State.dev
    rw [State.sendBegun_tag, fab]
  have limit (x : BitVec 64) : (s.sendBegun c q p).lateLimit x = s.lateLimit x := by
    unfold State.lateLimit
    rw [time]
  rw [sent, message, limit, show (s.sendBegun c q p).now = s.now from congrArg TimeBlk.ft time, hp]

end

end Sys2Proof.Machine
end

section
/-! PROOFS. O22 SendsLeave: a SEND on a ready core. -/

namespace Sys2Proof.Machine

set_option Elab.async false -- in turn: many waiting threads need much memory

/-! ## A SEND that has begun on a ready core -/

/-- The core k on which SEND p has begun. -/
def Core.sendBegun (k : Core) (q : QEntry) (rs : List Range) (op : EngOp) (r : REntry) (p : PendingSend) (md : DevId) : Core :=
  { k.msgBegun q rs op r with msg := k.msg.sentTo p md }

section
variable {s : State} {c : CoreId} {q : QEntry} {rs : List Range} {op : EngOp} {p : PendingSend}

theorem State.sendBegun_ready (now : q.launch = none) : ∃ r, r.q = q ∧ (s.modCore c (fun k => k.queued .msg q rs op)).sendBegun c q p =
    s.modCore c (fun k => k.sendBegun q rs op r p (s.mirrorDev p.dev)) := by
  obtain ⟨r, mine, started⟩ := (s.modCore c (fun k => k.modMsg (fun r => { r with holding := false }))).start_msg c q rs op
    { q := q, inRows := false } rfl now
  have swap : ((s.modCore c (fun k => k.queued .msg q rs op)).modCore c (fun k => k.modMsg (fun r => { r with holding := false }))) =
      ((s.modCore c (fun k => k.modMsg (fun r => { r with holding := false }))).modCore c (fun k => k.queued .msg q rs op)) := by
    rw [State.modCore_modCore, State.modCore_modCore]
    rfl
  have runs : (s.modCore c (fun k => k.queued .msg q rs op)).sendRuns c q =
      s.modCore c (fun k => (k.modMsg (fun r => { r with holding := false })).msgBegun q rs op r) := by
    unfold State.sendRuns
    rw [swap, started, State.modCore_modCore]
  refine ⟨r, mine, ?_⟩
  unfold State.sendBegun
  rw [runs, State.modCore_modCore]
  rfl

/-- The state in which SEND q has begun, apart from its message. -/
structure State.SendLeft (s t : State) (c : CoreId) (q : QEntry) (p : PendingSend) : Prop where
  queue : (t.core c).msgq.queue = []
  sends : (t.core c).msg.sends = (s.core c).msg.sends ++ [p]
  mirror : (t.core c).msg.mirror.head?.map (fun e => (e.dev, e.core.toNat, e.queue.toNat)) = some (s.mirrorDev p.dev, p.core.toNat, p.queue.toNat)
  pc : (t.core c).seq.pc = (s.core c).seq.pc + 1
  cc : (t.core c).seq.cc = (s.core c).seq.cc
  others : s.otherCores t c
  rests : t.MsgRests c
  step : s.StepOf t c

theorem MsgRegs.sentTo_head (r : MsgRegs) (p : PendingSend) (md : DevId) :
    (r.sentTo p md).mirror.head?.map (fun e => (e.dev, e.core.toNat, e.queue.toNat)) = some (md, p.core.toNat, p.queue.toNat) := by
  simp [MsgRegs.sentTo, MsgRegs.address]

theorem State.MsgBegun.left {u : State} (hr : s.Ready c) (h : s.MsgBegun u c q) : u.MsgRests c ∧ s.StepOf u c := by
  obtain ⟨buf, nowait, -, queues⟩ := s.ready_empty c hr
  have runs : (s.core c).seq.ended = false := hr.1.2.2.2.1
  obtain ⟨stopped, sb, n, l, seq⟩ := h.seq
  exact ⟨{ rests := State.msgHead_empty h.queue
           heads := fun p ps hp => nomatch hp.symm.trans h.queue
           queues := fun x hx ne => (congrArg EngQueue.queue (h.engs x hx ne)).trans (queues x hx)
           buf := seq ▸ buf
           nowait := seq ▸ nowait
           stall := seq ▸ rfl },
    { ids := h.ids, others := h.others, runs := seq ▸ runs, parts := h.parts, armed := h.armed }⟩

/-- What leaves the cores of such a state alone leaves the rest of it. -/
theorem State.SendLeft.of_begun {t : State} {r : REntry} (hr : s.Ready c) (mine : r.q = q) (alone : (s.core c).msgq.running = [])
    (cores : t.cores = (s.modCore c (fun k => k.sendBegun q rs op r p (s.mirrorDev p.dev))).cores) (parts : t.parts = s.parts)
    (eth : t.eth = s.eth) : s.SendLeft t c q p := by
  have core (d : Nat) : t.core d = (s.modCore c (fun k => k.sendBegun q rs op r p (s.mirrorDev p.dev))).core d :=
    congrArg (fun v : Vector Core 8 => v.getD d {}) cores
  have here : t.core c = (s.core c).sendBegun q rs op r p (s.mirrorDev p.dev) := by
    rw [core, State.core_modCore, if_pos ⟨rfl, c.isLt⟩]
  have begun : s.MsgBegun t c q := by
    refine (State.MsgBegun.of_start (rs := rs) (op := op) mine alone).of_msg (fun d => ?_) parts (congrArg EthBlk.armed eth)
    rw [core, State.core_modCore, State.core_modCore]
    split
    · exact ⟨_, rfl⟩
    · exact ⟨(s.core d).msg, rfl⟩
  obtain ⟨rests, step⟩ := begun.left hr
  exact
    { queue := here ▸ rfl
      sends := here ▸ rfl
      mirror := here ▸ (s.core c).msg.sentTo_head p (s.mirrorDev p.dev)
      pc := here ▸ rfl
      cc := here ▸ rfl
      others := fun d ne => by rw [core, State.core_modCore, if_neg (fun h => ne h.1)]
      rests := rests
      step := step }

end

/-! ## The word -/

/-- The fields of a SEND. -/
def sendOp (src : Nat) (dev : DevId) (core n : Nat) (w : IWord) : EngOp :=
  .send src dev (BitVec.ofNat 3 core) (fld w 41 4) n (bitB w 48) (bitB w 49) (fld w 50 16)

theorem withOp_bitB (w : IWord) (e o i : Nat) (h : i < 116) : bitB (Word128.withOp w e o) i = bitB w i := withOp_bit w e o i h

theorem State.resolve_send (s : State) (c : CoreId) (w : IWord) :
    (s.offered c (s.decodedAt c (Word128.withOp w 7 1))).resolve c (Word128.withOp w 7 1) = s.issueSend c (Word128.withOp w 7 1) := by
  have same := s.offered_core c (s.decodedAt c (Word128.withOp w 7 1)) c.isLt
  have send (u : State) : u.resolve c (Word128.withOp w 7 1) = u.issueSend c (Word128.withOp w 7 1) := by
    unfold State.resolve
    rw [withOp_engine, withOp_opcode]
    rfl
  rw [send]
  simp only [State.issueSend, State.operand, State.operandCauses, State.placeOk, State.partNo, same]
  rfl

/-- What an accepted SEND names. -/
theorem State.issueSend_names {s : State} {c : CoreId} {w : IWord} (passes : (s.issueSend c (Word128.withOp w 7 1)).cause = 0) :
    inSram c (s.operand c (Word128.withOp w 7 1) 0).nat (64 * (fldN w 45 3 + 1)) = true ∧
    fldN w 38 3 + (if Word128.pcs (Word128.withOp w 7 1) then (s.core c).subRank else 0) < 8 ∧
    (s.issueSend c (Word128.withOp w 7 1)).op = sendOp (s.operand c (Word128.withOp w 7 1) 0).nat (fld w 24 14)
      (fldN w 38 3 + (if Word128.pcs (Word128.withOp w 7 1) then (s.core c).subRank else 0)) (fldN w 45 3 + 1) w ∧
    (s.issueSend c (Word128.withOp w 7 1)).claims = [.rd (s.operand c (Word128.withOp w 7 1) 0).nat (64 * (fldN w 45 3 + 1))] := by
  have body (lo len : Nat) (h : lo + len ≤ 116) : Word128.body (Word128.withOp w 7 1) lo len = fldN w lo len := withOp_fldN w 7 1 lo len h
  obtain ⟨inside, more⟩ := State.operandCauses_ownSram (s := s) (c := c) (fun x hx => by
    simp only [List.mem_cons, List.not_mem_nil, or_false] at hx
    rcases hx with rfl | rfl <;> exact Nat.succ_ne_zero _) passes
  have small := more _ (.tail _ (.head _))
  rw [decide_eq_false_iff_not, Nat.not_le] at small
  rw [body 45 3 (by decide)] at inside
  rw [body 38 3 (by decide)] at small
  refine ⟨inside, small, ?_, ?_⟩
  · simp only [State.issueSend, sendOp, body 45 3 (by decide), body 38 3 (by decide), body 24 14 (by decide), body 41 4 (by decide),
      body 50 16 (by decide), withOp_bitB w 7 1 48 (by decide), withOp_bitB w 7 1 49 (by decide), ← fld_eq_ofNat_fldN]
  · simp only [State.issueSend, body 45 3 (by decide)]

end Sys2Proof.Machine
end

section
/-! PROOFS. O22 SendsLeave: requests stay in their table while packets leave (R308). -/

namespace Sys2Proof.Machine

set_option Elab.async false -- in turn: many waiting threads need much memory

/-- A step that leaves the requests of this module and the next XID as they are. -/
def KeepsReqs (f : State → State) : Prop := ∀ s, (f s).fab.out = s.fab.out ∧ (f s).fab.nextXid = s.fab.nextXid

namespace KeepsReqs

theorem comp {f g : State → State} (hg : KeepsReqs g) (hf : KeepsReqs f) : KeepsReqs (fun s => g (f s)) := fun s =>
  ⟨(hg (f s)).1.trans (hf s).1, (hg (f s)).2.trans (hf s).2⟩

theorem foldl {α : Type} {f : State → α → State} (hf : ∀ x, KeepsReqs (fun s => f s x)) (l : List α) : KeepsReqs (fun s => l.foldl f s) := by
  induction l with
  | nil => exact fun _ => ⟨rfl, rfl⟩
  | cons x l ih => exact comp ih (hf x)

theorem modLane (k : Nat) (g : Lane → Lane) : KeepsReqs (fun s => s.modLane k g) := fun _ => ⟨rfl, rfl⟩

theorem putOn (k : Nat) (sp : SentPacket) (start : Option Nat) : KeepsReqs (fun s => s.putOn k sp start) := by
  cases start <;> exact fun _ => ⟨rfl, rfl⟩

theorem transitFalls (k t cause : Nat) (p : Packet) : KeepsReqs (fun s => s.transitFalls k t cause p) := by
  intro s
  dsimp only
  unfold State.transitFalls
  split <;> exact ⟨rfl, rfl⟩

theorem stamp (k : Nat) (sp : SentPacket) : KeepsReqs (fun s => (s.stamp k sp).1) := by
  intro s
  dsimp only
  unfold State.stamp
  split <;> exact ⟨rfl, rfl⟩

theorem sendReordered (k : Nat) (h : HeldPacket) : KeepsReqs (fun s => s.sendReordered k h) := by
  intro s
  dsimp only
  unfold State.sendReordered
  cases h.from_ with
  | bestEffort =>
    dsimp only
    split
    · exact comp (putOn k (s.stamp k h.sp).2 (some s.instant)) (stamp k h.sp) s
    · exact ⟨rfl, rfl⟩
  | source x =>
    dsimp only
    split
    · exact putOn k h.sp (some s.instant) s
    · split <;> exact ⟨rfl, rfl⟩
  | transit i =>
    dsimp only
    split
    · exact ⟨rfl, rfl⟩
    · split
      · exact putOn k h.sp (some s.instant) s
      · exact transitFalls _ _ _ _ s

theorem releaseHeld (k : Nat) (which : HeldPacket → Bool) : KeepsReqs (fun s => s.releaseHeld k which) := fun s =>
  comp (foldl (sendReordered k) ((s.lane k).reorder.filter which)) (modLane k (fun l => { l with reorder := l.reorder.filter (fun h => !which h) })) s

theorem laneSend (k : Nat) (p : Packet) (from_ : SchedFrom) (start : Option Nat) : KeepsReqs (fun s => s.laneSend k p from_ start) := by
  intro s
  dsimp only
  unfold State.laneSend
  obtain ⟨sp, hold⟩ := s.fab.drawFaults k p
  cases hold
  · exact comp (releaseHeld k _) (comp (putOn k sp start) (modLane k _)) s
  · exact comp (modLane k _) (modLane k _) s

theorem wakes (k : Nat) :
    KeepsReqs (fun s => if (s.lane k).state == .listen then s.modLane k (fun l => { l with wakeTx := true }) else s) := by
  intro s
  dsimp only
  split <;> exact ⟨rfl, rfl⟩

theorem queueTrunk (t : Nat) (p : Packet) : KeepsReqs (fun s => s.queueTrunk t p none none) := by
  intro s
  dsimp only
  unfold State.queueTrunk
  cases s.pickLane t p with
  | none =>
    exact comp (f := fun s => (trunkLanes t).foldl (fun s k =>
        if (s.lane k).state == .listen then s.modLane k (fun l => { l with wakeTx := true }) else s) s)
      (g := fun s => s.modFab (fun f => { f with waiting := f.waiting ++ [⟨t, p, none, none⟩] })) (fun _ => ⟨rfl, rfl⟩) (foldl (wakes) (trunkLanes t)) s
  | some k => exact laneSend k p .bestEffort _ s

end KeepsReqs

/-! ## The fields of a message packet (R302) -/

/-- The first word of a packet's header, before its class and directions. -/
theorem PacketFields.build_w0 (f : PacketFields) : (f.build).w0.toNat =
    (f.ty + f.payload.length / 64 * 2 ^ 10 + f.dst.toNat * 2 ^ 17 + f.src.toNat * 2 ^ 31 + f.srcCore * 2 ^ 45 + f.jobTag.toNat * 2 ^ 48) % 2 ^ 64 := by
  refine (BitVec.toNat_ofNat _ _).trans (congrArg (· % 2 ^ 64) ?_)
  rw [List.foldl_cons, List.foldl_cons, List.foldl_cons, List.foldl_cons, List.foldl_cons, List.foldl_cons, List.foldl_nil, Nat.zero_add, pow_zero,
    Nat.mul_one]

section
variable {f : PacketFields} (ty : f.ty < 16) (len : f.payload.length / 64 < 128) (core : f.srcCore < 8)
include ty len core

theorem PacketFields.build_fields : f.build.ty = f.ty ∧ f.build.len = f.payload.length / 64 ∧ f.build.dst = f.dst ∧ f.build.jobTag = f.jobTag := by
  have dst := f.dst.isLt
  have src := f.src.isLt
  have tag := f.jobTag.isLt
  have w0 := f.build_w0
  rw [Nat.mod_eq_of_lt (by omega)] at w0
  have number (lo n : Nat) (x : BitVec n) (same : fldN f.build.w0 lo n = x.toNat) : fld f.build.w0 lo n = x := BitVec.eq_of_toNat_eq same
  refine ⟨?_, ?_, ?_, ?_⟩
  · refine (fldN_eq _ 0 4).trans ?_
    rw [w0]
    omega
  · refine (fldN_eq _ 10 7).trans ?_
    rw [w0]
    omega
  · refine number 17 14 f.dst ((fldN_eq _ 17 14).trans ?_)
    rw [w0]
    omega
  · refine number 48 16 f.jobTag ((fldN_eq _ 48 16).trans ?_)
    rw [w0]
    omega

end

/-- Of the first word, class, directions and virtual channel are set apart from the rest. -/
structure Packet.SameHead (p q : Packet) : Prop where
  ty : q.ty = p.ty
  dst : q.dst = p.dst
  tag : q.jobTag = p.jobTag
  len : q.len = p.len
  payload : q.payload = p.payload

theorem Packet.SameHead.trans {p q r : Packet} (h : p.SameHead q) (g : q.SameHead r) : p.SameHead r :=
  ⟨g.ty.trans h.ty, g.dst.trans h.dst, g.tag.trans h.tag, g.len.trans h.len, g.payload.trans h.payload⟩

theorem Packet.SameHead.of_w0 {p q : Packet} (lo len v : Nat) (low : 4 ≤ lo) (high : lo + len ≤ 10) (w0 : q.w0 = setFld p.w0 lo len v)
    (payload : q.payload = p.payload) : p.SameHead q := by
  have out (a n : Nat) (apart : a + n ≤ 4 ∨ 10 ≤ a) : fld q.w0 a n = fld p.w0 a n := by
    rw [w0]
    exact fld_setFld_out p.w0 lo len v a n (by omega)
  exact ⟨congrArg BitVec.toNat (out 0 4 (.inl (le_refl 4))), out 17 14 (.inr (by decide)), out 48 16 (.inr (by decide)),
    congrArg BitVec.toNat (out 10 7 (.inr (le_refl 10))), payload⟩

theorem Packet.sameHead_class (p : Packet) (b : Bool) : p.SameHead (p.withClass b) := .of_w0 4 1 (b2n b) (le_refl 4) (by decide) rfl rfl
theorem Packet.sameHead_dir (p : Packet) (d : BitVec 4) : p.SameHead (p.withDir d) := .of_w0 6 4 d.toNat (by decide) (le_refl 10) rfl rfl
theorem Packet.sameHead_vc (p : Packet) (v : Nat) : p.SameHead (p.withVc v) := .of_w0 5 1 v (by decide) (by decide) rfl rfl
theorem Packet.sameHead_expiry (p : Packet) (now : BitVec 64) : p.SameHead (p.withExpiry now) := ⟨rfl, rfl, rfl, rfl, rfl⟩
theorem Packet.sameHead_tag (p : Packet) (g : Nat) : p.SameHead (p.withTag g) := ⟨rfl, rfl, rfl, rfl, rfl⟩

theorem Packet.dir_withDir (p : Packet) (d : BitVec 4) : (p.withDir d).dir = d := by
  refine (fld_setFld_same p.w0 6 4 d.toNat (by decide)).trans ?_
  rw [BitVec.ofNat_toNat, BitVec.setWidth_eq]

theorem nextTrunk_congr {p q : Packet} (here : Nat) (dst : q.dst = p.dst) (dir : q.dir = p.dir) : nextTrunk here q = nextTrunk here p := by
  unfold nextTrunk
  rw [dst, dir]

end Sys2Proof.Machine
end

section
/-! PROOFS. O22 SendsLeave: SEND on a ready core, held, to this module, and to another (R36, R37, R308, R334). -/

namespace Sys2Proof.Machine

set_option Elab.async false -- in turn: many waiting threads need much memory

/-! ## The word and its entry -/

/-- Source address, destination core, queue entry and pending SEND of a SEND word on core c. -/
def State.sendSrc (s : State) (c : CoreId) (w : IWord) : Nat := (s.operand c (Word128.withOp w 7 1) 0).nat
def State.sendCore (s : State) (c : CoreId) (w : IWord) : Nat :=
  fldN w 38 3 + (if Word128.pcs (Word128.withOp w 7 1) then (s.core c).subRank else 0)
def State.sendEntry (s : State) (c : CoreId) (w : IWord) : QEntry :=
  entryOf (s.core c) ((s.core c).seq.pc.setWidth 17) (Word128.withOp w 7 1) false none (some (s.issueSend c (Word128.withOp w 7 1)).op)
def State.sendPending (s : State) (c : CoreId) (w : IWord) : PendingSend :=
  (s.sendEntry c w).pendingSend s.now (fld w 24 14) (BitVec.ofNat 3 (s.sendCore c w)) (fld w 41 4) (bitB w 49) (fld w 50 16)

/-- The state in which a SEND word has issued. -/
def State.sendQueued (s : State) (c : CoreId) (w : IWord) : State :=
  s.modCore c (fun k => k.queued .msg (s.sendEntry c w) (liveRanges (s.issueSend c (Word128.withOp w 7 1)).claims) (s.issueSend c (Word128.withOp w 7 1)).op)

/-- The state in which it has begun. -/
def State.sendGone (s : State) (c : CoreId) (w : IWord) (r : REntry) : State :=
  s.modCore c (fun k => k.sendBegun (s.sendEntry c w) (liveRanges (s.issueSend c (Word128.withOp w 7 1)).claims)
    (s.issueSend c (Word128.withOp w 7 1)).op r (s.sendPending c w) (s.mirrorDev (fld w 24 14)))

theorem State.sendEntry_sigcc (s : State) (c : CoreId) (w : IWord) : (s.sendEntry c w).sigcc = Word128.sigcc w := by
  have notLaunch : isLaunch (Word128.withOp w 7 1) = false := by simp [isLaunch, withOp_engine, engSEQ]
  simp only [State.sendEntry, entryOf, notLaunch, Bool.false_eq_true, if_false, withOp_sigcc]

theorem State.sendQueued_core (s : State) (c : CoreId) (w : IWord) :
    ((s.sendQueued c w).core c).msgq.queue = [s.sendEntry c w] ∧ ((s.sendQueued c w).core c).msg = (s.core c).msg ∧
    ((s.sendQueued c w).core c).id = (s.core c).id := by
  have here : (s.sendQueued c w).core c = (s.core c).queued .msg (s.sendEntry c w) (liveRanges (s.issueSend c (Word128.withOp w 7 1)).claims)
      (s.issueSend c (Word128.withOp w 7 1)).op := by simp [State.sendQueued]
  rw [here]
  exact ⟨congrArg EngQueue.queue ((s.core c).queued_eng .msg .msg _ _ _), rfl, rfl⟩

/-- Whether a SEND goes at once. -/
def State.sendGoes (s : State) (c : CoreId) (w : IWord) : Prop :=
  bitB w 48 = false ∨ (s.core c).msg.mirrorFull (s.mirrorDev (fld w 24 14)) (s.sendCore c w) (fldN w 41 4) = false

section
variable {s : State} {c : CoreId} {w : IWord} (passes : (s.issueSend c (Word128.withOp w 7 1)).cause = 0)
include passes

theorem State.sendEntry_op : (s.sendEntry c w).op = some (sendOp (s.sendSrc c w) (fld w 24 14) (s.sendCore c w) (fldN w 45 3 + 1) w) := by
  obtain ⟨-, -, op, -⟩ := State.issueSend_names passes
  exact congrArg some op

theorem State.sendCore_toNat : (BitVec.ofNat 3 (s.sendCore c w)).toNat = s.sendCore c w := by
  obtain ⟨-, small, -, -⟩ := State.issueSend_names passes
  rw [BitVec.toNat_ofNat]
  exact Nat.mod_eq_of_lt small

/-- A SEND that goes at once. -/
theorem State.msgHead_sendGoes (goes : s.sendGoes c w) (may : s.mayRequest (fld w 24 14) = true) : (s.sendQueued c w).msgHead c =
    some ((s.sendQueued c w).sendNow c (s.sendEntry c w) (s.sendSrc c w) (fld w 24 14) (BitVec.ofNat 3 (s.sendCore c w)) (fld w 41 4) (fldN w 45 3 + 1)
      (bitB w 49) (fld w 50 16)) := by
  obtain ⟨head, msg, -⟩ := s.sendQueued_core c w
  have now : (s.sendEntry c w).launchOk (s.sendQueued c w).now = true := rfl
  have free : (bitB w 48 && (s.core c).msg.mirrorFull (s.mirrorDev (fld w 24 14)) (s.sendCore c w) (fld w 41 4).toNat) = false := by
    rcases goes with h | h
    · rw [h, Bool.false_and]
    · rw [show (fld w 41 4).toNat = fldN w 41 4 from rfl, h, Bool.and_false]
  have md : (s.sendQueued c w).mirrorDev (fld w 24 14) = s.mirrorDev (fld w 24 14) := rfl
  have may' : (s.sendQueued c w).mayRequest (fld w 24 14) = true := may
  unfold State.msgHead
  rw [head]
  dsimp only
  rw [now, State.sendEntry_op passes]
  dsimp only [sendOp]
  rw [msg, md, State.sendCore_toNat passes, free, may']
  rfl

/-- A SEND that waits for credit. -/
theorem State.msgHead_sendHeld {t : State} (msg : (t.core c).msg.mirror = (s.core c).msg.mirror) (queue : (t.core c).msgq.queue = [s.sendEntry c w])
    (fab : t.fab = s.fab) (wait : bitB w 48 = true)
    (full : (s.core c).msg.mirrorFull (s.mirrorDev (fld w 24 14)) (s.sendCore c w) (fldN w 41 4) = true) :
    t.msgHead c = if (t.core c).msg.holding then none else some (t.modCore c (fun k => k.modMsg (fun r => { r with holding := true }))) := by
  have now : (s.sendEntry c w).launchOk t.now = true := rfl
  have md : t.mirrorDev (fld w 24 14) = s.mirrorDev (fld w 24 14) := by
    unfold State.mirrorDev State.isOwnDev State.dev
    rw [fab]
  have full' : (t.core c).msg.mirrorFull (s.mirrorDev (fld w 24 14)) (s.sendCore c w) (fld w 41 4).toNat = true := by
    unfold MsgRegs.mirrorFull at full ⊢
    rw [msg]
    exact full
  unfold State.msgHead
  rw [queue]
  dsimp only
  rw [now, State.sendEntry_op passes]
  dsimp only [sendOp]
  rw [md, State.sendCore_toNat passes, full', wait]
  rfl

variable (hr : s.Ready c) (hd : decodeCause (Word128.withOp w 7 1) = 0) (sb : (s.core c).seq.sb = [])
include hr hd sb

/-- SEND issues, and its engine does what it can. -/
theorem State.exec_send {t : State} (pumps : State.pumpMsg c 32 (s.sendQueued c w) = t) (rests : t.MsgRests c) (step : s.StepOf t c) :
    exec (.send c w) s = .next t := by
  obtain ⟨-, -, -, claims⟩ := State.issueSend_names passes
  refine congrArg Host.Outcome.next (State.fetch_pumped hr hd (by rw [withOp_engine]; rfl) (s.resolve_send c w).symm passes ?_ ?_ rfl pumps rests step)
  · rw [SeqState.sbStalls, sb]
    simp
  · rw [sb, claims]
    exact (Nat.zero_add _).le.trans ((List.length_filter_le _ _).trans (show 1 ≤ 64 by decide))

theorem State.exec_sendGoes {t : State} (head : (s.sendQueued c w).msgHead c = some t) (rests : t.MsgRests c) (step : s.StepOf t c) :
    exec (.send c w) s = .next t := by
  refine State.exec_send passes hr hd sb ?_ rests step
  have heads (p : QEntry) (ps : List QEntry) (hp : ((s.sendQueued c w).core c).msgq.queue = p :: ps) : p.op.isSome = true := by
    rw [(s.sendQueued_core c w).1, List.cons.injEq] at hp
    rw [← hp.1, State.sendEntry_op passes]
    rfl
  rw [show (32 : Nat) = 31 + 1 from rfl, State.pumpMsg, State.dropNulls_waits _ c .msg 32 heads, head]
  exact State.pumpMsg_rests rests 31

/-- A SEND that goes at once leaves its core for its destination. -/
theorem State.sendGone_ready (alone : (s.core c).msgq.running = []) (goes : s.sendGoes c w) (may : s.mayRequest (fld w 24 14) = true) {t : State}
    (left : ∀ r, (s.sendQueued c w).sendBegun c (s.sendEntry c w) (s.sendPending c w) = s.sendGone c w r →
      (s.sendQueued c w).sendNow c (s.sendEntry c w) (s.sendSrc c w) (fld w 24 14) (BitVec.ofNat 3 (s.sendCore c w)) (fld w 41 4) (fldN w 45 3 + 1)
        (bitB w 49) (fld w 50 16) = t ∧ t.cores = (s.sendGone c w r).cores ∧ t.parts = s.parts ∧ t.eth = s.eth) :
    exec (.send c w) s = .next t ∧ s.SendLeft t c (s.sendEntry c w) (s.sendPending c w) := by
  obtain ⟨r, mine, begun⟩ := State.sendBegun_ready (s := s) (c := c) (q := s.sendEntry c w)
    (rs := liveRanges (s.issueSend c (Word128.withOp w 7 1)).claims) (op := (s.issueSend c (Word128.withOp w 7 1)).op) (p := s.sendPending c w) rfl
  obtain ⟨now, cores, parts, eth⟩ := left r begun
  have gone : s.SendLeft t c (s.sendEntry c w) (s.sendPending c w) := .of_begun hr mine alone cores parts eth
  exact ⟨State.exec_sendGoes passes hr hd sb ((State.msgHead_sendGoes passes goes may).trans (congrArg some now)) gone.rests gone.step, gone⟩

end

end Sys2Proof.Machine
end

section
/-! PROOFS. O22 SendsLeave: the rows on a ready core. -/

namespace Sys2Proof.Machine

set_option Elab.async false -- in turn: many waiting threads need much memory

theorem State.StepOf.of_modCore (s : State) (c : Nat) (f : Core → Core) (hc : c < 8) (id_ : (f (s.core c)).id = (s.core c).id)
    (runs : (f (s.core c)).seq.ended = false) : s.StepOf (s.modCore c f) c :=
  { ids := fun d => s.core_modCore_keeps Core.id c f id_ d
    others := fun d ne => by
      rw [State.core_modCore, if_neg (fun h => ne h.1)]
      exact ⟨rfl, rfl, rfl⟩
    runs := by
      rw [State.core_modCore, if_pos ⟨rfl, hc⟩]
      exact runs
    parts := rfl
    armed := rfl }

/-- The state in which a SEND waits for credit. -/
def State.sendHolds (s : State) (c : CoreId) (w : IWord) : State :=
  (s.sendQueued c w).modCore c (fun k => k.modMsg (fun r => { r with holding := true }))

theorem State.sendHolds_core (s : State) (c : CoreId) (w : IWord) : (s.sendHolds c w).core c =
    ((s.core c).queued .msg (s.sendEntry c w) (liveRanges (s.issueSend c (Word128.withOp w 7 1)).claims)
      (s.issueSend c (Word128.withOp w 7 1)).op).modMsg (fun r => { r with holding := true }) := by
  unfold State.sendHolds State.sendQueued
  rw [State.modCore_modCore, State.core_modCore, if_pos ⟨rfl, c.isLt⟩]

section
variable {s : State} {c : CoreId} {w : IWord} (hr : s.Ready c) (alone : (s.core c).msgq.running = [])
  (hd : decodeCause (Word128.withOp w 7 1) = 0) (passes : (s.issueSend c (Word128.withOp w 7 1)).cause = 0) (sb : (s.core c).seq.sb = [])
include hr hd passes sb

/-- A WAIT message to a full queue is held. -/
theorem State.exec_sendHolds (wait : bitB w 48 = true)
    (full : (s.core c).msg.mirrorFull (s.mirrorDev (fld w 24 14)) (s.sendCore c w) (fldN w 41 4) = true) :
    exec (.send c w) s = .next (s.sendHolds c w) := by
  obtain ⟨buf, nowait, -, queues⟩ := s.ready_empty c hr
  have here := s.sendHolds_core c w
  obtain ⟨queued, msg, -⟩ := s.sendQueued_core c w
  have queued_here : ((s.sendQueued c w).core c).msgq.queue = ((s.core c).queued .msg (s.sendEntry c w)
      (liveRanges (s.issueSend c (Word128.withOp w 7 1)).claims) (s.issueSend c (Word128.withOp w 7 1)).op).msgq.queue := by
    simp [State.sendQueued]
  have queue : ((s.sendHolds c w).core c).msgq.queue = [s.sendEntry c w] := by
    rw [here]
    exact queued_here.symm.trans queued
  have op (p : QEntry) (ps : List QEntry) (hp : [s.sendEntry c w] = p :: ps) : p.op.isSome = true := by
    rw [List.cons.injEq] at hp
    rw [← hp.1, State.sendEntry_op passes]
    rfl
  have rests : (s.sendHolds c w).MsgRests c :=
    { rests := by
        rw [State.msgHead_sendHeld passes (here ▸ rfl) queue rfl wait full, here]
        rfl
      heads := fun p ps hp => op p ps (queue.symm.trans hp)
      queues := fun u hu ne => by
        have other := (s.core c).queued_eng .msg u (s.sendEntry c w) (liveRanges (s.issueSend c (Word128.withOp w 7 1)).claims)
          (s.issueSend c (Word128.withOp w 7 1)).op
        rw [if_neg ne] at other
        rw [here]
        refine Eq.trans ?_ ((congrArg EngQueue.queue other).trans (queues u hu))
        cases u <;> rfl
      buf := here ▸ buf
      nowait := here ▸ nowait
      stall := here ▸ rfl }
  have runs : (s.core c).seq.ended = false := hr.1.2.2.2.1
  have step : s.StepOf (s.sendHolds c w) c := by
    unfold State.sendHolds State.sendQueued
    rw [State.modCore_modCore]
    exact .of_modCore s c _ c.isLt rfl runs
  have head := State.msgHead_sendHeld (t := s.sendQueued c w) passes (congrArg MsgRegs.mirror msg) queued rfl wait full
  refine State.exec_send passes hr hd sb ?_ rests step
  rw [show (32 : Nat) = 31 + 1 from rfl, State.pumpMsg, State.dropNulls_waits _ c .msg 32 (fun p ps hp => op p ps (queued.symm.trans hp)), head]
  cases holding : ((s.sendQueued c w).core c).msg.holding with
  | false => exact State.pumpMsg_rests rests 31
  | true =>
    have same : s.sendHolds c w = s.sendQueued c w := by
      unfold State.sendHolds
      rw [State.modCore_congr _ c _ (fun k => k), State.modCore_id]
      rw [Core.modMsg, ← holding]
    exact same.symm

include alone

/-- A message to this module is under way. -/
theorem State.exec_sendOwn (goes : s.sendGoes c w) (own : s.isOwnDev (fld w 24 14) = true) : ∃ t, exec (.send c w) s = .next t ∧
    s.SendLeft t c (s.sendEntry c w) (s.sendPending c w) ∧
    t.locals = s.locals ++ [s.ownMsg c (s.sendEntry c w) (BitVec.ofNat 3 (s.sendCore c w)) (fld w 41 4)
      (s.ms.bytes (s.sendSrc c w) (64 * (fldN w 45 3 + 1)))] ∧ t.ms = s.ms ∧ s.sameRest t := by
  have inside := (State.issueSend_names passes).1
  have good : (s.sendQueued c w).ms.badRange (s.sendSrc c w) (64 * (fldN w 45 3 + 1)) = false := s.ms.badRange_sram _ (inSram_sram inside)
  have may : s.mayRequest (fld w 24 14) = true := by
    unfold State.mayRequest
    rw [own, Bool.true_or]
  obtain ⟨r, -, gone⟩ := State.sendBegun_ready (s := s) (c := c) (q := s.sendEntry c w)
    (rs := liveRanges (s.issueSend c (Word128.withOp w 7 1)).claims) (op := (s.issueSend c (Word128.withOp w 7 1)).op) (p := s.sendPending c w) rfl
  have message : (s.sendQueued c w).ownMsg c (s.sendEntry c w) (BitVec.ofNat 3 (s.sendCore c w)) (fld w 41 4)
      (s.ms.bytes (s.sendSrc c w) (64 * (fldN w 45 3 + 1))) = s.ownMsg c (s.sendEntry c w) (BitVec.ofNat 3 (s.sendCore c w)) (fld w 41 4)
      (s.ms.bytes (s.sendSrc c w) (64 * (fldN w 45 3 + 1))) := by
    unfold State.ownMsg
    rw [(s.sendQueued_core c w).2.2]
    rfl
  obtain ⟨t, ht⟩ : ∃ t, t = ({ (s.sendQueued c w).sendBegun c (s.sendEntry c w) (s.sendPending c w) with
      locals := s.locals ++ [s.ownMsg c (s.sendEntry c w) (BitVec.ofNat 3 (s.sendCore c w)) (fld w 41 4)
        (s.ms.bytes (s.sendSrc c w) (64 * (fldN w 45 3 + 1)))] } : State) := ⟨_, rfl⟩
  have frame : t = { s.sendGone c w r with locals := t.locals } := by
    have same : (s.sendQueued c w).sendBegun c (s.sendEntry c w) (s.sendPending c w) = s.sendGone c w r := gone
    rw [ht, same]
  obtain ⟨run, left⟩ := State.sendGone_ready passes hr hd sb alone goes may (t := t) (fun r' gone' => by
    refine ⟨?_, ?_, (congrArg State.parts frame).trans rfl, (congrArg State.eth frame).trans rfl⟩
    · rw [State.sendNow_own good own, ht]
      exact congrArg (fun m => ({ (s.sendQueued c w).sendBegun c (s.sendEntry c w) (s.sendPending c w) with locals := s.locals ++ [m] } : State)) message
    · have cores : t.cores = ((s.sendQueued c w).sendBegun c (s.sendEntry c w) (s.sendPending c w)).cores := ht ▸ rfl
      exact cores.trans (congrArg State.cores gone'))
  exact ⟨t, run, left, ht ▸ rfl, (congrArg State.ms frame).trans rfl, by rw [frame]; exact ⟨rfl, rfl, rfl, rfl, rfl, rfl, rfl, rfl, rfl⟩⟩

end

end Sys2Proof.Machine
end

section
/-! PROOFS. O22 SendsLeave: SEND to another module (R308, R334). -/

namespace Sys2Proof.Machine

set_option Elab.async false -- in turn: many waiting threads need much memory

/-! ## A message request (R308) -/

theorem slice_all (l : List Byte) (n : Nat) (h : l.length = n) : slice l 0 n = l := by
  unfold slice
  rw [List.drop_zero, List.take_of_length_le (by omega), Nat.sub_zero, h, Nat.sub_self, List.replicate_zero, List.append_nil]

theorem Packet.sameHead_reload {s : State} {r : OutReq} {src n : Nat} (source : r.src = some (src, 64 * n)) (msg : r.pkt.ty = 5) (len : r.pkt.len = n)
    (low : src < 0x020000000000) (payload : r.pkt.payload = s.ms.bytes src (64 * n)) : r.pkt.SameHead (s.reload r) := by
  have body : slice (List.replicate 0 0 ++ s.view src (64 * n)) 0 (64 * r.pkt.len) = r.pkt.payload := by
    rw [List.replicate_zero, List.nil_append, len, payload, State.view, if_pos low]
    exact slice_all _ _ (Mem.readN_length _ _ _ _)
  have again : s.reload r = Packet.sealed { r.pkt with
      payload := slice (List.replicate 0 0 ++ s.view src (64 * n)) 0 (64 * r.pkt.len)
      w3 := setFld (setFld r.pkt.w3 0 32 (crc32 (slice (List.replicate 0 0 ++ s.view src (64 * n)) 0 (64 * r.pkt.len))).toNat) 38 1
        (b2n (s.ms.badRange src (64 * n))) } := by
    unfold State.reload
    simp only [source, msg]
  rw [again, body]
  exact ⟨rfl, rfl, rfl, rfl, rfl⟩

/-- What a request of the message f, kept under XID x, says. -/
structure State.KeptMsg (t : State) (f : PacketFields) (x : BitVec 32) (owner : ReqOwner) (src n : Nat) (cls : Bool) : Prop where
  next : t.fab.nextXid = x + 1
  kept : ∃ r ∈ t.fab.out, r.xid = x ∧ r.owner = owner ∧ r.src = some (src, 64 * n) ∧ r.pkt.ty = 0x5 ∧ r.pkt.dst = f.dst ∧ r.pkt.cls = cls ∧
    r.pkt.jobTag = f.jobTag ∧ r.pkt.payload = f.payload

theorem FabBlk.route_nextXid (b : FabBlk) (x : BitVec 32) (i j : Nat) : ({ b with nextXid := x } : FabBlk).route i j = b.route i j := rfl

section
variable {u : State} {f : PacketFields} {owner : ReqOwner} {src n : Nat} (ty : f.ty = 5) (core : f.srcCore < 8) (few : n ≤ 8)
  (payload : f.payload = u.ms.bytes src (64 * n))
include ty core few payload

theorem PacketFields.msg_fields : ({ f with xid := u.fab.nextXid } : PacketFields).build.ty = 5 ∧ ({ f with xid := u.fab.nextXid } : PacketFields).build.len = n ∧
    ({ f with xid := u.fab.nextXid } : PacketFields).build.dst = f.dst ∧ ({ f with xid := u.fab.nextXid } : PacketFields).build.jobTag = f.jobTag ∧
    ({ f with xid := u.fab.nextXid } : PacketFields).build.payload = f.payload := by
  have length : f.payload.length / 64 = n := by
    rw [payload, MemSys.bytes, Mem.readN_length]
    omega
  obtain ⟨a, b, c, d⟩ := PacketFields.build_fields (f := { f with xid := u.fab.nextXid }) (by rw [ty]; decide)
    (show f.payload.length / 64 < 128 by omega) core
  exact ⟨a.trans ty, b.trans length, c, d, rfl⟩

/-- A message to another module leaves as a best-effort request. -/
theorem State.newReq_leaves (low : src < 0x020000000000) {d : BitVec 4} {o : Nat} (route : u.fab.route u.dev.toNat f.dst.toNat = some d)
    (next : nextTrunk u.dev.toNat (({ f with xid := u.fab.nextXid } : PacketFields).build.withDir d) = some o) (up : u.trunkUp o = true) :
    u.newReq f owner (some (src, 64 * n)) = u.hosts (u.newReq f owner (some (src, 64 * n))) ∧
    (u.newReq f owner (some (src, 64 * n))).KeptMsg f u.fab.nextXid owner src n false := by
  obtain ⟨ty', len, dst, tag, body⟩ := PacketFields.msg_fields (u := u) ty core few payload
  obtain ⟨x, hx⟩ : ∃ x, x = u.fab.nextXid := ⟨_, rfl⟩
  obtain ⟨p, hp⟩ : ∃ p, p = ({ f with xid := x } : PacketFields).build := ⟨_, rfl⟩
  rw [← hx, ← hp] at ty' len dst tag body
  rw [← hx] at next
  obtain ⟨v, hv⟩ : ∃ v, v = u.modFab (fun b => { b with nextXid := b.nextXid + 1 }) := ⟨_, rfl⟩
  obtain ⟨r, hr⟩ : ∃ r : OutReq, r = { xid := x, pkt := p, owner := owner, src := some (src, 64 * n) } := ⟨_, rfl⟩
  have pkt : r.pkt = p := by rw [hr]
  have fresh : r.pkt.SameHead (v.reload r) := Packet.sameHead_reload (by rw [hr]) (by rw [pkt]; exact ty') (by rw [pkt]; exact len) low
    (by rw [pkt, body, payload, hv]; rfl)
  have begun : u.newReq f owner (some (src, 64 * n)) = State.sendReq 9 v r := by
    rw [hr, hv, hp, hx]
    rfl
  have classed := (fresh.trans ((v.reload r).sameHead_class false)).trans (((v.reload r).withClass false).sameHead_dir d)
  have dir : ((((v.reload r).withClass false).withDir d).withExpiry v.now).dir = (p.withDir d).dir :=
    (((v.reload r).withClass false).dir_withDir d).trans (p.dir_withDir d).symm
  have dst' : ((((v.reload r).withClass false).withDir d).withExpiry v.now).dst = (p.withDir d).dst := by
    refine (classed.trans (Packet.sameHead_expiry _ v.now)).dst.trans ?_
    rw [pkt]
    exact (p.sameHead_dir d).dst.symm
  have next' : nextTrunk v.dev.toNat ((((v.reload r).withClass false).withDir d).withExpiry v.now) = some o := by
    rw [nextTrunk_congr v.dev.toNat dst' dir, hp, hv]
    exact next
  have route' : v.fab.route v.dev.toNat r.pkt.dst.toNat = some d := by
    rw [pkt, dst, hv]
    exact (u.fab.route_nextXid _ _ _).trans route
  have up' : v.trunkUp o = true := by
    rw [hv]
    exact up
  have leaves := State.sendReq_leaves 8 route' next' up'
  obtain ⟨vc, hvc⟩ : ∃ k, k = v.fab.vcFor v.dev.toNat ((((v.reload r).withClass false).withDir d).withExpiry v.now) := ⟨_, rfl⟩
  obtain ⟨q, hq'⟩ : ∃ q, q = ((((v.reload r).withClass false).withDir d).withExpiry v.now).withVc vc := ⟨_, rfl⟩
  rw [← hvc, ← hq'] at leaves
  have head : p.SameHead q := by
    rw [hq', ← pkt]
    exact (classed.trans (Packet.sameHead_expiry _ v.now)).trans (Packet.sameHead_vc _ vc)
  have cls : q.cls = false := by
    rw [hq']
    exact ((v.reload r).bestEffort_fields d v.now vc).1
  rw [begun, leaves]
  have same := KeepsReqs.queueTrunk o q (v.keepReq { r with pkt := q })
  refine ⟨?_, ?_, { r with pkt := q }, ?_, ?_⟩
  · rw [hv]
    exact (Fabric.comp (.queueTrunk o q none none) (.comp (.keepReq _) (.modFab (fun b => { b with nextXid := b.nextXid + 1 })))).frame u
  · refine same.2.trans ?_
    rw [hv]
    rfl
  · rw [same.1]
    exact List.mem_append_right _ (.head _)
  · rw [hr]
    exact ⟨hx, rfl, rfl, head.ty.trans ty', head.dst.trans dst, cls, head.tag.trans tag, head.payload.trans body⟩

/-- A message of the scheduled class is kept, and ready on its planned trunk. -/
theorem State.readySched_ready {g c k id o : Nat} {limit : BitVec 64} (planned : u.fab.plannedTrunk u.dev.toNat f.dst.toNat = some o) :
    u.readySched f g owner c k id limit (some (src, 64 * n)) = u.hosts (u.readySched f g owner c k id limit (some (src, 64 * n))) ∧
    (u.readySched f g owner c k id limit (some (src, 64 * n))).KeptMsg f u.fab.nextXid owner src n true ∧
    ∃ y, (u.readySched f g owner c k id limit (some (src, 64 * n))).fab.sched = u.fab.sched ++ [y] ∧ y.xid = u.fab.nextXid ∧ y.trunk = o ∧
      y.core = c ∧ y.unit_ = k ∧ y.id = id ∧ y.limit = limit ∧ y.ready = u.now := by
  obtain ⟨ty', -, dst, tag, body⟩ := PacketFields.msg_fields (u := u) ty core few payload
  obtain ⟨p, hp⟩ : ∃ p, p = ({ f with xid := u.fab.nextXid } : PacketFields).build := ⟨_, rfl⟩
  rw [← hp] at ty' dst tag body
  obtain ⟨q, hq⟩ : ∃ q, q = ((p.withDir (u.fab.planned u.dev.toNat f.dst.toNat)).withClass true).withTag g := ⟨_, rfl⟩
  have head : p.SameHead q := by
    rw [hq]
    exact ((p.sameHead_dir _).trans (Packet.sameHead_class _ true)).trans (Packet.sameHead_tag _ g)
  have cls : q.cls = true := by
    rw [hq]
    have bit := congrArg (BitVec.getLsbD · 0)
      (fld_setFld_same (p.withDir (u.fab.planned u.dev.toNat f.dst.toNat)).w0 4 1 (b2n true) (by decide))
    simpa [b2n, fld, Packet.cls, bitB, Packet.withTag, Packet.withClass, Packet.sealed] using bit
  have left : u.readySched f g owner c k id limit (some (src, 64 * n)) =
      ((u.modFab (fun b => { b with nextXid := b.nextXid + 1 })).keepReq
        { xid := u.fab.nextXid, pkt := q, owner := owner, src := some (src, 64 * n) }).modFab
        (fun b => { b with sched := b.sched ++ [⟨u.fab.nextXid, q, o, c, k, id, limit, u.now⟩] }) := by
    unfold State.readySched
    rw [planned, hq, hp]
    rfl
  rw [left]
  refine ⟨rfl, ⟨rfl, { xid := u.fab.nextXid, pkt := q, owner := owner, src := some (src, 64 * n) }, List.mem_append_right _ (.head _),
    rfl, rfl, rfl, head.ty.trans ty', head.dst.trans dst, cls, head.tag.trans tag, head.payload.trans body⟩,
    ⟨u.fab.nextXid, q, o, c, k, id, limit, u.now⟩, rfl, rfl, rfl, rfl, rfl, rfl, rfl, rfl⟩

end

end Sys2Proof.Machine
end

section
/-! PROOFS. O22 SendsLeave. -/

namespace Sys2Proof.Machine

set_option Elab.async false -- in turn: many waiting threads need much memory

/-! ## SEND to another module -/

/-- What a message to another module says. -/
def State.sendFields (s : State) (c : CoreId) (w : IWord) : PacketFields :=
  s.farMsg c (fld w 24 14) (BitVec.ofNat 3 (s.sendCore c w)) (fld w 41 4) (s.ms.bytes (s.sendSrc c w) (64 * (fldN w 45 3 + 1)))

/-- The state in which a SEND to another module has begun. -/
def State.sendAway (s : State) (c : CoreId) (w : IWord) : State := (s.sendQueued c w).sendBegun c (s.sendEntry c w) (s.sendPending c w)

/-- Its packet is then a request, or ready in the scheduled class. -/
def State.sendPacket (s : State) (c : CoreId) (w : IWord) : State :=
  if bitB w 49 then (s.sendAway c w).readySched (s.sendFields c w) (fldN w 50 16) (.msg c (s.core c).seq.nextId) c 4 (s.core c).seq.nextId
    (s.lateLimit s.now) (some (s.sendSrc c w, 64 * (fldN w 45 3 + 1)))
  else (s.sendAway c w).newReq (s.sendFields c w) (.msg c (s.core c).seq.nextId) (some (s.sendSrc c w, 64 * (fldN w 45 3 + 1)))

theorem State.sendAway_rest (s : State) (c : CoreId) (w : IWord) :
    (s.sendAway c w).fab = s.fab ∧ (s.sendAway c w).time = s.time ∧ (s.sendAway c w).ms = s.ms ∧ (s.sendAway c w).locals = s.locals ∧
    (s.sendAway c w).parts = s.parts ∧ (s.sendAway c w).eth = s.eth := by
  have rest := (s.sendQueued c w).sendBegun_rest c (s.sendEntry c w) (s.sendPending c w)
  exact ⟨(congrArg State.fab rest).trans rfl, (congrArg State.time rest).trans rfl, (congrArg State.ms rest).trans rfl,
    (congrArg State.locals rest).trans rfl, (congrArg State.parts rest).trans rfl, (congrArg State.eth rest).trans rfl⟩

section
variable {s : State} {c : CoreId} {w : IWord} (hr : s.Ready c) (alone : (s.core c).msgq.running = [])
  (hd : decodeCause (Word128.withOp w 7 1) = 0) (passes : (s.issueSend c (Word128.withOp w 7 1)).cause = 0) (sb : (s.core c).seq.sb = [])
  (goes : s.sendGoes c w) (far : s.isOwnDev (fld w 24 14) = false) (room : s.outstanding < 8192)
  (frame : s.sendPacket c w = (s.sendAway c w).hosts (s.sendPacket c w))
include hr alone hd passes sb goes far room frame

theorem State.exec_sendFar : exec (.send c w) s = .next (s.sendPacket c w) ∧
    s.SendLeft (s.sendPacket c w) c (s.sendEntry c w) (s.sendPending c w) ∧ (s.sendPacket c w).ms = s.ms ∧ (s.sendPacket c w).locals = s.locals := by
  have inside := (State.issueSend_names passes).1
  have good : (s.sendQueued c w).ms.badRange (s.sendSrc c w) (64 * (fldN w 45 3 + 1)) = false := s.ms.badRange_sram _ (inSram_sram inside)
  have may : s.mayRequest (fld w 24 14) = true := by
    unfold State.mayRequest
    rw [decide_eq_true room, Bool.or_true]
  obtain ⟨-, -, ms, locals, parts, eth⟩ := s.sendAway_rest c w
  have fields : (s.sendQueued c w).farMsg c (fld w 24 14) (BitVec.ofNat 3 (s.sendCore c w)) (fld w 41 4)
      ((s.sendQueued c w).ms.bytes (s.sendSrc c w) (64 * (fldN w 45 3 + 1))) = s.sendFields c w := by
    unfold State.sendFields State.farMsg
    rw [(s.sendQueued_core c w).2.2]
    rfl
  have sent := State.sendNow_far (s := s.sendQueued c w) (c := c) (q := s.sendEntry c w) (core := BitVec.ofNat 3 (s.sendCore c w)) (queue := fld w 41 4)
    (sched := bitB w 49) (tag := fld w 50 16) good far
  rw [fields] at sent
  have cores : (s.sendPacket c w).cores = (s.sendAway c w).cores := (congrArg State.cores frame).trans rfl
  obtain ⟨run, left⟩ := State.sendGone_ready passes hr hd sb alone goes may (t := s.sendPacket c w) (fun r gone =>
    ⟨sent, cores.trans (congrArg State.cores gone), (congrArg State.parts frame).trans parts, (congrArg State.eth frame).trans eth⟩)
  exact ⟨run, left, (congrArg State.ms frame).trans ms, (congrArg State.locals frame).trans locals⟩

end

/-! ## A held SEND, and a SEND without a status -/

/-- What the begin of a SEND leaves of core k. -/
structure Core.Sends (k k' : Core) : Prop where
  seq : k'.seq = k.seq
  id : k'.id = k.id
  queue : k'.msgq.queue = k.msgq.queue.tail
  others : ∀ u, u ≠ .msg → k'.eng u = k.eng u
  holding : k'.msg.holding = false

theorem Core.sends_started (k : Core) (n : BitVec 16) (most : BitVec 32) (supp : BitVec 8) (budget : List (BitVec 64)) (r : REntry)
    (free : k.msg.holding = false) :
    k.Sends (((k.modEng .msg (fun e => { e with queue := e.queue.tail })).noted n most supp budget).modEng .msg
      (fun e => { e with running := e.running ++ [r] })) where
  seq := rfl
  id := rfl
  queue := rfl
  others u ne := by cases u <;> first | rfl | exact absurd rfl ne
  holding := free

theorem State.start_noted (s : State) (c : CoreId) (r : REntry) (free : (s.core c).msg.holding = false) :
    ∃ f g, s.start c .msg r = (s.modCore c f).withGoose g ∧ (s.core c).Sends (f (s.core c)) := by
  obtain ⟨most, supp, budget, g, noted⟩ := (s.popHead c .msg).noteLaunch_noted c r.q
  unfold State.start
  dsimp only
  rw [noted]
  unfold State.run State.popHead
  rw [State.withGoose_modCore, State.modCore_modCore, State.modCore_modCore]
  exact ⟨_, g, rfl, (s.core c).sends_started _ most supp budget _ free⟩

theorem State.sendBegun_noted (s : State) (c : CoreId) (q : QEntry) (p : PendingSend) :
    ∃ f g, s.sendBegun c q p = (s.modCore c f).withGoose g ∧ (s.core c).Sends (f (s.core c)) := by
  obtain ⟨x, hx⟩ : ∃ x, x = s.modCore c (fun k => k.modMsg (fun r => { r with holding := false })) := ⟨_, rfl⟩
  have here : x.core c = (s.core c).modMsg (fun r => { r with holding := false }) := by
    rw [hx]
    exact (s.core_modCore c c _).trans (if_pos ⟨rfl, c.isLt⟩)
  obtain ⟨f, g, started, sends⟩ := x.start_noted c { q := q, inRows := false } (here ▸ rfl)
  unfold State.sendBegun State.sendRuns
  rw [← hx, started, hx, State.withGoose_modCore, State.modCore_modCore, State.modCore_modCore]
  rw [here] at sends
  obtain ⟨seq, id, queue, others, holding⟩ := sends
  refine ⟨_, g, rfl, ⟨seq, id, queue, fun u ne => (others u ne).trans ?_, ?_⟩⟩
  · cases u <;> rfl
  · exact holding

/-- In a state where nothing has ended what keeps the cores going ends nothing. -/
theorem State.Steady.of_going {s t : State} (steady : s.Steady) (going : ∀ d, d < 8 → (s.core d).id.active = true → (s.core d).seq.ended = false)
    (ids : ∀ d, (t.core d).id = (s.core d).id) (ended : ∀ d, (t.core d).seq.ended = (s.core d).seq.ended) (parts : t.parts = s.parts)
    (armed : t.eth.armed = s.eth.armed) : t.Steady := by
  refine ⟨fun d hd act => ?_, fun p hp run => ?_⟩
  · rw [ids] at act
    rw [State.programOver, List.all_eq_false]
    exact ⟨d, t.self_mem_groupOf d, by simp [ended, going d hd act]⟩
  · have part : t.part p = s.part p := by rw [State.part, State.part, parts]
    rw [part] at run ⊢
    rw [armed]
    simp only [ids]
    exact steady.2 p hp run

/-- A SEND held at the head of its queue leaves for its own module. -/
theorem sendWaitLimit_row {c : CoreId} {s : State} {q : QEntry} {src : Nat} {dev : DevId} {core : BitVec 3} {queue : BitVec 4} {len : Nat} {sched : Bool}
    {tag : BitVec 16} (head : s.HeadAlone c .msg q) (op : q.op = some (.send src dev core queue len true sched tag))
    (holds : (s.core c).msg.holding = true) (own : s.isOwnDev dev = true) (good : s.ms.badRange src (64 * len) = false) :
    ∃ t m, exec (.sendWaitLimit c) s = .next t ∧ (t.core c).msgq.queue = [] ∧ (t.core c).msg.holding = false ∧
      t.locals = s.locals ++ [m] ∧ m.src = .core c q.id ∧ m.entries = entriesOf s.dev c (s.ms.bytes src (64 * len)) ∧ t.ms = s.ms := by
  obtain ⟨runs, steady, quiet, buf, nowait, others, alone, -, going⟩ := head
  have alone' : (s.core c).msgq.queue = [q] := alone
  have may : s.mayRequest dev = true := by
    unfold State.mayRequest
    rw [own, Bool.true_or]
  have sent := State.sendNow_own (s := s) (c := c) (q := q) (core := core) (queue := queue) (sched := sched) (tag := tag) good own
  obtain ⟨f, g, begun, seq, id_, rest, engs, free⟩ := s.sendBegun_noted c q (q.pendingSend s.now dev core queue sched tag)
  rw [begun] at sent
  obtain ⟨t, ht⟩ : ∃ t, t = s.sendNow c q src dev core queue len sched tag := ⟨_, rfl⟩
  have left : s.sendHeld c = t := by
    unfold State.sendHeld
    rw [alone']
    dsimp only
    rw [op, holds, ht]
    exact if_pos may
  rw [← ht] at sent
  have here : t.core c = f (s.core c) := by
    rw [sent]
    exact (s.core_modCore c c f).trans (if_pos ⟨rfl, c.isLt⟩)
  have there (d : Nat) (ne : d ≠ c.val) : t.core d = s.core d := by
    rw [sent]
    exact (s.core_modCore c d f).trans (if_neg (fun h => ne h.1))
  have still : t.settle = t := by
    refine State.settle_quiet t (State.Quiet.of_others c quiet there ?_) (steady.of_going going (fun d => ?_) (fun d => ?_) (sent ▸ rfl) (sent ▸ rfl))
    · rw [here]
      simp only [Core.quiet, seq, buf, nowait, List.isEmpty_nil, beq_self_eq_true, Bool.true_and, List.all_eq_true, List.isEmpty_iff]
      intro u hu
      by_cases e : u = .msg
      · subst e
        exact rest.trans (by rw [alone']; rfl)
      · rw [engs u e]
        exact others u hu e
    · by_cases e : d = c.val
      · rw [e, here, id_]
      · rw [there d e]
    · by_cases e : d = c.val
      · rw [e, here, seq]
      · rw [there d e]
  have run : exec (.sendWaitLimit c) s = .next t := by
    refine (if_neg (Bool.eq_false_iff.mp runs)).trans ?_
    rw [left, still]
  refine ⟨t, s.ownMsg c q core queue (s.ms.bytes src (64 * len)), run, ?_, ?_, sent ▸ rfl, rfl, rfl, sent ▸ rfl⟩
  · rw [here, rest, alone']
    rfl
  · rw [here, free]

/-- A SEND without a status signals with ERR. -/
theorem statusTimeout_row {c : CoreId} {s : State} {id : Nat} {p : PendingSend} (calm : s.Calm)
    (found : (s.core c).msg.sends.find? (fun x => x.id == id) = some p) (plain : p.sched = false) :
    ∃ t, exec (.statusTimeout c id) s = .next t ∧ (t.core c).msg.statusTimeout = satInc (s.core c).msg.statusTimeout ∧
      (t.core c).msg.sends = (s.core c).msg.sends.filter (fun x => x.id != id) ∧
      (t.core c).seq.cc = ccAfter (s.core c).seq.cc p.sigcc true ∧ t.ms = s.ms ∧ s.otherCores t c ∧ s.sameRest t := by
  obtain ⟨x, hx⟩ : ∃ x, x = s.modCore c (fun k => k.modMsg (fun r =>
      { r with sends := r.sends.filter (fun x => x.id != id), statusTimeout := satInc r.statusTimeout })) := ⟨_, rfl⟩
  obtain ⟨t, ht⟩ : ∃ t, t = x.finish c .msg id p.sigcc true := ⟨_, rfl⟩
  have left : s.sendTimeout c id = t := by
    unfold State.sendTimeout
    rw [found]
    dsimp only
    rw [State.reportLateSend, plain, ht, hx]
    rfl
  have here : t.core c = _ := (congrArg (fun y : State => y.core c) ht).trans (x.finish_core c id p.sigcc true)
  have there (d : Nat) (ne : d ≠ c.val) : t.core d = s.core d := by
    rw [ht, x.finish_other c _ _ _ _ d ne, hx, State.core_modCore, if_neg (fun h => ne h.1)]
  have rest : t = { s with cores := t.cores } := by
    have finished := x.finish_rest c .msg id p.sigcc true
    rw [← ht, hx] at finished
    exact finished
  have mine : x.core c = (s.core c).modMsg (fun r =>
      { r with sends := r.sends.filter (fun x => x.id != id), statusTimeout := satInc r.statusTimeout }) := by
    rw [hx, State.core_modCore, if_pos ⟨rfl, c.isLt⟩]
  rw [mine] at here
  have still : t.settle = t := by
    refine calm.settle_still (fun d => ?_) (fun d => ?_) (fun d => ?_) ((congrArg State.parts rest).trans rfl)
      ((congrArg (fun y : State => y.eth.armed) rest).trans rfl)
    all_goals
      by_cases e : d = c.val
      · rw [e, here]
        generalize s.core c = k
        first | exact k.quiet_finished _ _ _ _ | rfl
      · rw [there d e]
  have run : exec (.statusTimeout c id) s = .next t := by
    refine (if_neg (Bool.eq_false_iff.mp calm.2.1)).trans ?_
    rw [left, still]
  refine ⟨t, run, here ▸ rfl, here ▸ rfl, here ▸ rfl, (congrArg State.ms rest).trans rfl, there, ?_⟩
  rw [rest]
  exact ⟨rfl, rfl, rfl, rfl, rfl, rfl, rfl, rfl, rfl⟩

end Sys2Proof.Machine
end

section
/-! PROOFS. O22 SendsLeave: the statement. -/

namespace Sys2Proof.Machine

set_option Elab.async false -- in turn: many waiting threads need much memory

theorem inSram_low {c : CoreId} {a n : Nat} (h : inSram c a n = true) : a < 0x020000000000 := by
  have inside := (of_decide_eq_true h).2
  have small := c.isLt
  unfold sramBase sramSize at inside
  omega

/-- A status that has come already changes nothing. -/
theorem statusTimeout_over {c : CoreId} {s : State} {id : Nat} (calm : s.Calm)
    (none_ : (s.core c).msg.sends.find? (fun x => x.id == id) = none) : exec (.statusTimeout c id) s = .next s := by
  have left : s.sendTimeout c id = s := by
    unfold State.sendTimeout
    rw [none_]
  refine (if_neg (Bool.eq_false_iff.mp calm.2.1)).trans ?_
  rw [left]
  exact congrArg Host.Outcome.next (calm.settle_still (fun d => rfl) (fun d => rfl) (fun d => rfl) rfl rfl)

section
variable {s : State} {c : CoreId} {w : IWord}

theorem State.sendPending_sigcc : (s.sendPending c w).sigcc = Word128.sigcc w := s.sendEntry_sigcc c w

theorem fldN_msgLen (w : IWord) : fldN w 45 3 + 1 ≤ 8 := fldN_lt w 45 3

variable (hr : s.Ready c) (alone : (s.core c).msgq.running = [])
  (hd : decodeCause (Word128.withOp w 7 1) = 0) (passes : (s.issueSend c (Word128.withOp w 7 1)).cause = 0) (sb : (s.core c).seq.sb = [])
  (goes : s.sendGoes c w)
include hr alone hd passes sb goes

section
variable (far : s.isOwnDev (fld w 24 14) = false) (room : s.outstanding < 8192)
include far room

/-- A message to another module leaves as a best-effort request. -/
theorem State.exec_sendRequest (plain : bitB w 49 = false) {d : BitVec 4} {o : Nat} (route : s.fab.route s.dev.toNat (fld w 24 14 : DevId).toNat = some d)
    (next : nextTrunk s.dev.toNat (({ s.sendFields c w with xid := s.fab.nextXid } : PacketFields).build.withDir d) = some o) (up : s.trunkUp o = true) :
    ∃ t, exec (.send c w) s = .next t ∧ s.SendLeft t c (s.sendEntry c w) (s.sendPending c w) ∧ t.ms = s.ms ∧ t.locals = s.locals ∧
      t.KeptMsg (s.sendFields c w) s.fab.nextXid (.msg c (s.core c).seq.nextId) (s.sendSrc c w) (fldN w 45 3 + 1) false := by
  obtain ⟨fab, -, ms, -⟩ := s.sendAway_rest c w
  obtain ⟨u, hu⟩ : ∃ u, u = s.sendAway c w := ⟨_, rfl⟩
  rw [← hu] at fab ms
  have low := inSram_low (State.issueSend_names passes).1
  have sent : s.sendPacket c w = u.newReq (s.sendFields c w) (.msg c (s.core c).seq.nextId) (some (s.sendSrc c w, 64 * (fldN w 45 3 + 1))) := by
    rw [hu]
    exact if_neg (Bool.eq_false_iff.mp plain)
  obtain ⟨frame, kept⟩ := State.newReq_leaves (u := u) (f := s.sendFields c w) (owner := .msg c (s.core c).seq.nextId) (src := s.sendSrc c w)
    (n := fldN w 45 3 + 1) rfl c.isLt (fldN_msgLen w) (by rw [ms]; rfl) low (d := d) (o := o)
    (by rw [State.dev, fab]; exact route) (by rw [State.dev, fab]; exact next) (by exact (State.trunkUp_congr (congrArg FabBlk.lanes fab) o).1.trans up)
  rw [← sent, fab] at kept
  rw [← sent, hu] at frame
  obtain ⟨run, left, ms', locals⟩ := State.exec_sendFar hr alone hd passes sb goes far room frame
  exact ⟨_, run, left, ms', locals, kept⟩

/-- A message of the scheduled class is ready on its planned trunk. -/
theorem State.exec_sendSched (planned : bitB w 49 = true) {o : Nat} (trunk : s.fab.plannedTrunk s.dev.toNat (fld w 24 14 : DevId).toNat = some o) :
    ∃ t y, exec (.send c w) s = .next t ∧ s.SendLeft t c (s.sendEntry c w) (s.sendPending c w) ∧ t.ms = s.ms ∧ t.locals = s.locals ∧
      t.KeptMsg (s.sendFields c w) s.fab.nextXid (.msg c (s.core c).seq.nextId) (s.sendSrc c w) (fldN w 45 3 + 1) true ∧
      t.fab.sched = s.fab.sched ++ [y] ∧ y.xid = s.fab.nextXid ∧ y.trunk = o ∧ y.core = c.val ∧ y.unit_ = 4 ∧ y.id = (s.core c).seq.nextId ∧
      y.limit = s.lateLimit s.now ∧ y.ready = s.now := by
  obtain ⟨fab, time, ms, -⟩ := s.sendAway_rest c w
  obtain ⟨u, hu⟩ : ∃ u, u = s.sendAway c w := ⟨_, rfl⟩
  rw [← hu] at fab ms time
  have sent : s.sendPacket c w = u.readySched (s.sendFields c w) (fldN w 50 16) (.msg c (s.core c).seq.nextId) c 4 (s.core c).seq.nextId
      (s.lateLimit s.now) (some (s.sendSrc c w, 64 * (fldN w 45 3 + 1))) := by
    rw [hu]
    exact if_pos planned
  obtain ⟨frame, kept, y, sched, xid, tr, core, unit_, id_, limit, ready⟩ := State.readySched_ready (u := u) (f := s.sendFields c w)
    (owner := .msg c (s.core c).seq.nextId) (src := s.sendSrc c w) (n := fldN w 45 3 + 1) rfl c.isLt (fldN_msgLen w) (by rw [ms]; rfl)
    (g := fldN w 50 16) (c := c) (k := 4) (id := (s.core c).seq.nextId) (limit := s.lateLimit s.now) (o := o) (by rw [State.dev, fab]; exact trunk)
  rw [← sent, fab] at kept
  rw [← sent, fab] at sched
  rw [fab] at xid
  rw [← sent, hu] at frame
  rw [State.now, time] at ready
  obtain ⟨run, left, ms', locals⟩ := State.exec_sendFar hr alone hd passes sb goes far room frame
  exact ⟨_, y, run, left, ms', locals, kept, sched, xid, tr, core, unit_, id_, limit, ready⟩

end

end

/-- Settles O22: a SEND word on a ready core heads its queue, so it is held, or begins and its message goes to where the word says. -/
theorem sendsLeave : Obligations.SendsLeave := by
  refine ⟨⟨?_, ?_⟩, ?_⟩
  · intro c w s hr alone empty v src n dev hd passes try_ plain own sb
    obtain ⟨t, run, left, locals, ms, rest⟩ := State.exec_sendOwn hr alone hd passes sb (.inl try_) own
    have core := State.sendCore_toNat passes
    refine ⟨t, _, s.sendPending c w, run, locals, rfl, rfl, rfl, rfl, rfl, left.sends, rfl, State.sendPending_sigcc, ?_, left.pc, left.cc, ms,
      left.others, rest⟩
    have mirror := congrArg (Option.map (fun x : DevId × Nat × Nat => x.2.2)) left.mirror
    rw [Option.map_map] at mirror
    exact mirror
  · intro c s
    refine ⟨fun q src dev core queue len sched tag head op holds own good => sendWaitLimit_row head op holds own good,
      fun id p calm found plain => statusTimeout_row calm found plain, fun id calm none_ => statusTimeout_over calm none_⟩
  · intro c w s hr alone empty v src n dev core full goes id f kept sent hd passes sb
    have number : (BitVec.ofNat 3 (s.sendCore c w)).toNat = core := State.sendCore_toNat passes
    have isSent {t : State} (left : s.SendLeft t c (s.sendEntry c w) (s.sendPending c w)) (ms : t.ms = s.ms) : sent t :=
      ⟨left.queue, ⟨s.sendPending c w, left.sends, rfl, rfl, number, rfl, State.sendPending_sigcc⟩,
        left.mirror.trans (congrArg (fun x => some (s.mirrorDev dev, x, fldN w 41 4)) number), left.pc, left.cc, ms, left.others⟩
    have isKept {t : State} {cls : Bool} (k : t.KeptMsg (s.sendFields c w) s.fab.nextXid (.msg c id) src n cls) (locals : t.locals = s.locals) : kept t cls :=
      ⟨k.next, k.kept, locals⟩
    have fields : f = { s.sendFields c w with xid := s.fab.nextXid } := by
      simp only [State.sendFields, State.farMsg, number]
      rfl
    refine ⟨fun wait isFull => ?_, fun go own => ?_, fun d tr go far room plain route next up => ?_, fun tr go far room planned trunk => ?_⟩
    · have here := s.sendHolds_core c w
      have queue : ((s.sendHolds c w).core c).msgq.queue = [s.sendEntry c w] := by
        rw [here]
        exact congrArg EngQueue.queue ((s.core c).queued_eng .msg .msg (s.sendEntry c w) (liveRanges (s.issueSend c (Word128.withOp w 7 1)).claims)
          (s.issueSend c (Word128.withOp w 7 1)).op)
      refine ⟨s.sendHolds c w, s.sendEntry c w, State.exec_sendHolds hr hd passes sb wait isFull, queue, (State.sendEntry_op passes).trans ?_,
        here ▸ rfl, rfl, here ▸ rfl, here ▸ rfl, rfl, fun d ne => ?_, ⟨rfl, rfl, rfl, rfl, rfl, rfl, rfl, rfl, rfl⟩⟩
      · rw [sendOp, wait]
        rfl
      rw [State.sendHolds, State.sendQueued, State.modCore_modCore, State.core_modCore, if_neg (fun h => ne h.1)]
    · obtain ⟨t, run, left, locals, ms, rest⟩ := State.exec_sendOwn hr alone hd passes sb go own
      exact ⟨t, _, run, isSent left ms, locals, rfl, number, rfl, rfl, rest⟩
    · rw [fields] at next
      obtain ⟨t, run, left, ms, locals, k⟩ := State.exec_sendRequest hr alone hd passes sb go far room plain route next up
      exact ⟨t, run, isSent left ms, isKept k locals⟩
    · obtain ⟨t, y, run, left, ms, locals, k, y'⟩ := State.exec_sendSched hr alone hd passes sb go far room planned trunk
      exact ⟨t, y, run, isSent left ms, isKept k locals, y'⟩

end Sys2Proof.Machine
end

section
/-! PROOFS. What an operation whose operands lie in core SRAM leaves when it completes (R54). -/

namespace Sys2Proof.Machine

set_option Elab.async false -- in turn: many waiting threads need much memory

/-! ## An operation leaves its unit -/

/-- x is s but for memory and for what an operation of core c computes: the sequencers and queues are as they were. -/
structure State.Ran (s x : State) (c : CoreId) : Prop where
  others : s.otherCores x c
  seq : (x.core c).seq = (s.core c).seq
  id : (x.core c).id = (s.core c).id
  engs : ∀ u, (x.core c).eng u = (s.core c).eng u
  parts : x.parts = s.parts
  armed : x.eth.armed = s.eth.armed

theorem State.Ran.refl (s : State) (c : CoreId) : s.Ran s c := ⟨fun _ _ => rfl, rfl, rfl, fun _ => rfl, rfl, rfl⟩

/-- Memory is none of it. -/
theorem State.Ran.ms {s x : State} {c : CoreId} (h : s.Ran x c) (m : MemSys) : s.Ran { x with ms := m } c :=
  ⟨h.others, h.seq, h.id, h.engs, h.parts, h.armed⟩

/-- Nor are core c's other registers. -/
theorem State.Ran.modCore {s x : State} {c : CoreId} (h : s.Ran x c) {f : Core → Core} (seq : (f (x.core c)).seq = (x.core c).seq)
    (id : (f (x.core c)).id = (x.core c).id) (engs : ∀ u, (f (x.core c)).eng u = (x.core c).eng u) : s.Ran (x.modCore c f) c := by
  have here : (x.modCore c f).core c = f (x.core c) := (x.core_modCore c c f).trans (if_pos ⟨rfl, c.isLt⟩)
  refine ⟨fun d ne => ?_, ?_, ?_, fun u => ?_, h.parts, h.armed⟩
  · rw [State.core_modCore, if_neg (fun e => ne e.1)]
    exact h.others d ne
  · rw [here, seq, h.seq]
  · rw [here, id, h.id]
  · rw [here, engs, h.engs]

theorem State.Ran.stored {s x : State} {c : CoreId} (h : s.Ran x c) (ws : List (Nat × List Byte)) : s.Ran (x.stored ws) c := h.ms _

theorem State.Ran.countNum {s x : State} {c : CoreId} (h : s.Ran x c) (e : Nat) (ev : NumEv) : s.Ran (x.countNum c e ev) c :=
  h.modCore rfl rfl (fun u => by cases u <;> rfl)

theorem State.Ran.modCache {s x : State} {c : CoreId} (h : s.Ran x c) (f : CacheRegs → CacheRegs) : s.Ran (x.modCache c f) c :=
  h.modCore rfl rfl (fun u => by cases u <;> rfl)

theorem State.Ran.pfEnd {s x : State} {c : CoreId} (h : s.Ran x c) (id : Nat) : s.Ran (x.pfEnd c id) c := by
  unfold State.pfEnd
  exact h.modCache _

/-- The end of operation `id` of unit u of core k. -/
def Core.ends (k : Core) (u : EngUnit) (id : Nat) (sg : BitVec 8) (err : Bool) : Core :=
  (k.modEng u (fun e => { e with running := e.running.filter (fun r => r.q.id != id) })).modSeq (fun q =>
    { q.release id with cc := ccAfter q.cc sg err })

theorem State.finish_ends (x : State) (c : CoreId) (u : EngUnit) (id : Nat) (sg : BitVec 8) (err : Bool) :
    x.finish c u id sg err = x.modCore c (fun k => k.ends u id sg err) := by
  rw [State.finish, State.signal_eq, State.modCore_modCore]
  exact x.modCore_congr c _ _ rfl

theorem Core.ends_eng (k : Core) (u v : EngUnit) (id : Nat) (sg : BitVec 8) (err : Bool) : (k.ends u id sg err).eng v =
    if v = u then { k.eng u with running := (k.eng u).running.filter (fun r => r.q.id != id) } else k.eng v := by
  rw [Core.ends, Core.modSeq_eng, Core.eng_modEng]

theorem Core.ends_seq (k : Core) (u : EngUnit) (id : Nat) (sg : BitVec 8) (err : Bool) :
    (k.ends u id sg err).seq = { k.seq.release id with cc := ccAfter k.seq.cc sg err } := by
  rw [Core.ends, Core.modSeq]
  dsimp only
  rw [Core.seq_modEng]

theorem Core.ends_id (k : Core) (u : EngUnit) (id : Nat) (sg : BitVec 8) (err : Bool) : (k.ends u id sg err).id = k.id := k.id_modEng u _

theorem Core.ends_quiet (k : Core) (u : EngUnit) (id : Nat) (sg : BitVec 8) (err : Bool) : (k.ends u id sg err).quiet = k.quiet := by
  refine Core.quiet_congr ?_ ?_ (fun v => ?_)
  · rw [Core.ends_seq]
    rfl
  · rw [Core.ends_seq]
    rfl
  · rw [Core.ends_eng]
    split
    · next e => rw [e]
    · rfl

section
variable {s x : State} {c : CoreId} {u : EngUnit} {q : QEntry} {err : Bool} (h : s.Ran x c)
include h

theorem State.Ran.finished : s.Finished (x.finish c u q.id q.sigcc err) c u q err := by
  have here : (x.finish c u q.id q.sigcc err).core c = (x.core c).ends u q.id q.sigcc err := by
    rw [State.finish_ends]
    exact (x.core_modCore c c _).trans (if_pos ⟨rfl, c.isLt⟩)
  have eng := (x.core c).ends_eng u u q.id q.sigcc err
  rw [if_pos rfl, h.engs u] at eng
  have seq := (x.core c).ends_seq u q.id q.sigcc err
  rw [h.seq] at seq
  unfold State.Finished
  rw [here, eng, seq]
  exact ⟨rfl, rfl, rfl, rfl, rfl, rfl, rfl, rfl, rfl⟩

theorem State.Ran.finish_others : s.otherCores (x.finish c u q.id q.sigcc err) c := fun d ne =>
  (x.finish_other c u q.id q.sigcc err d ne).trans (h.others d ne)

theorem State.Ran.settle (calm : s.Calm) : (x.finish c u q.id q.sigcc err).settle = x.finish c u q.id q.sigcc err := by
  have core (d : Nat) : (x.finish c u q.id q.sigcc err).core d = if d = c.val then (x.core c).ends u q.id q.sigcc err else s.core d := by
    split
    · next e =>
      rw [e, State.finish_ends]
      exact (x.core_modCore c c _).trans (if_pos ⟨rfl, c.isLt⟩)
    · next ne => exact h.finish_others d ne
  have mine : (x.core c).quiet = (s.core c).quiet := Core.quiet_congr (h.seq ▸ rfl) (h.seq ▸ rfl) (fun v => h.engs v ▸ rfl)
  refine calm.settle_still (fun d => ?_) (fun d => ?_) (fun d => ?_) ?_ ?_
  · rw [core]
    split
    · next e => rw [e, Core.ends_quiet, mine]
    · rfl
  · rw [core]
    split
    · next e => rw [e, Core.ends_id, h.id]
    · rfl
  · rw [core]
    split
    · next e =>
      rw [e, Core.ends_seq, h.seq]
      rfl
    · rfl
  · rw [State.finish_ends]
    exact h.parts
  · rw [State.finish_ends]
    exact h.armed

end

/-- What core c computed stays as its operation ends. -/
theorem State.finish_keeps {α : Type} (p : Core → α) (x : State) (c : CoreId) (u : EngUnit) (id : Nat) (sg : BitVec 8) (err : Bool)
    (keeps : ∀ k : Core, p (k.ends u id sg err) = p k) : p ((x.finish c u id sg err).core c) = p (x.core c) := by
  rw [State.finish_ends]
  exact x.core_modCore_keeps p c _ (keeps _) c

theorem State.finish_ms (x : State) (c : CoreId) (u : EngUnit) (id : Nat) (sg : BitVec 8) (err : Bool) : (x.finish c u id sg err).ms = x.ms := by
  rw [State.finish_ends]
  rfl

/-! ## Results in core SRAM -/

/-- Outside HBM reads are not recorded and nothing fails to be written. -/
theorem State.commit_sram {x : State} {c : CoreId} {u : EngUnit} {q : QEntry} {e : Nat} {plan : ReadPlan} {res : OpResult}
    (reads : ∀ r ∈ plan.all, isHbm r.1 = false) (writes : ∀ w ∈ res.writes, isHbm w.1 = false) (healthy : res.poison = []) :
    x.commit c u q e plan res = (((x.stored res.writes).countNum c e res.ev).pfEnd c q.id).finish c u q.id q.sigcc res.err := by
  unfold State.commit
  rw [x.noteHinted_sram plan.all reads]
  dsimp only
  rw [x.homeWrites_sram (some c) res.writes 0 writes, healthy]
  show State.finish _ c u q.id q.sigcc (res.err || false) = _
  rw [Bool.or_false]
  rfl

/-- What an operation q of unit u of core c leaves that computed x and whose results are in core SRAM. -/
structure State.Committed (s x t : State) (c : CoreId) (u : EngUnit) (q : QEntry) (ws : List (Nat × List Byte)) : Prop where
  finished : s.Finished t c u q false
  others : s.otherCores t c
  ms : t.ms = (s.stored ws).ms
  keeps : ∀ {α : Type} (p : Core → α), (∀ k f, p { k with num := f } = p k) → (∀ k f, p { k with cache := f } = p k) →
    (∀ k id sg e, p (k.ends u id sg e) = p k) → p (t.core c) = p (x.core c)

theorem State.Ran.committed {s x : State} {c : CoreId} {u : EngUnit} {q : QEntry} {e : Nat} {plan : ReadPlan} {res : OpResult} (h : s.Ran x c)
    (calm : s.Calm) (mem : x.ms = s.ms) (reads : ∀ r ∈ plan.all, isHbm r.1 = false) (writes : ∀ w ∈ res.writes, isHbm w.1 = false)
    (healthy : res.poison = []) (good : res.err = false) :
    (x.commit c u q e plan res).settle = x.commit c u q e plan res ∧ s.Committed x (x.commit c u q e plan res) c u q res.writes := by
  rw [State.commit_sram reads writes healthy, good]
  obtain ⟨y, hy⟩ : ∃ y, y = ((x.stored res.writes).countNum c e res.ev).pfEnd c q.id := ⟨_, rfl⟩
  have ran : s.Ran y c := hy ▸ ((h.stored res.writes).countNum e res.ev).pfEnd q.id
  have ms : y.ms = (s.stored res.writes).ms := by
    rw [hy]
    show x.ms.puts _ = s.ms.puts _
    rw [mem]
  rw [← hy]
  refine ⟨ran.settle calm, ran.finished, ran.finish_others, (y.finish_ms c u _ _ _).trans ms, fun {α} p num cache ends => ?_⟩
  refine (y.finish_keeps p c u _ _ _ (fun k => ends k _ _ _)).trans ?_
  rw [hy]
  refine (State.core_modCore_keeps p _ c _ (cache _ _) c).trans ?_
  exact (State.core_modCore_keeps p _ c _ (num _ _) c).trans rfl

theorem State.Committed.byte {s x t : State} {c : CoreId} {u : EngUnit} {q : QEntry} {ws : List (Nat × List Byte)} (h : s.Committed x t c u q ws)
    (wf : s.ms.mem.wf 0 = true) (a : Nat) : t.ms.byte a = (storedAt ws a).getD (s.ms.byte a) := by
  rw [h.ms]
  exact s.stored_byte ws a wf

/-- The next operation to complete completes. -/
theorem exec_operationComplete {s : State} {c : CoreId} {u : EngUnit} {i : Nat} {r : REntry} (calm : s.Calm)
    (next : ((s.core c).eng u).mayComplete u i = some r) (still : (s.complete c u r).settle = s.complete c u r) :
    exec (.operationComplete c u i) s = .next (s.complete c u r) := by
  have left : s.completeAt c u i = s.complete c u r := by
    unfold State.completeAt
    rw [next]
    exact if_neg (Bool.eq_false_iff.mp calm.2.1)
  show Host.Outcome.next (s.completeAt c u i).settle = _
  rw [left, still]

end Sys2Proof.Machine
end

section
/-! PROOFS. FP32 patterns: what rounds to itself (R109, R120). -/

namespace Sys2Proof.Machine

set_option Elab.async false -- in turn: many waiting threads need much memory

/-! ## Rounding a pattern to itself -/

theorem log2Ratio_one (m : Nat) (pos : m ≠ 0) : log2Ratio m 1 = m.log2 := by
  have low : 2 ^ m.log2 ≤ m := Nat.log2_self_le pos
  have one : Nat.log2 1 = 0 := by decide
  unfold log2Ratio
  dsimp only
  rw [one, if_pos (by omega), if_pos]
  · omega
  · rw [show ((m.log2 : Int) - ((0 : Nat) : Int)).toNat = m.log2 from by omega, Nat.one_mul]
    exact low

/-- The bits of the sign of an FP32 value. -/
def sign32 (neg : Bool) : Nat := if neg then 2 ^ 31 else 0

@[simp] theorem sign32_false : sign32 false = 0 := rfl

@[simp] theorem sign32_true : sign32 true = 2147483648 := rfl

theorem sign32_cases (neg : Bool) : sign32 neg = 0 ∨ sign32 neg = 2147483648 := by cases neg <;> simp

/-- A significand m at the exponent that the pattern p gives it is not rounded. -/
theorem roundTo_exact (neg : Bool) {m : Nat} {e : Int} (pos : m ≠ 0) (ex : max ((m.log2 : Int) + e) (-126) - 23 = e) {p : Nat}
    (pat : ((e + 149).toNat) * 2 ^ 23 + m = p) (fits : p ≤ 0x7F7FFFFF) : (roundTo .fp32 .rne (.num neg m 1 e)).bits = sign32 neg + p := by
  unfold roundTo
  dsimp only
  rw [if_neg pos, log2Ratio_one m pos]
  have emin : Elem.fp32.emin = -126 := rfl
  have fb : Elem.fp32.fb = 23 := rfl
  have eb : Elem.fp32.eb = 8 := rfl
  have top : Elem.fp32.maxFinite = 0x7F7FFFFF := rfl
  obtain ⟨x, hx⟩ : ∃ x, x = max ((m.log2 : Int) + e) (-126) := ⟨_, rfl⟩
  rw [emin, fb, eb, top, ← hx]
  rw [← hx] at ex
  have u : x - ((23 : Nat) : Int) = e := by omega
  rw [u, show (e - e).toNat = 0 from by omega]
  rw [Nat.pow_zero, Nat.mul_one, Nat.mul_one, Nat.div_one, Nat.mod_one]
  rw [if_neg (by omega : ¬ (2 * 0 > 1 ∨ 2 * 0 = 1 ∧ m % 2 = 1)), show (x - -126).toNat = (e + 149).toNat from by omega, pat,
    if_neg (by omega)]
  rfl

/-- The value of an FP32 pattern. -/
theorem decodeElem_fp32 {n : Nat} (h : n % 2 ^ 31 < 255 * 2 ^ 23) : (decodeElem .fp32 n).1 =
    if n % 2 ^ 31 / 2 ^ 23 = 0 then .num (decide (n / 2 ^ 31 % 2 = 1)) (n % 2 ^ 31 % 2 ^ 23) 1 (-149)
    else .num (decide (n / 2 ^ 31 % 2 = 1)) (2 ^ 23 + n % 2 ^ 31 % 2 ^ 23) 1 ((n % 2 ^ 31 / 2 ^ 23 : Nat) - 150 : Int) := by
  obtain ⟨p, hp⟩ : ∃ p, p = n % 2 ^ 31 := ⟨_, rfl⟩
  obtain ⟨b, hb⟩ : ∃ b, b = decide (n / 2 ^ 31 % 2 = 1) := ⟨_, rfl⟩
  rw [← hp] at h
  rw [← hp, ← hb]
  unfold decodeElem
  have emin : Elem.fp32.emin = -126 := rfl
  have fb : Elem.fp32.fb = 23 := rfl
  have eb : Elem.fp32.eb = 8 := rfl
  have inf : Elem.fp32.hasInf = true := rfl
  have bias : Elem.fp32.bias = 127 := rfl
  rw [emin, fb, eb, inf, bias]
  dsimp only
  rw [show 8 + 23 = 31 from rfl, ← hp, ← hb, if_pos rfl, if_neg (by omega), if_neg (by omega)]
  dsimp only
  split
  · rfl
  · exact congrArg (FVal.num b _ 1) (by omega)
section
variable (neg : Bool) {ex fr n : Nat} (hex : ex < 255) (hfr : fr < 2 ^ 23) (hn : n = sign32 neg + ex * 2 ^ 23 + fr)
include hex hfr hn

theorem sign32_bit : decide (n / 2 ^ 31 % 2 = 1) = neg := by
  rw [hn]
  cases neg
  · exact decide_eq_false (by rw [sign32_false]; omega)
  · exact decide_eq_true (by rw [sign32_true]; omega)

theorem sign32_fields : n < 2 ^ 32 ∧ n % 2 ^ 31 < 255 * 2 ^ 23 ∧ n % 2 ^ 31 / 2 ^ 23 = ex ∧ n % 2 ^ 31 % 2 ^ 23 = fr := by
  have sg := sign32_cases neg
  omega

/-- An FP32 pattern by sign, exponent and fraction. -/
theorem f32val_finite : f32val (BitVec.ofNat 32 n) = if ex = 0 then .num neg fr 1 (-149) else .num neg (2 ^ 23 + fr) 1 ((ex : Int) - 150) := by
  obtain ⟨small, finite, exponent, fraction⟩ := sign32_fields neg hex hfr hn
  have whole : (BitVec.ofNat 32 n).toNat = n := by
    rw [BitVec.toNat_ofNat]
    exact Nat.mod_eq_of_lt small
  unfold f32val
  rw [whole, decodeElem_fp32 finite, sign32_bit neg hex hfr hn, exponent, fraction]

end

/-- A finite FP32 pattern by its parts. -/
theorem finite32_parts {x : BitVec 32} (h : finite32 x = true) :
    ∃ neg ex fr n, ex < 255 ∧ fr < 2 ^ 23 ∧ n = sign32 neg + ex * 2 ^ 23 + fr ∧ x = BitVec.ofNat 32 n := by
  have small := x.isLt
  have ex : fldN x 23 8 = x.toNat / 2 ^ 23 % 2 ^ 8 := fldN_eq x 23 8
  have not : fldN x 23 8 ≠ 255 := by simpa [finite32] using h
  rw [ex] at not
  refine ⟨decide (2 ^ 31 ≤ x.toNat), x.toNat / 2 ^ 23 % 2 ^ 8, x.toNat % 2 ^ 23, x.toNat, by omega, Nat.mod_lt _ (by decide), ?_, (BitVec.ofNat_toNat 32 x).symm.trans ?_⟩
  rotate_left
  · rw [BitVec.ofNat_toNat, BitVec.setWidth_eq]
  by_cases big : 2 ^ 31 ≤ x.toNat
  · rw [decide_eq_true big, sign32_true]
    omega
  · rw [decide_eq_false big, sign32_false]
    omega

/-- A finite pattern rounds to itself. -/
theorem f32bits_f32val {x : BitVec 32} (h : finite32 x = true) : f32bits (f32val x) = x := by
  obtain ⟨neg, ex, fr, n, hex, hfr, hn, rfl⟩ := finite32_parts h
  rw [f32val_finite neg hex hfr hn]
  unfold f32bits rne32
  dsimp only
  by_cases zero : ex = 0
  · subst zero
    rw [if_pos rfl]
    by_cases none_ : fr = 0
    · subst none_
      rw [hn]
      cases neg <;> decide
    · have small : fr.log2 < 23 := (Nat.log2_lt none_).mpr hfr
      rw [roundTo_exact neg none_ (p := fr) (by omega) (by omega) (by omega)]
      exact congrArg (BitVec.ofNat 32) (by omega)
  · rw [if_neg zero]
    have size : (2 ^ 23 + fr).log2 = 23 := (Nat.log2_eq_iff (by omega)).mpr ⟨by omega, by omega⟩
    rw [roundTo_exact neg (m := 2 ^ 23 + fr) (by omega) (p := ex * 2 ^ 23 + fr) (by rw [size]; omega) (by omega) (by omega), hn, Nat.add_assoc]

/-- What rounding leaves is finite or the canonical NaN. -/
theorem f32bits_settled (v : FVal) : finite32 (f32bits v) = true ∨ f32bits v = nan32 := by
  have small (neg : Bool) {p : Nat} (hp : p ≤ 0x7F7FFFFF) : finite32 (BitVec.ofNat 32 (sign32 neg + p)) = true := by
    have sg := sign32_cases neg
    have field : fldN (BitVec.ofNat 32 (sign32 neg + p)) 23 8 = (sign32 neg + p) % 2 ^ 32 / 2 ^ 23 % 2 ^ 8 := by
      rw [fldN_eq, BitVec.toNat_ofNat]
    unfold finite32
    rw [field]
    exact bne_iff_ne.mpr (by omega)
  cases v with
  | nan => exact .inr rfl
  | num neg m d e =>
    obtain ⟨r, hr⟩ : ∃ r, r = roundTo .fp32 .rne (.num neg m d e) := ⟨_, rfl⟩
    have bits : f32bits (.num neg m d e) = BitVec.ofNat 32 r.bits := by rw [hr]; rfl
    rw [bits]
    refine .inl ?_
    unfold roundTo at hr
    dsimp only at hr
    split at hr
    · exact hr ▸ small neg (p := 0) (Nat.zero_le _)
    · split at hr
      all_goals
        split at hr
        · exact hr ▸ small neg (p := Elem.fp32.maxFinite) (by decide)
        · next fits => exact hr ▸ small neg (Nat.le_of_not_lt fits)

theorem f32bits_nan : f32bits (f32val nan32) = nan32 := by decide

/-- Rounding is idempotent. -/
theorem f32bits_again (v : FVal) : f32bits (f32val (f32bits v)) = f32bits v := by
  rcases f32bits_settled v with finite | nan
  · exact f32bits_f32val finite
  · rw [nan, f32bits_nan]

/-! ## Sign and order -/

/-- The sign bit s over m bits is inverted. -/
theorem xor_sign (s : Nat) {m : Nat} (low : m < 2 ^ 31) : (2 ^ 31 * s + m) ^^^ 2 ^ 31 = 2 ^ 31 * (s ^^^ 1) + m := by
  refine Nat.eq_of_testBit_eq (fun j => ?_)
  rw [Nat.testBit_xor, Nat.testBit_two_pow_mul_add _ low, Nat.testBit_two_pow_mul_add _ low, Nat.testBit_two_pow]
  by_cases h : j < 31
  · rw [if_pos h, if_pos h, decide_eq_false (by omega), Bool.xor_false]
  · rw [if_neg h, if_neg h, Nat.testBit_xor, show (1 : Nat) = 2 ^ 0 from rfl, Nat.testBit_two_pow]
    exact congrArg _ (decide_eq_decide.mpr (by omega))

theorem f32val_abs {x : BitVec 32} (h : finite32 x = true) : (f32val x).abs = f32val (x &&& 0x7FFFFFFF#32) := by
  obtain ⟨neg, ex, fr, n, hex, hfr, hn, rfl⟩ := finite32_parts h
  obtain ⟨small, finite, -, -⟩ := sign32_fields neg hex hfr hn
  have sg := sign32_cases neg
  have same : BitVec.ofNat 32 n &&& 0x7FFFFFFF#32 = BitVec.ofNat 32 (n % 2 ^ 31) := by
    refine BitVec.eq_of_toNat_eq ?_
    rw [BitVec.toNat_and, BitVec.toNat_ofNat, BitVec.toNat_ofNat, BitVec.toNat_ofNat, show 0x7FFFFFFF % 2 ^ 32 = 2 ^ 31 - 1 from rfl,
      Nat.and_two_pow_sub_one_eq_mod]
    omega
  rw [same, f32val_finite neg hex hfr hn, f32val_finite false hex hfr (n := n % 2 ^ 31) (by rw [sign32_false]; omega)]
  split <;> rfl

theorem f32val_negate {x : BitVec 32} (h : finite32 x = true) : (f32val x).negate = f32val (x ^^^ 0x80000000#32) := by
  obtain ⟨neg, ex, fr, n, hex, hfr, hn, rfl⟩ := finite32_parts h
  obtain ⟨small, finite, -, -⟩ := sign32_fields neg hex hfr hn
  have low : ex * 2 ^ 23 + fr < 2 ^ 31 := by omega
  have same : BitVec.ofNat 32 n ^^^ 0x80000000#32 = BitVec.ofNat 32 (n ^^^ 2 ^ 31) := by
    refine BitVec.eq_of_toNat_eq ?_
    have fits : n ^^^ 2 ^ 31 < 2 ^ 32 := Nat.xor_lt_two_pow small (by decide)
    rw [BitVec.toNat_xor, BitVec.toNat_ofNat, BitVec.toNat_ofNat, BitVec.toNat_ofNat, Nat.mod_eq_of_lt small, Nat.mod_eq_of_lt fits]
    rfl
  have other : n ^^^ 2 ^ 31 = sign32 (!neg) + ex * 2 ^ 23 + fr := by
    cases neg
    · have flip := xor_sign 0 low
      rw [Nat.zero_xor, Nat.mul_zero, Nat.zero_add] at flip
      rw [hn, sign32_false, Nat.zero_add, flip, Bool.not_false, sign32_true]
      omega
    · have flip := xor_sign 1 low
      rw [Nat.xor_self, Nat.mul_zero, Nat.zero_add] at flip
      rw [hn, sign32_true, show 2147483648 + ex * 2 ^ 23 + fr = 2 ^ 31 * 1 + (ex * 2 ^ 23 + fr) from by omega, flip, Bool.not_true, sign32_false]
      omega
  rw [same, f32val_finite neg hex hfr hn, f32val_finite (!neg) hex hfr other]
  split <;> rfl

theorem finite32_not_nan {x : BitVec 32} (h : finite32 x = true) : (f32val x).isNaN = false := by
  obtain ⟨neg, ex, fr, n, hex, hfr, hn, rfl⟩ := finite32_parts h
  rw [f32val_finite neg hex hfr hn]
  split <;> rfl

theorem FVal.align_swap (n : Bool) (m d : Nat) (e : Int) (n' : Bool) (m' d' : Nat) (e' : Int) :
    (FVal.align n' m' d' e' n m d e).1 = (FVal.align n m d e n' m' d' e').2.1 ∧
    (FVal.align n' m' d' e' n m d e).2.1 = (FVal.align n m d e n' m' d' e').1 := by
  simp only [FVal.align, min_comm e' e]
  exact ⟨trivial, trivial⟩

theorem FVal.lt_asymm {a b : FVal} (h : a.lt b = true) : b.lt a = false := by
  cases a with
  | nan => exact nomatch h
  | num n m d e =>
    cases b with
    | nan => exact nomatch h
    | num n' m' d' e' =>
      obtain ⟨one, two⟩ := FVal.align_swap n m d e n' m' d' e'
      obtain ⟨p, hp⟩ : ∃ p, p = FVal.align n m d e n' m' d' e' := ⟨_, rfl⟩
      obtain ⟨p', hp'⟩ : ∃ p, p = FVal.align n' m' d' e' n m d e := ⟨_, rfl⟩
      rw [← hp, ← hp'] at one two
      have less : p.1 < p.2.1 := by
        rw [hp]
        exact of_decide_eq_true h
      have more : ¬ p'.1 < p'.2.1 := by omega
      rw [hp'] at more
      exact decide_eq_false more

theorem FVal.lt_irrefl (a : FVal) : a.lt a = false := by
  cases h : a.lt a with
  | false => rfl
  | true => exact h.symm.trans (FVal.lt_asymm h)

theorem FVal.max_self (a : FVal) : a.max a = a := by
  cases a with
  | nan => rfl
  | num n m d e =>
    unfold FVal.max
    dsimp only
    rw [FVal.lt_irrefl]
    simp

theorem FVal.min_self (a : FVal) : a.min a = a := by
  cases a with
  | nan => rfl
  | num n m d e =>
    unfold FVal.min
    dsimp only
    rw [FVal.lt_irrefl]
    simp

/-- The larger and the smaller of two values. -/
theorem FVal.max_of_lt {a b : FVal} (h : a.lt b = true) : a.max b = b ∧ b.max a = b ∧ a.min b = a ∧ b.min a = a := by
  cases a with
  | nan => exact nomatch h
  | num n m d e =>
    cases b with
    | nan => exact nomatch h
    | num n' m' d' e' =>
      have other := FVal.lt_asymm h
      unfold FVal.max FVal.min
      dsimp only
      rw [h, other]
      simp

end Sys2Proof.Machine
end

section
/-! PROOFS. Elements in core SRAM: reading them and storing them (R109 to R112). -/

namespace Sys2Proof.Machine

set_option Elab.async false -- in turn: many waiting threads need much memory

/-! ## Cells of one size, one behind the other -/

theorem length_cells {cell : Nat → List Byte} {e n : Nat} (size : ∀ j, j < n → (cell j).length = e) : ((List.range n).flatMap cell).length = n * e := by
  induction n with
  | zero => simp
  | succ n ih =>
    rw [List.range_succ, List.flatMap_append, List.length_append, ih (fun j hj => size j (by omega)), List.flatMap_singleton, size n (by omega),
      Nat.succ_mul]

theorem getElem?_cells {cell : Nat → List Byte} {e n : Nat} (size : ∀ j, j < n → (cell j).length = e) {j i : Nat} (hj : j < n) (hi : i < e) :
    ((List.range n).flatMap cell)[j * e + i]? = (cell j)[i]? := by
  induction n with
  | zero => exact absurd hj (Nat.not_lt_zero _)
  | succ n ih =>
    have before := length_cells (cell := cell) (e := e) (n := n) (fun k hk => size k (by omega))
    rw [List.range_succ, List.flatMap_append, List.flatMap_singleton]
    by_cases last : j = n
    · subst last
      rw [List.getElem?_append_right (by rw [before]; omega), before, Nat.add_sub_cancel_left]
    · have room : j * e + i < n * e := by
        have le : (j + 1) * e ≤ n * e := Nat.mul_le_mul_right e (by omega)
        rw [Nat.succ_mul] at le
        omega
      rw [List.getElem?_append_left (by rw [before]; exact room)]
      exact ih (fun k hk => size k (by omega)) (by omega)

/-- A write within [a, a + n). -/
theorem getElem?_storedAt_one {a : Nat} {bs : List Byte} {o : Nat} : storedAt [(a, bs)] (a + o) = bs[o]? := by
  rw [storedAt_one, if_pos (Nat.le_add_right a o), Nat.add_sub_cancel_left]

section
variable {s x t : State} {c : CoreId} {u : EngUnit} {q : QEntry} {ws : List (Nat × List Byte)} (h : s.Committed x t c u q ws) (wf : s.ms.mem.wf 0 = true)
include h wf

/-- Only the bytes of the results change. -/
theorem State.Committed.storesOnly {rs : List (Nat × Nat)} (within : ∀ w ∈ ws, ∃ r ∈ rs, r.1 ≤ w.1 ∧ w.1 + w.2.length ≤ r.1 + r.2) : s.storesOnly t rs := by
  intro a out
  rw [h.byte wf, storedAt, storedFrom_outside (fun w hw cover => ?_)]
  · rfl
  · obtain ⟨r, hr, low, high⟩ := within w hw
    exact out r hr (by omega)

theorem State.Committed.bytes {a : Nat} {bs : List Byte} (at_ : ∀ i, i < bs.length → storedAt ws (a + i) = bs[i]?) : t.ms.bytes a bs.length = bs := by
  rw [h.ms]
  exact State.stored_bytes wf at_

/-- A number that the results put at a. -/
theorem State.Committed.le {a n v : Nat} (at_ : ∀ i, i < n → storedAt ws (a + i) = (leBytes n v)[i]?) : t.ms.le a n = v % 256 ^ n := by
  have bytes := h.bytes wf (a := a) (bs := leBytes n v) (by rw [length_leBytes]; exact at_)
  rw [length_leBytes] at bytes
  rw [← leNat_leBytes, ← bytes]
  rfl

end

/-! ## Elements of whole bytes -/

/-- A format of whole bytes, e for each element. -/
structure Whole (code : BitVec 4) (f : Elem) (e : Nat) : Prop where
  elem : elemOf code = some f
  bits : f.bits = 8 * e
  bytes : elemBytes code = e

theorem whole_fp32 : Whole 2 .fp32 4 := ⟨rfl, rfl, rfl⟩
theorem whole_bf16 : Whole 0 .bf16 2 := ⟨rfl, rfl, rfl⟩
theorem whole_fp16 : Whole 1 .fp16 2 := ⟨rfl, rfl, rfl⟩

theorem MemSys.le_lt (ms : MemSys) (a n : Nat) : ms.le a n < 256 ^ n := by
  have lt := leNat_lt (ms.bytes a n)
  rw [MemSys.bytes, Mem.readN_length] at lt
  exact lt

theorem MemSys.word_toNat (ms : MemSys) (a : Nat) : (ms.word a).toNat = ms.le a 4 := by
  rw [MemSys.word, BitVec.toNat_ofNat]
  exact Nat.mod_eq_of_lt (ms.le_lt a 4)

/-- The element that a code is. -/
def elemRead (f : Elem) (x : Nat) : RElem := ⟨(decodeElem f x).1, (decodeElem f x).2, false⟩

/-- Outside HBM an element of whole bytes is what its bytes say. -/
theorem MemSys.elemAt_whole (ms : MemSys) {code : BitVec 4} {f : Elem} {e : Nat} (w : Whole code f e) {a : Nat} (out : isHbm a = false) (j : Nat) :
    ms.elemAt f a (j * f.bits) = elemRead f (ms.le (a + j * e) e) := by
  have lo : j * f.bits / 8 = j * e := by
    rw [w.bits, Nat.mul_left_comm]
    exact Nat.mul_div_cancel_left _ (by decide)
  have bit : j * f.bits % 8 = 0 := by
    rw [w.bits, Nat.mul_left_comm]
    exact Nat.mul_mod_right _ _
  have n : (0 + f.bits + 7) / 8 = e := by
    rw [w.bits]
    omega
  have fits : ms.le (a + j * e) e % 2 ^ f.bits = ms.le (a + j * e) e := by
    refine Nat.mod_eq_of_lt ?_
    have lt := ms.le_lt (a + j * e) e
    rw [w.bits, Nat.pow_mul]
    exact lt
  unfold MemSys.elemAt
  dsimp only
  rw [lo, bit, n, ms.badRange_sram e (isHbm_up out (Nat.le_add_right a _)), Nat.pow_zero, Nat.div_one, fits]
  rfl

theorem MemSys.rowElems_whole (ms : MemSys) {code : BitVec 4} {f : Elem} {e : Nat} (w : Whole code f e) {a : Nat} (out : isHbm a = false) (n : Nat) :
    ms.rowElems code a n = (ms.codes f a n).map (elemRead f) := by
  have size : f.bits / 8 = e := by
    rw [w.bits]
    exact Nat.mul_div_cancel_left _ (by decide)
  unfold MemSys.rowElems MemSys.codes
  rw [w.elem, List.map_map, size]
  exact List.map_congr_left (fun j _ => ms.elemAt_whole w out j)

theorem MemSys.rowElems_healthy (ms : MemSys) {code : BitVec 4} {f : Elem} {e : Nat} (w : Whole code f e) {a : Nat} (out : isHbm a = false) (n : Nat) :
    (ms.rowElems code a n).any RElem.bad = false := by
  rw [ms.rowElems_whole w out, List.any_map, List.any_eq_false]
  intro x hx
  exact Bool.false_ne_true

theorem MemSys.rowElems_values (ms : MemSys) {code : BitVec 4} {f : Elem} {e : Nat} (w : Whole code f e) {a : Nat} (out : isHbm a = false) (n : Nat) :
    (ms.rowElems code a n).map RElem.v = ms.values f a n := by
  rw [ms.rowElems_whole w out, List.map_map]
  rfl

theorem MemSys.values_getD (ms : MemSys) {code : BitVec 4} {f : Elem} {e : Nat} (w : Whole code f e) (a : Nat) {j n : Nat} (hj : j < n) (d : FVal) :
    (ms.values f a n).getD j d = (decodeElem f (ms.le (a + j * e) e)).1 := by
  have size : f.bits / 8 = e := by
    rw [w.bits]
    exact Nat.mul_div_cancel_left _ (by decide)
  rw [MemSys.values, MemSys.codes, List.map_map, List.getD_eq_getElem?_getD, List.getElem?_map, List.getElem?_range hj, size]
  rfl

/-! ## Rounded results -/

/-- A result has no bit above its format's. -/
theorem roundTo_lt (f : Elem) (mode : RMode) (v : FVal) : (roundTo f mode v).bits < 2 ^ f.bits := by
  have top : f.maxFinite < 2 ^ (f.eb + f.fb) := by cases f <;> decide
  have canon : f.canonNaN < 2 ^ f.bits := by cases f <;> decide
  have size : 2 ^ f.bits = 2 ^ (f.eb + f.fb) + 2 ^ (f.eb + f.fb) := by
    rw [Elem.bits, Nat.add_assoc, Nat.pow_add]
    omega
  cases v with
  | nan => exact canon
  | num neg m d e =>
    obtain ⟨sg, hsg⟩ : ∃ sg, sg = if neg then 2 ^ (f.eb + f.fb) else 0 := ⟨_, rfl⟩
    have small : sg ≤ 2 ^ (f.eb + f.fb) := by
      rw [hsg]
      split
      · exact Nat.le_refl _
      · exact Nat.zero_le _
    obtain ⟨r, hr⟩ : ∃ r, r = roundTo f mode (.num neg m d e) := ⟨_, rfl⟩
    rw [← hr, size]
    unfold roundTo at hr
    dsimp only at hr
    rw [← hsg] at hr
    split at hr
    · rw [hr]
      show sg < _
      have := Nat.two_pow_pos (f.eb + f.fb)
      omega
    · obtain ⟨pat, hpat⟩ : ∃ pat, r = if pat > f.maxFinite then ⟨sg + f.maxFinite, true, false, false⟩
          else ⟨sg + pat, false, decide (pat < 2 ^ f.fb), false⟩ := ⟨_, hr⟩
      rw [hpat]
      split
      · show sg + f.maxFinite < _
        omega
      · show sg + pat < _
        omega

/-- The draw, or nearest even, of a result's element. -/
theorem writeElem_bytes {code : BitVec 4} {f : Elem} {e : Nat} (w : Whole code f e) (k : KcgSel) (sr : Bool) (a : Nat) (v : FVal) (mid : Bool) :
    (writeElem code (if sr then some k else none) a v mid).1 = leBytes e (roundTo f (modeAt k sr f a) v).bits := by
  have size : f.bits / 8 = e := by
    rw [w.bits]
    exact Nat.mul_div_cancel_left _ (by decide)
  unfold writeElem modeAt
  rw [w.elem]
  dsimp only
  rw [size]
  cases sr <;> rfl

theorem writeElem_fp32 (a : Nat) (v : FVal) (mid : Bool) : (writeElem 2 none a v mid).1 = leBytes 4 (f32bits v).toNat := by
  have fits : (f32bits v).toNat = (roundTo .fp32 .rne v).bits := by
    show (BitVec.ofNat 32 (roundTo .fp32 .rne v).bits).toNat = _
    rw [BitVec.toNat_ofNat]
    exact Nat.mod_eq_of_lt (roundTo_lt .fp32 .rne v)
  rw [fits]
  rfl

theorem decodeElem_word (ms : MemSys) (a : Nat) : (decodeElem .fp32 (ms.le a 4)).1 = f32val (ms.word a) := by
  rw [f32val, MemSys.word_toNat]

end Sys2Proof.Machine
end

section
/-! PROOFS. O13 VecElementResults: elementwise VEC operations (R139, R140). -/

namespace Sys2Proof.Machine

set_option Elab.async false -- in turn: many waiting threads need much memory

/-! ## What an elementwise operation writes -/

/-- Element j of an elementwise operation before its rounding. -/
def vecValue (ms : MemSys) (f : Elem) (o a b d n j : Nat) : FVal × Bool :=
  vecElem o ((ms.values f a n).getD j .zero)
    (if vecReadsB o then (ms.values f b n).getD (if vecScalar o then 0 else j) .zero else .zero)
    (if vecReadsD o then (ms.values f d n).getD j .zero else .zero)

/-- Its bytes. -/
def vecCell (ms : MemSys) (k : KcgSel) (f : Elem) (o a b d n e : Nat) (sr : Bool) (j : Nat) : List Byte :=
  leBytes e (roundTo f (modeAt k sr f (d + j * e)) (vecValue ms f o a b d n j).1).bits

theorem elem_value (l : List RElem) (j : Nat) : (match l[j]? with | some e => e.v | none => FVal.zero) = (l.map RElem.v).getD j .zero := by
  rw [List.getD_eq_getElem?_getD, List.getElem?_map]
  cases l[j]? <;> rfl

section
variable {ms : MemSys} {k : KcgSel} {fmt : BitVec 4} {f : Elem} {e o a b d n : Nat} {sr : Bool} (w : Whole fmt f e) (rand : o ≠ 0x40)
  (wise : vecReduces o = false) (outA : isHbm a = false) (outB : vecReadsB o = true → isHbm b = false) (outD : isHbm d = false)
include w rand wise outA outB outD

theorem vecRun_elementwise : (vecRun ms k o a b d n fmt sr).writes = [(d, (List.range n).flatMap (vecCell ms k f o a b d n e sr))] ∧
    (vecRun ms k o a b d n fmt sr).poison = [] ∧ (vecRun ms k o a b d n fmt sr).err = false := by
  unfold vecRun
  dsimp only
  rw [if_neg rand, if_neg (Bool.eq_false_iff.mp wise), w.bytes]
  refine ⟨?_, rfl, ?_⟩
  · refine congrArg (fun x => [(d, x)]) ?_
    rw [List.flatMap_map]
    refine List.flatMap_congr (fun j hj => ?_)
    have small := List.mem_range.mp hj
    rw [vecWrite, writeElem_bytes w]
    unfold vecCell vecValue
    refine congrArg (fun v : FVal × Bool => leBytes e (roundTo f (modeAt k sr f (d + j * e)) v.1).bits) ?_
    have second : ((if vecReadsB o then ms.rowElems fmt b (if vecScalar o then 1 else n) else []).map RElem.v).getD (if vecScalar o then 0 else j) .zero =
        if vecReadsB o then (ms.values f b n).getD (if vecScalar o then 0 else j) .zero else .zero := by
      split
      · next reads =>
        rw [ms.rowElems_values w (outB reads)]
        split
        · rw [ms.values_getD w b (j := 0) (n := 1) (by decide), ms.values_getD w b (j := 0) (n := n) (by omega)]
        · rfl
      · rfl
    have third : ((if vecReadsD o then ms.rowElems fmt d n else []).map RElem.v).getD j .zero =
        if vecReadsD o then (ms.values f d n).getD j .zero else .zero := by
      split
      · rw [ms.rowElems_values w outD]
      · rfl
    have first : ((ms.rowElems fmt a n).map RElem.v).getD j .zero = (ms.values f a n).getD j .zero := by rw [ms.rowElems_values w outA]
    exact congr (congr (congrArg (vecElem o) ((elem_value _ j).trans first)) ((elem_value _ _).trans second)) ((elem_value _ j).trans third)
  · have second : (if vecReadsB o then ms.rowElems fmt b (if vecScalar o then 1 else n) else []).any RElem.bad = false := by
      split
      · next reads => exact ms.rowElems_healthy w (outB reads) _
      · rfl
    have third : (if vecReadsD o then ms.rowElems fmt d n else []).any RElem.bad = false := by
      split
      · exact ms.rowElems_healthy w outD _
      · rfl
    show List.any _ _ = false
    rw [List.any_append, List.any_append, ms.rowElems_healthy w outA, second, third]
    rfl

omit w wise in
theorem vecPlan_sram : ∀ r ∈ (vecPlan o a b d n fmt).all, isHbm r.1 = false := by
  unfold vecPlan
  dsimp only
  rw [if_neg rand]
  intro r hr
  simp only [ReadPlan.all, plainRuns, List.nil_append, List.map_cons, List.map_nil, List.mem_flatten, List.mem_append, List.mem_singleton,
    List.mem_ite_nil_right] at hr
  obtain ⟨l, (rfl | ⟨reads, rfl⟩) | ⟨-, rfl⟩, hr⟩ := hr
  · rw [List.mem_singleton.mp hr]
    exact outA
  · rw [List.mem_singleton.mp hr]
    exact outB (Bool.and_eq_true_iff.mp reads).2
  · rw [List.mem_singleton.mp hr]
    exact outD

end

/-- A VEC operation whose operands are in core SRAM and whose results are written at d. -/
theorem exec_vec {c : CoreId} {i : Nat} {s : State} {r : REntry} {o : BitVec 8} {a b d n : Nat} {fmt : BitVec 4} {sr : Bool} {bs : List Byte}
    (calm : s.Calm) (next : (s.core c).vec.mayComplete .vec i = some r) (op : r.q.op = some (.vec o a b d n fmt sr)) (outA : o.toNat ≠ 0x40 → isHbm a = false)
    (outB : vecReadsB o.toNat = true → isHbm b = false) (outD : isHbm d = false)
    (res : (vecRun s.ms r.q.kcg o.toNat a b d n fmt sr).writes = [(d, bs)] ∧ (vecRun s.ms r.q.kcg o.toNat a b d n fmt sr).poison = [] ∧
      (vecRun s.ms r.q.kcg o.toNat a b d n fmt sr).err = false) :
    ∃ t, exec (.operationComplete c .vec i) s = .next t ∧ s.Committed s t c .vec r.q [(d, bs)] := by
  obtain ⟨writes, healthy, good⟩ := res
  have left : s.complete c .vec r = s.commit c .vec r.q 1 (s.readPlan c r) (vecRun s.ms r.q.kcg o.toNat a b d n fmt sr) := by
    unfold State.complete
    dsimp only
    rw [op]
  have plan : s.readPlan c r = vecPlan o.toNat a b d n fmt := by
    unfold State.readPlan
    rw [op]
  have reads : ∀ x ∈ (vecPlan o.toNat a b d n fmt).all, isHbm x.1 = false := by
    by_cases rand : o.toNat = 0x40
    · rw [rand]
      exact fun x hx => nomatch hx
    · exact vecPlan_sram rand (outA rand) outB outD
  obtain ⟨still, done⟩ := (State.Ran.refl s c).committed (u := .vec) (q := r.q) (e := 1) (plan := s.readPlan c r)
    (res := vecRun s.ms r.q.kcg o.toNat a b d n fmt sr) calm rfl (by rw [plan]; exact reads)
    (by rw [writes]; exact fun x hx => (List.mem_singleton.mp hx) ▸ outD) healthy good
  rw [writes] at done
  rw [← left] at still done
  exact ⟨_, exec_operationComplete calm next still, done⟩

/-- An elementwise operation that completes. -/
theorem exec_vecElementwise {c : CoreId} {i : Nat} {s : State} {r : REntry} {o : BitVec 8} {a b d n e : Nat} {fmt : BitVec 4} {f : Elem} {sr : Bool}
    (calm : s.Calm) (wf : s.ms.mem.wf 0 = true) (next : (s.core c).vec.mayComplete .vec i = some r) (op : r.q.op = some (.vec o a b d n fmt sr))
    (w : Whole fmt f e) (rand : o.toNat ≠ 0x40) (wise : vecReduces o.toNat = false) (outA : isHbm a = false)
    (outB : vecReadsB o.toNat = true → isHbm b = false) (outD : isHbm d = false) :
    ∃ t, exec (.operationComplete c .vec i) s = .next t ∧ s.Finished t c .vec r.q false ∧ s.otherCores t c ∧ s.storesOnly t [(d, n * e)] ∧
      ∀ j, j < n → t.ms.le (d + j * e) e = (roundTo f (modeAt r.q.kcg sr f (d + j * e)) (vecValue s.ms f o.toNat a b d n j).1).bits := by
  have size (j : Nat) (_ : j < n) : (vecCell s.ms r.q.kcg f o.toNat a b d n e sr j).length = e := length_leBytes _ _
  obtain ⟨t, run, done⟩ := exec_vec calm next op (fun _ => outA) outB outD (vecRun_elementwise w rand wise outA outB outD)
  refine ⟨t, run, done.finished, done.others, done.storesOnly wf (fun x hx => ?_), fun j hj => ?_⟩
  · rw [List.mem_singleton.mp hx]
    exact ⟨_, .head _, Nat.le_refl _, by rw [length_cells size]⟩
  · rw [done.le wf (v := (roundTo f (modeAt r.q.kcg sr f (d + j * e)) (vecValue s.ms f o.toNat a b d n j).1).bits) (fun k hk => ?_)]
    · refine Nat.mod_eq_of_lt ?_
      have lt := roundTo_lt f (modeAt r.q.kcg sr f (d + j * e)) (vecValue s.ms f o.toNat a b d n j).1
      rw [w.bits, Nat.pow_mul] at lt
      exact lt
    · rw [Nat.add_assoc, getElem?_storedAt_one, getElem?_cells size hj hk]
      rfl

/-! ## The obligation -/

theorem finite32_abs {x : BitVec 32} (h : finite32 x = true) : finite32 (x &&& 0x7FFFFFFF#32) = true := by
  unfold finite32 fldN at h ⊢
  rw [BitVec.extractLsb'_and, show (0x7FFFFFFF#32).extractLsb' 23 8 = BitVec.allOnes 8 from by decide, BitVec.and_allOnes]
  exact h

theorem finite32_negate {x : BitVec 32} (h : finite32 x = true) : finite32 (x ^^^ 0x80000000#32) = true := by
  unfold finite32 fldN at h ⊢
  rw [BitVec.extractLsb'_xor, show (0x80000000#32).extractLsb' 23 8 = 0#8 from by decide, BitVec.xor_zero]
  exact h

/-- What a row of the table of R139 makes of two finite FP32 elements. -/
theorem vecElem_finite {x y : FVal} (hx : x.isNaN = false) (hy : y.isNaN = false) :
    vecElem 0x01 x y .zero = (x.add y, false) ∧ vecElem 0x02 x y .zero = (x.sub y, false) ∧ vecElem 0x03 x y .zero = (x.mul y, false) ∧
    vecElem 0x06 x y .zero = (x.max y, false) ∧ vecElem 0x07 x y .zero = (x.min y, false) ∧
    vecElem 0x08 x .zero .zero = (x.abs, false) ∧ vecElem 0x09 x .zero .zero = (x.negate, false) ∧ vecElem 0x0A x .zero .zero = (x, false) := by
  unfold vecElem
  rw [hx, hy]
  exact ⟨rfl, rfl, rfl, rfl, rfl, rfl, rfl, rfl⟩

/-- Settles O13: each element of D is the rounded result of its two elements, and what is finite rounds to itself. -/
theorem vecElementResults : Obligations.VecElementResults := by
  intro c i s r o a b d n calm wf next op inA inB inD finite listed
  have outA := inSram_sram inA
  have outB := inSram_sram inB
  have outD := inSram_sram inD
  have plain : o.toNat ≠ 0x40 ∧ vecReduces o.toNat = false := by
    simp only [List.mem_cons, List.not_mem_nil, or_false] at listed
    rcases listed with rfl | rfl | rfl | rfl | rfl | rfl | rfl | rfl <;> decide
  obtain ⟨t, run, -, -, only, cells⟩ := exec_vecElementwise calm wf next op whole_fp32 plain.1 plain.2 outA (fun _ => outB) outD
  refine ⟨t, run, fun x out => only x (fun p hp => ?_), fun j hj => ?_⟩
  · rw [List.mem_singleton.mp hp, Nat.mul_comm n 4]
    exact out
  intro x y z
  obtain ⟨fx, fy⟩ := finite j hj
  have cell := cells j hj
  have at_ (p : Nat) : p + j * 4 = p + 4 * j := by omega
  have first : (s.ms.values .fp32 a n).getD j .zero = f32val x := by
    rw [s.ms.values_getD whole_fp32 a hj, at_, decodeElem_word]
    rfl
  have second : (s.ms.values .fp32 b n).getD j .zero = f32val y := by
    rw [s.ms.values_getD whole_fp32 b hj, at_, decodeElem_word]
    rfl
  have result : z = f32bits (vecValue s.ms .fp32 o.toNat a b d n j).1 := by
    rw [at_] at cell
    exact congrArg (BitVec.ofNat 32) cell
  obtain ⟨add, sub, mul, max, min, abs, negate, copy⟩ := vecElem_finite (finite32_not_nan fx) (finite32_not_nan fy)
  have binary {o' : BitVec 8} {v : FVal} (e : o = o') (made : vecElem o'.toNat (f32val x) (f32val y) .zero = (v, false))
      (reads : vecReadsB o'.toNat = true ∧ vecScalar o'.toNat = false ∧ vecReadsD o'.toNat = false) : z = f32bits v := by
    obtain ⟨b, sc, d⟩ := reads
    rw [result, e, vecValue, first, b, sc, d, if_pos rfl, if_neg Bool.false_ne_true, if_neg Bool.false_ne_true, second, made]
  have unary {o' : BitVec 8} {v : FVal} (e : o = o') (made : vecElem o'.toNat (f32val x) .zero .zero = (v, false))
      (reads : vecReadsB o'.toNat = false ∧ vecReadsD o'.toNat = false) : z = f32bits v := by
    obtain ⟨b, d⟩ := reads
    rw [result, e, vecValue, first, b, d, if_neg Bool.false_ne_true, if_neg Bool.false_ne_true, made]
  refine ⟨fun e => binary e add (by decide), fun e => binary e sub (by decide), fun e => binary e mul (by decide), fun e => ?_, fun e => ?_, fun e => ?_,
    fun same e => ?_, fun less => ⟨fun e => ?_, fun e => ?_⟩, fun less => ⟨fun e => ?_, fun e => ?_⟩⟩
  · exact (unary e copy (by decide)).trans (f32bits_f32val fx)
  · rw [unary e abs (by decide), f32val_abs fx]
    exact f32bits_f32val (finite32_abs fx)
  · rw [unary e negate (by decide), f32val_negate fx]
    exact f32bits_f32val (finite32_negate fx)
  · rcases e with e | e
    · rw [binary e max (by decide), ← congrArg f32val same, FVal.max_self]
      exact f32bits_f32val fx
    · rw [binary e min (by decide), ← congrArg f32val same, FVal.min_self]
      exact f32bits_f32val fx
  · rw [binary e max (by decide), (FVal.max_of_lt less).1]
    exact f32bits_f32val fy
  · rw [binary e min (by decide), (FVal.max_of_lt less).2.2.1]
    exact f32bits_f32val fx
  · rw [binary e max (by decide), (FVal.max_of_lt less).2.1]
    exact f32bits_f32val fx
  · rw [binary e min (by decide), (FVal.max_of_lt less).2.2.2]
    exact f32bits_f32val fy

end Sys2Proof.Machine
end

section
/-! PROOFS. O18 VectorResults: VEC operations in every format (R139 to R142). -/

namespace Sys2Proof.Machine

set_option Elab.async false -- in turn: many waiting threads need much memory

/-! ## The table of R139 -/

section
variable (x y z : FVal)

theorem vecElem_add : (vecElem 0x01 x y .zero).1 = x.add y ∧ (vecElem 0x10 x y .zero).1 = x.add y := by cases x <;> cases y <;> exact ⟨rfl, rfl⟩

theorem vecElem_sub : (vecElem 0x02 x y .zero).1 = x.sub y := by cases x <;> cases y <;> rfl

theorem vecElem_mul : (vecElem 0x03 x y .zero).1 = x.mul y ∧ (vecElem 0x11 x y .zero).1 = x.mul y := by cases x <;> cases y <;> exact ⟨rfl, rfl⟩

theorem vecElem_fma : (vecElem 0x04 x y z).1 = (x.mul y).add z ∧ (vecElem 0x14 x y z).1 = (x.mul y).add z := by
  cases x <;> cases y <;> cases z <;> exact ⟨rfl, rfl⟩

theorem vecElem_div : (vecElem 0x05 x y .zero).1 = if y.isZero then (vecElem 0x05 x y .zero).1 else x.div y := by
  split
  · rfl
  · next nonzero =>
    cases x with
    | nan => cases y <;> rfl
    | num n m d e =>
      cases y with
      | nan => rfl
      | num n' m' d' e' => exact if_neg nonzero

theorem vecElem_max : (vecElem 0x06 x y .zero).1 = x.max y ∧ (vecElem 0x12 x y .zero).1 = x.max y := by cases x <;> cases y <;> exact ⟨rfl, rfl⟩

theorem vecElem_min : (vecElem 0x07 x y .zero).1 = x.min y ∧ (vecElem 0x13 x y .zero).1 = x.min y := by cases x <;> cases y <;> exact ⟨rfl, rfl⟩

theorem vecElem_one : (vecElem 0x08 x .zero .zero).1 = x.abs ∧ (vecElem 0x09 x .zero .zero).1 = x.negate ∧ (vecElem 0x0A x .zero .zero).1 = x ∧
    (vecElem 0x0B x .zero .zero).1 = x.sqrt := by cases x <;> exact ⟨rfl, rfl, rfl, rfl⟩

end

/-! ## Reductions and RAND (R141, R142) -/

section
variable {c : CoreId} {i : Nat} {s : State} {r : REntry} {o : BitVec 8} {a b d n e : Nat} {fmt : BitVec 4} {f : Elem} {sr : Bool}
  (calm : s.Calm) (wf : s.ms.mem.wf 0 = true) (next : (s.core c).vec.mayComplete .vec i = some r)

include calm wf next

/-- A reduction that completes. -/
theorem exec_vecReduce (op : r.q.op = some (.vec o a b d n fmt sr)) (w : Whole fmt f e) (listed : o = 0x30 ∨ o = 0x31 ∨ o = 0x32 ∨ o = 0x33)
    (outA : isHbm a = false) (outD : isHbm d = false) :
    ∃ t, exec (.operationComplete c .vec i) s = .next t ∧ s.Finished t c .vec r.q false ∧ s.otherCores t c ∧ s.storesOnly t [(d, 4)] ∧
      t.ms.word d = f32bits (f32val (vecReduce o.toNat ((s.ms.codes f a n).map (elemRead f))).1) := by
  have facts : o.toNat ≠ 0x40 ∧ vecReduces o.toNat = true ∧ vecReadsB o.toNat = false := by
    rcases listed with rfl | rfl | rfl | rfl <;> decide
  obtain ⟨rand, reduces, second⟩ := facts
  obtain ⟨v, hv⟩ : ∃ v, v = f32bits (f32val (vecReduce o.toNat ((s.ms.codes f a n).map (elemRead f))).1) := ⟨_, rfl⟩
  have res : (vecRun s.ms r.q.kcg o.toNat a b d n fmt sr).writes = [(d, leBytes 4 v.toNat)] ∧ (vecRun s.ms r.q.kcg o.toNat a b d n fmt sr).poison = [] ∧
      (vecRun s.ms r.q.kcg o.toNat a b d n fmt sr).err = false := by
    have healthy := s.ms.rowElems_healthy w outA n
    rw [s.ms.rowElems_whole w outA] at healthy
    unfold vecRun
    dsimp only
    rw [if_neg rand, if_pos reduces, s.ms.rowElems_whole w outA, writeElem_fp32, ← hv]
    exact ⟨rfl, rfl, healthy⟩
  obtain ⟨t, run, done⟩ := exec_vec calm next op (fun _ => outA) (fun reads => absurd (second.symm.trans reads) Bool.false_ne_true) outD res
  refine ⟨t, run, done.finished, done.others, done.storesOnly wf (fun x hx => ?_), ?_⟩
  · rw [List.mem_singleton.mp hx]
    exact ⟨_, .head _, Nat.le_refl _, by rw [length_leBytes]⟩
  · rw [← hv, MemSys.word, done.le wf (v := v.toNat) (fun k hk => by rw [getElem?_storedAt_one])]
    exact (congrArg (BitVec.ofNat 32) (Nat.mod_eq_of_lt v.isLt)).trans (BitVec.ofNat_toNat 32 v)

/-- RAND that completes. -/
theorem exec_vecRand (op : r.q.op = some (.vec o a b d n fmt sr)) (w : Whole fmt f e) (rand : o = 0x40) (outD : isHbm d = false) :
    ∃ t, exec (.operationComplete c .vec i) s = .next t ∧ s.Finished t c .vec r.q false ∧ s.otherCores t c ∧ s.storesOnly t [(d, n * e)] ∧
      ∀ j, j < n → t.ms.le (d + j * e) e =
        (roundTo f .trunc (.num false (kcgAt r.q.kcg.seed r.q.kcg.stream (d + j * e)).toNat 1 (-32))).bits := by
  subst rand
  obtain ⟨v, hv⟩ : ∃ v : Nat → Nat, v = fun j =>
    (roundTo f .trunc (.num false (kcgAt r.q.kcg.seed r.q.kcg.stream (d + j * e)).toNat 1 (-32))).bits := ⟨_, rfl⟩
  have size (j : Nat) (_ : j < n) : (leBytes e (v j)).length = e := length_leBytes _ _
  have res : (vecRun s.ms r.q.kcg (0x40 : BitVec 8).toNat a b d n fmt sr).writes = [(d, (List.range n).flatMap (fun j => leBytes e (v j)))] ∧
      (vecRun s.ms r.q.kcg (0x40 : BitVec 8).toNat a b d n fmt sr).poison = [] ∧
      (vecRun s.ms r.q.kcg (0x40 : BitVec 8).toNat a b d n fmt sr).err = false := by
    unfold vecRun
    dsimp only
    rw [if_pos (by decide), w.bytes, List.flatMap_map]
    refine ⟨congrArg (fun x => [(d, x)]) (List.flatMap_congr (fun j _ => ?_)), rfl, rfl⟩
    have whole : f.bits / 8 = e := by
      rw [w.bits]
      exact Nat.mul_div_cancel_left _ (by decide)
    unfold vecRand
    rw [w.elem]
    dsimp only
    rw [whole, hv]
  obtain ⟨t, run, done⟩ := exec_vec calm next op (fun h => absurd (by decide) h) (fun h => absurd h (by decide)) outD res
  refine ⟨t, run, done.finished, done.others, done.storesOnly wf (fun x hx => ?_), fun j hj => ?_⟩
  · rw [List.mem_singleton.mp hx]
    exact ⟨_, .head _, Nat.le_refl _, by rw [length_cells size]⟩
  · rw [done.le wf (v := v j) (fun k hk => by rw [Nat.add_assoc, getElem?_storedAt_one, getElem?_cells size hj hk]), hv]
    refine Nat.mod_eq_of_lt ?_
    have lt := roundTo_lt f .trunc (.num false (kcgAt r.q.kcg.seed r.q.kcg.stream (d + j * e)).toNat 1 (-32))
    rw [w.bits, Nat.pow_mul] at lt
    exact lt

end

end Sys2Proof.Machine
end

section
/-! PROOFS. O18 VectorResults: CRED (R144). -/

namespace Sys2Proof.Machine

set_option Elab.async false -- in turn: many waiting threads need much memory

theorem MemSys.f32s_getD (ms : MemSys) {code : BitVec 4} {f : Elem} {e : Nat} (w : Whole code f e) (a : Nat) {j n : Nat} (hj : j < n) (d : BitVec 32) :
    (ms.f32s f a n).getD j d = f32bits (elemRead f (ms.le (a + j * e) e)).v := by
  have value := ms.values_getD w a hj .zero
  have size : (ms.values f a n).length = n := by rw [MemSys.values, MemSys.codes, List.length_map, List.length_map, List.length_range]
  rw [List.getD_eq_getElem _ _ (size.symm ▸ hj)] at value
  rw [MemSys.f32s, List.getD_eq_getElem _ _ (by rw [List.length_map, size]; exact hj), List.getElem_map, value]
  rfl

theorem MemSys.rowElems_get (ms : MemSys) {code : BitVec 4} {f : Elem} {e : Nat} (w : Whole code f e) {a : Nat} (out : isHbm a = false) {j n : Nat}
    (hj : j < n) : (ms.rowElems code a n)[j]? = some (elemRead f (ms.le (a + j * e) e)) := by
  have size : f.bits / 8 = e := by
    rw [w.bits]
    exact Nat.mul_div_cancel_left _ (by decide)
  rw [ms.rowElems_whole w out, MemSys.codes, List.map_map, List.getElem?_map, List.getElem?_range hj, size]
  rfl

/-- The terms of element j of a CRED, in order. -/
def credTerms (ms : MemSys) (d : CredDesc) (f g : Elem) (j : Nat) : List (BitVec 32) :=
  (if d.flags.testBit 0 then [(ms.f32s g d.d d.count).getD j 0] else []) ++
    (List.range d.slots).map (fun k => (ms.f32s f (d.src + k * d.pitch) d.count).getD j 0)

/-- The bits of its result. -/
def credBits (ms : MemSys) (k : KcgSel) (d : CredDesc) (f g : Elem) (e j : Nat) : Nat :=
  (roundTo g (modeAt k (d.flags.testBit 1) g (d.d + j * e)) (f32val (chain32 none ((credTerms ms d f g j).map (fun x => (x, false)))).1)).bits

section
variable {ms : MemSys} {k : KcgSel} {raw : List Byte} {f g : Elem} {e' e : Nat} (w : Whole (CredDesc.of raw).inF f e') (w' : Whole (CredDesc.of raw).outF g e)
  (outS : isHbm (CredDesc.of raw).src = false) (outD : isHbm (CredDesc.of raw).d = false)
include w w' outS outD

theorem credRun_sram : (credRun ms k raw).writes =
      [((CredDesc.of raw).d, (List.range (CredDesc.of raw).count).flatMap (fun j => leBytes e (credBits ms k (CredDesc.of raw) f g e j)))] ∧
    (credRun ms k raw).poison = [] ∧ (credRun ms k raw).err = false := by
  obtain ⟨d, hd⟩ : ∃ d, d = CredDesc.of raw := ⟨_, rfl⟩
  rw [← hd] at w w' outS outD ⊢
  have source (i : Nat) : isHbm (d.src + i * d.pitch) = false := isHbm_up outS (Nat.le_add_right _ _)
  unfold credRun
  dsimp only
  rw [← hd, w'.bytes]
  refine ⟨?_, rfl, ?_⟩
  · rw [List.flatMap_map]
    refine congrArg (fun x => [(d.d, x)]) (List.flatMap_congr (fun j hj => ?_))
    have small := List.mem_range.mp hj
    rw [writeElem_bytes w']
    refine congrArg (fun l : List (BitVec 32 × Bool) => leBytes e (roundTo g (modeAt k (d.flags.testBit 1) g (d.d + j * e)) (f32val (chain32 none l).1)).bits) ?_
    have old : (if d.flags.testBit 0 then ms.rowElems d.outF d.d d.count else [])[j]?.toList.map (fun e => (f32bits e.v, false)) =
        (if d.flags.testBit 0 then [(ms.f32s g d.d d.count).getD j 0] else []).map (fun x => (x, false)) := by
      split
      · rw [ms.rowElems_get w' outD small, ms.f32s_getD w' d.d small]
        rfl
      · rfl
    have slots : ((List.range d.slots).map (fun i => ms.rowElems d.inF (d.src + i * d.pitch) d.count)).filterMap (fun l => l[j]?) =
        (List.range d.slots).map (fun i => elemRead f (ms.le (d.src + i * d.pitch + j * e') e')) := by
      rw [List.filterMap_map, ← List.filterMap_eq_map]
      exact List.filterMap_congr (fun i _ => ms.rowElems_get w (source i) small)
    rw [List.map_append, old, slots, credTerms, List.map_append, List.map_map, List.map_map]
    refine congrArg _ (List.map_congr_left (fun i _ => ?_))
    show (_, false) = ((ms.f32s f (d.src + i * d.pitch) d.count).getD j 0, false)
    rw [ms.f32s_getD w _ small]
  · show List.any _ _ = false
    rw [List.any_append, List.any_flatten, List.any_map, Bool.or_eq_false_iff]
    constructor
    · split
      · exact ms.rowElems_healthy w' outD _
      · rfl
    · rw [List.any_eq_false]
      intro i _
      exact Bool.eq_false_iff.mp (ms.rowElems_healthy w (source i) _)

omit w w' in
theorem credPlan_sram : ∀ x ∈ (credPlan raw).all, isHbm x.1 = false := by
  intro x hx
  simp only [credPlan, ReadPlan.all, plainRuns, List.map_map, List.mem_append, List.mem_ite_nil_right, List.mem_singleton, List.mem_flatten,
    exists_eq_left, List.mem_map, List.mem_range, Function.comp] at hx
  rcases hx with ⟨-, rfl⟩ | ⟨i, -, rfl⟩
  · exact outD
  · exact isHbm_up outS (Nat.le_add_right _ _)

end

/-- A CRED that completes. -/
theorem exec_cred {c : CoreId} {i desc : Nat} {s : State} {r : REntry} {f g : Elem} {e' e : Nat} (calm : s.Calm) (wf : s.ms.mem.wf 0 = true)
    (next : (s.core c).vec.mayComplete .vec i = some r) (op : r.q.op = some (.cred desc)) (w : Whole (CredDesc.of r.desc).inF f e')
    (w' : Whole (CredDesc.of r.desc).outF g e) (outS : isHbm (CredDesc.of r.desc).src = false) (outD : isHbm (CredDesc.of r.desc).d = false) :
    ∃ t, exec (.operationComplete c .vec i) s = .next t ∧ s.Finished t c .vec r.q false ∧ s.otherCores t c ∧
      s.storesOnly t [((CredDesc.of r.desc).d, (CredDesc.of r.desc).outBytes)] ∧
      ∀ j, j < (CredDesc.of r.desc).count →
        t.ms.le ((CredDesc.of r.desc).d + j * e) e = credBits s.ms r.q.kcg (CredDesc.of r.desc) f g e j := by
  obtain ⟨writes, healthy, good⟩ := credRun_sram (ms := s.ms) (k := r.q.kcg) w w' outS outD
  have size (j : Nat) (_ : j < (CredDesc.of r.desc).count) : (leBytes e (credBits s.ms r.q.kcg (CredDesc.of r.desc) f g e j)).length = e :=
    length_leBytes _ _
  have left : s.complete c .vec r = s.commit c .vec r.q 1 (s.readPlan c r) (credRun s.ms r.q.kcg r.desc) := by
    unfold State.complete
    dsimp only
    rw [op]
  have plan : s.readPlan c r = credPlan r.desc := by
    unfold State.readPlan
    rw [op]
  obtain ⟨still, done⟩ := (State.Ran.refl s c).committed (u := .vec) (q := r.q) (e := 1) (plan := s.readPlan c r)
    (res := credRun s.ms r.q.kcg r.desc) calm rfl (by rw [plan]; exact credPlan_sram outS outD)
    (by rw [writes]; exact fun x hx => (List.mem_singleton.mp hx) ▸ outD) healthy good
  rw [writes] at done
  rw [← left] at still done
  refine ⟨_, exec_operationComplete calm next still, done.finished, done.others, done.storesOnly wf (fun x hx => ?_), fun j hj => ?_⟩
  · rw [List.mem_singleton.mp hx]
    exact ⟨_, .head _, Nat.le_refl _, by rw [length_cells size, CredDesc.outBytes, w'.bytes]⟩
  · rw [done.le wf (v := credBits s.ms r.q.kcg (CredDesc.of r.desc) f g e j) (fun k hk => by
      rw [Nat.add_assoc, getElem?_storedAt_one, getElem?_cells size hj hk])]
    refine Nat.mod_eq_of_lt ?_
    have lt := roundTo_lt g (modeAt r.q.kcg ((CredDesc.of r.desc).flags.testBit 1) g ((CredDesc.of r.desc).d + j * e))
      (f32val (chain32 none ((credTerms s.ms (CredDesc.of r.desc) f g j).map (fun x => (x, false)))).1)
    rw [w'.bits, Nat.pow_mul] at lt
    exact lt

end Sys2Proof.Machine
end

section
/-! PROOFS. O18 VectorResults: CONV and CONV_SR (R110 to R112, R143). -/

namespace Sys2Proof.Machine

set_option Elab.async false -- in turn: many waiting threads need much memory

/-! ## Packed elements (R112) -/

/-- The number that elements of b bits make, the first one lowest. -/
def packed (b : Nat) (xs : List Nat) : Nat := (xs.zip (List.range xs.length)).foldl (fun a x => a + x.1 * 2 ^ (b * x.2)) 0

theorem packBits_packed (b : Nat) (xs : List Nat) : packBits b xs = leBytes (ceilDiv (xs.length * b) 8) (packed b xs) := rfl

theorem packed_concat (b : Nat) (xs : List Nat) (x : Nat) : packed b (xs ++ [x]) = packed b xs + x * 2 ^ (b * xs.length) := by
  unfold packed
  rw [List.length_append, List.length_singleton, List.range_succ, List.zip_append (by rw [List.length_range]), List.foldl_append]
  rfl

theorem packed_lt {b : Nat} {xs : List Nat} (small : ∀ x ∈ xs, x < 2 ^ b) : packed b xs < 2 ^ (b * xs.length) := by
  induction xs using List.reverseRecOn with
  | nil => exact Nat.two_pow_pos _
  | append_singleton xs x ih =>
    have before := ih (fun y hy => small y (List.mem_append_left _ hy))
    have top : (x + 1) * 2 ^ (b * xs.length) ≤ 2 ^ b * 2 ^ (b * xs.length) :=
      Nat.mul_le_mul_right _ (small x (List.mem_append_right _ (.head _)))
    rw [packed_concat, List.length_append, List.length_singleton, Nat.mul_succ, Nat.add_comm (b * _) b, Nat.pow_add]
    rw [Nat.succ_mul] at top
    omega

/-- Each element stands at its bits. -/
theorem packed_field {b : Nat} {xs : List Nat} (small : ∀ x ∈ xs, x < 2 ^ b) {j : Nat} (hj : j < xs.length) :
    packed b xs / 2 ^ (j * b) % 2 ^ b = xs[j] := by
  induction xs using List.reverseRecOn with
  | nil => exact absurd hj (Nat.not_lt_zero _)
  | append_singleton xs x ih =>
    have earlier : ∀ y ∈ xs, y < 2 ^ b := fun y hy => small y (List.mem_append_left _ hy)
    have pos := Nat.two_pow_pos (j * b)
    rw [packed_concat]
    by_cases last : j = xs.length
    · subst last
      have low := packed_lt earlier
      rw [List.getElem_concat_length rfl, Nat.mul_comm xs.length b] at *
      rw [Nat.add_mul_div_right _ _ pos, Nat.div_eq_of_lt low, Nat.zero_add]
      exact Nat.mod_eq_of_lt (small x (List.mem_append_right _ (.head _)))
    · have inside : j < xs.length := by
        rw [List.length_append, List.length_singleton] at hj
        omega
      obtain ⟨k, hk⟩ : ∃ k, xs.length = j + 1 + k := ⟨xs.length - (j + 1), by omega⟩
      have split : x * 2 ^ (b * xs.length) = 2 ^ (j * b) * (2 ^ b * (x * 2 ^ (b * k))) := by
        rw [hk, show b * (j + 1 + k) = j * b + (b + b * k) from by ring, Nat.pow_add, Nat.pow_add]
        ring
      rw [split, Nat.add_mul_div_left _ _ pos, Nat.add_mul_mod_self_left, List.getElem_append_left inside]
      exact ih earlier inside

/-! ## Writes that lie apart -/

theorem storedAt_alone {ws : List (Nat × List Byte)} {w : Nat × List Byte} {x : Nat} (hw : w ∈ ws) (cover : w.1 ≤ x ∧ x < w.1 + w.2.length)
    (alone : ∀ v ∈ ws, v.1 ≤ x ∧ x < v.1 + v.2.length → v = w) : storedAt ws x = w.2[x - w.1]? := by
  have here : x - w.1 < w.2.length := by omega
  rw [List.getElem?_eq_getElem here]
  refine storedAt_of_agree (fun v hv covers => ?_) ⟨w, hw, cover⟩
  rw [alone v hv covers, List.getElem?_eq_getElem here]

/-! ## What CONV reads (R110) -/

theorem MemSys.elemAt_healthy (ms : MemSys) (f : Elem) {a : Nat} (bit : Nat) (out : isHbm a = false) : (ms.elemAt f a bit).bad = false := by
  unfold MemSys.elemAt
  dsimp only
  rw [ms.badRange_sram _ (isHbm_up out (Nat.le_add_right _ _))]
  rfl

theorem MemSys.scale32_sram (ms : MemSys) {a : Nat} (out : isHbm a = false) :
    ms.scale32 a = ⟨.f32 (decodeScale32 (ms.word a)).1, (decodeScale32 (ms.word a)).2, false⟩ := by
  unfold MemSys.scale32
  rw [ms.badRange_sram _ out]
  rfl

theorem MemSys.scaleE8_healthy (ms : MemSys) {a : Nat} (out : isHbm a = false) : (ms.scaleE8 a).bad = false := by
  unfold MemSys.scaleE8
  rw [ms.badRange_sram _ out, if_neg Bool.false_ne_true]
  split <;> rfl

theorem MemSys.row_healthy (ms : MemSys) (code : BitVec 4) {a : Nat} (l m : Nat) (out : isHbm a = false) : (ms.row code a l m).anyBad = false := by
  have first : isHbm (a + hdrBytes code + m * rowPitch code l) = false := isHbm_up out (by omega)
  have elems : (ms.rowElems code (a + hdrBytes code + m * rowPitch code l) l).any RElem.bad = false := by
    unfold MemSys.rowElems
    split
    · rw [List.any_map, List.any_eq_false]
      exact fun j _ => Bool.eq_false_iff.mp (ms.elemAt_healthy _ _ first)
    · rfl
  have scales : (ms.rowScales code (a + hdrBytes code + m * rowPitch code l) l).any RScale.bad = false := by
    unfold MemSys.rowScales
    split
    · rfl
    · rw [List.any_map, List.any_eq_false]
      intro i _
      refine Bool.eq_false_iff.mp ?_
      show RScale.bad (if isMx code then _ else _) = false
      split
      · exact ms.scaleE8_healthy (isHbm_up first (by omega))
      · rw [ms.scale32_sram (isHbm_up first (by omega))]
  have tensor : ((if perTensor code then some (ms.scale32 a) else none).map RScale.bad).getD false = false := by
    split
    · rw [ms.scale32_sram out]
      rfl
    · rfl
  unfold RRow.anyBad MemSys.row
  dsimp only
  rw [elems, scales, tensor]
  rfl

theorem convPlan_sram {a scale n : Nat} {inF outF : BitVec 4} (outA : isHbm a = false) (outS : perTensor outF = true → isHbm scale = false) :
    ∀ x ∈ (convPlan a scale n inF outF).all, isHbm x.1 = false := by
  intro x hx
  simp only [convPlan, ReadPlan.all, List.mem_append, List.mem_ite_nil_right, List.mem_singleton, List.mem_flatten, exists_eq_left] at hx
  rcases hx with ⟨scaled, rfl⟩ | hx
  · exact outS scaled
  · obtain ⟨y, hy, rfl⟩ := List.mem_map.mp hx
    rcases List.mem_append.mp hy with hy | hy
    · have := (List.mem_ite_nil_right.mp hy).2
      rw [List.mem_singleton.mp this]
      exact outA
    · obtain ⟨m, -, rfl⟩ := List.mem_map.mp hy
      exact isHbm_up outA (by omega)

end Sys2Proof.Machine
end

section
/-! PROOFS. O18 VectorResults: what CONV writes (R113, R143). -/

namespace Sys2Proof.Machine

set_option Elab.async false -- in turn: many waiting threads need much memory

/-! ## The pieces of a converted row -/

/-- Block i of a row. -/
def convBlock (code : BitVec 4) (xs : List FVal) (i : Nat) : List FVal := (xs.drop (i * blockLen code)).take (blockLen code)

/-- Element j of a row under its scale, before its rounding. -/
def convValue (code : BitVec 4) (xs : List FVal) (ts : FVal) (j : Nat) : FVal :=
  if perTensor code then convQuot (xs.getD j .nan) ts
  else if code = 5 ∨ code = 6 then convQuot (xs.getD j .nan) (f32val (blockScale32 code (convBlock code xs (j / blockLen code))).1)
  else if isMx code then
    (xs.getD j .nan).div (.num false 1 1 (((blockScaleE8 code (convBlock code xs (j / blockLen code))).toNat : Int) - 127))
  else xs.getD j .nan

/-- Its bits. -/
def convBits (k : KcgSel) (sr : Bool) (code : BitVec 4) (g : Elem) (base : Nat) (xs : List FVal) (ts : FVal) (j : Nat) : Nat :=
  if isMx code = true ∧ blockScaleE8 code (convBlock code xs (j / blockLen code)) = 0xFF then 0
  else (roundTo g (if sr then srMode k.seed k.stream g (8 * base + j * g.bits) else .rne) (convValue code xs ts j)).bits

/-- Number of blocks of n elements. -/
def convBlocks (code : BitVec 4) (n : Nat) : Nat := if blockLen code = 0 then 0 else ceilDiv n (blockLen code)

/-- The bytes of their scales. -/
def convScales (code : BitVec 4) (xs : List FVal) : List Byte :=
  if isMx code then (List.range (convBlocks code xs.length)).map (fun i => blockScaleE8 code (convBlock code xs i))
  else (List.range (convBlocks code xs.length)).flatMap (fun i => leBytes 4 (blockScale32 code (convBlock code xs i)).1.toNat)

/-- What a converted row of n elements leaves, at offsets from D. -/
def convPieces (k : KcgSel) (sr : Bool) (code : BitVec 4) (g : Elem) (base : Nat) (xs : List FVal) (ts : BitVec 32 × FVal) : List (Nat × List Byte) :=
  (if perTensor code then [(0, leBytes 4 ts.1.toNat)] else []) ++
    [(hdrBytes code, leBytes (rowElemBytes code xs.length) (packed g.bits ((List.range xs.length).map (convBits k sr code g base xs ts.2))))] ++
    (if convBlocks code xs.length = 0 then [] else [(hdrBytes code + rowScaleOff code xs.length, convScales code xs)])

theorem code_kinds (code : BitVec 4) : (perTensor code = true → isMx code = false ∧ blockLen code = 0) ∧
    (isMx code = true → blockLen code = 32 ∧ ¬ (code = 5 ∨ code = 6)) ∧ ((code = 5 ∨ code = 6) → blockLen code = 128 ∧ isMx code = false) ∧
    (perTensor code = false → isMx code = false → ¬ (code = 5 ∨ code = 6) → blockLen code = 0) := by
  revert code
  decide

theorem map_zip_range {α β : Type} (xs : List α) (f : α × Nat → β) (d : α) :
    (xs.zip (List.range xs.length)).map f = (List.range xs.length).map (fun j => f (xs.getD j d, j)) := by
  refine List.ext_getElem (by simp) (fun j h h' => ?_)
  have inside : j < xs.length := by simpa using h'
  rw [List.getElem_map, List.getElem_map, List.getElem_zip, List.getElem_range, List.getD_eq_getElem _ _ inside]

theorem range_map_getD {α : Type} (n j : Nat) (f : Nat → α) (d : α) (hj : j < n) : ((List.range n).map f).getD j d = f j := by
  rw [List.getD_eq_getElem?_getD, List.getElem?_map, List.getElem?_range hj]
  rfl

theorem lt_ceilDiv {i n b : Nat} (pos : 0 < b) : i < ceilDiv n b ↔ i * b < n := by
  unfold ceilDiv
  rw [Nat.lt_div_iff_mul_lt pos]
  omega

theorem decodeE8M0_byte {x : Byte} (h : x ≠ 0xFF) : decodeE8M0 x = some ((x.toNat : Int) - 127) := if_neg h

section
variable {k : KcgSel} {sr : Bool} {code : BitVec 4} {g : Elem} {d : Nat} {xs : List FVal} {ts : BitVec 32 × FVal} (elem : elemOf code = some g)
include elem

theorem convRow_pieces : (convRow (if sr then some k else none) code d xs ts).1 = convPieces k sr code g (d + hdrBytes code) xs ts := by
  obtain ⟨kindT, kindX, kindB, kindP⟩ := code_kinds code
  unfold convRow
  rw [elem]
  dsimp only
  have width : codeBits code = g.bits := by
    unfold codeBits
    rw [elem]
    rfl
  rw [List.map_map, map_zip_range xs _ .nan, packBits_packed, List.length_map, List.length_range]
  unfold convPieces
  have size : ceilDiv (xs.length * g.bits) 8 = rowElemBytes code xs.length := by rw [rowElemBytes, width]
  rw [size]
  have blocks : (if blockLen code = 0 then 0 else ceilDiv xs.length (max (blockLen code) 1)) = convBlocks code xs.length := by
    unfold convBlocks
    split
    · rfl
    · rw [Nat.max_eq_left (by omega)]
  rw [blocks]
  have block (i : Nat) (some_ : convBlocks code xs.length ≠ 0) : (xs.drop (i * max (blockLen code) 1)).take (max (blockLen code) 1) = convBlock code xs i := by
    have pos : 1 ≤ blockLen code := by
      unfold convBlocks at some_
      split at some_
      · exact absurd rfl some_
      · omega
    rw [Nat.max_eq_left pos]
    rfl
  congr 2
  · refine congrArg (fun l => [(hdrBytes code, leBytes (rowElemBytes code xs.length) (packed g.bits l))]) (List.map_congr_left (fun j hj => ?_))
    have small := List.mem_range.mp hj
    have mine (pos : blockLen code ≠ 0) : j / max (blockLen code) 1 = j / blockLen code ∧ j / blockLen code < convBlocks code xs.length := by
      rw [Nat.max_eq_left (by omega), convBlocks, if_neg pos, lt_ceilDiv (by omega)]
      exact ⟨rfl, Nat.lt_of_le_of_lt (Nat.div_mul_le_self j _) small⟩
    simp only [Function.comp]
    unfold convBits convValue
    by_cases mx : isMx code = true
    · obtain ⟨len, plain⟩ := kindX mx
      have unscaled : perTensor code = false := Bool.eq_false_iff.mpr (fun h => Bool.false_ne_true ((kindT h).1.symm.trans mx))
      obtain ⟨same, inside⟩ := mine (by omega)
      have some_ : convBlocks code xs.length ≠ 0 := Nat.ne_of_gt (Nat.lt_of_le_of_lt (Nat.zero_le _) inside)
      simp only [block _ some_, same, range_map_getD _ _ _ _ inside, mx, unscaled, plain, Bool.true_and, beq_iff_eq, true_and, if_true, if_false,
        Bool.false_eq_true]
      split
      · rfl
      · next live =>
        rw [decodeE8M0_byte live]
        have nan (x y : FVal) : (if x.isNaN = true then FVal.nan else x.div y) = x.div y := by cases x <;> rfl
        dsimp only
        rw [nan]
        cases sr <;> rfl
    · have off : isMx code = false := Bool.eq_false_iff.mpr mx
      simp only [off, Bool.false_and, Bool.false_eq_true, false_and, if_false]
      by_cases tensor : perTensor code = true
      · simp only [tensor, if_true]
        cases sr <;> rfl
      · simp only [tensor]
        by_cases scaled : code = 5 ∨ code = 6
        · obtain ⟨len, -⟩ := kindB scaled
          obtain ⟨same, inside⟩ := mine (by omega)
          have some_ : convBlocks code xs.length ≠ 0 := Nat.ne_of_gt (Nat.lt_of_le_of_lt (Nat.zero_le _) inside)
          simp only [if_pos scaled, block _ some_, same, range_map_getD _ _ _ _ inside, if_neg (show blockLen code ≠ 0 by omega)]
          cases sr <;> rfl
        · simp only [if_neg scaled, if_pos (kindP (Bool.eq_false_iff.mpr tensor) off scaled)]
          cases sr <;> rfl
  · have block' (i : Nat) (hi : i ∈ List.range (convBlocks code xs.length)) :
        (xs.drop (i * max (blockLen code) 1)).take (max (blockLen code) 1) = convBlock code xs i :=
      block i (Nat.ne_of_gt (Nat.lt_of_le_of_lt (Nat.zero_le _) (List.mem_range.mp hi)))
    unfold convScales
    split
    · rw [List.map_congr_left (fun i hi => congrArg (blockScaleE8 code) (block' i hi))]
    · rw [List.flatMap_map]
      refine congrArg (fun l => [(hdrBytes code + rowScaleOff code xs.length, l)]) (List.flatMap_congr (fun i hi => ?_))
      rw [block' i hi]

end

end Sys2Proof.Machine
end

section
/-! PROOFS. O18 VectorResults: CONV that completes. -/

namespace Sys2Proof.Machine

set_option Elab.async false -- in turn: many waiting threads need much memory

/-! ## CONV completes -/

/-- The tensor scale that CONV writes and divides by. -/
def convTensor (ms : MemSys) (scale : Nat) : BitVec 32 × FVal :=
  if (decodeScale32 (ms.word scale)).1.isNaN then (0x3F800000, .nan) else (ms.word scale, (decodeScale32 (ms.word scale)).1)

theorem convTensor_value (ms : MemSys) (scale : Nat) : (convTensor ms scale).2 = (decodeScale32 (ms.word scale)).1 := by
  unfold convTensor
  cases h : (decodeScale32 (ms.word scale)).1 <;> rfl

theorem convTensor_word (ms : MemSys) (scale : Nat) :
    (convTensor ms scale).1 = if (decodeScale32 (ms.word scale)).1.isNaN then 0x3F800000 else ms.word scale := by
  unfold convTensor
  split <;> rfl

section
variable {k : KcgSel} {sr : Bool} {code : BitVec 4} {g : Elem} {base : Nat} {xs : List FVal} {ts : BitVec 32 × FVal}

theorem convPieces_unscaled (plain : perTensor code = false) (ts' : BitVec 32 × FVal) :
    convPieces k sr code g base xs ts = convPieces k sr code g base xs ts' := by
  unfold convPieces convBits convValue
  simp only [plain, Bool.false_eq_true, if_false]

theorem convPieces_cases {p : Nat × List Byte} (h : p ∈ convPieces k sr code g base xs ts) : (perTensor code = true ∧ p = (0, leBytes 4 ts.1.toNat)) ∨
    p = (hdrBytes code, leBytes (rowElemBytes code xs.length) (packed g.bits ((List.range xs.length).map (convBits k sr code g base xs ts.2)))) ∨
    (blockLen code ≠ 0 ∧ p = (hdrBytes code + rowScaleOff code xs.length, convScales code xs)) := by
  unfold convPieces at h
  rw [List.mem_append, List.mem_append] at h
  rcases h with (h | h) | h
  · have here := List.mem_ite_nil_right.mp h
    exact .inl ⟨here.1, List.mem_singleton.mp here.2⟩
  · exact .inr (.inl (List.mem_singleton.mp h))
  · obtain ⟨some_, h⟩ := List.mem_ite_nil_left.mp h
    refine .inr (.inr ⟨fun none_ => some_ ?_, List.mem_singleton.mp h⟩)
    rw [convBlocks, if_pos none_]

theorem length_convScales (blocks : blockLen code ≠ 0) : (convScales code xs).length = rowScaleBytes code xs.length := by
  unfold convScales rowScaleBytes convBlocks
  rw [if_neg blocks, if_neg blocks]
  split
  · rw [List.length_map, List.length_range, Nat.mul_one]
  · rw [length_cells (fun j _ => length_leBytes 4 _)]

theorem le_rowScaleOff (code : BitVec 4) (n : Nat) : rowElemBytes code n ≤ rowScaleOff code n := by
  unfold rowScaleOff roundUp ceilDiv
  split <;> omega

/-- The pieces lie in D, apart from each other. -/
theorem convPieces_apart {p q : Nat × List Byte} (hp : p ∈ convPieces k sr code g base xs ts) (hq : q ∈ convPieces k sr code g base xs ts) :
    p.1 + p.2.length ≤ matBytes code 1 xs.length ∧ (∀ x, p.1 ≤ x ∧ x < p.1 + p.2.length → q.1 ≤ x ∧ x < q.1 + q.2.length → q = p) := by
  obtain ⟨kindT, -, -, -⟩ := code_kinds code
  have off := le_rowScaleOff code xs.length
  have header (tensor : perTensor code = true) : hdrBytes code = 64 := if_pos tensor
  have whole (blocks : blockLen code ≠ 0) : matBytes code 1 xs.length = hdrBytes code + (rowScaleOff code xs.length + rowScaleBytes code xs.length) := by
    unfold matBytes rowBytes
    rw [if_neg blocks, Nat.sub_self, Nat.zero_mul, Nat.add_zero]
  have rows : hdrBytes code + rowElemBytes code xs.length ≤ matBytes code 1 xs.length := by
    unfold matBytes rowBytes
    split <;> omega
  constructor
  · rcases convPieces_cases hp with ⟨tensor, rfl⟩ | rfl | ⟨blocks, rfl⟩
    · rw [length_leBytes]
      have := header tensor
      omega
    · rw [length_leBytes]
      exact rows
    · rw [length_convScales blocks, whole blocks]
      omega
  · intro x
    rcases convPieces_cases hp with ⟨tensor, rfl⟩ | rfl | ⟨blocks, rfl⟩ <;> rcases convPieces_cases hq with ⟨tensor', rfl⟩ | rfl | ⟨blocks', rfl⟩
    all_goals simp only [length_leBytes]
    · exact fun _ _ => trivial
    · have := header tensor
      omega
    · exact absurd (kindT tensor).2 blocks'
    · have := header tensor'
      omega
    · exact fun _ _ => trivial
    · omega
    · exact absurd (kindT tensor').2 blocks
    · omega
    · exact fun _ _ => trivial

end

section
variable {ms : MemSys} {k : KcgSel} {sr : Bool} {a d scale n : Nat} {inF outF : BitVec 4} {g : Elem} (elem : elemOf outF = some g)
  (outA : isHbm a = false) (outS : perTensor outF = true → isHbm scale = false)
include elem outA outS

theorem convRun_sram : (convRun ms k sr a d scale n inF outF).writes =
      (convPieces k sr outF g (d + hdrBytes outF) ((List.range n).map ((ms.row inF a n 0).value inF)) (convTensor ms scale)).map (fun x => (d + x.1, x.2)) ∧
    (convRun ms k sr a d scale n inF outF).poison = [] ∧ (convRun ms k sr a d scale n inF outF).err = false := by
  unfold convRun
  dsimp only
  rw [convRow_pieces elem]
  refine ⟨congrArg (List.map _) ?_, rfl, ?_⟩
  · by_cases tensor : perTensor outF = true
    · refine congrArg (convPieces k sr outF g (d + hdrBytes outF) _) ?_
      rw [if_pos tensor, ms.scale32_sram (outS tensor)]
      unfold convTensor
      dsimp only
      cases h : (decodeScale32 (ms.word scale)).1 <;> rfl
    · exact convPieces_unscaled (Bool.eq_false_iff.mpr tensor) _
  · rw [ms.row_healthy inF n 0 outA, Bool.false_or]
    split
    · next tensor => rw [ms.scale32_sram (outS tensor)]
    · rfl

end

/-- A CONV that completes. -/
theorem exec_conv {c : CoreId} {i : Nat} {s : State} {r : REntry} {sr : Bool} {a d scale n : Nat} {inF outF : BitVec 4} {g : Elem} (calm : s.Calm)
    (wf : s.ms.mem.wf 0 = true) (next : (s.core c).vec.mayComplete .vec i = some r) (op : r.q.op = some (.conv sr a d scale n inF outF))
    (elem : elemOf outF = some g) (outA : isHbm a = false) (outS : perTensor outF = true → isHbm scale = false) (outD : isHbm d = false) :
    ∃ t, exec (.operationComplete c .vec i) s = .next t ∧ s.Finished t c .vec r.q false ∧ s.otherCores t c ∧
      s.storesOnly t [(d, matBytes outF 1 n)] ∧
      ∀ p ∈ convPieces r.q.kcg sr outF g (d + hdrBytes outF) ((List.range n).map ((s.ms.row inF a n 0).value inF)) (convTensor s.ms scale),
        t.ms.bytes (d + p.1) p.2.length = p.2 := by
  obtain ⟨writes, healthy, good⟩ := convRun_sram (ms := s.ms) (k := r.q.kcg) (sr := sr) (d := d) (n := n) (inF := inF) elem outA outS
  obtain ⟨xs, hxs⟩ : ∃ xs, xs = (List.range n).map ((s.ms.row inF a n 0).value inF) := ⟨_, rfl⟩
  have length : xs.length = n := by rw [hxs, List.length_map, List.length_range]
  rw [← hxs] at writes ⊢
  obtain ⟨ps, hps⟩ : ∃ ps, ps = convPieces r.q.kcg sr outF g (d + hdrBytes outF) xs (convTensor s.ms scale) := ⟨_, rfl⟩
  have apart {p q : Nat × List Byte} (hp : p ∈ ps) (hq : q ∈ ps) := convPieces_apart (hps ▸ hp) (hps ▸ hq)
  rw [← hps] at writes ⊢
  have left : s.complete c .vec r = s.commit c .vec r.q 1 (s.readPlan c r) (convRun s.ms r.q.kcg sr a d scale n inF outF) := by
    unfold State.complete
    dsimp only
    rw [op]
  have plan : s.readPlan c r = convPlan a scale n inF outF := by
    unfold State.readPlan
    rw [op]
  obtain ⟨still, done⟩ := (State.Ran.refl s c).committed (u := .vec) (q := r.q) (e := 1) (plan := s.readPlan c r)
    (res := convRun s.ms r.q.kcg sr a d scale n inF outF) calm rfl (by rw [plan]; exact convPlan_sram outA outS)
    (by
      rw [writes]
      intro w hw
      obtain ⟨p, -, rfl⟩ := List.mem_map.mp hw
      exact isHbm_up outD (Nat.le_add_right _ _)) healthy good
  rw [writes] at done
  rw [← left] at still done
  refine ⟨_, exec_operationComplete calm next still, done.finished, done.others, done.storesOnly wf (fun w hw => ?_), fun p hp => ?_⟩
  · obtain ⟨p, hp, rfl⟩ := List.mem_map.mp hw
    have fits := (apart hp hp).1
    rw [length] at fits
    exact ⟨_, .head _, Nat.le_add_right _ _, by dsimp only; omega⟩
  · refine done.bytes wf (fun i hi => ?_)
    rw [storedAt_alone (w := (d + p.1, p.2)) (List.mem_map.mpr ⟨p, hp, rfl⟩) ⟨by omega, by dsimp only; omega⟩ (fun v hv cover => ?_)]
    · rw [Nat.add_sub_cancel_left]
    · obtain ⟨q, hq, rfl⟩ := List.mem_map.mp hv
      dsimp only at cover
      have same := (apart hp hq).2 (p.1 + i) (by omega) (by omega)
      rw [same]

end Sys2Proof.Machine
end

section
/-! PROOFS. O18 VectorResults: the statement. -/

namespace Sys2Proof.Machine

set_option Elab.async false -- in turn: many waiting threads need much memory

/-! ## Parts of what bytes hold -/

theorem MemSys.byte_of_bytes {ms : MemSys} {a : Nat} {bs : List Byte} (h : ms.bytes a bs.length = bs) {i : Nat} (hi : i < bs.length) :
    ms.byte (a + i) = bs[i] := by
  have at_ := Mem.readN_getD ms.mem 0 0 a bs.length i hi
  rw [show ms.mem.readN 0 a bs.length = bs from h, List.getD_eq_getElem _ _ hi] at at_
  exact at_.symm

theorem MemSys.bytes_of_cells {ms : MemSys} {a e n : Nat} {cell : Nat → List Byte} (size : ∀ j, j < n → (cell j).length = e)
    (h : ms.bytes a ((List.range n).flatMap cell).length = (List.range n).flatMap cell) {j : Nat} (hj : j < n) : ms.bytes (a + j * e) e = cell j := by
  have len := size j hj
  have whole : ms.bytes (a + j * e) (cell j).length = cell j := by
    refine Mem.readN_eq_of_getD (fun i hi => ?_)
    have at_ := getElem?_cells size hj (len ▸ hi)
    have inside : j * e + i < ((List.range n).flatMap cell).length := by
      rw [List.getElem?_eq_getElem hi] at at_
      exact (List.getElem?_eq_some_iff.mp at_).1
    rw [List.getD_eq_getElem _ _ hi, Nat.add_assoc]
    refine (MemSys.byte_of_bytes h inside).trans ?_
    rw [List.getElem?_eq_getElem inside, List.getElem?_eq_getElem hi] at at_
    exact Option.some.inj at_
  rw [len] at whole
  exact whole

theorem MemSys.word_of_bytes {ms : MemSys} {a : Nat} {x : BitVec 32} (h : ms.bytes a 4 = leBytes 4 x.toNat) : ms.word a = x := by
  have le : ms.le a 4 = x.toNat % 256 ^ 4 := (congrArg leNat h).trans (leNat_leBytes 4 x.toNat)
  rw [MemSys.word, le, Nat.mod_eq_of_lt (show x.toNat < 256 ^ 4 from x.isLt), BitVec.ofNat_toNat, BitVec.setWidth_eq]

/-! ## Formats and reductions -/

/-- A format of the table of R139. -/
theorem whole_of_unscaled {code : BitVec 4} {f : Elem} (h : (code = 0 ∧ f = .bf16) ∨ (code = 1 ∧ f = .fp16) ∨ (code = 2 ∧ f = .fp32)) :
    Whole code f (elemBytes code) := by
  rcases h with ⟨rfl, rfl⟩ | ⟨rfl, rfl⟩ | ⟨rfl, rfl⟩
  · exact whole_bf16
  · exact whole_fp16
  · exact whole_fp32

/-- The number of a reduction's elements. -/
theorem vecReduce_values (ms : MemSys) (f : Elem) (a n : Nat) :
    let as_ := (ms.codes f a n).map (elemRead f)
    let xs := ms.values f a n
    (vecReduce 0x30 as_).1 = (sum141 (xs.map f32bits)).1 ∧ (vecReduce 0x31 as_).1 = (sumsq141 (xs.map f32bits)).1 ∧
    (vecReduce 0x32 as_).1 = f32bits (xs.tail.foldl FVal.max (xs.headD .nan)) ∧
    (vecReduce 0x33 as_).1 = f32bits ((xs.map FVal.abs).tail.foldl FVal.max ((xs.map FVal.abs).headD .nan)) := by
  intro as_ xs
  have values : as_.map RElem.v = xs := List.map_map
  have bits : as_.map (fun e => f32bits e.v) = xs.map f32bits :=
    values ▸ (List.map_map (g := f32bits) (f := RElem.v) (l := as_)).symm
  have abs : as_.map (fun e => e.v.abs) = xs.map FVal.abs :=
    values ▸ (List.map_map (g := FVal.abs) (f := RElem.v) (l := as_)).symm
  unfold vecReduce
  dsimp only
  rw [bits, abs, values]
  exact ⟨rfl, rfl, rfl, rfl⟩

section
variable {k : KcgSel} {sr : Bool} {code : BitVec 4} {g : Elem} {base : Nat} {xs : List FVal} {ts : BitVec 32 × FVal}

theorem mem_convPieces_elements : (hdrBytes code, leBytes (rowElemBytes code xs.length) (packed g.bits ((List.range xs.length).map
    (convBits k sr code g base xs ts.2)))) ∈ convPieces k sr code g base xs ts :=
  List.mem_append_left _ (List.mem_append_right _ (.head _))

theorem mem_convPieces_tensor (tensor : perTensor code = true) : (0, leBytes 4 ts.1.toNat) ∈ convPieces k sr code g base xs ts := by
  unfold convPieces
  rw [if_pos tensor]
  exact .head _

theorem mem_convPieces_scales (some_ : convBlocks code xs.length ≠ 0) :
    (hdrBytes code + rowScaleOff code xs.length, convScales code xs) ∈ convPieces k sr code g base xs ts := by
  unfold convPieces
  rw [if_neg some_]
  exact List.mem_append_right _ (.head _)

/-- An element stands at its bits of the row. -/
theorem convBits_field (elem : elemOf code = some g) {j : Nat} (hj : j < xs.length) :
    leNat (leBytes (rowElemBytes code xs.length) (packed g.bits ((List.range xs.length).map (convBits k sr code g base xs ts.2)))) /
      2 ^ (j * g.bits) % 2 ^ g.bits = convBits k sr code g base xs ts.2 j := by
  have small : ∀ x ∈ (List.range xs.length).map (convBits k sr code g base xs ts.2), x < 2 ^ g.bits := by
    intro x hx
    obtain ⟨i, -, rfl⟩ := List.mem_map.mp hx
    unfold convBits
    split
    · exact Nat.two_pow_pos _
    · exact roundTo_lt _ _ _
  have width : codeBits code = g.bits := by
    unfold codeBits
    rw [elem]
    rfl
  have fits := packed_lt small
  rw [List.length_map, List.length_range] at fits
  have room : 2 ^ (g.bits * xs.length) ≤ 256 ^ rowElemBytes code xs.length := by
    rw [show (256 : Nat) = 2 ^ 8 from rfl, ← Nat.pow_mul]
    refine Nat.pow_le_pow_right (by decide) ?_
    unfold rowElemBytes ceilDiv
    rw [width, Nat.mul_comm g.bits]
    omega
  rw [leNat_leBytes, Nat.mod_eq_of_lt (Nat.lt_of_lt_of_le fits room), packed_field small (by rw [List.length_map, List.length_range]; exact hj),
    List.getElem_map, List.getElem_range]

end

/-- Settles O18: every result is the sum, quotient or copy that its table names, rounded once, at its element's place. -/
theorem vectorResults : Obligations.VectorResults := by
  intro c i s r calm wf next unscaled clean
  refine ⟨?_, ?_, ?_⟩
  · intro o a b d n fmt sr f op fmts e inA inB
    have w : Whole fmt f e := whole_of_unscaled fmts
    refine ⟨fun listed inD => ?_, fun listed inD => ?_, fun rand inD => exec_vecRand calm wf next op w rand (inSram_sram inD)⟩
    · have plain : o.toNat ≠ 0x40 ∧ vecReduces o.toNat = false ∧ vecReadsA o.toNat = true := by
        revert listed
        generalize o.toNat = k
        intro listed
        simp only [List.mem_cons, List.not_mem_nil, or_false] at listed
        rcases listed with rfl | rfl | rfl | rfl | rfl | rfl | rfl | rfl | rfl | rfl | rfl | rfl | rfl | rfl | rfl | rfl | rfl | rfl | rfl | rfl |
          rfl | rfl | rfl | rfl | rfl <;> decide
      obtain ⟨t, run, fin, others, only, cells⟩ := exec_vecElementwise calm wf next op w plain.1 plain.2.1 (inSram_sram (inA plain.2.2))
        (fun reads => inSram_sram (inB reads)) (inSram_sram inD)
      refine ⟨t, run, fin, others, only, fun j hj => ?_⟩
      have cell := cells j hj
      revert cell listed
      generalize o.toNat = k
      intro listed cell x y z v
      have at_ {v' : FVal} (made : (vecValue s.ms f k a b d n j).1 = v') : t.ms.le (d + j * e) e = (roundTo f (modeAt r.q.kcg sr f (d + j * e)) v').bits :=
        made ▸ cell
      simp only [List.mem_cons, List.not_mem_nil, or_false] at listed
      rcases listed with rfl | rfl | rfl | rfl | rfl | rfl | rfl | rfl | rfl | rfl | rfl | rfl | rfl | rfl | rfl | rfl | rfl | listed
      · exact at_ (vecElem_add _ _).1
      · exact at_ (vecElem_sub _ _)
      · exact at_ (vecElem_mul _ _).1
      · exact at_ (vecElem_fma _ _ _).1
      · exact at_ (vecElem_div _ _)
      · exact at_ (vecElem_max _ _).1
      · exact at_ (vecElem_min _ _).1
      · exact at_ (vecElem_one _).1
      · exact at_ (vecElem_one _).2.1
      · exact at_ (vecElem_one _).2.2.1
      · exact at_ (vecElem_one _).2.2.2
      · exact at_ rfl
      · exact at_ (vecElem_add _ _).2
      · exact at_ (vecElem_mul _ _).2
      · exact at_ (vecElem_max _ _).2
      · exact at_ (vecElem_min _ _).2
      · exact at_ (vecElem_fma _ _ _).2
      · rcases listed with rfl | rfl | rfl | rfl | rfl | rfl | rfl | rfl <;> exact at_ rfl
    · have listed' : o = 0x30 ∨ o = 0x31 ∨ o = 0x32 ∨ o = 0x33 := by
        simp only [List.mem_cons, List.not_mem_nil, or_false] at listed
        bv_omega
      have readsA : vecReadsA o.toNat = true := by rcases listed' with rfl | rfl | rfl | rfl <;> rfl
      obtain ⟨t, run, fin, others, only, word⟩ := exec_vecReduce calm wf next op w listed' (inSram_sram (inA readsA)) (inSram_sram inD)
      obtain ⟨sum, sumsq, max, amax⟩ := vecReduce_values s.ms f a n
      refine ⟨t, run, fin, others, only, fun h => ?_, fun h => ?_, fun h => ?_, fun h => ?_⟩
      all_goals
        subst h
      · exact word.trans (congrArg (fun x => f32bits (f32val x)) sum)
      · exact word.trans (congrArg (fun x => f32bits (f32val x)) sumsq)
      · exact (word.trans (congrArg (fun x => f32bits (f32val x)) max)).trans (f32bits_again _)
      · exact (word.trans (congrArg (fun x => f32bits (f32val x)) amax)).trans (f32bits_again _)
  · intro desc f g op d e fmts fmts' _ inS inD
    obtain ⟨t, run, fin, others, only, cells⟩ := exec_cred calm wf next op (whole_of_unscaled fmts) (whole_of_unscaled fmts') (inSram_sram inS) (inSram_sram inD)
    exact ⟨t, run, fin, others, only, cells⟩
  · intro sr a d scale n inF outF g op elem _ pos inA inD inS xs base blk ts
    obtain ⟨t, run, fin, others, only, pieces⟩ := exec_conv calm wf next op elem (inSram_sram inA) (fun h => inSram_sram (inS h)) (inSram_sram inD)
    have length : xs.length = n := by
      show ((List.range n).map _).length = n
      rw [List.length_map, List.length_range]
    obtain ⟨ps, hps⟩ : ∃ ps, ps = convPieces r.q.kcg sr outF g base xs (convTensor s.ms scale) := ⟨_, rfl⟩
    have piece : ∀ p ∈ ps, t.ms.bytes (d + p.1) p.2.length = p.2 := by
      rw [hps]
      exact pieces
    refine ⟨t, run, fin, others, only, fun tensor => ?_, fun k inside => ⟨fun scaled => ?_, fun mx => ?_⟩, fun j hj => ?_⟩
    · rw [← convTensor_word]
      have header := piece _ (hps ▸ mem_convPieces_tensor tensor)
      rw [length_leBytes] at header
      exact MemSys.word_of_bytes header
    · obtain ⟨len, off⟩ := (code_kinds outF).2.2.1 scaled
      have index : k < convBlocks outF xs.length := by
        rw [convBlocks, if_neg (by omega), lt_ceilDiv (by omega), length]
        exact inside
      have scales := piece _ (hps ▸ mem_convPieces_scales (Nat.ne_of_gt (Nat.lt_of_le_of_lt (Nat.zero_le _) index)))
      rw [convScales, if_neg (Bool.eq_false_iff.mp off)] at scales
      have cell := MemSys.bytes_of_cells (fun j _ => length_leBytes 4 _) scales index
      rw [length] at cell
      refine MemSys.word_of_bytes (Eq.trans ?_ cell)
      exact congrArg (fun p => t.ms.bytes p 4) (by show d + hdrBytes outF + _ + _ = _; omega)
    · obtain ⟨len, -⟩ := (code_kinds outF).2.1 mx
      have index : k < convBlocks outF xs.length := by
        rw [convBlocks, if_neg (by omega), lt_ceilDiv (by omega), length]
        exact inside
      have scales := piece _ (hps ▸ mem_convPieces_scales (Nat.ne_of_gt (Nat.lt_of_le_of_lt (Nat.zero_le _) index)))
      rw [convScales, if_pos mx] at scales
      have byte := MemSys.byte_of_bytes (i := k) scales (by rw [List.length_map, List.length_range]; exact index)
      rw [List.getElem_map, List.getElem_range, length] at byte
      refine Eq.trans ?_ byte
      exact congrArg t.ms.byte (by show d + hdrBytes outF + _ + _ = _; omega)
    · intro x e8 v mode
      have row := congrArg leNat (piece _ (hps ▸ mem_convPieces_elements))
      rw [length_leBytes] at row
      have field := convBits_field (k := r.q.kcg) (sr := sr) (base := base) (ts := convTensor s.ms scale) elem (xs := xs) (length ▸ hj)
      rw [← row, length, convBits, convValue, convTensor_value] at field
      exact field

end Sys2Proof.Machine
end

section
/-! PROOFS. Dots: chains of K-blocks, and a block of one product (R115 to R118). -/

namespace Sys2Proof.Machine

set_option Elab.async false -- in turn: many waiting threads need much memory

/-! ## Rounding does not see how a value is written -/

theorem log2_mul_pow {m : Nat} (pos : m ≠ 0) (k : Nat) : (m * 2 ^ k).log2 = m.log2 + k := by
  refine (Nat.log2_eq_iff (Nat.mul_ne_zero pos (Nat.ne_of_gt (Nat.two_pow_pos k)))).mpr ⟨?_, ?_⟩
  · rw [Nat.pow_add]
    exact Nat.mul_le_mul_right _ (Nat.log2_self_le pos)
  · rw [show m.log2 + k + 1 = m.log2 + 1 + k from by omega, Nat.pow_add]
    exact Nat.mul_lt_mul_of_pos_right Nat.lt_log2_self (Nat.two_pow_pos k)

/-- Numerator and denominator at the exponent u, of m·2^e written with k more bits. -/
theorem scaled_ratio (m k : Nat) (e u : Int) : ∃ c, 0 < c ∧ m * 2 ^ k * 2 ^ (e - k - u).toNat = m * 2 ^ (e - u).toNat * c ∧
    1 * 2 ^ (u - (e - k)).toNat = 1 * 2 ^ (u - e).toNat * c := by
  by_cases high : (k : Int) ≤ e - u
  · refine ⟨1, Nat.one_pos, ?_, ?_⟩
    · rw [Nat.mul_one, Nat.mul_assoc, ← Nat.pow_add]
      exact congrArg (fun x => m * 2 ^ x) (by omega)
    · rw [Nat.mul_one]
      exact congrArg (fun x => 1 * 2 ^ x) (by omega)
  · by_cases mid : 0 ≤ e - u
    · refine ⟨2 ^ (k - (e - u).toNat), Nat.two_pow_pos _, ?_, ?_⟩
      · rw [Nat.mul_assoc, Nat.mul_assoc, ← Nat.pow_add, ← Nat.pow_add]
        exact congrArg (fun x => m * 2 ^ x) (by omega)
      · rw [Nat.mul_assoc, ← Nat.pow_add]
        exact congrArg (fun x => 1 * 2 ^ x) (by omega)
    · refine ⟨2 ^ k, Nat.two_pow_pos _, ?_, ?_⟩
      · rw [Nat.mul_assoc, Nat.mul_assoc, ← Nat.pow_add, ← Nat.pow_add]
        exact congrArg (fun x => m * 2 ^ x) (by omega)
      · rw [Nat.mul_assoc, ← Nat.pow_add]
        exact congrArg (fun x => 1 * 2 ^ x) (by omega)

theorem roundTo_scaled (neg : Bool) (m k : Nat) (e : Int) : roundTo .fp32 .rne (.num neg (m * 2 ^ k) 1 (e - k)) = roundTo .fp32 .rne (.num neg m 1 e) := by
  by_cases zero : m = 0
  · subst zero
    rw [Nat.zero_mul]
    unfold roundTo
    dsimp only
    rw [if_pos rfl, if_pos rfl]
  have pos : m * 2 ^ k ≠ 0 := Nat.mul_ne_zero zero (Nat.ne_of_gt (Nat.two_pow_pos k))
  unfold roundTo
  dsimp only
  rw [if_neg zero, if_neg pos, log2Ratio_one _ pos, log2Ratio_one _ zero, log2_mul_pow zero]
  have same : ((m.log2 + k : Nat) : Int) + (e - k) = (m.log2 : Int) + e := by omega
  rw [same]
  obtain ⟨u, hu⟩ : ∃ u, u = max ((m.log2 : Int) + e) Elem.fp32.emin - Elem.fp32.fb := ⟨_, rfl⟩
  rw [← hu]
  obtain ⟨c, cpos, num, den⟩ := scaled_ratio m k e u
  rw [num, den, Nat.mul_div_mul_right _ _ cpos, Nat.mul_mod_mul_right]
  obtain ⟨r, hr⟩ : ∃ r, r = m * 2 ^ (e - u).toNat % (1 * 2 ^ (u - e).toNat) := ⟨_, rfl⟩
  obtain ⟨d, hd⟩ : ∃ d, d = 1 * 2 ^ (u - e).toNat := ⟨_, rfl⟩
  rw [← hr, ← hd]
  have more : (2 * (r * c) > d * c) ↔ (2 * r > d) := by
    rw [← Nat.mul_assoc]
    exact Nat.mul_lt_mul_right cpos
  have half : (2 * (r * c) = d * c) ↔ (2 * r = d) := by
    rw [← Nat.mul_assoc]
    exact Nat.mul_left_inj (Nat.ne_of_gt cpos)
  simp only [more, half]

/-! ## A block of one product -/

/-- One product is summed without loss. -/
theorem groupSum_one {neg : Bool} {m : Nat} {e : Int} (pos : m ≠ 0) (small : m.log2 ≤ 63) :
    groupSum [(neg, m, e)] = ((if neg then -((m * 2 ^ (63 - m.log2) : Nat) : Int) else ((m * 2 ^ (63 - m.log2) : Nat) : Int)), e - ((63 - m.log2 : Nat) : Int)) := by
  unfold groupSum
  have keep : [(neg, m, e)].filter (fun p => p.2.1 != 0) = [(neg, m, e)] := by
    rw [List.filter_cons_of_pos (by exact bne_iff_ne.mpr pos)]
    rfl
  rw [keep]
  dsimp only [List.foldl_cons, List.foldl_nil]
  have room : e - ((m.log2 : Int) + e - 63) ≥ 0 := by omega
  have shift : (e - ((m.log2 : Int) + e - 63)).toNat = 63 - m.log2 := by omega
  have low : (m.log2 : Int) + e - 63 = e - ((63 - m.log2 : Nat) : Int) := by omega
  simp only [max_self, if_pos room, Int.zero_add, shift]
  rw [low]

theorem kBlock_one {a b : FVal} {m n : Nat} {s t : Bool} {e f : Int} (ha : a = .num s m 1 e) (hb : b = .num t n 1 f) (nonzero : m * n ≠ 0)
    (small : (m * n).log2 ≤ 63) : kBlock [prodOf a b] [] (some 0) (some 0) .one = rne32 (a.mul b) := by
  subst ha hb
  have prod : prodOf (.num s m 1 e) (.num t n 1 f) = some (s != t, m * n, e + f) := rfl
  obtain ⟨k, hk⟩ : ∃ k, k = 63 - (m * n).log2 := ⟨_, rfl⟩
  obtain ⟨M, hM⟩ : ∃ M, M = m * n * 2 ^ k := ⟨_, rfl⟩
  have live : M ≠ 0 := hM ▸ Nat.mul_ne_zero nonzero (Nat.ne_of_gt (Nat.two_pow_pos k))
  have sum : groupSum [(s != t, m * n, e + f)] = ((if (s != t) then -(M : Int) else (M : Int)), e + f - (k : Int)) := by
    rw [groupSum_one nonzero small, ← hk, ← hM]
  have value : FVal.num (decide ((if (s != t) then -(M : Int) else (M : Int)) < 0)) (if (s != t) then -(M : Int) else (M : Int)).natAbs 1 (e + f - (k : Int) + 0) =
      .num (s != t) M 1 (e + f - k) := by
    cases s != t
    · rw [if_neg Bool.false_ne_true, decide_eq_false (by omega), Int.natAbs_natCast, Int.add_zero]
    · rw [if_pos rfl, decide_eq_true (by omega), Int.natAbs_neg, Int.natAbs_natCast, Int.add_zero]
  rw [prod]
  unfold kBlock FVal.one
  dsimp only
  rw [if_neg (by simp), if_pos rfl]
  have kept : ([some (s != t, m * n, e + f)].filterMap id ++ ([] : List Prod).filterMap id) = [(s != t, m * n, e + f)] := rfl
  rw [kept, sum]
  dsimp only
  rw [value, if_neg (by simp [FVal.isZero, live])]
  show rne32 (.num ((s != t) != false) (M * 1) (1 * 1) (e + f - k + 0)) = rne32 (.num (s != t) (m * n) (1 * 1) (e + f))
  rw [Bool.bne_false, Nat.mul_one, Nat.mul_one, Int.add_zero, hM]
  unfold rne32
  rw [roundTo_scaled]

/-! ## Chains -/

/-- A pattern that rounds to itself. -/
def Settled (x : BitVec 32) : Prop := f32bits (f32val x) = x

theorem rne32_settled (v : FVal) : Settled (rne32 v).1 := f32bits_again v

theorem settled_ite {p : Prop} [Decidable p] {a b : BitVec 32 × Bool} (ha : Settled a.1) (hb : Settled b.1) : Settled (if p then a else b).1 := by
  split
  · exact ha
  · exact hb

theorem settled_zero : Settled 0 := by
  unfold Settled
  decide

theorem kBlock_settled (h0 h1 : List Prod) (e0 e1 : Option Int) (st : FVal) : Settled (kBlock h0 h1 e0 e1 st).1 := by
  unfold kBlock
  dsimp only
  split
  · exact settled_ite f32bits_nan (settled_ite settled_zero (rne32_settled _))
  · exact f32bits_nan

theorem chain32_fold_settled {vs : List (BitVec 32 × Bool)} {a : BitVec 32 × Bool} (first : Settled a.1 ∨ vs ≠ []) :
    Settled (vs.foldl (fun a v => ((add32 a.1 v.1).1, a.2 || v.2 || (add32 a.1 v.1).2)) a).1 := by
  induction vs generalizing a with
  | nil =>
    rcases first with h | h
    · exact h
    · exact absurd rfl h
  | cons v vs ih => exact ih (.inl (rne32_settled _))

/-- A chain over blocks ends in a pattern that rounds to itself. -/
theorem chain32_settled (start : Option (BitVec 32)) {vs : List (BitVec 32 × Bool)} (some_ : vs ≠ []) (blocks : ∀ v ∈ vs, Settled v.1) :
    Settled (chain32 start vs).1 := by
  cases vs with
  | nil => exact absurd rfl some_
  | cons v vs =>
    cases start with
    | none => exact chain32_fold_settled (.inl (blocks v (.head _)))
    | some x => exact chain32_fold_settled (.inr (List.cons_ne_nil _ _))

end Sys2Proof.Machine
end

section
/-! PROOFS. O14 MatrixResults: the streams of MM and DUAL (R87, R88, R114 to R119). -/

namespace Sys2Proof.Machine

set_option Elab.async false -- in turn: many waiting threads need much memory

/-! ## Output rows -/

/-- Element o of output row m before its rounding. -/
def streamChain (ms : MemSys) (p : OxPlane) (x : Stream) (m o : Nat) : BitVec 32 × Bool :=
  chain32 (if x.acc then some (ms.accRead (x.out + m * rowPitch x.outFmt (x.lens p.k p.n).2 + o * elemBytes x.outFmt)).1 else none)
    ((List.range (ceilDiv (x.lens p.k p.n).1 64)).map
      (streamBlock p x.dir x.inFmt (ms.row x.inFmt x.inp (x.lens p.k p.n).1 m) (x.lens p.k p.n).1 o))

/-- Its bytes. -/
def streamCell (ms : MemSys) (p : OxPlane) (k : KcgSel) (x : Stream) (m o : Nat) : List Byte :=
  (writeElem x.outFmt (if x.sr then some k else none) (x.out + m * rowPitch x.outFmt (x.lens p.k p.n).2 + o * elemBytes x.outFmt)
    (f32val (streamChain ms p x m o).1) (streamChain ms p x m o).2).1

theorem length_writeElem (code : BitVec 4) (k : Option KcgSel) (a : Nat) (v : FVal) (mid : Bool) : (writeElem code k a v mid).1.length = elemBytes code := by
  unfold writeElem elemBytes codeBits
  cases elemOf code with
  | none => rfl
  | some f => exact length_leBytes _ _

section
variable (ms : MemSys) (p : OxPlane) (k : KcgSel) (x : Stream) (m : Nat)

theorem streamRow_bytes : (streamRow ms p k x m).1 = (List.range (x.lens p.k p.n).2).flatMap (streamCell ms p k x m) := by
  unfold streamRow
  dsimp only
  rw [List.flatMap_map]
  refine List.flatMap_congr (fun o _ => ?_)
  unfold streamCell streamChain
  cases x.acc <;> rfl

theorem length_streamRow : (streamRow ms p k x m).1.length = (x.lens p.k p.n).2 * elemBytes x.outFmt := by
  rw [streamRow_bytes]
  exact length_cells (fun o _ => length_writeElem _ _ _ _ _)

theorem streamRow_healthy (outI : isHbm x.inp = false) (outO : isHbm x.out = false) : (streamRow ms p k x m).2.2 = false := by
  unfold streamRow
  dsimp only
  rw [ms.row_healthy _ _ _ outI, Bool.false_or, List.any_map, List.any_eq_false]
  intro o _
  refine Bool.eq_false_iff.mp ?_
  show (if x.acc then (_, _, (ms.accRead _).2.2) else (_, _, false) : Option (BitVec 32) × NumEv × Bool).2.2 = false
  split
  · exact ms.elemAt_healthy _ _ (isHbm_up outO (by omega))
  · rfl

end

/-- The writes of a stream: its rows, at their pitch. -/
def streamWrites (ms : MemSys) (p : OxPlane) (k : KcgSel) (x : Stream) : List (Nat × List Byte) :=
  (List.range x.rows).map (fun m => (x.out + m * rowPitch x.outFmt (x.lens p.k p.n).2, (streamRow ms p k x m).1))

theorem zip_range_map {α β : Type} (n : Nat) (f : Nat → α) (g : Nat × α → β) :
    ((List.range n).zip ((List.range n).map f)).map g = (List.range n).map (fun m => g (m, f m)) := by
  refine List.ext_getElem (by simp) (fun j h h' => ?_)
  rw [List.getElem_map, List.getElem_map, List.getElem_zip, List.getElem_range, List.getElem_map, List.getElem_range]

section
variable {ms : MemSys} {p : OxPlane} {k : KcgSel} {x : Stream} {c : Nat} (inside : x.inCore c p)

theorem streamRun_writes : (streamRun ms p k x).writes = streamWrites ms p k x ∧ (streamRun ms p k x).poison = [] := by
  unfold streamRun streamWrites
  dsimp only
  rw [zip_range_map]
  exact ⟨rfl, rfl⟩

include inside

theorem streamRun_healthy : (streamRun ms p k x).err = false := by
  unfold streamRun
  dsimp only
  rw [List.any_map, List.any_eq_false]
  intro m hm
  have some_ := List.mem_range.mp hm
  rcases inside with none_ | ⟨inp, out⟩
  · omega
  · exact Bool.eq_false_iff.mp (streamRow_healthy ms p k x m (inSram_sram inp) (inSram_sram out))

theorem streamWrites_sram : ∀ w ∈ streamWrites ms p k x, isHbm w.1 = false := by
  intro w hw
  obtain ⟨m, hm, rfl⟩ := List.mem_map.mp hw
  have some_ := List.mem_range.mp hm
  rcases inside with none_ | ⟨-, out⟩
  · omega
  · exact isHbm_up (inSram_sram out) (Nat.le_add_right _ _)

theorem streamPlan_sram : ∀ r ∈ (x.plan p).all, isHbm r.1 = false := by
  intro r hr
  unfold Stream.plan at hr
  rcases inside with none_ | ⟨inp, out⟩
  · rw [if_pos none_] at hr
    exact nomatch hr
  · split at hr
    · exact nomatch hr
    · rcases List.mem_append.mp hr with hr | hr
      · obtain ⟨-, hr⟩ := List.mem_ite_nil_right.mp hr
        obtain ⟨y, hy, rfl⟩ := List.mem_map.mp hr
        obtain ⟨m, -, rfl⟩ := List.mem_map.mp hy
        exact isHbm_up (inSram_sram out) (Nat.le_add_right _ _)
      · rw [List.flatten_singleton] at hr
        obtain ⟨y, hy, rfl⟩ := List.mem_map.mp hr
        rcases List.mem_append.mp hy with hy | hy
        · rw [List.mem_singleton.mp (List.mem_ite_nil_right.mp hy).2]
          exact inSram_sram inp
        · obtain ⟨m, -, rfl⟩ := List.mem_map.mp hy
          exact isHbm_up (inSram_sram inp) (by omega)

end

/-- The rows of a stream lie apart. -/
theorem streamRows_apart (x : Stream) (n : Nat) {m m' a : Nat} (h : x.out + m * rowPitch x.outFmt n ≤ a ∧ a < x.out + m * rowPitch x.outFmt n + n * elemBytes x.outFmt)
    (h' : x.out + m' * rowPitch x.outFmt n ≤ a ∧ a < x.out + m' * rowPitch x.outFmt n + n * elemBytes x.outFmt) : m' = m := by
  have pitch : n * elemBytes x.outFmt ≤ rowPitch x.outFmt n := by
    have elems : n * elemBytes x.outFmt ≤ rowElemBytes x.outFmt n := by
      unfold rowElemBytes elemBytes ceilDiv
      have := Nat.mul_le_mul_left n (Nat.div_mul_le_self (codeBits x.outFmt) 8)
      rw [← Nat.mul_assoc] at this
      omega
    have off := le_rowScaleOff x.outFmt n
    have bytes : rowElemBytes x.outFmt n ≤ rowBytes x.outFmt n := by
      unfold rowBytes
      split <;> omega
    have up : rowBytes x.outFmt n ≤ rowPitch x.outFmt n := by
      unfold rowPitch roundUp ceilDiv
      omega
    omega
  rcases Nat.lt_trichotomy m m' with less | rfl | more
  · have step := Nat.mul_le_mul_right (rowPitch x.outFmt n) (show m + 1 ≤ m' from less)
    rw [Nat.succ_mul] at step
    omega
  · rfl
  · have step := Nat.mul_le_mul_right (rowPitch x.outFmt n) (show m' + 1 ≤ m from more)
    rw [Nat.succ_mul] at step
    omega

/-- Each row of a stream is what its writes put there. -/
theorem storedAt_streamWrites (ms : MemSys) (p : OxPlane) (k : KcgSel) (x : Stream) {m i : Nat} (hm : m < x.rows)
    (hi : i < (x.lens p.k p.n).2 * elemBytes x.outFmt) :
    storedAt (streamWrites ms p k x) (x.out + m * rowPitch x.outFmt (x.lens p.k p.n).2 + i) = (streamRow ms p k x m).1[i]? := by
  have len := length_streamRow ms p k x
  refine (storedAt_alone (ws := streamWrites ms p k x) (w := (x.out + m * rowPitch x.outFmt (x.lens p.k p.n).2, (streamRow ms p k x m).1))
    (List.mem_map.mpr ⟨m, List.mem_range.mpr hm, rfl⟩) ⟨Nat.le_add_right _ _, by dsimp only; rw [len]; omega⟩ (fun v hv cover => ?_)).trans ?_
  rotate_left
  · dsimp only
    rw [Nat.add_sub_cancel_left]
  · obtain ⟨m', -, rfl⟩ := List.mem_map.mp hv
    dsimp only at cover
    rw [len] at cover
    rw [streamRows_apart x (x.lens p.k p.n).2 (m := m) (m' := m') ⟨Nat.le_add_right _ i, by omega⟩ cover]

end Sys2Proof.Machine
end

section
/-! PROOFS. O14 MatrixResults: the chain behind each word of a stream (R114 to R118). -/

namespace Sys2Proof.Machine

set_option Elab.async false -- in turn: many waiting threads need much memory

/-! ## Blocks of plain elements -/

theorem filter_range_lt (n q : Nat) (p : Nat → Bool) (hp : ∀ i, i < n → (p i = true ↔ i < q)) : (List.range n).filter p = List.range (min n q) := by
  induction n with
  | zero => rw [Nat.zero_min]; rfl
  | succ n ih =>
    rw [List.range_succ, List.filter_append, ih (fun i hi => hp i (by omega))]
    by_cases low : n < q
    · rw [List.filter_cons_of_pos ((hp n (by omega)).mpr low), List.filter_nil, Nat.min_eq_left (by omega), Nat.min_eq_left (by omega), List.range_succ]
    · rw [List.filter_cons_of_neg (fun h => low ((hp n (by omega)).mp h)), List.filter_nil, List.append_nil, Nat.min_eq_right (by omega),
        Nat.min_eq_right (by omega)]

/-- Up to 32 of the products from the first on. -/
theorem map_filter_range {α : Type} (h g : Nat → α) (lo len : Nat) (same : ∀ i, i < 32 → lo + i < len → g i = h (lo + i)) :
    ((List.range 32).filter (fun i => decide (lo + i < len))).map g = (((List.range len).map h).drop lo).take 32 := by
  rw [filter_range_lt 32 (len - lo) _ (fun i _ => by rw [decide_eq_true_iff]; omega)]
  refine List.ext_getElem (by simp) (fun j hj hj' => ?_)
  rw [List.length_map, List.length_range] at hj
  rw [List.getElem_map, List.getElem_range, List.getElem_take, List.getElem_drop, List.getElem_map, List.getElem_range]
  exact same j (by omega) (by omega)

theorem zipWith_range {α β γ : Type} (f : α → β → γ) (g : Nat → α) (h : Nat → β) (n : Nat) :
    List.zipWith f ((List.range n).map g) ((List.range n).map h) = (List.range n).map (fun j => f (g j) (h j)) := by
  rw [List.zipWith_map, List.zipWith_self]

/-- The K-blocks of n products. -/
theorem plainBlocks_range (g h : Nat → FVal) (n : Nat) : plainBlocks ((List.range n).map g) ((List.range n).map h) =
    (List.range (ceilDiv n 64)).map (fun b =>
      kBlock ((((List.range n).map (fun j => prodOf (g j) (h j))).drop (64 * b)).take 32)
        ((((List.range n).map (fun j => prodOf (g j) (h j))).drop (64 * b + 32)).take 32) (some 0) (some 0) .one) := by
  unfold plainBlocks
  dsimp only
  rw [zipWith_range, List.length_map, List.length_range]

theorem MemSys.values_range (ms : MemSys) {code : BitVec 4} {f : Elem} {e : Nat} (w : Whole code f e) (a n : Nat) :
    ms.values f a n = (List.range n).map (fun j => (decodeElem f (ms.le (a + j * e) e)).1) := by
  have size : f.bits / 8 = e := by
    rw [w.bits]
    exact Nat.mul_div_cancel_left _ (by decide)
  rw [MemSys.values, MemSys.codes, List.map_map, size]
  rfl

theorem MemSys.accRead_sram (ms : MemSys) {a : Nat} (out : isHbm a = false) : (ms.accRead a).1 = ms.word a ∧ (ms.accRead a).2.2 = false := by
  have healthy := ms.elemAt_healthy .fp32 0 out
  unfold MemSys.accRead
  dsimp only
  rw [healthy]
  exact ⟨rfl, rfl⟩

/-- A format without scales: BF16 and FP16. -/
structure Unscaled (code : BitVec 4) (f : Elem) : Prop where
  whole : Whole code f 2
  tensor : perTensor code = false
  block : blockLen code = 0
  mx : isMx code = false
  fraction : f.fb ≤ 10

theorem unscaled_of {code : BitVec 4} {f : Elem} (h : (code = 0 ∧ f = Elem.bf16) ∨ (code = 1 ∧ f = Elem.fp16)) : Unscaled code f := by
  rcases h with ⟨rfl, rfl⟩ | ⟨rfl, rfl⟩
  · exact ⟨whole_bf16, rfl, rfl, rfl, by decide⟩
  · exact ⟨whole_fp16, rfl, rfl, rfl, by decide⟩

/-- The elements of input row m. -/
def streamIn (ms : MemSys) (f : Elem) (x : Stream) (l m j : Nat) : FVal := (decodeElem f (ms.le (x.inp + m * rowPitch x.inFmt l + j * 2) 2)).1

/-- The elements of the tile that they meet for output element o. -/
def streamTile (p : OxPlane) (x : Stream) (o j : Nat) : FVal := if x.dir then p.elem o j else p.elem j o

section
variable {ms : MemSys} {p : OxPlane} {k : KcgSel} {x : Stream} {f : Elem} (fmt : Unscaled x.inFmt f) (pairs : p.fmt = x.inFmt) (outI : isHbm x.inp = false)
include fmt pairs outI

theorem streamBlock_plain (l m o b : Nat) : streamBlock p x.dir x.inFmt (ms.row x.inFmt x.inp l m) l o b =
    kBlock ((((List.range l).map (fun j => prodOf (streamIn ms f x l m j) (streamTile p x o j))).drop (64 * b)).take 32)
      ((((List.range l).map (fun j => prodOf (streamIn ms f x l m j) (streamTile p x o j))).drop (64 * b + 32)).take 32) (some 0) (some 0) .one := by
  have hdr : hdrBytes x.inFmt = 0 := by rw [hdrBytes, fmt.tensor]; rfl
  have elems (j : Nat) (hj : j < l) : ((ms.row x.inFmt x.inp l m).elems.getD j ⟨.nan, .none, true⟩).v = streamIn ms f x l m j := by
    unfold MemSys.row
    dsimp only
    rw [List.getD_eq_getElem?_getD, ms.rowElems_get fmt.whole (isHbm_up outI (by omega)) hj, hdr]
    rfl
  have prods (lo : Nat) : ((List.range 32).filter (fun i => decide (lo + i < l))).map (fun i =>
      prodOf (((ms.row x.inFmt x.inp l m).elems.getD (lo + i) ⟨.nan, .none, true⟩).v) (if x.dir then p.elem o (lo + i) else p.elem (lo + i) o)) =
      (((List.range l).map (fun j => prodOf (streamIn ms f x l m j) (streamTile p x o j))).drop lo).take 32 :=
    map_filter_range _ _ lo l (fun i _ hi => by rw [elems _ hi]; rfl)
  have scales : (ms.row x.inFmt x.inp l m).scales = [] ∧ (ms.row x.inFmt x.inp l m).tensor = none := by
    unfold MemSys.row MemSys.rowScales
    dsimp only
    rw [fmt.tensor, if_pos fmt.block]
    exact ⟨rfl, rfl⟩
  have rowF (j : Nat) : (ms.row x.inFmt x.inp l m).f32At x.inFmt j = .one := by
    unfold RRow.f32At
    rw [scales.1, scales.2]
    rfl
  have rowE (j : Nat) : (ms.row x.inFmt x.inp l m).e8At x.inFmt j = some 0 := by
    unfold RRow.e8At
    rw [scales.1]
    rfl
  have tileF (i j : Nat) : p.f32At i j = .one := by
    unfold OxPlane.f32At
    rw [pairs, fmt.tensor, if_pos (Or.inl fmt.block)]
    rfl
  have tileE (i j : Nat) : p.e8At i j = some 0 := by
    unfold OxPlane.e8At
    rw [pairs, fmt.mx]
    rfl
  unfold streamBlock
  dsimp only
  rw [prods, prods]
  simp only [rowF, rowE, tileF, tileE, ite_self]
  have none_ (b : Prop) [Decidable b] : (if b then addExp (some 0) (some 0) else some 0) = some 0 := ite_self _
  rw [none_, none_]
  rfl

end

end Sys2Proof.Machine
end

section
/-! PROOFS. O14 MatrixResults: what a stream leaves (R87, R88, R114 to R119). -/

namespace Sys2Proof.Machine

set_option Elab.async false -- in turn: many waiting threads need much memory

/-! ## What an element can be -/

theorem decodeElem_num (f : Elem) (x : Nat) : (decodeElem f x).1 = .nan ∨ ∃ neg m e, (decodeElem f x).1 = .num neg m 1 e ∧ m < 2 ^ (f.fb + 1) := by
  have value (neg : Bool) (g : Nat) : ∃ neg' m e, (if g / 2 ^ f.fb = 0 then FVal.num neg (g % 2 ^ f.fb) 1 (f.emin - f.fb)
      else .num neg (2 ^ f.fb + g % 2 ^ f.fb) 1 (((g / 2 ^ f.fb : Nat) : Int) - f.bias - f.fb)) = .num neg' m 1 e ∧ m < 2 ^ (f.fb + 1) := by
    have low := Nat.mod_lt g (Nat.two_pow_pos f.fb)
    rw [Nat.pow_succ]
    split
    · exact ⟨_, _, _, rfl, by omega⟩
    · exact ⟨_, _, _, rfl, by omega⟩
  unfold decodeElem
  dsimp only
  split
  · split
    · exact .inr (value _ _)
    · split
      · exact .inl rfl
      · exact .inr (value _ _)
  · split
    · exact .inl rfl
    · exact .inr (value _ _)

/-- The product of two elements alone is rounded once. -/
theorem kBlock_elements {f : Elem} {x y : Nat} (fraction : f.fb ≤ 10) (finite : ((decodeElem f x).1.mul (decodeElem f y).1).isNaN = false)
    (nonzero : ((decodeElem f x).1.mul (decodeElem f y).1).isZero = false) :
    kBlock [prodOf (decodeElem f x).1 (decodeElem f y).1] [] (some 0) (some 0) .one = rne32 ((decodeElem f x).1.mul (decodeElem f y).1) := by
  rcases decodeElem_num f x with nan | ⟨sx, m, e, hx, mLt⟩
  · rw [nan] at finite
    exact absurd finite Bool.false_ne_true.symm
  rcases decodeElem_num f y with nan | ⟨sy, n, e', hy, nLt⟩
  · rw [nan, hx] at finite
    exact absurd finite Bool.false_ne_true.symm
  rw [hx, hy] at nonzero
  have live : m * n ≠ 0 := fun zero => by
    rw [FVal.mul, zero] at nonzero
    exact absurd nonzero Bool.false_ne_true.symm
  refine kBlock_one hx hy live ?_
  have bound : 2 ^ (f.fb + 1) ≤ 2 ^ 11 := Nat.pow_le_pow_right (by decide) (by omega)
  have size : m * n < 2 ^ 11 * 2 ^ 11 := Nat.mul_lt_mul'' (by omega) (by omega)
  have log := (Nat.log2_lt live).mpr (Nat.lt_of_lt_of_le size (show 2 ^ 11 * 2 ^ 11 ≤ 2 ^ 64 by decide))
  omega

theorem plainBlocks_settled {xs ys : List FVal} : ∀ v ∈ plainBlocks xs ys, Settled v.1 := by
  unfold plainBlocks
  intro v hv
  obtain ⟨i, -, rfl⟩ := List.mem_map.mp hv
  exact kBlock_settled _ _ _ _ _

theorem plainBlocks_ne_nil (g h : Nat → FVal) {n : Nat} (some_ : 1 ≤ n) : plainBlocks ((List.range n).map g) ((List.range n).map h) ≠ [] := by
  intro none_
  have len := congrArg List.length none_
  rw [plainBlocks_range, List.length_map, List.length_range, List.length_nil, ceilDiv] at len
  omega

theorem chain32_one (a b : FVal) : chain32 none (plainBlocks [a] [b]) = kBlock [prodOf a b] [] (some 0) (some 0) .one := by
  have blocks : plainBlocks [a] [b] = [kBlock [prodOf a b] [] (some 0) (some 0) .one] := by
    unfold plainBlocks
    dsimp only [List.zipWith, List.length]
    rw [show ceilDiv (0 + 1) 64 = 1 from by decide]
    rfl
  rw [blocks]
  rfl

/-! ## The words of a stream -/

section
variable {ms : MemSys} {p : OxPlane} {k : KcgSel} {x : Stream} {f : Elem} (fmt : Unscaled x.inFmt f) (pairs : p.fmt = x.inFmt) (outI : isHbm x.inp = false)
include fmt pairs outI

theorem streamChain_plain (outO : isHbm x.out = false) (m o : Nat) : streamChain ms p x m o =
    chain32 (if x.acc then some (ms.word (x.out + m * rowPitch x.outFmt (x.lens p.k p.n).2 + o * elemBytes x.outFmt)) else none)
      (plainBlocks (ms.values f (x.inp + m * rowPitch x.inFmt (x.lens p.k p.n).1) (x.lens p.k p.n).1)
        ((List.range (x.lens p.k p.n).1).map (streamTile p x o))) := by
  unfold streamChain
  rw [(ms.accRead_sram (isHbm_up outO (by omega))).1, ms.values_range fmt.whole, plainBlocks_range]
  exact congrArg _ (List.map_congr_left (fun b _ => streamBlock_plain fmt pairs outI _ m o b))

end

/-- The rows that stand in memory are what a stream leaves. -/
theorem State.streamLeft_of_rows {s t : State} {k : KcgSel} {p : OxPlane} {x : Stream} {c : Nat} (inside : x.inCore c p)
    (rows : ∀ m, m < x.rows → t.ms.bytes (x.out + m * rowPitch x.outFmt (x.lens p.k p.n).2) ((x.lens p.k p.n).2 * elemBytes x.outFmt) =
      (streamRow s.ms p k x m).1) : s.StreamLeft t k p x := by
  intro m hm
  refine ⟨rows m hm, fun f fmts pairs out2 noSr one_ o ho => ?_⟩
  obtain ⟨a, ha⟩ : ∃ a, a = x.out + m * rowPitch 2 (x.lens p.k p.n).2 + 4 * o := ⟨_, rfl⟩
  dsimp only
  rw [← ha]
  have fmt := unscaled_of fmts
  obtain ⟨inp, out⟩ : inSram c x.inp (x.spans (p.k, p.n)).1 = true ∧ inSram c x.out (x.spans (p.k, p.n)).2 = true := by
    rcases inside with none_ | h
    · omega
    · exact h
  have place : x.out + m * rowPitch x.outFmt (x.lens p.k p.n).2 + o * elemBytes x.outFmt = a := by
    rw [ha, out2]
    show _ + o * 4 = _ + 4 * o
    omega
  have row := rows m hm
  rw [← length_streamRow s.ms p k x m, streamRow_bytes] at row
  have cell := MemSys.bytes_of_cells (fun o _ => length_writeElem x.outFmt _ _ _ _) row ho
  have chain := streamChain_plain (ms := s.ms) fmt pairs (inSram_sram inp) (inSram_sram out) m o
  rw [place] at chain
  have settled : Settled (streamChain s.ms p x m o).1 := by
    rw [chain]
    refine chain32_settled _ ?_ plainBlocks_settled
    rw [s.ms.values_range fmt.whole]
    exact plainBlocks_ne_nil _ _ one_
  have word : t.ms.word a = (streamChain s.ms p x m o).1 := by
    refine (MemSys.word_of_bytes (x := f32bits (f32val (streamChain s.ms p x m o).1)) ?_).trans settled
    rw [place, noSr, out2] at cell
    exact cell.trans (writeElem_fp32 _ _ _)
  rw [word, chain]
  refine ⟨rfl, fun single noAcc u v hu hv finite nonzero => ?_⟩
  obtain ⟨y', first⟩ : ∃ y, u = (decodeElem f y).1 := by
    have made := (s.ms.values_range fmt.whole (x.inp + m * rowPitch x.inFmt (x.lens p.k p.n).1) (x.lens p.k p.n).1).trans (by rw [single]; rfl : _ = [_])
    exact ⟨_, (List.singleton_inj.mp (made.symm.trans hu)).symm⟩
  obtain ⟨y, second⟩ : ∃ y, v = (decodeElem f y).1 := by
    have made : (List.range (x.lens p.k p.n).1).map (streamTile p x o) = [streamTile p x o 0] := by
      rw [single]
      rfl
    rw [← (List.singleton_inj.mp (made.symm.trans hv))]
    unfold streamTile OxPlane.elem
    rw [pairs, fmt.whole.elem]
    split
    · exact ⟨_, rfl⟩
    · exact ⟨_, rfl⟩
  subst first second
  rw [hu, show (List.range (x.lens p.k p.n).1).map (streamTile p x o) = [(decodeElem f y).1] from hv, noAcc]
  exact congrArg Prod.fst ((chain32_one _ _).trans (kBlock_elements fmt.fraction finite nonzero))

end Sys2Proof.Machine
end

section
/-! PROOFS. O14 MatrixResults: what MM, DUAL and WGRAD leave (R87, R88, R93 to R101). -/

namespace Sys2Proof.Machine

set_option Elab.async false -- in turn: many waiting threads need much memory

/-! ## Completion -/

/-- An operation of unit u that computes x and whose operands and results are in core SRAM. -/
theorem State.Ran.exec_commit {s x : State} {c : CoreId} {u : EngUnit} {i e : Nat} {r : REntry} {plan : ReadPlan} {res : OpResult} (h : s.Ran x c)
    (calm : s.Calm) (next : ((s.core c).eng u).mayComplete u i = some r) (left : s.complete c u r = x.commit c u r.q e plan res) (mem : x.ms = s.ms)
    (reads : ∀ r ∈ plan.all, isHbm r.1 = false) (writes : ∀ w ∈ res.writes, isHbm w.1 = false) (healthy : res.poison = []) (good : res.err = false) :
    ∃ t, exec (.operationComplete c u i) s = .next t ∧ s.Committed x t c u r.q res.writes := by
  obtain ⟨still, done⟩ := h.committed (u := u) (q := r.q) (e := e) calm mem reads writes healthy good
  rw [← left] at still done
  exact ⟨_, exec_operationComplete calm next still, done⟩

theorem Core.ends_planes (k : Core) (u : EngUnit) (id : Nat) (sg : BitVec 8) (err : Bool) : (k.ends u id sg err).planes = k.planes := by
  cases u <;> rfl

theorem State.Committed.planes {s x t : State} {c : CoreId} {u : EngUnit} {q : QEntry} {ws : List (Nat × List Byte)} (h : s.Committed x t c u q ws) :
    (t.core c).planes = (x.core c).planes :=
  h.keeps Core.planes (fun _ _ => rfl) (fun _ _ => rfl) (fun k id sg e => k.ends_planes u id sg e)

/-! ## Streams -/

section
variable {ms : MemSys} {p : OxPlane} {k : KcgSel} {x : Stream}

/-- Each write of a stream is one of its places. -/
theorem streamWrites_places {w : Nat × List Byte} (hw : w ∈ streamWrites ms p k x) : (w.1, w.2.length) ∈ x.places p.k p.n := by
  obtain ⟨m, hm, rfl⟩ := List.mem_map.mp hw
  dsimp only
  rw [length_streamRow]
  exact List.mem_map.mpr ⟨m, hm, rfl⟩

/-- Outside its places a stream stores nothing. -/
theorem storedAt_streamWrites_none {a : Nat} (out : ∀ q ∈ x.places p.k p.n, ¬ (q.1 ≤ a ∧ a < q.1 + q.2)) : storedAt (streamWrites ms p k x) a = none :=
  storedFrom_outside (fun w hw => out (w.1, w.2.length) (streamWrites_places hw))

/-- A place of a stream apart from another one's places. -/
theorem streamPlaces_apart {y : Stream} {m i : Nat} (hm : m < x.rows) (hi : i < (x.lens p.k p.n).2 * elemBytes x.outFmt)
    (apart : ∀ q ∈ x.places p.k p.n, ∀ r ∈ y.places p.k p.n, overlaps q.1 q.2 r.1 r.2 = false) :
    storedAt (streamWrites ms p k y) (x.out + m * rowPitch x.outFmt (x.lens p.k p.n).2 + i) = none := by
  refine storedAt_streamWrites_none (fun q hq cover => ?_)
  have clear := apart _ (List.mem_map.mpr ⟨m, List.mem_range.mpr hm, rfl⟩) q hq
  have := of_decide_eq_false clear
  omega

end

section
variable {c : CoreId} {i : Nat} {s : State} {r : REntry} (calm : s.Calm) (wf : s.ms.mem.wf 0 = true) (next : (s.core c).ox.mayComplete .ox i = some r)
include calm wf next

/-- An MM that completes. -/
theorem exec_mm {inp out rows : Nat} {plane dir : Bool} {fi fo : BitVec 4} {acc sr : Bool} {kb : Nat}
    (op : r.q.op = some (.mm inp out rows plane dir fi fo acc sr kb)) (inside : Stream.inCore ⟨inp, out, rows, dir, fi, fo, acc, sr⟩ c r.plane) :
    ∃ t, exec (.operationComplete c .ox i) s = .next t ∧ s.Finished t c .ox r.q false ∧ s.otherCores t c ∧ (t.core c).planes = (s.core c).planes ∧
      s.storesOnly t (Stream.places ⟨inp, out, rows, dir, fi, fo, acc, sr⟩ r.plane.k r.plane.n) ∧
      s.StreamLeft t r.q.kcg r.plane ⟨inp, out, rows, dir, fi, fo, acc, sr⟩ := by
  obtain ⟨x, hx⟩ : ∃ x : Stream, x = ⟨inp, out, rows, dir, fi, fo, acc, sr⟩ := ⟨_, rfl⟩
  have plan : s.readPlan c r = x.plan r.plane := by
    unfold State.readPlan
    rw [op, hx]
  have left : s.complete c .ox r = s.commit c .ox r.q 0 (s.readPlan c r) (streamRun s.ms r.plane r.q.kcg x) := by
    unfold State.complete
    dsimp only
    rw [op, hx]
  rw [← hx] at inside ⊢
  obtain ⟨writes, healthy⟩ := streamRun_writes (ms := s.ms) (p := r.plane) (k := r.q.kcg) (x := x)
  obtain ⟨t, run, done⟩ := (State.Ran.refl s c).exec_commit (u := .ox) calm next left rfl (plan ▸ streamPlan_sram inside)
    (writes ▸ streamWrites_sram inside) healthy (streamRun_healthy inside)
  rw [writes] at done
  refine ⟨t, run, done.finished, done.others, done.planes, done.storesOnly wf (fun w hw => ⟨_, streamWrites_places hw, Nat.le_refl _, Nat.le_refl _⟩),
    State.streamLeft_of_rows inside (fun m hm => ?_)⟩
  have row := done.bytes wf (a := x.out + m * rowPitch x.outFmt (x.lens r.plane.k r.plane.n).2) (bs := (streamRow s.ms r.plane r.q.kcg x m).1)
    (fun i hi => storedAt_streamWrites _ _ _ _ hm (length_streamRow s.ms r.plane r.q.kcg x m ▸ hi))
  rw [length_streamRow] at row
  exact row

/-- A DUAL that completes. -/
theorem exec_dual {d : Nat} {plane : Bool} {shape : Option (Nat × Nat × BitVec 4)} (op : r.q.op = some (.dual d plane shape)) (insideF : (dualStreams r.desc).1.inCore c r.plane)
    (insideB : (dualStreams r.desc).2.inCore c r.plane)
    (apart : ∀ p ∈ (dualStreams r.desc).1.places r.plane.k r.plane.n, ∀ q ∈ (dualStreams r.desc).2.places r.plane.k r.plane.n, overlaps p.1 p.2 q.1 q.2 = false) :
    ∃ t, exec (.operationComplete c .ox i) s = .next t ∧ s.Finished t c .ox r.q false ∧ s.otherCores t c ∧ (t.core c).planes = (s.core c).planes ∧
      s.storesOnly t ((dualStreams r.desc).1.places r.plane.k r.plane.n ++ (dualStreams r.desc).2.places r.plane.k r.plane.n) ∧
      s.StreamLeft t r.q.kcg r.plane (dualStreams r.desc).1 ∧ s.StreamLeft t r.q.kcg r.plane (dualStreams r.desc).2 := by
  have plan : s.readPlan c r = ((dualStreams r.desc).1.plan r.plane).join ((dualStreams r.desc).2.plan r.plane) := by
    unfold State.readPlan
    rw [op]
  have left : s.complete c .ox r = s.commit c .ox r.q 0 (s.readPlan c r)
      ((streamRun s.ms r.plane r.q.kcg (dualStreams r.desc).1).join (streamRun s.ms r.plane r.q.kcg (dualStreams r.desc).2)) := by
    unfold State.complete
    dsimp only
    rw [op]
  generalize (dualStreams r.desc).1 = x at *
  generalize (dualStreams r.desc).2 = y at *
  obtain ⟨writesX, healthyX⟩ := streamRun_writes (ms := s.ms) (p := r.plane) (k := r.q.kcg) (x := x)
  obtain ⟨writesY, healthyY⟩ := streamRun_writes (ms := s.ms) (p := r.plane) (k := r.q.kcg) (x := y)
  have writes : ((streamRun s.ms r.plane r.q.kcg x).join (streamRun s.ms r.plane r.q.kcg y)).writes =
      streamWrites s.ms r.plane r.q.kcg x ++ streamWrites s.ms r.plane r.q.kcg y := congr (congrArg _ writesX) writesY
  have reads : ∀ z ∈ (s.readPlan c r).all, isHbm z.1 = false := by
    rw [plan]
    intro z hz
    unfold ReadPlan.join ReadPlan.all at hz
    simp only [List.mem_append, List.flatten_append] at hz
    rcases hz with (hz | hz) | hz | hz
    · exact streamPlan_sram insideF z (List.mem_append_left _ hz)
    · exact streamPlan_sram insideB z (List.mem_append_left _ hz)
    · exact streamPlan_sram insideF z (List.mem_append_right _ hz)
    · exact streamPlan_sram insideB z (List.mem_append_right _ hz)
  have sram : ∀ w ∈ ((streamRun s.ms r.plane r.q.kcg x).join (streamRun s.ms r.plane r.q.kcg y)).writes, isHbm w.1 = false := by
    rw [writes]
    intro w hw
    rcases List.mem_append.mp hw with hw | hw
    · exact streamWrites_sram insideF w hw
    · exact streamWrites_sram insideB w hw
  obtain ⟨t, run, done⟩ := (State.Ran.refl s c).exec_commit (u := .ox) calm next left rfl reads sram
    (congr (congrArg List.append healthyX) healthyY) (congr (congrArg or (streamRun_healthy insideF)) (streamRun_healthy insideB))
  rw [writes] at done
  refine ⟨t, run, done.finished, done.others, done.planes, done.storesOnly wf (fun w hw => ?_),
    State.streamLeft_of_rows insideF (fun m hm => ?_), State.streamLeft_of_rows insideB (fun m hm => ?_)⟩
  · rcases List.mem_append.mp hw with hw | hw
    · exact ⟨_, List.mem_append_left _ (streamWrites_places hw), Nat.le_refl _, Nat.le_refl _⟩
    · exact ⟨_, List.mem_append_right _ (streamWrites_places hw), Nat.le_refl _, Nat.le_refl _⟩
  · have len := length_streamRow s.ms r.plane r.q.kcg x m
    have row := done.bytes wf (a := x.out + m * rowPitch x.outFmt (x.lens r.plane.k r.plane.n).2) (bs := (streamRow s.ms r.plane r.q.kcg x m).1)
      (fun i hi => by rw [storedAt_append, streamPlaces_apart hm (len ▸ hi) apart, storedAt_streamWrites _ _ _ _ hm (len ▸ hi), Option.none_or])
    rw [length_streamRow] at row
    exact row
  · have len := length_streamRow s.ms r.plane r.q.kcg y m
    have row := done.bytes wf (a := y.out + m * rowPitch y.outFmt (y.lens r.plane.k r.plane.n).2) (bs := (streamRow s.ms r.plane r.q.kcg y m).1)
      (fun i hi => by
        rw [storedAt_append, storedAt_streamWrites _ _ _ _ hm (len ▸ hi), List.getElem?_eq_getElem hi]
        rfl)
    rw [length_streamRow] at row
    exact row

end

end Sys2Proof.Machine
end

section
/-! PROOFS. O14 MatrixResults: WGRAD (R93 to R101). -/

namespace Sys2Proof.Machine

set_option Elab.async false -- in turn: many waiting threads need much memory

/-! ## Weight gradients -/

/-- Where element (k, n) of OUT stands. -/
def WgradDesc.at_ (d : WgradDesc) (k n : Nat) : Nat := d.out + k * d.outPitch + 4 * n

/-- Element k of token u of X, and element n of token u of dY. -/
def WgradDesc.xAt (d : WgradDesc) (ms : MemSys) (f : Elem) (k u : Nat) : FVal := (decodeElem f (ms.le (d.x + u * d.xp + k * 2) 2)).1

@[inherit_doc WgradDesc.xAt]
def WgradDesc.yAt (d : WgradDesc) (ms : MemSys) (f : Elem) (n u : Nat) : FVal := (decodeElem f (ms.le (d.dy + u * d.dyp + n * 2) 2)).1

/-- The chain behind element (k, n) of OUT. -/
def WgradDesc.chain (d : WgradDesc) (ms : MemSys) (f : Elem) (k n : Nat) : BitVec 32 × Bool :=
  chain32 (if d.acc then some (ms.word (d.at_ k n)) else none)
    (plainBlocks ((List.range d.t).map (d.xAt ms f k)) ((List.range d.t).map (d.yAt ms f n)))

/-- What a WGRAD writes at element (k, n), and where; nothing at a frozen one. -/
def WgradDesc.cell (d : WgradDesc) (ms : MemSys) (f : Elem) (mask : List Byte) (k n : Nat) : Option (Nat × List Byte) :=
  if d.frozen mask k n then none else some (d.at_ k n, leBytes 4 (f32bits (f32val (d.chain ms f k n).1)).toNat)

/-- Its writes to OUT. -/
def WgradDesc.cells (d : WgradDesc) (ms : MemSys) (f : Elem) (mask : List Byte) : List (Nat × List Byte) :=
  (List.range d.k).flatMap (fun k => (List.range d.n).filterMap (d.cell ms f mask k))

section
variable {ms : MemSys} {raw : List Byte} {f : Elem} (fmt : Unscaled (WgradDesc.of raw).xf f) (pairs : (WgradDesc.of raw).dyf = (WgradDesc.of raw).xf)
  (outX : isHbm (WgradDesc.of raw).x = false) (outY : isHbm (WgradDesc.of raw).dy = false) (outO : isHbm (WgradDesc.of raw).out = false)
include fmt pairs outX outY outO

theorem wgradRun_writes : (wgradRun ms raw).writes = wgradStage ms (WgradDesc.of raw) ++ (WgradDesc.of raw).cells ms f (raw.drop 64) ∧
    (wgradRun ms raw).poison = [] ∧ (wgradRun ms raw).err = false := by
  have tensY := fmt.tensor
  have elemY := fmt.whole.elem
  rw [← pairs] at tensY elemY
  have hdrX : hdrBytes (WgradDesc.of raw).xf = 0 := by
    rw [hdrBytes, fmt.tensor]
    rfl
  have hdrY : hdrBytes (WgradDesc.of raw).dyf = 0 := pairs ▸ hdrX
  unfold wgradRun
  dsimp only
  rw [fmt.whole.elem, elemY, fmt.tensor, tensY, hdrX, hdrY]
  generalize WgradDesc.of raw = d at *
  dsimp only [Nat.add_zero]
  have xe (u k : Nat) : ms.elemAt f (d.x + u * d.xp) (k * f.bits) = elemRead f (ms.le (d.x + u * d.xp + k * 2) 2) :=
    ms.elemAt_whole fmt.whole (isHbm_up outX (by omega)) k
  have ye (u n : Nat) : ms.elemAt f (d.dy + u * d.dyp) (n * f.bits) = elemRead f (ms.le (d.dy + u * d.dyp + n * 2) 2) :=
    ms.elemAt_whole fmt.whole (isHbm_up outY (by omega)) n
  have prods (lo k n : Nat) : ((List.range 32).filter (fun i => decide (lo + i < d.t))).map (fun i =>
      prodOf (elemRead f (ms.le (d.x + (lo + i) * d.xp + k * 2) 2)).v (elemRead f (ms.le (d.dy + (lo + i) * d.dyp + n * 2) 2)).v) =
      (((List.range d.t).map (fun j => prodOf (d.xAt ms f k j) (d.yAt ms f n j))).drop lo).take 32 :=
    map_filter_range _ _ lo d.t (fun _ _ _ => rfl)
  have old (k n : Nat) : (if d.acc then (some (ms.accRead (d.at_ k n)).1, (ms.accRead (d.at_ k n)).2.1, (ms.accRead (d.at_ k n)).2.2)
      else (none, {}, false) : Option (BitVec 32) × NumEv × Bool).1 = (if d.acc then some (ms.word (d.at_ k n)) else none) ∧
      (if d.acc then (some (ms.accRead (d.at_ k n)).1, (ms.accRead (d.at_ k n)).2.1, (ms.accRead (d.at_ k n)).2.2)
      else (none, {}, false) : Option (BitVec 32) × NumEv × Bool).2.2 = false := by
    obtain ⟨word, good⟩ := ms.accRead_sram (a := d.at_ k n) (isHbm_up outO (by unfold WgradDesc.at_; omega))
    cases d.acc
    · exact ⟨rfl, rfl⟩
    · exact ⟨congrArg some word, good⟩
  have blocks (k n : Nat) : (List.range (ceilDiv d.t 64)).map (fun b => kBlock
      ((((List.range d.t).map (fun j => prodOf (d.xAt ms f k j) (d.yAt ms f n j))).drop (64 * b)).take 32)
      ((((List.range d.t).map (fun j => prodOf (d.xAt ms f k j) (d.yAt ms f n j))).drop (64 * b + 32)).take 32) (some 0) (some 0) .one) = _ :=
    (plainBlocks_range (d.xAt ms f k) (d.yAt ms f n) d.t).symm
  simp only [xe, ye, prods]
  refine ⟨congrArg (wgradStage ms d ++ ·) ?_, trivial, ?_⟩
  · rw [List.map_flatMap]
    refine List.flatMap_congr (fun k _ => ?_)
    rw [List.map_filterMap]
    refine List.filterMap_congr (fun n _ => ?_)
    unfold WgradDesc.cell
    split
    · rfl
    · refine congrArg some (Prod.ext rfl ?_)
      dsimp only
      rw [writeElem_fp32]
      refine (congrArg (fun x : BitVec 32 × Bool => leBytes 4 (f32bits (f32val x.1)).toNat) ?_)
      exact congr (congrArg chain32 (old k n).1) (blocks k n)
  · refine Bool.or_eq_false_iff.mpr ⟨Bool.or_eq_false_iff.mpr ⟨List.any_eq_false.mpr (fun e he => ?_), rfl⟩, List.any_eq_false.mpr (fun e he => ?_)⟩
    · obtain ⟨u, -, he⟩ := List.mem_flatMap.mp he
      rcases List.mem_append.mp he with he | he
      · obtain ⟨k, -, rfl⟩ := List.mem_map.mp he
        exact Bool.false_ne_true
      · obtain ⟨n, -, rfl⟩ := List.mem_map.mp he
        exact Bool.false_ne_true
    · obtain ⟨k, -, he⟩ := List.mem_flatMap.mp he
      obtain ⟨n, -, he⟩ := List.mem_filterMap.mp he
      split at he
      · exact nomatch he
      · rw [← Option.some.inj he]
        exact Bool.eq_false_iff.mp (old k n).2

end

end Sys2Proof.Machine
end

section
/-! PROOFS. O14 MatrixResults: the places of WGRAD and the statement (R93 to R101). -/

namespace Sys2Proof.Machine

set_option Elab.async false -- in turn: many waiting threads need much memory

/-! ## Where a WGRAD writes -/

section
variable (d : WgradDesc) (ms : MemSys) (f : Elem) (mask : List Byte)

theorem WgradDesc.pitch_le : 4 * d.n ≤ d.outPitch := by
  unfold WgradDesc.outPitch roundUp ceilDiv
  omega

theorem MemSys.length_bytes (a n : Nat) : (ms.bytes a n).length = n := Mem.readN_length _ _ _ _

/-- The staging area lies behind OUT. -/
theorem wgradStage_place {w : Nat × List Byte} (hw : w ∈ wgradStage ms d) : d.out + d.outBytes ≤ w.1 ∧ w.1 + w.2.length ≤ d.out + d.outBytes + d.stageBytes := by
  unfold wgradStage at hw
  obtain ⟨tt, -, hw⟩ := List.mem_flatMap.mp hw
  obtain ⟨k, hk, rfl⟩ := List.mem_map.mp hw
  rw [List.mem_range] at hk
  dsimp only
  rw [length_cells (e := elemBytes d.xf) (fun _ _ => ms.length_bytes _ _)]
  have both : d.stageBytes = 2 * (768 * d.k * elemBytes d.xf) := by
    unfold WgradDesc.stageBytes
    ring
  have toks : min 768 (d.t - 768 * tt) * elemBytes d.xf ≤ 768 * elemBytes d.xf := Nat.mul_le_mul_right _ (Nat.min_le_left _ _)
  have row : (k + 1) * (768 * elemBytes d.xf) ≤ d.k * (768 * elemBytes d.xf) := Nat.mul_le_mul_right _ hk
  have half : tt % 2 * (768 * d.k * elemBytes d.xf) ≤ 1 * (768 * d.k * elemBytes d.xf) := Nat.mul_le_mul_right _ (by omega)
  have tile : d.k * (768 * elemBytes d.xf) = 768 * d.k * elemBytes d.xf := by ring
  rw [Nat.succ_mul] at row
  rw [both, WgradDesc.stage]
  omega

theorem WgradDesc.at_place {k n : Nat} (hk : k < d.k) (hn : n < d.n) : d.out ≤ d.at_ k n ∧ d.at_ k n + 4 ≤ d.out + d.outBytes := by
  have row : (k + 1) * d.outPitch ≤ d.k * d.outPitch := Nat.mul_le_mul_right _ hk
  have pitch := d.pitch_le
  rw [Nat.succ_mul] at row
  rw [WgradDesc.at_, WgradDesc.outBytes]
  omega

/-- Elements of OUT lie apart. -/
theorem WgradDesc.at_apart {k n k' n' a : Nat} (hn : n < d.n) (hn' : n' < d.n) (h : d.at_ k n ≤ a ∧ a < d.at_ k n + 4)
    (h' : d.at_ k' n' ≤ a ∧ a < d.at_ k' n' + 4) : k' = k ∧ n' = n := by
  have pitch := d.pitch_le
  unfold WgradDesc.at_ at h h'
  rcases Nat.lt_trichotomy k k' with less | rfl | more
  · have step := Nat.mul_le_mul_right d.outPitch (show k + 1 ≤ k' from less)
    rw [Nat.succ_mul] at step
    omega
  · omega
  · have step := Nat.mul_le_mul_right d.outPitch (show k' + 1 ≤ k from more)
    rw [Nat.succ_mul] at step
    omega

theorem WgradDesc.mem_cells {w : Nat × List Byte} : w ∈ d.cells ms f mask ↔ ∃ k n, k < d.k ∧ n < d.n ∧ d.frozen mask k n = false ∧
    w = (d.at_ k n, leBytes 4 (f32bits (f32val (d.chain ms f k n).1)).toNat) := by
  unfold WgradDesc.cells
  constructor
  · intro hw
    obtain ⟨k, hk, hw⟩ := List.mem_flatMap.mp hw
    obtain ⟨n, hn, hw⟩ := List.mem_filterMap.mp hw
    unfold WgradDesc.cell at hw
    split at hw
    · exact nomatch hw
    · next free => exact ⟨k, n, List.mem_range.mp hk, List.mem_range.mp hn, Bool.eq_false_iff.mpr free, (Option.some.inj hw).symm⟩
  · rintro ⟨k, n, hk, hn, free, rfl⟩
    refine List.mem_flatMap.mpr ⟨k, List.mem_range.mpr hk, List.mem_filterMap.mpr ⟨n, List.mem_range.mpr hn, ?_⟩⟩
    unfold WgradDesc.cell
    rw [if_neg (Bool.eq_false_iff.mp free)]

/-- A write of a WGRAD that covers a byte of element (k, n) is that element's. -/
theorem WgradDesc.covers {k n a : Nat} (hk : k < d.k) (hn : n < d.n) (at_ : d.at_ k n ≤ a ∧ a < d.at_ k n + 4) {w : Nat × List Byte}
    (hw : w ∈ wgradStage ms d ++ d.cells ms f mask) (cover : w.1 ≤ a ∧ a < w.1 + w.2.length) : d.frozen mask k n = false ∧
    w = (d.at_ k n, leBytes 4 (f32bits (f32val (d.chain ms f k n).1)).toNat) := by
  rcases List.mem_append.mp hw with hw | hw
  · have stage := wgradStage_place d ms hw
    have here := d.at_place hk hn
    omega
  · obtain ⟨k', n', hk', hn', free, rfl⟩ := (d.mem_cells ms f mask).mp hw
    dsimp only at cover
    rw [length_leBytes] at cover
    obtain ⟨rfl, rfl⟩ := d.at_apart hn hn' at_ cover
    exact ⟨free, rfl⟩

/-- What the writes of a WGRAD put at element (k, n). -/
theorem WgradDesc.storedAt_cell {k n i : Nat} (hk : k < d.k) (hn : n < d.n) (hi : i < 4) :
    storedAt (wgradStage ms d ++ d.cells ms f mask) (d.at_ k n + i) =
      if d.frozen mask k n then none else (leBytes 4 (f32bits (f32val (d.chain ms f k n).1)).toNat)[i]? := by
  have inside : d.at_ k n ≤ d.at_ k n + i ∧ d.at_ k n + i < d.at_ k n + 4 := by omega
  split
  · next frozen =>
    refine storedFrom_outside (fun w hw cover => ?_)
    rw [(d.covers ms f mask hk hn inside hw cover).1] at frozen
    exact Bool.false_ne_true frozen
  · next free =>
    have mine : (d.at_ k n, leBytes 4 (f32bits (f32val (d.chain ms f k n).1)).toNat) ∈ wgradStage ms d ++ d.cells ms f mask :=
      List.mem_append_right _ ((d.mem_cells ms f mask).mpr ⟨k, n, hk, hn, Bool.eq_false_iff.mpr free, rfl⟩)
    refine (storedAt_alone mine (by dsimp only; rw [length_leBytes]; exact inside) (fun v hv cover => (d.covers ms f mask hk hn inside hv cover).2)).trans ?_
    dsimp only
    rw [Nat.add_sub_cancel_left]

end

end Sys2Proof.Machine
end

section
/-! PROOFS. O14 MatrixResults: the statement. -/

namespace Sys2Proof.Machine

set_option Elab.async false -- in turn: many waiting threads need much memory

theorem State.Ran.setPlane {s x : State} {c : CoreId} (h : s.Ran x c) (i : Bool) (p : OxPlane) : s.Ran (x.setPlane c i p) c :=
  h.modCore rfl rfl (fun u => by cases u <;> rfl)

/-- Both planes are empty. -/
theorem State.emptyPlanes_plane (s : State) (c : CoreId) (i : Bool) : ((s.emptyPlanes c).core c).plane i = {} := by
  have made : (s.emptyPlanes c).core c = { s.core c with planes := vmod (vmod (s.core c).planes (b2n false) (fun _ => {})) (b2n true) (fun _ => {}) } := by
    unfold State.emptyPlanes State.setPlane
    rw [State.modCore_modCore, State.core_modCore, if_pos ⟨rfl, c.isLt⟩]
  rw [made]
  unfold Core.plane
  dsimp only
  generalize (s.core c).planes = v
  cases i
  · rw [getD_vmod, getD_vmod, if_neg (by decide), if_pos (by decide)]
  · rw [getD_vmod, if_pos (by decide)]

/-- A word that is not written stays. -/
theorem MemSys.word_kept {ms ms' : MemSys} {a : Nat} (same : ∀ i, i < 4 → ms'.byte (a + i) = ms.byte (a + i)) : ms'.word a = ms.word a := by
  have bytes : ms'.mem.readN 0 a (ms.mem.readN 0 a 4).length = ms.mem.readN 0 a 4 := by
    refine Mem.readN_eq_of_getD (fun i hi => ?_)
    rw [Mem.readN_length] at hi
    rw [Mem.readN_getD _ _ _ _ _ _ hi]
    exact same i hi
  rw [Mem.readN_length] at bytes
  exact congrArg (fun x => BitVec.ofNat 32 (leNat x)) bytes

section
variable {c : CoreId} {i : Nat} {s : State} {r : REntry} (calm : s.Calm) (wf : s.ms.mem.wf 0 = true) (next : (s.core c).ox.mayComplete .ox i = some r)
include calm wf next

omit calm wf next in
theorem wgradPlan_sram (outX : isHbm (WgradDesc.of r.desc).x = false) (outY : isHbm (WgradDesc.of r.desc).dy = false) :
    ∀ z ∈ (wgradPlan r.desc).all, isHbm z.1 = false := by
  intro z hz
  have part (f : BitVec 4) {a : Nat} (pitch n t : Nat) (out : isHbm a = false) (hz : z ∈ plainRuns ((if perTensor f then [(a, 4)] else [])
      ++ (List.range t).map (fun t => (a + hdrBytes f + t * pitch, n * elemBytes f)))) : isHbm z.1 = false := by
    obtain ⟨y, hy, rfl⟩ := List.mem_map.mp hz
    rcases List.mem_append.mp hy with hy | hy
    · rw [List.mem_singleton.mp (List.mem_ite_nil_right.mp hy).2]
      exact out
    · obtain ⟨u, -, rfl⟩ := List.mem_map.mp hy
      exact isHbm_up out (by omega)
  unfold wgradPlan ReadPlan.all at hz
  dsimp only at hz
  rw [List.nil_append, List.flatten_cons, List.flatten_singleton] at hz
  rcases List.mem_append.mp hz with hz | hz
  · exact part _ _ _ _ outX hz
  · exact part _ _ _ _ outY hz

/-- A WGRAD that completes. -/
theorem exec_wgrad {d : Nat} {f : Elem} (op : r.q.op = some (.wgrad d)) (fmt : Unscaled (WgradDesc.of r.desc).xf f)
    (pairs : (WgradDesc.of r.desc).dyf = (WgradDesc.of r.desc).xf) (tokens : 1 ≤ (WgradDesc.of r.desc).t) (outX : isHbm (WgradDesc.of r.desc).x = false)
    (outY : isHbm (WgradDesc.of r.desc).dy = false) (outO : isHbm (WgradDesc.of r.desc).out = false) :
    ∃ t, exec (.operationComplete c .ox i) s = .next t ∧ s.Finished t c .ox r.q false ∧ s.otherCores t c ∧
      (t.core c).plane false = {} ∧ (t.core c).plane true = {} ∧
      s.storesOnly t [((WgradDesc.of r.desc).out, (WgradDesc.of r.desc).outBytes + (WgradDesc.of r.desc).stageBytes)] ∧
      ∀ k, k < (WgradDesc.of r.desc).k → ∀ n, n < (WgradDesc.of r.desc).n →
        t.ms.word ((WgradDesc.of r.desc).at_ k n) = if (WgradDesc.of r.desc).frozen (r.desc.drop 64) k n then s.ms.word ((WgradDesc.of r.desc).at_ k n)
          else ((WgradDesc.of r.desc).chain s.ms f k n).1 := by
  have plan : s.readPlan c r = wgradPlan r.desc := by
    unfold State.readPlan
    rw [op]
  have left : s.complete c .ox r = (s.emptyPlanes c).commit c .ox r.q 0 (s.readPlan c r) (wgradRun s.ms r.desc) := by
    unfold State.complete
    dsimp only
    rw [op]
  have reads : ∀ z ∈ (s.readPlan c r).all, isHbm z.1 = false := by
    rw [plan]
    exact wgradPlan_sram outX outY
  obtain ⟨writes, healthy, good⟩ := wgradRun_writes (ms := s.ms) fmt pairs outX outY outO
  generalize WgradDesc.of r.desc = d at *
  have inside : ∀ w ∈ wgradStage s.ms d ++ d.cells s.ms f (r.desc.drop 64), d.out ≤ w.1 ∧ w.1 + w.2.length ≤ d.out + (d.outBytes + d.stageBytes) := by
    intro w hw
    rcases List.mem_append.mp hw with hw | hw
    · have stage := wgradStage_place d s.ms hw
      omega
    · obtain ⟨k, n, hk, hn, -, rfl⟩ := (d.mem_cells s.ms f _).mp hw
      have place := d.at_place hk hn
      dsimp only
      rw [length_leBytes]
      omega
  obtain ⟨t, run, done⟩ := (((State.Ran.refl s c).setPlane false {}).setPlane true {}).exec_commit (u := .ox) calm next left rfl reads
    (writes ▸ fun w hw => isHbm_up outO (inside w hw).1) healthy good
  have planes := done.planes
  rw [writes] at done
  have plane (i : Bool) : (t.core c).plane i = {} := (congrArg (fun v : Vector OxPlane 2 => v.getD (b2n i) {}) planes).trans (s.emptyPlanes_plane c i)
  refine ⟨t, run, done.finished, done.others, plane false, plane true, done.storesOnly wf (fun w hw => ⟨_, .head _, inside w hw⟩), fun k hk n hn => ?_⟩
  have cell (i : Nat) (hi : i < 4) := d.storedAt_cell s.ms f (r.desc.drop 64) hk hn hi
  split
  · next frozen =>
    refine MemSys.word_kept (fun i hi => ?_)
    rw [done.byte wf, cell i hi, if_pos frozen]
    rfl
  · next free =>
    have settled : Settled (d.chain s.ms f k n).1 := chain32_settled _ (plainBlocks_ne_nil _ _ tokens) plainBlocks_settled
    refine (MemSys.word_of_bytes (x := f32bits (f32val (d.chain s.ms f k n).1)) ?_).trans settled
    have word := done.bytes wf (a := d.at_ k n) (bs := leBytes 4 (f32bits (f32val (d.chain s.ms f k n).1)).toNat)
      (fun i hi => by rw [cell i (length_leBytes 4 _ ▸ hi), if_neg free])
    rw [length_leBytes] at word
    exact word

end

/-- Settles O14: each result is the chain over its K-blocks, and what the chain ends in rounds to itself. -/
theorem matrixResults : Obligations.MatrixResults := by
  intro c i s r calm wf next
  refine ⟨fun inp out rows plane dir fi fo acc sr kb op inside => exec_mm calm wf next op inside,
    fun d plane shape op insideF insideB apart => exec_dual calm wf next op insideF insideB apart, fun d op f fmts pairs tokens inX inY inO => ?_⟩
  have fmt := unscaled_of fmts
  obtain ⟨t, run, fin, others, first, second, only, words⟩ := exec_wgrad calm wf next op fmt pairs tokens (inSram_sram inX) (inSram_sram inY) (inSram_sram inO)
  refine ⟨t, run, fin, others, first, second, only, fun k hk n hn => ?_⟩
  generalize WgradDesc.of r.desc = x at *
  have xs : (List.range x.t).map (fun u => (s.ms.values f (x.x + u * x.xp) x.k).getD k .nan) = (List.range x.t).map (x.xAt s.ms f k) :=
    List.map_congr_left (fun u _ => s.ms.values_getD fmt.whole _ hk _)
  have ys : (List.range x.t).map (fun u => (s.ms.values f (x.dy + u * x.dyp) x.n).getD n .nan) = (List.range x.t).map (x.yAt s.ms f n) :=
    List.map_congr_left (fun u _ => s.ms.values_getD fmt.whole _ hn _)
  dsimp only
  rw [xs, ys]
  exact words k hk n hn

end Sys2Proof.Machine
end

section
/-! PROOFS. O15 RowResults: rows, statistics and parameters as words in memory (R149 to R151). -/

namespace Sys2Proof.Machine

set_option Elab.async false -- in turn: many waiting threads need much memory

/-! ## Words among the results of an operation -/

/-- A word that one write alone puts at a. -/
theorem State.Committed.word_at {s x t : State} {c : CoreId} {u : EngUnit} {q : QEntry} {ws : List (Nat × List Byte)} (h : s.Committed x t c u q ws)
    (wf : s.ms.mem.wf 0 = true) {a : Nat} {v : BitVec 32} {w : Nat × List Byte} (mine : w ∈ ws)
    (part : ∀ i, i < 4 → w.1 ≤ a + i ∧ w.2[a + i - w.1]? = (leBytes 4 v.toNat)[i]?)
    (alone : ∀ w' ∈ ws, ∀ i, i < 4 → w'.1 ≤ a + i ∧ a + i < w'.1 + w'.2.length → w' = w) : t.ms.word a = v := by
  have bytes := h.bytes wf (a := a) (bs := leBytes 4 v.toNat) (fun i hi => by
    have small : i < 4 := length_leBytes 4 _ ▸ hi
    obtain ⟨low, same⟩ := part i small
    have inside : a + i - w.1 < w.2.length := by
      rw [List.getElem?_eq_getElem hi] at same
      exact (List.getElem?_eq_some_iff.mp same).1
    exact (storedAt_alone mine ⟨low, by omega⟩ (fun w' hw' cover => alone w' hw' i small cover)).trans same)
  rw [length_leBytes] at bytes
  exact MemSys.word_of_bytes bytes

/-- n words from a on. -/
def wordsAt (a n : Nat) (g : Nat → BitVec 32) : List (Nat × List Byte) := (List.range n).map (fun j => (a + 4 * j, leBytes 4 (g j).toNat))

theorem mem_wordsAt {a n : Nat} {g : Nat → BitVec 32} {w : Nat × List Byte} : w ∈ wordsAt a n g ↔ ∃ j, j < n ∧ w = (a + 4 * j, leBytes 4 (g j).toNat) := by
  unfold wordsAt
  rw [List.mem_map]
  exact ⟨fun ⟨j, hj, e⟩ => ⟨j, List.mem_range.mp hj, e.symm⟩, fun ⟨j, hj, e⟩ => ⟨j, List.mem_range.mpr hj, e.symm⟩⟩

theorem wordsAt_within {a n : Nat} {g : Nat → BitVec 32} {w : Nat × List Byte} (hw : w ∈ wordsAt a n g) : a ≤ w.1 ∧ w.1 + w.2.length ≤ a + 4 * n := by
  obtain ⟨j, hj, rfl⟩ := mem_wordsAt.mp hw
  dsimp only
  rw [length_leBytes]
  omega

/-- One of n words in memory, where no other write meets them. -/
theorem State.Committed.wordsAt {s x t : State} {c : CoreId} {u : EngUnit} {q : QEntry} {ws : List (Nat × List Byte)} (h : s.Committed x t c u q ws)
    (wf : s.ms.mem.wf 0 = true) {a n : Nat} {g : Nat → BitVec 32} (mine : ∀ w ∈ wordsAt a n g, w ∈ ws)
    (others : ∀ w ∈ ws, w ∈ Machine.wordsAt a n g ∨ w.1 + w.2.length ≤ a ∨ a + 4 * n ≤ w.1) {j : Nat} (hj : j < n) : t.ms.word (a + 4 * j) = g j := by
  refine h.word_at wf (w := (a + 4 * j, leBytes 4 (g j).toNat)) (mine _ (mem_wordsAt.mpr ⟨j, hj, rfl⟩)) (fun i hi => ⟨Nat.le_add_right _ _, ?_⟩)
    (fun w hw i hi cover => ?_)
  · dsimp only
    rw [Nat.add_sub_cancel_left]
  · rcases others w hw with words | out
    · obtain ⟨j', hj', rfl⟩ := mem_wordsAt.mp words
      dsimp only at cover
      rw [length_leBytes] at cover
      rw [show j' = j from by omega]
    · omega

/-! ## Rows one after the other (R149) -/

theorem RowDesc.at_plain {d : RowDesc} (plain : d.layout = false) (a : Nat) (fmt : BitVec 4) (m j : Nat) :
    d.at_ a fmt m j = a + m * rowPitch fmt d.len + j * elemBytes fmt := by
  unfold RowDesc.at_
  rw [if_neg (Bool.eq_false_iff.mp plain)]

/-- Bytes of the rows of FP32 elements. -/
theorem RowDesc.span_plain {d : RowDesc} (plain : d.layout = false) (rows : 1 ≤ d.rows) (len : 1 ≤ d.len) :
    d.span 2 = (d.rows - 1) * rowPitch 2 d.len + 4 * d.len := by
  unfold RowDesc.span
  rw [if_neg (by omega), RowDesc.at_plain plain]
  show 0 + (d.rows - 1) * rowPitch 2 d.len + (d.len - 1) * 4 + 4 = _
  omega

theorem rowPitch_fp32_le (n : Nat) : 4 * n ≤ rowPitch 2 n := by
  have bytes : rowElemBytes 2 n = 4 * n := by
    unfold rowElemBytes ceilDiv
    show (n * 32 + 8 - 1) / 8 = 4 * n
    omega
  have plain : rowBytes 2 n = rowElemBytes 2 n := rfl
  unfold rowPitch roundUp ceilDiv
  omega

/-- Row m of an operand lies within its bytes. -/
theorem RowDesc.row_within {d : RowDesc} (plain : d.layout = false) (len : 1 ≤ d.len) {m : Nat} (hm : m < d.rows) :
    m * rowPitch 2 d.len + 4 * d.len ≤ d.span 2 := by
  rw [RowDesc.span_plain plain (by omega) len]
  have := Nat.mul_le_mul_right (rowPitch 2 d.len) (show m ≤ d.rows - 1 from by omega)
  omega

/-- Rows lie apart. -/
theorem rows_apart (n : Nat) {m m' : Nat} (ne : m' ≠ m) :
    m * rowPitch 2 n + 4 * n ≤ m' * rowPitch 2 n ∨ m' * rowPitch 2 n + 4 * n ≤ m * rowPitch 2 n := by
  have pitch := rowPitch_fp32_le n
  rcases Nat.lt_or_ge m m' with less | more
  · have step := Nat.mul_le_mul_right (rowPitch 2 n) (show m + 1 ≤ m' from less)
    rw [Nat.succ_mul] at step
    omega
  · have step := Nat.mul_le_mul_right (rowPitch 2 n) (show m' + 1 ≤ m from by omega)
    rw [Nat.succ_mul] at step
    omega

section
variable (ms : MemSys) {d : RowDesc} (plain : d.layout = false) {a : Nat} (out : isHbm a = false) (m : Nat)
include plain out

theorem rowRead_plain : rowRead ms d a 2 m = (ms.codes .fp32 (a + m * rowPitch 2 d.len) d.len).map (elemRead .fp32) := by
  unfold rowRead MemSys.codes
  rw [List.map_map]
  refine List.map_congr_left (fun j _ => ?_)
  have elem := ms.elemAt_whole whole_fp32 (a := d.at_ a 2 m j) (by rw [d.at_plain plain]; exact isHbm_up out (by omega)) 0
  rw [Nat.zero_mul, Nat.zero_mul, d.at_plain plain] at elem
  rw [d.at_plain plain]
  exact elem

/-- The patterns of a row. -/
theorem bitsOf_rowRead : bitsOf (rowRead ms d a 2 m) = ms.f32s .fp32 (a + m * rowPitch 2 d.len + 4 * 0) d.len := by
  rw [rowRead_plain ms plain out, bitsOf, List.map_map, MemSys.f32s, MemSys.values, List.map_map, Nat.mul_zero, Nat.add_zero]
  rfl

theorem rowRead_healthy : (rowRead ms d a 2 m).any RElem.bad = false := by
  rw [rowRead_plain ms plain out, List.any_map, List.any_eq_false]
  exact fun _ _ => Bool.false_ne_true

end

/-- A pattern as it stands in memory: rounded again. -/
def again (x : BitVec 32) : BitVec 32 := f32bits (f32val x)

/-- The words of a row that is written. -/
theorem rowWrite_words {d : RowDesc} (plain : d.layout = false) (a : Nat) (m : Nat) (vs : List Sat32) :
    (rowWrite d a 2 none m vs).1 = wordsAt (a + m * rowPitch 2 d.len) vs.length (fun j => again (vs.getD j (0, false)).1) := by
  unfold rowWrite wordsAt
  dsimp only
  rw [List.map_map]
  refine List.ext_getElem (by simp) (fun j hj hj' => ?_)
  rw [List.length_map, List.length_range] at hj'
  rw [List.getElem_map, List.getElem_map, List.getElem_zip, List.getElem_range, List.getD_eq_getElem _ _ hj']
  dsimp only [Function.comp]
  rw [writeElem_fp32, d.at_plain plain]
  refine Prod.ext ?_ rfl
  show _ + j * 4 = _ + 4 * j
  omega

/-! ## Statistics -/

theorem statAt_sram (ms : MemSys) {a : Nat} (out : isHbm a = false) (m : Nat) :
    statAt ms a m = ((ms.word (a + 8 * m), ms.word (a + 8 * m + 4)), false) := by
  unfold statAt
  dsimp only
  rw [ms.badRange_sram 8 (isHbm_up out (Nat.le_add_right _ _))]
  rfl

theorem length_statWrite (a m : Nat) (st : BitVec 32 × BitVec 32) : (statWrite a m st).2.length = 8 := by
  unfold statWrite
  rw [List.length_append, length_leBytes, length_leBytes]

/-- The two words of a row's statistics, where no other write meets them. -/
theorem State.Committed.stats {s x t : State} {c : CoreId} {u : EngUnit} {q : QEntry} {ws : List (Nat × List Byte)} (h : s.Committed x t c u q ws)
    (wf : s.ms.mem.wf 0 = true) {a m : Nat} {st : BitVec 32 × BitVec 32} (mine : statWrite a m st ∈ ws)
    (others : ∀ w ∈ ws, w = statWrite a m st ∨ w.1 + w.2.length ≤ a + 8 * m ∨ a + 8 * m + 8 ≤ w.1) :
    t.ms.word (a + 8 * m) = st.1 ∧ t.ms.word (a + 8 * m + 4) = st.2 := by
  have first (i : Nat) (hi : i < 4) : (statWrite a m st).2[i]? = (leBytes 4 st.1.toNat)[i]? :=
    List.getElem?_append_left (by rw [length_leBytes]; exact hi)
  have second (i : Nat) : (statWrite a m st).2[4 + i]? = (leBytes 4 st.2.toNat)[i]? := by
    refine (List.getElem?_append_right (by rw [length_leBytes]; omega)).trans ?_
    rw [length_leBytes, Nat.add_sub_cancel_left]
  have place : (statWrite a m st).1 = a + 8 * m := rfl
  refine ⟨h.word_at wf mine (fun i hi => ⟨by rw [place]; omega, ?_⟩) (fun w hw i hi cover => ?_),
    h.word_at wf mine (fun i hi => ⟨by rw [place]; omega, ?_⟩) (fun w hw i hi cover => ?_)⟩
  · rw [place, Nat.add_sub_cancel_left]
    exact first i hi
  · rcases others w hw with e | out
    · exact e
    · omega
  · rw [place, Nat.add_assoc, Nat.add_sub_cancel_left]
    exact second i
  · rcases others w hw with e | out
    · exact e
    · omega

end Sys2Proof.Machine
end

section
/-! PROOFS. O15 RowResults: what FWD and BWD of rows write (R147 to R151). -/

namespace Sys2Proof.Machine

set_option Elab.async false -- in turn: many waiting threads need much memory

/-! ## The writes of rows -/

/-- Rows of n words from base on, and statistics, of so many rows: each where there is one. -/
def rowWrites (rows n base : Nat) (y : Option (Nat → Nat → BitVec 32)) (stat : Option (Nat × (Nat → BitVec 32 × BitVec 32))) : List (Nat × List Byte) :=
  (List.range rows).flatMap (fun m =>
    ((y.map (fun g => wordsAt (base + m * rowPitch 2 n) n (g m))).getD []) ++ (stat.map (fun x => statWrite x.1 m (x.2 m))).toList)

section
variable {rows n base : Nat} {y : Option (Nat → Nat → BitVec 32)} {stat : Option (Nat × (Nat → BitVec 32 × BitVec 32))} {w : Nat × List Byte}

theorem mem_rowWrites : w ∈ rowWrites rows n base y stat ↔ ∃ m, m < rows ∧
    ((∃ g, y = some g ∧ w ∈ wordsAt (base + m * rowPitch 2 n) n (g m)) ∨ ∃ x, stat = some x ∧ w = statWrite x.1 m (x.2 m)) := by
  unfold rowWrites
  rw [List.mem_flatMap]
  refine ⟨fun ⟨m, hm, hw⟩ => ⟨m, List.mem_range.mp hm, ?_⟩, fun ⟨m, hm, hw⟩ => ⟨m, List.mem_range.mpr hm, ?_⟩⟩
  · rcases List.mem_append.mp hw with hw | hw
    · cases y with
      | none => exact nomatch hw
      | some g => exact .inl ⟨g, rfl, hw⟩
    · cases stat with
      | none => exact nomatch hw
      | some x => exact .inr ⟨x, rfl, List.mem_singleton.mp hw⟩
  · rcases hw with ⟨g, rfl, hw⟩ | ⟨x, rfl, rfl⟩
    · exact List.mem_append_left _ hw
    · exact List.mem_append_right _ (.head _)

/-- Where the writes of rows lie. -/
theorem rowWrites_within {span : Nat} (fits : ∀ m, m < rows → m * rowPitch 2 n + 4 * n ≤ span) (hw : w ∈ rowWrites rows n base y stat) :
    (y ≠ none ∧ base ≤ w.1 ∧ w.1 + w.2.length ≤ base + span) ∨ ∃ x, stat = some x ∧ x.1 ≤ w.1 ∧ w.1 + w.2.length ≤ x.1 + 8 * rows := by
  obtain ⟨m, hm, ⟨g, rfl, words⟩ | ⟨x, rfl, rfl⟩⟩ := mem_rowWrites.mp hw
  · have within := wordsAt_within words
    have fit := fits m hm
    exact .inl ⟨Option.some_ne_none _, by omega, by omega⟩
  · refine .inr ⟨x, rfl, ?_, ?_⟩
    · show x.1 ≤ x.1 + 8 * m
      omega
    · rw [length_statWrite]
      show x.1 + 8 * m + 8 ≤ _
      omega

end

section
variable {s x t : State} {c : CoreId} {u : EngUnit} {q : QEntry} {rows n base span : Nat} {y : Option (Nat → Nat → BitVec 32)}
  {stat : Option (Nat × (Nat → BitVec 32 × BitVec 32))} {more : List (Nat × List Byte)}
  (h : s.Committed x t c u q (rowWrites rows n base y stat ++ more)) (wf : s.ms.mem.wf 0 = true)
  (fits : ∀ m, m < rows → m * rowPitch 2 n + 4 * n ≤ span)
include h wf fits

/-- The words of the rows, where statistics and what else is written lie apart. -/
theorem State.Committed.row_word {g : Nat → Nat → BitVec 32} (some_ : y = some g)
    (apart : ∀ x, stat = some x → base + span ≤ x.1 ∨ x.1 + 8 * rows ≤ base)
    (out : ∀ w ∈ more, w.1 + w.2.length ≤ base ∨ base + span ≤ w.1) {m j : Nat} (hm : m < rows) (hj : j < n) :
    t.ms.word (base + m * rowPitch 2 n + 4 * j) = g m j := by
  have fit := fits m hm
  refine h.wordsAt wf (a := base + m * rowPitch 2 n) (n := n) (g := g m)
    (fun w hw => List.mem_append_left _ (mem_rowWrites.mpr ⟨m, hm, .inl ⟨g, some_, hw⟩⟩)) (fun w hw => ?_) hj
  rcases List.mem_append.mp hw with hw | hw
  · have within := rowWrites_within fits hw
    obtain ⟨m', hm', ⟨g', hg, words⟩ | ⟨x, hx, rfl⟩⟩ := mem_rowWrites.mp hw
    · by_cases same : m' = m
      · rw [some_] at hg
        rw [same, ← Option.some.inj hg] at words
        exact .inl words
      · have place := wordsAt_within words
        have far := rows_apart n same
        omega
    · have far := apart x hx
      refine .inr ?_
      rw [length_statWrite]
      show x.1 + 8 * m' + 8 ≤ _ ∨ _ ≤ x.1 + 8 * m'
      omega
  · have far := out w hw
    omega

omit fits in
/-- What else is written, n' words from a on, where the rows and the rest lie apart. -/
theorem State.Committed.more_word {a n' : Nat} {g : Nat → BitVec 32} (fits : ∀ m, m < rows → m * rowPitch 2 n + 4 * n ≤ span) (noStat : stat = none)
    (apart : a + 4 * n' ≤ base ∨ base + span ≤ a)
    (mine : ∀ w ∈ Machine.wordsAt a n' g, w ∈ more) (out : ∀ w ∈ more, w ∈ Machine.wordsAt a n' g ∨ w.1 + w.2.length ≤ a ∨ a + 4 * n' ≤ w.1) {j : Nat} (hj : j < n') :
    t.ms.word (a + 4 * j) = g j := by
  refine h.wordsAt wf (fun w hw => List.mem_append_right _ (mine w hw)) (fun w hw => ?_) hj
  rcases List.mem_append.mp hw with hw | hw
  · rcases rowWrites_within fits hw with ⟨-, low, high⟩ | ⟨x, hx, -⟩
    · omega
    · exact absurd (noStat ▸ hx) (Option.some_ne_none _).symm
  · exact out w hw

/-- The statistics, where the rows lie apart and nothing else is written. -/
theorem State.Committed.row_stats {a : Nat} {st : Nat → BitVec 32 × BitVec 32} (some_ : stat = some (a, st))
    (apart : y ≠ none → base + span ≤ a ∨ a + 8 * rows ≤ base) (none_ : more = []) {m : Nat} (hm : m < rows) :
    t.ms.word (a + 8 * m) = (st m).1 ∧ t.ms.word (a + 8 * m + 4) = (st m).2 := by
  refine h.stats wf (List.mem_append_left _ (mem_rowWrites.mpr ⟨m, hm, .inr ⟨_, some_, rfl⟩⟩)) (fun w hw => ?_)
  rw [none_, List.append_nil] at hw
  have within := rowWrites_within fits hw
  obtain ⟨m', hm', ⟨g', hg, words⟩ | ⟨x, hx, rfl⟩⟩ := mem_rowWrites.mp hw
  · have place := wordsAt_within words
    have fit := fits m' hm'
    have far := apart (hg ▸ Option.some_ne_none _)
    omega
  · rw [some_] at hx
    rw [← Option.some.inj hx]
    by_cases same : m' = m
    · exact .inl (by rw [same])
    · refine .inr ?_
      rw [length_statWrite]
      show a + 8 * m' + 8 ≤ _ ∨ _ ≤ a + 8 * m'
      omega

end

/-! ## Forward -/

theorem length_rowY (kind : Nat) (st : BitVec 32 × BitVec 32) (xs : List (BitVec 32)) (g b : Option (List (BitVec 32))) : (rowY kind st xs g b).length = xs.length := by
  unfold rowY rowHat
  split
  · exact List.length_map _
  · simp

theorem MemSys.length_f32s (ms : MemSys) (f : Elem) (a n : Nat) : (ms.f32s f a n).length = n := by
  rw [MemSys.f32s, List.length_map, MemSys.values, List.length_map, MemSys.codes, List.length_map, List.length_range]

/-- Gain and bias of the rows. -/
def rowGainBits (ms : MemSys) (d : RowDesc) (kind : Nat) : Option (List (BitVec 32)) := if kind ≠ 2 ∧ d.f 0 then some (ms.f32s .fp32 d.gb d.len) else none

@[inherit_doc rowGainBits]
def rowBiasBits (ms : MemSys) (d : RowDesc) (kind : Nat) : Option (List (BitVec 32)) :=
  if kind = 0 ∧ d.f 1 then some (ms.f32s .fp32 (d.gb + d.half 4) d.len) else none

section
variable {ms : MemSys} {d : RowDesc} {kind : Nat} (xf : d.xf = 2) (len : 1 ≤ d.len) (outG : d.gbSpan kind ≠ 0 → isHbm d.gb = false)
include xf len outG

theorem rowGain_bits : (rowGain ms d kind).1.map bitsOf = rowGainBits ms d kind ∧ (rowGain ms d kind).2.map bitsOf = rowBiasBits ms d kind ∧
    ((rowGain ms d kind).1.getD []).any RElem.bad = false ∧ ((rowGain ms d kind).2.getD []).any RElem.bad = false := by
  have size : elemBytes d.xf = 4 := by rw [xf]; rfl
  have bits {a : Nat} (out : isHbm a = false) : bitsOf (ms.rowElems 2 a d.len) = ms.f32s .fp32 a d.len := by
    rw [MemSys.f32s, ← ms.rowElems_values whole_fp32 out, List.map_map]
    rfl
  unfold rowGain rowGainBits rowBiasBits
  dsimp only
  rw [xf]
  refine ⟨?_, ?_, ?_, ?_⟩
  all_goals
    split
  · next h =>
    have out := outG (by
      unfold RowDesc.gbSpan
      dsimp only
      rw [if_neg h.1, size, if_pos h.2]
      split <;> omega)
    exact congrArg some (bits out)
  · rfl
  · next h =>
    have out := outG (by
      unfold RowDesc.gbSpan
      dsimp only
      rw [if_neg (by omega), size, if_pos h]
      omega)
    exact congrArg some (bits (isHbm_up out (Nat.le_add_right _ _)))
  · rfl
  · next h =>
    have out := outG (by
      unfold RowDesc.gbSpan
      dsimp only
      rw [if_neg h.1, size, if_pos h.2]
      split <;> omega)
    exact ms.rowElems_healthy whole_fp32 out _
  · rfl
  · next h =>
    have out := outG (by
      unfold RowDesc.gbSpan
      dsimp only
      rw [if_neg (by omega), size, if_pos h]
      omega)
    exact ms.rowElems_healthy whole_fp32 (isHbm_up out (Nat.le_add_right _ _)) _
  · rfl

end

/-- The elements of row m. -/
def rowXs (ms : MemSys) (d : RowDesc) (a m : Nat) : List (BitVec 32) := ms.f32s .fp32 (a + m * rowPitch 2 d.len + 4 * 0) d.len

/-- The statistics that row m of a FWD uses, with those at a. -/
def rowUses (ms : MemSys) (d : RowDesc) (kind a : Nat) (fold apply : Bool) (m : Nat) : BitVec 32 × BitVec 32 :=
  let old := (ms.word (a + 8 * m), ms.word (a + 8 * m + 4))
  let own := rowStats kind d.eps (rowXs ms d d.x m)
  let new := if fold then rowFold old own else own
  if apply then old else (new.1.1, new.2.1)

/-- Element j of row m that a FWD writes. -/
def rowYWord (ms : MemSys) (d : RowDesc) (kind a : Nat) (fold apply : Bool) (m j : Nat) : BitVec 32 :=
  again ((rowY kind (rowUses ms d kind a fold apply m) (rowXs ms d d.x m) (rowGainBits ms d kind) (rowBiasBits ms d kind)).getD j (0, false)).1

section
variable {ms : MemSys} {k : KcgSel} {d : RowDesc} {kind a : Nat} {fold apply : Bool} (xf : d.xf = 2) (yf : d.yf = 2) (plain : d.layout = false)
  (sr : d.f 4 = false) (len : 1 ≤ d.len) (outX : isHbm d.x = false) (outG : d.gbSpan kind ≠ 0 → isHbm d.gb = false) (outA : isHbm a = false)
include xf yf plain sr len outX outG outA

theorem rowFwd_writes : (rowFwd ms k d kind (some a) fold apply).writes = rowWrites d.rows d.len d.ydy
      (if d.writesY kind then some (rowYWord ms d kind a fold apply) else none) (if apply then none else some (a, rowUses ms d kind a fold apply)) ∧
    (rowFwd ms k d kind (some a) fold apply).poison = [] ∧ (rowFwd ms k d kind (some a) fold apply).err = false := by
  obtain ⟨gain, bias, goodG, goodB⟩ := rowGain_bits (ms := ms) xf len outG
  have old (m : Nat) : (if apply || fold then statAt ms a m else ((0, 0), false)).2 = false := by
    split
    · rw [statAt_sram ms outA]
    · rfl
  have uses (m : Nat) : (if apply then (if apply || fold then statAt ms a m else ((0, 0), false)).1 else
      ((if fold then rowFold (if apply || fold then statAt ms a m else ((0, 0), false)).1 (rowStats kind d.eps (rowXs ms d d.x m))
          else rowStats kind d.eps (rowXs ms d d.x m)).1.1,
        (if fold then rowFold (if apply || fold then statAt ms a m else ((0, 0), false)).1 (rowStats kind d.eps (rowXs ms d d.x m))
          else rowStats kind d.eps (rowXs ms d d.x m)).2.1)) = rowUses ms d kind a fold apply m := by
    unfold rowUses
    dsimp only
    cases apply <;> cases fold <;> simp [statAt_sram ms outA]
  unfold rowFwd
  dsimp only
  simp only [gain, bias, xf, yf, sr, bitsOf_rowRead ms plain outX, Bool.false_eq_true, if_false]
  refine ⟨?_, trivial, ?_⟩
  · rw [List.flatMap_map]
    unfold rowWrites
    refine List.flatMap_congr (fun m _ => ?_)
    have same := uses m
    unfold rowXs at same
    dsimp only [Option.getD_some]
    rw [same]
    refine congr (congrArg List.append ?_) ?_
    · split
      · rw [rowWrite_words plain, length_rowY, ms.length_f32s]
        rfl
      · rfl
    · split
      · rfl
      · rfl
  · refine Bool.or_eq_false_iff.mpr ⟨?_, ?_⟩
    · rw [List.any_append, goodG, goodB]
      rfl
    · rw [List.any_map, List.any_eq_false]
      intro m _
      refine Bool.eq_false_iff.mp ?_
      show (List.any _ _ || _) = false
      rw [rowRead_healthy ms plain outX]
      exact old m

end

end Sys2Proof.Machine
end

section
/-! PROOFS. O15 RowResults: what BWD of rows writes (R151). -/

namespace Sys2Proof.Machine

set_option Elab.async false -- in turn: many waiting threads need much memory

/-! ## Backward -/

/-- The statistics of row m. -/
def rowOld (ms : MemSys) (a m : Nat) : BitVec 32 × BitVec 32 := (ms.word (a + 8 * m), ms.word (a + 8 * m + 4))

/-- What BWD makes of row m. -/
def rowGrads (ms : MemSys) (d : RowDesc) (kind a m : Nat) : RowGrad :=
  rowBack kind (rowOld ms a m) (rowXs ms d d.x m) (rowXs ms d d.ydy m) (rowGainBits ms d kind)

/-- dx of row m before its rounding. -/
def rowDx (ms : MemSys) (d : RowDesc) (kind a m : Nat) : List Sat32 :=
  if d.xent kind then rowXent (rowOld ms a m) (rowXs ms d d.x m) d.eps.toNat (ms.le (d.ydy + 4 * m) 4) else (rowGrads ms d kind a m).dx

/-- A word of dx. -/
def rowDxWord (ms : MemSys) (d : RowDesc) (kind a m j : Nat) : BitVec 32 := again ((rowDx ms d kind a m).getD j (0, false)).1

/-- A word of dg or db: the chain of its terms over the rows. -/
def rowSum (ms : MemSys) (d : RowDesc) (off : Nat) (terms : Nat → Nat → Sat32) (j : Nat) : BitVec 32 :=
  again (chain32 (if d.f 2 then some (ms.word (d.dgb + off + 4 * j)) else none) ((List.range d.rows).map (terms j))).1

/-- The words of dg and db. -/
def rowParams (ms : MemSys) (d : RowDesc) (kind a : Nat) : List (Nat × List Byte) :=
  (if kind = 2 then [] else wordsAt (d.dgb + 0) d.len (rowSum ms d 0 (fun j m => (rowGrads ms d kind a m).dg.getD j (0, false)))) ++
  (if kind = 0 then wordsAt (d.dgb + d.half 4) d.len (rowSum ms d (d.half 4) (fun j m => (rowGrads ms d kind a m).db.getD j (0, false))) else [])

theorem length_rowXent (st : BitVec 32 × BitVec 32) (xs : List (BitVec 32)) (col label : Nat) : (rowXent st xs col label).length = xs.length := by
  unfold rowXent
  split
  · exact List.length_map _
  · simp [length_rowY]

theorem length_rowBack {kind : Nat} {st : BitVec 32 × BitVec 32} {xs dy : List (BitVec 32)} {g : Option (List (BitVec 32))} (same : dy.length = xs.length)
    (gain : ∀ l, g = some l → l.length = xs.length) : (rowBack kind st xs dy g).dx.length = xs.length := by
  unfold rowBack
  split
  · simp [length_rowY, same]
  · cases g with
    | none => simp [rowHat, same]
    | some l => simp [rowHat, same, gain l rfl]

section
variable {ms : MemSys} {d : RowDesc} {kind a : Nat}

theorem length_rowDx (m : Nat) : (rowDx ms d kind a m).length = d.len := by
  unfold rowDx
  split
  · rw [length_rowXent, rowXs, ms.length_f32s]
  · unfold rowGrads
    rw [length_rowBack, rowXs, ms.length_f32s]
    · rw [rowXs, rowXs, ms.length_f32s, ms.length_f32s]
    · intro l hl
      unfold rowGainBits at hl
      split at hl
      · rw [← Option.some.inj hl, rowXs, ms.length_f32s, ms.length_f32s]
      · exact nomatch hl

theorem xent_kind (h : d.xent kind = true) : kind = 2 := by
  unfold RowDesc.xent at h
  exact eq_of_beq (Bool.and_eq_true_iff.mp h).1

end

section
variable {ms : MemSys} {k : KcgSel} {d : RowDesc} {kind a : Nat} (kinds : kind ≤ 2) (xf : d.xf = 2) (yf : d.yf = 2) (plain : d.layout = false)
  (sr : d.f 4 = false) (len : 1 ≤ d.len) (outX : isHbm d.x = false) (outY : isHbm d.ydy = false) (outG : d.gbSpan kind ≠ 0 → isHbm d.gb = false)
  (outP : d.dgbSpan kind ≠ 0 → isHbm d.dgb = false) (outA : isHbm a = false)
include kinds xf yf plain sr len outX outY outG outP outA

theorem rowBwd_writes : (rowBwd ms k d kind a).writes =
      rowWrites d.rows d.len d.dx (some (rowDxWord ms d kind a)) none ++ rowParams ms d kind a ∧
    (rowBwd ms k d kind a).poison = [] ∧ (rowBwd ms k d kind a).err = false := by
  obtain ⟨gain, -, goodG, -⟩ := rowGain_bits (ms := ms) xf len outG
  obtain ⟨⟨g, b⟩, hg⟩ : ∃ p, p = rowGain ms d kind := ⟨_, rfl⟩
  rw [← hg] at gain goodG
  unfold rowBwd
  rw [← hg]
  dsimp -zeta only
  extract_lets gb sel one rs param dg db
  have rows_ (m : Nat) : (one m).1 = wordsAt (d.dx + m * rowPitch 2 d.len) d.len (rowDxWord ms d kind a m) ∧ (one m).2.2.1 = false ∧
      (kind ≠ 2 → (one m).2.2.2 = rowGrads ms d kind a m) := by
    have dx : rowDx ms d kind a m = (one m).2.2.2.dx := by
      unfold rowDx rowGrads rowOld rowXs
      simp only [one, gb, xf, yf, bitsOf_rowRead ms plain outX, bitsOf_rowRead ms plain outY, statAt_sram ms outA,
        ms.badRange_sram 4 (isHbm_up outY (Nat.le_add_right _ _)), Bool.false_eq_true, if_false, gain]
      split
      · rfl
      · rfl
    have words : (one m).1 = (rowWrite d d.dx 2 none m (one m).2.2.2.dx).1 := by
      simp only [one, sel, sr, xf, Bool.false_eq_true, if_false]
      split
      · rfl
      · rfl
    refine ⟨?_, ?_, fun other => ?_⟩
    · rw [words, ← dx, rowWrite_words plain, length_rowDx]
      rfl
    · simp only [one]
      split
      · rw [xf, rowRead_healthy ms plain outX, ms.badRange_sram 4 (isHbm_up outY (Nat.le_add_right _ _)), statAt_sram ms outA]
        rfl
      · rw [xf, yf, List.any_append, rowRead_healthy ms plain outX, rowRead_healthy ms plain outY, statAt_sram ms outA]
        rfl
    · simp only [one, gb, if_neg (fun h => other (xent_kind h)), xf, yf, bitsOf_rowRead ms plain outX, bitsOf_rowRead ms plain outY, statAt_sram ms outA, gain]
      rfl
  have params (off j : Nat) (terms : List Sat32) (other : kind ≠ 2) : (param off j terms).1 = (d.dgb + off + 4 * j,
      leBytes 4 (again (chain32 (if d.f 2 then some (ms.word (d.dgb + off + 4 * j)) else none) terms).1).toNat) ∧ (param off j terms).2.2 = false := by
    have out : isHbm (d.dgb + off + 4 * j) = false := isHbm_up (outP (by
      unfold RowDesc.dgbSpan
      rcases Nat.lt_or_ge kind 1 with zero | one_
      · rw [show kind = 0 from by omega]
        show d.half 4 + 4 * d.len ≠ 0
        omega
      · rw [show kind = 1 from by omega]
        show 4 * d.len ≠ 0
        omega)) (by omega)
    obtain ⟨word, good⟩ := ms.accRead_sram out
    simp only [param]
    rw [writeElem_fp32]
    split
    · exact ⟨by rw [← word]; rfl, good⟩
    · exact ⟨rfl, rfl⟩
  have sums (off : Nat) (p : RowGrad → List Sat32) (j : Nat) (other : kind ≠ 2) : param off j (rs.map (fun x => (p x.2.2.2).getD j (0, false))) =
      param off j ((List.range d.rows).map (fun m => (p (rowGrads ms d kind a m)).getD j (0, false))) := by
    refine congrArg (param off j) ?_
    simp only [rs]
    rw [List.map_map]
    exact List.map_congr_left (fun m _ => congrArg (fun x => (p x).getD j (0, false)) ((rows_ m).2.2 other))
  refine ⟨?_, rfl, ?_⟩
  · refine congr (congrArg List.append ?_) ?_
    · simp only [rs]
      rw [List.flatMap_map]
      unfold rowWrites
      exact List.flatMap_congr (fun m _ => ((rows_ m).1).trans (List.append_nil _).symm)
    · rw [List.map_append]
      unfold rowParams
      refine congr (congrArg List.append ?_) ?_
      · simp only [dg]
        split
        · rfl
        · next other =>
          rw [List.map_map]
          exact List.map_congr_left (fun j _ => by rw [Function.comp, sums 0 RowGrad.dg j other, (params 0 j _ other).1]; rfl)
      · simp only [db]
        split
        · next zero =>
          rw [List.map_map]
          exact List.map_congr_left (fun j _ => by
            rw [Function.comp, sums (d.half 4) RowGrad.db j (by omega), (params (d.half 4) j _ (by omega)).1]
            rfl)
        · rfl
  · refine Bool.or_eq_false_iff.mpr ⟨Bool.or_eq_false_iff.mpr ⟨goodG, ?_⟩, ?_⟩
    · simp only [rs]
      rw [List.any_map, List.any_eq_false]
      exact fun m _ => Bool.eq_false_iff.mp (rows_ m).2.1
    · rw [List.any_append]
      refine Bool.or_eq_false_iff.mpr ⟨?_, ?_⟩
      · simp only [dg]
        split
        · rfl
        · next other =>
          rw [List.any_map, List.any_eq_false]
          exact fun j _ => Bool.eq_false_iff.mp (params 0 j _ other).2
      · simp only [db]
        split
        · next zero =>
          rw [List.any_map, List.any_eq_false]
          exact fun j _ => Bool.eq_false_iff.mp (params (d.half 4) j _ (by omega)).2
        · rfl

end

end Sys2Proof.Machine
end

section
/-! PROOFS. O15 RowResults: rows that complete (R147 to R156). -/

namespace Sys2Proof.Machine

set_option Elab.async false -- in turn: many waiting threads need much memory

/-! ## What rows read -/

section
variable {d : RowDesc} (plain : d.layout = false)
include plain

theorem rowRuns_sram {a : Nat} (out : isHbm a = false) (fmt : BitVec 4) (m : Nat) : ∀ x ∈ d.rowRuns a fmt m, isHbm x.1 = false := by
  intro x hx
  unfold RowDesc.rowRuns at hx
  dsimp only at hx
  rw [if_neg (Bool.eq_false_iff.mp plain)] at hx
  rw [List.mem_singleton.mp hx, d.at_plain plain]
  exact isHbm_up out (by omega)

theorem rowPasses_sram {a : Nat} (out : isHbm a = false) (two : Bool) (fmt : BitVec 4) : ∀ x ∈ d.passes two a fmt, isHbm x.1 = false := by
  intro x hx
  obtain ⟨m, -, hx⟩ := List.mem_flatMap.mp hx
  rcases List.mem_append.mp hx with hx | hx
  · obtain ⟨y, hy, rfl⟩ := List.mem_map.mp (List.mem_ite_nil_right.mp hx).2
    exact rowRuns_sram plain out fmt m y hy
  · obtain ⟨y, hy, rfl⟩ := List.mem_map.mp hx
    exact rowRuns_sram plain out fmt m y hy

theorem rowPlan_sram {bwd : Bool} {kind : Nat} {stat : Option Nat} (outX : isHbm d.x = false) (outY : bwd = true → isHbm d.ydy = false)
    (outG : d.gbSpan kind ≠ 0 → isHbm d.gb = false) (outP : bwd = true → d.dgbSpan kind ≠ 0 → isHbm d.dgb = false)
    (outA : ∀ a, stat = some a → isHbm a = false) : ∀ x ∈ (d.plan bwd kind stat).all, isHbm x.1 = false := by
  intro x hx
  unfold RowDesc.plan ReadPlan.all at hx
  dsimp only at hx
  rw [List.flatten_append, List.flatten_singleton] at hx
  simp only [List.mem_append] at hx
  rcases hx with (((hx | hx) | hx) | hx) | hx | hx
  · split at hx
    · exact nomatch hx
    · next some_ =>
      rw [List.mem_singleton.mp hx]
      exact outG some_
  · cases stat with
    | none => exact nomatch hx
    | some a =>
      rw [List.mem_singleton.mp hx]
      exact outA a rfl
  · obtain ⟨back, hx⟩ := List.mem_ite_nil_right.mp hx
    rw [List.mem_singleton.mp hx]
    exact outY (Bool.and_eq_true_iff.mp back).1
  · obtain ⟨back, hx⟩ := List.mem_ite_nil_right.mp hx
    obtain ⟨first, some_⟩ := Bool.and_eq_true_iff.mp back
    rw [List.mem_singleton.mp hx]
    exact outP (Bool.and_eq_true_iff.mp first).1 (bne_iff_ne.mp some_)
  · exact rowPasses_sram plain outX _ _ x hx
  · split at hx
    · next back =>
      rw [List.flatten_singleton] at hx
      exact rowPasses_sram plain (outY (Bool.and_eq_true_iff.mp back).1) _ _ x hx
    · exact nomatch hx

end

/-! ## The directory -/

theorem State.Ran.modRow {s x : State} {c : CoreId} (h : s.Ran x c) (f : RowRegs → RowRegs) : s.Ran (x.modRow c f) c :=
  h.modCore rfl rfl (fun u => by cases u <;> rfl)

theorem State.modRow_rowr (s : State) (c : CoreId) (f : RowRegs → RowRegs) : ((s.modRow c f).core c).rowr = f (s.core c).rowr := by
  unfold State.modRow
  rw [State.core_modCore, if_pos ⟨rfl, c.isLt⟩]

theorem Core.ends_rowr (k : Core) (u : EngUnit) (id : Nat) (sg : BitVec 8) (err : Bool) : (k.ends u id sg err).rowr = k.rowr := by
  cases u <;> rfl

theorem State.Committed.rowr {s x t : State} {c : CoreId} {u : EngUnit} {q : QEntry} {ws : List (Nat × List Byte)} (h : s.Committed x t c u q ws) :
    (t.core c).rowr = (x.core c).rowr :=
  h.keeps Core.rowr (fun _ _ => rfl) (fun _ _ => rfl) (fun k id sg e => k.ends_rowr u id sg e)

theorem RowRegs.alloc_empty {r : RowRegs} (empty : r.dir = []) (c : Nat) {n : Nat} (fits : n ≤ 65536) : r.alloc c n = some 0 := by
  have none_ : r.runs c = [] := by
    unfold RowRegs.runs
    rw [empty]
    rfl
  unfold RowRegs.alloc
  rw [none_]
  simp [fits]

theorem RowRegs.place_empty {r : RowRegs} (empty : r.dir = []) : r.place = some 0 := by
  unfold RowRegs.place
  rw [empty, show (1024 : Nat) = 1023 + 1 from rfl, List.range_succ_eq_map]
  rfl

/-- The entry that a FWD makes in an empty directory. -/
def rowEntryMade (c : Nat) (d : RowDesc) (layer mb kind : Nat) (open_ : Bool) : StatEntry :=
  { idx := 0, layer := BitVec.ofNat 12 layer, mb := BitVec.ofNat 8 mb, kind := BitVec.ofNat 4 kind, backed := false, open_ := open_,
    rows := BitVec.ofNat 32 d.rows, addr := BitVec.ofNat 42 (ctlBase c) }

theorem State.rowCreate_empty {s : State} {c : Nat} {d : RowDesc} (empty : (s.core c).rowr.dir = []) (own : d.statMem = false) (rows : d.rows ≤ 524288)
    (layer mb kind : Nat) (open_ : Bool) : s.rowCreate c d layer mb kind open_ =
      (s.modRow c (fun r => { r with dir := r.dir ++ [rowEntryMade c d layer mb kind open_] }), some (ctlBase c)) := by
  have find : (s.core c).rowr.find layer mb kind = none := by
    unfold RowRegs.find
    rw [empty]
    rfl
  have granules : ceilDiv d.rows 8 ≤ 65536 := by
    unfold ceilDiv
    omega
  have addr : ((s.core c).rowr.alloc c (ceilDiv d.rows 8)).map (fun g => ctlBase c + 64 * g) = some (ctlBase c) := by
    rw [RowRegs.alloc_empty empty c granules, Option.map_some, Nat.mul_zero, Nat.add_zero]
  have place := RowRegs.place_empty empty
  unfold State.rowCreate rowEntryMade
  generalize ctlBase c = a at *
  dsimp only
  rw [find, if_neg (by decide), own, if_neg Bool.false_ne_true, addr, place]

end Sys2Proof.Machine
end

section
/-! PROOFS. O15 RowResults: the statement (R147 to R156). -/

namespace Sys2Proof.Machine

set_option Elab.async false -- in turn: many waiting threads need much memory

theorem ctlBase_sram (c : Nat) : isHbm (ctlBase c) = false := by
  rw [isHbm_false]
  unfold ctlBase
  omega

theorem ctlBase_toNat (c : CoreId) : (BitVec.ofNat 42 (ctlBase c)).toNat = ctlBase c := by
  rw [BitVec.toNat_ofNat]
  refine Nat.mod_eq_of_lt ?_
  have small := c.isLt
  unfold ctlBase
  omega

theorem RowDesc.half_le (d : RowDesc) : 4 * d.len ≤ d.half 4 := by
  unfold RowDesc.half roundUp ceilDiv
  omega

theorem RowDesc.dgbSpan_zero (d : RowDesc) : d.dgbSpan 0 = d.half 4 + 4 * d.len := rfl

theorem RowDesc.dgbSpan_one (d : RowDesc) : d.dgbSpan 1 = 4 * d.len := rfl

/-- Where the words of dg and db lie. -/
theorem rowParams_within {ms : MemSys} {d : RowDesc} {kind a : Nat} (kinds : kind ≤ 2) {w : Nat × List Byte} (hw : w ∈ rowParams ms d kind a) :
    kind ≠ 2 ∧ d.dgb ≤ w.1 ∧ w.1 + w.2.length ≤ d.dgb + d.dgbSpan kind := by
  have half := d.half_le
  rcases List.mem_append.mp hw with hw | hw
  · split at hw
    · exact nomatch hw
    · next other =>
      have within := wordsAt_within hw
      rcases (show kind = 0 ∨ kind = 1 from by omega) with rfl | rfl
      · rw [d.dgbSpan_zero]
        omega
      · rw [d.dgbSpan_one]
        omega
  · obtain ⟨rfl, hw⟩ := List.mem_ite_nil_right.mp hw
    have within := wordsAt_within hw
    rw [d.dgbSpan_zero]
    omega

theorem dgbSpan_pos {d : RowDesc} {kind : Nat} (kinds : kind ≤ 2) (other : kind ≠ 2) (len : 1 ≤ d.len) : d.dgbSpan kind ≠ 0 := by
  rcases (show kind = 0 ∨ kind = 1 from by omega) with rfl | rfl
  · rw [d.dgbSpan_zero]
    omega
  · rw [d.dgbSpan_one]
    omega

section
variable {c : CoreId} {i : Nat} {s : State} {r : REntry} {d : RowDesc} {desc layer mb kind : Nat} (desc_ : d = RowDesc.of r.desc) (calm : s.Calm)
  (next : (s.core c).row.mayComplete .row i = some r) (kinds : kind ≤ 2) (xf : d.xf = 2) (yf : d.yf = 2)
  (plain : d.layout = false) (sr : d.f 4 = false) (len : 1 ≤ d.len) (outX : isHbm d.x = false) (outG : d.gbSpan kind ≠ 0 → isHbm d.gb = false)
include desc_ calm next xf yf plain sr len outX outG

omit calm next xf yf plain sr len outX outG in
/-- What a row operation reads. -/
theorem State.readPlan_row {bwd : Bool} (op : r.q.op = some (.row bwd desc layer mb kind)) : s.readPlan c r = d.plan bwd kind
    (if bwd || d.needsEntry kind then ((s.core c).rowr.find layer mb kind).map (fun e => e.addr.toNat) else none) := by
  unfold State.readPlan State.rowPlan
  rw [op, desc_]

/-- A FWD that makes its statistics. -/
theorem exec_rowMakes (op : r.q.op = some (.row false desc layer mb kind)) (fresh : d.needsEntry kind = false) (own : d.statMem = false)
    (empty : (s.core c).rowr.dir = []) (rows : d.rows ≤ 524288) (outY : d.writesY kind = true → isHbm d.ydy = false) :
    ∃ t, exec (.operationComplete c .row i) s = .next t ∧
      s.Committed (s.modRow c (fun r => { r with dir := r.dir ++ [rowEntryMade c d layer mb kind (kind == 2 && d.seg == 1)] })) t c .row r.q
        (rowWrites d.rows d.len d.ydy (if d.writesY kind then some (rowYWord s.ms d kind (ctlBase c) false false) else none)
          (some (ctlBase c, rowUses s.ms d kind (ctlBase c) false false))) := by
  obtain ⟨writes, healthy, good⟩ := rowFwd_writes (ms := s.ms) (k := r.q.kcg) (kind := kind) (fold := false) (apply := false) xf yf plain sr len outX outG
    (ctlBase_sram c)
  have made := State.rowCreate_empty empty own rows layer mb kind (kind == 2 && d.seg == 1)
  obtain ⟨x, hx⟩ : ∃ x, x = s.modRow c (fun r => { r with dir := r.dir ++ [rowEntryMade c d layer mb kind (kind == 2 && d.seg == 1)] }) := ⟨_, rfl⟩
  rw [← hx] at made ⊢
  have ran : s.Ran x c := hx ▸ (State.Ran.refl s c).modRow _
  obtain ⟨res, hres⟩ : ∃ res, res = rowFwd s.ms r.q.kcg d kind (some (ctlBase c)) false false := ⟨_, rfl⟩
  rw [← hres] at writes healthy good
  have left : s.complete c .row r = x.commit c .row r.q 2 (s.readPlan c r) { res with err := res.err || false } := by
    unfold State.complete
    dsimp only
    rw [op]
    unfold State.runRowFwd
    dsimp only
    rw [if_neg Bool.false_ne_true, ← desc_, fresh, if_neg Bool.false_ne_true, made, ← hres]
    rfl
  have reads : ∀ z ∈ (s.readPlan c r).all, isHbm z.1 = false := by
    rw [State.readPlan_row desc_ op, fresh]
    exact rowPlan_sram plain outX (fun h => nomatch h) outG (fun h => nomatch h) (fun a h => nomatch h)
  have sram : ∀ w ∈ res.writes, isHbm w.1 = false := by
    rw [writes]
    intro w hw
    obtain ⟨m, -, ⟨g, hg, words⟩ | ⟨y, hy, rfl⟩⟩ := mem_rowWrites.mp hw
    · split at hg
      · next yes => exact isHbm_up (outY yes) (Nat.le_trans (Nat.le_add_right _ _) (wordsAt_within words).1)
      · exact nomatch hg
    · rw [← Option.some.inj hy]
      exact isHbm_up (ctlBase_sram c) (Nat.le_add_right _ _)
  obtain ⟨t, run, done⟩ := ran.exec_commit (u := .row) calm next left (hx ▸ rfl) reads sram healthy (by rw [good]; rfl)
  refine ⟨t, run, ?_⟩
  have ws : ({ res with err := res.err || false } : OpResult).writes = res.writes := rfl
  rw [ws, writes] at done
  exact done

/-- A FWD that folds into its entry's statistics, or uses them. -/
theorem exec_rowUses {e : StatEntry} (op : r.q.op = some (.row false desc layer mb kind)) (needs : d.needsEntry kind = true)
    (find : (s.core c).rowr.find layer mb kind = some e) (outA : isHbm e.addr.toNat = false) (outY : d.writesY kind = true → isHbm d.ydy = false) :
    ∃ t, exec (.operationComplete c .row i) s = .next t ∧
      s.Committed (if d.seg = 3 then s.modRow c (fun q => { q with dir := q.dir.map (fun x => if x.idx = e.idx then { x with open_ := false } else x) }) else s)
        t c .row r.q (rowWrites d.rows d.len d.ydy (if d.writesY kind then some (rowYWord s.ms d kind e.addr.toNat (!d.f 2) (d.f 2)) else none)
          (if d.f 2 then none else some (e.addr.toNat, rowUses s.ms d kind e.addr.toNat (!d.f 2) (d.f 2)))) := by
  obtain ⟨writes, healthy, good⟩ := rowFwd_writes (ms := s.ms) (k := r.q.kcg) (kind := kind) (fold := !d.f 2) (apply := d.f 2) xf yf plain sr len outX outG outA
  obtain ⟨x, hx⟩ : ∃ x, x = if d.seg = 3 then
    s.modRow c (fun q => { q with dir := q.dir.map (fun x => if x.idx = e.idx then { x with open_ := false } else x) }) else s := ⟨_, rfl⟩
  have ran : s.Ran x c := by
    rw [hx]
    split
    · exact (State.Ran.refl s c).modRow _
    · exact State.Ran.refl s c
  have mem : x.ms = s.ms := by
    rw [hx]
    split <;> rfl
  obtain ⟨res, hres⟩ : ∃ res, res = rowFwd s.ms r.q.kcg d kind (some e.addr.toNat) (!d.f 2) (d.f 2) := ⟨_, rfl⟩
  rw [← hres] at writes healthy good
  rw [← hx]
  have left : s.complete c .row r = x.commit c .row r.q 2 (s.readPlan c r) res := by
    unfold State.complete
    dsimp only
    rw [op]
    unfold State.runRowFwd
    dsimp only
    rw [if_neg Bool.false_ne_true, ← desc_, needs, if_pos rfl, find]
    dsimp only
    rw [← hx, ← hres]
  have reads : ∀ z ∈ (s.readPlan c r).all, isHbm z.1 = false := by
    rw [State.readPlan_row desc_ op, needs, find]
    exact rowPlan_sram plain outX (fun h => nomatch h) outG (fun h => nomatch h) (fun a h => Option.some.inj h ▸ outA)
  have sram : ∀ w ∈ res.writes, isHbm w.1 = false := by
    rw [writes]
    intro w hw
    obtain ⟨m, -, ⟨g, hg, words⟩ | ⟨y, hy, rfl⟩⟩ := mem_rowWrites.mp hw
    · split at hg
      · next yes => exact isHbm_up (outY yes) (Nat.le_trans (Nat.le_add_right _ _) (wordsAt_within words).1)
      · exact nomatch hg
    · split at hy
      · exact nomatch hy
      · rw [← Option.some.inj hy]
        exact isHbm_up outA (Nat.le_add_right _ _)
  obtain ⟨t, run, done⟩ := ran.exec_commit (u := .row) calm next left mem reads sram healthy good
  rw [writes] at done
  exact ⟨t, run, done⟩

include kinds in
/-- A BWD. -/
theorem exec_rowBack {e : StatEntry} (op : r.q.op = some (.row true desc layer mb kind)) (find : (s.core c).rowr.find layer mb kind = some e)
    (outA : isHbm e.addr.toNat = false) (outY : isHbm d.ydy = false) (outD : isHbm d.dx = false) (outP : d.dgbSpan kind ≠ 0 → isHbm d.dgb = false) :
    ∃ t, exec (.operationComplete c .row i) s = .next t ∧
      s.Committed (if d.f 5 then s else s.modRow c (fun q => { q with dir := q.dir.filter (fun x => x.idx != e.idx) })) t c .row r.q
        (rowWrites d.rows d.len d.dx (some (rowDxWord s.ms d kind e.addr.toNat)) none ++ rowParams s.ms d kind e.addr.toNat) := by
  obtain ⟨writes, healthy, good⟩ := rowBwd_writes (ms := s.ms) (k := r.q.kcg) kinds xf yf plain sr len outX outY outG outP outA
  obtain ⟨x, hx⟩ : ∃ x, x = if d.f 5 then s else s.modRow c (fun q => { q with dir := q.dir.filter (fun x => x.idx != e.idx) }) := ⟨_, rfl⟩
  have ran : s.Ran x c := by
    rw [hx]
    split
    · exact State.Ran.refl s c
    · exact (State.Ran.refl s c).modRow _
  have mem : x.ms = s.ms := by
    rw [hx]
    split <;> rfl
  obtain ⟨res, hres⟩ : ∃ res, res = rowBwd s.ms r.q.kcg d kind e.addr.toNat := ⟨_, rfl⟩
  rw [← hres] at writes healthy good
  rw [← hx]
  have left : s.complete c .row r = x.commit c .row r.q 2 (s.readPlan c r) res := by
    unfold State.complete
    dsimp only
    rw [op]
    unfold State.runRowBwd
    dsimp only
    rw [if_pos rfl, ← desc_, find]
    dsimp only
    rw [← hx, ← hres]
  have reads : ∀ z ∈ (s.readPlan c r).all, isHbm z.1 = false := by
    rw [State.readPlan_row desc_ op, find]
    exact rowPlan_sram plain outX (fun _ => outY) outG (fun _ => outP) (fun a h => Option.some.inj h ▸ outA)
  have sram : ∀ w ∈ res.writes, isHbm w.1 = false := by
    rw [writes]
    intro w hw
    rcases List.mem_append.mp hw with hw | hw
    · obtain ⟨m, -, ⟨g, -, words⟩ | ⟨y, hy, -⟩⟩ := mem_rowWrites.mp hw
      · exact isHbm_up outD (Nat.le_trans (Nat.le_add_right _ _) (wordsAt_within words).1)
      · exact nomatch hy
    · obtain ⟨other, low, -⟩ := rowParams_within kinds hw
      exact isHbm_up (outP (dgbSpan_pos kinds other len)) low
  obtain ⟨t, run, done⟩ := ran.exec_commit (u := .row) calm next left mem reads sram healthy good
  rw [writes] at done
  exact ⟨t, run, done⟩

end

end Sys2Proof.Machine
end

section
/-! PROOFS. O15 RowResults: the statement (R147 to R156). -/

namespace Sys2Proof.Machine

set_option Elab.async false -- in turn: many waiting threads need much memory

/-- The entry that was made is the one asked for. -/
theorem rowEntryMade_tagged (c : Nat) (d : RowDesc) {layer mb kind : Nat} (open_ : Bool) (l : layer < 4096) (m : mb < 256) (k : kind ≤ 2) :
    (rowEntryMade c d layer mb kind open_).tagged layer mb kind = true := by
  have first : (BitVec.ofNat 12 layer).toNat = layer := (BitVec.toNat_ofNat _ _).trans (Nat.mod_eq_of_lt l)
  have second : (BitVec.ofNat 8 mb).toNat = mb := (BitVec.toNat_ofNat _ _).trans (Nat.mod_eq_of_lt m)
  have third : (BitVec.ofNat 4 kind).toNat = kind := (BitVec.toNat_ofNat _ _).trans (Nat.mod_eq_of_lt (by omega))
  unfold StatEntry.tagged rowEntryMade
  dsimp only
  rw [first, second, third, beq_self_eq_true, beq_self_eq_true, beq_self_eq_true]
  rfl

section
variable {c : CoreId} {i : Nat} {s : State} {r : REntry} {d : RowDesc} {desc layer mb kind : Nat} (desc_ : d = RowDesc.of r.desc) (calm : s.Calm)
  (wf : s.ms.mem.wf 0 = true) (next : (s.core c).row.mayComplete .row i = some r) (kinds : kind ≤ 2) (xf : d.xf = 2) (yf : d.yf = 2)
  (plain : d.layout = false) (sr : d.f 4 = false) (len : 1 ≤ d.len) (outX : isHbm d.x = false) (outG : d.gbSpan kind ≠ 0 → isHbm d.gb = false)
include desc_ calm wf next xf yf plain sr len outX outG

/-- A FWD that makes its statistics, in words. -/
theorem rowMakes_words (layers : layer < 4096) (mbs : mb < 256) (kinds : kind ≤ 2) (op : r.q.op = some (.row false desc layer mb kind))
    (fresh : d.needsEntry kind = false) (own : d.statMem = false)
    (empty : (s.core c).rowr.dir = []) (rows : d.rows ≤ 524288) (outY : d.writesY kind = true → inSram c d.ydy (d.span 2) = true) :
    ∃ t y, exec (.operationComplete c .row i) s = .next t ∧ s.Finished t c .row r.q false ∧ s.otherCores t c ∧
      (t.core c).rowr.dir = [y] ∧ y.tagged layer mb kind = true ∧ y.backed = false ∧
      y.open_ = (kind == 2 && d.seg == 1) ∧ y.rows = BitVec.ofNat 32 d.rows ∧ y.addr.toNat = ctlBase c ∧
      s.storesOnly t ((ctlBase c, 8 * d.rows) :: (if d.writesY kind then [(d.ydy, d.span 2)] else [])) ∧
      ∀ m, m < d.rows → (t.ms.word (ctlBase c + 8 * m) = (rowUses s.ms d kind (ctlBase c) false false m).1 ∧
        t.ms.word (ctlBase c + 8 * m + 4) = (rowUses s.ms d kind (ctlBase c) false false m).2) ∧
        (d.writesY kind = true → ∀ j, j < d.len →
          t.ms.word (d.ydy + m * rowPitch 2 d.len + 4 * j) = rowYWord s.ms d kind (ctlBase c) false false m j) := by
  obtain ⟨t, run, done⟩ := exec_rowMakes desc_ calm next xf yf plain sr len outX outG op fresh own empty rows (fun h => inSram_sram (outY h))
  have fits (m : Nat) (hm : m < d.rows) := RowDesc.row_within plain len hm
  have all : s.Committed (s.modRow c (fun r => { r with dir := r.dir ++ [rowEntryMade c d layer mb kind (kind == 2 && d.seg == 1)] })) t c .row r.q
      (rowWrites d.rows d.len d.ydy (if d.writesY kind then some (rowYWord s.ms d kind (ctlBase c) false false) else none)
        (some (ctlBase c, rowUses s.ms d kind (ctlBase c) false false)) ++ []) := by
    rw [List.append_nil]
    exact done
  have below (h : d.writesY kind = true) : d.ydy + d.span 2 ≤ ctlBase c := by
    have inside := (of_decide_eq_true (outY h)).2
    have small := c.isLt
    unfold sramBase sramSize at inside
    unfold ctlBase
    omega
  have dir : (t.core c).rowr.dir = [rowEntryMade c d layer mb kind (kind == 2 && d.seg == 1)] := by
    rw [done.rowr, State.modRow_rowr]
    dsimp only
    rw [empty]
    rfl
  refine ⟨t, _, run, done.finished, done.others, dir, rowEntryMade_tagged c d _ layers mbs kinds, rfl, rfl, rfl, ctlBase_toNat c,
    done.storesOnly wf (fun w hw => ?_), fun m hm => ⟨?_, fun writes j hj => ?_⟩⟩
  · rcases rowWrites_within fits hw with ⟨some_, low, high⟩ | ⟨x, hx, low, high⟩
    · split at some_
      · next yes => exact ⟨_, List.mem_cons_of_mem _ (by rw [if_pos yes]; exact .head _), low, high⟩
      · exact absurd rfl some_
    · rw [← Option.some.inj hx] at low high
      exact ⟨_, .head _, low, high⟩
  · refine all.row_stats wf fits rfl (fun some_ => ?_) rfl hm
    split at some_
    · next yes => exact .inl (below yes)
    · exact absurd rfl some_
  · refine all.row_word wf fits (if_pos writes) (fun x hx => ?_) (fun w hw => nomatch hw) hm hj
    rw [← Option.some.inj hx]
    exact .inl (below writes)

/-- A FWD that folds into its entry's statistics, in words. -/
theorem rowFolds_words {e : StatEntry} (op : r.q.op = some (.row false desc layer mb kind)) (needs : d.needsEntry kind = true)
    (find : (s.core c).rowr.find layer mb kind = some e) (outA : isHbm e.addr.toNat = false) (fold : d.f 2 = false) (noY : d.writesY kind = false) :
    ∃ t, exec (.operationComplete c .row i) s = .next t ∧ s.Finished t c .row r.q false ∧
      s.otherCores t c ∧ s.storesOnly t [(e.addr.toNat, 8 * d.rows)] ∧
      (t.core c).rowr.dir = (s.core c).rowr.dir.map (fun x => if d.seg = 3 ∧ x.idx = e.idx then { x with open_ := false } else x) ∧
      ∀ m, m < d.rows → t.ms.word (e.addr.toNat + 8 * m) = (rowUses s.ms d kind e.addr.toNat true false m).1 ∧
        t.ms.word (e.addr.toNat + 8 * m + 4) = (rowUses s.ms d kind e.addr.toNat true false m).2 := by
  obtain ⟨t, run, done⟩ := exec_rowUses desc_ calm next xf yf plain sr len outX outG op needs find outA (fun h => absurd h (Bool.eq_false_iff.mp noY))
  have fits (m : Nat) (hm : m < d.rows) := RowDesc.row_within plain len hm
  have dir := congrArg RowRegs.dir done.rowr
  rw [fold, noY, Bool.not_false] at done
  refine ⟨t, run, done.finished, done.others, done.storesOnly wf (fun w hw => ?_), ?_, fun m hm => ?_⟩
  · rcases rowWrites_within fits hw with ⟨some_, -⟩ | ⟨x, hx, low, high⟩
    · exact absurd rfl some_
    · rw [← Option.some.inj hx] at low high
      exact ⟨_, .head _, low, high⟩
  · rw [dir]
    by_cases last : d.seg = 3
    · rw [if_pos last, State.modRow_rowr]
      exact List.map_congr_left (fun x _ => by simp only [last, true_and])
    · rw [if_neg last]
      simp only [last, false_and, if_false]
      exact (List.map_id' _).symm
  · have all := done
    rw [← List.append_nil (rowWrites _ _ _ _ _)] at all
    exact all.row_stats wf fits rfl (fun some_ => absurd rfl some_) rfl hm

/-- A FWD that uses its entry's statistics, in words. -/
theorem rowApplies_words {e : StatEntry} (op : r.q.op = some (.row false desc layer mb kind)) (needs : d.needsEntry kind = true)
    (find : (s.core c).rowr.find layer mb kind = some e) (outA : isHbm e.addr.toNat = false) (apply : d.f 2 = true) (writes : d.writesY kind = true)
    (outY : isHbm d.ydy = false) :
    ∃ t, exec (.operationComplete c .row i) s = .next t ∧ s.Finished t c .row r.q false ∧
      s.otherCores t c ∧ (t.core c).rowr = (s.core c).rowr ∧ s.storesOnly t [(d.ydy, d.span 2)] ∧
      ∀ m, m < d.rows → ∀ j, j < d.len → t.ms.word (d.ydy + m * rowPitch 2 d.len + 4 * j) = rowYWord s.ms d kind e.addr.toNat false true m j := by
  obtain ⟨t, run, done⟩ := exec_rowUses desc_ calm next xf yf plain sr len outX outG op needs find outA (fun _ => outY)
  have fits (m : Nat) (hm : m < d.rows) := RowDesc.row_within plain len hm
  have whole : d.seg ≠ 3 := by
    intro last
    unfold RowDesc.writesY RowDesc.needsEntry at *
    rw [last] at writes
    obtain ⟨two, -⟩ := Bool.and_eq_true_iff.mp needs
    rw [bne, two] at writes
    exact absurd writes (by decide)
  rw [apply, writes, Bool.not_true, if_neg whole] at done
  refine ⟨t, run, done.finished, done.others, done.rowr, done.storesOnly wf (fun w hw => ?_), fun m hm j hj => ?_⟩
  · rcases rowWrites_within fits hw with ⟨-, low, high⟩ | ⟨x, hx, -⟩
    · exact ⟨_, .head _, low, high⟩
    · exact nomatch hx
  · have all := done
    rw [← List.append_nil (rowWrites _ _ _ _ _)] at all
    exact all.row_word wf fits rfl (fun x hx => nomatch hx) (fun w hw => nomatch hw) hm hj

/-- A BWD, in words. -/
theorem rowBack_words {e : StatEntry} (kinds : kind ≤ 2) (rows : 1 ≤ d.rows) (op : r.q.op = some (.row true desc layer mb kind))
    (find : (s.core c).rowr.find layer mb kind = some e)
    (outA : isHbm e.addr.toNat = false) (outY : isHbm d.ydy = false) (outD : isHbm d.dx = false) (outP : d.dgbSpan kind ≠ 0 → isHbm d.dgb = false)
    (apart : overlaps d.dx (d.span 2) d.dgb (d.dgbSpan kind) = false) :
    ∃ t, exec (.operationComplete c .row i) s = .next t ∧ s.Finished t c .row r.q false ∧ s.otherCores t c ∧
      (t.core c).rowr.dir = (if d.f 5 then (s.core c).rowr.dir else (s.core c).rowr.dir.filter (fun x => x.idx != e.idx)) ∧
      s.storesOnly t [(d.dx, d.span 2), (d.dgb, d.dgbSpan kind)] ∧
      (∀ m, m < d.rows → ∀ j, j < d.len → t.ms.word (d.dx + m * rowPitch 2 d.len + 4 * j) = rowDxWord s.ms d kind e.addr.toNat m j) ∧
      (kind ≤ 1 → ∀ j, j < d.len → t.ms.word (d.dgb + 0 + 4 * j) =
        rowSum s.ms d 0 (fun j m => (rowGrads s.ms d kind e.addr.toNat m).dg.getD j (0, false)) j) ∧
      (kind = 0 → ∀ j, j < d.len → t.ms.word (d.dgb + d.half 4 + 4 * j) =
        rowSum s.ms d (d.half 4) (fun j m => (rowGrads s.ms d kind e.addr.toNat m).db.getD j (0, false)) j) := by
  obtain ⟨t, run, done⟩ := exec_rowBack desc_ calm next kinds xf yf plain sr len outX outG op find outA outY outD outP
  have fits (m : Nat) (hm : m < d.rows) := RowDesc.row_within plain len hm
  have some_ : 0 < d.span 2 := by
    have := fits 0 rows
    omega
  have half := d.half_le
  have params (other : kind ≠ 2) : d.dgb + d.dgbSpan kind ≤ d.dx ∨ d.dx + d.span 2 ≤ d.dgb := by
    have pos := dgbSpan_pos kinds other len
    have := of_decide_eq_false apart
    omega
  refine ⟨t, run, done.finished, done.others, ?_, done.storesOnly wf (fun w hw => ?_), fun m hm j hj => ?_, fun low j hj => ?_, fun zero j hj => ?_⟩
  · rw [done.rowr]
    split
    · rfl
    · rw [State.modRow_rowr]
  · rcases List.mem_append.mp hw with hw | hw
    · rcases rowWrites_within fits hw with ⟨-, low, high⟩ | ⟨x, hx, -⟩
      · exact ⟨_, .head _, low, high⟩
      · exact nomatch hx
    · obtain ⟨-, low, high⟩ := rowParams_within kinds hw
      exact ⟨_, .tail _ (.head _), low, high⟩
  · refine done.row_word wf fits rfl (fun x hx => nomatch hx) (fun w hw => ?_) hm hj
    obtain ⟨other, low, high⟩ := rowParams_within kinds hw
    have far := params other
    omega
  · have other : kind ≠ 2 := by omega
    refine done.more_word wf (span := d.span 2) fits rfl ?_ (fun w hw => List.mem_append_left _ (by rw [if_neg other]; exact hw)) (fun w hw => ?_) hj
    · have far := params other
      rcases (show kind = 0 ∨ kind = 1 from by omega) with rfl | rfl
      · rw [d.dgbSpan_zero] at far
        omega
      · rw [d.dgbSpan_one] at far
        omega
    · rcases List.mem_append.mp hw with hw | hw
      · rw [if_neg other] at hw
        exact .inl hw
      · have within := wordsAt_within (List.mem_ite_nil_right.mp hw).2
        omega
  · have other : kind ≠ 2 := by omega
    refine done.more_word wf (span := d.span 2) fits rfl ?_ (fun w hw => List.mem_append_right _ (by rw [if_pos zero]; exact hw)) (fun w hw => ?_) hj
    · have far := params other
      rw [zero, d.dgbSpan_zero] at far
      omega
    · rcases List.mem_append.mp hw with hw | hw
      · rw [if_neg other] at hw
        have within := wordsAt_within hw
        omega
      · rw [if_pos zero] at hw
        exact .inl hw

end

/-- Settles O15: every word is the one that its row's formula makes, rounded again as it is stored. -/
theorem rowResults : Obligations.RowResults := by
  intro c i s r desc layer mb kind calm wf next layers mbs kinds
  obtain ⟨d, desc_⟩ : ∃ d, d = RowDesc.of r.desc := ⟨_, rfl⟩
  dsimp only
  rw [← desc_]
  intro xf yf plain sr rows len inX inG
  have outX := inSram_sram inX
  have outG (h : d.gbSpan kind ≠ 0) := inSram_sram (inG h)
  refine ⟨fun op fresh own empty few inY => ?_, fun e op needs find outA => ⟨fun fold noY => ?_, fun apply writes inY => ?_⟩,
    fun e op find outA inY inD inP apart => ?_⟩
  · obtain ⟨t, y, run, fin, others, dir, tag, backed, opened, many, addr, only, words⟩ :=
      rowMakes_words desc_ calm wf next xf yf plain sr len outX outG layers mbs kinds op fresh own empty few inY
    refine ⟨t, y, run, fin, others, dir, tag, backed, opened, many, addr, only, fun m hm => ?_⟩
    obtain ⟨⟨first, second⟩, row⟩ := words m hm
    exact ⟨first, second, row⟩
  · exact rowFolds_words desc_ calm wf next xf yf plain sr len outX outG op needs find outA fold noY
  · exact rowApplies_words desc_ calm wf next xf yf plain sr len outX outG op needs find outA apply writes (inSram_sram inY)
  · obtain ⟨t, run, fin, others, dir, only, dx, dg, db⟩ := rowBack_words desc_ calm wf next xf yf plain sr len outX outG kinds rows op find outA
      (inSram_sram inY) (inSram_sram inD) (fun h => inSram_sram (inP h)) apart
    refine ⟨t, run, fin, others, dir, only, fun plain_ m hm j hj => ?_, fun xent m hm j hj => ?_, dg, db⟩
    · have word := dx m hm j hj
      rw [rowDxWord, rowDx, if_neg (Bool.eq_false_iff.mp plain_)] at word
      exact word
    · have word := dx m hm j hj
      rw [rowDxWord, rowDx, if_pos xent] at word
      exact word

end Sys2Proof.Machine
end

section
/-! PROOFS. O11 MuleCopies: bytes with marks, in lines (R232, R271). -/

namespace Sys2Proof.Machine

set_option Elab.async false -- in turn: many waiting threads need much memory

/-! ## What is written does not depend on what the bytes carry -/

section
variable {α β : Type} (f : α → β)

theorem cutLines_map (n a : Nat) (bs : List α) : cutLines n a (bs.map f) = (cutLines n a bs).map (fun p => (p.1, p.2.map f)) := by
  induction n generalizing a bs with
  | zero => rfl
  | succ n ih =>
    cases bs with
    | nil => rfl
    | cons b bs =>
      show (a, ((b :: bs).map f).take _) :: cutLines n _ (((b :: bs).map f).drop _) = (a, ((b :: bs).take _).map f) :: (cutLines n _ ((b :: bs).drop _)).map _
      rw [← List.map_take, ← List.map_drop, ih]

theorem tabGet_map (t : List (Nat × α)) (k : Nat) (d : α) : tabGet (t.map (fun e => (e.1, f e.2))) k (f d) = f (tabGet t k d) := by
  induction t with
  | nil => rfl
  | cons e t ih =>
    obtain ⟨k', v⟩ := e
    show (if k' = k then f v else tabGet (t.map _) k (f d)) = f (if k' = k then v else tabGet t k d)
    rw [ih]
    split
    · rfl
    · rfl

theorem tabSet_map (t : List (Nat × α)) (k : Nat) (v : α) : tabSet (t.map (fun e => (e.1, f e.2))) k (f v) = (tabSet t k v).map (fun e => (e.1, f e.2)) := by
  induction t with
  | nil => rfl
  | cons e t ih =>
    obtain ⟨k', v'⟩ := e
    show (if k < k' then (k, f v) :: (k', f v') :: t.map _ else if k = k' then (k, f v) :: t.map _ else (k', f v') :: tabSet (t.map _) k (f v)) =
      (if k < k' then (k, v) :: (k', v') :: t else if k = k' then (k, v) :: t else (k', v') :: tabSet t k v).map _
    rw [ih]
    split
    · rfl
    · split
      · rfl
      · rfl

theorem layOver_map (old : List (Option α)) (i : Nat) (bs : List α) :
    layOver (old.map (Option.map f)) i (bs.map f) = (layOver old i bs).map (Option.map f) := by
  unfold layOver
  rw [List.map_append, List.map_append, ← List.map_take, ← List.map_drop, List.length_map, List.map_map, List.map_map]
  rfl

/-- The granules of mapped bytes are the mapped granules. -/
theorem granules_map (ws : List (Nat × List α)) :
    granules (ws.map (fun w => (w.1, w.2.map f))) = (granules ws).map (fun e => (e.1, e.2.map (Option.map f))) := by
  have cut : (ws.map (fun w => (w.1, w.2.map f))).flatMap (fun w => cutLines (w.2.length + 1) w.1 w.2) =
      (ws.flatMap (fun w => cutLines (w.2.length + 1) w.1 w.2)).map (fun p => (p.1, p.2.map f)) := by
    rw [List.flatMap_map, List.map_flatMap]
    refine List.flatMap_congr (fun w _ => ?_)
    dsimp only
    rw [List.length_map]
    exact cutLines_map f _ _ _
  unfold granules
  rw [cut]
  generalize ws.flatMap _ = ps
  obtain ⟨t, ht⟩ : ∃ t : List (Nat × List (Option α)), t = [] := ⟨_, rfl⟩
  rw [show ([] : List (Nat × List (Option β))) = t.map (fun e => (e.1, e.2.map (Option.map f))) from ht ▸ rfl, ← ht]
  clear ht
  induction ps generalizing t with
  | nil => rfl
  | cons p ps ih =>
    rw [List.map_cons, List.foldl_cons, List.foldl_cons, ← ih]
    refine congrArg (fun t => List.foldl _ t _) ?_
    dsimp only
    have blank : List.replicate 64 (none : Option β) = (List.replicate 64 (none : Option α)).map (Option.map f) := by
      rw [List.map_replicate]
      rfl
    rw [blank, tabGet_map, layOver_map, tabSet_map]

end

/-! ## Bytes without a mark -/

/-- Bytes that no uncorrectable granule gave. -/
def unmarked (bs : List Byte) : List (Byte × Bool) := bs.map (fun b => (b, false))

theorem fold_or {α β : Type} (g : α → β → α × Bool) (ws : List β) (s : α) (b : Bool) :
    ws.foldl (fun acc w => ((g acc.1 w).1, acc.2 || (g acc.1 w).2)) (s, b) =
      ((ws.foldl (fun acc w => ((g acc.1 w).1, acc.2 || (g acc.1 w).2)) (s, false)).1,
        b || (ws.foldl (fun acc w => ((g acc.1 w).1, acc.2 || (g acc.1 w).2)) (s, false)).2) := by
  induction ws generalizing s b with
  | nil => rw [List.foldl_nil, List.foldl_nil, Bool.or_false]
  | cons w ws ih =>
    rw [List.foldl_cons, List.foldl_cons, ih, ih (g s w).1 (false || (g s w).2), Bool.false_or, Bool.or_assoc]

theorem placeGranule_unmarked (s : State) (own : Option Nat) (hint l : Nat) (bs : List (Option Byte)) :
    s.placeGranule own hint (l, bs.map (Option.map (fun b => (b, false)))) =
      (givenRuns (64 * l) bs).foldl (fun acc w => ((acc.1.homeWrite own w.1 w.2 hint).1, acc.2 || (acc.1.homeWrite own w.1 w.2 hint).2)) (s, false) := by
  have clean : (bs.map (Option.map (fun b => (b, false)))).any (fun b => (b.map Prod.snd).getD false) = false := by
    rw [List.any_map, List.any_eq_false]
    intro b _
    cases b <;> exact Bool.false_ne_true
  have bytes : (bs.map (Option.map (fun b => (b, false)))).map (fun b => b.map Prod.fst) = bs := by
    rw [List.map_map]
    refine (List.map_congr_left (fun b _ => ?_)).trans (List.map_id bs)
    cases b <;> rfl
  unfold State.placeGranule
  dsimp only
  rw [if_neg (Bool.eq_false_iff.mp clean), bytes]

/-- Bytes without a mark are stored as others are. -/
theorem placeMarked_unmarked (s : State) (own : Option Nat) (hint : Nat) (ws : List (Nat × List Byte)) :
    s.placeMarked own hint (ws.map (fun w => (w.1, unmarked w.2))) = s.homeWrites own ws hint := by
  have made := granules_map (fun b : Byte => (b, false)) ws
  unfold State.placeMarked State.homeWrites granuleRuns unmarked
  rw [made, List.foldl_map, List.foldl_flatMap]
  obtain ⟨acc, hacc⟩ : ∃ acc : State × Bool, acc = (s, false) := ⟨_, rfl⟩
  rw [← hacc]
  clear hacc made
  generalize granules ws = gs
  induction gs generalizing acc with
  | nil => rfl
  | cons e gs ih =>
    rw [List.foldl_cons, List.foldl_cons]
    dsimp only
    rw [placeGranule_unmarked]
    refine (ih _).trans (congrArg (fun acc => List.foldl _ acc _) ?_)
    exact (fold_or (fun s w => State.homeWrite s own w.1 w.2 hint) (givenRuns (64 * e.1) e.2) acc.1 acc.2).symm

/-- In core SRAM they stand there. -/
theorem placeMarked_sram (s : State) (own : Option Nat) (hint : Nat) {ws : List (Nat × List Byte)} (out : ∀ w ∈ ws, isHbm w.1 = false) :
    s.placeMarked own hint (ws.map (fun w => (w.1, unmarked w.2))) = (s.stored ws, false) := by
  rw [placeMarked_unmarked, s.homeWrites_sram own ws hint out]

end Sys2Proof.Machine
end

section
/-! PROOFS. O11 MuleCopies: what a copy reads in core SRAM (R232, R271). -/

namespace Sys2Proof.Machine

set_option Elab.async false -- in turn: many waiting threads need much memory

/-! ## Bytes -/

theorem MemSys.getElem_bytes (ms : MemSys) (a n : Nat) {i : Nat} (h : i < (ms.bytes a n).length) : (ms.bytes a n)[i] = ms.byte (a + i) := by
  have at_ := Mem.readN_getD ms.mem 0 0 a n i (ms.length_bytes a n ▸ h)
  have len : i < (ms.mem.readN 0 a n).length := h
  rw [List.getD_eq_getElem _ _ len] at at_
  exact at_

theorem MemSys.bytes_add (ms : MemSys) (a k m : Nat) : ms.bytes a (k + m) = ms.bytes a k ++ ms.bytes (a + k) m := by
  refine List.ext_getElem (by rw [List.length_append, ms.length_bytes, ms.length_bytes, ms.length_bytes]) (fun i h h' => ?_)
  rw [ms.getElem_bytes, List.getElem_append]
  split
  · rw [ms.getElem_bytes]
  · next high =>
    rw [ms.length_bytes] at high
    rw [ms.getElem_bytes, ms.length_bytes, show a + k + (i - k) = a + i from by omega]

theorem MemSys.bytes_slice (ms : MemSys) (a n d m : Nat) : ((ms.bytes a n).drop d).take m = ms.bytes (a + d) (min m (n - d)) := by
  refine List.ext_getElem (by rw [List.length_take, List.length_drop, ms.length_bytes, ms.length_bytes]) (fun i h h' => ?_)
  rw [List.getElem_take, List.getElem_drop, ms.getElem_bytes, ms.getElem_bytes, Nat.add_assoc]

/-! ## Reads outside HBM -/

theorem State.noteReads_sram (s : State) {a : Nat} (n hint : Nat) (out : isHbm a = false) : s.noteReads a n hint = s :=
  (s.noteHinted_sram [(a, n, hint)] (fun _ hr => (List.mem_singleton.mp hr) ▸ out))

/-- The pieces of a range in its lines make up the range. -/
theorem linePieces_sum (a n j : Nat) : ((List.range j).map (fun i => min (a + n) (64 * (i + a / 64) + 64) - max a (64 * (i + a / 64)))).sum =
    min (a + n) (64 * (a / 64 + j)) - a := by
  induction j with
  | zero =>
    rw [List.range_zero, List.map_nil, List.sum_nil]
    omega
  | succ j ih =>
    rw [List.range_succ, List.map_append, List.sum_append, ih, List.map_singleton, List.sum_singleton]
    omega

theorem linesOf_pieces (a n : Nat) : ((linesOf a n).map (fun l => min (a + n) (64 * l + 64) - max a (64 * l))).sum = n := by
  unfold linesOf
  split
  · next zero => rw [zero]; rfl
  · rw [List.map_map]
    refine (linePieces_sum a n _).trans ?_
    omega

theorem State.viewMarked_sram (s : State) {a : Nat} (n : Nat) (out : isHbm a = false) (low : a < 0x020000000000) :
    s.viewMarked a n = unmarked (s.ms.bytes a n) := by
  have healthy := List.any_eq_false.mp (s.ms.badRange_sram n out)
  have marks : (linesOf a n).flatMap (fun l => List.replicate (min (a + n) (64 * l + 64) - max a (64 * l)) (s.ms.badLine l)) =
      List.replicate n false := by
    rw [List.eq_replicate_iff]
    refine ⟨?_, fun b hb => ?_⟩
    · rw [List.length_flatMap]
      simp only [List.length_replicate]
      exact linesOf_pieces a n
    · obtain ⟨l, hl, hb⟩ := List.mem_flatMap.mp hb
      rw [List.eq_of_mem_replicate hb]
      exact Bool.eq_false_iff.mpr (healthy l hl)
  unfold State.viewMarked State.view
  rw [if_pos low, marks]
  unfold unmarked
  refine List.ext_getElem (by simp [s.ms.length_bytes]) (fun i h h' => ?_)
  rw [List.getElem_zip, List.getElem_map, List.getElem_replicate]

/-! ## Rows -/

/-- The line that a copy holds is the one in memory. -/
def HeldGood (ms : MemSys) (held : Option HeldLine) : Prop := ∀ h, held = some h → h.2 = unmarked (ms.bytes (64 * h.1) 64)

/-- What the held line gives of a range. -/
def heldPart (held : Option HeldLine) (a n : Nat) : List (Byte × Bool) :=
  match held with
  | some h => if h.1 = a / 64 then (h.2.drop (a % 64)).take n else []
  | none => []

theorem State.copyRead_held (s : State) (sh : Nat) (held : Option HeldLine) (a n : Nat) : s.copyRead sh held a n =
    (s.noteReads (a + (heldPart held a n).length) (n - (heldPart held a n).length) sh,
      heldPart held a n ++ s.viewMarked (a + (heldPart held a n).length) (n - (heldPart held a n).length),
      if n ≤ (heldPart held a n).length then held else some ((a + n - 1) / 64, s.viewMarked (64 * ((a + n - 1) / 64)) 64)) := rfl

theorem State.copyRead_sram {s : State} {c : CoreId} {a n : Nat} (inside : inSram c a n = true) (sh : Nat) {held : Option HeldLine} (good : HeldGood s.ms held) :
    ∃ held', HeldGood s.ms held' ∧ s.copyRead sh held a n = (s, unmarked (s.ms.bytes a n), held') := by
  have out := inSram_sram inside
  have low : a + n < 0x020000000000 := by
    have := (of_decide_eq_true inside).2
    have small := c.isLt
    unfold sramBase sramSize at this
    omega
  obtain ⟨own, hown⟩ : ∃ own, own = heldPart held a n := ⟨_, rfl⟩
  have part : own.length ≤ n ∧ own = unmarked (s.ms.bytes a own.length) := by
    have size (k : Nat) : (unmarked (s.ms.bytes a k)).length = k := by rw [unmarked, List.length_map, s.ms.length_bytes]
    have none_ : ([] : List (Byte × Bool)).length ≤ n ∧ [] = unmarked (s.ms.bytes a ([] : List (Byte × Bool)).length) := ⟨Nat.zero_le _, rfl⟩
    cases held with
    | none => exact hown ▸ none_
    | some h =>
      unfold heldPart at hown
      dsimp only at hown
      split at hown
      · next same =>
        rw [good h rfl, unmarked, ← List.map_drop, ← List.map_take, s.ms.bytes_slice, same, show 64 * (a / 64) + a % 64 = a from by omega] at hown
        rw [show List.map _ (s.ms.bytes a _) = unmarked (s.ms.bytes a _) from rfl] at hown
        rw [hown, size]
        exact ⟨Nat.min_le_left _ _, rfl⟩
      · exact hown ▸ none_
  obtain ⟨k, hk⟩ : ∃ k, k = own.length := ⟨_, rfl⟩
  obtain ⟨some_, mine⟩ := part
  rw [← hk] at some_ mine
  have rest := s.viewMarked_sram (n - k) (isHbm_up out (Nat.le_add_right a k)) (show a + k < 0x020000000000 from by omega)
  have all : own ++ s.viewMarked (a + k) (n - k) = unmarked (s.ms.bytes a n) := by
    rw [mine, rest, unmarked, unmarked, ← List.map_append, ← s.ms.bytes_add, show k + (n - k) = n from by omega]
    rfl
  refine ⟨if n ≤ k then held else some ((a + n - 1) / 64, s.viewMarked (64 * ((a + n - 1) / 64)) 64), ?_, ?_⟩
  · split
    · exact good
    · intro h hh
      rw [← Option.some.inj hh]
      refine s.viewMarked_sram 64 ?_ (by omega)
      rw [isHbm_false] at out ⊢
      omega
  · rw [s.copyRead_held, ← hown, ← hk, s.noteReads_sram (n - k) sh (isHbm_up out (Nat.le_add_right a k)), all]

/-- Rows read one after the other. -/
theorem State.copyRows_sram {s : State} {c : CoreId} {sh rowLen : Nat} {srcAt dstAt : Nat → Int} (n i : Nat) {held : Option HeldLine} (good : HeldGood s.ms held)
    (inside : ∀ j, j < n → inSram c (srcAt (i + j)).toNat rowLen = true) :
    State.copyRows sh srcAt dstAt rowLen n s i held =
      (s, (List.range n).map (fun j => ((dstAt (i + j)).toNat, unmarked (s.ms.bytes (srcAt (i + j)).toNat rowLen)))) := by
  induction n generalizing i held with
  | zero => rfl
  | succ n ih =>
    obtain ⟨held', good', read⟩ := State.copyRead_sram (inside 0 (by omega)) sh good
    rw [Nat.add_zero] at read
    unfold State.copyRows
    dsimp only
    rw [read]
    dsimp only
    rw [ih (i + 1) good' (fun j hj => by rw [show i + 1 + j = i + (j + 1) from by omega]; exact inside (j + 1) (by omega)), List.range_succ_eq_map,
      List.map_cons, List.map_map]
    refine congrArg (fun l => (s, _ :: l)) (List.map_congr_left (fun j _ => ?_))
    dsimp only [Function.comp]
    rw [show i + 1 + j = i + Nat.succ j from by omega]

end Sys2Proof.Machine
end

section
/-! PROOFS. O11 MuleCopies: the start of a copy (R70, R71, R232). -/

namespace Sys2Proof.Machine

set_option Elab.async false -- in turn: many waiting threads need much memory

/-- The end of an issue: the operation `id` of unit u keeps ERR, and its reads are no longer ahead. -/
def State.copied (x : State) (c : Nat) (u : EngUnit) (id : Nat) (err : Bool) : State := (x.pfEnd c id).modRun c u id (fun r => { r with err := err })

section
variable {s : State} {c : CoreId} {u : EngUnit} {q : QEntry} {r : REntry} (head : s.HeadAlone c u q) (rq : r.q = q) (still : s.readDesc q = s)
  (ws : List (Nat × List Byte)) (err : Bool)
include head rq still

/-- A copy that starts and stores ws leaves its queue. -/
theorem State.HeadAlone.copied : s.Started (((s.launch c u r).stored ws).copied c u q.id err) c u q ∧
    (((s.launch c u r).stored ws).copied c u q.id err).ms = (s.stored ws).ms ∧
    (((s.launch c u r).stored ws).copied c u q.id err).settle = ((s.launch c u r).stored ws).copied c u q.id err := by
  obtain ⟨runs, steady, quiet, buf, nowait, others, alone, -, going⟩ := head
  obtain ⟨most, supp, budget, cache, g, launched⟩ := s.launch_undisturbed c u r (by rw [rq]; exact still)
  obtain ⟨r', hr'⟩ : ∃ r' : REntry, r' = { r with startFt := s.now, late := r.q.lateAt s.now } := ⟨_, rfl⟩
  obtain ⟨n, hn⟩ : ∃ n, n = (if r.q.lateAt s.now then satInc (s.core c).err.lateCount else (s.core c).err.lateCount) := ⟨_, rfl⟩
  rw [← hr', ← hn] at launched
  obtain ⟨x, hx⟩ : ∃ x, x = s.launch c u r := ⟨_, rfl⟩
  rw [← hx] at launched ⊢
  have xhere : x.core c = (s.core c).launched u r' n most supp budget cache := (congrArg (fun z : State => z.core c) launched).trans (s.skipped_core c _ g)
  have xthere (d : Nat) (ne : d ≠ c.val) : x.core d = s.core d := (congrArg (fun z : State => z.core d) launched).trans (s.skipped_others c _ g d ne)
  obtain ⟨t, ht⟩ : ∃ t, t = (x.stored ws).copied c u q.id err := ⟨_, rfl⟩
  obtain ⟨cache', here⟩ : ∃ cache', t.core c = ({ x.core c with cache := cache' } : Core).modEng u
      (fun e => e.modRunning q.id (fun r => { r with err := err })) := by
    rw [ht]
    unfold State.copied State.modRun State.pfEnd State.modCache
    rw [State.modCore_modCore, State.core_modCore, if_pos ⟨rfl, c.isLt⟩]
    exact ⟨_, rfl⟩
  have there (d : Nat) (ne : d ≠ c.val) : t.core d = s.core d := by
    rw [ht]
    unfold State.copied State.modRun State.pfEnd State.modCache
    rw [State.modCore_modCore, State.core_modCore, if_neg (fun h => ne h.1)]
    exact xthere d ne
  have rest : s.sameRest t ∧ t.pwr = s.pwr ∧ t.ud = s.ud := by
    rw [ht]
    unfold State.copied State.sameRest
    rw [launched]
    exact ⟨⟨rfl, rfl, rfl, rfl, rfl, rfl, rfl, rfl, rfl⟩, rfl, rfl⟩
  have ms : t.ms = (s.stored ws).ms := by
    rw [ht]
    unfold State.copied
    rw [launched]
    rfl
  rw [← ht]
  obtain ⟨seq, id_, -⟩ := (s.core c).launched_seq u r' n most supp budget cache
  have seq' : (t.core c).seq = (s.core c).seq := by
    rw [here, Core.seq_modEng]
    exact (congrArg Core.seq xhere).trans seq
  have id' : (t.core c).id = (s.core c).id := by
    rw [here, Core.id_modEng]
    exact (congrArg Core.id xhere).trans id_
  have units (v : EngUnit) : (t.core c).eng v = if v = u then ({ queue := [], running := ((s.core c).eng u).running ++ [r'] } : EngQueue).modRunning q.id
      (fun r => { r with err := err }) else (s.core c).eng v := by
    have plain (w : EngUnit) : ({ x.core c with cache := cache' } : Core).eng w = (x.core c).eng w := by cases w <;> rfl
    rw [here, Core.eng_modEng, plain, plain, xhere, Core.launched_eng, Core.launched_eng, if_pos rfl, alone]
    split
    · rfl
    · rfl
  have mine := units u
  rw [if_pos rfl] at mine
  refine ⟨⟨by rw [mine]; rfl, ?_, seq', there, rest⟩, ms, ?_⟩
  · have kept (l : List REntry) : (l.map (fun r => if r.q.id = q.id then { r with err := err } else r)).map REntry.q = l.map REntry.q := by
      rw [List.map_map]
      refine List.map_congr_left (fun r _ => ?_)
      dsimp only [Function.comp]
      split
      · rfl
      · rfl
    rw [mine]
    unfold EngQueue.modRunning
    rw [kept, List.map_append, List.map_singleton, hr', rq]
  · refine State.settle_quiet t (State.Quiet.of_others c quiet there ?_) (steady.of_going going (fun d => ?_) (fun d => ?_) ?_ ?_)
    · simp only [Core.quiet, seq', buf, nowait, List.isEmpty_nil, beq_self_eq_true, Bool.true_and, List.all_eq_true, List.isEmpty_iff]
      intro v hv
      rw [units]
      split
      · rfl
      · next other => exact others v hv other
    · by_cases e : d = c.val
      · rw [e, id']
      · rw [there d e]
    · by_cases e : d = c.val
      · rw [e, seq']
      · rw [there d e]
    · exact rest.1.2.2.2.2.2.2.2.1
    · exact congrArg EthBlk.armed rest.1.2.2.1

end

theorem State.launch_ms (s : State) (c : CoreId) (u : EngUnit) {r : REntry} (still : s.readDesc r.q = s) : (s.launch c u r).ms = s.ms := by
  obtain ⟨most, supp, budget, cache, g, launched⟩ := s.launch_undisturbed c u r still
  rw [launched]
  rfl

/-! ## COPY1 and COPYD -/

theorem storesOnly_rows {s t : State} {ws : List (Nat × List Byte)} (wf : s.ms.mem.wf 0 = true) (ms : t.ms = (s.stored ws).ms) :
    s.storesOnly t (ws.map (fun w => (w.1, w.2.length))) := by
  intro a out
  rw [ms, s.stored_byte ws a wf, storedAt, storedFrom_outside (fun w hw cover => ?_)]
  · rfl
  · exact out _ (List.mem_map.mpr ⟨w, hw, rfl⟩) cover

theorem rows_places {n len : Nat} {dst : Nat → Nat} {bs : Nat → List Byte} (size : ∀ k, (bs k).length = len) :
    ((List.range n).map (fun k => (dst k, bs k))).map (fun w => (w.1, w.2.length)) = (List.range n).map (fun k => (dst k, len)) := by
  rw [List.map_map]
  exact List.map_congr_left (fun k _ => Prod.ext rfl (size k))

/-- Rows that lie apart each hold their bytes. -/
theorem storedAt_rows {n len : Nat} {dst : Nat → Nat} {bs : Nat → List Byte} (size : ∀ k, (bs k).length = len)
    (apart : ∀ j k, j < k → k < n → overlaps (dst j) len (dst k) len = false) {k x : Nat} (hk : k < n) (hx : x < len) :
    storedAt ((List.range n).map (fun k => (dst k, bs k))) (dst k + x) = (bs k)[x]? := by
  refine (storedAt_alone (w := (dst k, bs k)) (List.mem_map.mpr ⟨k, List.mem_range.mpr hk, rfl⟩)
    ⟨Nat.le_add_right _ _, by dsimp only; rw [size]; omega⟩ (fun v hv cover => ?_)).trans ?_
  · obtain ⟨j, hj, rfl⟩ := List.mem_map.mp hv
    dsimp only at cover
    rw [size] at cover
    rcases Nat.lt_trichotomy j k with less | rfl | more
    · have := of_decide_eq_false (apart j k less hk)
      omega
    · rfl
    · have := of_decide_eq_false (apart k j more (List.mem_range.mp hj))
      omega
  · dsimp only
    rw [Nat.add_sub_cancel_left]

section
variable {s : State} {c : CoreId} {m : Fin 4} {q : QEntry} (head : s.HeadAlone c (muleUnit m) q)
  (idle : ∀ r ∈ ((s.core c).eng (muleUnit m)).running, r.inRows = false ∧ r.q.id ≠ q.id)
include head idle

theorem State.HeadAlone.headOf {op : EngOp} (some_ : q.op = some op) : s.headOf c (muleUnit m) = some q ∧
    ((s.core c).eng (muleUnit m)).running.any (fun r => r.inRows) = false := by
  obtain ⟨-, -, -, -, -, -, alone, due, -⟩ := head
  refine ⟨?_, List.any_eq_false.mpr (fun r hr => Bool.eq_false_iff.mp (idle r hr).1)⟩
  unfold State.headOf
  have due' : q.launchOk s.now = true := due
  rw [alone]
  dsimp only
  rw [some_, due']
  rfl

/-- A COPY1 between places of the core's SRAM starts. -/
theorem exec_copy1 {src dst n : Nat} {sh dh : BitVec 2} (op : q.op = some (.copy1 src dst n sh dh)) (inS : inSram c src n = true) (inD : inSram c dst n = true) :
    ∃ t, exec (.muleCopyStart c m) s = .next t ∧ s.Started t c (muleUnit m) q ∧ t.ms = (s.stored [(dst, s.ms.bytes src n)]).ms := by
  obtain ⟨first, free⟩ := head.headOf idle op
  have still : s.readDesc q = s := by
    unfold State.readDesc State.descRun
    rw [op]
    rfl
  obtain ⟨started, ms, settled⟩ := head.copied (r := { q := q, inRows := false }) rfl still [(dst, s.ms.bytes src n)] false
  obtain ⟨x, hx⟩ : ∃ x, x = s.launch c (muleUnit m) { q := q, inRows := false } := ⟨_, rfl⟩
  have mem : x.ms = s.ms := hx ▸ s.launch_ms c (muleUnit m) still
  obtain ⟨held, -, read⟩ := State.copyRead_sram (s := x) inS sh.toNat (held := none) (fun h hh => nomatch hh)
  have copy : x.runCopy1 c src dst n sh dh = (x.stored [(dst, s.ms.bytes src n)], false) := by
    unfold State.runCopy1
    dsimp only
    rw [read, mem]
    exact placeMarked_sram x (some c) dh.toNat (ws := [(dst, s.ms.bytes src n)]) (fun w hw => (List.mem_singleton.mp hw) ▸ inSram_sram inD)
  have left : s.startCopy c m = (x.stored [(dst, s.ms.bytes src n)]).copied c (muleUnit m) q.id false := by
    unfold State.startCopy
    dsimp only
    rw [first]
    dsimp only
    rw [free, if_neg Bool.false_ne_true, op]
    dsimp only
    rw [← hx, copy]
    rfl
  refine ⟨_, ?_, started, ms⟩
  refine (if_neg (Bool.eq_false_iff.mp head.1)).trans ?_
  rw [left, hx, settled]

/-- A COPYD between places of the core's SRAM starts. -/
theorem exec_copyd {desc : Nat} {d : CopyDesc} (desc_ : d = CopyDesc.of (s.ms.bytes desc 64)) (op : q.op = some (.copyd desc))
    (inDesc : inSram c desc 64 = true) (eth : d.eth = false) (ownS : s.isOwnDev d.srcDev = true) (ownD : s.isOwnDev d.dstDev = true)
    (good : s.checkCopyd c desc = 0)
    (inside : ∀ k, k < d.rows → inSram c (d.srcRow k).toNat d.rowLen = true ∧ inSram c (d.dstRow k).toNat d.rowLen = true) :
    ∃ t, exec (.muleCopyStart c m) s = .next t ∧ s.Started t c (muleUnit m) q ∧
      t.ms = (s.stored ((List.range d.rows).map (fun k => ((d.dstRow k).toNat, s.ms.bytes (d.srcRow k).toNat d.rowLen)))).ms := by
  obtain ⟨first, free⟩ := head.headOf idle op
  have still : s.readDesc q = s := by
    have run : s.descRun q = (desc, 64) := by
      unfold State.descRun
      rw [op]
    unfold State.readDesc
    rw [run]
    exact s.noteReads_sram 64 0 (inSram_sram inDesc)
  obtain ⟨ws, hws⟩ : ∃ ws, ws = (List.range d.rows).map (fun k => ((d.dstRow k).toNat, s.ms.bytes (d.srcRow k).toNat d.rowLen)) := ⟨_, rfl⟩
  rw [← hws]
  obtain ⟨started, ms, settled⟩ := head.copied (r := { q := q, desc := s.ms.bytes desc 64, inRows := false }) rfl still ws false
  obtain ⟨x, hx⟩ : ∃ x, x = s.launch c (muleUnit m) { q := q, desc := s.ms.bytes desc 64, inRows := false } := ⟨_, rfl⟩
  have mem : x.ms = s.ms := hx ▸ s.launch_ms c (muleUnit m) still
  have source (k : Nat) : x.copySrcAt d k = d.srcRow k := by
    unfold State.copySrcAt
    rw [eth]
    exact if_neg Bool.false_ne_true
  have rows := State.copyRows_sram (s := x) (c := c) (sh := d.shint) (rowLen := d.rowLen) (srcAt := x.copySrcAt d) (dstAt := d.dstRow) d.rows 0
    (held := none) (fun h hh => nomatch hh) (fun k hk => by rw [Nat.zero_add, source]; exact (inside k hk).1)
  have marked : (List.range d.rows).map (fun j => ((d.dstRow (0 + j)).toNat, unmarked (x.ms.bytes (x.copySrcAt d (0 + j)).toNat d.rowLen))) =
      ws.map (fun w => (w.1, unmarked w.2)) := by
    rw [hws, List.map_map]
    refine List.map_congr_left (fun k _ => ?_)
    rw [Nat.zero_add, source, mem]
    rfl
  rw [marked] at rows
  have copy : x.runCopyLocal c d = (x.stored ws, false) := by
    unfold State.runCopyLocal
    dsimp only
    rw [rows, eth, if_neg Bool.false_ne_true]
    refine placeMarked_sram x (some c) d.dhint (ws := ws) (fun w hw => ?_)
    rw [hws] at hw
    obtain ⟨k, hk, rfl⟩ := List.mem_map.mp hw
    exact inSram_sram (inside k (List.mem_range.mp hk)).2
  have local_ : (s.copySrcRemote d || s.copyDstRemote d) = false := by
    unfold State.copySrcRemote State.copyDstRemote
    rw [eth, ownS, ownD]
    rfl
  have goes : s.copyWaits c desc = false := by
    unfold State.copyWaits State.noSlotYet
    dsimp only
    rw [← desc_, eth, Bool.false_and, Bool.and_false]
  have left : s.startCopy c m = (x.stored ws).copied c (muleUnit m) q.id false := by
    unfold State.startCopy
    dsimp only
    rw [first]
    dsimp only
    rw [free, if_neg Bool.false_ne_true, op]
    dsimp only
    rw [goes, if_neg Bool.false_ne_true, good, if_neg (fun h => h rfl), ← desc_, local_, if_neg Bool.false_ne_true, ← hx, copy]
    rfl
  refine ⟨_, ?_, started, ms⟩
  refine (if_neg (Bool.eq_false_iff.mp head.1)).trans ?_
  rw [left, hx, settled]

end

/-- Settles O11: in core SRAM a copy reads every row before it stores the first. -/
theorem muleCopies : Obligations.MuleCopies := by
  refine ⟨fun c m s q src dst n sh dh head op wf idle inS inD _ _ => ?_, fun c m s q desc head op wf idle => ?_⟩
  · obtain ⟨t, run, started, ms⟩ := exec_copy1 head idle op inS inD
    have byte (x : Nat) : t.ms.byte x = (storedAt [(dst, s.ms.bytes src n)] x).getD (s.ms.byte x) := by
      rw [ms]
      exact s.stored_byte _ x wf
    refine ⟨t, run, started, fun i hi => ?_, fun x out => ?_⟩
    · have len : i < (s.ms.bytes src n).length := by
        rw [s.ms.length_bytes]
        exact hi
      rw [byte, getElem?_storedAt_one, List.getElem?_eq_getElem len, s.ms.getElem_bytes]
      rfl
    · have only := storesOnly_rows (s := s) (t := t) (ws := [(dst, s.ms.bytes src n)]) wf ms
      refine only x (fun r hr => ?_)
      rw [List.map_singleton, s.ms.length_bytes] at hr
      rw [List.mem_singleton.mp hr]
      exact out
  · intro d inDesc eth ownS ownD good inside apart
    obtain ⟨t, run, started, ms⟩ := exec_copyd head idle rfl op inDesc eth ownS ownD good inside
    have only := storesOnly_rows (s := s) (t := t) wf ms
    rw [rows_places (dst := fun k => (d.dstRow k).toNat) (bs := fun k => s.ms.bytes (d.srcRow k).toNat d.rowLen) (fun k => s.ms.length_bytes _ _)] at only
    refine ⟨t, run, started, only, fun k x hk hx => ?_⟩
    have row := storedAt_rows (dst := fun k => (d.dstRow k).toNat) (bs := fun k => s.ms.bytes (d.srcRow k).toNat d.rowLen)
      (fun k => s.ms.length_bytes _ _) apart hk hx
    rw [ms, s.stored_byte _ _ wf, row, List.getElem?_eq_getElem (by rw [s.ms.length_bytes]; exact hx), s.ms.getElem_bytes]
    rfl

end Sys2Proof.Machine
end

section
/-! PROOFS. O19 GatherWalk fails: a running WALK whose descriptor passed no check may name rows of more bytes than an address holds. -/

namespace Sys2Proof.Machine

set_option Elab.async false -- in turn: many waiting threads need much memory

/-- A WALK of one position whose rows hold 2^64 times 64 BF16 elements; it adds the offset of the second half of a page. -/
def hugeRowDesc : List Byte :=
  leBytes 8 (sramBase 0) ++ leBytes 8 (sramBase 0 + 0x1000) ++ leBytes 8 (sramBase 0 + 0x2000) ++ [1, 0, 64, 0] ++ leBytes 4 0 ++ leBytes 4 1 ++ [0, 1]

/-- The WALK that runs on core 0. -/
def hugeRowRun : REntry := { q := ⟨0, 0, 4, 0, 0xFF, false, none, some (.walk (sramBase 0)), {}⟩, desc := hugeRowDesc }

/-- The state after reset with this operation; its page-table entry names page 0 of the lowest GiB, which partition 0 has, and one
position in it. -/
def hugeRowState : State :=
  { State.reset with
    cores := vmod State.reset.cores 0 (fun k => { k with gath := { running := [hugeRowRun] } })
    ms := ({ State.reset.ms with preg := vmod State.reset.ms.preg 0 (fun _ => { valid := true }) } : MemSys).put (sramBase 0) (leBytes 8 3) }

theorem hugeRowState_calm : hugeRowState.Calm := by
  unfold State.Calm State.Quiet State.Steady
  decide +kernel

/-- Refutes O19: the address that the statement asks for has more than 64 bits, but its place holds 8 bytes. -/
theorem not_gatherWalk : ¬ Obligations.GatherWalk := by
  unfold Obligations.GatherWalk
  rintro ⟨-, h⟩
  obtain ⟨-, walk⟩ := h 0 0 hugeRowState hugeRowRun hugeRowState_calm (by decide +kernel) (by decide +kernel)
  obtain ⟨complete, -⟩ := walk (sramBase 0) rfl (by decide +kernel) (by decide +kernel) (by decide +kernel) (by decide +kernel) (by decide +kernel)
  obtain ⟨t, -, -, -, -, addresses⟩ := complete (by decide +kernel)
  have address := addresses 0 (by decide +kernel)
  have bytes := t.ms.le_lt ((WalkDesc.of hugeRowRun.desc).dst + 8 * 0) 8
  rw [address] at bytes
  exact absurd bytes (by decide +kernel)

end Sys2Proof.Machine
end

section
/-! PROOFS. What a start of the module leaves and sets. -/

namespace Sys2Proof.Machine

set_option Elab.async false -- in turn: many waiting threads need much memory

/-! ## The part of each block that a start leaves as the reset before it made it -/

def FabBlk.bootView (f : FabBlk) : List OutReq × List DupEntry × List (Nat × FmapEntry) × Vector Lane 64 × BitVec 4 :=
  (f.out, f.dups, f.fmap, f.lanes, f.lsuLit)

def EthBlk.bootView (e : EthBlk) : List Qp × List Window := (e.qps, e.windows)

/-- The low half of CAUSE, for the upper bit says how the options were loaded. -/
def RstBlk.bootView (r : RstBlk) : BitVec 16 × BitVec 32 × Option Bool × Bool := (fld r.cause 0 16, r.resets, r.waiting, r.held)

/-- The cap stays at a warm start only. -/
def PwrBlk.bootView (p : PwrBlk) (cold : Bool) :
    (BitVec 4 × BitVec 4 × Bool × BitVec 16 × BitVec 8) × (Bool × Bool × Bool × Bool) × Option (BitVec 16) :=
  ((p.opCur, p.opTarget, p.halved, p.gain, p.idleStopped), (p.stopThermal, p.stopBrown, p.stopEn, p.switchOn),
    if cold then none else some p.capW)

def SecBlk.bootView (x : SecBlk) : BitVec 4 × BitVec 7 × BitVec 7 := (x.revoked, x.floorSt, x.floorBu)

def Goose.bootView (g : Goose) : BitVec 32 × BitVec 32 × Bool := (g.hours, g.pcycle, g.frozen)

/-- What a start leaves of the blocks, and the work of the module whole. -/
structure BootView where
  work : List Instr × Vector Core 8 × Vector Ud 2 × Vector Part 8 × List LocalMsg
  memory : Mem × List Nat
  fab : List OutReq × List DupEntry × List (Nat × FmapEntry) × Vector Lane 64 × BitVec 4
  eth : List Qp × List Window
  rst : BitVec 16 × BitVec 32 × Option Bool × Bool
  pwr : (BitVec 4 × BitVec 4 × Bool × BitVec 16 × BitVec 8) × (Bool × Bool × Bool × Bool) × Option (BitVec 16)
  sec : BitVec 4 × BitVec 7 × BitVec 7
  goose : BitVec 32 × BitVec 32 × Bool
  ft : BitVec 64
  pins : PinBlk

def State.bootView (s : State) (cold : Bool) : BootView where
  work := (s.pending, s.cores, s.ud, s.parts, s.locals)
  memory := (s.ms.mem, s.ms.ue)
  fab := s.fab.bootView
  eth := s.eth.bootView
  rst := s.rst.bootView
  pwr := s.pwr.bootView cold
  sec := s.sec.bootView
  goose := s.goose.bootView
  ft := s.time.ft
  pins := s.pins

/-! ## Updates that the view does not see -/

theorem Goose.log_bootView (g : Goose) (now : BitVec 64) (aligned : Bool) (e : GEvent) :
    (g.log now aligned e).bootView = g.bootView := by
  have fresh : (g.newRecord now aligned e).bootView = g.bootView := by
    unfold Goose.newRecord
    split <;> rfl
  unfold Goose.log
  split
  · dsimp only
    split
    · split
      · rfl
      · exact fresh
    · exact fresh
  · split
    · dsimp only
      split
      · rfl
      · exact fresh
    · exact fresh

/-- From s to t a start leaves the view. -/
def State.Boots (s t : State) (cold : Bool) : Prop := t.bootView cold = s.bootView cold

namespace State.Boots

variable {s t : State} {cold : Bool}

theorem refl (s : State) (cold : Bool) : s.Boots s cold := rfl

theorem trans {u : State} (h : s.Boots t cold) (k : t.Boots u cold) : s.Boots u cold := Eq.trans k h

theorem log (h : s.Boots t cold) (e : GEvent) : s.Boots (t.log e) cold :=
  Eq.trans (by simp only [State.bootView, State.log, Goose.log_bootView]) h

theorem modFl (h : s.Boots t cold) (f : FlashBlk → FlashBlk) : s.Boots (t.modFl f) cold := h

theorem modSec (h : s.Boots t cold) (f : SecBlk → SecBlk)
    (same : ∀ x, (f x).bootView = x.bootView := by simp only [SecBlk.bootView, SecBlk.extend, implies_true]) :
    s.Boots (t.modSec f) cold :=
  Eq.trans (by simp only [State.bootView, State.modSec, same]) h

theorem draw (h : s.Boots t cold) : s.Boots t.draw.1 cold :=
  h.modSec (fun x => x.draw.2) (fun x => by simp only [SecBlk.bootView, SecBlk.draw])

theorem modRst (h : s.Boots t cold) (f : RstBlk → RstBlk)
    (same : ∀ x, (f x).bootView = x.bootView := by simp only [RstBlk.bootView, implies_true]) :
    s.Boots (t.modRst f) cold :=
  Eq.trans (by simp only [State.bootView, State.modRst, same]) h

theorem modPwr (h : s.Boots t cold) (f : PwrBlk → PwrBlk)
    (same : ∀ x, (f x).bootView cold = x.bootView cold := by simp only [PwrBlk.bootView, implies_true]) :
    s.Boots (t.modPwr f) cold :=
  Eq.trans (by simp only [State.bootView, State.modPwr, same]) h

theorem modFab (h : s.Boots t cold) (f : FabBlk → FabBlk)
    (same : ∀ x, (f x).bootView = x.bootView := by simp only [FabBlk.bootView, implies_true]) :
    s.Boots (t.modFab f) cold :=
  Eq.trans (by simp only [State.bootView, State.modFab, same]) h

theorem modEth (h : s.Boots t cold) (f : EthBlk → EthBlk)
    (same : ∀ x, (f x).bootView = x.bootView := by simp only [EthBlk.bootView, implies_true]) :
    s.Boots (t.modEth f) cold :=
  Eq.trans (by simp only [State.bootView, State.modEth, same]) h

theorem modTime (h : s.Boots t cold) (f : TimeBlk → TimeBlk) (same : ∀ x, (f x).ft = x.ft := by exact fun _ => rfl) :
    s.Boots (t.modTime f) cold :=
  Eq.trans (by simp only [State.bootView, State.modTime, same]) h

theorem modMs (h : s.Boots t cold) (f : MemSys → MemSys) (mem : ∀ x, (f x).mem = x.mem) (ue : ∀ x, (f x).ue = x.ue) :
    s.Boots (t.modMs f) cold :=
  Eq.trans (by simp only [State.bootView, State.modMs, mem, ue]) h

/-! ## The steps of a start -/

theorem fld_setBit_high (c : BitVec 17) : fld (setBit c 16) 0 16 = fld c 0 16 := by
  apply BitVec.eq_of_getLsbD_eq
  intro i hi
  have other : 16 ≠ i := by omega
  simp [fld, setBit, hi, other]

theorem loadOptions (h : s.Boots t cold) : s.Boots (t.loadOptions cold) cold := by
  unfold State.loadOptions
  extract_lets s1 f ceil s2 s3 stat s4
  have h2 : s.Boots s2 cold := (h.modFl _).modPwr _ (fun _ => by
    cases cold <;> simp only [PwrBlk.bootView, if_true, Bool.false_eq_true, if_false])
  have h3 : s.Boots s3 cold := h2.modFab _
  have h4 : s.Boots s4 cold := by
    unfold s4
    split
    · exact h3.log _
    · exact h3
  clear_value s4
  split
  · exact h4.modRst _ (fun _ => by simp only [RstBlk.bootView, fld_setBit_high])
  · exact h4

theorem applyStanding (h : s.Boots t cold) : s.Boots (t.applyStanding cold) cold := by
  unfold State.applyStanding
  extract_lets f u8 mode coord s1 s2 s3 roles s4
  have h2 : s.Boots s2 cold := (h.modFab _).modTime _
  have h3 : s.Boots s3 cold := by
    unfold s3
    cases cold with
    | true => exact h2.modMs _ (fun _ => rfl) (fun _ => rfl)
    | false => exact h2.modMs _ (fun _ => rfl) (fun _ => rfl)
  exact (h3.modEth _).modPwr _

theorem loadStanding (h : s.Boots t cold) : s.Boots (t.loadStanding cold) cold := by
  unfold State.loadStanding
  obtain ⟨c, copyB⟩ := t.fl.loadStanding
  dsimp -zeta only
  extract_lets s1 fault s2 s3 s4 s5
  have h2 : s.Boots s2 cold := ((h.modFl _).modRst _).modPwr _
  clear_value s2
  split
  · exact (h2.modRst _).log _
  · have h3 : s.Boots s3 cold := h2.applyStanding
    have h4 : s.Boots s4 cold := by
      unfold s4
      split
      · exact h3.log _
      · exact h3
    have h5 : s.Boots s5 cold := by
      unfold s5
      split
      · exact h4.log _
      · exact h4
    exact h5.modSec _

theorem bootSteward (h : s.Boots t cold) : s.Boots (t.bootSteward).1 cold := by
  unfold State.bootSteward
  extract_lets pref u twice
  have hu : s.Boots u cold := h.modRst _
  clear_value u
  split
  · extract_lets back why v w x ok
    have hv : s.Boots v cold := hu.modRst _
    have hw : s.Boots w cold := by
      unfold w
      split
      · exact hv.log _
      · exact hv
    have hx : s.Boots x cold := hw.modSec _
    clear_value x ok
    dsimp only
    split
    · exact hx
    · exact hx.modRst _
  · exact (hu.modRst _).log _

theorem bootBullock (h : s.Boots t cold) (st : FwImage) : s.Boots (t.bootBullock st) cold := by
  unfold State.bootBullock
  extract_lets qualified get pref
  split
  · extract_lets v w
    have hv : s.Boots v cold := h.modRst _
    have hw : s.Boots w cold := by
      unfold w
      split
      · exact hv.log _
      · exact hv
    exact hw.modSec _
  · exact h.modRst _

theorem noteRestricted (h : s.Boots t cold) : s.Boots t.noteRestricted cold := by
  unfold State.noteRestricted
  split
  · exact h.log _
  · exact h

theorem setAligned (h : s.Boots t cold) (b : Bool) : s.Boots (t.setAligned b) cold := by
  unfold State.setAligned
  split
  · exact h
  · exact (h.modTime _).log _

theorem chooseUp (h : s.Boots t cold) : s.Boots t.chooseUp cold := by
  unfold State.chooseUp State.follow State.followNone
  split
  · exact h
  · split
    · exact h
    · split
      · exact h.modTime _
      · split
        · split
          · exact h.modTime _
          · exact h.modTime _
        · exact h

theorem retime (h : s.Boots t cold) : s.Boots t.retime cold := h.chooseUp.setAligned _

theorem ownSource (h : s.Boots t cold) : s.Boots t.ownSource cold := by
  unfold State.ownSource
  exact h.modTime _ (fun _ => by split <;> rfl)

theorem actAsSource (h : s.Boots t cold) : s.Boots t.actAsSource cold := h.modTime _

theorem startTime (h : s.Boots t cold) : s.Boots t.startTime cold := by
  unfold State.startTime
  extract_lets u
  have hu : s.Boots u cold := by
    unfold u
    split
    · exact h.modTime _
    · exact h
  clear_value u
  split
  · exact hu
  · split
    · exact hu.retime
    · split
      · exact hu.ownSource.retime
      · exact hu.actAsSource.retime

theorem settled (h : s.Boots t cold) : s.Boots t.setLimit.reassess cold := (h.modPwr _).modPwr _

theorem raiseFault (h : s.Boots t cold) (cond k : Nat) : s.Boots (t.raiseFault cond k) cold := by
  unfold State.raiseFault
  split
  · exact h
  · exact ((h.modPwr _).log _).settled

theorem becomeReady (h : s.Boots t cold) : s.Boots (t.becomeReady cold) cold := by
  unfold State.becomeReady
  extract_lets u r v none_
  have hv : s.Boots v cold := (h.modRst _).modPwr _
  clear_value v
  split
  · exact ((hv.modFl _).modRst _).log _
  · exact hv

end State.Boots

end Sys2Proof.Machine
end

section
/-! PROOFS. The lanes after a start, and the state after a reset. -/

namespace Sys2Proof.Machine

set_option Elab.async false -- in turn: many waiting threads need much memory

/-- A lane of the reset state that began bring-up. -/
def trainedLane : Lane := { state := .train, txMask := 0xFF }

/-- Lane j shows nothing since the reset, or has begun bring-up under a light-source unit that is lit. -/
def State.Dawning (s : State) (lit : BitVec 4) (j : Nat) : Prop :=
  s.lane j = {} ∨ (s.lane j = trainedLane ∧ lit.getLsbD (j / 16) = true)

theorem State.laneUsable_lit {s : State} {k : Nat} (usable : s.laneUsable k = true) : s.fab.lsuOk.getLsbD (k / 16) = true := by
  unfold State.laneUsable at usable
  grind

/-- A lane that shows nothing since the reset has nothing to cut off when bring-up begins. -/
theorem State.startTrain_dawn {s : State} {k : Nat} (usable : s.laneUsable k = true) (dawn : s.lane k = {} ∨ s.lane k = trainedLane) :
    s.startTrain k = s.modLane k (fun l => l.leave .train) ∧ (s.lane k).leave .train = trainedLane := by
  have idle : (s.lane k).cutFrom = none ∧ (s.lane k).cut = none ∧ (s.lane k).state.carries = false ∧
      (s.lane k).leave .train = trainedLane := by
    rcases dawn with same | same <;> rw [same] <;> decide
  obtain ⟨free, whole, quiet, left_⟩ := idle
  refine ⟨?_, left_⟩
  unfold State.startTrain State.laneDown State.cutOff
  simp [usable, free, whole, quiet]

/-- Other lanes in the fabric. -/
def State.withLanes (s : State) (lanes : Vector Lane 64) : State := s.modFab (fun f => { f with lanes := lanes })

/-- Lane k begins bring-up when it may. -/
def State.trainUsable (s : State) (k : Nat) : State := if s.laneUsable k then s.startTrain k else s

theorem State.trainUsable_dawning {s : State} {lit : BitVec 4} {k : Nat} (ok : s.fab.lsuOk = lit) (hk : k < 64)
    (dawn : ∀ j, j < 64 → s.Dawning lit j) :
    ∃ lanes, s.trainUsable k = s.withLanes lanes ∧ ∀ j, j < 64 → (s.trainUsable k).Dawning lit j := by
  unfold State.trainUsable
  split
  · next usable =>
    obtain ⟨moved, trained⟩ := State.startTrain_dawn usable ((dawn k hk).imp_right And.left)
    refine ⟨_, moved, fun j hj => ?_⟩
    rw [moved]
    by_cases same : j = k
    · subst same
      have now : (s.modLane j (fun l => l.leave .train)).lane j = trainedLane := by simp [hk, trained]
      exact .inr ⟨now, ok ▸ State.laneUsable_lit usable⟩
    · have now : (s.modLane k (fun l => l.leave .train)).lane j = s.lane j := by simp [same]
      unfold State.Dawning
      exact now ▸ dawn j hj
  · exact ⟨s.fab.lanes, rfl, dawn⟩

theorem State.foldl_trainUsable_dawning {lit : BitVec 4} (ks : List Nat) (range : ∀ k ∈ ks, k < 64) :
    ∀ s : State, s.fab.lsuOk = lit → (∀ j, j < 64 → s.Dawning lit j) →
      ∃ lanes, ks.foldl State.trainUsable s = s.withLanes lanes ∧ ∀ j, j < 64 → (ks.foldl State.trainUsable s).Dawning lit j := by
  induction ks with
  | nil => exact fun s _ dawn => ⟨s.fab.lanes, rfl, dawn⟩
  | cons k ks ih =>
    intro s ok dawn
    obtain ⟨lanes, one, dawn'⟩ := State.trainUsable_dawning ok (range k List.mem_cons_self) dawn
    rw [one] at dawn'
    obtain ⟨more, rest, last⟩ := ih (fun j hj => range j (List.mem_cons_of_mem _ hj)) (s.withLanes lanes) ok dawn'
    rw [List.foldl_cons, one]
    exact ⟨more, rest, last⟩

theorem State.lightUp_eq (s : State) : s.lightUp =
    (List.range 64).foldl State.trainUsable (s.modFab (fun f => { f with lsuOk := f.lsuLit, lsuPresent := f.lsuFitted })) := rfl

theorem State.lane_dark {s : State} (dark : s.fab.lanes = Vector.replicate 64 {}) (j : Nat) : s.lane j = {} := by
  simp only [State.lane, dark, Vector.getD, Vector.toArray_replicate]
  generalize ({} : Lane) = l
  rw [Array.getD_eq_getD_getElem?, Array.getElem?_replicate]
  split <;> rfl

/-- The lanes that may begin bring-up do, and nothing else of the fabric but the units changes. -/
theorem State.lightUp_dawning {s : State} (dark : s.fab.lanes = Vector.replicate 64 {}) : ∃ lanes, s.lightUp =
    (s.modFab (fun f => { f with lsuOk := f.lsuLit, lsuPresent := f.lsuFitted })).withLanes lanes ∧
    ∀ j, j < 64 → s.lightUp.Dawning s.fab.lsuLit j := by
  rw [State.lightUp_eq]
  exact State.foldl_trainUsable_dawning (List.range 64) (fun k hk => List.mem_range.mp hk) _ rfl (fun j _ => .inl (State.lane_dark dark j))

/-- The switch is closed and the rails are up. -/
def State.railsUp (s : State) : State := (s.modPins (fun p => { p with pwrGood := true })).modPwr (fun p => { p with switchOn := true })

def BootView.railsUp (v : BootView) : BootView :=
  { v with pins := { v.pins with pwrGood := true }, pwr := (v.pwr.1, (v.pwr.2.1.1, v.pwr.2.1.2.1, v.pwr.2.1.2.2.1, true), v.pwr.2.2) }

def BootView.withLanes (v : BootView) (lanes : Vector Lane 64) : BootView :=
  { v with fab := (v.fab.1, v.fab.2.1, v.fab.2.2.1, lanes, v.fab.2.2.2.2) }

namespace State.Boots

variable {s t : State} {cold : Bool}

theorem railsUp (h : s.Boots t cold) : s.railsUp.Boots t.railsUp cold := congrArg BootView.railsUp h

theorem withLanes (h : s.Boots t cold) (lanes : Vector Lane 64) : (s.withLanes lanes).Boots (t.withLanes lanes) cold :=
  congrArg (BootView.withLanes · lanes) h

theorem lanes (h : s.Boots t cold) : t.fab.lanes = s.fab.lanes := congrArg (fun v => v.fab.2.2.2.1) h

theorem lit (h : s.Boots t cold) : t.fab.lsuLit = s.fab.lsuLit := congrArg (fun v => v.fab.2.2.2.2) h

theorem dawning (h : s.Boots t cold) {lit : BitVec 4} {j : Nat} (dawn : s.Dawning lit j) : t.Dawning lit j := by
  unfold State.Dawning State.lane at *
  rwa [h.lanes]

end State.Boots

/-- A start leaves the view but for the rails, which come up, and the lanes, which begin bring-up. -/
theorem State.startUp_boots {s : State} (cold : Bool) (dark : s.fab.lanes = Vector.replicate 64 {}) :
    ∃ lanes, (s.railsUp.withLanes lanes).Boots (s.startUp cold) cold ∧
      ∀ j, j < 64 → (s.startUp cold).Dawning s.fab.lsuLit j := by
  unfold State.startUp
  extract_lets s1 s2 ob s3 s4 unlocked s5 s6 s7
  have h3 : s.Boots s3 cold := ((State.Boots.refl s cold).modSec _).loadOptions.modSec _
  have h4 : s.railsUp.Boots s4 cold := h3.railsUp
  clear_value s4
  have h5 : s.railsUp.Boots s5 cold := by
    unfold s5
    split
    · exact h4.modSec _
    · exact h4
  have h6 : s.railsUp.Boots s6 cold := by
    unfold s6
    split
    · exact h5.log _
    · exact h5
  have h7 : s.railsUp.Boots s7 cold := h6.modSec _
  replace h7 := h7.bootSteward
  clear_value s7
  split
  · next u e =>
    rw [e] at h7
    have done := h7.noteRestricted.settled
    exact ⟨s.fab.lanes, done, fun j hj => done.dawning (.inl (State.lane_dark dark j))⟩
  · next u img e =>
    rw [e] at h7
    extract_lets v r drawn y z
    have hy : s.railsUp.Boots y cold := (h7.loadStanding.bootBullock img).noteRestricted.draw.modEth _ |>.startTime.settled
    have hz : s.railsUp.Boots z cold := by
      unfold z
      split
      · exact hy.raiseFault 3 0
      · exact hy
    clear_value z
    obtain ⟨lanes, lit_, dawn⟩ := State.lightUp_dawning (s := z) (hz.lanes.trans dark)
    rw [hz.lit] at dawn
    have lighted : (s.railsUp.withLanes lanes).Boots z.lightUp cold := lit_ ▸ (hz.modFab _).withLanes lanes
    split
    · exact ⟨lanes, lighted.becomeReady, fun j hj => (State.Boots.refl z.lightUp cold).becomeReady.dawning (dawn j hj)⟩
    · exact ⟨lanes, lighted, dawn⟩

end Sys2Proof.Machine
end

section
/-! PROOFS. What a reset clears and what it keeps. -/

namespace Sys2Proof.Machine

set_option Elab.async false -- in turn: many waiting threads need much memory

/-! ## The Goose at a reset (R422, R424) -/

theorem Goose.summary_bootView (g : Goose) (now : BitVec 64) (aligned : Bool) : (g.summary now aligned).bootView = g.bootView := by
  have fresh (e : GEvent) : (g.newRecord now aligned e).bootView = g.bootView := by
    unfold Goose.newRecord
    split <;> rfl
  unfold Goose.summary
  split
  · exact fresh _
  · rfl

theorem Goose.writeNext_bootView (g : Goose) (now : BitVec 64) (aligned : Bool) (fails : Nat) :
    (g.writeNext now aligned fails).bootView = g.bootView := by
  unfold Goose.writeNext
  split
  · rfl
  · split
    · rfl
    · obtain ⟨ring, filled, failed⟩ := Goose.failTimes_eq fails g
      rw [failed, Goose.summary_bootView]
      rfl

theorem Goose.writeAllN_bootView (n : Nat) (g : Goose) (now : BitVec 64) (aligned : Bool) :
    (Goose.writeAllN n g now aligned).bootView = g.bootView := by
  induction n generalizing g with
  | zero => rfl
  | succ n ih => rw [Goose.writeAllN, ih, Goose.writeNext_bootView]

theorem Goose.onReset_bootView (g : Goose) (now : BitVec 64) (aligned : Bool) :
    (g.onReset now aligned).bootView = (g.hours, g.pcycle, false) := by
  unfold Goose.onReset Goose.writeAll
  rw [Goose.writeAllN_bootView]
  unfold Goose.writeHeld
  split <;> rfl

/-! ## What is cleared -/

/-- The state whose blocks a reset clears: what was under way is broken off, the fuse operation that runs completes. -/
def State.quenched (s : State) (cold : Bool) : State :=
  let s := if cold then s else s.breakOff
  let run := !s.sec.fuses.isEmpty
  let s := s.modSec SecBlk.fuseDone
  if run then s.log s.sec.fuseEvent else s

theorem State.quenched_sheltered (s : State) (cold : Bool) :
    (s.quenched cold).sheltered = (s.modSec SecBlk.fuseDone).sheltered := by
  have broken : (if cold then s else s.breakOff).sheltered = s.sheltered := by
    split
    · rfl
    · exact State.Keeps.sheltered_breakOff s
  unfold State.quenched
  extract_lets t run u
  have fused : u.sheltered = (s.modSec SecBlk.fuseDone).sheltered :=
    congrArg (fun v => (v.1, v.2.1.fuseDone, v.2.2)) broken
  clear_value u
  split
  · obtain ⟨hours, cycles⟩ := Goose.log_counts u.goose u.now u.time.aligned u.sec.fuseEvent
    rw [← fused]
    unfold State.sheltered
    simp only [State.log, hours, cycles]
  · exact fused

theorem State.quenched_cold_pwr (s : State) : (s.quenched true).pwr = s.pwr := by
  unfold State.quenched
  rw [if_pos rfl]
  dsimp only
  split <;> rfl

/-- The Goose after a reset. -/
def State.gooseReset (s : State) (cold : Bool) : Goose :=
  let g := s.goose.onReset s.now s.time.aligned
  if cold then { g with freezeMaxS := 10 } else g

theorem State.gooseReset_bootView (s : State) (cold : Bool) : (s.gooseReset cold).bootView = (s.goose.hours, s.goose.pcycle, false) := by
  have both := Goose.onReset_bootView s.goose s.now s.time.aligned
  unfold State.gooseReset
  cases cold with
  | true => exact both
  | false => exact both

/-- Every block at its reset value. -/
def State.cleared (s : State) (cold : Bool) : State :=
  { s with
    cores := Vector.replicate 8 {}
    ms := s.ms.onReset cold
    goose := s.gooseReset cold
    fab := { nextXid := s.fab.nextXid, lsuFitted := s.fab.lsuFitted, lsuLit := s.fab.lsuLit }
    time := s.time.onReset cold
    ud := Vector.replicate 2 {}
    parts := Vector.replicate 8 {}
    eth := s.eth.onReset cold
    locals := []
    pwr := s.pwr.onReset cold s.pins.throttleN
    rst := s.rst.onReset
    fl := s.fl.onReset
    sec := s.sec.onReset cold
    pins := s.pins.onReset cold }

theorem State.teardown_eq (s : State) (cold : Bool) : s.teardown cold = (s.quenched cold).cleared cold := rfl

/-! ## The view of a start after it -/

/-- What a reset of the given kind leaves in the view of a start: cleared blocks, the record and the fuses kept. -/
structure State.TornDown (s u : State) (cold : Bool) : Prop where
  work : u.pending = s.pending ∧ u.cores = Vector.replicate 8 {} ∧ u.ud = Vector.replicate 2 {} ∧ u.parts = Vector.replicate 8 {} ∧
    u.locals = []
  fab : u.fab.out = [] ∧ u.fab.dups = [] ∧ u.fab.fmap = [] ∧ u.fab.lanes = Vector.replicate 64 {} ∧ u.fab.lsuLit = s.fab.lsuLit
  eth : u.eth.qps = [] ∧ u.eth.windows = []
  rst : u.rst = s.rst.onReset
  fuses : u.sec.bootView = s.sec.fuseDone.bootView
  goose : u.goose.bootView = (s.goose.hours, s.goose.pcycle, false)
  pins : u.pins = s.pins.onReset cold
  clocks : u.pwr.opCur = 8 ∧ u.pwr.opTarget = 8 ∧ u.pwr.halved = false ∧ u.pwr.stopThermal = s.pwr.stopThermal
  ifCold : cold = true → u.ms.mem = [] ∧ u.ms.ue = [] ∧ u.time.ft = 0 ∧ u.pwr = s.pwr.onReset true s.pins.throttleN
  ifWarm : cold = false → u.pwr.capW = s.pwr.capW ∧ u.pwr.gain = s.pwr.gain ∧ u.pwr.idleStopped = 0xFF ∧
    ∀ c a, c < 8 → ctlBase c ≤ a → a < ctlBase c + 0x400000 → u.ms.byte a = 0

theorem EthBlk.onReset_bootView (e : EthBlk) (cold : Bool) : (e.onReset cold).bootView = ([], []) := by
  unfold EthBlk.onReset
  split <;> rfl

theorem SecBlk.onReset_bootView (x : SecBlk) (cold : Bool) : (x.onReset cold).bootView = x.bootView := by
  unfold SecBlk.onReset
  split <;> rfl

theorem PwrBlk.onReset_clocks (p : PwrBlk) (cold throttleN : Bool) :
    (p.onReset cold throttleN).opCur = 8 ∧ (p.onReset cold throttleN).opTarget = 8 ∧ (p.onReset cold throttleN).halved = false ∧
      (p.onReset cold throttleN).stopThermal = p.stopThermal := by
  unfold PwrBlk.onReset
  split
  · dsimp only
    split <;> exact ⟨rfl, rfl, rfl, rfl⟩
  · exact ⟨rfl, rfl, rfl, rfl⟩

theorem PwrBlk.onReset_warm (p : PwrBlk) (throttleN : Bool) : (p.onReset false throttleN).capW = p.capW ∧
    (p.onReset false throttleN).gain = p.gain ∧ (p.onReset false throttleN).idleStopped = 0xFF := by
  unfold PwrBlk.onReset
  rw [if_neg Bool.false_ne_true]
  exact ⟨rfl, rfl, rfl⟩

/-- A byte in a range that is cleared reads as the default. -/
theorem Mem.read_foldl_clearRange {d : Byte} {a : Nat} (lo hi : Nat → Nat) (cs : List Nat) (m : Mem)
    (reached : m.read d a = d ∨ ∃ c ∈ cs, lo c ≤ a ∧ a < hi c) :
    (cs.foldl (fun x c => Mem.clearRange x (lo c) (hi c)) m).read d a = d := by
  induction cs generalizing m with
  | nil => simpa using reached
  | cons c cs ih =>
    refine ih _ ?_
    rw [Mem.read_clearRange]
    rcases reached with clear | ⟨e, he, within⟩
    · left
      split
      · rfl
      · exact clear
    · rcases List.mem_cons.mp he with rfl | he
      · exact .inl (if_pos within)
      · exact .inr ⟨e, he, within⟩

theorem MemSys.byte_onReset_warm (m : MemSys) {c a : Nat} (hc : c < 8) (above : ctlBase c ≤ a) (below : a < ctlBase c + 0x400000) :
    (m.onReset false).byte a = 0 := by
  unfold MemSys.byte MemSys.onReset
  rw [if_neg Bool.false_ne_true]
  generalize (List.range 4).foldl MemSys.freeFrames m = n
  dsimp only
  exact Mem.read_foldl_clearRange ctlBase (fun c => ctlBase c + 0x400000) (List.range 8) _
    (.inr ⟨c, List.mem_range.mpr hc, above, below⟩)

theorem State.quenched_shelters (s : State) (cold : Bool) :
    (s.quenched cold).pending = s.pending ∧ (s.quenched cold).sec = s.sec.fuseDone ∧ (s.quenched cold).rst = s.rst ∧
      (s.quenched cold).pins = s.pins ∧ ((s.quenched cold).pwr.capW, (s.quenched cold).pwr.gain, (s.quenched cold).pwr.stopThermal) =
        (s.pwr.capW, s.pwr.gain, s.pwr.stopThermal) ∧ (s.quenched cold).fab.lsuLit = s.fab.lsuLit ∧
      (s.quenched cold).goose.hours = s.goose.hours ∧ (s.quenched cold).goose.pcycle = s.goose.pcycle := by
  have same := s.quenched_sheltered cold
  simp only [State.sheltered, Prod.mk.injEq] at same ⊢
  exact same

theorem State.teardown_tornDown (s : State) (cold : Bool) : s.TornDown (s.teardown cold) cold := by
  obtain ⟨pending, sec, rst, pins, power, lit, hours, cycles⟩ := s.quenched_shelters cold
  obtain ⟨cap, gain, thermal⟩ : _ ∧ _ ∧ _ := by simpa only [Prod.mk.injEq] using power
  obtain ⟨cur, target, halved, stop⟩ := PwrBlk.onReset_clocks (s.quenched cold).pwr cold (s.quenched cold).pins.throttleN
  rw [State.teardown_eq]
  constructor
  case work => exact ⟨pending, rfl, rfl, rfl, rfl⟩
  case fab => exact ⟨rfl, rfl, rfl, rfl, lit⟩
  case eth => exact Prod.mk.inj (EthBlk.onReset_bootView _ cold)
  case rst => exact congrArg RstBlk.onReset rst
  case fuses => exact (SecBlk.onReset_bootView _ cold).trans (congrArg SecBlk.bootView sec)
  case goose => rw [← hours, ← cycles]; exact State.gooseReset_bootView _ cold
  case pins => exact congrArg (PinBlk.onReset · cold) pins
  case clocks => exact ⟨cur, target, halved, stop.trans thermal⟩
  case ifCold =>
    rintro rfl
    have power := s.quenched_cold_pwr
    refine ⟨rfl, rfl, rfl, ?_⟩
    rw [← power, ← pins, State.cleared]
  case ifWarm =>
    rintro rfl
    obtain ⟨uCap, uGain, idle⟩ := PwrBlk.onReset_warm (s.quenched false).pwr (s.quenched false).pins.throttleN
    unfold State.cleared
    refine ⟨uCap.trans cap, uGain.trans gain, idle, fun c a hc above below => ?_⟩
    exact MemSys.byte_onReset_warm _ hc above below

/-! ## A reset as a whole -/

/-- What the view of a start tells of the state after it, from the torn-down one. -/
theorem State.doReset_view (x : State) (cold : Bool) : ∃ lanes,
    ((x.teardown cold).railsUp.withLanes lanes).Boots (x.doReset cold) cold ∧
      ∀ j, j < 64 → (x.doReset cold).Dawning x.fab.lsuLit j := by
  obtain ⟨-, -, -, dark, lit⟩ := (x.teardown_tornDown cold).fab
  rw [← lit]
  exact State.startUp_boots cold dark

/-- What the torn-down state, and the lanes beside it, have in the view of a start. -/
theorem State.Boots.fields {v t : State} {cold : Bool} (h : v.Boots t cold) :
    (t.pending = v.pending ∧ t.cores = v.cores ∧ t.ud = v.ud ∧ t.parts = v.parts ∧ t.locals = v.locals) ∧
    (t.ms.mem = v.ms.mem ∧ t.ms.ue = v.ms.ue) ∧ (t.fab.out = v.fab.out ∧ t.fab.dups = v.fab.dups ∧ t.fab.fmap = v.fab.fmap) ∧
    (t.eth.qps = v.eth.qps ∧ t.eth.windows = v.eth.windows) ∧ t.rst.bootView = v.rst.bootView ∧
    t.pwr.bootView cold = v.pwr.bootView cold ∧ t.sec.bootView = v.sec.bootView ∧ t.goose.bootView = v.goose.bootView ∧
    t.time.ft = v.time.ft ∧ t.pins = v.pins := by
  unfold State.Boots State.bootView at h
  simp only [BootView.mk.injEq, Prod.mk.injEq, FabBlk.bootView, EthBlk.bootView] at h
  obtain ⟨work, mem, ⟨out, dups, fmap, -, -⟩, eth, rst, pwr, sec, goose, ft, pins⟩ := h
  exact ⟨work, mem, ⟨out, dups, fmap⟩, eth, rst, pwr, sec, goose, ft, pins⟩

/-- The module after a reset of the given kind on x. -/
structure State.Restarted (x t : State) (cold : Bool) : Prop where
  work : t.pending = x.pending ∧ t.cores = Vector.replicate 8 {} ∧ t.ud = Vector.replicate 2 {} ∧ t.parts = Vector.replicate 8 {} ∧
    t.locals = []
  lanes : ∀ j, j < 64 → t.Dawning x.fab.lsuLit j
  fab : t.fab.out = [] ∧ t.fab.dups = [] ∧ t.fab.fmap = []
  eth : t.eth.qps = [] ∧ t.eth.windows = []
  rst : fld t.rst.cause 0 16 = fld x.rst.cause 0 16 ∧ t.rst.resets = (if x.rst.powerUp then 0 else satInc x.rst.resets) ∧
    t.rst.waiting = none ∧ t.rst.held = x.rst.held
  fuses : t.sec.revoked = x.sec.fuseDone.revoked ∧ t.sec.floorSt = x.sec.fuseDone.floorSt ∧ t.sec.floorBu = x.sec.fuseDone.floorBu
  goose : t.goose.hours = x.goose.hours ∧ t.goose.pcycle = x.goose.pcycle ∧ t.goose.frozen = false
  pins : t.pins = { x.pins.onReset cold with pwrGood := true }
  clocks : t.pwr.opCur = 8 ∧ t.pwr.opTarget = 8 ∧ t.pwr.halved = false ∧ t.pwr.stopThermal = x.pwr.stopThermal ∧ t.pwr.switchOn = true
  ifCold : cold = true → t.ms.mem = [] ∧ t.ms.ue = [] ∧ t.pwr.stopBrown = x.pwr.stopBrown ∧ t.pwr.stopEn = x.pwr.stopEn
  ifWarm : cold = false → t.pwr.capW = x.pwr.capW ∧ t.pwr.gain = x.pwr.gain ∧ t.pwr.idleStopped = 0xFF ∧
    ∀ c a, c < 8 → ctlBase c ≤ a → a < ctlBase c + 0x400000 → t.ms.byte a = 0

theorem PwrBlk.onReset_stops (p : PwrBlk) (throttleN : Bool) :
    (p.onReset true throttleN).stopBrown = p.stopBrown ∧ (p.onReset true throttleN).stopEn = p.stopEn := by
  unfold PwrBlk.onReset
  rw [if_pos rfl]
  dsimp only
  split <;> exact ⟨rfl, rfl⟩

theorem State.doReset_restarted (x : State) (cold : Bool) : x.Restarted (x.doReset cold) cold := by
  have torn := x.teardown_tornDown cold
  obtain ⟨lanes, view, dawn⟩ := x.doReset_view cold
  obtain ⟨uPending, uCores, uUd, uParts, uLocals⟩ := torn.work
  obtain ⟨uOut, uDups, uFmap, uLanes, uLit⟩ := torn.fab
  obtain ⟨uQps, uWindows⟩ := torn.eth
  obtain ⟨uCur, uTarget, uHalved, uStop⟩ := torn.clocks
  obtain ⟨work, ⟨mem, ue⟩, ⟨out, dups, fmap⟩, ⟨qps, windows⟩, rst, pwr, sec, goose, -, pins⟩ := view.fields
  obtain ⟨pending, cores, ud, parts, locals⟩ := work
  generalize x.doReset cold = t at *
  have power : t.pwr.bootView cold = ({ (x.teardown cold).pwr with switchOn := true } : PwrBlk).bootView cold := pwr
  simp only [PwrBlk.bootView, Prod.mk.injEq] at power
  obtain ⟨⟨cur, target, halved, gain, idle⟩, ⟨thermal, brown, en, on⟩, cap⟩ := power
  constructor
  case work => exact ⟨pending.trans uPending, cores.trans uCores, ud.trans uUd, parts.trans uParts, locals.trans uLocals⟩
  case lanes => exact dawn
  case fab => exact ⟨out.trans uOut, dups.trans uDups, fmap.trans uFmap⟩
  case eth => exact ⟨qps.trans uQps, windows.trans uWindows⟩
  case rst =>
    have both : t.rst.bootView = x.rst.onReset.bootView := rst.trans (congrArg RstBlk.bootView torn.rst)
    simpa only [RstBlk.bootView, RstBlk.onReset, Prod.mk.injEq] using both
  case fuses =>
    have both : t.sec.bootView = x.sec.fuseDone.bootView := sec.trans torn.fuses
    simpa only [SecBlk.bootView, Prod.mk.injEq] using both
  case goose =>
    have both : t.goose.bootView = (x.goose.hours, x.goose.pcycle, false) := goose.trans torn.goose
    simpa only [Goose.bootView, Prod.mk.injEq] using both
  case pins => exact pins.trans (congrArg (fun p : PinBlk => { p with pwrGood := true }) torn.pins)
  case clocks => exact ⟨cur.trans uCur, target.trans uTarget, halved.trans uHalved, thermal.trans uStop, on⟩
  case ifCold =>
    intro isCold
    obtain ⟨uMem, uUe, -, uPwr⟩ := torn.ifCold isCold
    obtain ⟨uBrown, uEn⟩ := x.pwr.onReset_stops x.pins.throttleN
    rw [uPwr] at brown en
    exact ⟨mem.trans uMem, ue.trans uUe, brown.trans uBrown, en.trans uEn⟩
  case ifWarm =>
    intro isWarm
    obtain ⟨uCap, uGain, uIdle, clear⟩ := torn.ifWarm isWarm
    subst isWarm
    refine ⟨(Option.some.inj cap).trans uCap, gain.trans uGain, idle.trans uIdle, fun c a hc above below => ?_⟩
    rw [MemSys.byte, mem]
    exact clear c a hc above below

/-- The state x in which a reset runs holds what s does, but that the cause is entered. -/
structure State.Resetting (s x : State) (bit : Nat) : Prop where
  pending : x.pending = s.pending
  cause : fld x.rst.cause 0 16 = fld (setBit s.rst.cause bit) 0 16
  resets : x.rst.resets = s.rst.resets
  powerUp : x.rst.powerUp = s.rst.powerUp
  held : x.rst.held = s.rst.held
  lit : x.fab.lsuLit = s.fab.lsuLit
  fuses : x.sec = s.sec
  hours : x.goose.hours = s.goose.hours
  cycles : x.goose.pcycle = s.goose.pcycle
  cap : x.pwr.capW = s.pwr.capW
  gain : x.pwr.gain = s.pwr.gain

theorem State.Resetting.done {s x : State} {bit : Nat} (h : s.Resetting x bit) (cold : Bool) : s.ResetDone (x.doReset cold) cold bit := by
  have after := x.doReset_restarted cold
  obtain ⟨pending, cores, ud, parts, locals⟩ := after.work
  obtain ⟨out, dups, fmap⟩ := after.fab
  obtain ⟨qps, windows⟩ := after.eth
  obtain ⟨cause, resets, waiting, held⟩ := after.rst
  obtain ⟨revoked, floorSt, floorBu⟩ := after.fuses
  obtain ⟨hours, cycles, thawed⟩ := after.goose
  obtain ⟨cur, target, halved, -, -⟩ := after.clocks
  rw [h.fuses] at revoked floorSt floorBu
  rw [h.powerUp, h.resets] at resets
  refine ⟨cores, ud, parts, locals, fun j hj => h.lit ▸ after.lanes j hj, out, dups, fmap, qps, windows, cause.trans h.cause, resets,
    waiting, held.trans h.held, cur, target, halved, congrArg PinBlk.pwrGood after.pins, revoked, floorSt, floorBu,
    hours.trans h.hours, cycles.trans h.cycles, thawed, pending.trans h.pending, fun isCold => ?_, fun isWarm => ?_⟩
  · obtain ⟨mem, ue, -, -⟩ := after.ifCold isCold
    exact ⟨mem, ue⟩
  · obtain ⟨cap, gain, idle, clear⟩ := after.ifWarm isWarm
    exact ⟨cap.trans h.cap, gain.trans h.gain, idle, clear⟩

end Sys2Proof.Machine
end

section
/-! PROOFS. O52 Resets: the sources of a reset, which runs now or waits. -/

namespace Sys2Proof.Machine

set_option Elab.async false -- in turn: many waiting threads need much memory

/-! ## A reset that runs, and one that waits (R383, R385) -/

/-- Its kind: a cold one that waits is merged with it. -/
def State.resetKind (s : State) (cold : Bool) : Bool := cold || s.rst.waiting == some true

/-- The state x holds what the resets of s look at. -/
structure State.Near (s x : State) : Prop where
  pending : x.pending = s.pending
  cause : x.rst.cause = s.rst.cause
  resets : x.rst.resets = s.rst.resets
  powerUp : x.rst.powerUp = s.rst.powerUp
  held : x.rst.held = s.rst.held
  waiting : x.rst.waiting = s.rst.waiting
  cores : x.cores = s.cores
  ms : x.ms = s.ms
  fab : x.fab = s.fab
  sec : x.sec = s.sec
  hours : x.goose.hours = s.goose.hours
  cycles : x.goose.pcycle = s.goose.pcycle
  cap : x.pwr.capW = s.pwr.capW
  gain : x.pwr.gain = s.pwr.gain

theorem State.Near.refl (s : State) : s.Near s := ⟨rfl, rfl, rfl, rfl, rfl, rfl, rfl, rfl, rfl, rfl, rfl, rfl, rfl, rfl⟩

theorem State.Near.log {s x : State} (h : s.Near x) (e : GEvent) : s.Near (x.log e) :=
  have counts := Goose.log_counts x.goose x.now x.time.aligned e
  { h with hours := counts.1.trans h.hours, cycles := counts.2.trans h.cycles }

theorem State.Near.modPins {s x : State} (h : s.Near x) (f : PinBlk → PinBlk) : s.Near (x.modPins f) := { h with }

theorem State.Near.modPwr {s x : State} (h : s.Near x) (f : PwrBlk → PwrBlk) (cap : (f x.pwr).capW = x.pwr.capW)
    (gain : (f x.pwr).gain = x.pwr.gain) : s.Near (x.modPwr f) := { h with cap := cap.trans h.cap, gain := gain.trans h.gain }

theorem State.requestReset_open (s : State) (cold : Bool) (bit : Nat) (free : s.resetBlocked = false) :
    s.requestReset cold bit = ((s.modRst (fun r => { r with cause := setBit r.cause bit })).log
      { source := 0x01, code := 0x01, detail := [((setBit s.rst.cause bit).toNat, 8), (b2n cold, 1)] }).doReset (s.resetKind cold) :=
  if_neg (by
    have same : s.resetBlocked ≠ true := by simp [free]
    exact same)

/-- The reset runs. -/
theorem State.Near.runs {s x : State} (h : s.Near x) (cold : Bool) (bit : Nat) (free : x.resetBlocked = false) :
    s.ResetDone (x.requestReset cold bit) (s.resetKind cold) bit := by
  have kind : x.resetKind cold = s.resetKind cold := by simp only [State.resetKind, h.waiting]
  rw [State.requestReset_open x cold bit free, kind]
  have noted := h.log { source := 0x01, code := 0x01, detail := [((setBit x.rst.cause bit).toNat, 8), (b2n cold, 1)] }
  refine State.Resetting.done ?_ _
  exact { pending := h.pending, cause := congrArg (fun c => fld (setBit c bit) 0 16) h.cause, resets := h.resets, powerUp := h.powerUp,
          held := h.held, lit := congrArg FabBlk.lsuLit h.fab, fuses := h.sec,
          hours := (Goose.log_counts x.goose _ _ _).1.trans h.hours,
          cycles := (Goose.log_counts x.goose _ _ _).2.trans h.cycles, cap := h.cap, gain := h.gain }

/-- The reset waits, and the module is not ready. -/
def State.ResetWaits (s t : State) (cold : Bool) (bit : Nat) : Prop :=
  t.rst.cause = setBit s.rst.cause bit ∧ t.rst.waiting = some (s.resetKind cold) ∧ t.rst.ready = false ∧
    t.cores = s.cores ∧ t.ms = s.ms ∧ t.fab = s.fab ∧ t.sec = s.sec

theorem State.Near.waits {s x : State} (h : s.Near x) (cold : Bool) (bit : Nat) (blocked : x.resetBlocked = true) :
    s.ResetWaits (x.requestReset cold bit) cold bit := by
  have kind : (cold || x.rst.waiting == some true) = s.resetKind cold := by simp only [State.resetKind, h.waiting]
  rw [State.requestReset_blocked x cold bit blocked]
  exact ⟨congrArg (setBit · bit) h.cause, congrArg some kind, rfl, h.cores, h.ms, h.fab, h.sec⟩

theorem State.requestReset_blocked_pins (x : State) (cold : Bool) (bit : Nat) (blocked : x.resetBlocked = true) :
    (x.requestReset cold bit).pins = x.pins ∧ (x.requestReset cold bit).pwr = x.pwr ∧
      (x.requestReset cold bit).rst.bootFail = x.rst.bootFail := by
  rw [State.requestReset_blocked x cold bit blocked]
  exact ⟨rfl, rfl, rfl⟩

/-- A reset is done whatever the Goose writes after it. -/
theorem State.ResetDone.modGoose {s t : State} {cold : Bool} {bit : Nat} (h : s.ResetDone t cold bit) (f : Goose → Goose)
    (same : (f t.goose).bootView = (t.goose.hours, t.goose.pcycle, false)) : s.ResetDone (t.modGoose f) cold bit := by
  obtain ⟨cores, ud, parts, locals, lanes, out, dups, fmap, qps, windows, cause, resets, waiting, held, cur, target, halved, good,
    revoked, floorSt, floorBu, hours, cycles, -, rest⟩ := h
  simp only [Goose.bootView, Prod.mk.injEq] at same
  obtain ⟨hours', cycles', thawed⟩ := same
  exact ⟨cores, ud, parts, locals, lanes, out, dups, fmap, qps, windows, cause, resets, waiting, held, cur, target, halved, good,
    revoked, floorSt, floorBu, hours'.trans hours, cycles'.trans cycles, thawed, rest⟩

/-! ## The sources of a reset -/

/-- A source that only asks for a reset. -/
theorem State.requested (s x : State) (cold : Bool) (bit : Nat) (near : s.Near x) (blocks : x.resetBlocked = s.resetBlocked)
    (pins : x.pins = s.pins) :
    (s.resetBlocked = false → s.ResetDone (x.requestReset cold bit) (s.resetKind cold) bit) ∧
    (s.resetBlocked = true → s.ResetWaits (x.requestReset cold bit) cold bit ∧ (x.requestReset cold bit).pins = s.pins) := by
  refine ⟨fun free => near.runs cold bit (blocks.trans free), fun blocked => ⟨near.waits cold bit (blocks.trans blocked), ?_⟩⟩
  obtain ⟨same, -, -⟩ := x.requestReset_blocked_pins cold bit (blocks.trans blocked)
  exact same.trans pins

theorem exec_overcurrentTrip (s : State) : exec .overcurrentTrip s =
    .next (((s.modPwr (fun p => { p with stopOver := true })).log
      { source := 0x02, code := 0x07, detail := [(3, 1)] }).requestReset true 7) := rfl

theorem exec_firmwareRequest (cold : Bool) (s : State) : exec (.firmwareRequest cold) s = .next (s.requestReset cold 7) := rfl

theorem exec_bullockFault (s : State) : exec .bullockFault s = .next (s.requestReset false 8) := rfl

theorem exec_brownOut_back (mv : BitVec 16) (s : State) : exec (.brownOut ⟨mv, true⟩) s = .next (s.brownDown mv) := rfl

theorem exec_brownOut_lost (mv : BitVec 16) (s : State) : exec (.brownOut ⟨mv, false⟩) s = .next (s.inputLost mv) := rfl

/-- A brown-out that recovers within the hold-up time. -/
theorem State.brownDown_resets (s : State) (mv : BitVec 16) :
    (s.resetBlocked = false → s.ResetDone (s.brownDown mv) true 1) ∧
    (s.resetBlocked = true → s.ResetWaits (s.brownDown mv) true 1 ∧ (s.brownDown mv).pins = { s.pins with pwrGood := false } ∧
      (s.brownDown mv).pwr = s.pwr) := by
  obtain ⟨x, hx⟩ : ∃ x, x = (s.modPins (fun p => { p with pwrGood := false })).log
    { source := 0x02, code := 0x02, detail := [(mv.toNat, 2)] } := ⟨_, rfl⟩
  have near : s.Near x := hx ▸ ((State.Near.refl s).modPins _).log _
  have blocks : x.resetBlocked = s.resetBlocked := by rw [hx]; rfl
  have shape : s.brownDown mv = (x.requestReset true 1).modGoose (fun g =>
      g.onReset (x.requestReset true 1).now (x.requestReset true 1).time.aligned) := by
    rw [hx]
    rfl
  rw [shape]
  constructor
  · intro free
    have done : s.ResetDone (x.requestReset true 1) true 1 := near.runs true 1 (blocks.trans free)
    exact done.modGoose _ (Goose.onReset_bootView _ _ _)
  · intro blocked
    obtain ⟨pins, pwr, -⟩ := x.requestReset_blocked_pins true 1 (blocks.trans blocked)
    exact ⟨near.waits true 1 (blocks.trans blocked), pins.trans (hx ▸ rfl), pwr.trans (hx ▸ rfl)⟩

/-- A firmware that did not reach READY counts in BOOT_FAIL. -/
def State.barked (s : State) : State := if s.rst.ready then s else s.modRst (fun r => { r with bootFail := satInc r.bootFail })

theorem exec_watchdog (s : State) : exec .watchdog s =
    if s.rst.recovery || s.stewardDown then .next s else .next (s.barked.requestReset false 5) := rfl

theorem State.barked_near (s : State) : s.Near s.barked ∧ s.barked.resetBlocked = s.resetBlocked ∧ s.barked.pins = s.pins ∧
    s.barked.rst.bootFail = if s.rst.ready then s.rst.bootFail else satInc s.rst.bootFail := by
  unfold State.barked
  split
  · exact ⟨State.Near.refl s, rfl, rfl, rfl⟩
  · exact ⟨{ State.Near.refl s with }, rfl, rfl, rfl⟩

/-- The watchdog, where it is armed. -/
theorem State.watchdog_resets (s : State) :
    (s.resetBlocked = false → s.ResetDone (s.barked.requestReset false 5) (s.resetKind false) 5) ∧
    (s.resetBlocked = true → (s.ResetWaits (s.barked.requestReset false 5) false 5 ∧ (s.barked.requestReset false 5).pins = s.pins) ∧
      (s.barked.requestReset false 5).rst.bootFail = if s.rst.ready then s.rst.bootFail else satInc s.rst.bootFail) := by
  obtain ⟨near, blocks, pins, count⟩ := s.barked_near
  obtain ⟨runs, waits⟩ := s.requested s.barked false 5 near blocks pins
  refine ⟨runs, fun blocked => ⟨waits blocked, ?_⟩⟩
  obtain ⟨-, -, same⟩ := s.barked.requestReset_blocked_pins false 5 (blocks.trans blocked)
  exact same.trans count

theorem State.requestReset_stopThermal (x : State) (cold : Bool) (bit : Nat) :
    (x.requestReset cold bit).pwr.stopThermal = x.pwr.stopThermal := by
  by_cases blocked : x.resetBlocked = true
  · obtain ⟨-, pwr, -⟩ := x.requestReset_blocked_pins cold bit blocked
    rw [pwr]
  · rw [State.requestReset_open x cold bit (Bool.eq_false_of_not_eq_true blocked)]
    obtain ⟨-, -, -, thermal, -⟩ := (State.doReset_restarted _ _).clocks
    exact thermal

/-- The end of a thermal stop. -/
theorem State.thermalTripClear_resets (s : State) :
    ((s.modPwr (fun p => { p with stopThermal := false })).requestReset false 6).pwr.stopThermal = false ∧
    (s.pwr.stopBrown = false → s.pins.pwrEn = true → s.rst.held = false →
      s.ResetDone ((s.modPwr (fun p => { p with stopThermal := false })).requestReset false 6) (s.resetKind false) 6) := by
  refine ⟨State.requestReset_stopThermal _ _ _, fun brown en held => ?_⟩
  refine ((State.Near.refl s).modPwr (fun p => { p with stopThermal := false }) rfl rfl).runs false 6 ?_
  simp [State.resetBlocked, State.modPwr, brown, en, held]

theorem exec_thermalTripClear (s : State) : exec .thermalTripClear s = if s.pwr.stopThermal && s.pwr.cool then
    .next ((s.modPwr (fun p => { p with stopThermal := false })).requestReset false 6) else .next s := rfl

end Sys2Proof.Machine
end

section
/-! PROOFS. O52 Resets: the pins RESET_N and PWR_EN, power-on, and the whole. -/

namespace Sys2Proof.Machine

set_option Elab.async false -- in turn: many waiting threads need much memory

theorem PinBlk.onReset_levels (p : PinBlk) (cold : Bool) :
    (p.onReset cold).resetN = p.resetN ∧ (p.onReset cold).pwrEn = p.pwrEn ∧ (p.onReset cold).pwrEnHeld = p.pwrEnHeld := by
  cases cold with
  | true => exact ⟨rfl, rfl, rfl⟩
  | false => exact ⟨rfl, rfl, rfl⟩

/-! ## RESET_N (R383) -/

/-- RESET_N is low and holds the module. -/
def State.pinHeld (s : State) : State := (s.modPins (fun p => { p with resetN := false })).modRst (fun r => { r with held := true })

/-- What of the reset record and of time a module held by RESET_N keeps. -/
def State.keepRecord (t s : State) : State :=
  (t.modTime (fun _ => s.time)).modRst (fun x =>
    { x with waiting := s.rst.waiting, resets := s.rst.resets, bootFail := s.rst.bootFail, powerUp := s.rst.powerUp })

theorem exec_resetPin (s : State) : exec .resetPin s = if !s.pins.resetN then .next s else
    .next (((s.pinHeld.requestReset true 2).teardown true).keepRecord (s.pinHeld.requestReset true 2)) := rfl

theorem State.resetPin_holds (s : State) :
    ∃ t, t = ((s.pinHeld.requestReset true 2).teardown true).keepRecord (s.pinHeld.requestReset true 2) ∧
    t.pins.resetN = false ∧ t.rst.held = true ∧ t.rst.ready = false ∧ t.rst.waiting = some true ∧ t.rst.cause = setBit s.rst.cause 2 ∧
    t.rst.resets = s.rst.resets ∧ t.cores = Vector.replicate 8 {} ∧ t.ms.mem = [] ∧ t.time = s.time ∧ t.sec.revoked = s.sec.fuseDone.revoked := by
  have blocked : s.pinHeld.resetBlocked = true := by simp [State.resetBlocked, State.pinHeld, State.modRst]
  have shape := s.pinHeld.requestReset_blocked true 2 blocked
  obtain ⟨x, hx⟩ : ∃ x, x = s.pinHeld.requestReset true 2 := ⟨_, rfl⟩
  rw [← hx] at shape ⊢
  have rst : x.rst = { s.rst with held := true, cause := setBit s.rst.cause 2, waiting := some true, ready := false } := by rw [shape]; rfl
  have resets : x.rst.resets = s.rst.resets := by rw [rst]
  have pins : x.pins = { s.pins with resetN := false } := by rw [shape]; rfl
  have time : x.time = s.time := by rw [shape]; rfl
  have sec : x.sec = s.sec := by rw [shape]; rfl
  have torn := x.teardown_tornDown true
  obtain ⟨-, cores, -, -, -⟩ := torn.work
  obtain ⟨mem, -, -, -⟩ := torn.ifCold rfl
  obtain ⟨low, -, -⟩ := x.pins.onReset_levels true
  have clear : (x.teardown true).rst = { cause := setBit s.rst.cause 2, bootFail := x.rst.onReset.bootFail, resets := x.rst.onReset.resets,
                                          held := true } := by rw [torn.rst, RstBlk.onReset, rst]
  have fuses := (congrArg Prod.fst torn.fuses).trans (congrArg (fun y => y.fuseDone.revoked) sec)
  refine ⟨_, rfl, ?_, congrArg RstBlk.held clear, congrArg RstBlk.ready clear, congrArg RstBlk.waiting rst, congrArg RstBlk.cause clear,
    resets, cores, mem, time, fuses⟩
  calc (x.teardown true).pins.resetN = (x.pins.onReset true).resetN := congrArg PinBlk.resetN torn.pins
    _ = x.pins.resetN := low
    _ = false := congrArg PinBlk.resetN pins

/-- RESET_N is high again. -/
def State.pinFree (s : State) : State := (s.modPins (fun p => { p with resetN := true })).modRst (fun r => { r with held := false })

theorem exec_resetNRelease (s : State) : exec .resetNRelease s = .next s.pinFree.resumeReset := rfl

theorem State.resumeReset_open (s : State) (c : Bool) (waits : s.rst.waiting = some c) (free : s.resetBlocked = false) :
    s.resumeReset = s.doReset c := by
  unfold State.resumeReset
  rw [waits]
  exact if_neg (by simp [free])

theorem State.resetNRelease_resets (s : State) (c : Bool) (waits : s.rst.waiting = some c) (thermal : s.pwr.stopThermal = false)
    (brown : s.pwr.stopBrown = false) (en : s.pins.pwrEn = true) : ∃ t, exec .resetNRelease s = .next t ∧
      t.pins.resetN = true ∧ t.rst.held = false ∧ t.rst.waiting = none ∧
      t.rst.resets = (if s.rst.powerUp then 0 else satInc s.rst.resets) ∧
      t.cores = Vector.replicate 8 {} ∧ (c = true → t.ms.mem = []) := by
  have free : s.pinFree.resetBlocked = false := by
    simp [State.resetBlocked, State.pinFree, State.modRst, State.modPins, thermal, brown, en]
  have after := s.pinFree.doReset_restarted c
  obtain ⟨-, cores, -, -, -⟩ := after.work
  obtain ⟨-, resets, waiting, held⟩ := after.rst
  obtain ⟨high, -, -⟩ := s.pinFree.pins.onReset_levels c
  refine ⟨s.pinFree.doReset c, ?_, (congrArg PinBlk.resetN after.pins).trans high, held, waiting, resets, cores, fun isCold => ?_⟩
  · rw [exec_resetNRelease, State.resumeReset_open s.pinFree c waits free]
  · obtain ⟨mem, -, -, -⟩ := after.ifCold isCold
    exact mem

/-! ## PWR_EN (R383, R441) -/

theorem exec_pwrEnRise (early : Bool) (s : State) : exec (.pwrEnRise early) s = if s.pins.pwrEn then .next s
    else if early then .next (s.modPins (fun p => { p with pwrEnHeld := true })) else .next s.switchOn := rfl

theorem exec_pwrEnHoldEnd (s : State) : exec .pwrEnHoldEnd s = if s.pins.pwrEnHeld then .next s.switchOn else .next s := rfl

/-- The switch is closed; the cold reset is still to come. -/
def State.closing (s : State) : State :=
  ((s.modPins (fun p => { p with pwrEn := true, pwrEnHeld := false })).modPwr (fun p => { p with stopBrown := false, stopEn := false })).modRst
    (fun r => { r with powerUp := true })

theorem State.switchOn_eq (s : State) : s.switchOn = s.closing.requestReset true 0 := rfl

theorem State.switchOn_resets (s : State) :
    s.switchOn.pins.pwrEn = true ∧ s.switchOn.pins.pwrEnHeld = false ∧ s.switchOn.pwr.stopBrown = false ∧ s.switchOn.pwr.stopEn = false ∧
    (s.pwr.stopThermal = true ∨ s.rst.held = true → s.switchOn.rst.waiting = some true ∧ s.switchOn.rst.ready = false ∧
      s.switchOn.rst.cause = setBit s.rst.cause 0 ∧ s.switchOn.cores = s.cores) ∧
    (s.pwr.stopThermal = false → s.rst.held = false → s.switchOn.pwr.switchOn = true ∧ s.switchOn.rst.waiting = none ∧
      s.switchOn.rst.resets = 0 ∧ s.switchOn.cores = Vector.replicate 8 {} ∧ s.switchOn.ms.mem = []) := by
  have blocks : s.closing.resetBlocked = (s.pwr.stopThermal || s.rst.held) := by
    simp [State.resetBlocked, State.closing, State.modRst, State.modPwr, State.modPins]
  rw [State.switchOn_eq]
  cases held : (s.pwr.stopThermal || s.rst.held) with
  | true =>
    obtain ⟨cause, waiting, ready, cores, -, -, -⟩ := (State.Near.refl s.closing).waits true 0 (blocks.trans held)
    obtain ⟨pins, pwr, -⟩ := s.closing.requestReset_blocked_pins true 0 (blocks.trans held)
    refine ⟨congrArg PinBlk.pwrEn pins, congrArg PinBlk.pwrEnHeld pins, congrArg PwrBlk.stopBrown pwr, congrArg PwrBlk.stopEn pwr,
      fun _ => ⟨waiting, ready, cause, cores⟩, fun thermal free => ?_⟩
    simp [thermal, free] at held
  | false =>
    rw [State.requestReset_open _ true 0 (blocks.trans held)]
    obtain ⟨x, hx⟩ : ∃ x, x = (s.closing.modRst (fun r => { r with cause := setBit r.cause 0 })).log
      { source := 0x01, code := 0x01, detail := [((setBit s.closing.rst.cause 0).toNat, 8), (b2n true, 1)] } := ⟨_, rfl⟩
    have kind : s.closing.resetKind true = true := rfl
    rw [← hx, kind]
    have after := x.doReset_restarted true
    obtain ⟨-, cores, -, -, -⟩ := after.work
    obtain ⟨-, resets, waiting, -⟩ := after.rst
    obtain ⟨-, -, -, -, on⟩ := after.clocks
    obtain ⟨mem, -, brown, en⟩ := after.ifCold rfl
    obtain ⟨-, levelEn, levelHeld⟩ := x.pins.onReset_levels true
    have xPins : x.pins = s.closing.pins := by rw [hx]; rfl
    have xBrown : x.pwr.stopBrown = false := by rw [hx]; rfl
    have xEn : x.pwr.stopEn = false := by rw [hx]; rfl
    have xUp : x.rst.powerUp = true := by rw [hx]; rfl
    rw [xUp] at resets
    refine ⟨?_, ?_, brown.trans xBrown, en.trans xEn, fun holds => ?_, fun _ _ => ⟨on, waiting, resets, cores, mem⟩⟩
    · exact (congrArg PinBlk.pwrEn after.pins).trans (levelEn.trans (congrArg PinBlk.pwrEn xPins))
    · exact (congrArg PinBlk.pwrEnHeld after.pins).trans (levelHeld.trans (congrArg PinBlk.pwrEnHeld xPins))
    · rcases holds with thermal | low
      · simp [thermal] at held
      · simp [low] at held

/-! ## Power-on (R391) -/

theorem State.loadOptions_flash (s : State) (cold : Bool) : (s.loadOptions cold).fl.flash = s.fl.flash := by
  have kept : s.fl.loadOptions.flash = s.fl.flash := by simp [FlashBlk.loadOptions]
  unfold State.loadOptions
  extract_lets s1 f ceil s2 s3 stat s4
  have h3 : s3.fl = s.fl.loadOptions := rfl
  clear_value s3
  have h4 : s4.fl = s.fl.loadOptions := by
    unfold s4
    split
    · exact h3
    · exact h3
  clear_value s4
  rw [← kept, ← h4]
  split <;> rfl

theorem State.loadOptions_ready (s : State) (cold : Bool) : (s.loadOptions cold).rst.ready = s.rst.ready := by
  unfold State.loadOptions
  extract_lets s1 f ceil s2 s3 stat s4
  have same : s4.rst.ready = s.rst.ready := by
    unfold s4
    split <;> rfl
  clear_value s4
  split
  · exact same
  · exact same

/-- The island is powered, and its power-on is recorded. -/
def State.islandOn (s : State) (pwrEn : Bool) : State := (s.islandUp pwrEn).log { source := 0x01, code := 0x01, detail := [(1, 8), (1, 1)] }

/-- What a power-on leaves, whether the start waits or not. -/
def State.PoweredOn (s t : State) : Prop :=
  t.cores = Vector.replicate 8 {} ∧ t.ms.mem = [] ∧ t.time.ft = 0 ∧ t.eth.qps = [] ∧
    t.rst.cause.getLsbD 0 = true ∧ t.rst.resets = 0 ∧ t.goose.hours = s.goose.hours ∧ t.goose.pcycle = satInc s.goose.pcycle ∧
    t.sec.revoked = s.sec.revoked ∧ t.sec.floorSt = s.sec.floorSt ∧ t.sec.floorBu = s.sec.floorBu ∧ t.pending = s.pending

theorem State.Boots.poweredOn {s v t : State} {pwrEn : Bool} (h : v.Boots t true)
    (hv : ∃ fab pwr pins, v = { s.islandOn pwrEn with fab := fab, pwr := pwr, pins := pins }) : s.PoweredOn t := by
  obtain ⟨fab, pwr, pins, rfl⟩ := hv
  obtain ⟨⟨pending, cores, -, -, -⟩, ⟨mem, -⟩, -, ⟨qps, -⟩, rst, -, sec, goose, ft, -⟩ := h.fields
  have record := goose.trans (Goose.log_bootView _ _ _ _)
  simp only [RstBlk.bootView, Goose.bootView, SecBlk.bootView, Prod.mk.injEq] at rst record sec
  obtain ⟨cause, resets, -, -⟩ := rst
  obtain ⟨hours, cycles, -⟩ := record
  obtain ⟨revoked, floorSt, floorBu⟩ := sec
  have one : (s.islandOn pwrEn).rst.cause = 1 := rfl
  have first : t.rst.cause.getLsbD 0 = true := by
    rw [one] at cause
    have bit := congrArg (BitVec.getLsbD · 0) cause
    simpa [fld] using bit
  exact ⟨cores, mem, ft, qps, first, resets, hours, cycles, revoked, floorSt, floorBu, pending⟩

theorem State.powerOn_eq (s : State) (pwrEn : Bool) : s.powerOn pwrEn = if (s.islandOn pwrEn).resetBlocked then
    (((s.islandOn pwrEn).loadOptions true).modPwr (fun p => { p with stopEn := !pwrEn })).modRst
      (fun r => { r with waiting := some true, powerUp := true })
    else (s.islandOn pwrEn).startUp true := rfl

theorem State.powerOn_resets (s : State) (pwrEn : Bool) : s.PoweredOn (s.powerOn pwrEn) ∧
    (s.powerOn pwrEn).pins.pwrEn = pwrEn ∧ (s.powerOn pwrEn).pins.pwrGood = (pwrEn && s.pins.resetN) ∧
    (s.powerOn pwrEn).rst.held = !s.pins.resetN ∧
    (pwrEn = false ∨ s.pins.resetN = false → (s.powerOn pwrEn).fl.flash = s.fl.flash ∧ (s.powerOn pwrEn).rst.waiting = some true ∧
      (s.powerOn pwrEn).rst.ready = false ∧ (s.powerOn pwrEn).pwr.stopEn = !pwrEn) := by
  have blocks : (s.islandOn pwrEn).resetBlocked = (!s.pins.resetN || !pwrEn) := by
    have fresh : (PwrBlk.onReset {} true s.pins.throttleN).stopThermal = false ∧
        (PwrBlk.onReset {} true s.pins.throttleN).stopBrown = false := by
      cases s.pins.throttleN <;> exact ⟨rfl, rfl⟩
    obtain ⟨thermal, brown⟩ := fresh
    show ((PwrBlk.onReset {} true s.pins.throttleN).stopThermal || (PwrBlk.onReset {} true s.pins.throttleN).stopBrown || !s.pins.resetN ||
      !pwrEn) = _
    rw [thermal, brown]
    rfl
  rw [State.powerOn_eq]
  split
  · next blocked =>
    have loaded : (s.islandOn pwrEn).Boots ((s.islandOn pwrEn).loadOptions true) true := (State.Boots.refl _ true).loadOptions
    obtain ⟨-, -, -, -, rst, -, -, -, -, pins⟩ := loaded.fields
    have on := loaded.poweredOn ⟨_, _, _, rfl⟩
    simp only [RstBlk.bootView, Prod.mk.injEq] at rst
    obtain ⟨-, -, -, held⟩ := rst
    have flash := State.loadOptions_flash (s.islandOn pwrEn) true
    have ready := State.loadOptions_ready (s.islandOn pwrEn) true
    generalize (s.islandOn pwrEn).loadOptions true = w at on pins held flash ready ⊢
    refine ⟨on, congrArg PinBlk.pwrEn pins, ?_, held, fun _ => ⟨flash, rfl, ready, rfl⟩⟩
    have low : (pwrEn && s.pins.resetN) = false := by
      rw [blocks] at blocked
      generalize s.pins.resetN = n at blocked
      revert blocked
      cases pwrEn <;> cases n <;> decide
    exact (congrArg PinBlk.pwrGood pins).trans low.symm
  · next free =>
    obtain ⟨lanes, view, -⟩ := State.startUp_boots (s := s.islandOn pwrEn) true rfl
    obtain ⟨-, -, -, -, rst, -, -, -, -, pins⟩ := view.fields
    have both : s.pins.resetN = true ∧ pwrEn = true := by
      rw [blocks] at free
      generalize s.pins.resetN = n at free
      revert free
      cases pwrEn <;> cases n <;> decide
    obtain ⟨high, rfl⟩ := both
    simp only [RstBlk.bootView, Prod.mk.injEq] at rst
    obtain ⟨-, -, -, held⟩ := rst
    refine ⟨view.poweredOn ⟨_, _, _, rfl⟩, congrArg PinBlk.pwrEn pins, ?_, held, fun holds => ?_⟩
    · rw [high]
      exact congrArg PinBlk.pwrGood pins
    · simp [high] at holds

end Sys2Proof.Machine
end

section
/-! PROOFS. O52 Resets. -/

namespace Sys2Proof.Machine

set_option Elab.async false -- in turn: many waiting threads need much memory

/-- Settles O52: every source asks for a reset, which runs (`State.doReset_restarted`) or waits (`State.Near.waits`). -/
theorem resets : Obligations.Resets := by
  intro mv cold s waits cool kind
  have waiting {t : State} {c : Bool} {bit : Nat} (h : s.ResetWaits t c bit ∧ t.pins = s.pins) : waits t c bit := by
    obtain ⟨⟨cause, wait, ready, cores, ms, fab, sec⟩, pins⟩ := h
    exact ⟨cause, wait, ready, cores, ms, fab, sec, pins⟩
  refine ⟨?sources, ?brownBack, ?brownLost, ?unarmed, ?watchdog, ?hot, ?cooled, ?pinLow, ?pinFalls, ?released, ?resumes, rfl, ?up, ?early,
    ?noHold, ?closes, ?powerOn⟩
  case sources =>
    intro row hrow
    simp only [List.mem_cons, List.not_mem_nil, or_false] at hrow
    rcases hrow with rfl | rfl | rfl
    · have near : s.Near ((s.modPwr (fun p => { p with stopOver := true })).log { source := 0x02, code := 0x07, detail := [(3, 1)] }) :=
        ((State.Near.refl s).modPwr _ rfl rfl).log _
      obtain ⟨runs, holds⟩ := s.requested _ true 7 near rfl rfl
      exact ⟨_, exec_overcurrentTrip s, runs, fun blocked => waiting (holds blocked)⟩
    · obtain ⟨runs, holds⟩ := s.requested s cold 7 (.refl s) rfl rfl
      exact ⟨_, exec_firmwareRequest cold s, runs, fun blocked => waiting (holds blocked)⟩
    · obtain ⟨runs, holds⟩ := s.requested s false 8 (.refl s) rfl rfl
      exact ⟨_, exec_bullockFault s, runs, fun blocked => waiting (holds blocked)⟩
  case brownBack =>
    obtain ⟨runs, holds⟩ := s.brownDown_resets mv
    refine ⟨_, exec_brownOut_back mv s, runs, fun blocked => ?_⟩
    obtain ⟨⟨cause, wait, ready, cores, ms, fab, sec⟩, pins, pwr⟩ := holds blocked
    exact ⟨cause, wait, ready, cores, ms, fab, sec, pins, pwr⟩
  case brownLost =>
    refine ⟨_, exec_brownOut_lost mv s, ?_⟩
    rw [State.inputLost_eq]
    exact ⟨rfl, rfl, rfl, rfl⟩
  case unarmed =>
    intro h
    rw [exec_watchdog, if_pos (by simpa using h)]
  case watchdog =>
    intro recovery down
    obtain ⟨runs, holds⟩ := s.watchdog_resets
    refine ⟨_, (exec_watchdog s).trans (if_neg (by simp [recovery, down])), runs, fun blocked => ?_⟩
    obtain ⟨waited, count⟩ := holds blocked
    exact ⟨waiting waited, count⟩
  case hot =>
    intro h
    rw [exec_thermalTripClear, if_neg (by simpa [PwrBlk.cool, cool, imp_iff_not_or] using h)]
  case cooled =>
    intro thermal isCool
    obtain ⟨ends, runs⟩ := s.thermalTripClear_resets
    exact ⟨_, (exec_thermalTripClear s).trans (if_pos (by simpa [PwrBlk.cool, thermal] using isCool)), ends, runs⟩
  case pinLow =>
    intro low
    rw [exec_resetPin, if_pos (by simp [low])]
  case pinFalls =>
    intro high
    obtain ⟨t, ht, holds⟩ := s.resetPin_holds
    refine ⟨t, ?_, holds⟩
    rw [exec_resetPin, if_neg (by simp [high]), ht]
  case released =>
    intro none_
    have idle : s.pinFree.rst.waiting = none := none_
    rw [exec_resetNRelease, State.resumeReset, idle]
    rfl
  case resumes => exact fun c wait thermal brown en => s.resetNRelease_resets c wait thermal brown en
  case up =>
    intro en
    rw [exec_pwrEnRise, if_pos en]
  case early =>
    intro low
    rw [exec_pwrEnRise, if_neg (by simp [low]), if_pos rfl]
    rfl
  case noHold =>
    intro free
    rw [exec_pwrEnHoldEnd, if_neg (by simp [free])]
  case closes =>
    rintro i (⟨low, rfl⟩ | ⟨held, rfl⟩)
    · exact ⟨_, by rw [exec_pwrEnRise, if_neg (by simp [low]), if_neg Bool.false_ne_true], s.switchOn_resets⟩
    · exact ⟨_, by rw [exec_pwrEnHoldEnd, if_pos held], s.switchOn_resets⟩
  case powerOn =>
    obtain ⟨⟨cores, mem, ft, qps, first, resets, hours, cycles, revoked, floorSt, floorBu, pending⟩, en, good, held, waits_⟩ :=
      s.powerOn_resets cold
    exact ⟨_, rfl, cores, mem, ft, qps, first, resets, hours, cycles, revoked, floorSt, floorBu, pending, en, good, held, waits_⟩

end Sys2Proof.Machine
end
